-- ==== Sys2Proof/Word.lean ====
section
/-!
DEFINITION. The word types of the module and the plainest arithmetic on them.
-/

namespace Sys2Proof

/-- A byte of an SRAM, of a store or of a packet. -/
abbrev Byte := BitVec 8

/-- A scalar or address register, or a device address: 64 bits (02 Table 2.1). -/
abbrev Word := BitVec 64

/-- A tile: 256 bytes, byte 0 in the least significant place (02 Table 2.1). -/
abbrev Tile := BitVec 2048

/-- An accumulator tile: 16 × 16 FP32 values, 1,024 bytes (02 Table 2.1). -/
abbrev Acc := BitVec 8192

/-- A logical core number: row in [19:10], column in [9:0] (01 R21). -/
abbrev Lcn := BitVec 20

/-- The low 32 bits of a word, sign-extended (the 32-bit results of 03 R103). -/
def sext32 (x : Word) : Word := (x.truncate 32).signExtend 64

/-- The low `n` bits of a number. -/
def lowBits (n v : Nat) : Nat := v % 2 ^ n

/-- Bits [hi:lo] of a number, as the manual writes them. -/
def bits (v hi lo : Nat) : Nat := (v / 2 ^ lo) % 2 ^ (hi + 1 - lo)

/-- 1 for true and 0 for false, as a register bit. -/
def bit (b : Bool) : Nat := if b then 1 else 0

/-- A count that stops at its maximum, and whether this event found it there (02 R91). -/
def satAdd (max count by_ : Nat) : Nat × Bool :=
  if count + by_ ≤ max then (count + by_, false) else (max, true)

/-- A signed value read from the low `w` bits of a number. -/
def toSigned (w v : Nat) : Int :=
  if 2 ^ (w - 1) ≤ v % 2 ^ w then (v % 2 ^ w : Int) - 2 ^ w else (v % 2 ^ w : Int)

/-- The low `w` bits of an integer, as a number. -/
def ofSigned (w : Nat) (v : Int) : Nat := (v % (2 ^ w : Int)).toNat

end Sys2Proof
end

