-- ==== Sys2Proof/Terms.lean ====
section
/-!
DEFINITION. The operand types of the commands: who issues an instruction and under which guard, and the operand forms
that the encodings of chapters 03 and 04 give.
-/

namespace Sys2Proof

/-- What the cc in which an instruction is offered decides beside the state (02 Table 2.7, R60 to R62; 06 R225; log entry
47). -/
inductive Contention
  /-- The thread's instruction buffer is empty. -/
  | buffer
  /-- A source register is not ready yet by the latencies of 02 Table 2.5. -/
  | source
  /-- The divider is busy. -/
  | divider
  /-- The other pipe needs the read port as well. -/
  | pipe
  /-- Another port needs the same bank: 0 the read port, 1 the write port, 2 the network-interface port. -/
  | bank (port : Fin 3)
  /-- The walker takes the read port. -/
  | walker
deriving DecidableEq, Repr

/-- Who issues an instruction: logical core, thread, its guard (03 Table 3.1, R98), and what it meets in its cc. -/
structure Issue where
  core : Lcn
  thread : Fin 4
  pred : Fin 8
  pn : Bool
  held : List Contention := []
deriving DecidableEq, Repr

/-- The second operand of a scalar operation: s[RS2] in class 0x0, IMM7 or IMM32 in class 0x1 (03 R102, R95). -/
inductive Src2
  | reg (rs2 : Fin 32)
  | imm7 (v : BitVec 7)
  | imm32 (v : BitVec 32)
deriving DecidableEq, Repr

/-- The immediate of a predicate compare: IMM9, or IMM32 in the long form (03 R685). -/
inductive CmpImm
  | imm9 (v : BitVec 9)
  | imm32 (v : BitVec 32)
deriving DecidableEq, Repr

/-- The offset of an access: OFF6 scaled by the access size, or OFF32 in bytes (03 R108, R95). -/
inductive Off
  | off6 (v : BitVec 6)
  | off32 (v : BitVec 32)
deriving DecidableEq, Repr

/-- The offset of a tile access: OFF8 in tiles, or OFF32 in bytes (04 R173). -/
inductive TileOff
  | off8 (v : BitVec 8)
  | off32 (v : BitVec 32)
deriving DecidableEq, Repr

/-- Access sizes of the memory class: .b, .h, .w, .d (03 Table 3.7). -/
inductive Size | b | h | w | d
deriving DecidableEq, Repr

/-- Bytes of an access size. -/
def Size.bytes : Size → Nat
  | .b => 1
  | .h => 2
  | .w => 4
  | .d => 8

end Sys2Proof

namespace Sys2Proof.Machine

/-- An object table entry (07 Table 7.7) with the initial contents that Marker reads at its source. -/
structure ObjectEntry where
  size : Nat
  src : Word
  kind : Nat
  oflags : Nat
  first : Nat
  count : Nat
  pinLcn : Nat
  content : List Byte
  /-- Its reserved bytes, OFLAGS and PIN_LCN bits are zero. -/
  reservedZero : Bool := true
deriving DecidableEq, Repr

/-- A cut-order descriptor with what it names (07 Table 7.6). -/
structure Descriptor where
  format : Nat
  flags : Nat
  tag : Word
  imageLen : Nat
  entry : Nat
  threads : Nat
  tpc : Nat
  localTiles : Nat
  seed : Word
  arg : Word
  objects : List ObjectEntry
  /-- Core index and logical core of each pin. -/
  pins : List (Nat × Nat)
  fields : Word
  status : Word
  /-- Every reserved byte of the descriptor, its object entries and its pins is zero. -/
  reservedZero : Bool
  /-- The image, the object table and the pin list could be read. -/
  readOk : Bool
  /-- OBJ_COUNT and PIN_COUNT. -/
  objCount : Nat := 0
  pinCount : Nat := 0
  /-- The addresses of the image, the object table and the pin list. -/
  imageAddr : Nat := 0
  objsAddr : Nat := 0
  pinsAddr : Nat := 0
  /-- The program image. -/
  image : List Byte
deriving DecidableEq, Repr

/-- What Marker reads for a CUT entry: the 128 bytes of the descriptor, and the image, the entries of the object table and of
the pin list that it names, each none where a read of it failed, with the initial contents of each object (07 R262,
R263). -/
structure CutReads where
  descriptor : BitVec 1024
  image : Option (List Byte)
  table : Option (List (BitVec 256))
  pins : Option (List (BitVec 64))
  contents : List (List Byte)
deriving DecidableEq, Repr

/-- A ring entry as Marker reads it from host memory (07 Table 7.5), with what it reads of the descriptor that a CUT names,
none where that read failed. -/
structure RingEntry where
  bytes : BitVec 512
  cut : Option CutReads
deriving DecidableEq, Repr

/-- A physical core position: field, panel, physical row within the panel, position 0 to 129 (15 R540). -/
structure Position where
  field : Nat
  panel : Nat
  row : Nat
  pos : Nat
deriving DecidableEq, Repr

/-- What happened while a bring-up command ran (16 Tables 16.2, 16.3): the fields whose transit domain did not come up, the
fields whose compute domain tripped, the failing flits of links by link number (none where the link did not reach UP; a
link that is not listed had none), and the positions that failed the start-up test. -/
structure BringUpOutcome where
  dead : List (Fin 64) := []
  tripped : List (Fin 64) := []
  links : List (Fin 65536 × Option Nat) := []
  failing : List Position := []
deriving DecidableEq, Repr

/-- What Thimble's boot ROM finds in a firmware slot: the VERSION in its header, zero if it cannot be read, and the first of
checks 1 to 4 of 20 R651 that fails, counted from 0. -/
structure SlotCheck where
  version : BitVec 32
  failed : Option (Fin 4)
deriving DecidableEq, Repr

/-- A frame from the unit (13 R471): ACKSEQ, returned credits, and its answer entries. -/
structure UnitFrame where
  kind : Fin 8
  dv : Bool
  fseq : Fin 1024
  ackseq : Fin 1024
  rdc : Fin 16
  wrc : Fin 16
  /-- CMD, TAG, STATUS of each entry, and whether it holds a reserved value. -/
  entries : List (Fin 16 × Fin 2048 × BitVec 8 × Bool)
  data : Tile
deriving DecidableEq, Repr

/-- What the unit advertises in step 3 of a training. -/
structure UnitCaps where
  capGib : Fin 4096
  rdcred : Fin 4096
  wrcred : Fin 1024
  unitId : BitVec 16
deriving DecidableEq, Repr

/-- How step 2 of a training ends: the lanes that are bad then, and the unit's echo of the lane map, none where none came within
the step's bound (13 R485, Table 13.8). -/
structure TrainedLanes where
  unlocked : BitVec 9
  echo : Option Word
deriving DecidableEq, Repr

/-- An alignment marker as it arrives on a lane: the lane number and the CRC-8 that it holds, and the CRC-8 that the port has
computed over the lane's last 65,535 blocks (13 R460). -/
structure LaneMarker where
  number : Fin 16
  crc : BitVec 8
  own : BitVec 8
deriving DecidableEq, Repr

/-- What a host answers: good data (ignored for a write), an error or poison, or data whose IDE check fails. -/
inductive HostReply
  | good (data : Tile)
  | error
  | ideFail
deriving DecidableEq, Repr

end Sys2Proof.Machine
end

