-- ==== Sys2Proof/Syntax.lean ====
section
/-!
DEFINITION. The commands of the module: one constructor for each row of spec/opcode_table.json, with the operands that the
row's rule gives it. `x` is the issuing core, thread and guard of an instruction; `c` a logical core; `t` a thread; `pkt` the
number of a packet.
-/

namespace Sys2Proof

open Sys2Proof.Machine

/-- A command (opcode table). -/
inductive Instr
  /-- R102: Scalar add writes a + b to RD, wrapping modulo 2^w. -/
  | add (x : Issue) (rd rs1 : Fin 32) (w32 : Bool) (b : Src2)
  /-- R102: Scalar subtract writes a − b to RD. -/
  | sub (x : Issue) (rd rs1 : Fin 32) (w32 : Bool) (b : Src2)
  /-- R102: Scalar bitwise AND writes a & b to RD. -/
  | and (x : Issue) (rd rs1 : Fin 32) (w32 : Bool) (b : Src2)
  /-- R102: Scalar bitwise OR writes a | b to RD. -/
  | or (x : Issue) (rd rs1 : Fin 32) (w32 : Bool) (b : Src2)
  /-- R102: Scalar bitwise XOR writes a ^ b to RD. -/
  | xor (x : Issue) (rd rs1 : Fin 32) (w32 : Bool) (b : Src2)
  /-- R102: Shift left by b mod w. -/
  | sll (x : Issue) (rd rs1 : Fin 32) (w32 : Bool) (b : Src2)
  /-- R102: Logical shift right by b mod w with zero fill. -/
  | srl (x : Issue) (rd rs1 : Fin 32) (w32 : Bool) (b : Src2)
  /-- R102: Arithmetic shift right by b mod w with sign fill. -/
  | sra (x : Issue) (rd rs1 : Fin 32) (w32 : Bool) (b : Src2)
  /-- R102: Writes the low w bits of a × b. -/
  | mul (x : Issue) (rd rs1 : Fin 32) (w32 : Bool) (b : Src2)
  /-- R104: Signed division toward zero on the shared divider, with defined results for zero and overflow. -/
  | div (x : Issue) (rd rs1 : Fin 32) (w32 : Bool) (b : Src2)
  /-- R104: Unsigned division on the shared divider; division by zero gives all ones. -/
  | divu (x : Issue) (rd rs1 : Fin 32) (w32 : Bool) (b : Src2)
  /-- R104: Signed remainder with the sign of a; division by zero gives the dividend. -/
  | rem (x : Issue) (rd rs1 : Fin 32) (w32 : Bool) (b : Src2)
  /-- R104: Unsigned remainder; division by zero gives the dividend. -/
  | remu (x : Issue) (rd rs1 : Fin 32) (w32 : Bool) (b : Src2)
  /-- R102: Writes the signed minimum of a and b. -/
  | min (x : Issue) (rd rs1 : Fin 32) (w32 : Bool) (b : Src2)
  /-- R102: Writes the signed maximum of a and b. -/
  | max (x : Issue) (rd rs1 : Fin 32) (w32 : Bool) (b : Src2)
  /-- R102: Writes the unsigned minimum of a and b. -/
  | minu (x : Issue) (rd rs1 : Fin 32) (w32 : Bool) (b : Src2)
  /-- R102: Writes the unsigned maximum of a and b. -/
  | maxu (x : Issue) (rd rs1 : Fin 32) (w32 : Bool) (b : Src2)
  /-- R101: Writes s[RS1] when the guard is true and the second operand otherwise. -/
  | sel (x : Issue) (rd rs1 : Fin 32) (w32 : Bool) (b : Src2)
  /-- R105: Writes the count of leading zeros of a, or w when a is zero. -/
  | clz (x : Issue) (rd rs1 : Fin 32) (w32 : Bool)
  /-- R105: Writes the count of set bits of a. -/
  | popc (x : Issue) (rd rs1 : Fin 32) (w32 : Bool)
  /-- R102: Long-form only; writes IMM32 into the upper half and keeps the low half of a. -/
  | lhi (x : Issue) (rd rs1 : Fin 32) (imm : BitVec 32)
  /-- R106: Writes the system value that the selector names, as it stands at issue. -/
  | rdsys (x : Issue) (rd : Fin 32) (sel : Fin 8)
  /-- R685: Sets PD when s[RS1] equals s[RS2]. -/
  | cmpEq (x : Issue) (pd : Fin 8) (rs1 rs2 : Fin 32)
  /-- R685: Sets PD when s[RS1] differs from s[RS2]. -/
  | cmpNe (x : Issue) (pd : Fin 8) (rs1 rs2 : Fin 32)
  /-- R685: Sets PD on signed less-than. -/
  | cmpLt (x : Issue) (pd : Fin 8) (rs1 rs2 : Fin 32)
  /-- R685: Sets PD on signed greater-or-equal. -/
  | cmpGe (x : Issue) (pd : Fin 8) (rs1 rs2 : Fin 32)
  /-- R685: Sets PD on unsigned less-than. -/
  | cmpLtu (x : Issue) (pd : Fin 8) (rs1 rs2 : Fin 32)
  /-- R685: Sets PD on unsigned greater-or-equal. -/
  | cmpGeu (x : Issue) (pd : Fin 8) (rs1 rs2 : Fin 32)
  /-- R685: Sets PD when s[RS1] equals the sign-extended immediate. -/
  | cmpiEq (x : Issue) (pd : Fin 8) (rs1 : Fin 32) (i : CmpImm)
  /-- R685: Sets PD when s[RS1] differs from the immediate. -/
  | cmpiNe (x : Issue) (pd : Fin 8) (rs1 : Fin 32) (i : CmpImm)
  /-- R685: Sets PD on signed less-than against the immediate. -/
  | cmpiLt (x : Issue) (pd : Fin 8) (rs1 : Fin 32) (i : CmpImm)
  /-- R685: Sets PD on signed greater-or-equal against the immediate. -/
  | cmpiGe (x : Issue) (pd : Fin 8) (rs1 : Fin 32) (i : CmpImm)
  /-- R685: Sets PD on unsigned less-than against the immediate. -/
  | cmpiLtu (x : Issue) (pd : Fin 8) (rs1 : Fin 32) (i : CmpImm)
  /-- R685: Sets PD on unsigned greater-or-equal against the immediate. -/
  | cmpiGeu (x : Issue) (pd : Fin 8) (rs1 : Fin 32) (i : CmpImm)
  /-- R685: Sets PD on signed greater-than against the immediate. -/
  | cmpiGt (x : Issue) (pd : Fin 8) (rs1 : Fin 32) (i : CmpImm)
  /-- R685: Sets PD on signed less-or-equal against the immediate. -/
  | cmpiLe (x : Issue) (pd : Fin 8) (rs1 : Fin 32) (i : CmpImm)
  /-- R685: Sets PD on unsigned greater-than against the immediate. -/
  | cmpiGtu (x : Issue) (pd : Fin 8) (rs1 : Fin 32) (i : CmpImm)
  /-- R685: Sets PD on unsigned less-or-equal against the immediate. -/
  | cmpiLeu (x : Issue) (pd : Fin 8) (rs1 : Fin 32) (i : CmpImm)
  /-- R685: Sets PD to PA and PB. -/
  | pand (x : Issue) (pd pa pb : Fin 8)
  /-- R685: Sets PD to PA or PB. -/
  | por (x : Issue) (pd pa pb : Fin 8)
  /-- R685: Sets PD to PA xor PB. -/
  | pxor (x : Issue) (pd pa pb : Fin 8)
  /-- R685: Sets PD to PA and not PB. -/
  | pandn (x : Issue) (pd pa pb : Fin 8)
  /-- R685: Sets PD to not PA. -/
  | pnot (x : Issue) (pd pa : Fin 8)
  /-- R107: Address register add of a shifted scalar. -/
  | aadd (x : Issue) (ad as_ : Fin 16) (sr : Fin 32) (sh : Fin 16)
  /-- R107: Address register subtract of a shifted scalar. -/
  | asub (x : Issue) (ad as_ : Fin 16) (sr : Fin 32) (sh : Fin 16)
  /-- R107: Copies a scalar register into an address register. -/
  | aset (x : Issue) (ad : Fin 16) (sr : Fin 32)
  /-- R107: Copies an address register into a scalar register. -/
  | aget (x : Issue) (sr : Fin 32) (as_ : Fin 16)
  /-- R107: Adds a sign-extended immediate to an address register. -/
  | aaddi (x : Issue) (ad as_ : Fin 16) (i : CmpImm)
  /-- R107: Forms an address in the issuing core's own SRAM. -/
  | alocal (x : Issue) (ad : Fin 16) (sr : Fin 32)
  /-- R107: Replaces the core-number bits of an address. -/
  | acore (x : Issue) (ad as_ : Fin 16) (sr : Fin 32)
  /-- R108: Sign-extending scalar load from the address that R110 resolves, taking a tag when remote. -/
  | ld (x : Issue) (size : Size) (rd : Fin 32) (a : Fin 16) (pi f : Bool) (off : Off)
  /-- R108: Zero-extending scalar load. -/
  | ldu (x : Issue) (size : Size) (rd : Fin 32) (a : Fin 16) (pi f : Bool) (off : Off)
  /-- R108: Scalar store of the low bytes of s[RD], by read-merge-write when partial. -/
  | st (x : Issue) (size : Size) (rd : Fin 32) (a : Fin 16) (pi f : Bool) (off : Off)
  /-- R113: Atomic add on SRAM; returns the old value. -/
  | amoadd (x : Issue) (w4 : Bool) (rd : Fin 32) (a : Fin 16) (pi f : Bool) (off : Off)
  /-- R113: Atomic swap on SRAM; returns the old value. -/
  | amoswap (x : Issue) (w4 : Bool) (rd : Fin 32) (a : Fin 16) (pi f : Bool) (off : Off)
  /-- R113: Atomic AND on SRAM; returns the old value. -/
  | amoand (x : Issue) (w4 : Bool) (rd : Fin 32) (a : Fin 16) (pi f : Bool) (off : Off)
  /-- R113: Atomic OR on SRAM; returns the old value. -/
  | amoor (x : Issue) (w4 : Bool) (rd : Fin 32) (a : Fin 16) (pi f : Bool) (off : Off)
  /-- R113: Atomic XOR on SRAM; returns the old value. -/
  | amoxor (x : Issue) (w4 : Bool) (rd : Fin 32) (a : Fin 16) (pi f : Bool) (off : Off)
  /-- R113: Atomic signed minimum on SRAM; returns the old value. -/
  | amomin (x : Issue) (w4 : Bool) (rd : Fin 32) (a : Fin 16) (pi f : Bool) (off : Off)
  /-- R113: Atomic signed maximum on SRAM; returns the old value. -/
  | amomax (x : Issue) (w4 : Bool) (rd : Fin 32) (a : Fin 16) (pi f : Bool) (off : Off)
  /-- R109: Atomic compare-and-swap with an even register pair. -/
  | amocas (x : Issue) (w4 : Bool) (rd : Fin 32) (a : Fin 16) (pi f : Bool) (off : Off)
  /-- R118: Does nothing. -/
  | nop (x : Issue)
  /-- R118: PC-relative branch, taken when the guard is true. -/
  | br (x : Issue) (off : BitVec 17)
  /-- R118: Writes the link address and branches PC-relative. -/
  | jal (x : Issue) (rd : Fin 32) (off : BitVec 12)
  /-- R118: Writes the link address and jumps to s[RS1]. -/
  | jalr (x : Issue) (rd rs1 : Fin 32)
  /-- R119: The thread enters STOPPED on retire without waiting for its held tags. -/
  | end_ (x : Issue)
  /-- R135: Takes the software trap with CODE. -/
  | trap (x : Issue) (code : BitVec 16)
  /-- R691: An illegal, parity-failed or out-of-range fetch word issues as an instruction-fetch trap. -/
  | instructionFetchTrap (c : Lcn) (t : Fin 4)
  /-- R123: Checks its operands, takes a tag and sends a message record to a bobbin. -/
  | msend (x : Issue) (h : Fin 64) (rs : Fin 32) (a : Fin 16) (f : Bool)
  /-- R125: Reads a bobbin status and dispatches the head record's handler, or clears PD. -/
  | mpoll (x : Issue) (pd : Fin 8) (a : Fin 16)
  /-- R361: Releases the head record of a bobbin and moves HEAD. -/
  | mfree (x : Issue) (a : Fin 16)
  /-- R127: Adds a value to a local tack. -/
  | tsigAdd (x : Issue) (tack rs1 : Fin 32)
  /-- R127: Sets a local tack. -/
  | tsigSet (x : Issue) (tack rs1 : Fin 32)
  /-- R127: Sends an add signal to a tack of another core, taking a tag. -/
  | tsigAddR (x : Issue) (tack rs1 rs2 : Fin 32) (f : Bool)
  /-- R127: Sends a set signal to a tack of another core, taking a tag. -/
  | tsigSetR (x : Issue) (tack rs1 rs2 : Fin 32) (f : Bool)
  /-- R128: Waits until the tack reaches the operand by serial arithmetic. -/
  | twaitGe (x : Issue) (tack rs1 : Fin 32)
  /-- R128: Waits until the tack equals the operand. -/
  | twaitEq (x : Issue) (tack rs1 : Fin 32)
  /-- R127: Loads a tack value into a scalar register. -/
  | tackLd (x : Issue) (tack rs1 : Fin 32)
  /-- R320: Contributes a tile to an in-network sum tree step. -/
  | nsum (x : Issue) (a : Fin 16) (rs1 rs2 : Fin 32) (f : Bool)
  /-- R326: Writes a tile into every core of a span. -/
  | ncast (x : Issue) (a : Fin 16) (rs1 rs2 : Fin 32) (f : Bool)
  /-- R328: Measures round trip, hops and seams to a target core. -/
  | nprobe (x : Issue) (rs1 rs2 : Fin 32)
  /-- R173: Loads 256 B into a tile register. -/
  | tileLd (x : Issue) (td : Fin 8) (a : Fin 16) (pi f : Bool) (off : TileOff)
  /-- R173: Stores a tile register as 256 B. -/
  | tileSt (x : Issue) (td : Fin 8) (a : Fin 16) (pi f : Bool) (off : TileOff)
  /-- R164: Elementwise add rounded once per element. -/
  | tadd (x : Issue) (td ta tb : Fin 8) (fmt : Fin 13) (rm : Fin 3)
  /-- R164: Elementwise subtract rounded once per element. -/
  | tsub (x : Issue) (td ta tb : Fin 8) (fmt : Fin 13) (rm : Fin 3)
  /-- R164: Elementwise multiply rounded once per element. -/
  | tmul (x : Issue) (td ta tb : Fin 8) (fmt : Fin 13) (rm : Fin 3)
  /-- R164: Elementwise fused multiply-add with one rounding. -/
  | tfma (x : Issue) (td ta tb : Fin 8) (fmt : Fin 13) (rm : Fin 3)
  /-- R167: Elementwise minimum with NaN and signed-zero rules. -/
  | tmin (x : Issue) (td ta tb : Fin 8) (fmt : Fin 13) (rm : Fin 3)
  /-- R167: Elementwise maximum with NaN and signed-zero rules. -/
  | tmax (x : Issue) (td ta tb : Fin 8) (fmt : Fin 13) (rm : Fin 3)
  /-- R165: Elementwise raw-bit select on d ≠ 0. -/
  | tsel (x : Issue) (td ta tb : Fin 8) (fmt : Fin 13) (rm : Fin 3)
  /-- R167: Writes an all-ones mask where COND holds. -/
  | tcmpm (x : Issue) (td ta tb : Fin 8) (fmt : Fin 13) (cond : Fin 4)
  /-- R167: Sets a predicate if COND holds for any element. -/
  | tcmpAny (x : Issue) (pd ta tb : Fin 8) (fmt : Fin 13) (cond : Fin 4)
  /-- R167: Sets a predicate if COND holds for all elements. -/
  | tcmpAll (x : Issue) (pd ta tb : Fin 8) (fmt : Fin 13) (cond : Fin 4)
  /-- R183: Clears the sign bit, or takes wrapped integer absolute value. -/
  | tabs (x : Issue) (td ta : Fin 8) (fmt : Fin 13) (rm : Fin 3)
  /-- R183: Inverts the sign bit, or takes wrapped integer negation. -/
  | tneg (x : Issue) (td ta : Fin 8) (fmt : Fin 13) (rm : Fin 3)
  /-- R183: Copies a tile register as raw bits. -/
  | tmov (x : Issue) (td ta : Fin 8) (fmt : Fin 13) (rm : Fin 3)
  /-- R168: Each row becomes its exact sum rounded once. -/
  | tredSum (x : Issue) (td ta : Fin 8) (fmt : Fin 13) (rm : Fin 3)
  /-- R168: Each row becomes its maximum. -/
  | tredMax (x : Issue) (td ta : Fin 8) (fmt : Fin 13) (rm : Fin 3)
  /-- R169: Elementwise 2^a with fixed implementation rounding. -/
  | texp2 (x : Issue) (td ta : Fin 8) (fmt : Fin 13) (rm : Fin 3)
  /-- R169: Elementwise reciprocal. -/
  | trcp (x : Issue) (td ta : Fin 8) (fmt : Fin 13) (rm : Fin 3)
  /-- R169: Elementwise reciprocal square root. -/
  | trsqrt (x : Issue) (td ta : Fin 8) (fmt : Fin 13) (rm : Fin 3)
  /-- R171: Transposes a square held in a group of tile registers. -/
  | ttr (x : Issue) (td ta : Fin 8) (fmt : Fin 13) (rm : Fin 3)
  /-- R172: Writes the rounded sum and its exact error to a register pair. -/
  | ttwosum (x : Issue) (td ta tb : Fin 8) (fmt : Fin 13) (rm : Fin 3)
  /-- R172: Writes the rounded product and its exact error to a register pair. -/
  | ttwoprod (x : Issue) (td ta tb : Fin 8) (fmt : Fin 13) (rm : Fin 3)
  /-- R170: Converts a tile between formats with the PART placement rules. -/
  | tcvt (x : Issue) (td ta : Fin 8) (fmts fmtd : Fin 13) (rm : Fin 3) (part : Fin 8)
  /-- R165: Inserts a scalar into one tile element. -/
  | tins (x : Issue) (td : Fin 8) (rs1 rs2 : Fin 32) (fmt : Fin 13)
  /-- R165: Extracts one tile element into a scalar register. -/
  | text (x : Issue) (td : Fin 8) (rd rs2 : Fin 32) (fmt : Fin 13)
  /-- R165: Writes a scalar into every tile element. -/
  | tsplat (x : Issue) (td : Fin 8) (rs1 : Fin 32) (fmt : Fin 13)
  /-- R149: Copies operands into the tensor queue for a matrix product into an accumulator. -/
  | tmma (x : Issue) (cd : Fin 4) (ta tb : Fin 8) (fmt : Fin 13) (rm : Fin 3) (z ng : Bool) (long : Option (Bool ×
      Fin 8 × BitVec 16))
  /-- R161: Converts part of an accumulator into a tile register. -/
  | cread (x : Issue) (cd : Fin 4) (tr : Fin 8) (part : Fin 8) (fmt : Fin 13) (rm : Fin 3)
  /-- R162: Copies a tile register into part of an accumulator. -/
  | cwrite (x : Issue) (cd : Fin 4) (tr : Fin 8) (part : Fin 8) (fmt : Fin 13) (rm : Fin 3)
  /-- R162: Writes zero to every bit of an accumulator. -/
  | czero (x : Issue) (cd : Fin 4)
  /-- R157: The array starts the head tensor-queue entry once it and the array are ready. -/
  | tensorArrayStart (c : Lcn)
  /-- R158: A tmma completes its occupancy, writes its accumulator and takes its draws. -/
  | tensorArrayComplete (c : Lcn)
  /-- R227: The walker reads index tiles and finds the pairs of the head sparse tmma. -/
  | walkerLeadIn (c : Lcn)
  /-- R692: The walker reads the data and scale tiles of a pass through the read port. -/
  | walkerPassRead (c : Lcn) (head : Bool)
  /-- R76: A held tag's timer reaches its limit and the issuing thread takes the request-timeout trap. -/
  | tagTimeout (c : Lcn) (tag : Fin 64)
  /-- R78: A timed-out tag returns to the pool after a further timeout period. -/
  | tagQuarantineEnd (c : Lcn) (tag : Fin 64)
  /-- R574: A CORE_CTL.SW_RST write starts the core reset. -/
  | coreSwRst (c : Lcn)
  /-- R49: A CORE_CTL.HALT bit stops issue of a thread. -/
  | threadHalt (c : Lcn) (t : Fin 4)
  /-- R50: A CORE_CTL.RESUME bit returns a halted thread to its former state. -/
  | threadResume (c : Lcn) (t : Fin 4)
  /-- R86: A CORE_ACC_OWN write changes accumulator owners, deferred for busy accumulators. -/
  | accOwnWrite (c : Lcn) (v : BitVec 8)
  /-- R198: CORE_SRCMD.RESEED seeds every lane generator from SEED in 256 cc. -/
  | reseed (c : Lcn)
  /-- R202: A write of SEED or a lane state takes effect only when the core is quiet, else sets REJ. -/
  | srseedWrite (c : Lcn) (lane : Option (Fin 256)) (v : Word)
  /-- R366: A write of TACK_STATEn.VALUE acts as a set signal of order 5. -/
  | tackValueWrite (c : Lcn) (n : Fin 32) (v : BitVec 32)
  /-- R3: A write to a register field with no behaviour of its own, under its access code and rights. -/
  | registerWrite (ld : Fin 16) (o : BitVec 26) (v : Word)
  /-- R232: SPX_CMP_CMD with GO starts the output compressor after command checks. -/
  | compressorStart (c : Lcn) (v : Word)
  /-- R237: The compressor finishes writing the stripe and signals its tack. -/
  | compressorDone (c : Lcn)
  /-- R240: SPX_SEL_CMD with GO starts the selection engine after command checks. -/
  | selectionStart (c : Lcn) (v : Word)
  /-- R242: The selection engine writes the index tile and header, then signals or posts a gather. -/
  | selectionDone (c : Lcn)
  /-- R517: A BAR2 ring doorbell write advances TAIL or is ignored as bad. -/
  | dbRing (ld : Fin 16) (index : BitVec 16)
  /-- R515: A BAR2 event-queue doorbell write advances HEAD. -/
  | dbEvq (ld : Fin 16) (index : BitVec 16)
  /-- R260: Marker takes the next ring entry of a logical device in rotating order. -/
  | ringEntryTake (e : RingEntry)
  /-- R266: Room appears for a WAITING cut order and it enters ACCEPTED. -/
  | cutWaitEnd (ld : Fin 16)
  /-- R266: A WDRAW write withdraws the waiting cut order as REJECTED. -/
  | wdraw (ld : Fin 16)
  /-- R270: Marker places an accepted cut order's core indices on row segments. -/
  | cutPlacement (slot : Fin 64) (us : Fin 501)
  /-- R275: Loading ends and Marker starts every thread of the cut order. -/
  | cutLoadComplete (slot : Fin 64)
  /-- R276: An assigned core becomes unbacked before RUNNING, so Marker places again. -/
  | cutReplace (slot : Fin 64) (us : Fin 501)
  /-- R265: All threads stop or trap, so the cut order enters HELD or DONE after OUT write-back. -/
  | cutOrderSettle (slot : Fin 64)
  /-- R279: A MRK_MIGRATE GO write starts migration of a field. -/
  | mrkMigrate (f : Fin 64)
  /-- R279: No tag or spool transfer remains, so Marker allocates, copies, rewrites and resumes. -/
  | migrationQuiesced (us : BitVec 32)
  /-- R288: MRK_CTL.SW_RST aborts every cut order and resets the MRK_ registers. -/
  | mrkSwRst
  /-- R285: A translation-cache miss asks the panel relocation table. -/
  | translationMiss (c : Lcn) (seg : Fin 8192)
  /-- R301: A router forwards a packet's head to the next hop on X-then-Y routes. -/
  | routerForward (pkt : Nat)
  /-- R297: A read request arrives whole and is served with RDR or an error. -/
  | rd (pkt : Nat)
  /-- R297: A write request arrives whole and is applied, then acknowledged. -/
  | wr (pkt : Nat)
  /-- R113: An atomic request arrives and is applied as one read-merge-write. -/
  | amo (pkt : Nat)
  /-- R346: A message packet arrives and is placed in its bobbin, held, or refused. -/
  | msg (pkt : Nat)
  /-- R369: A tack signal packet arrives, is applied and acknowledged. -/
  | tsigPacket (pkt : Nat)
  /-- R321: A sum contribution arrives at a merge or root node and is checked and buffered. -/
  | nsumPacket (pkt : Nat)
  /-- R326: A broadcast packet arrives at a span core, is written and passed on. -/
  | ncastPacket (pkt : Nat)
  /-- R328: A probe arrives at its destination and is answered PROBER. -/
  | probe (pkt : Nat)
  /-- R115: A read reply arrives and writes its destination register or tile. -/
  | rdr (pkt : Nat)
  /-- R72: An acknowledgement arrives and frees its tag. -/
  | ack (pkt : Nat)
  /-- R298: An error reply arrives and the thread takes the access-error or checksum trap. -/
  | err (pkt : Nat)
  /-- R112: An unbacked reply arrives and the thread takes the unbacked-core trap. -/
  | unb (pkt : Nat)
  /-- R328: A probe reply arrives and writes nprobe's result. -/
  | prober (pkt : Nat)
  /-- R298: A reset reply arrives and the thread traps with error code 0x04. -/
  | rstr (pkt : Nat)
  /-- R322: A sum acknowledgement arrives, freeing a leaf tag or passing on to children. -/
  | nsuma (pkt : Nat)
  /-- R326: A broadcast acknowledgement arrives back at the sender, trapping for the first bad core. -/
  | ncasta (pkt : Nat)
  /-- R321: A merge or root node with all children forms the sum and sends or writes it. -/
  | nsumMergeSend (c : Lcn) (n : Fin 16)
  /-- R329: A seam flit fails its check, is discarded and NAKed, starting or joining an episode. -/
  | seamFlitFail (f : Fin 64) (side : Fin 4) (net : Fin 2) (i : Fin 128) (seq : Fin 64) (now : Nat) (cut : Option Nat)
  /-- R329: A NAK reaches the sending gate, which replays from the named flit. -/
  | seamNak (f : Fin 64) (side : Fin 4) (net : Fin 2) (i : Fin 128)
  /-- R330: A replay attempt fails; after REPLAY_MAX the link retrains. -/
  | seamReplayFail (f : Fin 64) (side : Fin 4) (net : Fin 2) (i : Fin 128) (seq : Fin 64) (cut : Option Nat)
  /-- R330: A seam retrain ends and the link replays, or enters FAILED. -/
  | seamRetrainDone (f : Fin 64) (side : Fin 4) (net : Fin 2) (i : Fin 128) (cut : Option Nat)
  /-- R330: The replayed flit passes and the episode ends. -/
  | seamReplayPass (f : Fin 64) (side : Fin 4) (net : Fin 2) (i : Fin 128)
  /-- R311: A field's transit domain fails and the field becomes a hole. -/
  | transitFail (f : Fin 64)
  /-- R337: FAB_CTL.SW_RST resets the field's fabric configuration and counters. -/
  | fabSwRst (f : Fin 64)
  /-- R350: A held message is retried and placed after an mfree frees room. -/
  | heldMsgPlace (c : Lcn) (off : Fin 65536)
  /-- R371: SPL_CMD with GO posts a spool request or is refused. -/
  | spoolPost (c : Lcn) (t : Fin 4) (v : Word)
  /-- R372: The panel spool engine takes the next request and checks it. -/
  | spoolTake (panel : Fin 512)
  /-- R375: Every write of a request is acknowledged and the tack is signalled. -/
  | spoolComplete (id : Nat)
  /-- R376: A spool operation times out, leaving its tile and setting FAIL. -/
  | spoolOpTimeout (id k : Nat)
  /-- R378: Every queue of a group stays blocked for the window and a snapshot and event are raised. -/
  | deadlockDetect (panel : Fin 512) (bobbins : Bool) (slot : Fin 64) (moved : Bool)
  /-- R380: Writing 1 to FAB_DL_STAT.EVENT releases the snapshot. -/
  | dlSnapshotRelease (panel : Fin 512)
  /-- R387: CORE_PAT_LOAD with GO requests a slot load, checked by the placement agent. -/
  | patternLoad (c : Lcn) (v : Word)
  /-- R387: The slot image is copied, PEERs rewritten, VALID set and the tack signalled. -/
  | patternLoadDone (c : Lcn)
  /-- R396: CORE_PAT_CTL with GO requests a pattern switch, accepted or refused. -/
  | switchRequest (c : Lcn) (v : Word)
  /-- R397: The drain conditions hold and the switch copies the slot, sets up queues and starts threads. -/
  | switchRun (c : Lcn) (late : Bool)
  /-- R393: A steering unit joins a token and a data entry and forwards or drops the data. -/
  | steerPair (c : Lcn) (unit : Fin 2)
  /-- R431: MRK_RINGj_SETUP with GO sets up a gradient ring for an accepted cut order. -/
  | ringSetup (j : Fin 4) (id : BitVec 16) (nrep : BitVec 6) (mseg : BitVec 12)
  /-- R440: CORE_RING_CMD REDUCE compresses and sends non-owned shards. -/
  | reduce (c : Lcn) (attempt : BitVec 32)
  /-- R452: CORE_RING_CMD SHARE sends the owned weight shard to every replica. -/
  | share (c : Lcn) (attempt : BitVec 32)
  /-- R444: INBOX_TACK reaches NREP − 1 and the unit checks, sums and reports. -/
  | ringInboxComplete (c : Lcn)
  /-- R448: The step controller issues COMMIT, SKIP, REPEAT or FAIL. -/
  | ringVerdict (j : Fin 4)
  /-- R449: A halting ring unit finishes its in-flight operations and reports QUIET. -/
  | ringQuiet (c : Lcn)
  /-- R450: A verdict reaches a ring unit, which updates CUR, ATTEMPT and its tacks. -/
  | ringVerdictApply (c : Lcn)
  /-- R456: A CORE_RING_LAYOUT or TACKS write is taken only while IDLE. -/
  | ringLayoutWrite (c : Lcn) (tacks : Bool) (v : Word)
  /-- R468: A far-memory request reaches a port, is checked and enters the ingress buffer. -/
  | selRequest (p : Fin 32) (pkt : Nat)
  /-- R488: The port arbiter grants the next beat's frame to one requester. -/
  | selArbitrate (p : Fin 32)
  /-- R476: A frame from the unit is accepted in order, updating ACKSEQ and credits. -/
  | selFrameReceive (p : Fin 32) (frame : BitVec 2176) (now : Nat)
  /-- R476: A frame fails its CRC, later frames are discarded and a NAK is sent. -/
  | selFrameFail (p : Fin 32) (sequenced : Bool) (now : Nat)
  /-- R477: A NAK frame arrives and the port replays from the named FSEQ. -/
  | selNak (p : Fin 32) (fseq : Fin 1024) (now : Nat)
  /-- R477: ACKSEQ has not advanced for 1 µs and the port replays. -/
  | selAckStall (p : Fin 32) (now : Nat)
  /-- R478: A replay attempt fails; after REPLAY_MAX the port retrains. -/
  | selReplayFail (p : Fin 32)
  /-- R485: A port retrain ends and the port replays, returns to UP or fails. -/
  | selRetrainDone (p : Fin 32) (unlocked : BitVec 9) (failing : Nat) (worst : Fin 9) (now : Nat)
  /-- R482: A lane loses lock or exceeds marker errors and is marked bad. -/
  | selLaneBad (p : Fin 32) (l : Fin 9) (late : Bool)
  /-- R460: An alignment marker is received and its lane CRC checked. -/
  | selAlignmentMarker (p : Fin 32) (l : Fin 9) (marker : LaneMarker) (now : Nat) (late : Bool)
  /-- R481: A port tag's response timer fires and the requester gets ERR 0x45. -/
  | selRspTimeout (p : Fin 32) (tag : Fin 2048)
  /-- R481: A timed-out port tag returns to use after its hold period. -/
  | selTagRelease (p : Fin 32) (tag : Fin 2048)
  /-- R485: SEL_CTL.TRAIN starts training from OFF or FAILED. -/
  | selTrain (p : Fin 32)
  /-- R485: Training steps end and the port enters UP or FAILED. -/
  | selTrainDone (p : Fin 32) (lanes : TrainedLanes) (caps ready : Option Word) (failing : Nat)
  /-- R484: SEL_CTL.SW_RST answers accepted requests 0x46 and takes the port to OFF. -/
  | selSwRst (p : Fin 32)
  /-- R505: A host CXL.mem read is served from far memory or poisoned. -/
  | cxlMemRead (ld : Fin 16) (x : BitVec 46) (result : Option (BitVec 512)) (cmds : Nat)
  /-- R506: A host CXL.mem write completes after the unit's WRA or ends without effect. -/
  | cxlMemWrite (ld : Fin 16) (x : BitVec 46) (done : Bool) (cmds : Nat)
  /-- R507: The host answers the line requests of a host-memory access. -/
  | hostMemAnswer (pkt : Nat) (r : HostReply)
  /-- R511: A host-memory request timer expires and the access ends with 0x52. -/
  | hostMemTimeout (pkt : Nat)
  /-- R509: A host snoop is answered RspIHitI. -/
  | hostSnoop (ld : Fin 16)
  /-- R497: A valid beacon word from the peer updates the requested fibre map. -/
  | beaconWord (w : BitVec 40)
  /-- R496: A receiver marks a fibre bad, requests its retirement and asks for Recovery. -/
  | fibreBad (f : Fin 18)
  /-- R497: The link enters Recovery and each side applies its new transmit map. -/
  | linkRecovery
  /-- R511: A replay or Recovery episode reaches 4 ms and the link is taken down. -/
  | hostLinkEpisodeLimit
  /-- R524: The host link goes down, ending host requests and clearing ring and queue enables. -/
  | linkDown
  /-- R524: A hot reset returns most per-LD registers to reset values. -/
  | hotReset
  /-- R525: An FLR performs the partition reset of the LD and clears its host state. -/
  | functionLevelReset (ld : Fin 16)
  /-- R502: A CXL_LDk_PART write is discarded if it overlaps or the LD holds cut orders. -/
  | ldPartWrite (via ld : Fin 16) (v : Word)
  /-- R504: A CXL_LDk_FMWIN write is discarded if out of range or the LD holds cut orders. -/
  | ldFmwinWrite (via ld : Fin 16) (v : Word)
  /-- R503: A CXL_LDk_MSIX write takes effect only with no cut order in service. -/
  | ldMsixWrite (via ld : Fin 16) (v : Word)
  /-- R514: A CXL_LDk_APERTURE write moves the core aperture to another panel. -/
  | apertureSelect (ld : Fin 16) (field : Fin 64) (panel : Fin 8)
  /-- R516: Setting the ring EN resets HEAD and TAIL of the cut-order ring. -/
  | ringEnable (ld : Fin 16) (v : Word)
  /-- R521: Setting the event queue EN resets its HEAD and TAIL. -/
  | evqEnable (ld : Fin 16) (v : Word)
  /-- R520: The module writes an event record and sends its MSI-X message, or counts it lost. -/
  | eventPost (masked : Bool)
  /-- R522: A 1 ms trap window ends and the folded trap record is written. -/
  | trapWindowEnd (slot : Fin 64)
  /-- R656: SPDM GET_VERSION request on an LD's DOE mailbox. -/
  | getVersion (ld : Fin 16)
  /-- R656: SPDM GET_CAPABILITIES request. -/
  | getCapabilities (ld : Fin 16)
  /-- R656: SPDM algorithm negotiation, failing when no supported algorithm is offered. -/
  | negotiateAlgorithms (ld : Fin 16) (offered : BitVec 4)
  /-- R656: SPDM GET_DIGESTS request. -/
  | getDigests (ld : Fin 16)
  /-- R656: SPDM GET_CERTIFICATE request for slot 0. -/
  | getCertificate (ld : Fin 16) (slot : Fin 8)
  /-- R656: SPDM CHALLENGE request. -/
  | challenge (ld : Fin 16) (slot : Fin 8)
  /-- R657: Returns the measurement digests signed by the alias key. -/
  | getMeasurements (ld : Fin 16) (index : BitVec 8)
  /-- R656: SPDM key exchange opening a session, at most one per LD. -/
  | keyExchange (ld : Fin 16)
  /-- R656: SPDM FINISH request completing a session. -/
  | finish (ld : Fin 16)
  /-- R656: SPDM END_SESSION request. -/
  | endSession (ld : Fin 16)
  /-- R656: SPDM HEARTBEAT request. -/
  | heartbeat (ld : Fin 16)
  /-- R658: An IDE key delivered in a secured session is loaded into a key slot. -/
  | ideKm (ld : Fin 16) (stream : Fin 17)
  /-- R493: Fabric-manager Get LD Info command. -/
  | getLdInfo
  /-- R499: Fabric-manager Get LD Allocations command. -/
  | getLdAllocations
  /-- R493: Fabric-manager Set LD Allocations or QoS command, answered as unsupported. -/
  | setLdAllocations
  /-- R542: An entry whose newest failure is older than the window and has passed a test leaves the list. -/
  | watchEntryExpire (p : Position)
  /-- R545: The watch list is written to the store at most once per second after a change. -/
  | watchListSave
  /-- R547: The integrity block places test-sweep and suspect-sweep cues each period. -/
  | sweepCuePlace (f : Fin 64) (suspect : Bool)
  /-- R550: A test group's runs end and digests are compared, counting mismatches. -/
  | testGroupDone (seg : Fin 8192) (i : Fin 43) (d0 d1 d2 : BitVec 64)
  /-- R550: A core does not finish a test run within 36,000 cc and counts a failure. -/
  | testRunTimeout (seg : Fin 8192) (i : Fin 43) (k : Fin 3)
  /-- R552: INT_DIGEST_CFGj.NOW makes every ring unit compute and report its weight digest. -/
  | digestNow (j : Fin 4)
  /-- R559: The partner's digest arrives and both copies apply or trap. -/
  | dupDigestArrival (pkt : Nat)
  /-- R562: INT_CTL.SW_RST resets the integrity registers and cancels its cues. -/
  | intSwRst
  /-- R564: Powers a field's transit domain, locks Stitch 1 and loads steering and tables. -/
  | transitOn (all : Bool) (f : Fin 64)
  /-- R566: Trains and measures every seam link of the field. -/
  | seamTrain (all : Bool) (f : Fin 64)
  /-- R567: Compares discovered and expected topology. -/
  | topoCheck (all : Bool) (f : Fin 64)
  /-- R569: Powers compute, zeroes SRAM, runs the start-up test and applies repairs. -/
  | computeOn (all : Bool) (f : Fin 64)
  /-- R568: Writes the discovered topology as expected. -/
  | topoAccept (all : Bool) (f : Fin 64)
  /-- R572: Retrains one FAILED seam link in service. -/
  | seamRetrain (f : Fin 64) (side : Fin 4) (net : Fin 2) (row : Fin 128)
  /-- R564: A bring-up command finishes for all its fields and records errors. -/
  | brgCommandComplete (o : BringUpOutcome)
  /-- R574: BRG_RST scope 0 resets one core. -/
  | brgRstCore (c : Lcn)
  /-- R575: BRG_RST scope 1 starts a drained reset of a panel. -/
  | brgRstPanel (panel : Fin 512)
  /-- R575: BRG_RST scope 2 starts a drained reset of an LD's partition. -/
  | brgRstPartition (ld : Fin 16)
  /-- R575: BRG_RST scope 3 starts a drained reset of every panel. -/
  | brgRstWafer
  /-- R575: The scope holds no tag or engine operation and its cores are reset. -/
  | drainEnd
  /-- R575: The drain limit expires and the reset phase starts anyway. -/
  | drainLimitExpire
  /-- R574: The absorb period ends and CLK_EN is written 1, releasing the scope. -/
  | resetPhaseEnd (core : Option Lcn) (us : BitVec 32)
  /-- R578: BRG_DARN_CMD with GO queues a position as condemned. -/
  | darnRequest (field : Fin 64) (panel : Fin 8) (row : Fin 16) (pos : Fin 130)
  /-- R579: Darning takes the next request, chooses spare shift, relocation or fence, and quiesces. -/
  | darnAction
  /-- R580: The segment is quiet and rows held, so state is copied and tables updated. -/
  | darnQuiesced
  /-- R580: A copy read is not answered within 2^16 cc and the state is uncopyable. -/
  | darnCopyTimeout (c : Lcn)
  /-- R580: The repair record is durable and threads, engines and rows are released. -/
  | darnResume (us : BitVec 32)
  /-- R582: A field parks or becomes a hole during darning, which is abandoned and requeued. -/
  | darnAbandon
  /-- R584: The management rail crosses its threshold and a full reset starts. -/
  | powerOn (falling : Bool)
  /-- R584: The 54 V input leaves range for 20 µs and a supply reset starts. -/
  | supply
  /-- R584: RESET_N is low for at least 1 µs and a full reset starts. -/
  | pinReset
  /-- R584: RSTACT 0x02 and the target reset pattern start a full reset. -/
  | i3cTargetReset
  /-- R584: RSTACT 0x01 and the reset pattern reset only the I3C target logic. -/
  | i3cPeriphReset
  /-- R584: Thimble's watchdog is unserviced for 500 ms and a full reset starts. -/
  | watchdog
  /-- R584: RST_CTL.MODULE with the key resets all but the management domain. -/
  | hostModule (key : BitVec 16)
  /-- R584: RST_CTL.FABRIC with the key resets optics and fields. -/
  | hostFabric (key : BitVec 16)
  /-- R596: RST_CTL.SW_RST clears KEYERR and RESETS only. -/
  | rstSwRst
  /-- R587: After its gap, the next assertion step switches its domains off. -/
  | resetAssertStep
  /-- R588: After its gap or ready condition, the next release step switches its domains on. -/
  | resetReleaseStep (k0 k1 : SlotCheck)
  /-- R591: A store write pulse ends, letting a delayed reset start. -/
  | writePulseEnd (us : BitVec 8) (header : Bool)
  /-- R593: RST_BLOCK.WAF resets the WAF_ block. -/
  | rstBlockWaf
  /-- R623: RST_BLOCK.CLK resets the CLK_ block without touching sources or settings. -/
  | rstBlockClk
  /-- R647: RST_BLOCK.PWR resets the PWR_ block without unparking. -/
  | rstBlockPwr
  /-- R623: RST_BLOCK.TRD resets the TRD_ block without changing the count. -/
  | rstBlockTrd
  /-- R593: RST_BLOCK.INT resets the INT_ block as INT_CTL.SW_RST does. -/
  | rstBlockInt
  /-- R593: RST_BLOCK.NVS resets the NVS_ block, delayed by a write pulse. -/
  | rstBlockNvs
  /-- R593: RST_BLOCK.MRK resets the MRK_ block as MRK_CTL.SW_RST does. -/
  | rstBlockMrk
  /-- R593: RST_BLOCK.BRG resets the BRG_ block. -/
  | rstBlockBrg
  /-- R602: A MODE 0 request makes a glitch-free switch to a ready source. -/
  | clockSwitch (f : Fin 64) (src : Fin 3)
  /-- R603: A MODE 1 request stops the trees, switches and restarts after 64 cycles. -/
  | stopSwitchRestart (f : Fin 64) (src : Fin 3)
  /-- R600: A PLL locks at its programmed frequency and its ready flag is set. -/
  | pllLock (f : Fin 64) (pll : Fin 2)
  /-- R604: The active PLL loses lock and the field switches to REF and holds. -/
  | pllLockLoss (f : Fin 64) (pll : Fin 2)
  /-- R597: No reference edge arrives for 200 ns; REFOK clears and PLLs hold. -/
  | refLost
  /-- R597: Reference edges return within tolerance and REFOK is set. -/
  | refDetect
  /-- R606: A TARGET write changes a field's requested setting. -/
  | stitchTargetWrite (f : Fin 64) (v : Fin 16)
  /-- R606: The effective setting differs and the sequencer starts a raise or a lower. -/
  | stitchSequenceStart (f : Fin 64)
  /-- R606: The rail and PLL are ready and the sequencer switches the clock. -/
  | stitchRailGood (f : Fin 64)
  /-- R608: A sequence ends and the sequencer starts toward the current effective setting. -/
  | stitchSequenceEnd (f : Fin 64) (us : BitVec 32)
  /-- R612: A CLK_OBS write selects and divides a clock for the CLKOBS pin. -/
  | clkobsSelect (v : Word)
  /-- R613: A valid TREADLE edge adds one tick to the treadle count. -/
  | treadleTick (ns : BitVec 32) (short : Bool)
  /-- R613: A TRD_PUSH write adds ADD ticks, or is refused while SRC is 0. -/
  | trdPush (add : BitVec 16) (ns : BitVec 32)
  /-- R614: No tick arrives for STALL_US and STALLED is set. -/
  | treadleStall
  /-- R615: A field's copy of the count advances after a tick. -/
  | treadleCopyAdvance (f : Fin 64)
  /-- R619: A cue entry write arms, cancels or is discarded. -/
  | cueWrite (f : Fin 64) (n : Fin 256) (wordB : Bool) (v : Word)
  /-- R621: A cue entry's count is reached and its kind's effect is applied. -/
  | cueFire (f : Fin 64)
  /-- R632: Input voltage and current are sampled every 10 µs. -/
  | powerSample (vin : BitVec 16) (iin : BitVec 10)
  /-- R633: Every 100 µs the controller picks a level against the effective cap. -/
  | powerEvaluation (clean below met : Bool)
  /-- R627: Unparking runs the COMPUTE_ON steps for one field. -/
  | unpark (f : Fin 64)
  /-- R627: Unparking completes and the field's COMPUTE bit is set. -/
  | unparkDone (f : Fin 64) (failing : List Position)
  /-- R638: Field sensors are read every 50 µs and WARN, CRIT and SHUT acted on. -/
  | thermalSample (f : Fin 64) (t0 t1 t2 t3 : BitVec 8)
  /-- R642: A field stays below WARN − HYST for 100 ms and its thermal reason clears. -/
  | thermalClear (f : Fin 64)
  /-- R643: A compute domain exceeds its trip current and the field parks with TRIP. -/
  | computeTrip (f : Fin 64)
  /-- R644: A transit domain trips and the field becomes a hole. -/
  | transitTrip (f : Fin 64)
  /-- R624: An optics group trips and its ports enter FAILED. -/
  | opticsTrip (g : Fin 8)
  /-- R624: A host-attach domain trips and the host link goes down. -/
  | hostAttachTrip (d : Fin 2)
  /-- R637: PWR_FLDf_CTL.PARK parks or clears the HOST reason of a field. -/
  | pwrPark (f : Fin 64) (park : Bool)
  /-- R643: CLR_TRIP clears a field's TRIP reason while below TRIP_MAX. -/
  | clrTrip (f : Fin 64)
  /-- R642: PWR_FLDf_CTL.UNPARK unparks a field with no reason set. -/
  | pwrUnpark (f : Fin 64)
  /-- R647: PWR_CTL.SW_RST resets the power registers without unparking. -/
  | pwrSwRst
  /-- R653: THM_UPD_CMD CHUNK writes a 4 KiB chunk into the idle firmware slot. -/
  | chunk (offset : BitVec 10)
  /-- R653: THM_UPD_CMD FINISH checks the idle slot and sets VALID if it passes. -/
  | fwUpdateFinish (check : SlotCheck)
  /-- R654: Burns fuses so THM_MINVER equals the running version. -/
  | raiseMinver
  /-- R663: Thimble starts writing the next pending section to the losing copy. -/
  | nvsSectionWrite
  /-- R662: The new copy reads back valid and the other copy is erased. -/
  | nvsWriteDurable
  /-- R659: Every hour the LIFE section is queued for writing. -/
  | lifeUpdate
  /-- R666: NVS_CTL.FLUSH queues every dirty section. -/
  | flush
  /-- R666: NVS_CTL.SW_RST resets the block's counters, delayed by a write pulse. -/
  | nvsSwRst
  /-- R676: The module arbitrates for a dynamic address with its provisioned ID. -/
  | entdaa (addr : BitVec 7) (others : List Word)
  /-- R677: Clears the module's dynamic address. -/
  | rstdaa
  /-- R678: Enables IBIs. -/
  | enec
  /-- R678: Disables IBIs. -/
  | disec
  /-- R677: Returns the provisioned ID. -/
  | getpid
  /-- R677: Returns BCR 0x26. -/
  | getbcr
  /-- R677: Returns DCR 0x00. -/
  | getdcr
  /-- R677: Returns the I3C target status. -/
  | getstatus
  /-- R677: Returns the maximum write length of 256 B. -/
  | getmwl
  /-- R677: Returns the maximum read length of 64 B. -/
  | getmrl
  /-- R584: Sets the reset action that the next target reset pattern performs. -/
  | rstact (byte : BitVec 8)
  /-- R677: Any other directed CCC is NACKed. -/
  | unsupportedCcc
  /-- R678: The module raises an in-band interrupt with one payload byte, retrying until it wins. -/
  | ibi (wins : Bool)
  /-- R679: MGT command returning a 24-byte status summary. -/
  | getStatus (seq : BitVec 8) (args : List (BitVec 8))
  /-- R681: MGT command writing PWR_CAP.RACK and clearing CAP_LOST. -/
  | setCap (seq : BitVec 8) (args : List (BitVec 8))
  /-- R679: MGT command returning power measurements and level. -/
  | getPower (seq : BitVec 8) (args : List (BitVec 8))
  /-- R679: MGT command returning a field's thermal state. -/
  | getTherm (seq : BitVec 8) (args : List (BitVec 8))
  /-- R669: MGT command returning coolant port temperatures. -/
  | getCoolant (seq : BitVec 8) (args : List (BitVec 8)) (inlet outlet : BitVec 16)
  /-- R679: MGT command reading a wafer-level register. -/
  | readReg (seq : BitVec 8) (args : List (BitVec 8))
  /-- R680: MGT command invalidating a slot for recovery loading under THIMBLE_FAIL. -/
  | fwBegin (seq : BitVec 8) (args : List (BitVec 8))
  /-- R680: MGT command writing firmware bytes into a slot under THIMBLE_FAIL. -/
  | fwChunk (seq : BitVec 8) (args : List (BitVec 8))
  /-- R680: MGT command checking the loaded slot under R651. -/
  | fwFinish (seq : BitVec 8) (args : List (BitVec 8)) (check : SlotCheck)
  /-- R679: MGT command returning the ID, BCR, DCR and part name. -/
  | getId (seq : BitVec 8) (args : List (BitVec 8))
  /-- R679: A private read returns the ready response, or is NACKed until it is. -/
  | mgtResponseRead
  /-- R682: The management bus arbiter grants the next beat to one requester. -/
  | mgtBusArbitrate (eligible lk more : BitVec 8)
  /-- R684: MGT_CTL.SW_RST resets the MGT_ registers except DA and PID. -/
  | mgtSwRst
  /-- R443: A ring unit's WR or TSIG operation reaches the posting core's tag timeout and counts as failed. -/
  | ringOpTimeout (c : Lcn) (op : Nat)
  /-- R282: A migration of a ring cut order fails when its ring units are not all IDLE within PERIOD. -/
  | ringMigrationTimeout (us : BitVec 32)
  /-- R198: The 256 cc reseed ends and RM = 2 instructions may issue again. -/
  | reseedComplete (c : Lcn)
  /-- R552: Every ring unit finishes the immediate weight digest, BUSY clears and the digests are compared. -/
  | nowDigestDone (j : Fin 4)
  /-- R563: Marker finishes building the distance table and sets BRG_READY.MARKER. -/
  | distanceTableBuilt
  /-- R563: The host link reaches L0 after training or after a replay or Recovery episode, setting BRG_READY.HOST and
  resuming host-memory timers. -/
  | hostLinkL0 (us : BitVec 32) (dead : BitVec 16) (slow : Bool)
  /-- R511: The host link starts a link-level replay episode, holding every host-memory request timer. -/
  | hostLinkReplay
  /-- R588: A reset source is withdrawn, such as RESET_N rising, the 54 V input returning to range or the management
  rail recovering, letting release begin. -/
  | resetSourceWithdrawn (code : Fin 9)
  /-- R499: The switch's fabric manager binds a logical device to a host, or unbinds it, changing CXL_LDk_CFG.BOUND.
  -/
  | ldBind (ld : Fin 16) (bound : Bool)
  /-- R253: A host enables or disables CXL.cache or CXL.mem for its logical device, changing CACHE_EN or MEM_EN. -/
  | cxlCacheMemEnable (ld : Fin 16) (cache mem : Bool)
  /-- R463: A Selvedge port's attachment router fails in service and the port enters FAILED. -/
  | attachmentRouterFailure (p : Fin 32)
deriving DecidableEq, Repr

end Sys2Proof
end

