-- ==== Sys2Proof/Config.lean ====
section
/-!
DEFINITION. The free values of the model: constants without a body, so that nothing can evaluate one or prove a value
of it. Each stands for a value the manual leaves open; the log entry that declares it is named beside it.
-/

namespace Sys2Proof.Config

/-- A value of `w` bits the manual leaves open, fresh for each number it is applied to (log entry 6). -/
opaque freeBits : (w : Nat) → Nat → BitVec w

/-- What a read returns for a field of `w` bits that counts cycles or that the manual leaves undefined at the read, by field
number, copy, and count of values taken before (log entries 6 and 7). -/
opaque readBits : (w field copy ctr : Nat) → BitVec w

/-- Which of the two bracketing FP32 values an implementation gives for texp2, trcp or trsqrt (operation code 0, 1, 2)
of a raw FP32 operand: true for the upper (04 R169, log entry 8). -/
opaque roundsUp : Nat → BitVec 32 → Bool

/-- The bytes that an operation folds into an operation digest, from its type, destination core, address, data and count of
data bytes; the manual states what is folded and not the order of its bytes (15 R558, log entry 14). -/
opaque digestBytes : (typ dst addr data len : Nat) → List (BitVec 8)

/-- The characterised minimum voltage of a field at a stitch setting, in mV, from the CALIB section of the store (19 R628,
log entry 19). -/
opaque minMillivolts : (field setting : Nat) → BitVec 16

/-- The calibrated compute and transit power of a field at a stitch setting, in W, that the power model sums (19 R633, log
entry 19). -/
opaque computeWatts : (field setting : Nat) → BitVec 16
opaque transitWatts : (field setting : Nat) → BitVec 16

/-- The SM3 digest of a measurement of Thimble whose bytes the model does not hold, by index and, for firmware, by its VERSION
(20 R657, log entry 20). -/
opaque measurement : (index version : Nat) → BitVec 256

/-- The digest of the firmware-signing public key that is fused at the factory (20 R651, log entry 51). -/
opaque keyDigest : BitVec 256

/-- A 64-byte signature over a message verifies under a public key, by the SM2 signature scheme with SM3, whose steps the manual
does not give (20 R651, log entry 51). -/
opaque sm2Verify : (key signature message : List (BitVec 8)) → Bool

end Sys2Proof.Config
end

