-- ==== Sys2Proof/Machine/Map.lean ====
section
/-!
DEFINITION. Sparse data by number: lists of (key, value) pairs in one canonical form, keys strictly rising and no
entry equal to what an unlisted key reads as. Every memory and every register file of the state is one.
-/

namespace Sys2Proof.Machine

/-- A sparse map from numbers, held as data. -/
abbrev PMap (α : Type) := List (Nat × α)

/-- The entry under a key. -/
def findKey {α : Type} (m : PMap α) (k : Nat) : Option α :=
  match m with
  | [] => none
  | (j, v) :: r => if k = j then some v else findKey r k

/-- The map with a value listed under a key. -/
def putKey {α : Type} (m : PMap α) (k : Nat) (v : α) : PMap α :=
  match m with
  | [] => [(k, v)]
  | (j, w) :: r =>
    if k = j then (k, v) :: r
    else if k < j then (k, v) :: (j, w) :: r
    else (j, w) :: putKey r k v

/-- The map without a key. -/
def delKey {α : Type} (m : PMap α) (k : Nat) : PMap α := m.filter fun e => !decide (e.1 = k)

/-- The value under a key, `d` where the key is not listed. -/
def mget {α : Type} (d : α) (m : PMap α) (k : Nat) : α := (findKey m k).getD d

/-- The map after a write: writing what an unlisted key reads as removes the entry. -/
def mset {α : Type} [DecidableEq α] (d : α) (m : PMap α) (k : Nat) (v : α) : PMap α :=
  if v = d then delKey m k else putKey m k v

/-- Every key of the list is above `k`. -/
def keysAbove {α : Type} (k : Nat) (m : PMap α) : Bool := m.all fun e => decide (k < e.1)

/-- Keys strictly rising. -/
def risingKeys {α : Type} : PMap α → Bool
  | [] => true
  | (k, _) :: r => keysAbove k r && risingKeys r

/-- The canonical form over one default: keys strictly rising, no entry equal to the default. -/
def canonical {α : Type} [DecidableEq α] (d : α) (m : PMap α) : Bool :=
  risingKeys m && m.all fun e => !decide (e.2 = d)

/-- The `n` bytes from address `a` upward as one number, the byte at `a` least significant. -/
def readLE (m : PMap Byte) (d : Byte) (a : Nat) : Nat → Nat
  | 0 => 0
  | n + 1 => (mget d m a).toNat + 256 * readLE m d (a + 1) n

/-- The memory after the low `n` bytes of `v` are written from address `a` upward. -/
def writeLE (m : PMap Byte) (d : Byte) (a v : Nat) : Nat → PMap Byte
  | 0 => m
  | n + 1 => writeLE (mset d m a (BitVec.ofNat 8 v)) d (a + 1) (v / 256) n

end Sys2Proof.Machine
end

