-- ==== Sys2Proof/Machine/Regs.lean ====
section
/-!
DEFINITION. The registers of the manual's tables: every field with its place, width, access code and reset value,
every register with its block and offset. Generated from the tables of spec/ and held against them by hand. A field the
table gives no reset number ("From store", a strap, a fuse) has the value that log entry 2 names.
-/

namespace Sys2Proof.Machine

/-- Register access codes (00 R3, Table 0.4). -/
inductive Access | ro | rw | wo | w1c | w1s
deriving DecidableEq, Repr

/-- One field of a register: its number among the fields, its lowest bit, its width, how many copies the register holds
and how far apart they stand, its access code, and its reset value by unit and index. -/
structure Fld where
  id : Nat
  lo : Nat
  width : Nat
  rep : Nat
  stride : Nat
  acc : Access
  rst : Nat → Nat → Nat

/-- The register blocks of the address map (07 Tables 7.2 and 7.3). -/
inductive Block | core | fld | pnl | waf | clk | rst | pwr | trd | intg | nvs | thm | mrk | brg | cxl | sel
deriving DecidableEq, Repr

/-- The registers of the manual, under their own names. -/
inductive Reg
  | CORE_ID | CORE_CTL | CORE_THSTATE | CORE_TAGCFG | CORE_TAGSTAT | CORE_ACC_OWN
  | CORE_TAGSTALL | CORE_BANKCONF | CORE_CYCLES | CORE_STAT | CORE_DBG | CORE_TH_PCn
  | CORE_TH_RETn | CORE_TH_WAITn | CORE_TRAP_ADDRn | CORE_TRAPCTL | CORE_TRAPn | CORE_TSTAT
  | CORE_TBUSY | CORE_TQFULL | CORE_FMTCTL | CORE_SRSEED | CORE_SRCMD | CORE_SRDRAWS
  | CORE_SRLANEl | SPX_DROP | SPX_PASSES | SPX_POS | SPX_CMP_CMD | SPX_CMP_STAT
  | SPX_SEL_CMD | SPX_SEL_THR | SPX_GATHER_SRC | SPX_GATHER_CFG | SPX_SEL_STAT | FAB_TREEn_A
  | FAB_TREEn_B | FAB_WIN | FAB_NICHK | BOB_STAT | BOB_HELDCC | SPL_SRC
  | SPL_DST | SPL_CMD | SPL_STAT | TACK_STATEn | TACK_WAITt | BOB_HANDLERn
  | CORE_QENDe_A | CORE_QENDe_B | CORE_STEERu_A | CORE_STEERu_B | CORE_PAT_CTL | CORE_PAT_LOAD
  | CORE_PAT_STAT | CORE_PAT_SWCC | CORE_PAT_THSTALLn | CORE_RING_CFG | CORE_RING_LAYOUT | CORE_RING_TACKS
  | CORE_RING_CMD | CORE_RING_STAT | CORE_RING_SUMSTAT | INT_CSUMSTAT | INT_CSUMLAST | INT_DUPSTAT
  | INT_BADMAPw | WAF_GEOM | WAF_CORES | WAF_GUSSET_MAP | FLD_ID | PNL_ROWSTAT
  | PNL_RELOCn | MRK_CTL | MRK_STAT | MRK_SPLIT_THRESH | MRK_REJECT | MRK_MIGRATE
  | MRK_MIG_STAT | MRK_PLACE_US | MRK_RELOC_BITMAPw | FAB_CTL | FAB_MARK_THRESH | FAB_WINCFG
  | FAB_RETRYCFG | FAB_SEAMSTATs | FAB_SEAMFAILs_n_h | FAB_RETRY_STAT | FAB_HOLEMAP | FAB_PARKMAP
  | FAB_MARKS | FAB_DETOURS | FAB_LINKERR | FAB_DL_WINDOW | FAB_DL_STAT | FAB_DL_SNAPn
  | MRK_RINGj_SETUP | MRK_RINGj_CFG | MRK_RINGj_STAT | MRK_RINGj_COUNT | MRK_RINGj_DEADLINE | MRK_RINGj_NAN
  | SEL_ID | SEL_CTL | SEL_STAT | SEL_CAP | SEL_WAIT_LIMIT | SEL_LOCK_MAX
  | SEL_RETRYCFG | SEL_RSP_TIMEOUT | SEL_LDRANK | SEL_RETRYSTAT | SEL_ERRSTAT | SEL_TRAFFIC
  | SEL_ARBSTAT | SEL_TAGSTAT | SEL_LANEl | SEL_MAP | CXL_LINKSTAT | CXL_HM_TIMEOUT
  | CXL_CTLERR | CXL_FIBRE | CXL_LDk_CFG | CXL_LDk_PART | CXL_LDk_FMWIN | CXL_LDk_MSIX
  | CXL_LDk_RING | CXL_LDk_RINGPTR | CXL_LDk_EVQ | CXL_LDk_EVQPTR | CXL_LDk_EVVEC | CXL_LDk_APERTURE
  | CXL_LDk_HMSTAT | INT_CTL | INT_FENCE_COUNT | INT_FENCE_WINDOW | INT_SWEEP_PERIOD | INT_WATCH_PERIOD
  | INT_STAT | INT_TESTSTAT | INT_CAUSEc | INT_DIGEST_CFGj | INT_DIGEST_STATj | INT_WL_An
  | INT_WL_Bn | BRG_READY | BRG_FLD_TRANSIT | BRG_FLD_SEAMOK | BRG_FLD_TOPO | BRG_FLD_COMPUTE
  | BRG_FLD_READY | BRG_PORTS | BRG_CMD | BRG_CMDSTAT | BRG_BER_LIMIT | BRG_TOPO_DIFF
  | BRG_DISAGREE | BRG_RST | BRG_RSTSTAT | BRG_DRAIN_LIMIT | BRG_DARN_CMD | BRG_DARN_STAT
  | BRG_DARN_COUNT | RST_CTL | RST_CAUSE | RST_STAT | RST_BLOCK | RST_PINFUSE
  | FLD_CUEn_B | FLD_CUESTAT | CLK_STAT | CLK_BLKEN | CLK_PORTEN | CLK_OBS
  | CLK_GATEDERR | CLK_FLDf_CTL | CLK_FLDf_STAT | CLK_FLDf_STITCH | CLK_FLDf_SEQ | CLK_FLDf_CYCLES
  | TRD_CTL | TRD_COUNT | TRD_PUSH | TRD_STAT | TRD_INTERVAL | PWR_CTL
  | PWR_CAP | PWR_MEAS | PWR_HYST | PWR_STAT | PWR_THERM | PWR_PARK_ORDERn
  | PWR_DOMSTATn | PWR_THR_TRr | PWR_THR_USr | PWR_FLDf_CTL | PWR_FLDf_STAT | PWR_FLDf_VOLT
  | NVS_CTL | NVS_STAT | NVS_SECTk | THM_STAT | THM_MINVER | THM_FWSLOTn
  | THM_UPD_CMD | THM_UPD_STAT | MGT_CTL | MGT_STAT | MGT_PID | MGT_ARBCFG
  | MGT_RANK | MGT_ARBSTAT | MGT_COOLANT | FLD_CUEn_A
deriving DecidableEq, Repr

/-- Where a register stands: its block, first offset, distance between copies, how many copies, and whether a copy's
number names the unit (a field, a logical device, a ring) and not an index within the unit. -/
structure RegPlace where
  block : Block
  base : Nat
  stride : Nat
  count : Nat
  byUnit : Bool
deriving DecidableEq, Repr

namespace F

/-- 02 Table 2.8, CORE_ID [19:0]: Logical core number. -/
def CORE_ID_LCN : Fld := ⟨0, 0, 20, 1, 0, .ro, fun u _ => u⟩
/-- 02 Table 2.8, CORE_ID [20]: Always 1 in a readable window; see R88. -/
def CORE_ID_BACKED : Fld := ⟨1, 20, 1, 1, 0, .ro, fun _ _ => 1⟩
/-- 02 Table 2.8, CORE_ID [21]: 1 if the logical row is held in a gusset row. -/
def CORE_ID_RELOCATED : Fld := ⟨2, 21, 1, 1, 0, .ro, fun _ _ => 0⟩
/-- 02 Table 2.9, CORE_CTL [0]: 1 enables the core's clocks. -/
def CORE_CTL_CLK_EN : Fld := ⟨3, 0, 1, 1, 0, .rw, fun _ _ => 0⟩
/-- 02 Table 2.9, CORE_CTL [1]: Writing 1 starts the core reset described in Bring-Up, Partial Reset and Darning. -/
def CORE_CTL_SW_RST : Fld := ⟨4, 1, 1, 1, 0, .wo, fun _ _ => 0⟩
/-- 02 Table 2.9, CORE_CTL [2]: 1 permits whole-core gating under R80. -/
def CORE_CTL_GATE_EN : Fld := ⟨5, 2, 1, 1, 0, .rw, fun _ _ => 1⟩
/-- 02 Table 2.9, CORE_CTL [7:4]: Writing 1 to bit 4 + n requests a halt of thread n. -/
def CORE_CTL_HALT : Fld := ⟨6, 4, 4, 1, 0, .wo, fun _ _ => 0⟩
/-- 02 Table 2.9, CORE_CTL [11:8]: Writing 1 to bit 8 + n resumes halted thread n. -/
def CORE_CTL_RESUME : Fld := ⟨7, 8, 4, 1, 0, .wo, fun _ _ => 0⟩
/-- 02 Table 2.10, CORE_THSTATE [4n+2:4n]: State of thread n, coded as in Table 2.2; n = 0–3. -/
def CORE_THSTATE_STATE_n : Fld := ⟨8, 0, 3, 4, 4, .ro, fun _ _ => 0⟩
/-- 02 Table 2.11, CORE_TAGCFG [6:0]: Most tags one thread can hold, 1–64. -/
def CORE_TAGCFG_THREAD_MAX : Fld := ⟨9, 0, 7, 1, 0, .rw, fun _ _ => 40⟩
/-- 02 Table 2.11, CORE_TAGCFG [12:8]: Tag timeout is 2^TIMEOUT_EXP cc; 24–30. -/
def CORE_TAGCFG_TIMEOUT_EXP : Fld := ⟨10, 8, 5, 1, 0, .rw, fun _ _ => 24⟩
/-- 02 Table 2.12, CORE_TAGSTAT [6:0]: Tags in the pool, including none in quarantine. -/
def CORE_TAGSTAT_FREE : Fld := ⟨11, 0, 7, 1, 0, .ro, fun _ _ => 64⟩
/-- 02 Table 2.12, CORE_TAGSTAT [8n+14:8n+8]: Tags held by thread n; n = 0–3. -/
def CORE_TAGSTAT_HELD_n : Fld := ⟨12, 8, 7, 4, 8, .ro, fun _ _ => 0⟩
/-- 02 Table 2.13, CORE_ACC_OWN [2k+1:2k]: Thread that owns accumulator ck; k = 0–3; register reset value 0xE4. -/
def CORE_ACC_OWN_OWNER_k : Fld := ⟨13, 0, 2, 4, 2, .rw, fun _ n => n⟩
/-- 02 Table 2.14, CORE_TAGSTALL [31:0]: Saturating count of thread-cc spent stalled with reason 2 or 3. -/
def CORE_TAGSTALL_STALL_CC : Fld := ⟨14, 0, 32, 1, 0, .ro, fun _ _ => 0⟩
/-- 02 Table 2.14, CORE_TAGSTALL [32]: Sticky; 1 once STALL_CC has saturated. -/
def CORE_TAGSTALL_SAT : Fld := ⟨15, 32, 1, 1, 0, .w1c, fun _ _ => 0⟩
/-- 02 Table 2.15, CORE_BANKCONF [31:0]: Saturating count of port-cc lost to bank conflicts under R61. -/
def CORE_BANKCONF_LOST : Fld := ⟨16, 0, 32, 1, 0, .ro, fun _ _ => 0⟩
/-- 02 Table 2.15, CORE_BANKCONF [32]: Sticky; 1 once LOST has saturated. -/
def CORE_BANKCONF_SAT : Fld := ⟨17, 32, 1, 1, 0, .w1c, fun _ _ => 0⟩
/-- 02 Table 2.16, CORE_CYCLES [63:0]: Wrapping count of field-clock cc since core reset, clock-gated cc included; wraps after about 390 years at Stitch 8. -/
def CORE_CYCLES_CC : Fld := ⟨18, 0, 64, 1, 0, .ro, fun _ _ => 0⟩
/-- 02 Table 2.17, CORE_STAT [0]: An instruction-store write was discarded under R70. -/
def CORE_STAT_ISTORE_REJ : Fld := ⟨19, 0, 1, 1, 0, .w1c, fun _ _ => 0⟩
/-- 02 Table 2.17, CORE_STAT [1]: A register-window write was discarded under R90. -/
def CORE_STAT_DBG_REJ : Fld := ⟨20, 1, 1, 1, 0, .w1c, fun _ _ => 0⟩
/-- 02 Table 2.17, CORE_STAT [2]: A tag timed out under R76. -/
def CORE_STAT_TIMEOUT : Fld := ⟨21, 2, 1, 1, 0, .w1c, fun _ _ => 0⟩
/-- 02 Table 2.17, CORE_STAT [3]: Sticky; 1 once LATE_RESP has saturated. -/
def CORE_STAT_LATE_SAT : Fld := ⟨22, 3, 1, 1, 0, .w1c, fun _ _ => 0⟩
/-- 02 Table 2.17, CORE_STAT [4]: Sticky; an operation of a STOPPED thread was answered with an error under R119. -/
def CORE_STAT_STOPPED_ERR : Fld := ⟨23, 4, 1, 1, 0, .w1c, fun _ _ => 0⟩
/-- 02 Table 2.17, CORE_STAT [15:8]: Saturating count of responses discarded under R78. -/
def CORE_STAT_LATE_RESP : Fld := ⟨24, 8, 8, 1, 0, .ro, fun _ _ => 0⟩
/-- 02 Table 2.18, CORE_DBG [0]: 0 shows tile registers, 1 shows accumulators at 0x2000. -/
def CORE_DBG_VIEW : Fld := ⟨25, 0, 1, 1, 0, .rw, fun _ _ => 0⟩
/-- 02 Table 2.18, CORE_TH_PCn [12:0]: Program counter of thread n; valid under the read rule of R90. -/
def CORE_TH_PCn_PC : Fld := ⟨26, 0, 13, 1, 0, .ro, fun _ _ => 0⟩
/-- 02 Table 2.18, CORE_TH_RETn [63:0]: Wrapping count of instructions retired by thread n, false-predicated ones included. -/
def CORE_TH_RETn_RETIRED : Fld := ⟨27, 0, 64, 1, 0, .ro, fun _ _ => 0⟩
/-- 02 Table 2.18, CORE_TH_WAITn [4:0]: Tack that thread n waits on, valid while it is WAITING. -/
def CORE_TH_WAITn_TACK : Fld := ⟨28, 0, 5, 1, 0, .ro, fun _ _ => 0⟩
/-- 02 Table 2.18, CORE_TH_WAITn [11:8]: Reason, coded as in Table 2.7 and chosen under R690, for which thread n could not issue in the last cc. -/
def CORE_TH_WAITn_STALL : Fld := ⟨29, 8, 4, 1, 0, .ro, fun _ _ => 0⟩
/-- 03 Table 3.14, CORE_TRAP_ADDRn [63:0]: Address of the trapping access, as the ADDR column of Table 3.13 states; zero where it gives none. -/
def CORE_TRAP_ADDRn_ADDR : Fld := ⟨30, 0, 64, 1, 0, .ro, fun _ _ => 0⟩
/-- 03 Table 3.15, CORE_TRAPCTL [0]: 1 makes a trap of any thread halt the other threads under R138. -/
def CORE_TRAPCTL_STOP_CORE : Fld := ⟨31, 0, 1, 1, 0, .rw, fun _ _ => 0⟩
/-- 03 Table 3.15, CORE_TRAPCTL [1]: 1 enables the thread-trap event; 0 records the trap without the event. -/
def CORE_TRAPCTL_EVT_EN : Fld := ⟨32, 1, 1, 1, 0, .rw, fun _ _ => 1⟩
/-- 03 Table 3.16, CORE_TRAPn [7:0]: Cause, coded as in Table 3.13; 0x00 means none. -/
def CORE_TRAPn_CAUSE : Fld := ⟨33, 0, 8, 1, 0, .ro, fun _ _ => 0⟩
/-- 03 Table 3.16, CORE_TRAPn [11:8]: Subcode. -/
def CORE_TRAPn_SUB : Fld := ⟨34, 8, 4, 1, 0, .ro, fun _ _ => 0⟩
/-- 03 Table 3.16, CORE_TRAPn [12]: 1 for a response trap. -/
def CORE_TRAPn_RESP : Fld := ⟨35, 12, 1, 1, 0, .ro, fun _ _ => 0⟩
/-- 03 Table 3.16, CORE_TRAPn [13]: 1 if another trap condition arose under R136. -/
def CORE_TRAPn_MULTI : Fld := ⟨36, 13, 1, 1, 0, .ro, fun _ _ => 0⟩
/-- 03 Table 3.16, CORE_TRAPn [14]: 1 from entry into TRAPPED until core reset. -/
def CORE_TRAPn_VALID : Fld := ⟨37, 14, 1, 1, 0, .ro, fun _ _ => 0⟩
/-- 03 Table 3.16, CORE_TRAPn [28:16]: Address of the trapping instruction. -/
def CORE_TRAPn_PC : Fld := ⟨38, 16, 13, 1, 0, .ro, fun _ _ => 0⟩
/-- 03 Table 3.16, CORE_TRAPn [63:32]: Detail, as the INFO column of Table 3.13 states. -/
def CORE_TRAPn_INFO : Fld := ⟨39, 32, 32, 1, 0, .ro, fun _ _ => 0⟩
/-- 04 Table 4.12, CORE_TSTAT [0]: Sticky; an instruction produced a NaN from inputs that held none. -/
def CORE_TSTAT_NV : Fld := ⟨40, 0, 1, 1, 0, .w1c, fun _ _ => 0⟩
/-- 04 Table 4.12, CORE_TSTAT [1]: Sticky; a result overflowed to infinity. -/
def CORE_TSTAT_OF : Fld := ⟨41, 1, 1, 1, 0, .w1c, fun _ _ => 0⟩
/-- 04 Table 4.12, CORE_TSTAT [2]: Sticky; an FP32 or FP64 input or result was flushed to zero. -/
def CORE_TSTAT_FLUSH : Fld := ⟨42, 2, 1, 1, 0, .w1c, fun _ _ => 0⟩
/-- 04 Table 4.12, CORE_TSTAT [3]: Sticky; a pair instruction flushed its low part. -/
def CORE_TSTAT_LOWINEX : Fld := ⟨43, 3, 1, 1, 0, .w1c, fun _ _ => 0⟩
/-- 04 Table 4.12, CORE_TSTAT [4]: Sticky; an INT8 tmma wrapped its INT32 result. -/
def CORE_TSTAT_INTWRAP : Fld := ⟨44, 4, 1, 1, 0, .w1c, fun _ _ => 0⟩
/-- 04 Table 4.12, CORE_TSTAT [5]: Sticky; a cread to INT8 clamped an element. -/
def CORE_TSTAT_CVTSAT : Fld := ⟨45, 5, 1, 1, 0, .w1c, fun _ _ => 0⟩
/-- 04 Table 4.12, CORE_TSTAT [11:8]: Sticky; bit 8 + n is set when an instruction of thread n set any flag above. -/
def CORE_TSTAT_SRC : Fld := ⟨46, 8, 4, 1, 0, .w1c, fun _ _ => 0⟩
/-- 04 Table 4.13, CORE_TBUSY [47:0]: Saturating count of cc in which the tensor array runs an instruction. -/
def CORE_TBUSY_BUSY : Fld := ⟨47, 0, 48, 1, 0, .ro, fun _ _ => 0⟩
/-- 04 Table 4.13, CORE_TBUSY [48]: Sticky; 1 once BUSY has saturated. -/
def CORE_TBUSY_SAT : Fld := ⟨48, 48, 1, 1, 0, .w1c, fun _ _ => 0⟩
/-- 04 Table 4.14, CORE_TQFULL [31:0]: Saturating count of thread-cc stalled with reason 5. -/
def CORE_TQFULL_STALL_CC : Fld := ⟨49, 0, 32, 1, 0, .ro, fun _ _ => 0⟩
/-- 04 Table 4.14, CORE_TQFULL [32]: Sticky; 1 once STALL_CC has saturated. -/
def CORE_TQFULL_SAT : Fld := ⟨50, 32, 1, 1, 0, .w1c, fun _ _ => 0⟩
/-- 05 Table 5.6, CORE_FMTCTL [0]: 1 makes overflow and infinity into E4M3 and E5M2 give the largest finite value, under Tables 5.4 and 5.5. -/
def CORE_FMTCTL_FP8_SAT : Fld := ⟨51, 0, 1, 1, 0, .rw, fun _ _ => 0⟩
/-- 05 Table 5.6, CORE_FMTCTL [8]: Sticky; a value was replaced by the largest finite value of a format or by an integer limit. -/
def CORE_FMTCTL_CLAMP : Fld := ⟨52, 8, 1, 1, 0, .w1c, fun _ _ => 0⟩
/-- 05 Table 5.6, CORE_FMTCTL [9]: Sticky; a NaN converted into a format with no NaN encoding. -/
def CORE_FMTCTL_NANLOST : Fld := ⟨53, 9, 1, 1, 0, .w1c, fun _ _ => 0⟩
/-- 05 Table 5.6, CORE_FMTCTL [15:12]: Sticky; bit 12 + n is set when an instruction of thread n set CLAMP or NANLOST. -/
def CORE_FMTCTL_SRC : Fld := ⟨54, 12, 4, 1, 0, .w1c, fun _ _ => 0⟩
/-- 05 Table 5.7, CORE_SRSEED [63:0]: Seed of the lane generators under R197; writes follow R202. -/
def CORE_SRSEED_SEED : Fld := ⟨55, 0, 64, 1, 0, .rw, fun _ _ => 0⟩
/-- 05 Table 5.8, CORE_SRCMD [0]: Writing 1 seeds every lane from SEED under R198. -/
def CORE_SRCMD_RESEED : Fld := ⟨56, 0, 1, 1, 0, .wo, fun _ _ => 0⟩
/-- 05 Table 5.8, CORE_SRCMD [8]: Sticky; a write was discarded under R202. -/
def CORE_SRCMD_REJ : Fld := ⟨57, 8, 1, 1, 0, .w1c, fun _ _ => 0⟩
/-- 05 Table 5.9, CORE_SRDRAWS [47:0]: Wrapping count of draws taken by the core since reset. In any n cc it rises by at most 520 × n + 32,768: the T pipe adds at most 512 per cc, the array at most 256 for each 32 cc of its occupancy, and one sparse tmma can add up to 32,768 in the cc in which it completes (R223). It therefore wraps after no less than 360 s at Stitch 8. -/
def CORE_SRDRAWS_DRAWS : Fld := ⟨58, 0, 48, 1, 0, .ro, fun _ _ => 0⟩
/-- 05 Table 5.10, CORE_SRLANEl [63:0]: State of lane l; reads and writes under R202. -/
def CORE_SRLANEl_STATE : Fld := ⟨59, 0, 64, 1, 0, .rw, fun _ _ => 0⟩
/-- 06 Table 6.8, SPX_DROP [31:0]: Saturating count of list entries dropped under R230. -/
def SPX_DROP_IDX : Fld := ⟨60, 0, 32, 1, 0, .ro, fun _ _ => 0⟩
/-- 06 Table 6.8, SPX_DROP [47:32]: Saturating count of 2:4 elements dropped under R214. -/
def SPX_DROP_CODE : Fld := ⟨61, 32, 16, 1, 0, .ro, fun _ _ => 0⟩
/-- 06 Table 6.8, SPX_DROP [48]: Sticky; 1 once IDX or CODE has saturated. -/
def SPX_DROP_SAT : Fld := ⟨62, 48, 1, 1, 0, .w1c, fun _ _ => 0⟩
/-- 06 Table 6.8, SPX_DROP [55:52]: Sticky; bit 52 + n is set when a tmma of thread n dropped an entry or element. -/
def SPX_DROP_SRC : Fld := ⟨63, 52, 4, 1, 0, .w1c, fun _ _ => 0⟩
/-- 06 Table 6.9, SPX_PASSES [47:0]: Saturating count of passes run by sparse tmma instructions. -/
def SPX_PASSES_PASSES : Fld := ⟨64, 0, 48, 1, 0, .ro, fun _ _ => 0⟩
/-- 06 Table 6.9, SPX_PASSES [48]: Sticky; 1 once PASSES has saturated. -/
def SPX_PASSES_SAT : Fld := ⟨65, 48, 1, 1, 0, .w1c, fun _ _ => 0⟩
/-- 06 Table 6.10, SPX_POS [47:0]: Saturating count of stripe positions retired, present and absent. -/
def SPX_POS_POS : Fld := ⟨66, 0, 48, 1, 0, .ro, fun _ _ => 0⟩
/-- 06 Table 6.10, SPX_POS [48]: Sticky; 1 once POS has saturated. -/
def SPX_POS_SAT : Fld := ⟨67, 48, 1, 1, 0, .w1c, fun _ _ => 0⟩
/-- 06 Table 6.11, SPX_CMP_CMD [7:0]: First source tile. -/
def SPX_CMP_CMD_SRC : Fld := ⟨68, 0, 8, 1, 0, .rw, fun _ _ => 0⟩
/-- 06 Table 6.11, SPX_CMP_CMD [15:8]: First destination tile. -/
def SPX_CMP_CMD_DST : Fld := ⟨69, 8, 8, 1, 0, .rw, fun _ _ => 0⟩
/-- 06 Table 6.11, SPX_CMP_CMD [23:16]: Source tiles, 1–128. -/
def SPX_CMP_CMD_SPAN : Fld := ⟨70, 16, 8, 1, 0, .rw, fun _ _ => 0⟩
/-- 06 Table 6.11, SPX_CMP_CMD [27:24]: Format code for the absent test, 0x0–0xA. -/
def SPX_CMP_CMD_FMT : Fld := ⟨71, 24, 4, 1, 0, .rw, fun _ _ => 0⟩
/-- 06 Table 6.11, SPX_CMP_CMD [28]: 1 writes data tiles in the 2:4 form under R236. -/
def SPX_CMP_CMD_PRUNE24 : Fld := ⟨72, 28, 1, 1, 0, .rw, fun _ _ => 0⟩
/-- 06 Table 6.11, SPX_CMP_CMD [36:32]: Own tack signalled at completion. -/
def SPX_CMP_CMD_TACK : Fld := ⟨73, 32, 5, 1, 0, .rw, fun _ _ => 0⟩
/-- 06 Table 6.11, SPX_CMP_CMD [51:40]: Header at own-SRAM byte 16 × HDR16. -/
def SPX_CMP_CMD_HDR16 : Fld := ⟨74, 40, 12, 1, 0, .rw, fun _ _ => 0⟩
/-- 06 Table 6.11, SPX_CMP_CMD [63]: Writing 1 starts the compressor under R232. -/
def SPX_CMP_CMD_GO : Fld := ⟨75, 63, 1, 1, 0, .wo, fun _ _ => 0⟩
/-- 06 Table 6.12, SPX_CMP_STAT [0]: 1 while the compressor runs. -/
def SPX_CMP_STAT_BUSY : Fld := ⟨76, 0, 1, 1, 0, .ro, fun _ _ => 0⟩
/-- 06 Table 6.12, SPX_CMP_STAT [1]: Set when a command completes or fails. -/
def SPX_CMP_STAT_DONE : Fld := ⟨77, 1, 1, 1, 0, .w1c, fun _ _ => 0⟩
/-- 06 Table 6.12, SPX_CMP_STAT [2]: The last command failed its checks. -/
def SPX_CMP_STAT_ERR : Fld := ⟨78, 2, 1, 1, 0, .w1c, fun _ _ => 0⟩
/-- 06 Table 6.12, SPX_CMP_STAT [3]: A command write was discarded. -/
def SPX_CMP_STAT_REJ : Fld := ⟨79, 3, 1, 1, 0, .w1c, fun _ _ => 0⟩
/-- 06 Table 6.12, SPX_CMP_STAT [4]: 1 if the last stripe was written in the dense form. -/
def SPX_CMP_STAT_DENSE : Fld := ⟨80, 4, 1, 1, 0, .ro, fun _ _ => 0⟩
/-- 06 Table 6.12, SPX_CMP_STAT [5]: Sticky; PRUNE24 discarded a nonzero element. -/
def SPX_CMP_STAT_PRUNED : Fld := ⟨81, 5, 1, 1, 0, .w1c, fun _ _ => 0⟩
/-- 06 Table 6.12, SPX_CMP_STAT [15:8]: Present tiles in the last stripe, 0–128. -/
def SPX_CMP_STAT_PRESENT : Fld := ⟨82, 8, 8, 1, 0, .ro, fun _ _ => 0⟩
/-- 06 Table 6.12, SPX_CMP_STAT [19:16]: Error of the last failed command, Table 6.7. -/
def SPX_CMP_STAT_ERRCODE : Fld := ⟨83, 16, 4, 1, 0, .ro, fun _ _ => 0⟩
/-- 06 Table 6.13, SPX_SEL_CMD [7:0]: Score tile. -/
def SPX_SEL_CMD_SCORE : Fld := ⟨84, 0, 8, 1, 0, .rw, fun _ _ => 0⟩
/-- 06 Table 6.13, SPX_SEL_CMD [15:8]: Tile that receives the index tile. -/
def SPX_SEL_CMD_IDX : Fld := ⟨85, 8, 8, 1, 0, .rw, fun _ _ => 0⟩
/-- 06 Table 6.13, SPX_SEL_CMD [23:16]: Groups scored, 1–128. -/
def SPX_SEL_CMD_GROUPS : Fld := ⟨86, 16, 8, 1, 0, .rw, fun _ _ => 0⟩
/-- 06 Table 6.13, SPX_SEL_CMD [31:24]: Groups selected under TOPN = 1, 1–GROUPS. -/
def SPX_SEL_CMD_N : Fld := ⟨87, 24, 8, 1, 0, .rw, fun _ _ => 0⟩
/-- 06 Table 6.13, SPX_SEL_CMD [32]: 0 FP16 scores; 1 BF16 scores. -/
def SPX_SEL_CMD_SFMT : Fld := ⟨88, 32, 1, 1, 0, .rw, fun _ _ => 0⟩
/-- 06 Table 6.13, SPX_SEL_CMD [33]: 0 threshold selection; 1 top-N selection. -/
def SPX_SEL_CMD_TOPN : Fld := ⟨89, 33, 1, 1, 0, .rw, fun _ _ => 0⟩
/-- 06 Table 6.13, SPX_SEL_CMD [34]: 1 posts the gather of R243. -/
def SPX_SEL_CMD_GATHER : Fld := ⟨90, 34, 1, 1, 0, .rw, fun _ _ => 0⟩
/-- 06 Table 6.13, SPX_SEL_CMD [39:35]: Own tack signalled at completion. -/
def SPX_SEL_CMD_TACK : Fld := ⟨91, 35, 5, 1, 0, .rw, fun _ _ => 0⟩
/-- 06 Table 6.13, SPX_SEL_CMD [51:40]: Header at own-SRAM byte 16 × HDR16. -/
def SPX_SEL_CMD_HDR16 : Fld := ⟨92, 40, 12, 1, 0, .rw, fun _ _ => 0⟩
/-- 06 Table 6.13, SPX_SEL_CMD [63]: Writing 1 starts the engine under R240. -/
def SPX_SEL_CMD_GO : Fld := ⟨93, 63, 1, 1, 0, .wo, fun _ _ => 0⟩
/-- 06 Table 6.14, SPX_SEL_THR [15:0]: Threshold, in the format SFMT. -/
def SPX_SEL_THR_THR : Fld := ⟨94, 0, 16, 1, 0, .rw, fun _ _ => 0⟩
/-- 06 Table 6.15, SPX_GATHER_SRC [63:0]: Device address of group 0's first weight tile; 256-byte aligned. -/
def SPX_GATHER_SRC_ADDR : Fld := ⟨95, 0, 64, 1, 0, .rw, fun _ _ => 0⟩
/-- 06 Table 6.16, SPX_GATHER_CFG [31:0]: Bytes between the first tiles of consecutive groups; a multiple of 256. -/
def SPX_GATHER_CFG_GSTRIDE : Fld := ⟨96, 0, 32, 1, 0, .rw, fun _ _ => 0⟩
/-- 06 Table 6.16, SPX_GATHER_CFG [36:32]: Tiles fetched per group, 1–16. -/
def SPX_GATHER_CFG_TPG : Fld := ⟨97, 32, 5, 1, 0, .rw, fun _ _ => 1⟩
/-- 06 Table 6.16, SPX_GATHER_CFG [47:40]: First own-SRAM tile that receives fetched tiles. -/
def SPX_GATHER_CFG_DST : Fld := ⟨98, 40, 8, 1, 0, .rw, fun _ _ => 0⟩
/-- 06 Table 6.17, SPX_SEL_STAT [0]: 1 from GO until the tack signal. -/
def SPX_SEL_STAT_BUSY : Fld := ⟨99, 0, 1, 1, 0, .ro, fun _ _ => 0⟩
/-- 06 Table 6.17, SPX_SEL_STAT [1]: Set when a command completes or fails. -/
def SPX_SEL_STAT_DONE : Fld := ⟨100, 1, 1, 1, 0, .w1c, fun _ _ => 0⟩
/-- 06 Table 6.17, SPX_SEL_STAT [2]: The last command failed its checks. -/
def SPX_SEL_STAT_ERR : Fld := ⟨101, 2, 1, 1, 0, .w1c, fun _ _ => 0⟩
/-- 06 Table 6.17, SPX_SEL_STAT [3]: A command write was discarded. -/
def SPX_SEL_STAT_REJ : Fld := ⟨102, 3, 1, 1, 0, .w1c, fun _ _ => 0⟩
/-- 06 Table 6.17, SPX_SEL_STAT [4]: Sticky; a gather read failed under R244. -/
def SPX_SEL_STAT_GFAIL : Fld := ⟨103, 4, 1, 1, 0, .w1c, fun _ _ => 0⟩
/-- 06 Table 6.17, SPX_SEL_STAT [15:8]: Groups selected by the last command. -/
def SPX_SEL_STAT_SELECTED : Fld := ⟨104, 8, 8, 1, 0, .ro, fun _ _ => 0⟩
/-- 06 Table 6.17, SPX_SEL_STAT [19:16]: Error of the last failed command, Table 6.7. -/
def SPX_SEL_STAT_ERRCODE : Fld := ⟨105, 16, 4, 1, 0, .ro, fun _ _ => 0⟩
/-- 08 Table 8.7, FAB_TREEn_A [15:0]: Tree number. -/
def FAB_TREEn_A_TREE : Fld := ⟨106, 0, 16, 1, 0, .ro, fun _ _ => 0⟩
/-- 08 Table 8.7, FAB_TREEn_A [17:16]: 0 unused; 1 leaf; 2 merge; 3 root. -/
def FAB_TREEn_A_KIND : Fld := ⟨107, 16, 2, 1, 0, .ro, fun _ _ => 0⟩
/-- 08 Table 8.7, FAB_TREEn_A [18]: Side of this node at its parent; 0 left, 1 right. -/
def FAB_TREEn_A_SIDE : Fld := ⟨108, 18, 1, 1, 0, .ro, fun _ _ => 0⟩
/-- 08 Table 8.7, FAB_TREEn_A [19]: 0 one child; 1 two children; merge and root only. -/
def FAB_TREEn_A_NCHILD : Fld := ⟨109, 19, 1, 1, 0, .ro, fun _ _ => 0⟩
/-- 08 Table 8.7, FAB_TREEn_A [23:20]: Sum format: 0x6, 0x7, 0x8 or 0xA. -/
def FAB_TREEn_A_FMT : Fld := ⟨110, 20, 4, 1, 0, .ro, fun _ _ => 8⟩
/-- 08 Table 8.7, FAB_TREEn_A [51:32]: Logical core of the parent; leaf and merge only. -/
def FAB_TREEn_A_PARENT : Fld := ⟨111, 32, 20, 1, 0, .ro, fun _ _ => 0⟩
/-- 08 Table 8.8, FAB_TREEn_B [31:0]: Expected step; merge and root only. -/
def FAB_TREEn_B_STEP : Fld := ⟨112, 0, 32, 1, 0, .ro, fun _ _ => 0⟩
/-- 08 Table 8.8, FAB_TREEn_B [39:32]: First own-SRAM tile of the result; root only. -/
def FAB_TREEn_B_DST_TILE : Fld := ⟨113, 32, 8, 1, 0, .ro, fun _ _ => 0⟩
/-- 08 Table 8.8, FAB_TREEn_B [44:40]: Result tiles used in rotation, 1–16; root only. -/
def FAB_TREEn_B_TILES : Fld := ⟨114, 40, 5, 1, 0, .ro, fun _ _ => 1⟩
/-- 08 Table 8.8, FAB_TREEn_B [52:48]: Own tack signalled after each write; root only. -/
def FAB_TREEn_B_TACK : Fld := ⟨115, 48, 5, 1, 0, .ro, fun _ _ => 0⟩
/-- 08 Table 8.9, FAB_WIN [6:0]: Current injection window. -/
def FAB_WIN_W : Fld := ⟨116, 0, 7, 1, 0, .ro, fun _ _ => 64⟩
/-- 08 Table 8.9, FAB_WIN [14:8]: VC1 requests outstanding. -/
def FAB_WIN_OUT : Fld := ⟨117, 8, 7, 1, 0, .ro, fun _ _ => 0⟩
/-- 08 Table 8.9, FAB_WIN [47:16]: Saturating count of marks received. -/
def FAB_WIN_MARKS : Fld := ⟨118, 16, 32, 1, 0, .ro, fun _ _ => 0⟩
/-- 08 Table 8.9, FAB_WIN [48]: Sticky; 1 once MARKS has saturated. -/
def FAB_WIN_SAT : Fld := ⟨119, 48, 1, 1, 0, .w1c, fun _ _ => 0⟩
/-- 08 Table 8.10, FAB_NICHK [23:0]: Saturating count of packets that failed CHK here. -/
def FAB_NICHK_CHKFAIL : Fld := ⟨120, 0, 24, 1, 0, .ro, fun _ _ => 0⟩
/-- 08 Table 8.10, FAB_NICHK [39:24]: Saturating count of requests answered ERR 0x06. -/
def FAB_NICHK_MISROUTE : Fld := ⟨121, 24, 16, 1, 0, .ro, fun _ _ => 0⟩
/-- 08 Table 8.10, FAB_NICHK [55:40]: Saturating count of replies discarded by this position's absent responder. -/
def FAB_NICHK_MISS : Fld := ⟨122, 40, 16, 1, 0, .ro, fun _ _ => 0⟩
/-- 08 Table 8.10, FAB_NICHK [56]: Sticky; 1 once any count has saturated. -/
def FAB_NICHK_SAT : Fld := ⟨123, 56, 1, 1, 0, .w1c, fun _ _ => 0⟩
/-- 09 Table 9.7, BOB_STAT [2:0]: Landing slots in use, 0–4. -/
def BOB_STAT_HELD : Fld := ⟨124, 0, 3, 1, 0, .ro, fun _ _ => 0⟩
/-- 09 Table 9.7, BOB_STAT [3]: Sticky; an mfree found READY = 0. -/
def BOB_STAT_FREE_EMPTY : Fld := ⟨125, 3, 1, 1, 0, .w1c, fun _ _ => 0⟩
/-- 09 Table 9.7, BOB_STAT [4]: 1 while the local port refuses VC1 requests under R351. -/
def BOB_STAT_LOCAL_BLOCK : Fld := ⟨126, 4, 1, 1, 0, .ro, fun _ _ => 0⟩
/-- 09 Table 9.7, BOB_STAT [47:16]: Wrapping count of records placed in this core's bobbins. -/
def BOB_STAT_PLACED : Fld := ⟨127, 16, 32, 1, 0, .ro, fun _ _ => 0⟩
/-- 09 Table 9.8, BOB_HELDCC [47:0]: Saturating count of cc in which at least one landing slot was in use. -/
def BOB_HELDCC_CC : Fld := ⟨128, 0, 48, 1, 0, .ro, fun _ _ => 0⟩
/-- 09 Table 9.8, BOB_HELDCC [48]: Sticky; 1 once CC has saturated. -/
def BOB_HELDCC_SAT : Fld := ⟨129, 48, 1, 1, 0, .w1c, fun _ _ => 0⟩
/-- 09 Table 9.9, SPL_SRC [63:0]: Device address of the first source tile. -/
def SPL_SRC_ADDR : Fld := ⟨130, 0, 64, 1, 0, .rw, fun _ _ => 0⟩
/-- 09 Table 9.9, SPL_DST [63:0]: Device address of the first destination tile. -/
def SPL_DST_ADDR : Fld := ⟨131, 0, 64, 1, 0, .rw, fun _ _ => 0⟩
/-- 09 Table 9.10, SPL_CMD [16:0]: Tiles to copy, 1–65,536. -/
def SPL_CMD_TILES : Fld := ⟨132, 0, 17, 1, 0, .rw, fun _ _ => 0⟩
/-- 09 Table 9.10, SPL_CMD [36:32]: Tack of this core signalled at completion. -/
def SPL_CMD_TACK : Fld := ⟨133, 32, 5, 1, 0, .rw, fun _ _ => 0⟩
/-- 09 Table 9.10, SPL_CMD [63]: Writing 1 posts the request under R371. -/
def SPL_CMD_GO : Fld := ⟨134, 63, 1, 1, 0, .wo, fun _ _ => 0⟩
/-- 09 Table 9.11, SPL_STAT [1:0]: Requests of this core posted and not complete, 0–2. -/
def SPL_STAT_POSTED : Fld := ⟨135, 0, 2, 1, 0, .ro, fun _ _ => 0⟩
/-- 09 Table 9.11, SPL_STAT [2]: Sticky; a GO write was discarded. -/
def SPL_STAT_REJ : Fld := ⟨136, 2, 1, 1, 0, .w1c, fun _ _ => 0⟩
/-- 09 Table 9.11, SPL_STAT [3]: Sticky; an operation of a request failed under R376. -/
def SPL_STAT_FAIL : Fld := ⟨137, 3, 1, 1, 0, .w1c, fun _ _ => 0⟩
/-- 09 Table 9.11, SPL_STAT [4]: Sticky; a request failed its checks. -/
def SPL_STAT_ERR : Fld := ⟨138, 4, 1, 1, 0, .w1c, fun _ _ => 0⟩
/-- 09 Table 9.11, SPL_STAT [11:8]: Code of the last failed check, Table 9.5. -/
def SPL_STAT_ERRCODE : Fld := ⟨139, 8, 4, 1, 0, .ro, fun _ _ => 0⟩
/-- 09 Table 9.12, TACK_STATEn [31:0]: Tack value; a write acts as a set signal of order 5 in Table 9.4. -/
def TACK_STATEn_VALUE : Fld := ⟨140, 0, 32, 1, 0, .rw, fun _ _ => 0⟩
/-- 09 Table 9.12, TACK_STATEn [35:32]: Bit 32 + t is 1 while thread t is in the waiter set. -/
def TACK_STATEn_WAITERS : Fld := ⟨141, 32, 4, 1, 0, .ro, fun _ _ => 0⟩
/-- 09 Table 9.12, TACK_STATEn [37:36]: Kind of the last signaller, Table 9.4. -/
def TACK_STATEn_LKIND : Fld := ⟨142, 36, 2, 1, 0, .ro, fun _ _ => 0⟩
/-- 09 Table 9.12, TACK_STATEn [38]: 1 once any signal has been applied since reset. -/
def TACK_STATEn_SIGNALLED : Fld := ⟨143, 38, 1, 1, 0, .ro, fun _ _ => 0⟩
/-- 09 Table 9.12, TACK_STATEn [61:40]: Thread ID of the last signaller, or zero. -/
def TACK_STATEn_LTID : Fld := ⟨144, 40, 22, 1, 0, .ro, fun _ _ => 0⟩
/-- 09 Table 9.13, TACK_WAITt [31:0]: s[RS1][31:0] of the thread's current wait. -/
def TACK_WAITt_OPERAND : Fld := ⟨145, 0, 32, 1, 0, .ro, fun _ _ => 0⟩
/-- 09 Table 9.13, TACK_WAITt [32]: 1 for twait.eq, 0 for twait.ge. -/
def TACK_WAITt_EQ : Fld := ⟨146, 32, 1, 1, 0, .ro, fun _ _ => 0⟩
/-- 09 Table 9.13, TACK_WAITt [33]: 1 while thread t is in a waiter set. -/
def TACK_WAITt_VALID : Fld := ⟨147, 33, 1, 1, 0, .ro, fun _ _ => 0⟩
/-- 09 Table 9.14, BOB_HANDLERn [12:2]: Handler address in the instruction store, in words. -/
def BOB_HANDLERn_ADDR : Fld := ⟨148, 2, 11, 1, 0, .rw, fun _ _ => 0⟩
/-- 09 Table 9.14, BOB_HANDLERn [63]: 1 if the entry can be dispatched. -/
def BOB_HANDLERn_VALID : Fld := ⟨149, 63, 1, 1, 0, .rw, fun _ _ => 0⟩
/-- 10 Table 10.9, CORE_QENDe_A [10:0]: End descriptor e of the active slot, as loaded. -/
def CORE_QENDe_A_QNUM : Fld := ⟨150, 0, 11, 1, 0, .ro, fun _ _ => 0⟩
/-- 10 Table 10.9, CORE_QENDe_A [11]: 0 in end; 1 out end. -/
def CORE_QENDe_A_ROLE : Fld := ⟨151, 11, 1, 1, 0, .ro, fun _ _ => 0⟩
/-- 10 Table 10.9, CORE_QENDe_A [12]: 0 8 B; 1 256 B. -/
def CORE_QENDe_A_ESIZE : Fld := ⟨152, 12, 1, 1, 0, .ro, fun _ _ => 0⟩
/-- 10 Table 10.9, CORE_QENDe_A [13]: 1 if the end is in use in the active pattern. -/
def CORE_QENDe_A_VALID : Fld := ⟨153, 13, 1, 1, 0, .ro, fun _ _ => 0⟩
/-- 10 Table 10.9, CORE_QENDe_A [23:14]: Entries. -/
def CORE_QENDe_A_DEPTH : Fld := ⟨154, 14, 10, 1, 0, .ro, fun _ _ => 0⟩
/-- 10 Table 10.9, CORE_QENDe_A [28:24]: Fill tack. -/
def CORE_QENDe_A_FTACK : Fld := ⟨155, 24, 5, 1, 0, .ro, fun _ _ => 0⟩
/-- 10 Table 10.9, CORE_QENDe_A [33:29]: Credit tack. -/
def CORE_QENDe_A_CTACK : Fld := ⟨156, 29, 5, 1, 0, .ro, fun _ _ => 0⟩
/-- 10 Table 10.9, CORE_QENDe_A [41:34]: First ring tile in the in end's core. -/
def CORE_QENDe_A_RING : Fld := ⟨157, 34, 8, 1, 0, .ro, fun _ _ => 0⟩
/-- 10 Table 10.9, CORE_QENDe_A [61:42]: Logical core number of the peer. -/
def CORE_QENDe_A_PEER : Fld := ⟨158, 42, 20, 1, 0, .ro, fun _ _ => 0⟩
/-- 10 Table 10.10, CORE_QENDe_B [23:0]: Saturating count of cc Full (out end) or Starved (in end). -/
def CORE_QENDe_B_WAIT_CC : Fld := ⟨159, 0, 24, 1, 0, .ro, fun _ _ => 0⟩
/-- 10 Table 10.10, CORE_QENDe_B [47:24]: Saturating count of cc Held; in end only. -/
def CORE_QENDe_B_HELD_CC : Fld := ⟨160, 24, 24, 1, 0, .ro, fun _ _ => 0⟩
/-- 10 Table 10.10, CORE_QENDe_B [57:48]: Occupancy or outstanding count, saturating at 1,023. -/
def CORE_QENDe_B_OCC : Fld := ⟨161, 48, 10, 1, 0, .ro, fun _ _ => 0⟩
/-- 10 Table 10.10, CORE_QENDe_B [63]: Sticky; 1 once WAIT_CC or HELD_CC has saturated. -/
def CORE_QENDe_B_SAT : Fld := ⟨162, 63, 1, 1, 0, .w1c, fun _ _ => 0⟩
/-- 10 Table 10.11, CORE_STEERu_A [2:0]: From steering descriptor u of the active slot. -/
def CORE_STEERu_A_CTL : Fld := ⟨163, 0, 3, 1, 0, .ro, fun _ _ => 0⟩
/-- 10 Table 10.11, CORE_STEERu_A [6:4]: As loaded. -/
def CORE_STEERu_A_DATA : Fld := ⟨164, 4, 3, 1, 0, .ro, fun _ _ => 0⟩
/-- 10 Table 10.11, CORE_STEERu_A [10:8]: As loaded. -/
def CORE_STEERu_A_OUT0 : Fld := ⟨165, 8, 3, 1, 0, .ro, fun _ _ => 0⟩
/-- 10 Table 10.11, CORE_STEERu_A [11]: As loaded. -/
def CORE_STEERu_A_DROP0 : Fld := ⟨166, 11, 1, 1, 0, .ro, fun _ _ => 0⟩
/-- 10 Table 10.11, CORE_STEERu_A [14:12]: As loaded. -/
def CORE_STEERu_A_OUT1 : Fld := ⟨167, 12, 3, 1, 0, .ro, fun _ _ => 0⟩
/-- 10 Table 10.11, CORE_STEERu_A [15]: As loaded. -/
def CORE_STEERu_A_DROP1 : Fld := ⟨168, 15, 1, 1, 0, .ro, fun _ _ => 0⟩
/-- 10 Table 10.11, CORE_STEERu_A [21:16]: As loaded. -/
def CORE_STEERu_A_TOKBIT : Fld := ⟨169, 16, 6, 1, 0, .ro, fun _ _ => 0⟩
/-- 10 Table 10.11, CORE_STEERu_A [22]: 1 if the unit is in use. -/
def CORE_STEERu_A_VALID : Fld := ⟨170, 22, 1, 1, 0, .ro, fun _ _ => 0⟩
/-- 10 Table 10.11, CORE_STEERu_A [23]: 1 between step 2 and step 4 of R393. -/
def CORE_STEERu_A_BUSY : Fld := ⟨171, 23, 1, 1, 0, .ro, fun _ _ => 0⟩
/-- 10 Table 10.11, CORE_STEERu_A [63:32]: Wrapping count of pairs completed since the switch. -/
def CORE_STEERu_A_PAIRS : Fld := ⟨172, 32, 32, 1, 0, .ro, fun _ _ => 0⟩
/-- 10 Table 10.12, CORE_STEERu_B [23:0]: Saturating count of cc in step 1 of R393. -/
def CORE_STEERu_B_WAIT_IN : Fld := ⟨173, 0, 24, 1, 0, .ro, fun _ _ => 0⟩
/-- 10 Table 10.12, CORE_STEERu_B [47:24]: Saturating count of cc in the credit wait of step 3. -/
def CORE_STEERu_B_WAIT_OUT : Fld := ⟨174, 24, 24, 1, 0, .ro, fun _ _ => 0⟩
/-- 10 Table 10.12, CORE_STEERu_B [48]: Sticky; 1 once either count has saturated. -/
def CORE_STEERu_B_SAT : Fld := ⟨175, 48, 1, 1, 0, .w1c, fun _ _ => 0⟩
/-- 10 Table 10.13, CORE_PAT_CTL [1:0]: Slot to switch to. -/
def CORE_PAT_CTL_SLOT : Fld := ⟨176, 0, 2, 1, 0, .rw, fun _ _ => 0⟩
/-- 10 Table 10.13, CORE_PAT_CTL [2]: 1 skips the drain conditions of R397. -/
def CORE_PAT_CTL_FORCE : Fld := ⟨177, 2, 1, 1, 0, .rw, fun _ _ => 0⟩
/-- 10 Table 10.13, CORE_PAT_CTL [63]: Writing 1 requests a switch under R396. -/
def CORE_PAT_CTL_GO : Fld := ⟨178, 63, 1, 1, 0, .wo, fun _ _ => 0⟩
/-- 10 Table 10.13, CORE_PAT_LOAD [7:0]: First own-SRAM tile of the image. -/
def CORE_PAT_LOAD_SRC : Fld := ⟨179, 0, 8, 1, 0, .rw, fun _ _ => 0⟩
/-- 10 Table 10.13, CORE_PAT_LOAD [9:8]: Slot to load. -/
def CORE_PAT_LOAD_SLOT : Fld := ⟨180, 8, 2, 1, 0, .rw, fun _ _ => 0⟩
/-- 10 Table 10.13, CORE_PAT_LOAD [20:16]: Own tack signalled when the load ends. -/
def CORE_PAT_LOAD_TACK : Fld := ⟨181, 16, 5, 1, 0, .rw, fun _ _ => 0⟩
/-- 10 Table 10.13, CORE_PAT_LOAD [63]: Writing 1 requests a load under R387. -/
def CORE_PAT_LOAD_GO : Fld := ⟨182, 63, 1, 1, 0, .wo, fun _ _ => 0⟩
/-- 10 Table 10.14, CORE_PAT_STAT [3:0]: Bit k is 1 if slot k holds a checked image. -/
def CORE_PAT_STAT_VALID : Fld := ⟨183, 0, 4, 1, 0, .ro, fun _ _ => 0⟩
/-- 10 Table 10.14, CORE_PAT_STAT [5:4]: Active slot; valid when ACT is 1. -/
def CORE_PAT_STAT_ACTIVE : Fld := ⟨184, 4, 2, 1, 0, .ro, fun _ _ => 0⟩
/-- 10 Table 10.14, CORE_PAT_STAT [6]: 1 if a pattern is active. -/
def CORE_PAT_STAT_ACT : Fld := ⟨185, 6, 1, 1, 0, .ro, fun _ _ => 0⟩
/-- 10 Table 10.14, CORE_PAT_STAT [7]: 1 while a switch is pending. -/
def CORE_PAT_STAT_PENDING : Fld := ⟨186, 7, 1, 1, 0, .ro, fun _ _ => 0⟩
/-- 10 Table 10.14, CORE_PAT_STAT [8]: 1 during the steps of Table 10.6. -/
def CORE_PAT_STAT_SWITCHING : Fld := ⟨187, 8, 1, 1, 0, .ro, fun _ _ => 0⟩
/-- 10 Table 10.14, CORE_PAT_STAT [9]: 1 while a load runs. -/
def CORE_PAT_STAT_LOADING : Fld := ⟨188, 9, 1, 1, 0, .ro, fun _ _ => 0⟩
/-- 10 Table 10.14, CORE_PAT_STAT [10]: Sticky; a switch request was refused. -/
def CORE_PAT_STAT_REJ : Fld := ⟨189, 10, 1, 1, 0, .w1c, fun _ _ => 0⟩
/-- 10 Table 10.14, CORE_PAT_STAT [11]: Sticky; a cued switch missed the bound of R402. -/
def CORE_PAT_STAT_LATE : Fld := ⟨190, 11, 1, 1, 0, .w1c, fun _ _ => 0⟩
/-- 10 Table 10.14, CORE_PAT_STAT [12]: Sticky; a switch ran with FORCE = 1. -/
def CORE_PAT_STAT_FORCED : Fld := ⟨191, 12, 1, 1, 0, .w1c, fun _ _ => 0⟩
/-- 10 Table 10.14, CORE_PAT_STAT [13]: Set when a load ends. -/
def CORE_PAT_STAT_LDONE : Fld := ⟨192, 13, 1, 1, 0, .w1c, fun _ _ => 0⟩
/-- 10 Table 10.14, CORE_PAT_STAT [19:16]: Error of the last failed load, Table 10.5; 0 if it succeeded. -/
def CORE_PAT_STAT_LERR : Fld := ⟨193, 16, 4, 1, 0, .ro, fun _ _ => 0⟩
/-- 10 Table 10.14, CORE_PAT_STAT [27:20]: Saturating count of cues refused under R404. -/
def CORE_PAT_STAT_CUEREJ : Fld := ⟨194, 20, 8, 1, 0, .ro, fun _ _ => 0⟩
/-- 10 Table 10.14, CORE_PAT_STAT [63:32]: Wrapping count of switches completed. -/
def CORE_PAT_STAT_SWITCHES : Fld := ⟨195, 32, 32, 1, 0, .ro, fun _ _ => 0⟩
/-- 10 Table 10.15, CORE_PAT_SWCC [31:0]: cc the last switch was pending, saturating. -/
def CORE_PAT_SWCC_LAST_WAIT : Fld := ⟨196, 0, 32, 1, 0, .ro, fun _ _ => 0⟩
/-- 10 Table 10.15, CORE_PAT_SWCC [63:32]: Longest pending time since reset in cc, saturating. -/
def CORE_PAT_SWCC_MAX_WAIT : Fld := ⟨197, 32, 32, 1, 0, .ro, fun _ _ => 0⟩
/-- 10 Table 10.15, CORE_PAT_THSTALLn [31:0]: Saturating count of cc thread n waited on a queue tack under R408; n = 0–3. -/
def CORE_PAT_THSTALLn_QWAIT_CC : Fld := ⟨198, 0, 32, 1, 0, .ro, fun _ _ => 0⟩
/-- 10 Table 10.15, CORE_PAT_THSTALLn [62:32]: Saturating count of cc thread n was STALLED. -/
def CORE_PAT_THSTALLn_STALL_CC : Fld := ⟨199, 32, 31, 1, 0, .ro, fun _ _ => 0⟩
/-- 10 Table 10.15, CORE_PAT_THSTALLn [63]: Sticky; 1 once either count has saturated. -/
def CORE_PAT_THSTALLn_SAT : Fld := ⟨200, 63, 1, 1, 0, .w1c, fun _ _ => 0⟩
/-- 12 Table 12.6, CORE_RING_CFG [1:0]: Ring number j; written by Marker. -/
def CORE_RING_CFG_RING : Fld := ⟨201, 0, 2, 1, 0, .ro, fun _ _ => 0⟩
/-- 12 Table 12.6, CORE_RING_CFG [2]: 1 if the core belongs to a ring. -/
def CORE_RING_CFG_VALID : Fld := ⟨202, 2, 1, 1, 0, .ro, fun _ _ => 0⟩
/-- 12 Table 12.6, CORE_RING_CFG [13:8]: Replica of this core. -/
def CORE_RING_CFG_REP : Fld := ⟨203, 8, 6, 1, 0, .ro, fun _ _ => 0⟩
/-- 12 Table 12.6, CORE_RING_CFG [21:16]: Replicas in the ring. -/
def CORE_RING_CFG_NREP : Fld := ⟨204, 16, 6, 1, 0, .ro, fun _ _ => 0⟩
/-- 12 Table 12.7, CORE_RING_LAYOUT [7:0]: First tile of the gradient slice. -/
def CORE_RING_LAYOUT_GRAD : Fld := ⟨205, 0, 8, 1, 0, .rw, fun _ _ => 0⟩
/-- 12 Table 12.7, CORE_RING_LAYOUT [15:8]: Gradient tiles per shard. -/
def CORE_RING_LAYOUT_S : Fld := ⟨206, 8, 8, 1, 0, .rw, fun _ _ => 0⟩
/-- 12 Table 12.7, CORE_RING_LAYOUT [23:16]: First tile of error buffer 0. -/
def CORE_RING_LAYOUT_ERR0 : Fld := ⟨207, 16, 8, 1, 0, .rw, fun _ _ => 0⟩
/-- 12 Table 12.7, CORE_RING_LAYOUT [31:24]: First tile of error buffer 1. -/
def CORE_RING_LAYOUT_ERR1 : Fld := ⟨208, 24, 8, 1, 0, .rw, fun _ _ => 0⟩
/-- 12 Table 12.7, CORE_RING_LAYOUT [39:32]: First inbox tile. -/
def CORE_RING_LAYOUT_INBOX : Fld := ⟨209, 32, 8, 1, 0, .rw, fun _ _ => 0⟩
/-- 12 Table 12.7, CORE_RING_LAYOUT [40]: 0 FP32 error memory; 1 BF16. -/
def CORE_RING_LAYOUT_EFMT : Fld := ⟨210, 40, 1, 1, 0, .rw, fun _ _ => 0⟩
/-- 12 Table 12.7, CORE_RING_LAYOUT [55:48]: First weight tile. -/
def CORE_RING_LAYOUT_WTS : Fld := ⟨211, 48, 8, 1, 0, .rw, fun _ _ => 0⟩
/-- 12 Table 12.7, CORE_RING_LAYOUT [63:56]: Weight tiles per shard. -/
def CORE_RING_LAYOUT_SW : Fld := ⟨212, 56, 8, 1, 0, .rw, fun _ _ => 0⟩
/-- 12 Table 12.8, CORE_RING_TACKS [4:0]: Tack counting contributions received. -/
def CORE_RING_TACKS_INBOX_TACK : Fld := ⟨213, 0, 5, 1, 0, .rw, fun _ _ => 0⟩
/-- 12 Table 12.8, CORE_RING_TACKS [12:8]: Tack advanced at each verdict. -/
def CORE_RING_TACKS_VERDICT_TACK : Fld := ⟨214, 8, 5, 1, 0, .rw, fun _ _ => 0⟩
/-- 12 Table 12.8, CORE_RING_TACKS [20:16]: Tack counting shares received. -/
def CORE_RING_TACKS_SHARE_TACK : Fld := ⟨215, 16, 5, 1, 0, .rw, fun _ _ => 0⟩
/-- 12 Table 12.8, CORE_RING_CMD [1:0]: 1 REDUCE; 2 SHARE; other values are refused with REJ. -/
def CORE_RING_CMD_OP : Fld := ⟨216, 0, 2, 1, 0, .rw, fun _ _ => 0⟩
/-- 12 Table 12.8, CORE_RING_CMD [47:16]: Attempt named by a REDUCE. -/
def CORE_RING_CMD_ATTEMPT : Fld := ⟨217, 16, 32, 1, 0, .rw, fun _ _ => 0⟩
/-- 12 Table 12.8, CORE_RING_CMD [63]: Writing 1 starts OP under R440 or R452. -/
def CORE_RING_CMD_GO : Fld := ⟨218, 63, 1, 1, 0, .wo, fun _ _ => 0⟩
/-- 12 Table 12.9, CORE_RING_STAT [2:0]: 0 IDLE; 1 REDUCE; 2 SUMMED, reported and awaiting the verdict; 3 SHARE; 4 HALTING; 5 FAILED. -/
def CORE_RING_STAT_STATE : Fld := ⟨219, 0, 3, 1, 0, .ro, fun _ _ => 0⟩
/-- 12 Table 12.9, CORE_RING_STAT [6:4]: Last verdict, Table 12.4; 0 none. -/
def CORE_RING_STAT_VERDICT : Fld := ⟨220, 4, 3, 1, 0, .ro, fun _ _ => 0⟩
/-- 12 Table 12.9, CORE_RING_STAT [7]: Error buffer holding the current error memory. -/
def CORE_RING_STAT_CUR : Fld := ⟨221, 7, 1, 1, 0, .ro, fun _ _ => 0⟩
/-- 12 Table 12.9, CORE_RING_STAT [8]: Sticky; a command or write was discarded. -/
def CORE_RING_STAT_REJ : Fld := ⟨222, 8, 1, 1, 0, .w1c, fun _ _ => 0⟩
/-- 12 Table 12.9, CORE_RING_STAT [9]: Sticky; a malformed block was found under R444. -/
def CORE_RING_STAT_BAD : Fld := ⟨223, 9, 1, 1, 0, .w1c, fun _ _ => 0⟩
/-- 12 Table 12.9, CORE_RING_STAT [10]: Sticky; a block overflowed its exception list. -/
def CORE_RING_STAT_EXC_OVF : Fld := ⟨224, 10, 1, 1, 0, .w1c, fun _ _ => 0⟩
/-- 12 Table 12.9, CORE_RING_STAT [11]: Sticky; a share operation failed. -/
def CORE_RING_STAT_SHFAIL : Fld := ⟨225, 11, 1, 1, 0, .w1c, fun _ _ => 0⟩
/-- 12 Table 12.9, CORE_RING_STAT [15:12]: Last layout error, Table 12.3. -/
def CORE_RING_STAT_ERRCODE : Fld := ⟨226, 12, 4, 1, 0, .ro, fun _ _ => 0⟩
/-- 12 Table 12.9, CORE_RING_STAT [63:32]: Current attempt number, wrapping; set to 0 at ring setup. -/
def CORE_RING_STAT_ATTEMPT : Fld := ⟨227, 32, 32, 1, 0, .ro, fun _ _ => 0⟩
/-- 12 Table 12.10, CORE_RING_SUMSTAT [15:0]: NaN elements in the last sum, saturating. -/
def CORE_RING_SUMSTAT_NAN : Fld := ⟨228, 0, 16, 1, 0, .ro, fun _ _ => 0⟩
/-- 12 Table 12.10, CORE_RING_SUMSTAT [31:16]: Infinite elements in the last sum, saturating. -/
def CORE_RING_SUMSTAT_INF : Fld := ⟨229, 16, 16, 1, 0, .ro, fun _ _ => 0⟩
/-- 15 Table 15.5, INT_CSUMSTAT [8:0]: Tiles whose BAD bit is 1, 0–256. -/
def INT_CSUMSTAT_BADTILES : Fld := ⟨230, 0, 9, 1, 0, .ro, fun _ _ => 0⟩
/-- 15 Table 15.5, INT_CSUMSTAT [31:16]: Saturating count of failed tile checks, counted or not. -/
def INT_CSUMSTAT_DETECT : Fld := ⟨231, 16, 16, 1, 0, .ro, fun _ _ => 0⟩
/-- 15 Table 15.5, INT_CSUMSTAT [47:32]: Saturating count of failures counted against this core, all causes. -/
def INT_CSUMSTAT_COUNTED : Fld := ⟨232, 32, 16, 1, 0, .ro, fun _ _ => 0⟩
/-- 15 Table 15.5, INT_CSUMSTAT [55:48]: Saturating count of parity failures under R537. -/
def INT_CSUMSTAT_PARITY : Fld := ⟨233, 48, 8, 1, 0, .ro, fun _ _ => 0⟩
/-- 15 Table 15.5, INT_CSUMSTAT [57:56]: Bit 56 + u is 1 while steering unit u is stopped under R536. -/
def INT_CSUMSTAT_STEER_HALT : Fld := ⟨234, 56, 2, 1, 0, .w1c, fun _ _ => 0⟩
/-- 15 Table 15.5, INT_CSUMSTAT [63]: Sticky; 1 once a count has saturated. -/
def INT_CSUMSTAT_SAT : Fld := ⟨235, 63, 1, 1, 0, .w1c, fun _ _ => 0⟩
/-- 15 Table 15.6, INT_CSUMLAST [7:0]: Tile of the last failed check. -/
def INT_CSUMLAST_TILE : Fld := ⟨236, 0, 8, 1, 0, .ro, fun _ _ => 0⟩
/-- 15 Table 15.6, INT_CSUMLAST [11:8]: Its cause code, Table 15.4. -/
def INT_CSUMLAST_CAUSE : Fld := ⟨237, 8, 4, 1, 0, .ro, fun _ _ => 0⟩
/-- 15 Table 15.6, INT_CSUMLAST [63:16]: Treadle count of the last failed check. -/
def INT_CSUMLAST_TR : Fld := ⟨238, 16, 48, 1, 0, .ro, fun _ _ => 0⟩
/-- 15 Table 15.7, INT_DUPSTAT [0]: 1 if the core runs a copy of a DUP cut order. -/
def INT_DUPSTAT_DUP : Fld := ⟨239, 0, 1, 1, 0, .ro, fun _ _ => 0⟩
/-- 15 Table 15.7, INT_DUPSTAT [1]: 1 for the shadow copy. -/
def INT_DUPSTAT_SHADOW : Fld := ⟨240, 1, 1, 1, 0, .ro, fun _ _ => 0⟩
/-- 15 Table 15.7, INT_DUPSTAT [23:4]: Logical core number of the partner core. -/
def INT_DUPSTAT_PARTNER : Fld := ⟨241, 4, 20, 1, 0, .ro, fun _ _ => 0⟩
/-- 15 Table 15.7, INT_DUPSTAT [47:32]: Saturating count of tack points that failed under R559. -/
def INT_DUPSTAT_MISMATCH : Fld := ⟨242, 32, 16, 1, 0, .ro, fun _ _ => 0⟩
/-- 15 Table 15.8, INT_BADMAPw [63:0]: Bit i is the BAD bit of tile 64w + i. -/
def INT_BADMAPw_BAD : Fld := ⟨243, 0, 64, 1, 0, .ro, fun _ _ => 0⟩
/-- 01 Table 1.3, WAF_GEOM [3:0]: Fields per wafer row. -/
def WAF_GEOM_FIELDS_X : Fld := ⟨244, 0, 4, 1, 0, .ro, fun _ _ => 8⟩
/-- 01 Table 1.3, WAF_GEOM [7:4]: Fields per wafer column. -/
def WAF_GEOM_FIELDS_Y : Fld := ⟨245, 4, 4, 1, 0, .ro, fun _ _ => 8⟩
/-- 01 Table 1.3, WAF_GEOM [11:8]: Panels per field. -/
def WAF_GEOM_PANELS : Fld := ⟨246, 8, 4, 1, 0, .ro, fun _ _ => 8⟩
/-- 01 Table 1.3, WAF_GEOM [16:12]: Rows per panel. -/
def WAF_GEOM_ROWS : Fld := ⟨247, 12, 5, 1, 0, .ro, fun _ _ => 16⟩
/-- 01 Table 1.3, WAF_GEOM [24:17]: Logical cores per row. -/
def WAF_GEOM_CORES : Fld := ⟨248, 17, 8, 1, 0, .ro, fun _ _ => 128⟩
/-- 01 Table 1.3, WAF_GEOM [27:25]: Spare positions per physical row. -/
def WAF_GEOM_SPARES : Fld := ⟨249, 25, 3, 1, 0, .ro, fun _ _ => 2⟩
/-- 01 Table 1.4, WAF_CORES [20:0]: Backed logical cores outside gussets; 983,040 at shipment; falls by one for each fenced core. -/
def WAF_CORES_WORKING : Fld := ⟨250, 0, 21, 1, 0, .ro, fun _ _ => 983040⟩
/-- 01 Table 1.4, WAF_CORES [41:32]: Gusset rows with at most two bad positions that hold no relocated row. -/
def WAF_CORES_FREE_GUSSET_ROWS : Fld := ⟨251, 32, 10, 1, 0, .ro, fun _ _ => 512⟩
/-- 01 Table 1.4, WAF_CORES [57:48]: Rows held in gusset rows. -/
def WAF_CORES_RELOCATED_ROWS : Fld := ⟨252, 48, 10, 1, 0, .ro, fun _ _ => 0⟩
/-- 01 Table 1.5, WAF_GUSSET_MAP [63:0]: Bit i is 1 if field i has a gusset panel. -/
def WAF_GUSSET_MAP_MAP : Fld := ⟨253, 0, 64, 1, 0, .ro, fun _ _ => 6172840429334713770⟩
/-- 01 Table 1.6, FLD_ID [2:0]: fx of this field. -/
def FLD_ID_FX : Fld := ⟨254, 0, 3, 1, 0, .ro, fun u _ => u % 8⟩
/-- 01 Table 1.6, FLD_ID [5:3]: fy of this field. -/
def FLD_ID_FY : Fld := ⟨255, 3, 3, 1, 0, .ro, fun u _ => u / 8 % 8⟩
/-- 01 Table 1.6, FLD_ID [6]: 1 if panel 7 is a gusset. -/
def FLD_ID_GUSSET : Fld := ⟨256, 6, 1, 1, 0, .ro, fun u _ => (u % 8 + u / 8) % 2⟩
/-- 01 Table 1.6, FLD_ID [7]: 1 while the compute domain is switched off and transit runs. -/
def FLD_ID_PARKED : Fld := ⟨257, 7, 1, 1, 0, .ro, fun _ _ => 0⟩
/-- 01 Table 1.6, FLD_ID [8]: 1 after the transit domain has failed; set by the management domain. -/
def FLD_ID_HOLE : Fld := ⟨258, 8, 1, 1, 0, .ro, fun _ _ => 0⟩
/-- 01 Table 1.7, PNL_ROWSTAT [4k+1:4k]: Spare positions consumed in row k, 0–2. -/
def PNL_ROWSTAT_SPARES_USED_k : Fld := ⟨259, 0, 2, 16, 4, .ro, fun _ _ => 0⟩
/-- 01 Table 1.7, PNL_ROWSTAT [4k+2]: 1 if logical row k of this panel is held in a gusset row. -/
def PNL_ROWSTAT_RELOCATED_k : Fld := ⟨260, 2, 1, 16, 4, .ro, fun _ _ => 0⟩
/-- 01 Table 1.7, PNL_ROWSTAT [4k+3]: 1 if physical row k is a gusset row holding a relocated row. -/
def PNL_ROWSTAT_HOSTING_k : Fld := ⟨261, 3, 1, 16, 4, .ro, fun _ _ => 0⟩
/-- 07 Table 7.13, PNL_RELOCn [9:0]: Logical row of the relocated segment. -/
def PNL_RELOCn_LROW : Fld := ⟨262, 0, 10, 1, 0, .ro, fun _ _ => 0⟩
/-- 07 Table 7.13, PNL_RELOCn [12:10]: fx of the field the segment belongs to. -/
def PNL_RELOCn_FX : Fld := ⟨263, 10, 3, 1, 0, .ro, fun _ _ => 0⟩
/-- 07 Table 7.13, PNL_RELOCn [15:13]: fx of the holding field. -/
def PNL_RELOCn_GFX : Fld := ⟨264, 13, 3, 1, 0, .ro, fun _ _ => 0⟩
/-- 07 Table 7.13, PNL_RELOCn [18:16]: fy of the holding field. -/
def PNL_RELOCn_GFY : Fld := ⟨265, 16, 3, 1, 0, .ro, fun _ _ => 0⟩
/-- 07 Table 7.13, PNL_RELOCn [22:19]: Row within the gusset panel. -/
def PNL_RELOCn_GROW : Fld := ⟨266, 19, 4, 1, 0, .ro, fun _ _ => 0⟩
/-- 07 Table 7.13, PNL_RELOCn [63]: 1 if the entry is in use. -/
def PNL_RELOCn_VALID : Fld := ⟨267, 63, 1, 1, 0, .ro, fun _ _ => 0⟩
/-- 07 Table 7.14, MRK_CTL [0]: 1 lets Marker take ring entries. -/
def MRK_CTL_ENABLE : Fld := ⟨268, 0, 1, 1, 0, .rw, fun _ _ => 0⟩
/-- 07 Table 7.14, MRK_CTL [1]: Writing 1 aborts every cut order in service as ABORT does, clears ring fetch state, and returns the MRK_ registers to their reset values, except MRK_SPLIT_THRESH and MRK_RELOC_BITMAP. -/
def MRK_CTL_SW_RST : Fld := ⟨269, 1, 1, 1, 0, .wo, fun _ _ => 0⟩
/-- 07 Table 7.14, MRK_CTL [2]: 1 holds new cut orders in ACCEPTED; cut orders already placed continue. -/
def MRK_CTL_PAUSE : Fld := ⟨270, 2, 1, 1, 0, .rw, fun _ _ => 0⟩
/-- 07 Table 7.14, MRK_CTL [3]: 1 permits migration under R278. -/
def MRK_CTL_MIG_EN : Fld := ⟨271, 3, 1, 1, 0, .rw, fun _ _ => 1⟩
/-- 07 Table 7.15, MRK_STAT [6:0]: Cut orders in ACCEPTED through HELD, 0–64. -/
def MRK_STAT_SLOTS_USED : Fld := ⟨272, 0, 7, 1, 0, .ro, fun _ _ => 0⟩
/-- 07 Table 7.15, MRK_STAT [7]: 1 while Marker places or loads. -/
def MRK_STAT_BUSY : Fld := ⟨273, 7, 1, 1, 0, .ro, fun _ _ => 0⟩
/-- 07 Table 7.15, MRK_STAT [8]: 1 while PAUSE holds a cut order. -/
def MRK_STAT_PAUSED : Fld := ⟨274, 8, 1, 1, 0, .ro, fun _ _ => 0⟩
/-- 07 Table 7.15, MRK_STAT [31:16]: ID of the last cut order accepted. -/
def MRK_STAT_LAST_ID : Fld := ⟨275, 16, 16, 1, 0, .ro, fun _ _ => 0⟩
/-- 07 Table 7.15, MRK_STAT [63:32]: Wrapping count of cut orders accepted. -/
def MRK_STAT_ACCEPTED : Fld := ⟨276, 32, 32, 1, 0, .ro, fun _ _ => 0⟩
/-- 07 Table 7.16, MRK_SPLIT_THRESH [15:0]: Present-tile count above which a tile-row splits under R246; 0 turns splitting off. -/
def MRK_SPLIT_THRESH_THRESH : Fld := ⟨277, 0, 16, 1, 0, .rw, fun _ _ => 32⟩
/-- 07 Table 7.17, MRK_REJECT [7:0]: Reason of the last rejection, Table 7.8. -/
def MRK_REJECT_REASON : Fld := ⟨278, 0, 8, 1, 0, .ro, fun _ _ => 0⟩
/-- 07 Table 7.17, MRK_REJECT [11:8]: Logical device of the last rejection. -/
def MRK_REJECT_LD : Fld := ⟨279, 8, 4, 1, 0, .ro, fun _ _ => 0⟩
/-- 07 Table 7.17, MRK_REJECT [63:32]: Wrapping count of rejections. -/
def MRK_REJECT_REJECTS : Fld := ⟨280, 32, 32, 1, 0, .ro, fun _ _ => 0⟩
/-- 07 Table 7.18, MRK_MIGRATE [5:0]: Field to evacuate. -/
def MRK_MIGRATE_FIELD : Fld := ⟨281, 0, 6, 1, 0, .wo, fun _ _ => 0⟩
/-- 07 Table 7.18, MRK_MIGRATE [63]: Writing 1 starts the migration; a write while MRK_MIG_STAT.BUSY is 1 is discarded. -/
def MRK_MIGRATE_GO : Fld := ⟨282, 63, 1, 1, 0, .wo, fun _ _ => 0⟩
/-- 07 Table 7.19, MRK_MIG_STAT [0]: 1 while a migration runs. -/
def MRK_MIG_STAT_BUSY : Fld := ⟨283, 0, 1, 1, 0, .ro, fun _ _ => 0⟩
/-- 07 Table 7.19, MRK_MIG_STAT [1]: Sticky; a migration failed under R282. -/
def MRK_MIG_STAT_FAIL : Fld := ⟨284, 1, 1, 1, 0, .w1c, fun _ _ => 0⟩
/-- 07 Table 7.19, MRK_MIG_STAT [2]: Set when a migration ends. -/
def MRK_MIG_STAT_DONE : Fld := ⟨285, 2, 1, 1, 0, .w1c, fun _ _ => 0⟩
/-- 07 Table 7.19, MRK_MIG_STAT [13:8]: Field of the last migration. -/
def MRK_MIG_STAT_FIELD : Fld := ⟨286, 8, 6, 1, 0, .ro, fun _ _ => 0⟩
/-- 07 Table 7.19, MRK_MIG_STAT [63:32]: Duration of the last migration in µs, saturating. -/
def MRK_MIG_STAT_LAST_US : Fld := ⟨287, 32, 32, 1, 0, .ro, fun _ _ => 0⟩
/-- 07 Table 7.20, MRK_PLACE_US [31:0]: Duration of the last placement in µs. -/
def MRK_PLACE_US_LAST : Fld := ⟨288, 0, 32, 1, 0, .ro, fun _ _ => 0⟩
/-- 07 Table 7.20, MRK_PLACE_US [63:32]: Longest placement since reset, in µs. -/
def MRK_PLACE_US_MAX : Fld := ⟨289, 32, 32, 1, 0, .ro, fun _ _ => 0⟩
/-- 07 Table 7.21, MRK_RELOC_BITMAPw [63:0]: Bits 64w to 64w + 63 of the relocation bitmap of R283. -/
def MRK_RELOC_BITMAPw_BITS : Fld := ⟨290, 0, 64, 1, 0, .ro, fun _ _ => 0⟩
/-- 08 Table 8.11, FAB_CTL [0]: 1 lets the field's routers set CM. -/
def FAB_CTL_MARK_EN : Fld := ⟨291, 0, 1, 1, 0, .rw, fun _ _ => 1⟩
/-- 08 Table 8.11, FAB_CTL [1]: 1 applies the window of R314; 0 holds W at W_MAX. -/
def FAB_CTL_WIN_EN : Fld := ⟨292, 1, 1, 1, 0, .rw, fun _ _ => 1⟩
/-- 08 Table 8.11, FAB_CTL [2]: 1 enables seam-link replay; 0 sends a link to FAILED on its first check failure. -/
def FAB_CTL_RETRY_EN : Fld := ⟨293, 2, 1, 1, 0, .rw, fun _ _ => 1⟩
/-- 08 Table 8.11, FAB_CTL [3]: Writing 1 returns the field's FAB_ configuration and counters to their reset values; packets and link states are untouched. -/
def FAB_CTL_SW_RST : Fld := ⟨294, 3, 1, 1, 0, .wo, fun _ _ => 0⟩
/-- 08 Table 8.12, FAB_MARK_THRESH [5:0]: Occupancy in flits above which VC1 packets are marked, 1–48. -/
def FAB_MARK_THRESH_VC1 : Fld := ⟨295, 0, 6, 1, 0, .rw, fun _ _ => 24⟩
/-- 08 Table 8.12, FAB_MARK_THRESH [13:8]: The same for VC2. -/
def FAB_MARK_THRESH_VC2 : Fld := ⟨296, 8, 6, 1, 0, .rw, fun _ _ => 24⟩
/-- 08 Table 8.13, FAB_WINCFG [6:0]: Largest window, 1–64. -/
def FAB_WINCFG_W_MAX : Fld := ⟨297, 0, 7, 1, 0, .rw, fun _ _ => 64⟩
/-- 08 Table 8.13, FAB_WINCFG [14:8]: Smallest window, 1 to W_MAX. -/
def FAB_WINCFG_W_MIN : Fld := ⟨298, 8, 7, 1, 0, .rw, fun _ _ => 2⟩
/-- 08 Table 8.14, FAB_RETRYCFG [4:0]: Failed attempts before a retrain, 1–16. -/
def FAB_RETRYCFG_REPLAY_MAX : Fld := ⟨299, 0, 5, 1, 0, .rw, fun _ _ => 16⟩
/-- 08 Table 8.14, FAB_RETRYCFG [7:5]: Retrains per episode before FAILED, 0–4. -/
def FAB_RETRYCFG_RETRAIN_MAX : Fld := ⟨300, 5, 3, 1, 0, .rw, fun _ _ => 4⟩
/-- 08 Table 8.14, FAB_RETRYCFG [23:16]: Episodes per 2^20 cc before FAILED, 1–255. -/
def FAB_RETRYCFG_EPISODE_MAX : Fld := ⟨301, 16, 8, 1, 0, .rw, fun _ _ => 64⟩
/-- 08 Table 8.15, FAB_SEAMSTATs [7:0]: Links on this side, both networks, in RETRY or RETRAIN. -/
def FAB_SEAMSTATs_RETRYING : Fld := ⟨302, 0, 8, 1, 0, .ro, fun _ _ => 0⟩
/-- 08 Table 8.15, FAB_SEAMSTATs [15:8]: Links on this side in FAILED. -/
def FAB_SEAMSTATs_FAILED : Fld := ⟨303, 8, 8, 1, 0, .ro, fun _ _ => 0⟩
/-- 08 Table 8.15, FAB_SEAMSTATs [47:16]: Saturating count of replay attempts on this side. -/
def FAB_SEAMSTATs_REPLAYS : Fld := ⟨304, 16, 32, 1, 0, .ro, fun _ _ => 0⟩
/-- 08 Table 8.15, FAB_SEAMSTATs [48]: Sticky; 1 once REPLAYS has saturated. -/
def FAB_SEAMSTATs_SAT : Fld := ⟨305, 48, 1, 1, 0, .w1c, fun _ _ => 0⟩
/-- 08 Table 8.16, FAB_SEAMFAILs_n_h [63:0]: Bit i is 1 if the seam link of row or column 64h + i within the field, on side s of network n, is FAILED. -/
def FAB_SEAMFAILs_n_h_LINKS : Fld := ⟨306, 0, 64, 1, 0, .ro, fun _ _ => 0⟩
/-- 08 Table 8.17, FAB_RETRY_STAT [0]: Current retry-in-progress indication of R333. -/
def FAB_RETRY_STAT_ANY : Fld := ⟨307, 0, 1, 1, 0, .ro, fun _ _ => 0⟩
/-- 08 Table 8.17, FAB_RETRY_STAT [1]: 1 while a seam link of this field retries. -/
def FAB_RETRY_STAT_LOCAL : Fld := ⟨308, 1, 1, 1, 0, .ro, fun _ _ => 0⟩
/-- 08 Table 8.17, FAB_RETRY_STAT [63:32]: Longest episode of this field since reset, in cc, saturating. -/
def FAB_RETRY_STAT_MAX_CC : Fld := ⟨309, 32, 32, 1, 0, .ro, fun _ _ => 0⟩
/-- 08 Table 8.18, FAB_HOLEMAP [63:0]: Bit i is 1 if field i is a hole; bits of excess holes are included. -/
def FAB_HOLEMAP_HOLES : Fld := ⟨310, 0, 64, 1, 0, .ro, fun _ _ => 0⟩
/-- 08 Table 8.18, FAB_PARKMAP [63:0]: Bit i is 1 if field i's compute domain is off. -/
def FAB_PARKMAP_PARKED : Fld := ⟨311, 0, 64, 1, 0, .ro, fun _ _ => 0⟩
/-- 08 Table 8.19, FAB_MARKS [47:0]: Saturating count of packets marked by this field's routers. -/
def FAB_MARKS_MARKS : Fld := ⟨312, 0, 48, 1, 0, .ro, fun _ _ => 0⟩
/-- 08 Table 8.19, FAB_MARKS [48]: Sticky; 1 once MARKS has saturated. -/
def FAB_MARKS_SAT : Fld := ⟨313, 48, 1, 1, 0, .w1c, fun _ _ => 0⟩
/-- 08 Table 8.19, FAB_DETOURS [47:0]: Saturating count of packets that entered a ring at a router of this field. -/
def FAB_DETOURS_ENTRIES : Fld := ⟨314, 0, 48, 1, 0, .ro, fun _ _ => 0⟩
/-- 08 Table 8.19, FAB_DETOURS [48]: Sticky; 1 once ENTRIES has saturated. -/
def FAB_DETOURS_SAT : Fld := ⟨315, 48, 1, 1, 0, .w1c, fun _ _ => 0⟩
/-- 08 Table 8.19, FAB_LINKERR [47:0]: Saturating count of seam flits that failed their check at this field's receiving gates. -/
def FAB_LINKERR_FLITS : Fld := ⟨316, 0, 48, 1, 0, .ro, fun _ _ => 0⟩
/-- 08 Table 8.19, FAB_LINKERR [48]: Sticky; 1 once FLITS has saturated. -/
def FAB_LINKERR_SAT : Fld := ⟨317, 48, 1, 1, 0, .w1c, fun _ _ => 0⟩
/-- 09 Table 9.15, FAB_DL_WINDOW [4:0]: Window is 2^EXP cc, 16–30. -/
def FAB_DL_WINDOW_EXP : Fld := ⟨318, 0, 5, 1, 0, .rw, fun _ _ => 20⟩
/-- 09 Table 9.15, FAB_DL_WINDOW [8]: 1 enables the detector. -/
def FAB_DL_WINDOW_EN : Fld := ⟨319, 8, 1, 1, 0, .rw, fun _ _ => 1⟩
/-- 09 Table 9.16, FAB_DL_STAT [0]: Sticky; a deadlock event was raised; writing 1 releases the snapshot. -/
def FAB_DL_STAT_EVENT : Fld := ⟨320, 0, 1, 1, 0, .w1c, fun _ _ => 0⟩
/-- 09 Table 9.16, FAB_DL_STAT [1]: Group of the snapshot: 0 pattern, 1 bobbins. -/
def FAB_DL_STAT_KIND : Fld := ⟨321, 1, 1, 1, 0, .ro, fun _ _ => 0⟩
/-- 09 Table 9.16, FAB_DL_STAT [14:8]: Valid snapshot entries, 0–64. -/
def FAB_DL_STAT_ENTRIES : Fld := ⟨322, 8, 7, 1, 0, .ro, fun _ _ => 0⟩
/-- 09 Table 9.16, FAB_DL_STAT [15]: 1 if the group held more than 64 queues. -/
def FAB_DL_STAT_OVERFLOW : Fld := ⟨323, 15, 1, 1, 0, .ro, fun _ _ => 0⟩
/-- 09 Table 9.16, FAB_DL_STAT [31:16]: Cut-order ID of the group, as in Table 7.10. -/
def FAB_DL_STAT_GROUP_ID : Fld := ⟨324, 16, 16, 1, 0, .ro, fun _ _ => 0⟩
/-- 09 Table 9.16, FAB_DL_STAT [63:32]: Wrapping count of detections. -/
def FAB_DL_STAT_EVENTS : Fld := ⟨325, 32, 32, 1, 0, .ro, fun _ _ => 0⟩
/-- 09 Table 9.17, FAB_DL_SNAPn [19:0]: Logical core that holds the queue. -/
def FAB_DL_SNAPn_LCN : Fld := ⟨326, 0, 20, 1, 0, .ro, fun _ _ => 0⟩
/-- 09 Table 9.17, FAB_DL_SNAPn [20]: 0 pattern queue; 1 bobbin. -/
def FAB_DL_SNAPn_KIND : Fld := ⟨327, 20, 1, 1, 0, .ro, fun _ _ => 0⟩
/-- 09 Table 9.17, FAB_DL_SNAPn [31:21]: Pattern queue number, or the bobbin descriptor's own-SRAM offset divided by 32. -/
def FAB_DL_SNAPn_QID : Fld := ⟨328, 21, 11, 1, 0, .ro, fun _ _ => 0⟩
/-- 09 Table 9.17, FAB_DL_SNAPn [33:32]: Blocked state, Table 9.6. -/
def FAB_DL_SNAPn_STATE : Fld := ⟨329, 32, 2, 1, 0, .ro, fun _ _ => 0⟩
/-- 09 Table 9.17, FAB_DL_SNAPn [57:48]: Entries held, or READY for a bobbin; saturating at 1,023. -/
def FAB_DL_SNAPn_OCC : Fld := ⟨330, 48, 10, 1, 0, .ro, fun _ _ => 0⟩
/-- 09 Table 9.17, FAB_DL_SNAPn [63]: 1 if the entry is part of the current snapshot. -/
def FAB_DL_SNAPn_VALID : Fld := ⟨331, 63, 1, 1, 0, .ro, fun _ _ => 0⟩
/-- 12 Table 12.11, MRK_RINGj_SETUP [15:0]: Cut-order ID. -/
def MRK_RINGj_SETUP_ID : Fld := ⟨332, 0, 16, 1, 0, .wo, fun _ _ => 0⟩
/-- 12 Table 12.11, MRK_RINGj_SETUP [21:16]: Replicas, 2–64. -/
def MRK_RINGj_SETUP_NREP : Fld := ⟨333, 16, 6, 1, 0, .wo, fun _ _ => 0⟩
/-- 12 Table 12.11, MRK_RINGj_SETUP [35:24]: Row segments per replica, 1–3,840. -/
def MRK_RINGj_SETUP_MSEG : Fld := ⟨334, 24, 12, 1, 0, .wo, fun _ _ => 0⟩
/-- 12 Table 12.11, MRK_RINGj_SETUP [63]: Writing 1 sets the ring up under R431. -/
def MRK_RINGj_SETUP_GO : Fld := ⟨335, 63, 1, 1, 0, .wo, fun _ _ => 0⟩
/-- 12 Table 12.12, MRK_RINGj_CFG [31:0]: tr from one verdict to the next attempt's deadline; 0 refuses setup. -/
def MRK_RINGj_CFG_PERIOD : Fld := ⟨336, 0, 32, 1, 0, .rw, fun _ _ => 0⟩
/-- 12 Table 12.12, MRK_RINGj_CFG [39:32]: Repeats in a row before FAIL, 0–255. -/
def MRK_RINGj_CFG_REPEAT_MAX : Fld := ⟨337, 32, 8, 1, 0, .rw, fun _ _ => 3⟩
/-- 12 Table 12.12, MRK_RINGj_CFG [40]: 1 turns a NaN in any sum into SKIP. -/
def MRK_RINGj_CFG_SKIP_NAN : Fld := ⟨338, 40, 1, 1, 0, .rw, fun _ _ => 1⟩
/-- 12 Table 12.12, MRK_RINGj_CFG [41]: 1 turns an infinity in any sum into SKIP. -/
def MRK_RINGj_CFG_SKIP_INF : Fld := ⟨339, 41, 1, 1, 0, .rw, fun _ _ => 1⟩
/-- 12 Table 12.13, MRK_RINGj_STAT [1:0]: 0 unused; 1 READY; 2 FAILED; freed when the cut order reaches DONE or ABORTED. -/
def MRK_RINGj_STAT_STATE : Fld := ⟨340, 0, 2, 1, 0, .ro, fun _ _ => 0⟩
/-- 12 Table 12.13, MRK_RINGj_STAT [6:4]: Last verdict. -/
def MRK_RINGj_STAT_LAST : Fld := ⟨341, 4, 3, 1, 0, .ro, fun _ _ => 0⟩
/-- 12 Table 12.13, MRK_RINGj_STAT [11:8]: 1 ID not ACCEPTED; 2 NREP, MSEG or Q wrong; 3 ring in use; 4 pins present; 5 PERIOD 0. -/
def MRK_RINGj_STAT_SETUP_ERR : Fld := ⟨342, 8, 4, 1, 0, .ro, fun _ _ => 0⟩
/-- 12 Table 12.13, MRK_RINGj_STAT [23:16]: Repeats in a row. -/
def MRK_RINGj_STAT_RUN : Fld := ⟨343, 16, 8, 1, 0, .ro, fun _ _ => 0⟩
/-- 12 Table 12.13, MRK_RINGj_STAT [63:32]: Current attempt number. -/
def MRK_RINGj_STAT_ATTEMPT : Fld := ⟨344, 32, 32, 1, 0, .ro, fun _ _ => 0⟩
/-- 12 Table 12.14, MRK_RINGj_COUNT [31:0]: Wrapping count of COMMIT verdicts. -/
def MRK_RINGj_COUNT_COMMITS : Fld := ⟨345, 0, 32, 1, 0, .ro, fun _ _ => 0⟩
/-- 12 Table 12.14, MRK_RINGj_COUNT [47:32]: Saturating count of SKIP verdicts. -/
def MRK_RINGj_COUNT_SKIPS : Fld := ⟨346, 32, 16, 1, 0, .ro, fun _ _ => 0⟩
/-- 12 Table 12.14, MRK_RINGj_COUNT [62:48]: Saturating count of REPEAT verdicts. -/
def MRK_RINGj_COUNT_REPEATS : Fld := ⟨347, 48, 15, 1, 0, .ro, fun _ _ => 0⟩
/-- 12 Table 12.14, MRK_RINGj_COUNT [63]: Sticky; 1 once SKIPS or REPEATS has saturated. -/
def MRK_RINGj_COUNT_SAT : Fld := ⟨348, 63, 1, 1, 0, .w1c, fun _ _ => 0⟩
/-- 12 Table 12.14, MRK_RINGj_DEADLINE [47:0]: Treadle count of the current deadline. -/
def MRK_RINGj_DEADLINE_DL : Fld := ⟨349, 0, 48, 1, 0, .ro, fun _ _ => 0⟩
/-- 12 Table 12.14, MRK_RINGj_NAN [31:0]: NaN elements over every sum of the last attempt, saturating. -/
def MRK_RINGj_NAN_NAN : Fld := ⟨350, 0, 32, 1, 0, .ro, fun _ _ => 0⟩
/-- 12 Table 12.14, MRK_RINGj_NAN [63:32]: Infinite elements over every sum of the last attempt, saturating. -/
def MRK_RINGj_NAN_INF : Fld := ⟨351, 32, 32, 1, 0, .ro, fun _ _ => 0⟩
/-- 13 Table 13.9, SEL_ID [4:0]: Port number. -/
def SEL_ID_PORT : Fld := ⟨352, 0, 5, 1, 0, .ro, fun u _ => u⟩
/-- 13 Table 13.9, SEL_ID [6:5]: 0 north; 1 east; 2 south; 3 west. -/
def SEL_ID_SIDE : Fld := ⟨353, 5, 2, 1, 0, .ro, fun u _ => u / 8⟩
/-- 13 Table 13.9, SEL_ID [13:8]: Field index. -/
def SEL_ID_FIELD : Fld := ⟨354, 8, 6, 1, 0, .ro, fun u _ => if u / 8 = 0 then u % 8 else if u / 8 = 1 then u % 8 * 8 + 7 else if u / 8 = 2 then 56 + u % 8 else u % 8 * 8⟩
/-- 13 Table 13.9, SEL_ID [18:16]: Optics power domain, 0–7. -/
def SEL_ID_OGRP : Fld := ⟨355, 16, 3, 1, 0, .ro, fun u _ => u / 8 * 2 + u % 8 / 4⟩
/-- 13 Table 13.9, SEL_ID [51:32]: Logical position of the attachment core. -/
def SEL_ID_ATT : Fld := ⟨356, 32, 20, 1, 0, .ro, fun u _ => if u / 8 = 0 then u % 8 * 128 + 64 else if u / 8 = 1 then (u % 8 * 128 + 64) * 1024 + 1023 else if u / 8 = 2 then 1023 * 1024 + u % 8 * 128 + 64 else (u % 8 * 128 + 64) * 1024⟩
/-- 13 Table 13.10, SEL_CTL [0]: 1 permits training and service. -/
def SEL_CTL_EN : Fld := ⟨357, 0, 1, 1, 0, .rw, fun _ _ => 0⟩
/-- 13 Table 13.10, SEL_CTL [1]: Writing 1 starts training from OFF or FAILED; ignored in other states. -/
def SEL_CTL_TRAIN : Fld := ⟨358, 1, 1, 1, 0, .wo, fun _ _ => 0⟩
/-- 13 Table 13.10, SEL_CTL [2]: Writing 1 resets the port under R484. -/
def SEL_CTL_SW_RST : Fld := ⟨359, 2, 1, 1, 0, .wo, fun _ _ => 0⟩
/-- 13 Table 13.10, SEL_CTL [3]: 0 sends the port to FAILED at the first failing frame. -/
def SEL_CTL_RETRY_EN : Fld := ⟨360, 3, 1, 1, 0, .rw, fun _ _ => 1⟩
/-- 13 Table 13.11, SEL_STAT [2:0]: Table 13.7. -/
def SEL_STAT_STATE : Fld := ⟨361, 0, 3, 1, 0, .ro, fun _ _ => 0⟩
/-- 13 Table 13.11, SEL_STAT [3]: 0 eight lanes; 1 four lanes. -/
def SEL_STAT_WIDTH : Fld := ⟨362, 3, 1, 1, 0, .ro, fun _ _ => 0⟩
/-- 13 Table 13.11, SEL_STAT [12:4]: Bit 4 + l is 1 if lane l is active. -/
def SEL_STAT_ACTIVE : Fld := ⟨363, 4, 9, 1, 0, .ro, fun _ _ => 255⟩
/-- 13 Table 13.11, SEL_STAT [24:16]: Bit 16 + l is 1 if lane l is bad. -/
def SEL_STAT_BAD : Fld := ⟨364, 16, 9, 1, 0, .ro, fun _ _ => 0⟩
/-- 13 Table 13.11, SEL_STAT [25]: 1 if the port is fused off (R463). -/
def SEL_STAT_FUSED : Fld := ⟨365, 25, 1, 1, 0, .ro, fun _ _ => 0⟩
/-- 13 Table 13.11, SEL_STAT [26]: Sticky; the port entered FAILED. -/
def SEL_STAT_EVT : Fld := ⟨366, 26, 1, 1, 0, .w1c, fun _ _ => 0⟩
/-- 13 Table 13.12, SEL_CAP [11:0]: Unit capacity in GiB, from training. -/
def SEL_CAP_CAP_GIB : Fld := ⟨367, 0, 12, 1, 0, .ro, fun _ _ => 0⟩
/-- 13 Table 13.12, SEL_CAP [27:16]: Read credits advertised. -/
def SEL_CAP_RDCRED : Fld := ⟨368, 16, 12, 1, 0, .ro, fun _ _ => 0⟩
/-- 13 Table 13.12, SEL_CAP [41:32]: Write credits advertised. -/
def SEL_CAP_WRCRED : Fld := ⟨369, 32, 10, 1, 0, .ro, fun _ _ => 0⟩
/-- 13 Table 13.12, SEL_CAP [63:48]: Unit identifier. -/
def SEL_CAP_UNIT_ID : Fld := ⟨370, 48, 16, 1, 0, .ro, fun _ _ => 0⟩
/-- 13 Table 13.13, SEL_WAIT_LIMIT [9:0]: Beats, 4–1,023. -/
def SEL_WAIT_LIMIT_LIMIT : Fld := ⟨371, 0, 10, 1, 0, .rw, fun _ _ => 64⟩
/-- 13 Table 13.14, SEL_LOCK_MAX [5:0]: Frames per lock, 1–63. -/
def SEL_LOCK_MAX_MAX : Fld := ⟨372, 0, 6, 1, 0, .rw, fun _ _ => 16⟩
/-- 13 Table 13.15, SEL_RETRYCFG [4:0]: Failed attempts before a retrain, 1–16. -/
def SEL_RETRYCFG_REPLAY_MAX : Fld := ⟨373, 0, 5, 1, 0, .rw, fun _ _ => 8⟩
/-- 13 Table 13.15, SEL_RETRYCFG [7:5]: Retrains per episode, 0–7. -/
def SEL_RETRYCFG_RETRAIN_MAX : Fld := ⟨374, 5, 3, 1, 0, .rw, fun _ _ => 3⟩
/-- 13 Table 13.15, SEL_RETRYCFG [23:16]: Episodes per 2^30 beats, 1–255. -/
def SEL_RETRYCFG_EPISODE_MAX : Fld := ⟨375, 16, 8, 1, 0, .rw, fun _ _ => 32⟩
/-- 13 Table 13.15, SEL_RETRYCFG [39:32]: Marker failures per 2^24 beats that make a lane bad, 1–255. -/
def SEL_RETRYCFG_LANE_ERR : Fld := ⟨376, 32, 8, 1, 0, .rw, fun _ _ => 16⟩
/-- 13 Table 13.16, SEL_RSP_TIMEOUT [12:0]: Response timeout in µs, 100–5,000. -/
def SEL_RSP_TIMEOUT_US : Fld := ⟨377, 0, 13, 1, 0, .rw, fun _ _ => 1000⟩
/-- 13 Table 13.17, SEL_LDRANK [2k+1:2k]: Rank of logical device k, 0–3; k = 0–15. -/
def SEL_LDRANK_RANKk : Fld := ⟨378, 0, 2, 16, 2, .rw, fun _ _ => 0⟩
/-- 13 Table 13.18, SEL_RETRYSTAT [23:0]: Saturating count of retry episodes. -/
def SEL_RETRYSTAT_EPISODES : Fld := ⟨379, 0, 24, 1, 0, .ro, fun _ _ => 0⟩
/-- 13 Table 13.18, SEL_RETRYSTAT [39:24]: Saturating count of retrains. -/
def SEL_RETRYSTAT_RETRAINS : Fld := ⟨380, 24, 16, 1, 0, .ro, fun _ _ => 0⟩
/-- 13 Table 13.18, SEL_RETRYSTAT [62:40]: Longest episode in µs, saturating. -/
def SEL_RETRYSTAT_MAX_US : Fld := ⟨381, 40, 23, 1, 0, .ro, fun _ _ => 0⟩
/-- 13 Table 13.18, SEL_RETRYSTAT [63]: Sticky; 1 once a count has saturated. -/
def SEL_RETRYSTAT_SAT : Fld := ⟨382, 63, 1, 1, 0, .w1c, fun _ _ => 0⟩
/-- 13 Table 13.19, SEL_ERRSTAT [23:0]: Saturating count of received frames that failed their check. -/
def SEL_ERRSTAT_CRCFAIL : Fld := ⟨383, 0, 24, 1, 0, .ro, fun _ _ => 0⟩
/-- 13 Table 13.19, SEL_ERRSTAT [39:24]: Saturating count of answers 0x45. -/
def SEL_ERRSTAT_TIMEOUTS : Fld := ⟨384, 24, 16, 1, 0, .ro, fun _ _ => 0⟩
/-- 13 Table 13.19, SEL_ERRSTAT [55:40]: Saturating count of answers discarded under R481. -/
def SEL_ERRSTAT_LATE : Fld := ⟨385, 40, 16, 1, 0, .ro, fun _ _ => 0⟩
/-- 13 Table 13.19, SEL_ERRSTAT [62:56]: Saturating count of discards under R474 and R475. -/
def SEL_ERRSTAT_PROTO : Fld := ⟨386, 56, 7, 1, 0, .ro, fun _ _ => 0⟩
/-- 13 Table 13.19, SEL_ERRSTAT [63]: Sticky; 1 once a count has saturated. -/
def SEL_ERRSTAT_SAT : Fld := ⟨387, 63, 1, 1, 0, .w1c, fun _ _ => 0⟩
/-- 13 Table 13.20, SEL_TRAFFIC [31:0]: Wrapping count of RD commands sent. -/
def SEL_TRAFFIC_RD : Fld := ⟨388, 0, 32, 1, 0, .ro, fun _ _ => 0⟩
/-- 13 Table 13.20, SEL_TRAFFIC [63:32]: Wrapping count of WR commands sent. -/
def SEL_TRAFFIC_WR : Fld := ⟨389, 32, 32, 1, 0, .ro, fun _ _ => 0⟩
/-- 13 Table 13.20, SEL_ARBSTAT [23:0]: Saturating count of grants under rule 2 of R488. -/
def SEL_ARBSTAT_FORCED : Fld := ⟨390, 0, 24, 1, 0, .ro, fun _ _ => 0⟩
/-- 13 Table 13.20, SEL_ARBSTAT [47:24]: Saturating count of locks ended by SEL_LOCK_MAX. -/
def SEL_ARBSTAT_LOCKMAX : Fld := ⟨391, 24, 24, 1, 0, .ro, fun _ _ => 0⟩
/-- 13 Table 13.20, SEL_ARBSTAT [48]: Sticky; 1 once a count has saturated. -/
def SEL_ARBSTAT_SAT : Fld := ⟨392, 48, 1, 1, 0, .w1c, fun _ _ => 0⟩
/-- 13 Table 13.21, SEL_TAGSTAT [11:0]: Port tags in use. -/
def SEL_TAGSTAT_INFLIGHT : Fld := ⟨393, 0, 12, 1, 0, .ro, fun _ _ => 0⟩
/-- 13 Table 13.21, SEL_TAGSTAT [27:16]: Read credits held. -/
def SEL_TAGSTAT_RDHELD : Fld := ⟨394, 16, 12, 1, 0, .ro, fun _ _ => 0⟩
/-- 13 Table 13.21, SEL_TAGSTAT [41:32]: Write credits held. -/
def SEL_TAGSTAT_WRHELD : Fld := ⟨395, 32, 10, 1, 0, .ro, fun _ _ => 0⟩
/-- 13 Table 13.21, SEL_LANEl [31:8]: Saturating count of marker failures on lane l. -/
def SEL_LANEl_MARKERR : Fld := ⟨396, 8, 24, 1, 0, .ro, fun _ _ => 0⟩
/-- 13 Table 13.21, SEL_LANEl [47:32]: Saturating count of losses of lock on lane l. -/
def SEL_LANEl_LOCKLOSS : Fld := ⟨397, 32, 16, 1, 0, .ro, fun _ _ => 0⟩
/-- 13 Table 13.21, SEL_LANEl [48]: Sticky; 1 once a count has saturated. -/
def SEL_LANEl_SAT : Fld := ⟨398, 48, 1, 1, 0, .w1c, fun _ _ => 0⟩
/-- 13 Table 13.22, SEL_MAP [0]: 0 port-linear; 1 interleaved; changed only under R467. -/
def SEL_MAP_MODE : Fld := ⟨399, 0, 1, 1, 0, .rw, fun _ _ => 0⟩
/-- 13 Table 13.22, SEL_MAP [1]: 1 while the condition of R467 for MODE 1 holds. -/
def SEL_MAP_OK : Fld := ⟨400, 1, 1, 1, 0, .ro, fun _ _ => 0⟩
/-- 14 Table 14.8, CXL_LINKSTAT [1:0]: 0 down; 1 training; 2 L0; 3 replay or Recovery. -/
def CXL_LINKSTAT_STATE : Fld := ⟨401, 0, 2, 1, 0, .ro, fun _ _ => 0⟩
/-- 14 Table 14.8, CXL_LINKSTAT [2]: 0 ×16; 1 ×8. -/
def CXL_LINKSTAT_WIDTH : Fld := ⟨402, 2, 1, 1, 0, .ro, fun _ _ => 0⟩
/-- 14 Table 14.8, CXL_LINKSTAT [3]: 0 128 GT/s; 1 64 GT/s. -/
def CXL_LINKSTAT_RATE : Fld := ⟨403, 3, 1, 1, 0, .ro, fun _ _ => 0⟩
/-- 14 Table 14.8, CXL_LINKSTAT [31:8]: Saturating count of replay and Recovery episodes. -/
def CXL_LINKSTAT_EPISODES : Fld := ⟨404, 8, 24, 1, 0, .ro, fun _ _ => 0⟩
/-- 14 Table 14.8, CXL_LINKSTAT [63:32]: Longest episode in µs, saturating. -/
def CXL_LINKSTAT_MAX_US : Fld := ⟨405, 32, 32, 1, 0, .ro, fun _ _ => 0⟩
/-- 14 Table 14.8, CXL_HM_TIMEOUT [13:0]: Host-memory timeout in µs, 1,000–16,000. -/
def CXL_HM_TIMEOUT_US : Fld := ⟨406, 0, 14, 1, 0, .rw, fun _ _ => 6000⟩
/-- 14 Table 14.8, CXL_CTLERR [23:0]: Saturating count of writes discarded under R500, R502, R503 and R504. -/
def CXL_CTLERR_DISCARDS : Fld := ⟨407, 0, 24, 1, 0, .ro, fun _ _ => 0⟩
/-- 14 Table 14.8, CXL_CTLERR [27:24]: LD of the last discarded write. -/
def CXL_CTLERR_LAST_LD : Fld := ⟨408, 24, 4, 1, 0, .ro, fun _ _ => 0⟩
/-- 14 Table 14.8, CXL_CTLERR [48]: Sticky; 1 once DISCARDS has saturated. -/
def CXL_CTLERR_SAT : Fld := ⟨409, 48, 1, 1, 0, .w1c, fun _ _ => 0⟩
/-- 14 Table 14.9, CXL_FIBRE [4:0]: First fibre retired for transmitting; 31 for none. -/
def CXL_FIBRE_TX_RET0 : Fld := ⟨410, 0, 5, 1, 0, .ro, fun _ _ => 31⟩
/-- 14 Table 14.9, CXL_FIBRE [9:5]: Second fibre retired for transmitting. -/
def CXL_FIBRE_TX_RET1 : Fld := ⟨411, 5, 5, 1, 0, .ro, fun _ _ => 31⟩
/-- 14 Table 14.9, CXL_FIBRE [14:10]: First fibre retired for receiving. -/
def CXL_FIBRE_RX_RET0 : Fld := ⟨412, 10, 5, 1, 0, .ro, fun _ _ => 31⟩
/-- 14 Table 14.9, CXL_FIBRE [19:15]: Second fibre retired for receiving. -/
def CXL_FIBRE_RX_RET1 : Fld := ⟨413, 15, 5, 1, 0, .ro, fun _ _ => 31⟩
/-- 14 Table 14.9, CXL_FIBRE [20]: 1 while a valid peer beacon is received, or both receive spares are in use. -/
def CXL_FIBRE_BEACON_OK : Fld := ⟨414, 20, 1, 1, 0, .ro, fun _ _ => 0⟩
/-- 14 Table 14.10, CXL_LDk_CFG [0]: 1 lets the LD be bound; always 1 for LD 0. -/
def CXL_LDk_CFG_ENABLED : Fld := ⟨415, 0, 1, 1, 0, .rw, fun u _ => if u = 0 then 1 else 0⟩
/-- 14 Table 14.10, CXL_LDk_CFG [1]: 1 while a host owns the LD. -/
def CXL_LDk_CFG_BOUND : Fld := ⟨416, 1, 1, 1, 0, .ro, fun _ _ => 0⟩
/-- 14 Table 14.10, CXL_LDk_CFG [2]: 1 if the host has enabled CXL.cache. -/
def CXL_LDk_CFG_CACHE_EN : Fld := ⟨417, 2, 1, 1, 0, .ro, fun _ _ => 0⟩
/-- 14 Table 14.10, CXL_LDk_CFG [3]: 1 if the host has enabled CXL.mem. -/
def CXL_LDk_CFG_MEM_EN : Fld := ⟨418, 3, 1, 1, 0, .ro, fun _ _ => 0⟩
/-- 14 Table 14.10, CXL_LDk_PART [63:0]: Bit i is 1 if field i belongs to LD k. -/
def CXL_LDk_PART_FIELDS : Fld := ⟨419, 0, 64, 1, 0, .rw, fun u _ => if u = 0 then 0xFFFFFFFFFFFFFFFF else 0⟩
/-- 14 Table 14.10, CXL_LDk_FMWIN [15:0]: Window base in GiB. -/
def CXL_LDk_FMWIN_FMBASE : Fld := ⟨420, 0, 16, 1, 0, .rw, fun _ _ => 0⟩
/-- 14 Table 14.10, CXL_LDk_FMWIN [48:32]: Window size in GiB, 0–65,536. -/
def CXL_LDk_FMWIN_FMSIZE : Fld := ⟨421, 32, 17, 1, 0, .rw, fun u _ => if u = 0 then 0x10000 else 0⟩
/-- 14 Table 14.10, CXL_LDk_MSIX [10:0]: First vector of the share. -/
def CXL_LDk_MSIX_BASE : Fld := ⟨422, 0, 11, 1, 0, .rw, fun _ _ => 0⟩
/-- 14 Table 14.10, CXL_LDk_MSIX [27:16]: Vectors in the share, 0–2,048. -/
def CXL_LDk_MSIX_COUNT : Fld := ⟨423, 16, 12, 1, 0, .rw, fun u _ => if u = 0 then 0x800 else 0⟩
/-- 14 Table 14.11, CXL_LDk_RING [4:0]: Ring entries are 2^LOG2SIZE, 6–16. -/
def CXL_LDk_RING_LOG2SIZE : Fld := ⟨424, 0, 5, 1, 0, .rw, fun _ _ => 6⟩
/-- 14 Table 14.11, CXL_LDk_RING [5]: 1 enables the ring. -/
def CXL_LDk_RING_EN : Fld := ⟨425, 5, 1, 1, 0, .rw, fun _ _ => 0⟩
/-- 14 Table 14.11, CXL_LDk_RING [63:12]: Host address of the ring, [63:12]. -/
def CXL_LDk_RING_BASE : Fld := ⟨426, 12, 52, 1, 0, .rw, fun _ _ => 0⟩
/-- 14 Table 14.11, CXL_LDk_RINGPTR [15:0]: Next entry Marker takes. -/
def CXL_LDk_RINGPTR_HEAD : Fld := ⟨427, 0, 16, 1, 0, .ro, fun _ _ => 0⟩
/-- 14 Table 14.11, CXL_LDk_RINGPTR [47:32]: Tail from the last accepted doorbell. -/
def CXL_LDk_RINGPTR_TAIL : Fld := ⟨428, 32, 16, 1, 0, .ro, fun _ _ => 0⟩
/-- 14 Table 14.11, CXL_LDk_RINGPTR [48]: Sticky; a doorbell was ignored under R517. -/
def CXL_LDk_RINGPTR_BADDB : Fld := ⟨429, 48, 1, 1, 0, .w1c, fun _ _ => 0⟩
/-- 14 Table 14.11, CXL_LDk_RINGPTR [49]: Writing 1 withdraws a waiting cut order at HEAD under R266; reads 1 until the withdrawal is acknowledged; a write while no cut order waits has no effect. -/
def CXL_LDk_RINGPTR_WDRAW : Fld := ⟨430, 49, 1, 1, 0, .w1s, fun _ _ => 0⟩
/-- 14 Table 14.11, CXL_LDk_EVQ [4:0]: Queue records are 2^LOG2SIZE, 6–16. -/
def CXL_LDk_EVQ_LOG2SIZE : Fld := ⟨431, 0, 5, 1, 0, .rw, fun _ _ => 6⟩
/-- 14 Table 14.11, CXL_LDk_EVQ [5]: 1 enables the queue; HEAD and TAIL become 0 when it is set. -/
def CXL_LDk_EVQ_EN : Fld := ⟨432, 5, 1, 1, 0, .rw, fun _ _ => 0⟩
/-- 14 Table 14.11, CXL_LDk_EVQ [63:12]: Host address of the queue, [63:12]. -/
def CXL_LDk_EVQ_BASE : Fld := ⟨433, 12, 52, 1, 0, .rw, fun _ _ => 0⟩
/-- 14 Table 14.11, CXL_LDk_EVQPTR [15:0]: Head from the last DB_EVQ write. -/
def CXL_LDk_EVQPTR_HEAD : Fld := ⟨434, 0, 16, 1, 0, .ro, fun _ _ => 0⟩
/-- 14 Table 14.11, CXL_LDk_EVQPTR [47:32]: Next record the module writes. -/
def CXL_LDk_EVQPTR_TAIL : Fld := ⟨435, 32, 16, 1, 0, .ro, fun _ _ => 0⟩
/-- 14 Table 14.11, CXL_LDk_EVQPTR [48]: Sticky; an event was lost under R521. -/
def CXL_LDk_EVQPTR_OVF : Fld := ⟨436, 48, 1, 1, 0, .w1c, fun _ _ => 0⟩
/-- 14 Table 14.11, CXL_LDk_EVQPTR [63:56]: Saturating count of lost events. -/
def CXL_LDk_EVQPTR_LOST : Fld := ⟨437, 56, 8, 1, 0, .ro, fun _ _ => 0⟩
/-- 14 Table 14.11, CXL_LDk_EVVEC [4j+3:4j]: Vector, within the share, of event kind j; j = 0–15. -/
def CXL_LDk_EVVEC_VECj : Fld := ⟨438, 0, 4, 16, 4, .rw, fun _ _ => 0⟩
/-- 14 Table 14.12, CXL_LDk_APERTURE [5:0]: Field shown by the aperture. -/
def CXL_LDk_APERTURE_FIELD : Fld := ⟨439, 0, 6, 1, 0, .rw, fun _ _ => 0⟩
/-- 14 Table 14.12, CXL_LDk_APERTURE [8:6]: Panel shown by the aperture. -/
def CXL_LDk_APERTURE_PANEL : Fld := ⟨440, 6, 3, 1, 0, .rw, fun _ _ => 0⟩
/-- 14 Table 14.12, CXL_LDk_HMSTAT [23:0]: Saturating count of host-memory accesses ended under R510. -/
def CXL_LDk_HMSTAT_HMERR : Fld := ⟨441, 0, 24, 1, 0, .ro, fun _ _ => 0⟩
/-- 14 Table 14.12, CXL_LDk_HMSTAT [47:24]: Saturating count of CXL.mem requests failed under R505 or R693. -/
def CXL_LDk_HMSTAT_MEMERR : Fld := ⟨442, 24, 24, 1, 0, .ro, fun _ _ => 0⟩
/-- 14 Table 14.12, CXL_LDk_HMSTAT [48]: Sticky; 1 once a count has saturated. -/
def CXL_LDk_HMSTAT_SAT : Fld := ⟨443, 48, 1, 1, 0, .w1c, fun _ _ => 0⟩
/-- 15 Table 15.9, INT_CTL [0]: 1 places test and suspect sweeps under R547. -/
def INT_CTL_TEST_EN : Fld := ⟨444, 0, 1, 1, 0, .rw, fun _ _ => 1⟩
/-- 15 Table 15.9, INT_CTL [1]: 1 condemns positions under R543; 0 under R546. -/
def INT_CTL_FENCE_EN : Fld := ⟨445, 1, 1, 1, 0, .rw, fun _ _ => 1⟩
/-- 15 Table 15.9, INT_CTL [2]: Writing 1 resets the block under R562. -/
def INT_CTL_SW_RST : Fld := ⟨446, 2, 1, 1, 0, .wo, fun _ _ => 0⟩
/-- 15 Table 15.10, INT_FENCE_COUNT [3:0]: Failures that condemn a position, 1–8. -/
def INT_FENCE_COUNT_COUNT : Fld := ⟨447, 0, 4, 1, 0, .rw, fun _ _ => 3⟩
/-- 15 Table 15.10, INT_FENCE_WINDOW [47:0]: Window in tr, 1 to 2^47 − 1. -/
def INT_FENCE_WINDOW_TR : Fld := ⟨448, 0, 48, 1, 0, .rw, fun _ _ => 268435456⟩
/-- 15 Table 15.10, INT_SWEEP_PERIOD [47:0]: tr between test sweeps of a field; 0 none. -/
def INT_SWEEP_PERIOD_TR : Fld := ⟨449, 0, 48, 1, 0, .rw, fun _ _ => 67108864⟩
/-- 15 Table 15.10, INT_WATCH_PERIOD [47:0]: tr between suspect sweeps; 0 none. -/
def INT_WATCH_PERIOD_TR : Fld := ⟨450, 0, 48, 1, 0, .rw, fun _ _ => 4194304⟩
/-- 15 Table 15.11, INT_STAT [10:0]: Watch-list entries in use, 0–1,024. -/
def INT_STAT_ENTRIES : Fld := ⟨451, 0, 11, 1, 0, .ro, fun _ _ => 0⟩
/-- 15 Table 15.11, INT_STAT [11]: Sticky; an entry reached the count with FENCE_EN 0. -/
def INT_STAT_WOULD_FENCE : Fld := ⟨452, 11, 1, 1, 0, .w1c, fun _ _ => 0⟩
/-- 15 Table 15.11, INT_STAT [31:16]: Saturating count of positions condemned since reset. -/
def INT_STAT_CONDEMNED : Fld := ⟨453, 16, 16, 1, 0, .ro, fun _ _ => 0⟩
/-- 15 Table 15.11, INT_STAT [47:32]: Saturating count of failures handled under R541. -/
def INT_STAT_DISPLACED : Fld := ⟨454, 32, 16, 1, 0, .ro, fun _ _ => 0⟩
/-- 15 Table 15.11, INT_STAT [48]: Sticky; 1 once a count has saturated. -/
def INT_STAT_SAT : Fld := ⟨455, 48, 1, 1, 0, .w1c, fun _ _ => 0⟩
/-- 15 Table 15.11, INT_TESTSTAT [31:0]: Wrapping count of test groups run. -/
def INT_TESTSTAT_GROUPS : Fld := ⟨456, 0, 32, 1, 0, .ro, fun _ _ => 0⟩
/-- 15 Table 15.11, INT_TESTSTAT [47:32]: Saturating count of failures with cause 6. -/
def INT_TESTSTAT_MISMATCH : Fld := ⟨457, 32, 16, 1, 0, .ro, fun _ _ => 0⟩
/-- 15 Table 15.11, INT_TESTSTAT [62:48]: Wrapping count of sweeps run. -/
def INT_TESTSTAT_SWEEPS : Fld := ⟨458, 48, 15, 1, 0, .ro, fun _ _ => 0⟩
/-- 15 Table 15.12, INT_CAUSEc [31:0]: Saturating count of counted failures with cause c, wafer-wide. -/
def INT_CAUSEc_COUNT : Fld := ⟨459, 0, 32, 1, 0, .ro, fun _ _ => 0⟩
/-- 15 Table 15.12, INT_CAUSEc [32]: Sticky; 1 once COUNT has saturated. -/
def INT_CAUSEc_SAT : Fld := ⟨460, 32, 1, 1, 0, .w1c, fun _ _ => 0⟩
/-- 15 Table 15.13, INT_DIGEST_CFGj [31:0]: tr between marked attempts of ring j; 0 none. -/
def INT_DIGEST_CFGj_PERIOD : Fld := ⟨461, 0, 32, 1, 0, .rw, fun _ _ => 0⟩
/-- 15 Table 15.13, INT_DIGEST_CFGj [63]: Writing 1 starts an immediate digest under R552. -/
def INT_DIGEST_CFGj_NOW : Fld := ⟨462, 63, 1, 1, 0, .wo, fun _ _ => 0⟩
/-- 15 Table 15.13, INT_DIGEST_STATj [0]: 1 while a digest of NOW runs. -/
def INT_DIGEST_STATj_BUSY : Fld := ⟨463, 0, 1, 1, 0, .ro, fun _ _ => 0⟩
/-- 15 Table 15.13, INT_DIGEST_STATj [31:8]: Wrapping count of digest comparisons. -/
def INT_DIGEST_STATj_DIGESTS : Fld := ⟨464, 8, 24, 1, 0, .ro, fun _ _ => 0⟩
/-- 15 Table 15.13, INT_DIGEST_STATj [47:32]: Saturating count of positions that mismatched. -/
def INT_DIGEST_STATj_MISMATCH : Fld := ⟨465, 32, 16, 1, 0, .ro, fun _ _ => 0⟩
/-- 15 Table 15.13, INT_DIGEST_STATj [63:48]: Core index within replica 0 of the first mismatching position of the last comparison. -/
def INT_DIGEST_STATj_FIRST : Fld := ⟨466, 48, 16, 1, 0, .ro, fun _ _ => 0⟩
/-- 15 Table 15.14, INT_WL_An [5:0]: Field of the position. -/
def INT_WL_An_FIELD : Fld := ⟨467, 0, 6, 1, 0, .ro, fun _ _ => 0⟩
/-- 15 Table 15.14, INT_WL_An [8:6]: Panel. -/
def INT_WL_An_PANEL : Fld := ⟨468, 6, 3, 1, 0, .ro, fun _ _ => 0⟩
/-- 15 Table 15.14, INT_WL_An [12:9]: Physical row within the panel. -/
def INT_WL_An_PROW : Fld := ⟨469, 9, 4, 1, 0, .ro, fun _ _ => 0⟩
/-- 15 Table 15.14, INT_WL_An [20:13]: Physical position, 0–129. -/
def INT_WL_An_POS : Fld := ⟨470, 13, 8, 1, 0, .ro, fun _ _ => 0⟩
/-- 15 Table 15.14, INT_WL_An [40:21]: Logical core number that the position backs now. -/
def INT_WL_An_LCN : Fld := ⟨471, 21, 20, 1, 0, .ro, fun _ _ => 0⟩
/-- 15 Table 15.14, INT_WL_An [44:41]: Failures within the window, 0–8. -/
def INT_WL_An_INWIN : Fld := ⟨472, 41, 4, 1, 0, .ro, fun _ _ => 0⟩
/-- 15 Table 15.14, INT_WL_An [45]: 1 once the position has been condemned. -/
def INT_WL_An_CONDEMNED : Fld := ⟨473, 45, 1, 1, 0, .ro, fun _ _ => 0⟩
/-- 15 Table 15.14, INT_WL_An [63]: 1 if the entry is in use. -/
def INT_WL_An_VALID : Fld := ⟨474, 63, 1, 1, 0, .ro, fun _ _ => 0⟩
/-- 15 Table 15.14, INT_WL_Bn [47:0]: Treadle count of the newest failure. -/
def INT_WL_Bn_LAST_TR : Fld := ⟨475, 0, 48, 1, 0, .ro, fun _ _ => 0⟩
/-- 15 Table 15.14, INT_WL_Bn [51:48]: Its cause code. -/
def INT_WL_Bn_LAST_CAUSE : Fld := ⟨476, 48, 4, 1, 0, .ro, fun _ _ => 0⟩
/-- 16 Table 16.8, BRG_READY [0]: Management domain and I3C up. -/
def BRG_READY_MGMT : Fld := ⟨477, 0, 1, 1, 0, .ro, fun _ _ => 1⟩
/-- 16 Table 16.8, BRG_READY [1]: Store loaded. -/
def BRG_READY_NVS : Fld := ⟨478, 1, 1, 1, 0, .ro, fun _ _ => 0⟩
/-- 16 Table 16.8, BRG_READY [2]: Firmware verified. -/
def BRG_READY_THIMBLE : Fld := ⟨479, 2, 1, 1, 0, .ro, fun _ _ => 0⟩
/-- 16 Table 16.8, BRG_READY [3]: Reference clock present. -/
def BRG_READY_CLKREF : Fld := ⟨480, 3, 1, 1, 0, .ro, fun _ _ => 0⟩
/-- 16 Table 16.8, BRG_READY [4]: Treadle counting. -/
def BRG_READY_TREADLE : Fld := ⟨481, 4, 1, 1, 0, .ro, fun _ _ => 0⟩
/-- 16 Table 16.8, BRG_READY [5]: Watch list reloaded. -/
def BRG_READY_INT : Fld := ⟨482, 5, 1, 1, 0, .ro, fun _ _ => 0⟩
/-- 16 Table 16.8, BRG_READY [6]: Host link in L0. -/
def BRG_READY_HOST : Fld := ⟨483, 6, 1, 1, 0, .ro, fun _ _ => 0⟩
/-- 16 Table 16.8, BRG_READY [7]: Distance table built. -/
def BRG_READY_MARKER : Fld := ⟨484, 7, 1, 1, 0, .ro, fun _ _ => 0⟩
/-- 16 Table 16.9, BRG_FLD_TRANSIT [63:0]: Bit f: transit of field f up. -/
def BRG_FLD_TRANSIT_MAP : Fld := ⟨485, 0, 64, 1, 0, .ro, fun _ _ => 0⟩
/-- 16 Table 16.9, BRG_FLD_SEAMOK [63:0]: Bit f: seam links of field f trained and measured. -/
def BRG_FLD_SEAMOK_MAP : Fld := ⟨486, 0, 64, 1, 0, .ro, fun _ _ => 0⟩
/-- 16 Table 16.9, BRG_FLD_TOPO [63:0]: Bit f: topology of field f agrees or was accepted. -/
def BRG_FLD_TOPO_MAP : Fld := ⟨487, 0, 64, 1, 0, .ro, fun _ _ => 0⟩
/-- 16 Table 16.9, BRG_FLD_COMPUTE [63:0]: Bit f: compute of field f up and repaired. -/
def BRG_FLD_COMPUTE_MAP : Fld := ⟨488, 0, 64, 1, 0, .ro, fun _ _ => 0⟩
/-- 16 Table 16.9, BRG_FLD_READY [63:0]: Bit f: AND of the four bits above. -/
def BRG_FLD_READY_MAP : Fld := ⟨489, 0, 64, 1, 0, .ro, fun _ _ => 0⟩
/-- 16 Table 16.9, BRG_PORTS [31:0]: Bit p: Selvedge port p is UP. -/
def BRG_PORTS_MAP : Fld := ⟨490, 0, 32, 1, 0, .ro, fun _ _ => 0⟩
/-- 16 Table 16.10, BRG_CMD [3:0]: Command, Table 16.2. -/
def BRG_CMD_OP : Fld := ⟨491, 0, 4, 1, 0, .rw, fun _ _ => 0⟩
/-- 16 Table 16.10, BRG_CMD [4]: 1 acts on every field. -/
def BRG_CMD_ALL : Fld := ⟨492, 4, 1, 1, 0, .rw, fun _ _ => 0⟩
/-- 16 Table 16.10, BRG_CMD [10:5]: Field when ALL is 0. -/
def BRG_CMD_FIELD : Fld := ⟨493, 5, 6, 1, 0, .rw, fun _ _ => 0⟩
/-- 16 Table 16.10, BRG_CMD [12:11]: SEAM_RETRAIN: 0 north, 1 east, 2 south, 3 west. -/
def BRG_CMD_SIDE : Fld := ⟨494, 11, 2, 1, 0, .rw, fun _ _ => 0⟩
/-- 16 Table 16.10, BRG_CMD [13]: SEAM_RETRAIN: 0 request, 1 reply. -/
def BRG_CMD_NET : Fld := ⟨495, 13, 1, 1, 0, .rw, fun _ _ => 0⟩
/-- 16 Table 16.10, BRG_CMD [20:14]: SEAM_RETRAIN: row or column within the field. -/
def BRG_CMD_ROW : Fld := ⟨496, 14, 7, 1, 0, .rw, fun _ _ => 0⟩
/-- 16 Table 16.10, BRG_CMD [63]: Writing 1 starts the command under R564. -/
def BRG_CMD_GO : Fld := ⟨497, 63, 1, 1, 0, .wo, fun _ _ => 0⟩
/-- 16 Table 16.10, BRG_CMDSTAT [0]: 1 while a command runs. -/
def BRG_CMDSTAT_BUSY : Fld := ⟨498, 0, 1, 1, 0, .ro, fun _ _ => 0⟩
/-- 16 Table 16.10, BRG_CMDSTAT [1]: Set when a command ends. -/
def BRG_CMDSTAT_DONE : Fld := ⟨499, 1, 1, 1, 0, .w1c, fun _ _ => 0⟩
/-- 16 Table 16.10, BRG_CMDSTAT [2]: Sticky; a command failed or was refused. -/
def BRG_CMDSTAT_ERR : Fld := ⟨500, 2, 1, 1, 0, .w1c, fun _ _ => 0⟩
/-- 16 Table 16.10, BRG_CMDSTAT [7:4]: Table 16.3. -/
def BRG_CMDSTAT_ERRCODE : Fld := ⟨501, 4, 4, 1, 0, .ro, fun _ _ => 0⟩
/-- 16 Table 16.10, BRG_CMDSTAT [11:8]: OP of the last command. -/
def BRG_CMDSTAT_OP : Fld := ⟨502, 8, 4, 1, 0, .ro, fun _ _ => 0⟩
/-- 16 Table 16.10, BRG_CMDSTAT [17:12]: Lowest failing field of the last command. -/
def BRG_CMDSTAT_FIELD : Fld := ⟨503, 12, 6, 1, 0, .ro, fun _ _ => 0⟩
/-- 16 Table 16.11, BRG_BER_LIMIT [15:0]: Failing flits permitted in a seam-link window. -/
def BRG_BER_LIMIT_FLITS : Fld := ⟨504, 0, 16, 1, 0, .rw, fun _ _ => 4⟩
/-- 16 Table 16.11, BRG_BER_LIMIT [31:16]: Failing frames permitted in the Selvedge window (Table 13.8). -/
def BRG_BER_LIMIT_FRAMES : Fld := ⟨505, 16, 16, 1, 0, .rw, fun _ _ => 4⟩
/-- 16 Table 16.12, BRG_TOPO_DIFF [5:0]: Field of the last disagreement. -/
def BRG_TOPO_DIFF_FIELD : Fld := ⟨506, 0, 6, 1, 0, .ro, fun _ _ => 0⟩
/-- 16 Table 16.12, BRG_TOPO_DIFF [18:8]: Missing links in it, 0–1,024. -/
def BRG_TOPO_DIFF_MISSING : Fld := ⟨507, 8, 11, 1, 0, .ro, fun _ _ => 0⟩
/-- 16 Table 16.12, BRG_TOPO_DIFF [29:19]: Extra links in it, 0–1,024. -/
def BRG_TOPO_DIFF_EXTRA : Fld := ⟨508, 19, 11, 1, 0, .ro, fun _ _ => 0⟩
/-- 16 Table 16.12, BRG_TOPO_DIFF [31:30]: Side of its first disagreeing link. -/
def BRG_TOPO_DIFF_FSIDE : Fld := ⟨509, 30, 2, 1, 0, .ro, fun _ _ => 0⟩
/-- 16 Table 16.12, BRG_TOPO_DIFF [32]: Network of that link. -/
def BRG_TOPO_DIFF_FNET : Fld := ⟨510, 32, 1, 1, 0, .ro, fun _ _ => 0⟩
/-- 16 Table 16.12, BRG_TOPO_DIFF [39:33]: Row or column of that link. -/
def BRG_TOPO_DIFF_FROW : Fld := ⟨511, 33, 7, 1, 0, .ro, fun _ _ => 0⟩
/-- 16 Table 16.12, BRG_TOPO_DIFF [40]: 1 if that link is extra. -/
def BRG_TOPO_DIFF_FEXTRA : Fld := ⟨512, 40, 1, 1, 0, .ro, fun _ _ => 0⟩
/-- 16 Table 16.13, BRG_DISAGREE [15:0]: Saturating count of positions that failed the test without a fuse mark. -/
def BRG_DISAGREE_TEST_ONLY : Fld := ⟨513, 0, 16, 1, 0, .ro, fun _ _ => 0⟩
/-- 16 Table 16.13, BRG_DISAGREE [31:16]: Saturating count of fuse-marked positions that passed the test. -/
def BRG_DISAGREE_FUSE_ONLY : Fld := ⟨514, 16, 16, 1, 0, .ro, fun _ _ => 0⟩
/-- 16 Table 16.13, BRG_DISAGREE [37:32]: Field of the last disagreement. -/
def BRG_DISAGREE_FIELD : Fld := ⟨515, 32, 6, 1, 0, .ro, fun _ _ => 0⟩
/-- 16 Table 16.13, BRG_DISAGREE [63]: Sticky; 1 once a count has saturated. -/
def BRG_DISAGREE_SAT : Fld := ⟨516, 63, 1, 1, 0, .w1c, fun _ _ => 0⟩
/-- 16 Table 16.14, BRG_RST [1:0]: 0 core, 1 panel, 2 partition, 3 wafer. -/
def BRG_RST_SCOPE : Fld := ⟨517, 0, 2, 1, 0, .rw, fun _ _ => 0⟩
/-- 16 Table 16.14, BRG_RST [27:8]: Logical core number; panel as field × 8 + panel; LD; ignored for the wafer. -/
def BRG_RST_TARGET : Fld := ⟨518, 8, 20, 1, 0, .rw, fun _ _ => 0⟩
/-- 16 Table 16.14, BRG_RST [63]: Writing 1 starts the reset. -/
def BRG_RST_GO : Fld := ⟨519, 63, 1, 1, 0, .wo, fun _ _ => 0⟩
/-- 16 Table 16.14, BRG_RSTSTAT [0]: 1 while a reset runs. -/
def BRG_RSTSTAT_BUSY : Fld := ⟨520, 0, 1, 1, 0, .ro, fun _ _ => 0⟩
/-- 16 Table 16.14, BRG_RSTSTAT [2:1]: 0 idle, 1 drain, 2 reset, 3 release. -/
def BRG_RSTSTAT_PHASE : Fld := ⟨521, 1, 2, 1, 0, .ro, fun _ _ => 0⟩
/-- 16 Table 16.14, BRG_RSTSTAT [3]: Sticky; a BRG_RST write was discarded. -/
def BRG_RSTSTAT_REJ : Fld := ⟨522, 3, 1, 1, 0, .w1c, fun _ _ => 0⟩
/-- 16 Table 16.14, BRG_RSTSTAT [5:4]: Scope of the last reset. -/
def BRG_RSTSTAT_LAST_SCOPE : Fld := ⟨523, 4, 2, 1, 0, .ro, fun _ _ => 0⟩
/-- 16 Table 16.14, BRG_RSTSTAT [31:16]: Saturating count of drains ended by the limit. -/
def BRG_RSTSTAT_DRAIN_TO : Fld := ⟨524, 16, 16, 1, 0, .ro, fun _ _ => 0⟩
/-- 16 Table 16.14, BRG_RSTSTAT [63:32]: Duration of the last reset in µs, saturating. -/
def BRG_RSTSTAT_LAST_US : Fld := ⟨525, 32, 32, 1, 0, .ro, fun _ _ => 0⟩
/-- 16 Table 16.14, BRG_DRAIN_LIMIT [15:0]: Drain limit in µs, 1,000–60,000. -/
def BRG_DRAIN_LIMIT_US : Fld := ⟨526, 0, 16, 1, 0, .rw, fun _ _ => 50000⟩
/-- 16 Table 16.15, BRG_DARN_CMD [5:0]: Field of the position. -/
def BRG_DARN_CMD_FIELD : Fld := ⟨527, 0, 6, 1, 0, .rw, fun _ _ => 0⟩
/-- 16 Table 16.15, BRG_DARN_CMD [8:6]: Panel. -/
def BRG_DARN_CMD_PANEL : Fld := ⟨528, 6, 3, 1, 0, .rw, fun _ _ => 0⟩
/-- 16 Table 16.15, BRG_DARN_CMD [12:9]: Physical row within the panel. -/
def BRG_DARN_CMD_PROW : Fld := ⟨529, 9, 4, 1, 0, .rw, fun _ _ => 0⟩
/-- 16 Table 16.15, BRG_DARN_CMD [20:13]: Position, 0–129. -/
def BRG_DARN_CMD_POS : Fld := ⟨530, 13, 8, 1, 0, .rw, fun _ _ => 0⟩
/-- 16 Table 16.15, BRG_DARN_CMD [63]: Writing 1 queues the position as condemned. -/
def BRG_DARN_CMD_GO : Fld := ⟨531, 63, 1, 1, 0, .wo, fun _ _ => 0⟩
/-- 16 Table 16.15, BRG_DARN_STAT [0]: 1 while an action runs. -/
def BRG_DARN_STAT_BUSY : Fld := ⟨532, 0, 1, 1, 0, .ro, fun _ _ => 0⟩
/-- 16 Table 16.15, BRG_DARN_STAT [7:1]: Queued requests, 0–64. -/
def BRG_DARN_STAT_PENDING : Fld := ⟨533, 1, 7, 1, 0, .ro, fun _ _ => 0⟩
/-- 16 Table 16.15, BRG_DARN_STAT [9:8]: 1 spare shift, 2 relocation, 3 fence. -/
def BRG_DARN_STAT_LAST_KIND : Fld := ⟨534, 8, 2, 1, 0, .ro, fun _ _ => 0⟩
/-- 16 Table 16.15, BRG_DARN_STAT [10]: Sticky; a state was uncopyable under R580. -/
def BRG_DARN_STAT_LOST : Fld := ⟨535, 10, 1, 1, 0, .w1c, fun _ _ => 0⟩
/-- 16 Table 16.15, BRG_DARN_STAT [63:32]: Pause of the last action in µs, saturating. -/
def BRG_DARN_STAT_LAST_US : Fld := ⟨536, 32, 32, 1, 0, .ro, fun _ _ => 0⟩
/-- 16 Table 16.16, BRG_DARN_COUNT [15:0]: Saturating count of spare shifts. -/
def BRG_DARN_COUNT_SPARES : Fld := ⟨537, 0, 16, 1, 0, .ro, fun _ _ => 0⟩
/-- 16 Table 16.16, BRG_DARN_COUNT [31:16]: Saturating count of relocations. -/
def BRG_DARN_COUNT_RELOCS : Fld := ⟨538, 16, 16, 1, 0, .ro, fun _ _ => 0⟩
/-- 16 Table 16.16, BRG_DARN_COUNT [47:32]: Saturating count of fences. -/
def BRG_DARN_COUNT_FENCES : Fld := ⟨539, 32, 16, 1, 0, .ro, fun _ _ => 0⟩
/-- 16 Table 16.16, BRG_DARN_COUNT [62:48]: Saturating count of actions abandoned under R582. -/
def BRG_DARN_COUNT_ABANDONED : Fld := ⟨540, 48, 15, 1, 0, .ro, fun _ _ => 0⟩
/-- 16 Table 16.16, BRG_DARN_COUNT [63]: Sticky; 1 once a count has saturated. -/
def BRG_DARN_COUNT_SAT : Fld := ⟨541, 63, 1, 1, 0, .w1c, fun _ _ => 0⟩
/-- 17 Table 17.5, RST_CTL [0]: Writing 1 with KEY 0xA5C3 starts HOST_MODULE. -/
def RST_CTL_MODULE : Fld := ⟨542, 0, 1, 1, 0, .wo, fun _ _ => 0⟩
/-- 17 Table 17.5, RST_CTL [1]: Writing 1 with KEY 0xA5C3 starts HOST_FABRIC. -/
def RST_CTL_FABRIC : Fld := ⟨543, 1, 1, 1, 0, .wo, fun _ _ => 0⟩
/-- 17 Table 17.5, RST_CTL [2]: Writing 1 resets the block under R596. -/
def RST_CTL_SW_RST : Fld := ⟨544, 2, 1, 1, 0, .wo, fun _ _ => 0⟩
/-- 17 Table 17.5, RST_CTL [31:16]: Must be 0xA5C3 when MODULE or FABRIC is 1; otherwise the write is discarded and sets KEYERR. -/
def RST_CTL_KEY : Fld := ⟨545, 16, 16, 1, 0, .wo, fun _ _ => 0⟩
/-- 17 Table 17.6, RST_CAUSE [3:0]: Source of the most recent reset, Table 17.1. -/
def RST_CAUSE_CODE : Fld := ⟨546, 0, 4, 1, 0, .ro, fun _ _ => 1⟩
/-- 17 Table 17.6, RST_CAUSE [4]: 1 if the reset waited for a write pulse under R591. -/
def RST_CAUSE_DELAYED : Fld := ⟨547, 4, 1, 1, 0, .ro, fun _ _ => 0⟩
/-- 17 Table 17.6, RST_CAUSE [5]: 1 if another source joined the reset under R590. -/
def RST_CAUSE_MERGED : Fld := ⟨548, 5, 1, 1, 0, .ro, fun _ _ => 0⟩
/-- 17 Table 17.6, RST_CAUSE [15:8]: RSTACT defining byte for codes 0x4 and 0x5; otherwise zero. -/
def RST_CAUSE_DETAIL : Fld := ⟨549, 8, 8, 1, 0, .ro, fun _ _ => 0⟩
/-- 17 Table 17.6, RST_CAUSE [63:16]: Treadle count in the cycle before step A1; zero after POWER_ON or when the treadle was not counting. -/
def RST_CAUSE_TR : Fld := ⟨550, 16, 48, 1, 0, .ro, fun _ _ => 0⟩
/-- 17 Table 17.7, RST_STAT [3:0]: Release step in progress, 1–7; 0xF when release is complete. -/
def RST_STAT_STEP : Fld := ⟨551, 0, 4, 1, 0, .ro, fun _ _ => 0⟩
/-- 17 Table 17.7, RST_STAT [4]: Sticky; a write was discarded for its KEY. -/
def RST_STAT_KEYERR : Fld := ⟨552, 4, 1, 1, 0, .w1c, fun _ _ => 0⟩
/-- 17 Table 17.7, RST_STAT [5]: 1 if release stopped under R589. -/
def RST_STAT_THIMBLE_FAIL : Fld := ⟨553, 5, 1, 1, 0, .ro, fun _ _ => 0⟩
/-- 17 Table 17.7, RST_STAT [15:8]: Longest delay under R591 since POWER_ON, in µs. -/
def RST_STAT_NVS_WAIT_US : Fld := ⟨554, 8, 8, 1, 0, .ro, fun _ _ => 0⟩
/-- 17 Table 17.7, RST_STAT [63:32]: Wrapping count of resets since POWER_ON, I3C_PERIPH included. -/
def RST_STAT_RESETS : Fld := ⟨555, 32, 32, 1, 0, .ro, fun _ _ => 0⟩
/-- 17 Table 17.8, RST_BLOCK [0]: Resets the WAF_ block under R593; reads 1 until done. -/
def RST_BLOCK_WAF : Fld := ⟨556, 0, 1, 1, 0, .w1s, fun _ _ => 0⟩
/-- 17 Table 17.8, RST_BLOCK [1]: Resets the CLK_ block. -/
def RST_BLOCK_CLK : Fld := ⟨557, 1, 1, 1, 0, .w1s, fun _ _ => 0⟩
/-- 17 Table 17.8, RST_BLOCK [2]: Resets the PWR_ block. -/
def RST_BLOCK_PWR : Fld := ⟨558, 2, 1, 1, 0, .w1s, fun _ _ => 0⟩
/-- 17 Table 17.8, RST_BLOCK [3]: Resets the TRD_ block. -/
def RST_BLOCK_TRD : Fld := ⟨559, 3, 1, 1, 0, .w1s, fun _ _ => 0⟩
/-- 17 Table 17.8, RST_BLOCK [4]: Resets the INT_ block, as INT_CTL.SW_RST does. -/
def RST_BLOCK_INT : Fld := ⟨560, 4, 1, 1, 0, .w1s, fun _ _ => 0⟩
/-- 17 Table 17.8, RST_BLOCK [5]: Resets the NVS_ block, delayed under R591. -/
def RST_BLOCK_NVS : Fld := ⟨561, 5, 1, 1, 0, .w1s, fun _ _ => 0⟩
/-- 17 Table 17.8, RST_BLOCK [6]: Resets the MRK_ block, as MRK_CTL.SW_RST does. -/
def RST_BLOCK_MRK : Fld := ⟨562, 6, 1, 1, 0, .w1s, fun _ _ => 0⟩
/-- 17 Table 17.8, RST_BLOCK [7]: Resets the BRG_ block; ready maps then show the functions as they are. -/
def RST_BLOCK_BRG : Fld := ⟨563, 7, 1, 1, 0, .w1s, fun _ _ => 0⟩
/-- 17 Table 17.9, RST_PINFUSE [1:0]: Code of RESET_N, R595. -/
def RST_PINFUSE_RESET_N : Fld := ⟨564, 0, 2, 1, 0, .ro, fun _ _ => 2⟩
/-- 17 Table 17.9, RST_PINFUSE [3:2]: Code of TREADLE. -/
def RST_PINFUSE_TREADLE : Fld := ⟨565, 2, 2, 1, 0, .ro, fun _ _ => 1⟩
/-- 17 Table 17.9, RST_PINFUSE [5:4]: Code of CLKOBS. -/
def RST_PINFUSE_CLKOBS : Fld := ⟨566, 4, 2, 1, 0, .ro, fun _ _ => 0⟩
/-- 17 Table 17.9, RST_PINFUSE [7:6]: Code of FAULT_N. -/
def RST_PINFUSE_FAULT_N : Fld := ⟨567, 6, 2, 1, 0, .ro, fun _ _ => 3⟩
/-- 17 Table 17.9, RST_PINFUSE [9:8]: Code of MOD_RDY. -/
def RST_PINFUSE_MOD_RDY : Fld := ⟨568, 8, 2, 1, 0, .ro, fun _ _ => 3⟩
/-- 18 Table 18.4, FLD_CUEn_B [47:0]: Treadle count at which the entry fires. -/
def FLD_CUEn_B_COUNT : Fld := ⟨569, 0, 48, 1, 0, .rw, fun _ _ => 0⟩
/-- 18 Table 18.4, FLD_CUEn_B [51:48]: Table 18.3. -/
def FLD_CUEn_B_KIND : Fld := ⟨570, 48, 4, 1, 0, .rw, fun _ _ => 0⟩
/-- 18 Table 18.4, FLD_CUEn_B [63]: 1 while armed. -/
def FLD_CUEn_B_VALID : Fld := ⟨571, 63, 1, 1, 0, .rw, fun _ _ => 0⟩
/-- 18 Table 18.5, FLD_CUESTAT [8:0]: Entries with VALID 1, 0–256. -/
def FLD_CUESTAT_ARMED : Fld := ⟨572, 0, 9, 1, 0, .ro, fun _ _ => 0⟩
/-- 18 Table 18.5, FLD_CUESTAT [9]: Sticky; a write was discarded under R618 or R619. -/
def FLD_CUESTAT_REJ : Fld := ⟨573, 9, 1, 1, 0, .w1c, fun _ _ => 0⟩
/-- 18 Table 18.5, FLD_CUESTAT [10]: Sticky; an entry fired under the passed rule of R620. -/
def FLD_CUESTAT_LATE : Fld := ⟨574, 10, 1, 1, 0, .w1c, fun _ _ => 0⟩
/-- 18 Table 18.5, FLD_CUESTAT [47:16]: Wrapping count of entries fired. -/
def FLD_CUESTAT_FIRED : Fld := ⟨575, 16, 32, 1, 0, .ro, fun _ _ => 0⟩
/-- 18 Table 18.5, FLD_CUESTAT [62:48]: Saturating count of cues under R622. -/
def FLD_CUESTAT_STALE : Fld := ⟨576, 48, 15, 1, 0, .ro, fun _ _ => 0⟩
/-- 18 Table 18.5, FLD_CUESTAT [63]: Sticky; 1 once STALE has saturated. -/
def FLD_CUESTAT_SAT : Fld := ⟨577, 63, 1, 1, 0, .w1c, fun _ _ => 0⟩
/-- 18 Table 18.6, CLK_STAT [0]: Reference within tolerance. -/
def CLK_STAT_REFOK : Fld := ⟨578, 0, 1, 1, 0, .ro, fun _ _ => 0⟩
/-- 18 Table 18.6, CLK_STAT [1]: Sticky; the reference was lost under R597. -/
def CLK_STAT_REFLOST : Fld := ⟨579, 1, 1, 1, 0, .w1c, fun _ _ => 0⟩
/-- 18 Table 18.6, CLK_STAT [3:2]: Sampled strap, R598. -/
def CLK_STAT_OSC_DLY : Fld := ⟨580, 2, 2, 1, 0, .ro, fun _ _ => 0⟩
/-- 18 Table 18.7, CLK_BLKEN [0]: 1 clocks the block; set at release step 1. -/
def CLK_BLKEN_WAF : Fld := ⟨581, 0, 1, 1, 0, .rw, fun _ _ => 0⟩
/-- 18 Table 18.7, CLK_BLKEN [1]: 1 clocks the block; set at release step 1. -/
def CLK_BLKEN_PWR : Fld := ⟨582, 1, 1, 1, 0, .rw, fun _ _ => 0⟩
/-- 18 Table 18.7, CLK_BLKEN [2]: 1 clocks the block; set at release step 1. -/
def CLK_BLKEN_TRD : Fld := ⟨583, 2, 1, 1, 0, .rw, fun _ _ => 0⟩
/-- 18 Table 18.7, CLK_BLKEN [3]: 1 clocks the block; set at release step 1. -/
def CLK_BLKEN_INT : Fld := ⟨584, 3, 1, 1, 0, .rw, fun _ _ => 0⟩
/-- 18 Table 18.7, CLK_BLKEN [4]: 1 clocks the block; set at release step 1. -/
def CLK_BLKEN_NVS : Fld := ⟨585, 4, 1, 1, 0, .rw, fun _ _ => 0⟩
/-- 18 Table 18.7, CLK_BLKEN [5]: 1 clocks the block; set at release step 1. -/
def CLK_BLKEN_THM : Fld := ⟨586, 5, 1, 1, 0, .rw, fun _ _ => 0⟩
/-- 18 Table 18.7, CLK_BLKEN [6]: 1 clocks the block; set at release step 1. -/
def CLK_BLKEN_MRK : Fld := ⟨587, 6, 1, 1, 0, .rw, fun _ _ => 0⟩
/-- 18 Table 18.7, CLK_BLKEN [7]: 1 clocks the block; set at release step 1. -/
def CLK_BLKEN_BRG : Fld := ⟨588, 7, 1, 1, 0, .rw, fun _ _ => 0⟩
/-- 18 Table 18.7, CLK_BLKEN [8]: 1 clocks the host-attach block; set at release step 6. -/
def CLK_BLKEN_CXL : Fld := ⟨589, 8, 1, 1, 0, .rw, fun _ _ => 0⟩
/-- 18 Table 18.8, CLK_PORTEN [31:0]: Bit p clocks Selvedge port p's block; set at release step 7. -/
def CLK_PORTEN_PORTS : Fld := ⟨590, 0, 32, 1, 0, .rw, fun _ _ => 0⟩
/-- 18 Table 18.9, CLK_OBS [2:0]: 0 reference; 1 oscillator; 2 field clock; 3 PLL A; 4 PLL B; 5 port word clock; 6 host link word clock; 7 reserved. -/
def CLK_OBS_SRC : Fld := ⟨591, 0, 3, 1, 0, .rw, fun _ _ => 0⟩
/-- 18 Table 18.9, CLK_OBS [8:3]: Field, for SRC 2–4. -/
def CLK_OBS_FIELD : Fld := ⟨592, 3, 6, 1, 0, .rw, fun _ _ => 0⟩
/-- 18 Table 18.9, CLK_OBS [13:9]: Port, for SRC 5. -/
def CLK_OBS_PORT : Fld := ⟨593, 9, 5, 1, 0, .rw, fun _ _ => 0⟩
/-- 18 Table 18.9, CLK_OBS [19:16]: Divide by 2^DIV. -/
def CLK_OBS_DIV : Fld := ⟨594, 16, 4, 1, 0, .rw, fun _ _ => 0⟩
/-- 18 Table 18.9, CLK_OBS [31]: 1 drives CLKOBS. -/
def CLK_OBS_EN : Fld := ⟨595, 31, 1, 1, 0, .rw, fun _ _ => 0⟩
/-- 18 Table 18.10, CLK_GATEDERR [23:0]: Saturating count of GATED errors. -/
def CLK_GATEDERR_COUNT : Fld := ⟨596, 0, 24, 1, 0, .ro, fun _ _ => 0⟩
/-- 18 Table 18.10, CLK_GATEDERR [24]: Sticky; 1 once COUNT has saturated. -/
def CLK_GATEDERR_SAT : Fld := ⟨597, 24, 1, 1, 0, .w1c, fun _ _ => 0⟩
/-- 18 Table 18.10, CLK_GATEDERR [57:32]: BAR0 offset of the last GATED access. -/
def CLK_GATEDERR_LAST : Fld := ⟨598, 32, 26, 1, 0, .ro, fun _ _ => 0⟩
/-- 18 Table 18.11, CLK_FLDf_CTL [1:0]: 0 REF; 1 PLL A; 2 PLL B. -/
def CLK_FLDf_CTL_SRC : Fld := ⟨599, 0, 2, 1, 0, .rw, fun _ _ => 0⟩
/-- 18 Table 18.11, CLK_FLDf_CTL [2]: 0 ready-flag switch; 1 stop-switch-restart. -/
def CLK_FLDf_CTL_MODE : Fld := ⟨600, 2, 1, 1, 0, .rw, fun _ _ => 0⟩
/-- 18 Table 18.11, CLK_FLDf_CTL [3]: Writing 1 requests the switch under R601. -/
def CLK_FLDf_CTL_GO : Fld := ⟨601, 3, 1, 1, 0, .wo, fun _ _ => 0⟩
/-- 18 Table 18.11, CLK_FLDf_CTL [4]: Transit tree enable; set by TRANSIT_ON. -/
def CLK_FLDf_CTL_TRN_EN : Fld := ⟨602, 4, 1, 1, 0, .rw, fun _ _ => 0⟩
/-- 18 Table 18.11, CLK_FLDf_CTL [5]: Compute tree enable; set by COMPUTE_ON, cleared by parking. -/
def CLK_FLDf_CTL_CMP_EN : Fld := ⟨603, 5, 1, 1, 0, .rw, fun _ _ => 0⟩
/-- 18 Table 18.11, CLK_FLDf_CTL [6]: Field and panel block enable; set by TRANSIT_ON. -/
def CLK_FLDf_CTL_BLK_EN : Fld := ⟨604, 6, 1, 1, 0, .rw, fun _ _ => 0⟩
/-- 18 Table 18.12, CLK_FLDf_STAT [1:0]: Active source. -/
def CLK_FLDf_STAT_ACTIVE : Fld := ⟨605, 0, 2, 1, 0, .ro, fun _ _ => 0⟩
/-- 18 Table 18.12, CLK_FLDf_STAT [2]: REF ready. -/
def CLK_FLDf_STAT_REF_RDY : Fld := ⟨606, 2, 1, 1, 0, .ro, fun _ _ => 0⟩
/-- 18 Table 18.12, CLK_FLDf_STAT [3]: PLL A locked. -/
def CLK_FLDf_STAT_PLLA_RDY : Fld := ⟨607, 3, 1, 1, 0, .ro, fun _ _ => 0⟩
/-- 18 Table 18.12, CLK_FLDf_STAT [4]: PLL B locked. -/
def CLK_FLDf_STAT_PLLB_RDY : Fld := ⟨608, 4, 1, 1, 0, .ro, fun _ _ => 0⟩
/-- 18 Table 18.12, CLK_FLDf_STAT [5]: 1 during a sequence. -/
def CLK_FLDf_STAT_SEQ_BUSY : Fld := ⟨609, 5, 1, 1, 0, .ro, fun _ _ => 0⟩
/-- 18 Table 18.12, CLK_FLDf_STAT [9:6]: Current setting; 0 while on REF. -/
def CLK_FLDf_STAT_CUR : Fld := ⟨610, 6, 4, 1, 0, .ro, fun _ _ => 0⟩
/-- 18 Table 18.12, CLK_FLDf_STAT [10]: Sticky; a switch request was refused. -/
def CLK_FLDf_STAT_REJ : Fld := ⟨611, 10, 1, 1, 0, .w1c, fun _ _ => 0⟩
/-- 18 Table 18.12, CLK_FLDf_STAT [11]: Sticky; R604 acted. -/
def CLK_FLDf_STAT_LOCKLOSS : Fld := ⟨612, 11, 1, 1, 0, .w1c, fun _ _ => 0⟩
/-- 18 Table 18.12, CLK_FLDf_STAT [12]: 1 while the sequencer holds under R609. -/
def CLK_FLDf_STAT_HOLD : Fld := ⟨613, 12, 1, 1, 0, .ro, fun _ _ => 0⟩
/-- 18 Table 18.13, CLK_FLDf_STITCH [3:0]: Requested setting, 1–8. -/
def CLK_FLDf_STITCH_TARGET : Fld := ⟨614, 0, 4, 1, 0, .rw, fun _ _ => 1⟩
/-- 18 Table 18.13, CLK_FLDf_STITCH [11:8]: Ceiling from the power block. -/
def CLK_FLDf_STITCH_CEIL : Fld := ⟨615, 8, 4, 1, 0, .ro, fun _ _ => 8⟩
/-- 18 Table 18.13, CLK_FLDf_STITCH [19:16]: Effective setting under R606. -/
def CLK_FLDf_STITCH_EFF : Fld := ⟨616, 16, 4, 1, 0, .ro, fun _ _ => 1⟩
/-- 18 Table 18.14, CLK_FLDf_SEQ [31:0]: Wrapping count of completed sequences. -/
def CLK_FLDf_SEQ_CHANGES : Fld := ⟨617, 0, 32, 1, 0, .ro, fun _ _ => 0⟩
/-- 18 Table 18.14, CLK_FLDf_SEQ [47:32]: Duration of the last sequence in µs, saturating. -/
def CLK_FLDf_SEQ_LAST_US : Fld := ⟨618, 32, 16, 1, 0, .ro, fun _ _ => 0⟩
/-- 18 Table 18.14, CLK_FLDf_CYCLES [63:0]: Wrapping count of field-clock cc delivered to the transit tree. -/
def CLK_FLDf_CYCLES_CC : Fld := ⟨619, 0, 64, 1, 0, .ro, fun _ _ => 0⟩
/-- 18 Table 18.15, TRD_CTL [0]: 0 TREADLE pin; 1 TRD_PUSH. -/
def TRD_CTL_SRC : Fld := ⟨620, 0, 1, 1, 0, .rw, fun _ _ => 0⟩
/-- 18 Table 18.15, TRD_CTL [31:16]: Stall limit in µs, R614. -/
def TRD_CTL_STALL_US : Fld := ⟨621, 16, 16, 1, 0, .rw, fun _ _ => 1000⟩
/-- 18 Table 18.15, TRD_COUNT [47:0]: Treadle count, wrapping. -/
def TRD_COUNT_COUNT : Fld := ⟨622, 0, 48, 1, 0, .ro, fun _ _ => 0⟩
/-- 18 Table 18.15, TRD_PUSH [15:0]: Ticks added by the write. -/
def TRD_PUSH_ADD : Fld := ⟨623, 0, 16, 1, 0, .wo, fun _ _ => 0⟩
/-- 18 Table 18.15, TRD_STAT [0]: 1 once the first tick has arrived. -/
def TRD_STAT_RUNNING : Fld := ⟨624, 0, 1, 1, 0, .ro, fun _ _ => 0⟩
/-- 18 Table 18.15, TRD_STAT [1]: Sticky; R614. -/
def TRD_STAT_STALLED : Fld := ⟨625, 1, 1, 1, 0, .w1c, fun _ _ => 0⟩
/-- 18 Table 18.15, TRD_STAT [2]: Sticky; R613. -/
def TRD_STAT_PUSH_REJ : Fld := ⟨626, 2, 1, 1, 0, .w1c, fun _ _ => 0⟩
/-- 18 Table 18.15, TRD_STAT [47:32]: Saturating count of ignored pulses. -/
def TRD_STAT_IGN : Fld := ⟨627, 32, 16, 1, 0, .ro, fun _ _ => 0⟩
/-- 18 Table 18.15, TRD_STAT [48]: Sticky; 1 once IGN has saturated. -/
def TRD_STAT_SAT : Fld := ⟨628, 48, 1, 1, 0, .w1c, fun _ _ => 0⟩
/-- 18 Table 18.15, TRD_INTERVAL [31:0]: Last tick interval in ns, saturating. -/
def TRD_INTERVAL_NS : Fld := ⟨629, 0, 32, 1, 0, .ro, fun _ _ => 0⟩
/-- 19 Table 19.4, PWR_CTL [0]: 1 enforces the cap; 0 under R637. -/
def PWR_CTL_EN : Fld := ⟨630, 0, 1, 1, 0, .rw, fun _ _ => 1⟩
/-- 19 Table 19.4, PWR_CTL [1]: 1 unparks thermally cleared fields under R642. -/
def PWR_CTL_AUTO_UNPARK : Fld := ⟨631, 1, 1, 1, 0, .rw, fun _ _ => 1⟩
/-- 19 Table 19.4, PWR_CTL [2]: Writing 1 resets the block under R647. -/
def PWR_CTL_SW_RST : Fld := ⟨632, 2, 1, 1, 0, .wo, fun _ _ => 0⟩
/-- 19 Table 19.4, PWR_CTL [11:8]: Trips before LOCKED, 1–15. -/
def PWR_CTL_TRIP_MAX : Fld := ⟨633, 8, 4, 1, 0, .rw, fun _ _ => 3⟩
/-- 19 Table 19.4, PWR_CAP [19:0]: Host cap in W, 1,000–40,000. -/
def PWR_CAP_HOST : Fld := ⟨634, 0, 20, 1, 0, .rw, fun _ _ => 40000⟩
/-- 19 Table 19.4, PWR_CAP [39:20]: Rack cap in W, written over I3C. -/
def PWR_CAP_RACK : Fld := ⟨635, 20, 20, 1, 0, .ro, fun _ _ => 40000⟩
/-- 19 Table 19.4, PWR_CAP [59:40]: Effective cap of R631. -/
def PWR_CAP_EFF : Fld := ⟨636, 40, 20, 1, 0, .ro, fun _ _ => 40000⟩
/-- 19 Table 19.5, PWR_MEAS [19:0]: Mean input power over the latest 200 µs, in W. -/
def PWR_MEAS_AVG_W : Fld := ⟨637, 0, 20, 1, 0, .ro, fun _ _ => 0⟩
/-- 19 Table 19.5, PWR_MEAS [35:20]: Input voltage in mV. -/
def PWR_MEAS_VIN_MV : Fld := ⟨638, 20, 16, 1, 0, .ro, fun _ _ => 0⟩
/-- 19 Table 19.5, PWR_MEAS [45:36]: Input current in A. -/
def PWR_MEAS_IIN_A : Fld := ⟨639, 36, 10, 1, 0, .ro, fun _ _ => 0⟩
/-- 19 Table 19.5, PWR_HYST [15:0]: Hysteresis of R635 in W. -/
def PWR_HYST_W : Fld := ⟨640, 0, 16, 1, 0, .rw, fun _ _ => 500⟩
/-- 19 Table 19.6, PWR_STAT [6:0]: Current level, 0 to 7 + N. -/
def PWR_STAT_LEVEL : Fld := ⟨641, 0, 7, 1, 0, .ro, fun _ _ => 0⟩
/-- 19 Table 19.6, PWR_STAT [11:8]: Wafer ceiling. -/
def PWR_STAT_W : Fld := ⟨642, 8, 4, 1, 0, .ro, fun _ _ => 8⟩
/-- 19 Table 19.6, PWR_STAT [12]: R636. -/
def PWR_STAT_UNATTAIN : Fld := ⟨643, 12, 1, 1, 0, .ro, fun _ _ => 0⟩
/-- 19 Table 19.6, PWR_STAT [13]: 1 while FAULT_N is low. -/
def PWR_STAT_FAULT : Fld := ⟨644, 13, 1, 1, 0, .ro, fun _ _ => 0⟩
/-- 19 Table 19.6, PWR_STAT [22:16]: Fields parked for any reason. -/
def PWR_STAT_PARKED : Fld := ⟨645, 16, 7, 1, 0, .ro, fun _ _ => 0⟩
/-- 19 Table 19.6, PWR_STAT [47:24]: model(LEVEL) + offset, in W, clamped at zero. -/
def PWR_STAT_MODEL_W : Fld := ⟨646, 24, 24, 1, 0, .ro, fun _ _ => 0⟩
/-- 19 Table 19.7, PWR_THERM [7:0]: Warning threshold, 95 °C. -/
def PWR_THERM_WARN : Fld := ⟨647, 0, 8, 1, 0, .rw, fun _ _ => 95⟩
/-- 19 Table 19.7, PWR_THERM [15:8]: Critical threshold, 105 °C. -/
def PWR_THERM_CRIT : Fld := ⟨648, 8, 8, 1, 0, .rw, fun _ _ => 105⟩
/-- 19 Table 19.7, PWR_THERM [23:16]: Shutdown threshold, 115 °C. -/
def PWR_THERM_SHUT : Fld := ⟨649, 16, 8, 1, 0, .rw, fun _ _ => 115⟩
/-- 19 Table 19.7, PWR_THERM [31:24]: Hysteresis in °C. -/
def PWR_THERM_HYST : Fld := ⟨650, 24, 8, 1, 0, .rw, fun _ _ => 5⟩
/-- 19 Table 19.7, PWR_PARK_ORDERn [8b+5:8b]: Field of park-order entry 8n + b, b = 0–7. -/
def PWR_PARK_ORDERn_FIELDb : Fld := ⟨651, 0, 6, 8, 8, .rw, fun _ _ => 0⟩
/-- 19 Table 19.7, PWR_PARK_ORDERn [8b+7]: 1 if the entry is in use; entries after the first invalid one are ignored. -/
def PWR_PARK_ORDERn_VALIDb : Fld := ⟨652, 7, 1, 8, 8, .rw, fun _ _ => 0⟩
/-- 19 Table 19.7, PWR_DOMSTATn [63:0]: Bit i is 1 if domain 64n + i of Table 19.1 is on. -/
def PWR_DOMSTATn_ON : Fld := ⟨653, 0, 64, 1, 0, .ro, fun _ _ => 0⟩
/-- 19 Table 19.8, PWR_THR_TRr [47:0]: Saturating tr during which reason r was active. -/
def PWR_THR_TRr_TR : Fld := ⟨654, 0, 48, 1, 0, .ro, fun _ _ => 0⟩
/-- 19 Table 19.8, PWR_THR_TRr [48]: Sticky; 1 once TR has saturated. -/
def PWR_THR_TRr_SAT : Fld := ⟨655, 48, 1, 1, 0, .w1c, fun _ _ => 0⟩
/-- 19 Table 19.8, PWR_THR_USr [47:0]: Saturating µs during which reason r was active. -/
def PWR_THR_USr_US : Fld := ⟨656, 0, 48, 1, 0, .ro, fun _ _ => 0⟩
/-- 19 Table 19.8, PWR_THR_USr [48]: Sticky; 1 once US has saturated. -/
def PWR_THR_USr_SAT : Fld := ⟨657, 48, 1, 1, 0, .w1c, fun _ _ => 0⟩
/-- 19 Table 19.9, PWR_FLDf_CTL [0]: 1 parks the field with reason HOST; 0 clears that reason. -/
def PWR_FLDf_CTL_PARK : Fld := ⟨658, 0, 1, 1, 0, .rw, fun _ _ => 0⟩
/-- 19 Table 19.9, PWR_FLDf_CTL [1]: Writing 1 clears TRIP under R643. -/
def PWR_FLDf_CTL_CLR_TRIP : Fld := ⟨659, 1, 1, 1, 0, .wo, fun _ _ => 0⟩
/-- 19 Table 19.9, PWR_FLDf_CTL [2]: Writing 1 unparks a field with no reason set. -/
def PWR_FLDf_CTL_UNPARK : Fld := ⟨660, 2, 1, 1, 0, .wo, fun _ _ => 0⟩
/-- 19 Table 19.9, PWR_FLDf_STAT [5:0]: Bit 0 CAP; 1 WARN; 2 CRIT; 3 TRIP; 4 HOST; 5 SHUT. -/
def PWR_FLDf_STAT_REASON : Fld := ⟨661, 0, 6, 1, 0, .ro, fun _ _ => 0⟩
/-- 19 Table 19.9, PWR_FLDf_STAT [11:8]: Thermal ceiling. -/
def PWR_FLDf_STAT_TCEIL : Fld := ⟨662, 8, 4, 1, 0, .ro, fun _ _ => 8⟩
/-- 19 Table 19.9, PWR_FLDf_STAT [19:12]: Field temperature in °C. -/
def PWR_FLDf_STAT_TEMP : Fld := ⟨663, 12, 8, 1, 0, .ro, fun _ _ => 0⟩
/-- 19 Table 19.9, PWR_FLDf_STAT [23:20]: Trips since POWER_ON, saturating. -/
def PWR_FLDf_STAT_TRIPS : Fld := ⟨664, 20, 4, 1, 0, .ro, fun _ _ => 0⟩
/-- 19 Table 19.9, PWR_FLDf_STAT [24]: 1 once TRIPS reached TRIP_MAX. -/
def PWR_FLDf_STAT_LOCKED : Fld := ⟨665, 24, 1, 1, 0, .ro, fun _ _ => 0⟩
/-- 19 Table 19.9, PWR_FLDf_VOLT [15:0]: Programmed voltage of the current setting, mV. -/
def PWR_FLDf_VOLT_PROG_MV : Fld := ⟨666, 0, 16, 1, 0, .ro, fun _ _ => 0⟩
/-- 19 Table 19.9, PWR_FLDf_VOLT [31:16]: Characterised minimum for the current setting, mV. -/
def PWR_FLDf_VOLT_MIN_MV : Fld := ⟨667, 16, 16, 1, 0, .ro, fun _ _ => 0⟩
/-- 20 Table 20.8, NVS_CTL [0]: Writing 1 resets the block's counters, delayed under R591. -/
def NVS_CTL_SW_RST : Fld := ⟨668, 0, 1, 1, 0, .wo, fun _ _ => 0⟩
/-- 20 Table 20.8, NVS_CTL [1]: Writing 1 queues every section whose DIRTY is 1. -/
def NVS_CTL_FLUSH : Fld := ⟨669, 1, 1, 1, 0, .wo, fun _ _ => 0⟩
/-- 20 Table 20.8, NVS_STAT [0]: 1 once release step 2 is done. -/
def NVS_STAT_LOADED : Fld := ⟨670, 0, 1, 1, 0, .ro, fun _ _ => 0⟩
/-- 20 Table 20.8, NVS_STAT [1]: 1 while a write runs. -/
def NVS_STAT_BUSY : Fld := ⟨671, 1, 1, 1, 0, .ro, fun _ _ => 0⟩
/-- 20 Table 20.8, NVS_STAT [2]: R665. -/
def NVS_STAT_LOSS : Fld := ⟨672, 2, 1, 1, 0, .ro, fun _ _ => 0⟩
/-- 20 Table 20.8, NVS_STAT [3]: Sticky; R661. -/
def NVS_STAT_EQSEQ : Fld := ⟨673, 3, 1, 1, 0, .w1c, fun _ _ => 0⟩
/-- 20 Table 20.8, NVS_STAT [4]: LIFE was loaded as zero. -/
def NVS_STAT_LIFE_LOST : Fld := ⟨674, 4, 1, 1, 0, .ro, fun _ _ => 0⟩
/-- 20 Table 20.8, NVS_STAT [10:8]: Section being written; 0 none. -/
def NVS_STAT_SECT : Fld := ⟨675, 8, 3, 1, 0, .ro, fun _ _ => 0⟩
/-- 20 Table 20.8, NVS_STAT [63:32]: Wrapping count of durable writes. -/
def NVS_STAT_WRITES : Fld := ⟨676, 32, 32, 1, 0, .ro, fun _ _ => 0⟩
/-- 20 Table 20.9, NVS_SECTk [0]: Bank A copy valid. -/
def NVS_SECTk_A_VALID : Fld := ⟨677, 0, 1, 1, 0, .ro, fun _ _ => 0⟩
/-- 20 Table 20.9, NVS_SECTk [1]: Bank B copy valid. -/
def NVS_SECTk_B_VALID : Fld := ⟨678, 1, 1, 1, 0, .ro, fun _ _ => 0⟩
/-- 20 Table 20.9, NVS_SECTk [2]: Winning copy: 0 A, 1 B. -/
def NVS_SECTk_NEWER : Fld := ⟨679, 2, 1, 1, 0, .ro, fun _ _ => 0⟩
/-- 20 Table 20.9, NVS_SECTk [3]: Both copies blank at load. -/
def NVS_SECTk_BLANK : Fld := ⟨680, 3, 1, 1, 0, .ro, fun _ _ => 0⟩
/-- 20 Table 20.9, NVS_SECTk [4]: Contents changed and not yet durable. -/
def NVS_SECTk_DIRTY : Fld := ⟨681, 4, 1, 1, 0, .ro, fun _ _ => 0⟩
/-- 20 Table 20.9, NVS_SECTk [63:32]: SEQ of the winning copy. -/
def NVS_SECTk_SEQ : Fld := ⟨682, 32, 32, 1, 0, .ro, fun _ _ => 0⟩
/-- 20 Table 20.10, THM_STAT [0]: Firmware running under R652. -/
def THM_STAT_VERIFIED : Fld := ⟨683, 0, 1, 1, 0, .ro, fun _ _ => 0⟩
/-- 20 Table 20.10, THM_STAT [1]: Running slot. -/
def THM_STAT_SLOT : Fld := ⟨684, 1, 1, 1, 0, .ro, fun _ _ => 0⟩
/-- 20 Table 20.10, THM_STAT [2]: The higher-version slot failed its checks. -/
def THM_STAT_FALLBACK : Fld := ⟨685, 2, 1, 1, 0, .ro, fun _ _ => 0⟩
/-- 20 Table 20.10, THM_STAT [3]: Alias key and certificate ready. -/
def THM_STAT_ALIAS : Fld := ⟨686, 3, 1, 1, 0, .ro, fun _ _ => 0⟩
/-- 20 Table 20.10, THM_STAT [8:4]: Open SPDM sessions, 0–16. -/
def THM_STAT_SESSIONS : Fld := ⟨687, 4, 5, 1, 0, .ro, fun _ _ => 0⟩
/-- 20 Table 20.10, THM_STAT [63:32]: Running VERSION. -/
def THM_STAT_VERSION : Fld := ⟨688, 32, 32, 1, 0, .ro, fun _ _ => 0⟩
/-- 20 Table 20.10, THM_MINVER [31:0]: Lowest permitted VERSION. -/
def THM_MINVER_MIN : Fld := ⟨689, 0, 32, 1, 0, .ro, fun _ _ => 0⟩
/-- 20 Table 20.11, THM_FWSLOTn [0]: Slot passed R651. -/
def THM_FWSLOTn_VALID : Fld := ⟨690, 0, 1, 1, 0, .ro, fun _ _ => 0⟩
/-- 20 Table 20.11, THM_FWSLOTn [1]: Slot is running. -/
def THM_FWSLOTn_RUNNING : Fld := ⟨691, 1, 1, 1, 0, .ro, fun _ _ => 0⟩
/-- 20 Table 20.11, THM_FWSLOTn [63:32]: VERSION in the header; zero if unreadable. -/
def THM_FWSLOTn_VERSION : Fld := ⟨692, 32, 32, 1, 0, .ro, fun _ _ => 0⟩
/-- 20 Table 20.12, THM_UPD_CMD [1:0]: 1 CHUNK; 2 FINISH; 3 RAISE_MINVER. -/
def THM_UPD_CMD_OP : Fld := ⟨693, 0, 2, 1, 0, .rw, fun _ _ => 0⟩
/-- 20 Table 20.12, THM_UPD_CMD [21:12]: Chunk offset in the slot, in 4 KiB. -/
def THM_UPD_CMD_OFFSET : Fld := ⟨694, 12, 10, 1, 0, .rw, fun _ _ => 0⟩
/-- 20 Table 20.12, THM_UPD_CMD [63]: Writing 1 starts OP on the slot not running. -/
def THM_UPD_CMD_GO : Fld := ⟨695, 63, 1, 1, 0, .wo, fun _ _ => 0⟩
/-- 20 Table 20.12, THM_UPD_STAT [0]: 1 while an operation runs. -/
def THM_UPD_STAT_BUSY : Fld := ⟨696, 0, 1, 1, 0, .ro, fun _ _ => 0⟩
/-- 20 Table 20.12, THM_UPD_STAT [1]: Set when an operation ends. -/
def THM_UPD_STAT_DONE : Fld := ⟨697, 1, 1, 1, 0, .w1c, fun _ _ => 0⟩
/-- 20 Table 20.12, THM_UPD_STAT [2]: Sticky; an operation failed. -/
def THM_UPD_STAT_ERR : Fld := ⟨698, 2, 1, 1, 0, .w1c, fun _ _ => 0⟩
/-- 20 Table 20.12, THM_UPD_STAT [7:4]: 1 busy or undefined OP; 2 offset past 4 MiB; 3 check n of R651 failed at FINISH, code 2 + n. -/
def THM_UPD_STAT_ERRCODE : Fld := ⟨699, 4, 4, 1, 0, .ro, fun _ _ => 0⟩
/-- 21 Table 21.9, MGT_CTL [0]: Writing 1 resets the registers under R684. -/
def MGT_CTL_SW_RST : Fld := ⟨700, 0, 1, 1, 0, .wo, fun _ _ => 0⟩
/-- 21 Table 21.9, MGT_STAT [0]: 1 while the module holds a dynamic address. -/
def MGT_STAT_DA_VALID : Fld := ⟨701, 0, 1, 1, 0, .ro, fun _ _ => 0⟩
/-- 21 Table 21.9, MGT_STAT [7:1]: Dynamic address. -/
def MGT_STAT_DA : Fld := ⟨702, 1, 7, 1, 0, .ro, fun _ _ => 0⟩
/-- 21 Table 21.9, MGT_STAT [8]: 1 while ENEC has enabled IBIs. -/
def MGT_STAT_IBI_EN : Fld := ⟨703, 8, 1, 1, 0, .ro, fun _ _ => 0⟩
/-- 21 Table 21.9, MGT_STAT [9]: R681; cleared by SET_CAP. -/
def MGT_STAT_CAP_LOST : Fld := ⟨704, 9, 1, 1, 0, .ro, fun _ _ => 0⟩
/-- 21 Table 21.9, MGT_STAT [10]: 1 if the ID came from the fused copy. -/
def MGT_STAT_PID_FUSED : Fld := ⟨705, 10, 1, 1, 0, .ro, fun _ _ => 0⟩
/-- 21 Table 21.9, MGT_STAT [47:16]: Wrapping count of MGT commands received. -/
def MGT_STAT_CMDS : Fld := ⟨706, 16, 32, 1, 0, .ro, fun _ _ => 0⟩
/-- 21 Table 21.10, MGT_PID [47:0]: Provisioned ID. -/
def MGT_PID_PID : Fld := ⟨707, 0, 48, 1, 0, .ro, fun _ _ => 0⟩
/-- 21 Table 21.10, MGT_PID [55:48]: Bus characteristics. -/
def MGT_PID_BCR : Fld := ⟨708, 48, 8, 1, 0, .ro, fun _ _ => 38⟩
/-- 21 Table 21.10, MGT_PID [63:56]: Device characteristics. -/
def MGT_PID_DCR : Fld := ⟨709, 56, 8, 1, 0, .ro, fun _ _ => 0⟩
/-- 21 Table 21.11, MGT_ARBCFG [9:0]: Beats, 4–1,023. -/
def MGT_ARBCFG_WAIT_LIMIT : Fld := ⟨710, 0, 10, 1, 0, .rw, fun _ _ => 32⟩
/-- 21 Table 21.11, MGT_ARBCFG [21:16]: Beats per lock, 1–63. -/
def MGT_ARBCFG_LOCK_MAX : Fld := ⟨711, 16, 6, 1, 0, .rw, fun _ _ => 8⟩
/-- 21 Table 21.11, MGT_RANK [2q+1:2q]: Rank of requester q, 0–3. -/
def MGT_RANK_RANKq : Fld := ⟨712, 0, 2, 8, 2, .rw, fun _ n => if n < 2 then 0 else if n < 4 then 1 else 2⟩
/-- 21 Table 21.12, MGT_ARBSTAT [23:0]: Saturating count of grants under rule 2 of R682. -/
def MGT_ARBSTAT_FORCED : Fld := ⟨713, 0, 24, 1, 0, .ro, fun _ _ => 0⟩
/-- 21 Table 21.12, MGT_ARBSTAT [47:24]: Saturating count of locks ended by LOCK_MAX. -/
def MGT_ARBSTAT_LOCKMAX : Fld := ⟨714, 24, 24, 1, 0, .ro, fun _ _ => 0⟩
/-- 21 Table 21.12, MGT_ARBSTAT [48]: Sticky; 1 once a count has saturated. -/
def MGT_ARBSTAT_SAT : Fld := ⟨715, 48, 1, 1, 0, .w1c, fun _ _ => 0⟩
/-- 21 Table 21.12, MGT_COOLANT [15:0]: Inlet temperature in 0.1 °C. -/
def MGT_COOLANT_INLET : Fld := ⟨716, 0, 16, 1, 0, .ro, fun _ _ => 0⟩
/-- 21 Table 21.12, MGT_COOLANT [31:16]: Outlet temperature in 0.1 °C. -/
def MGT_COOLANT_OUTLET : Fld := ⟨717, 16, 16, 1, 0, .ro, fun _ _ => 0⟩
/-- 18 Table 18.3, FLD_CUEn_A [63:0]: Cue entry word A, by Table 18.3. -/
def FLD_CUEn_A_CUE : Fld := ⟨718, 0, 64, 1, 0, .rw, fun _ _ => 0⟩

end F

/-- Fields below this number belong to a core's window. -/
def coreFieldCount : Nat := 244

/-- The fields of each register, as its table lists them. -/
def Reg.fields : Reg → List Fld
  | .CORE_ID => [F.CORE_ID_LCN, F.CORE_ID_BACKED, F.CORE_ID_RELOCATED]
  | .CORE_CTL => [F.CORE_CTL_CLK_EN, F.CORE_CTL_SW_RST, F.CORE_CTL_GATE_EN, F.CORE_CTL_HALT, F.CORE_CTL_RESUME]
  | .CORE_THSTATE => [F.CORE_THSTATE_STATE_n]
  | .CORE_TAGCFG => [F.CORE_TAGCFG_THREAD_MAX, F.CORE_TAGCFG_TIMEOUT_EXP]
  | .CORE_TAGSTAT => [F.CORE_TAGSTAT_FREE, F.CORE_TAGSTAT_HELD_n]
  | .CORE_ACC_OWN => [F.CORE_ACC_OWN_OWNER_k]
  | .CORE_TAGSTALL => [F.CORE_TAGSTALL_STALL_CC, F.CORE_TAGSTALL_SAT]
  | .CORE_BANKCONF => [F.CORE_BANKCONF_LOST, F.CORE_BANKCONF_SAT]
  | .CORE_CYCLES => [F.CORE_CYCLES_CC]
  | .CORE_STAT => [F.CORE_STAT_ISTORE_REJ, F.CORE_STAT_DBG_REJ, F.CORE_STAT_TIMEOUT, F.CORE_STAT_LATE_SAT, F.CORE_STAT_STOPPED_ERR, F.CORE_STAT_LATE_RESP]
  | .CORE_DBG => [F.CORE_DBG_VIEW]
  | .CORE_TH_PCn => [F.CORE_TH_PCn_PC]
  | .CORE_TH_RETn => [F.CORE_TH_RETn_RETIRED]
  | .CORE_TH_WAITn => [F.CORE_TH_WAITn_TACK, F.CORE_TH_WAITn_STALL]
  | .CORE_TRAP_ADDRn => [F.CORE_TRAP_ADDRn_ADDR]
  | .CORE_TRAPCTL => [F.CORE_TRAPCTL_STOP_CORE, F.CORE_TRAPCTL_EVT_EN]
  | .CORE_TRAPn => [F.CORE_TRAPn_CAUSE, F.CORE_TRAPn_SUB, F.CORE_TRAPn_RESP, F.CORE_TRAPn_MULTI, F.CORE_TRAPn_VALID, F.CORE_TRAPn_PC, F.CORE_TRAPn_INFO]
  | .CORE_TSTAT => [F.CORE_TSTAT_NV, F.CORE_TSTAT_OF, F.CORE_TSTAT_FLUSH, F.CORE_TSTAT_LOWINEX, F.CORE_TSTAT_INTWRAP, F.CORE_TSTAT_CVTSAT, F.CORE_TSTAT_SRC]
  | .CORE_TBUSY => [F.CORE_TBUSY_BUSY, F.CORE_TBUSY_SAT]
  | .CORE_TQFULL => [F.CORE_TQFULL_STALL_CC, F.CORE_TQFULL_SAT]
  | .CORE_FMTCTL => [F.CORE_FMTCTL_FP8_SAT, F.CORE_FMTCTL_CLAMP, F.CORE_FMTCTL_NANLOST, F.CORE_FMTCTL_SRC]
  | .CORE_SRSEED => [F.CORE_SRSEED_SEED]
  | .CORE_SRCMD => [F.CORE_SRCMD_RESEED, F.CORE_SRCMD_REJ]
  | .CORE_SRDRAWS => [F.CORE_SRDRAWS_DRAWS]
  | .CORE_SRLANEl => [F.CORE_SRLANEl_STATE]
  | .SPX_DROP => [F.SPX_DROP_IDX, F.SPX_DROP_CODE, F.SPX_DROP_SAT, F.SPX_DROP_SRC]
  | .SPX_PASSES => [F.SPX_PASSES_PASSES, F.SPX_PASSES_SAT]
  | .SPX_POS => [F.SPX_POS_POS, F.SPX_POS_SAT]
  | .SPX_CMP_CMD => [F.SPX_CMP_CMD_SRC, F.SPX_CMP_CMD_DST, F.SPX_CMP_CMD_SPAN, F.SPX_CMP_CMD_FMT, F.SPX_CMP_CMD_PRUNE24, F.SPX_CMP_CMD_TACK, F.SPX_CMP_CMD_HDR16, F.SPX_CMP_CMD_GO]
  | .SPX_CMP_STAT => [F.SPX_CMP_STAT_BUSY, F.SPX_CMP_STAT_DONE, F.SPX_CMP_STAT_ERR, F.SPX_CMP_STAT_REJ, F.SPX_CMP_STAT_DENSE, F.SPX_CMP_STAT_PRUNED, F.SPX_CMP_STAT_PRESENT, F.SPX_CMP_STAT_ERRCODE]
  | .SPX_SEL_CMD => [F.SPX_SEL_CMD_SCORE, F.SPX_SEL_CMD_IDX, F.SPX_SEL_CMD_GROUPS, F.SPX_SEL_CMD_N, F.SPX_SEL_CMD_SFMT, F.SPX_SEL_CMD_TOPN, F.SPX_SEL_CMD_GATHER, F.SPX_SEL_CMD_TACK, F.SPX_SEL_CMD_HDR16, F.SPX_SEL_CMD_GO]
  | .SPX_SEL_THR => [F.SPX_SEL_THR_THR]
  | .SPX_GATHER_SRC => [F.SPX_GATHER_SRC_ADDR]
  | .SPX_GATHER_CFG => [F.SPX_GATHER_CFG_GSTRIDE, F.SPX_GATHER_CFG_TPG, F.SPX_GATHER_CFG_DST]
  | .SPX_SEL_STAT => [F.SPX_SEL_STAT_BUSY, F.SPX_SEL_STAT_DONE, F.SPX_SEL_STAT_ERR, F.SPX_SEL_STAT_REJ, F.SPX_SEL_STAT_GFAIL, F.SPX_SEL_STAT_SELECTED, F.SPX_SEL_STAT_ERRCODE]
  | .FAB_TREEn_A => [F.FAB_TREEn_A_TREE, F.FAB_TREEn_A_KIND, F.FAB_TREEn_A_SIDE, F.FAB_TREEn_A_NCHILD, F.FAB_TREEn_A_FMT, F.FAB_TREEn_A_PARENT]
  | .FAB_TREEn_B => [F.FAB_TREEn_B_STEP, F.FAB_TREEn_B_DST_TILE, F.FAB_TREEn_B_TILES, F.FAB_TREEn_B_TACK]
  | .FAB_WIN => [F.FAB_WIN_W, F.FAB_WIN_OUT, F.FAB_WIN_MARKS, F.FAB_WIN_SAT]
  | .FAB_NICHK => [F.FAB_NICHK_CHKFAIL, F.FAB_NICHK_MISROUTE, F.FAB_NICHK_MISS, F.FAB_NICHK_SAT]
  | .BOB_STAT => [F.BOB_STAT_HELD, F.BOB_STAT_FREE_EMPTY, F.BOB_STAT_LOCAL_BLOCK, F.BOB_STAT_PLACED]
  | .BOB_HELDCC => [F.BOB_HELDCC_CC, F.BOB_HELDCC_SAT]
  | .SPL_SRC => [F.SPL_SRC_ADDR]
  | .SPL_DST => [F.SPL_DST_ADDR]
  | .SPL_CMD => [F.SPL_CMD_TILES, F.SPL_CMD_TACK, F.SPL_CMD_GO]
  | .SPL_STAT => [F.SPL_STAT_POSTED, F.SPL_STAT_REJ, F.SPL_STAT_FAIL, F.SPL_STAT_ERR, F.SPL_STAT_ERRCODE]
  | .TACK_STATEn => [F.TACK_STATEn_VALUE, F.TACK_STATEn_WAITERS, F.TACK_STATEn_LKIND, F.TACK_STATEn_SIGNALLED, F.TACK_STATEn_LTID]
  | .TACK_WAITt => [F.TACK_WAITt_OPERAND, F.TACK_WAITt_EQ, F.TACK_WAITt_VALID]
  | .BOB_HANDLERn => [F.BOB_HANDLERn_ADDR, F.BOB_HANDLERn_VALID]
  | .CORE_QENDe_A => [F.CORE_QENDe_A_QNUM, F.CORE_QENDe_A_ROLE, F.CORE_QENDe_A_ESIZE, F.CORE_QENDe_A_VALID, F.CORE_QENDe_A_DEPTH, F.CORE_QENDe_A_FTACK, F.CORE_QENDe_A_CTACK, F.CORE_QENDe_A_RING, F.CORE_QENDe_A_PEER]
  | .CORE_QENDe_B => [F.CORE_QENDe_B_WAIT_CC, F.CORE_QENDe_B_HELD_CC, F.CORE_QENDe_B_OCC, F.CORE_QENDe_B_SAT]
  | .CORE_STEERu_A => [F.CORE_STEERu_A_CTL, F.CORE_STEERu_A_DATA, F.CORE_STEERu_A_OUT0, F.CORE_STEERu_A_DROP0, F.CORE_STEERu_A_OUT1, F.CORE_STEERu_A_DROP1, F.CORE_STEERu_A_TOKBIT, F.CORE_STEERu_A_VALID, F.CORE_STEERu_A_BUSY, F.CORE_STEERu_A_PAIRS]
  | .CORE_STEERu_B => [F.CORE_STEERu_B_WAIT_IN, F.CORE_STEERu_B_WAIT_OUT, F.CORE_STEERu_B_SAT]
  | .CORE_PAT_CTL => [F.CORE_PAT_CTL_SLOT, F.CORE_PAT_CTL_FORCE, F.CORE_PAT_CTL_GO]
  | .CORE_PAT_LOAD => [F.CORE_PAT_LOAD_SRC, F.CORE_PAT_LOAD_SLOT, F.CORE_PAT_LOAD_TACK, F.CORE_PAT_LOAD_GO]
  | .CORE_PAT_STAT => [F.CORE_PAT_STAT_VALID, F.CORE_PAT_STAT_ACTIVE, F.CORE_PAT_STAT_ACT, F.CORE_PAT_STAT_PENDING, F.CORE_PAT_STAT_SWITCHING, F.CORE_PAT_STAT_LOADING, F.CORE_PAT_STAT_REJ, F.CORE_PAT_STAT_LATE, F.CORE_PAT_STAT_FORCED, F.CORE_PAT_STAT_LDONE, F.CORE_PAT_STAT_LERR, F.CORE_PAT_STAT_CUEREJ, F.CORE_PAT_STAT_SWITCHES]
  | .CORE_PAT_SWCC => [F.CORE_PAT_SWCC_LAST_WAIT, F.CORE_PAT_SWCC_MAX_WAIT]
  | .CORE_PAT_THSTALLn => [F.CORE_PAT_THSTALLn_QWAIT_CC, F.CORE_PAT_THSTALLn_STALL_CC, F.CORE_PAT_THSTALLn_SAT]
  | .CORE_RING_CFG => [F.CORE_RING_CFG_RING, F.CORE_RING_CFG_VALID, F.CORE_RING_CFG_REP, F.CORE_RING_CFG_NREP]
  | .CORE_RING_LAYOUT => [F.CORE_RING_LAYOUT_GRAD, F.CORE_RING_LAYOUT_S, F.CORE_RING_LAYOUT_ERR0, F.CORE_RING_LAYOUT_ERR1, F.CORE_RING_LAYOUT_INBOX, F.CORE_RING_LAYOUT_EFMT, F.CORE_RING_LAYOUT_WTS, F.CORE_RING_LAYOUT_SW]
  | .CORE_RING_TACKS => [F.CORE_RING_TACKS_INBOX_TACK, F.CORE_RING_TACKS_VERDICT_TACK, F.CORE_RING_TACKS_SHARE_TACK]
  | .CORE_RING_CMD => [F.CORE_RING_CMD_OP, F.CORE_RING_CMD_ATTEMPT, F.CORE_RING_CMD_GO]
  | .CORE_RING_STAT => [F.CORE_RING_STAT_STATE, F.CORE_RING_STAT_VERDICT, F.CORE_RING_STAT_CUR, F.CORE_RING_STAT_REJ, F.CORE_RING_STAT_BAD, F.CORE_RING_STAT_EXC_OVF, F.CORE_RING_STAT_SHFAIL, F.CORE_RING_STAT_ERRCODE, F.CORE_RING_STAT_ATTEMPT]
  | .CORE_RING_SUMSTAT => [F.CORE_RING_SUMSTAT_NAN, F.CORE_RING_SUMSTAT_INF]
  | .INT_CSUMSTAT => [F.INT_CSUMSTAT_BADTILES, F.INT_CSUMSTAT_DETECT, F.INT_CSUMSTAT_COUNTED, F.INT_CSUMSTAT_PARITY, F.INT_CSUMSTAT_STEER_HALT, F.INT_CSUMSTAT_SAT]
  | .INT_CSUMLAST => [F.INT_CSUMLAST_TILE, F.INT_CSUMLAST_CAUSE, F.INT_CSUMLAST_TR]
  | .INT_DUPSTAT => [F.INT_DUPSTAT_DUP, F.INT_DUPSTAT_SHADOW, F.INT_DUPSTAT_PARTNER, F.INT_DUPSTAT_MISMATCH]
  | .INT_BADMAPw => [F.INT_BADMAPw_BAD]
  | .WAF_GEOM => [F.WAF_GEOM_FIELDS_X, F.WAF_GEOM_FIELDS_Y, F.WAF_GEOM_PANELS, F.WAF_GEOM_ROWS, F.WAF_GEOM_CORES, F.WAF_GEOM_SPARES]
  | .WAF_CORES => [F.WAF_CORES_WORKING, F.WAF_CORES_FREE_GUSSET_ROWS, F.WAF_CORES_RELOCATED_ROWS]
  | .WAF_GUSSET_MAP => [F.WAF_GUSSET_MAP_MAP]
  | .FLD_ID => [F.FLD_ID_FX, F.FLD_ID_FY, F.FLD_ID_GUSSET, F.FLD_ID_PARKED, F.FLD_ID_HOLE]
  | .PNL_ROWSTAT => [F.PNL_ROWSTAT_SPARES_USED_k, F.PNL_ROWSTAT_RELOCATED_k, F.PNL_ROWSTAT_HOSTING_k]
  | .PNL_RELOCn => [F.PNL_RELOCn_LROW, F.PNL_RELOCn_FX, F.PNL_RELOCn_GFX, F.PNL_RELOCn_GFY, F.PNL_RELOCn_GROW, F.PNL_RELOCn_VALID]
  | .MRK_CTL => [F.MRK_CTL_ENABLE, F.MRK_CTL_SW_RST, F.MRK_CTL_PAUSE, F.MRK_CTL_MIG_EN]
  | .MRK_STAT => [F.MRK_STAT_SLOTS_USED, F.MRK_STAT_BUSY, F.MRK_STAT_PAUSED, F.MRK_STAT_LAST_ID, F.MRK_STAT_ACCEPTED]
  | .MRK_SPLIT_THRESH => [F.MRK_SPLIT_THRESH_THRESH]
  | .MRK_REJECT => [F.MRK_REJECT_REASON, F.MRK_REJECT_LD, F.MRK_REJECT_REJECTS]
  | .MRK_MIGRATE => [F.MRK_MIGRATE_FIELD, F.MRK_MIGRATE_GO]
  | .MRK_MIG_STAT => [F.MRK_MIG_STAT_BUSY, F.MRK_MIG_STAT_FAIL, F.MRK_MIG_STAT_DONE, F.MRK_MIG_STAT_FIELD, F.MRK_MIG_STAT_LAST_US]
  | .MRK_PLACE_US => [F.MRK_PLACE_US_LAST, F.MRK_PLACE_US_MAX]
  | .MRK_RELOC_BITMAPw => [F.MRK_RELOC_BITMAPw_BITS]
  | .FAB_CTL => [F.FAB_CTL_MARK_EN, F.FAB_CTL_WIN_EN, F.FAB_CTL_RETRY_EN, F.FAB_CTL_SW_RST]
  | .FAB_MARK_THRESH => [F.FAB_MARK_THRESH_VC1, F.FAB_MARK_THRESH_VC2]
  | .FAB_WINCFG => [F.FAB_WINCFG_W_MAX, F.FAB_WINCFG_W_MIN]
  | .FAB_RETRYCFG => [F.FAB_RETRYCFG_REPLAY_MAX, F.FAB_RETRYCFG_RETRAIN_MAX, F.FAB_RETRYCFG_EPISODE_MAX]
  | .FAB_SEAMSTATs => [F.FAB_SEAMSTATs_RETRYING, F.FAB_SEAMSTATs_FAILED, F.FAB_SEAMSTATs_REPLAYS, F.FAB_SEAMSTATs_SAT]
  | .FAB_SEAMFAILs_n_h => [F.FAB_SEAMFAILs_n_h_LINKS]
  | .FAB_RETRY_STAT => [F.FAB_RETRY_STAT_ANY, F.FAB_RETRY_STAT_LOCAL, F.FAB_RETRY_STAT_MAX_CC]
  | .FAB_HOLEMAP => [F.FAB_HOLEMAP_HOLES]
  | .FAB_PARKMAP => [F.FAB_PARKMAP_PARKED]
  | .FAB_MARKS => [F.FAB_MARKS_MARKS, F.FAB_MARKS_SAT]
  | .FAB_DETOURS => [F.FAB_DETOURS_ENTRIES, F.FAB_DETOURS_SAT]
  | .FAB_LINKERR => [F.FAB_LINKERR_FLITS, F.FAB_LINKERR_SAT]
  | .FAB_DL_WINDOW => [F.FAB_DL_WINDOW_EXP, F.FAB_DL_WINDOW_EN]
  | .FAB_DL_STAT => [F.FAB_DL_STAT_EVENT, F.FAB_DL_STAT_KIND, F.FAB_DL_STAT_ENTRIES, F.FAB_DL_STAT_OVERFLOW, F.FAB_DL_STAT_GROUP_ID, F.FAB_DL_STAT_EVENTS]
  | .FAB_DL_SNAPn => [F.FAB_DL_SNAPn_LCN, F.FAB_DL_SNAPn_KIND, F.FAB_DL_SNAPn_QID, F.FAB_DL_SNAPn_STATE, F.FAB_DL_SNAPn_OCC, F.FAB_DL_SNAPn_VALID]
  | .MRK_RINGj_SETUP => [F.MRK_RINGj_SETUP_ID, F.MRK_RINGj_SETUP_NREP, F.MRK_RINGj_SETUP_MSEG, F.MRK_RINGj_SETUP_GO]
  | .MRK_RINGj_CFG => [F.MRK_RINGj_CFG_PERIOD, F.MRK_RINGj_CFG_REPEAT_MAX, F.MRK_RINGj_CFG_SKIP_NAN, F.MRK_RINGj_CFG_SKIP_INF]
  | .MRK_RINGj_STAT => [F.MRK_RINGj_STAT_STATE, F.MRK_RINGj_STAT_LAST, F.MRK_RINGj_STAT_SETUP_ERR, F.MRK_RINGj_STAT_RUN, F.MRK_RINGj_STAT_ATTEMPT]
  | .MRK_RINGj_COUNT => [F.MRK_RINGj_COUNT_COMMITS, F.MRK_RINGj_COUNT_SKIPS, F.MRK_RINGj_COUNT_REPEATS, F.MRK_RINGj_COUNT_SAT]
  | .MRK_RINGj_DEADLINE => [F.MRK_RINGj_DEADLINE_DL]
  | .MRK_RINGj_NAN => [F.MRK_RINGj_NAN_NAN, F.MRK_RINGj_NAN_INF]
  | .SEL_ID => [F.SEL_ID_PORT, F.SEL_ID_SIDE, F.SEL_ID_FIELD, F.SEL_ID_OGRP, F.SEL_ID_ATT]
  | .SEL_CTL => [F.SEL_CTL_EN, F.SEL_CTL_TRAIN, F.SEL_CTL_SW_RST, F.SEL_CTL_RETRY_EN]
  | .SEL_STAT => [F.SEL_STAT_STATE, F.SEL_STAT_WIDTH, F.SEL_STAT_ACTIVE, F.SEL_STAT_BAD, F.SEL_STAT_FUSED, F.SEL_STAT_EVT]
  | .SEL_CAP => [F.SEL_CAP_CAP_GIB, F.SEL_CAP_RDCRED, F.SEL_CAP_WRCRED, F.SEL_CAP_UNIT_ID]
  | .SEL_WAIT_LIMIT => [F.SEL_WAIT_LIMIT_LIMIT]
  | .SEL_LOCK_MAX => [F.SEL_LOCK_MAX_MAX]
  | .SEL_RETRYCFG => [F.SEL_RETRYCFG_REPLAY_MAX, F.SEL_RETRYCFG_RETRAIN_MAX, F.SEL_RETRYCFG_EPISODE_MAX, F.SEL_RETRYCFG_LANE_ERR]
  | .SEL_RSP_TIMEOUT => [F.SEL_RSP_TIMEOUT_US]
  | .SEL_LDRANK => [F.SEL_LDRANK_RANKk]
  | .SEL_RETRYSTAT => [F.SEL_RETRYSTAT_EPISODES, F.SEL_RETRYSTAT_RETRAINS, F.SEL_RETRYSTAT_MAX_US, F.SEL_RETRYSTAT_SAT]
  | .SEL_ERRSTAT => [F.SEL_ERRSTAT_CRCFAIL, F.SEL_ERRSTAT_TIMEOUTS, F.SEL_ERRSTAT_LATE, F.SEL_ERRSTAT_PROTO, F.SEL_ERRSTAT_SAT]
  | .SEL_TRAFFIC => [F.SEL_TRAFFIC_RD, F.SEL_TRAFFIC_WR]
  | .SEL_ARBSTAT => [F.SEL_ARBSTAT_FORCED, F.SEL_ARBSTAT_LOCKMAX, F.SEL_ARBSTAT_SAT]
  | .SEL_TAGSTAT => [F.SEL_TAGSTAT_INFLIGHT, F.SEL_TAGSTAT_RDHELD, F.SEL_TAGSTAT_WRHELD]
  | .SEL_LANEl => [F.SEL_LANEl_MARKERR, F.SEL_LANEl_LOCKLOSS, F.SEL_LANEl_SAT]
  | .SEL_MAP => [F.SEL_MAP_MODE, F.SEL_MAP_OK]
  | .CXL_LINKSTAT => [F.CXL_LINKSTAT_STATE, F.CXL_LINKSTAT_WIDTH, F.CXL_LINKSTAT_RATE, F.CXL_LINKSTAT_EPISODES, F.CXL_LINKSTAT_MAX_US]
  | .CXL_HM_TIMEOUT => [F.CXL_HM_TIMEOUT_US]
  | .CXL_CTLERR => [F.CXL_CTLERR_DISCARDS, F.CXL_CTLERR_LAST_LD, F.CXL_CTLERR_SAT]
  | .CXL_FIBRE => [F.CXL_FIBRE_TX_RET0, F.CXL_FIBRE_TX_RET1, F.CXL_FIBRE_RX_RET0, F.CXL_FIBRE_RX_RET1, F.CXL_FIBRE_BEACON_OK]
  | .CXL_LDk_CFG => [F.CXL_LDk_CFG_ENABLED, F.CXL_LDk_CFG_BOUND, F.CXL_LDk_CFG_CACHE_EN, F.CXL_LDk_CFG_MEM_EN]
  | .CXL_LDk_PART => [F.CXL_LDk_PART_FIELDS]
  | .CXL_LDk_FMWIN => [F.CXL_LDk_FMWIN_FMBASE, F.CXL_LDk_FMWIN_FMSIZE]
  | .CXL_LDk_MSIX => [F.CXL_LDk_MSIX_BASE, F.CXL_LDk_MSIX_COUNT]
  | .CXL_LDk_RING => [F.CXL_LDk_RING_LOG2SIZE, F.CXL_LDk_RING_EN, F.CXL_LDk_RING_BASE]
  | .CXL_LDk_RINGPTR => [F.CXL_LDk_RINGPTR_HEAD, F.CXL_LDk_RINGPTR_TAIL, F.CXL_LDk_RINGPTR_BADDB, F.CXL_LDk_RINGPTR_WDRAW]
  | .CXL_LDk_EVQ => [F.CXL_LDk_EVQ_LOG2SIZE, F.CXL_LDk_EVQ_EN, F.CXL_LDk_EVQ_BASE]
  | .CXL_LDk_EVQPTR => [F.CXL_LDk_EVQPTR_HEAD, F.CXL_LDk_EVQPTR_TAIL, F.CXL_LDk_EVQPTR_OVF, F.CXL_LDk_EVQPTR_LOST]
  | .CXL_LDk_EVVEC => [F.CXL_LDk_EVVEC_VECj]
  | .CXL_LDk_APERTURE => [F.CXL_LDk_APERTURE_FIELD, F.CXL_LDk_APERTURE_PANEL]
  | .CXL_LDk_HMSTAT => [F.CXL_LDk_HMSTAT_HMERR, F.CXL_LDk_HMSTAT_MEMERR, F.CXL_LDk_HMSTAT_SAT]
  | .INT_CTL => [F.INT_CTL_TEST_EN, F.INT_CTL_FENCE_EN, F.INT_CTL_SW_RST]
  | .INT_FENCE_COUNT => [F.INT_FENCE_COUNT_COUNT]
  | .INT_FENCE_WINDOW => [F.INT_FENCE_WINDOW_TR]
  | .INT_SWEEP_PERIOD => [F.INT_SWEEP_PERIOD_TR]
  | .INT_WATCH_PERIOD => [F.INT_WATCH_PERIOD_TR]
  | .INT_STAT => [F.INT_STAT_ENTRIES, F.INT_STAT_WOULD_FENCE, F.INT_STAT_CONDEMNED, F.INT_STAT_DISPLACED, F.INT_STAT_SAT]
  | .INT_TESTSTAT => [F.INT_TESTSTAT_GROUPS, F.INT_TESTSTAT_MISMATCH, F.INT_TESTSTAT_SWEEPS]
  | .INT_CAUSEc => [F.INT_CAUSEc_COUNT, F.INT_CAUSEc_SAT]
  | .INT_DIGEST_CFGj => [F.INT_DIGEST_CFGj_PERIOD, F.INT_DIGEST_CFGj_NOW]
  | .INT_DIGEST_STATj => [F.INT_DIGEST_STATj_BUSY, F.INT_DIGEST_STATj_DIGESTS, F.INT_DIGEST_STATj_MISMATCH, F.INT_DIGEST_STATj_FIRST]
  | .INT_WL_An => [F.INT_WL_An_FIELD, F.INT_WL_An_PANEL, F.INT_WL_An_PROW, F.INT_WL_An_POS, F.INT_WL_An_LCN, F.INT_WL_An_INWIN, F.INT_WL_An_CONDEMNED, F.INT_WL_An_VALID]
  | .INT_WL_Bn => [F.INT_WL_Bn_LAST_TR, F.INT_WL_Bn_LAST_CAUSE]
  | .BRG_READY => [F.BRG_READY_MGMT, F.BRG_READY_NVS, F.BRG_READY_THIMBLE, F.BRG_READY_CLKREF, F.BRG_READY_TREADLE, F.BRG_READY_INT, F.BRG_READY_HOST, F.BRG_READY_MARKER]
  | .BRG_FLD_TRANSIT => [F.BRG_FLD_TRANSIT_MAP]
  | .BRG_FLD_SEAMOK => [F.BRG_FLD_SEAMOK_MAP]
  | .BRG_FLD_TOPO => [F.BRG_FLD_TOPO_MAP]
  | .BRG_FLD_COMPUTE => [F.BRG_FLD_COMPUTE_MAP]
  | .BRG_FLD_READY => [F.BRG_FLD_READY_MAP]
  | .BRG_PORTS => [F.BRG_PORTS_MAP]
  | .BRG_CMD => [F.BRG_CMD_OP, F.BRG_CMD_ALL, F.BRG_CMD_FIELD, F.BRG_CMD_SIDE, F.BRG_CMD_NET, F.BRG_CMD_ROW, F.BRG_CMD_GO]
  | .BRG_CMDSTAT => [F.BRG_CMDSTAT_BUSY, F.BRG_CMDSTAT_DONE, F.BRG_CMDSTAT_ERR, F.BRG_CMDSTAT_ERRCODE, F.BRG_CMDSTAT_OP, F.BRG_CMDSTAT_FIELD]
  | .BRG_BER_LIMIT => [F.BRG_BER_LIMIT_FLITS, F.BRG_BER_LIMIT_FRAMES]
  | .BRG_TOPO_DIFF => [F.BRG_TOPO_DIFF_FIELD, F.BRG_TOPO_DIFF_MISSING, F.BRG_TOPO_DIFF_EXTRA, F.BRG_TOPO_DIFF_FSIDE, F.BRG_TOPO_DIFF_FNET, F.BRG_TOPO_DIFF_FROW, F.BRG_TOPO_DIFF_FEXTRA]
  | .BRG_DISAGREE => [F.BRG_DISAGREE_TEST_ONLY, F.BRG_DISAGREE_FUSE_ONLY, F.BRG_DISAGREE_FIELD, F.BRG_DISAGREE_SAT]
  | .BRG_RST => [F.BRG_RST_SCOPE, F.BRG_RST_TARGET, F.BRG_RST_GO]
  | .BRG_RSTSTAT => [F.BRG_RSTSTAT_BUSY, F.BRG_RSTSTAT_PHASE, F.BRG_RSTSTAT_REJ, F.BRG_RSTSTAT_LAST_SCOPE, F.BRG_RSTSTAT_DRAIN_TO, F.BRG_RSTSTAT_LAST_US]
  | .BRG_DRAIN_LIMIT => [F.BRG_DRAIN_LIMIT_US]
  | .BRG_DARN_CMD => [F.BRG_DARN_CMD_FIELD, F.BRG_DARN_CMD_PANEL, F.BRG_DARN_CMD_PROW, F.BRG_DARN_CMD_POS, F.BRG_DARN_CMD_GO]
  | .BRG_DARN_STAT => [F.BRG_DARN_STAT_BUSY, F.BRG_DARN_STAT_PENDING, F.BRG_DARN_STAT_LAST_KIND, F.BRG_DARN_STAT_LOST, F.BRG_DARN_STAT_LAST_US]
  | .BRG_DARN_COUNT => [F.BRG_DARN_COUNT_SPARES, F.BRG_DARN_COUNT_RELOCS, F.BRG_DARN_COUNT_FENCES, F.BRG_DARN_COUNT_ABANDONED, F.BRG_DARN_COUNT_SAT]
  | .RST_CTL => [F.RST_CTL_MODULE, F.RST_CTL_FABRIC, F.RST_CTL_SW_RST, F.RST_CTL_KEY]
  | .RST_CAUSE => [F.RST_CAUSE_CODE, F.RST_CAUSE_DELAYED, F.RST_CAUSE_MERGED, F.RST_CAUSE_DETAIL, F.RST_CAUSE_TR]
  | .RST_STAT => [F.RST_STAT_STEP, F.RST_STAT_KEYERR, F.RST_STAT_THIMBLE_FAIL, F.RST_STAT_NVS_WAIT_US, F.RST_STAT_RESETS]
  | .RST_BLOCK => [F.RST_BLOCK_WAF, F.RST_BLOCK_CLK, F.RST_BLOCK_PWR, F.RST_BLOCK_TRD, F.RST_BLOCK_INT, F.RST_BLOCK_NVS, F.RST_BLOCK_MRK, F.RST_BLOCK_BRG]
  | .RST_PINFUSE => [F.RST_PINFUSE_RESET_N, F.RST_PINFUSE_TREADLE, F.RST_PINFUSE_CLKOBS, F.RST_PINFUSE_FAULT_N, F.RST_PINFUSE_MOD_RDY]
  | .FLD_CUEn_B => [F.FLD_CUEn_B_COUNT, F.FLD_CUEn_B_KIND, F.FLD_CUEn_B_VALID]
  | .FLD_CUESTAT => [F.FLD_CUESTAT_ARMED, F.FLD_CUESTAT_REJ, F.FLD_CUESTAT_LATE, F.FLD_CUESTAT_FIRED, F.FLD_CUESTAT_STALE, F.FLD_CUESTAT_SAT]
  | .CLK_STAT => [F.CLK_STAT_REFOK, F.CLK_STAT_REFLOST, F.CLK_STAT_OSC_DLY]
  | .CLK_BLKEN => [F.CLK_BLKEN_WAF, F.CLK_BLKEN_PWR, F.CLK_BLKEN_TRD, F.CLK_BLKEN_INT, F.CLK_BLKEN_NVS, F.CLK_BLKEN_THM, F.CLK_BLKEN_MRK, F.CLK_BLKEN_BRG, F.CLK_BLKEN_CXL]
  | .CLK_PORTEN => [F.CLK_PORTEN_PORTS]
  | .CLK_OBS => [F.CLK_OBS_SRC, F.CLK_OBS_FIELD, F.CLK_OBS_PORT, F.CLK_OBS_DIV, F.CLK_OBS_EN]
  | .CLK_GATEDERR => [F.CLK_GATEDERR_COUNT, F.CLK_GATEDERR_SAT, F.CLK_GATEDERR_LAST]
  | .CLK_FLDf_CTL => [F.CLK_FLDf_CTL_SRC, F.CLK_FLDf_CTL_MODE, F.CLK_FLDf_CTL_GO, F.CLK_FLDf_CTL_TRN_EN, F.CLK_FLDf_CTL_CMP_EN, F.CLK_FLDf_CTL_BLK_EN]
  | .CLK_FLDf_STAT => [F.CLK_FLDf_STAT_ACTIVE, F.CLK_FLDf_STAT_REF_RDY, F.CLK_FLDf_STAT_PLLA_RDY, F.CLK_FLDf_STAT_PLLB_RDY, F.CLK_FLDf_STAT_SEQ_BUSY, F.CLK_FLDf_STAT_CUR, F.CLK_FLDf_STAT_REJ, F.CLK_FLDf_STAT_LOCKLOSS, F.CLK_FLDf_STAT_HOLD]
  | .CLK_FLDf_STITCH => [F.CLK_FLDf_STITCH_TARGET, F.CLK_FLDf_STITCH_CEIL, F.CLK_FLDf_STITCH_EFF]
  | .CLK_FLDf_SEQ => [F.CLK_FLDf_SEQ_CHANGES, F.CLK_FLDf_SEQ_LAST_US]
  | .CLK_FLDf_CYCLES => [F.CLK_FLDf_CYCLES_CC]
  | .TRD_CTL => [F.TRD_CTL_SRC, F.TRD_CTL_STALL_US]
  | .TRD_COUNT => [F.TRD_COUNT_COUNT]
  | .TRD_PUSH => [F.TRD_PUSH_ADD]
  | .TRD_STAT => [F.TRD_STAT_RUNNING, F.TRD_STAT_STALLED, F.TRD_STAT_PUSH_REJ, F.TRD_STAT_IGN, F.TRD_STAT_SAT]
  | .TRD_INTERVAL => [F.TRD_INTERVAL_NS]
  | .PWR_CTL => [F.PWR_CTL_EN, F.PWR_CTL_AUTO_UNPARK, F.PWR_CTL_SW_RST, F.PWR_CTL_TRIP_MAX]
  | .PWR_CAP => [F.PWR_CAP_HOST, F.PWR_CAP_RACK, F.PWR_CAP_EFF]
  | .PWR_MEAS => [F.PWR_MEAS_AVG_W, F.PWR_MEAS_VIN_MV, F.PWR_MEAS_IIN_A]
  | .PWR_HYST => [F.PWR_HYST_W]
  | .PWR_STAT => [F.PWR_STAT_LEVEL, F.PWR_STAT_W, F.PWR_STAT_UNATTAIN, F.PWR_STAT_FAULT, F.PWR_STAT_PARKED, F.PWR_STAT_MODEL_W]
  | .PWR_THERM => [F.PWR_THERM_WARN, F.PWR_THERM_CRIT, F.PWR_THERM_SHUT, F.PWR_THERM_HYST]
  | .PWR_PARK_ORDERn => [F.PWR_PARK_ORDERn_FIELDb, F.PWR_PARK_ORDERn_VALIDb]
  | .PWR_DOMSTATn => [F.PWR_DOMSTATn_ON]
  | .PWR_THR_TRr => [F.PWR_THR_TRr_TR, F.PWR_THR_TRr_SAT]
  | .PWR_THR_USr => [F.PWR_THR_USr_US, F.PWR_THR_USr_SAT]
  | .PWR_FLDf_CTL => [F.PWR_FLDf_CTL_PARK, F.PWR_FLDf_CTL_CLR_TRIP, F.PWR_FLDf_CTL_UNPARK]
  | .PWR_FLDf_STAT => [F.PWR_FLDf_STAT_REASON, F.PWR_FLDf_STAT_TCEIL, F.PWR_FLDf_STAT_TEMP, F.PWR_FLDf_STAT_TRIPS, F.PWR_FLDf_STAT_LOCKED]
  | .PWR_FLDf_VOLT => [F.PWR_FLDf_VOLT_PROG_MV, F.PWR_FLDf_VOLT_MIN_MV]
  | .NVS_CTL => [F.NVS_CTL_SW_RST, F.NVS_CTL_FLUSH]
  | .NVS_STAT => [F.NVS_STAT_LOADED, F.NVS_STAT_BUSY, F.NVS_STAT_LOSS, F.NVS_STAT_EQSEQ, F.NVS_STAT_LIFE_LOST, F.NVS_STAT_SECT, F.NVS_STAT_WRITES]
  | .NVS_SECTk => [F.NVS_SECTk_A_VALID, F.NVS_SECTk_B_VALID, F.NVS_SECTk_NEWER, F.NVS_SECTk_BLANK, F.NVS_SECTk_DIRTY, F.NVS_SECTk_SEQ]
  | .THM_STAT => [F.THM_STAT_VERIFIED, F.THM_STAT_SLOT, F.THM_STAT_FALLBACK, F.THM_STAT_ALIAS, F.THM_STAT_SESSIONS, F.THM_STAT_VERSION]
  | .THM_MINVER => [F.THM_MINVER_MIN]
  | .THM_FWSLOTn => [F.THM_FWSLOTn_VALID, F.THM_FWSLOTn_RUNNING, F.THM_FWSLOTn_VERSION]
  | .THM_UPD_CMD => [F.THM_UPD_CMD_OP, F.THM_UPD_CMD_OFFSET, F.THM_UPD_CMD_GO]
  | .THM_UPD_STAT => [F.THM_UPD_STAT_BUSY, F.THM_UPD_STAT_DONE, F.THM_UPD_STAT_ERR, F.THM_UPD_STAT_ERRCODE]
  | .MGT_CTL => [F.MGT_CTL_SW_RST]
  | .MGT_STAT => [F.MGT_STAT_DA_VALID, F.MGT_STAT_DA, F.MGT_STAT_IBI_EN, F.MGT_STAT_CAP_LOST, F.MGT_STAT_PID_FUSED, F.MGT_STAT_CMDS]
  | .MGT_PID => [F.MGT_PID_PID, F.MGT_PID_BCR, F.MGT_PID_DCR]
  | .MGT_ARBCFG => [F.MGT_ARBCFG_WAIT_LIMIT, F.MGT_ARBCFG_LOCK_MAX]
  | .MGT_RANK => [F.MGT_RANK_RANKq]
  | .MGT_ARBSTAT => [F.MGT_ARBSTAT_FORCED, F.MGT_ARBSTAT_LOCKMAX, F.MGT_ARBSTAT_SAT]
  | .MGT_COOLANT => [F.MGT_COOLANT_INLET, F.MGT_COOLANT_OUTLET]
  | .FLD_CUEn_A => [F.FLD_CUEn_A_CUE]

/-- The place of each register. -/
def Reg.place : Reg → RegPlace
  | .CORE_ID => ⟨.core, 0x0, 8, 1, false⟩
  | .CORE_CTL => ⟨.core, 0x8, 8, 1, false⟩
  | .CORE_THSTATE => ⟨.core, 0x10, 8, 1, false⟩
  | .CORE_TAGCFG => ⟨.core, 0x18, 8, 1, false⟩
  | .CORE_TAGSTAT => ⟨.core, 0x20, 8, 1, false⟩
  | .CORE_ACC_OWN => ⟨.core, 0x28, 8, 1, false⟩
  | .CORE_TAGSTALL => ⟨.core, 0x30, 8, 1, false⟩
  | .CORE_BANKCONF => ⟨.core, 0x38, 8, 1, false⟩
  | .CORE_CYCLES => ⟨.core, 0x40, 8, 1, false⟩
  | .CORE_STAT => ⟨.core, 0x48, 8, 1, false⟩
  | .CORE_DBG => ⟨.core, 0x50, 8, 1, false⟩
  | .CORE_TH_PCn => ⟨.core, 0x80, 8, 4, false⟩
  | .CORE_TH_RETn => ⟨.core, 0xA0, 8, 4, false⟩
  | .CORE_TH_WAITn => ⟨.core, 0xC0, 8, 4, false⟩
  | .CORE_TRAP_ADDRn => ⟨.core, 0x58, 8, 4, false⟩
  | .CORE_TRAPCTL => ⟨.core, 0x78, 8, 1, false⟩
  | .CORE_TRAPn => ⟨.core, 0xE0, 8, 4, false⟩
  | .CORE_TSTAT => ⟨.core, 0x100, 8, 1, false⟩
  | .CORE_TBUSY => ⟨.core, 0x108, 8, 1, false⟩
  | .CORE_TQFULL => ⟨.core, 0x110, 8, 1, false⟩
  | .CORE_FMTCTL => ⟨.core, 0x118, 8, 1, false⟩
  | .CORE_SRSEED => ⟨.core, 0x120, 8, 1, false⟩
  | .CORE_SRCMD => ⟨.core, 0x128, 8, 1, false⟩
  | .CORE_SRDRAWS => ⟨.core, 0x130, 8, 1, false⟩
  | .CORE_SRLANEl => ⟨.core, 0x800, 8, 256, false⟩
  | .SPX_DROP => ⟨.core, 0x140, 8, 1, false⟩
  | .SPX_PASSES => ⟨.core, 0x148, 8, 1, false⟩
  | .SPX_POS => ⟨.core, 0x150, 8, 1, false⟩
  | .SPX_CMP_CMD => ⟨.core, 0x158, 8, 1, false⟩
  | .SPX_CMP_STAT => ⟨.core, 0x160, 8, 1, false⟩
  | .SPX_SEL_CMD => ⟨.core, 0x168, 8, 1, false⟩
  | .SPX_SEL_THR => ⟨.core, 0x170, 8, 1, false⟩
  | .SPX_GATHER_SRC => ⟨.core, 0x178, 8, 1, false⟩
  | .SPX_GATHER_CFG => ⟨.core, 0x180, 8, 1, false⟩
  | .SPX_SEL_STAT => ⟨.core, 0x188, 8, 1, false⟩
  | .FAB_TREEn_A => ⟨.core, 0x200, 16, 16, false⟩
  | .FAB_TREEn_B => ⟨.core, 0x208, 16, 16, false⟩
  | .FAB_WIN => ⟨.core, 0x300, 8, 1, false⟩
  | .FAB_NICHK => ⟨.core, 0x308, 8, 1, false⟩
  | .BOB_STAT => ⟨.core, 0x310, 8, 1, false⟩
  | .BOB_HELDCC => ⟨.core, 0x318, 8, 1, false⟩
  | .SPL_SRC => ⟨.core, 0x340, 8, 1, false⟩
  | .SPL_DST => ⟨.core, 0x348, 8, 1, false⟩
  | .SPL_CMD => ⟨.core, 0x350, 8, 1, false⟩
  | .SPL_STAT => ⟨.core, 0x358, 8, 1, false⟩
  | .TACK_STATEn => ⟨.core, 0x400, 8, 32, false⟩
  | .TACK_WAITt => ⟨.core, 0x500, 8, 4, false⟩
  | .BOB_HANDLERn => ⟨.core, 0x600, 8, 64, false⟩
  | .CORE_QENDe_A => ⟨.core, 0x520, 16, 8, false⟩
  | .CORE_QENDe_B => ⟨.core, 0x528, 16, 8, false⟩
  | .CORE_STEERu_A => ⟨.core, 0x5A0, 16, 2, false⟩
  | .CORE_STEERu_B => ⟨.core, 0x5A8, 16, 2, false⟩
  | .CORE_PAT_CTL => ⟨.core, 0x5C0, 8, 1, false⟩
  | .CORE_PAT_LOAD => ⟨.core, 0x5C8, 8, 1, false⟩
  | .CORE_PAT_STAT => ⟨.core, 0x5D0, 8, 1, false⟩
  | .CORE_PAT_SWCC => ⟨.core, 0x5D8, 8, 1, false⟩
  | .CORE_PAT_THSTALLn => ⟨.core, 0x5E0, 8, 4, false⟩
  | .CORE_RING_CFG => ⟨.core, 0x190, 8, 1, false⟩
  | .CORE_RING_LAYOUT => ⟨.core, 0x198, 8, 1, false⟩
  | .CORE_RING_TACKS => ⟨.core, 0x1A0, 8, 1, false⟩
  | .CORE_RING_CMD => ⟨.core, 0x1A8, 8, 1, false⟩
  | .CORE_RING_STAT => ⟨.core, 0x1B0, 8, 1, false⟩
  | .CORE_RING_SUMSTAT => ⟨.core, 0x1B8, 8, 1, false⟩
  | .INT_CSUMSTAT => ⟨.core, 0x360, 8, 1, false⟩
  | .INT_CSUMLAST => ⟨.core, 0x368, 8, 1, false⟩
  | .INT_DUPSTAT => ⟨.core, 0x370, 8, 1, false⟩
  | .INT_BADMAPw => ⟨.core, 0x380, 8, 4, false⟩
  | .WAF_GEOM => ⟨.waf, 0x0, 8, 1, false⟩
  | .WAF_CORES => ⟨.waf, 0x8, 8, 1, false⟩
  | .WAF_GUSSET_MAP => ⟨.waf, 0x10, 8, 1, false⟩
  | .FLD_ID => ⟨.fld, 0x0, 8, 1, false⟩
  | .PNL_ROWSTAT => ⟨.pnl, 0x0, 8, 1, false⟩
  | .PNL_RELOCn => ⟨.pnl, 0x1000, 8, 512, false⟩
  | .MRK_CTL => ⟨.mrk, 0x0, 8, 1, false⟩
  | .MRK_STAT => ⟨.mrk, 0x8, 8, 1, false⟩
  | .MRK_SPLIT_THRESH => ⟨.mrk, 0x10, 8, 1, false⟩
  | .MRK_REJECT => ⟨.mrk, 0x18, 8, 1, false⟩
  | .MRK_MIGRATE => ⟨.mrk, 0x20, 8, 1, false⟩
  | .MRK_MIG_STAT => ⟨.mrk, 0x28, 8, 1, false⟩
  | .MRK_PLACE_US => ⟨.mrk, 0x30, 8, 1, false⟩
  | .MRK_RELOC_BITMAPw => ⟨.mrk, 0x400, 8, 128, false⟩
  | .FAB_CTL => ⟨.fld, 0x800, 8, 1, false⟩
  | .FAB_MARK_THRESH => ⟨.fld, 0x808, 8, 1, false⟩
  | .FAB_WINCFG => ⟨.fld, 0x810, 8, 1, false⟩
  | .FAB_RETRYCFG => ⟨.fld, 0x818, 8, 1, false⟩
  | .FAB_SEAMSTATs => ⟨.fld, 0x820, 8, 4, false⟩
  | .FAB_SEAMFAILs_n_h => ⟨.fld, 0x840, 8, 16, false⟩
  | .FAB_RETRY_STAT => ⟨.fld, 0x8C0, 8, 1, false⟩
  | .FAB_HOLEMAP => ⟨.fld, 0x8C8, 8, 1, false⟩
  | .FAB_PARKMAP => ⟨.fld, 0x8D0, 8, 1, false⟩
  | .FAB_MARKS => ⟨.fld, 0x8D8, 8, 1, false⟩
  | .FAB_DETOURS => ⟨.fld, 0x8E0, 8, 1, false⟩
  | .FAB_LINKERR => ⟨.fld, 0x8E8, 8, 1, false⟩
  | .FAB_DL_WINDOW => ⟨.pnl, 0x800, 8, 1, false⟩
  | .FAB_DL_STAT => ⟨.pnl, 0x808, 8, 1, false⟩
  | .FAB_DL_SNAPn => ⟨.pnl, 0x900, 8, 64, false⟩
  | .MRK_RINGj_SETUP => ⟨.mrk, 0x100, 64, 4, true⟩
  | .MRK_RINGj_CFG => ⟨.mrk, 0x108, 64, 4, true⟩
  | .MRK_RINGj_STAT => ⟨.mrk, 0x110, 64, 4, true⟩
  | .MRK_RINGj_COUNT => ⟨.mrk, 0x118, 64, 4, true⟩
  | .MRK_RINGj_DEADLINE => ⟨.mrk, 0x120, 64, 4, true⟩
  | .MRK_RINGj_NAN => ⟨.mrk, 0x128, 64, 4, true⟩
  | .SEL_ID => ⟨.sel, 0x0, 8, 1, false⟩
  | .SEL_CTL => ⟨.sel, 0x8, 8, 1, false⟩
  | .SEL_STAT => ⟨.sel, 0x10, 8, 1, false⟩
  | .SEL_CAP => ⟨.sel, 0x18, 8, 1, false⟩
  | .SEL_WAIT_LIMIT => ⟨.sel, 0x20, 8, 1, false⟩
  | .SEL_LOCK_MAX => ⟨.sel, 0x28, 8, 1, false⟩
  | .SEL_RETRYCFG => ⟨.sel, 0x30, 8, 1, false⟩
  | .SEL_RSP_TIMEOUT => ⟨.sel, 0x38, 8, 1, false⟩
  | .SEL_LDRANK => ⟨.sel, 0x40, 8, 1, false⟩
  | .SEL_RETRYSTAT => ⟨.sel, 0x48, 8, 1, false⟩
  | .SEL_ERRSTAT => ⟨.sel, 0x50, 8, 1, false⟩
  | .SEL_TRAFFIC => ⟨.sel, 0x58, 8, 1, false⟩
  | .SEL_ARBSTAT => ⟨.sel, 0x60, 8, 1, false⟩
  | .SEL_TAGSTAT => ⟨.sel, 0x68, 8, 1, false⟩
  | .SEL_LANEl => ⟨.sel, 0x100, 8, 9, false⟩
  | .SEL_MAP => ⟨.sel, 0x4000, 8, 1, false⟩
  | .CXL_LINKSTAT => ⟨.cxl, 0x10, 8, 1, false⟩
  | .CXL_HM_TIMEOUT => ⟨.cxl, 0x18, 8, 1, false⟩
  | .CXL_CTLERR => ⟨.cxl, 0x20, 8, 1, false⟩
  | .CXL_FIBRE => ⟨.cxl, 0x28, 8, 1, false⟩
  | .CXL_LDk_CFG => ⟨.cxl, 0x1000, 256, 16, true⟩
  | .CXL_LDk_PART => ⟨.cxl, 0x1008, 256, 16, true⟩
  | .CXL_LDk_FMWIN => ⟨.cxl, 0x1010, 256, 16, true⟩
  | .CXL_LDk_MSIX => ⟨.cxl, 0x1018, 256, 16, true⟩
  | .CXL_LDk_RING => ⟨.cxl, 0x1020, 256, 16, true⟩
  | .CXL_LDk_RINGPTR => ⟨.cxl, 0x1028, 256, 16, true⟩
  | .CXL_LDk_EVQ => ⟨.cxl, 0x1030, 256, 16, true⟩
  | .CXL_LDk_EVQPTR => ⟨.cxl, 0x1038, 256, 16, true⟩
  | .CXL_LDk_EVVEC => ⟨.cxl, 0x1040, 256, 16, true⟩
  | .CXL_LDk_APERTURE => ⟨.cxl, 0x1048, 256, 16, true⟩
  | .CXL_LDk_HMSTAT => ⟨.cxl, 0x1050, 256, 16, true⟩
  | .INT_CTL => ⟨.intg, 0x0, 8, 1, false⟩
  | .INT_FENCE_COUNT => ⟨.intg, 0x8, 8, 1, false⟩
  | .INT_FENCE_WINDOW => ⟨.intg, 0x10, 8, 1, false⟩
  | .INT_SWEEP_PERIOD => ⟨.intg, 0x18, 8, 1, false⟩
  | .INT_WATCH_PERIOD => ⟨.intg, 0x20, 8, 1, false⟩
  | .INT_STAT => ⟨.intg, 0x28, 8, 1, false⟩
  | .INT_TESTSTAT => ⟨.intg, 0x30, 8, 1, false⟩
  | .INT_CAUSEc => ⟨.intg, 0x40, 8, 10, false⟩
  | .INT_DIGEST_CFGj => ⟨.intg, 0x100, 32, 4, false⟩
  | .INT_DIGEST_STATj => ⟨.intg, 0x108, 32, 4, false⟩
  | .INT_WL_An => ⟨.intg, 0x1000, 16, 1024, false⟩
  | .INT_WL_Bn => ⟨.intg, 0x1008, 16, 1024, false⟩
  | .BRG_READY => ⟨.brg, 0x0, 8, 1, false⟩
  | .BRG_FLD_TRANSIT => ⟨.brg, 0x8, 8, 1, false⟩
  | .BRG_FLD_SEAMOK => ⟨.brg, 0x10, 8, 1, false⟩
  | .BRG_FLD_TOPO => ⟨.brg, 0x18, 8, 1, false⟩
  | .BRG_FLD_COMPUTE => ⟨.brg, 0x20, 8, 1, false⟩
  | .BRG_FLD_READY => ⟨.brg, 0x28, 8, 1, false⟩
  | .BRG_PORTS => ⟨.brg, 0x30, 8, 1, false⟩
  | .BRG_CMD => ⟨.brg, 0x40, 8, 1, false⟩
  | .BRG_CMDSTAT => ⟨.brg, 0x48, 8, 1, false⟩
  | .BRG_BER_LIMIT => ⟨.brg, 0x50, 8, 1, false⟩
  | .BRG_TOPO_DIFF => ⟨.brg, 0x58, 8, 1, false⟩
  | .BRG_DISAGREE => ⟨.brg, 0x60, 8, 1, false⟩
  | .BRG_RST => ⟨.brg, 0x80, 8, 1, false⟩
  | .BRG_RSTSTAT => ⟨.brg, 0x88, 8, 1, false⟩
  | .BRG_DRAIN_LIMIT => ⟨.brg, 0x90, 8, 1, false⟩
  | .BRG_DARN_CMD => ⟨.brg, 0xA0, 8, 1, false⟩
  | .BRG_DARN_STAT => ⟨.brg, 0xA8, 8, 1, false⟩
  | .BRG_DARN_COUNT => ⟨.brg, 0xB0, 8, 1, false⟩
  | .RST_CTL => ⟨.rst, 0x0, 8, 1, false⟩
  | .RST_CAUSE => ⟨.rst, 0x8, 8, 1, false⟩
  | .RST_STAT => ⟨.rst, 0x10, 8, 1, false⟩
  | .RST_BLOCK => ⟨.rst, 0x18, 8, 1, false⟩
  | .RST_PINFUSE => ⟨.rst, 0x20, 8, 1, false⟩
  | .FLD_CUEn_B => ⟨.fld, 0x2008, 16, 256, false⟩
  | .FLD_CUESTAT => ⟨.fld, 0x3000, 8, 1, false⟩
  | .CLK_STAT => ⟨.clk, 0x0, 8, 1, false⟩
  | .CLK_BLKEN => ⟨.clk, 0x8, 8, 1, false⟩
  | .CLK_PORTEN => ⟨.clk, 0x10, 8, 1, false⟩
  | .CLK_OBS => ⟨.clk, 0x18, 8, 1, false⟩
  | .CLK_GATEDERR => ⟨.clk, 0x20, 8, 1, false⟩
  | .CLK_FLDf_CTL => ⟨.clk, 0x1000, 64, 64, true⟩
  | .CLK_FLDf_STAT => ⟨.clk, 0x1008, 64, 64, true⟩
  | .CLK_FLDf_STITCH => ⟨.clk, 0x1010, 64, 64, true⟩
  | .CLK_FLDf_SEQ => ⟨.clk, 0x1018, 64, 64, true⟩
  | .CLK_FLDf_CYCLES => ⟨.clk, 0x1020, 64, 64, true⟩
  | .TRD_CTL => ⟨.trd, 0x0, 8, 1, false⟩
  | .TRD_COUNT => ⟨.trd, 0x8, 8, 1, false⟩
  | .TRD_PUSH => ⟨.trd, 0x10, 8, 1, false⟩
  | .TRD_STAT => ⟨.trd, 0x18, 8, 1, false⟩
  | .TRD_INTERVAL => ⟨.trd, 0x20, 8, 1, false⟩
  | .PWR_CTL => ⟨.pwr, 0x0, 8, 1, false⟩
  | .PWR_CAP => ⟨.pwr, 0x8, 8, 1, false⟩
  | .PWR_MEAS => ⟨.pwr, 0x10, 8, 1, false⟩
  | .PWR_HYST => ⟨.pwr, 0x18, 8, 1, false⟩
  | .PWR_STAT => ⟨.pwr, 0x20, 8, 1, false⟩
  | .PWR_THERM => ⟨.pwr, 0x28, 8, 1, false⟩
  | .PWR_PARK_ORDERn => ⟨.pwr, 0x40, 8, 8, false⟩
  | .PWR_DOMSTATn => ⟨.pwr, 0x80, 8, 3, false⟩
  | .PWR_THR_TRr => ⟨.pwr, 0x100, 16, 8, false⟩
  | .PWR_THR_USr => ⟨.pwr, 0x108, 16, 8, false⟩
  | .PWR_FLDf_CTL => ⟨.pwr, 0x1000, 32, 64, true⟩
  | .PWR_FLDf_STAT => ⟨.pwr, 0x1008, 32, 64, true⟩
  | .PWR_FLDf_VOLT => ⟨.pwr, 0x1010, 32, 64, true⟩
  | .NVS_CTL => ⟨.nvs, 0x0, 8, 1, false⟩
  | .NVS_STAT => ⟨.nvs, 0x8, 8, 1, false⟩
  | .NVS_SECTk => ⟨.nvs, 0x100, 8, 7, false⟩
  | .THM_STAT => ⟨.thm, 0x0, 8, 1, false⟩
  | .THM_MINVER => ⟨.thm, 0x18, 8, 1, false⟩
  | .THM_FWSLOTn => ⟨.thm, 0x8, 8, 2, false⟩
  | .THM_UPD_CMD => ⟨.thm, 0x20, 8, 1, false⟩
  | .THM_UPD_STAT => ⟨.thm, 0x28, 8, 1, false⟩
  | .MGT_CTL => ⟨.waf, 0x8000, 8, 1, false⟩
  | .MGT_STAT => ⟨.waf, 0x8008, 8, 1, false⟩
  | .MGT_PID => ⟨.waf, 0x8010, 8, 1, false⟩
  | .MGT_ARBCFG => ⟨.waf, 0x8018, 8, 1, false⟩
  | .MGT_RANK => ⟨.waf, 0x8020, 8, 1, false⟩
  | .MGT_ARBSTAT => ⟨.waf, 0x8028, 8, 1, false⟩
  | .MGT_COOLANT => ⟨.waf, 0x8030, 8, 1, false⟩
  | .FLD_CUEn_A => ⟨.fld, 0x2000, 16, 256, false⟩

/-- The registers of each block. -/
def Block.regs : Block → List Reg
  | .core => [.CORE_ID, .CORE_CTL, .CORE_THSTATE, .CORE_TAGCFG, .CORE_TAGSTAT, .CORE_ACC_OWN, .CORE_TAGSTALL, .CORE_BANKCONF, .CORE_CYCLES, .CORE_STAT, .CORE_DBG, .CORE_TH_PCn, .CORE_TH_RETn, .CORE_TH_WAITn, .CORE_TRAP_ADDRn, .CORE_TRAPCTL, .CORE_TRAPn, .CORE_TSTAT, .CORE_TBUSY, .CORE_TQFULL, .CORE_FMTCTL, .CORE_SRSEED, .CORE_SRCMD, .CORE_SRDRAWS, .CORE_SRLANEl, .SPX_DROP, .SPX_PASSES, .SPX_POS, .SPX_CMP_CMD, .SPX_CMP_STAT, .SPX_SEL_CMD, .SPX_SEL_THR, .SPX_GATHER_SRC, .SPX_GATHER_CFG, .SPX_SEL_STAT, .FAB_TREEn_A, .FAB_TREEn_B, .FAB_WIN, .FAB_NICHK, .BOB_STAT, .BOB_HELDCC, .SPL_SRC, .SPL_DST, .SPL_CMD, .SPL_STAT, .TACK_STATEn, .TACK_WAITt, .BOB_HANDLERn, .CORE_QENDe_A, .CORE_QENDe_B, .CORE_STEERu_A, .CORE_STEERu_B, .CORE_PAT_CTL, .CORE_PAT_LOAD, .CORE_PAT_STAT, .CORE_PAT_SWCC, .CORE_PAT_THSTALLn, .CORE_RING_CFG, .CORE_RING_LAYOUT, .CORE_RING_TACKS, .CORE_RING_CMD, .CORE_RING_STAT, .CORE_RING_SUMSTAT, .INT_CSUMSTAT, .INT_CSUMLAST, .INT_DUPSTAT, .INT_BADMAPw]
  | .fld => [.FLD_ID, .FAB_CTL, .FAB_MARK_THRESH, .FAB_WINCFG, .FAB_RETRYCFG, .FAB_SEAMSTATs, .FAB_SEAMFAILs_n_h, .FAB_RETRY_STAT, .FAB_HOLEMAP, .FAB_PARKMAP, .FAB_MARKS, .FAB_DETOURS, .FAB_LINKERR, .FLD_CUEn_B, .FLD_CUESTAT, .FLD_CUEn_A]
  | .pnl => [.PNL_ROWSTAT, .PNL_RELOCn, .FAB_DL_WINDOW, .FAB_DL_STAT, .FAB_DL_SNAPn]
  | .waf => [.WAF_GEOM, .WAF_CORES, .WAF_GUSSET_MAP, .MGT_CTL, .MGT_STAT, .MGT_PID, .MGT_ARBCFG, .MGT_RANK, .MGT_ARBSTAT, .MGT_COOLANT]
  | .clk => [.CLK_STAT, .CLK_BLKEN, .CLK_PORTEN, .CLK_OBS, .CLK_GATEDERR, .CLK_FLDf_CTL, .CLK_FLDf_STAT, .CLK_FLDf_STITCH, .CLK_FLDf_SEQ, .CLK_FLDf_CYCLES]
  | .rst => [.RST_CTL, .RST_CAUSE, .RST_STAT, .RST_BLOCK, .RST_PINFUSE]
  | .pwr => [.PWR_CTL, .PWR_CAP, .PWR_MEAS, .PWR_HYST, .PWR_STAT, .PWR_THERM, .PWR_PARK_ORDERn, .PWR_DOMSTATn, .PWR_THR_TRr, .PWR_THR_USr, .PWR_FLDf_CTL, .PWR_FLDf_STAT, .PWR_FLDf_VOLT]
  | .trd => [.TRD_CTL, .TRD_COUNT, .TRD_PUSH, .TRD_STAT, .TRD_INTERVAL]
  | .intg => [.INT_CTL, .INT_FENCE_COUNT, .INT_FENCE_WINDOW, .INT_SWEEP_PERIOD, .INT_WATCH_PERIOD, .INT_STAT, .INT_TESTSTAT, .INT_CAUSEc, .INT_DIGEST_CFGj, .INT_DIGEST_STATj, .INT_WL_An, .INT_WL_Bn]
  | .nvs => [.NVS_CTL, .NVS_STAT, .NVS_SECTk]
  | .thm => [.THM_STAT, .THM_MINVER, .THM_FWSLOTn, .THM_UPD_CMD, .THM_UPD_STAT]
  | .mrk => [.MRK_CTL, .MRK_STAT, .MRK_SPLIT_THRESH, .MRK_REJECT, .MRK_MIGRATE, .MRK_MIG_STAT, .MRK_PLACE_US, .MRK_RELOC_BITMAPw, .MRK_RINGj_SETUP, .MRK_RINGj_CFG, .MRK_RINGj_STAT, .MRK_RINGj_COUNT, .MRK_RINGj_DEADLINE, .MRK_RINGj_NAN]
  | .brg => [.BRG_READY, .BRG_FLD_TRANSIT, .BRG_FLD_SEAMOK, .BRG_FLD_TOPO, .BRG_FLD_COMPUTE, .BRG_FLD_READY, .BRG_PORTS, .BRG_CMD, .BRG_CMDSTAT, .BRG_BER_LIMIT, .BRG_TOPO_DIFF, .BRG_DISAGREE, .BRG_RST, .BRG_RSTSTAT, .BRG_DRAIN_LIMIT, .BRG_DARN_CMD, .BRG_DARN_STAT, .BRG_DARN_COUNT]
  | .cxl => [.CXL_LINKSTAT, .CXL_HM_TIMEOUT, .CXL_CTLERR, .CXL_FIBRE, .CXL_LDk_CFG, .CXL_LDk_PART, .CXL_LDk_FMWIN, .CXL_LDk_MSIX, .CXL_LDk_RING, .CXL_LDk_RINGPTR, .CXL_LDk_EVQ, .CXL_LDk_EVQPTR, .CXL_LDk_EVVEC, .CXL_LDk_APERTURE, .CXL_LDk_HMSTAT]
  | .sel => [.SEL_ID, .SEL_CTL, .SEL_STAT, .SEL_CAP, .SEL_WAIT_LIMIT, .SEL_LOCK_MAX, .SEL_RETRYCFG, .SEL_RSP_TIMEOUT, .SEL_LDRANK, .SEL_RETRYSTAT, .SEL_ERRSTAT, .SEL_TRAFFIC, .SEL_ARBSTAT, .SEL_TAGSTAT, .SEL_LANEl, .SEL_MAP]

/-- The register at an offset of a block, with its copy's number; none where no register stands. -/
def Block.regAt (b : Block) (off : Nat) : Option (Reg × Nat) :=
  b.regs.findSome? fun r =>
    let p := r.place
    if p.base ≤ off ∧ (off - p.base) % p.stride = 0 ∧ (off - p.base) / p.stride < p.count then
      some (r, (off - p.base) / p.stride)
    else none

end Sys2Proof.Machine
end

