-- ==== Sys2Proof/Machine/State.lean ====
section
/-!
DEFINITION. The state of the module as plain data: every register under its own field number, every memory as a sparse
list of cells, and every piece of hidden state that the chapters name; the reasons a step can stop; the machine after
reset.
-/

namespace Sys2Proof.Machine

/-- Why the machine stops with a fault. -/
inductive Fault
  /-- Raised by a register write of a value that the field's Meaning column does not define: 00 R6 leaves the whole
  block's behaviour undefined until it is reset. Safe: the model stops where the hardware goes on. -/
  | undefinedFieldValue
deriving DecidableEq, Repr

/-- Why a command has no meaning. -/
inductive Refusal
  /-- Raised by an arm of exec that has no meaning yet. Safe. -/
  | notModelled (mnemonic : String)
deriving DecidableEq, Repr

/-! ### Cores and threads (02, 03, 04, 05) -/

/-- The thread states of 02 Table 2.2. -/
inductive ThreadState | stopped | running | stalled | waiting | halted | trapped
deriving DecidableEq, Repr

/-- A tack wait: the tack, the operand, and whether it waits for equality (09 Table 9.13). -/
structure Wait where
  tack : Fin 32
  operand : BitVec 32
  eq : Bool
deriving DecidableEq, Repr

/-- A register that an answer still to come can write (03 R115). -/
inductive RegRef
  | s (r : Fin 32)
  | t (r : Fin 8)
deriving DecidableEq, Repr

/-- A hardware thread (02 R45): its registers, program counter and state. -/
structure Thread where
  /-- s0 to s31; s0 is never written (02 R46). -/
  s : PMap Word := []
  /-- a0 to a15. -/
  a : PMap Word := []
  /-- p0 to p7; bit 0 is never written (02 R46). -/
  p : BitVec 8 := 1
  /-- t0 to t7. -/
  t : PMap Tile := []
  /-- The byte address of the next instruction; 0x2000 once it has run past the store (02 R68). -/
  pc : Nat := 0
  st : ThreadState := .stopped
  /-- The state a halted thread left (02 Table 2.3). -/
  former : ThreadState := .stopped
  retired : Word := 0
  /-- The wait of a thread that is in a waiter set; a halted waiter stays there (02 R50). -/
  wait : Option Wait := none
  /-- The stall reason of 02 Table 2.7. -/
  stall : Nat := 0
  /-- The registers that a thread stalled with reason 1 waits for. -/
  wants : List RegRef := []
  /-- Message sequence number (09 R339). -/
  seq : BitVec 32 := 0
  /-- Operation digest of full redundancy (15 R558). -/
  digest : BitVec 64 := 0
deriving DecidableEq, Repr

/-- A thread after core reset. -/
def Thread.reset : Thread := {}

/-- What a held tag waits for (02 R71). -/
inductive TagOp
  /-- A scalar load into s[rd] of that many bytes, sign-extended or not. -/
  | load (rd : Fin 32) (bytes : Nat) (signed : Bool)
  | store
  /-- An atomic with its old value into s[rd]; true for 4-byte atomics. -/
  | amo (rd : Fin 32) (w4 : Bool)
  | tileLoad (td : Fin 8)
  | tileStore
  | msend
  | tsig
  /-- A contribution to a sum tree. -/
  | nsum (tree : Nat)
  | ncast
  /-- A column broadcast sent as single writes: answers still to come, and the first bad core so far in span order
  (its place, and the cause, subcode and detail of the trap it stands for) (08 R327). -/
  | ncastWrites (left : Nat) (bad : Option (Nat × Nat × Nat × Nat))
  | nprobe (rd : Fin 32)
  /-- A tack point of full redundancy: tack, whether it sets, value, target core (15 R559). -/
  | tackPoint (tack : Fin 32) (set : Bool) (value : BitVec 32) (target : Lcn) (ours : Option (BitVec 64))
deriving DecidableEq, Repr

/-- The states of a request tag: in the pool, held, timed out and not yet back (02 R72, R78), or left behind by a core
reset until its answer or its timer (16 R574). -/
inductive TagState | free | held | quarantine | orphan
deriving DecidableEq, Repr

/-- A request tag: its state and generation, and the operation that holds it (02 R71 to R78). -/
structure Tag where
  st : TagState := .free
  gen : Nat := 0
  thread : Fin 4 := 0
  pc : Nat := 0
  addr : Word := 0
  op : TagOp := .store
  /-- Where the answer comes from, as a destination of 08 R318. -/
  dest : Nat := 0
  /-- The DST field of its request (08 R299). -/
  dst : Lcn := 0
  /-- The other destinations of a broadcast (08 R317, R318; 03 R129). -/
  others : List Nat := []
  /-- The number of its request packet. -/
  pkt : Nat := 0
deriving DecidableEq, Repr

/-- Where a sparse product stands: its pairs of present tiles with their data tile numbers, the tiles and scales read for
its passes, and the bad tile that stops it (06 R218, R227, R692; 15 R535). -/
structure Walk where
  pairs : List (Nat × Nat × Nat × Nat)
  reads : List (Tile × Tile × Tile) := []
  /-- Passes that the array has completed, and SPX_PASSES has counted (06 R229). -/
  counted : Nat := 0
  bad : Option Nat := none
deriving DecidableEq, Repr

/-- A tensor-queue entry: the copied operands of a tmma (04 R149, R156). -/
structure Product where
  thread : Fin 4
  pc : Nat
  cd : Fin 4
  a : Tile
  b : Tile
  scales : Tile
  fmt : Nat
  rm : Nat
  z : Bool
  ng : Bool
  mx : Bool
  /-- The sparse descriptor, 0 for a dense product (06 R216). -/
  sparse : Nat
  walk : Option Walk := none
  /-- Tiles written since a sparse product issued (06 R224). -/
  touched : List Nat := []
deriving DecidableEq, Repr

/-! ### Packets and links (08) -/

/-- The packet types of 08 Table 8.3, in the order of their codes. -/
inductive PacketType
  | rd | wr | amo | msg | tsig | nsum | ncast | probe | rdr | ack | err | unb | prober | rstr | nsuma | ncasta
deriving DecidableEq, Repr

/-- Who sent a request, and so who takes its reply. -/
inductive Requester
  | thread
  /-- One leg of a column broadcast, by its place in the span (08 R327). -/
  | ncastLeg (place : Nat)
  /-- A merge node's sum (08 R321): entry of the sender's tree table. -/
  | merge (entry : Nat)
  /-- A spool request's tile (09 R374): request number, tile, and whether it is the write. -/
  | spool (request tile : Nat) (write : Bool)
  /-- A signal of an engine of the sending core. -/
  | engine
  /-- The completion signal of a spool request that a thread posted (09 R375). -/
  | spoolDone
  /-- An operation of a ring unit, known by its packet number (12 R443). -/
  | ringUnit
deriving DecidableEq, Repr

/-- A detour around a hole: the hole's field and the direction (08 R307). -/
structure Detour where
  hole : Nat
  clockwise : Bool
deriving DecidableEq, Repr

/-- A packet, from its issue to its arrival (08 Table 8.2). -/
structure Packet where
  /-- The model's own number of the packet. -/
  id : Nat
  typ : PacketType
  f : Bool := false
  ld : Nat := 0
  rt : Lcn
  dst : Lcn
  opc : Nat := 0
  src : Lcn
  sth : Fin 4 := 0
  tag : Nat := 0
  gen : Nat := 0
  arg : Nat := 0
  /-- Payload flits. -/
  flits : Nat := 0
  /-- The payload, first byte least significant. -/
  body : Nat := 0
  sender : Requester := .thread
  /-- The fence destination of 08 R318. -/
  fence : Nat := 0
  /-- The logical position of the router that holds it. -/
  pos : Lcn
  /-- The side it entered its router by: 0 north, 1 east, 2 south, 3 west, 4 local. -/
  side : Nat := 4
  /-- It has left its network interface (08 R314, R317). -/
  injected : Bool := true
  cm : Bool := false
  ce : Bool := false
  ring : Option Detour := none
  hops : Nat := 0
  seams : Nat := 0
  /-- Its packet check still holds (08 R296). -/
  good : Bool := true
  /-- In a reply: the number of its request, and whether a window counts that request as outstanding. -/
  req : Nat := 0
  bulk : Bool := false
  /-- Its place in the order of injection, and in a reply that of its request (08 R315). -/
  inj : Nat := 0
  reqInj : Nat := 0
deriving DecidableEq, Repr

/-- Seam link states (08 Table 8.6). -/
inductive LinkState | up | retry | retrain | failed | off
deriving DecidableEq, Repr

/-- One direction of a seam link: the 6-bit number of the next flit sent, the packets whose flits the replay buffer holds,
oldest first and at most 64 flits, and the flit that a NAK named until the replay begins (08 R329). -/
structure SeamDir where
  next : Nat := 0
  buffer : List Nat := []
  resend : Option Nat := none
deriving DecidableEq, Repr

/-- A seam link of one row or column on one network, both directions. -/
structure SeamLink where
  st : LinkState := .off
  /-- Replay attempts that failed since the last retrain (08 R330). -/
  attempts : Nat := 0
  retrains : Nat := 0
  /-- Start cc of the episodes that began within the last 2^20 cc (08 R332). -/
  starts : List Nat := []
  /-- Flits that travel east or south, and those that travel west or north. -/
  onward : SeamDir := {}
  back : SeamDir := {}
deriving DecidableEq, Repr

/-- The arbitration of an output port of a router: the consecutive choices that each VC has lost, and the input that each
VC's rotating pointer stands at (08 R294). -/
structure RouterPort where
  lost : PMap Nat := []
  next : PMap Nat := []
deriving DecidableEq, Repr

/-- The fabric: packets in the network and in the interfaces, links, and translation caches. -/
structure Fabric where
  /-- Packets; those of one buffer in the order in which they joined it. -/
  pkts : List Packet := []
  nextId : Nat := 0
  /-- Packets injected so far (08 R315). -/
  injected : Nat := 0
  /-- Output ports of routers, by (position × 2 + network) × 4 + side (08 R294). -/
  ports : PMap RouterPort := []
  /-- Holes in excess of the detour limits, of the holes in FAB_HOLEMAP (08 R306). -/
  excess : List Nat := []
  /-- By ((field × 4 + side) × 2 + network) × 128 + row or column. -/
  links : PMap SeamLink := []
  /-- Translation caches by core: row segments, most recently used first (07 R285). -/
  caches : PMap (List Nat) := []
deriving DecidableEq, Repr

/-! ### Marker (07) -/

/-- A cut order in service or waiting (07 R265, R274). -/
structure CutOrder where
  /-- The state code of 07 Table 7.9. -/
  st : Nat
  gen : Nat
  ld : Nat
  desc : Descriptor
  /-- The rank table: logical core of each core index. -/
  cores : List Nat := []
  /-- The row segments held, as 8 × logical row + fx. -/
  segments : List Nat := []
  /-- First tile and tile count of each object, in table order. -/
  objects : List (Nat × Nat) := []
  pgen : Nat := 0
  startTr : Nat := 0
  endTr : Nat := 0
  reason : Nat := 0
  /-- Threads lost with their cores (16 R577). -/
  lost : Nat := 0
  /-- An ABORT or RELEASE on its way: the state it ends in, 8 or 6, and whether the core resets have begun (07 R267). -/
  ending : Option (Nat × Bool) := none
  /-- MRK_SPLIT_THRESH as it stood at placement (06 R248, R249). -/
  thresh : Nat := 0
deriving DecidableEq, Repr

/-- The tables of a slot window as Marker last wrote them (07 Table 7.12). -/
structure SlotTables where
  id : Nat
  ld : Nat
  st : Nat
  cores : Nat
  tpc : Nat
  threads : Nat
  pgen : Nat
  /-- First tile, tiles, KIND and SRC of each object. -/
  objects : List (Nat × Nat × Nat × Nat)
  /-- The rank table. -/
  ranks : List Nat
deriving DecidableEq, Repr

/-- The operands that a selection command takes at its start beside its command fields (06 R240). -/
structure SelLatch where
  thr : Nat
  addr : Nat
  stride : Nat
  tpg : Nat
  dst : Nat
deriving DecidableEq, Repr

/-- A steering unit (10 R393): the pair it joins next, its pushes to its outputs, and whether a bad entry has stopped it
(15 R536). -/
structure SteerUnit where
  n : Nat := 0
  out0 : Nat := 0
  out1 : Nat := 0
  halted : Bool := false
deriving DecidableEq, Repr

/-- A slot load in progress (10 R387). -/
structure PatLoad where
  slot : Nat
  src : Nat
  tack : Nat
deriving DecidableEq, Repr

/-- A pending pattern switch (10 R397). -/
structure PatSwitch where
  slot : Nat
  force : Bool
  cued : Bool
  /-- It runs: cycles 0 to 255 of 10 Table 10.6, in which the pattern window cannot be read (10 R399). -/
  running : Bool := false
deriving DecidableEq, Repr

/-- A message whose payload another thread's store may still reach: its packet, its thread, that thread's count of retired
instructions when it issued, and the first byte and length of the payload in SRAM (03 R124). -/
structure SentMsg where
  pkt : Nat
  thread : Fin 4
  retired : Nat
  off : Nat
  len : Nat
deriving DecidableEq, Repr

/-- What a core holds beside its threads, its registers and its memories. -/
structure Core where
  /-- Request tags 0 to 63 (02 R71). -/
  tags : PMap Tag := []
  /-- The thread that last received a tag (02 R74). -/
  lastTag : Nat := 3
  /-- Accumulators c0 to c3 (02 R84). -/
  accs : PMap Acc := []
  /-- Owners written while the accumulator was in use (02 R86). -/
  accNext : PMap Nat := []
  /-- The T pipe lost the previous conflict of the pipes for the read port (02 R62). -/
  tPipeLost : Bool := false
  /-- Consecutive cc that each port has lost: 0 the read port, 1 the write port, 2 the network-interface port (02 R61). -/
  portLost : PMap Nat := []
  /-- The last message sent (03 R124). -/
  sent : Option SentMsg := none
  /-- The tensor queue, head first, at most two entries (04 R157). -/
  queue : List Product := []
  /-- The product the array runs (04 R158). -/
  array : Option Product := none
  /-- The operands of the selection command that runs. -/
  sel : Option SelLatch := none
  /-- The 256 cc of a reseed run (05 R198). -/
  reseeding : Bool := false
  /-- Bobbins that a message or an mpoll has named, by descriptor offset / 32: whether the last mpoll found no record (09 Table
  9.6). -/
  bobbins : PMap Bool := []
  /-- Partner digests that have come before their tack point, oldest first (15 R559). -/
  digests : List Packet := []
  /-- Landing slots, in order of arrival (09 R349, R350). -/
  landing : List Packet := []
  /-- Marks on replies to packets numbered below this are ignored (08 R315). -/
  markFence : Nat := 0
  /-- Unmarked replies since the window last changed (08 R315). -/
  unmarked : Nat := 0
  /-- Merge buffers with the contributions they hold, by 2 × tree entry + side (08 R319, R321). -/
  sums : PMap Packet := []
  /-- Contributions of a sum that is on its way to the parent, by tree entry (08 R322). -/
  owed : PMap (List Packet) := []
  /-- Pops of an in end and pushes of an out end of the active pattern, by end (10 R392). -/
  ends : PMap Nat := []
  /-- Steering units, by number. -/
  steer : PMap SteerUnit := []
  /-- Slot loads in progress, in order of request. -/
  loads : List PatLoad := []
  /-- The pending switch. -/
  switch : Option PatSwitch := none
  /-- Operations of the ring unit in flight: packet number, fence destination, and whether it belongs to a share
  (12 R443). -/
  ringOps : List (Nat × Nat × Bool) := []
  /-- Verdicts issued and not yet applied by the ring unit, oldest first (12 R450). -/
  verdicts : List Nat := []
  /-- The attempt in which the layout check of a REDUCE failed: no DONE is reported for it (12 R440). -/
  ringBarred : Option Nat := none
  /-- The network interface absorbs traffic: the reset phase of 16 R574. -/
  absorbing : Bool := false
deriving DecidableEq, Repr

/-- A core after core reset. -/
def Core.reset : Core := {}

/-- An event on its way to a host (14 Table 14.6). -/
structure Event where
  kind : Nat
  ld : Nat
  id : Nat := 0
  count : Nat := 1
  tr : Nat
  detail0 : Nat := 0
  detail1 : Nat := 0
deriving DecidableEq, Repr

/-! ### Watch list and repair (15, 16) -/

/-- A watch-list entry (15 R540 to R543). -/
structure WatchEntry where
  at_ : Position
  lcn : Nat
  /-- Treadle counts of its most recent failures, newest first. -/
  times : List Nat
  cause : Nat
  condemned : Bool := false
  /-- It has passed a random-operand test since its newest failure (15 R542). -/
  passed : Bool := false
deriving DecidableEq, Repr

/-- A relocation-list entry (01 Table 1.11): logical row and fx, and the gusset row that holds it. -/
structure Relocation where
  lrow : Nat
  fx : Nat
  gfx : Nat
  gfy : Nat
  grow : Nat
deriving DecidableEq, Repr


/-- A darning action in progress (16 R579, R580). -/
structure DarnAction where
  at_ : Position
  /-- 1 spare shift, 2 relocation, 3 fence. -/
  kind : Nat
  /-- The row segment that the physical row holds, as 8 × logical row + fx; none for a free gusset row. -/
  segment : Option Nat
  /-- The logical column within the field that sits on the position; 128 where none does. -/
  column : Nat
  /-- Where a relocation goes. -/
  dest : Option Relocation := none
  /-- The slot of the cut order that holds the segment. -/
  slot : Option Nat := none
  /-- The copy is done and the tables are written; the action waits for its record (step 5). -/
  recorded : Bool := false
  /-- Logical cores whose state could not be copied. -/
  lost : List Nat := []
deriving DecidableEq, Repr
/-! ### Spool engines (09) -/

/-- A posted spool request (09 R371 to R376). -/
structure SpoolReq where
  /-- The model's own number of the request. -/
  id : Nat
  panel : Nat
  core : Lcn
  thread : Fin 4
  ld : Nat
  src : Nat
  dst : Nat
  tiles : Nat
  tack : Nat
  /-- Source and destination addresses of a gather's tiles; empty for a posted copy (06 R243). -/
  gather : List (Nat × Nat) := []
  isGather : Bool := false
  /-- The engine has taken it and it passed its checks. -/
  taken : Bool := false
  /-- Tiles whose read has been issued. -/
  issued : Nat := 0
  /-- Tiles in flight: true while the write is outstanding. -/
  live : List (Nat × Bool) := []
  /-- Old contents of tiles that writes not yet acknowledged have replaced, by tile of the request (09 R376). -/
  saved : PMap (Nat × Tile) := []
deriving DecidableEq, Repr

/-- The injection window of a spool engine or a ring unit (08 R314 to R316). -/
structure SpoolWindow where
  w : Nat
  out : Nat := 0
  markFence : Nat := 0
  unmarked : Nat := 0
deriving DecidableEq, Repr

/-! ### The gradient ring's step controller (12) -/

/-- A core's report of an attempt: a malformed block, or the NaN and infinite elements of its sum (12 R444, R446), and
the digest of its weights in a marked attempt (15 R552). -/
structure RingReport where
  bad : Bool
  nan : Nat
  inf : Nat
  digest : Option (BitVec 256) := none
deriving DecidableEq, Repr

/-- A ring in service (12 R431, R447 to R450; 15 R552). -/
structure Ring where
  slot : Nat
  nrep : Nat
  mseg : Nat
  /-- Reports of the attempt, by logical core. -/
  reports : PMap RingReport := []
  /-- The deadline fired before every core had reported. -/
  late : Bool := false
  /-- A core was lost or reset, or a share failed. -/
  fail : Bool := false
  /-- The ring units are being halted for a verdict. -/
  halting : Bool := false
  /-- Cores whose halted unit has reported QUIET. -/
  quiet : List Nat := []
  /-- The field whose cue table holds the ring's cues. -/
  cueField : Option Nat := none
  /-- The REDUCE of the current attempt has started on some core. -/
  started : Bool := false
  /-- The next attempt is to be marked. -/
  markNext : Bool := false
  /-- The current attempt is marked. -/
  marked : Bool := false
  /-- Digests of an immediate comparison, by logical core. -/
  nowDigests : PMap (BitVec 256) := []
deriving DecidableEq, Repr

/-! ### Marker's migrations and writes to hosts (07) -/

/-- A migration in progress (07 R278, R279): the field, the slots still to move, and whether the first of them is
halted. -/
structure Migration where
  field : Nat
  todo : List Nat
  /-- It was asked for by the power block: the field parks when it ends (19 R639). -/
  parks : Bool := false
deriving DecidableEq, Repr

/-- A write that the module makes to a host's memory, far memory, or as a message: the logical device, the device address
(07 Table 7.1), its bytes and their count. -/
structure HostWrite where
  ld : Nat
  addr : Nat
  len : Nat
  data : Nat
deriving DecidableEq, Repr

/-! ### Selvedge ports (13) -/

/-- A port tag in use: its request, or the request whose timer fired, out of use until it is released (13 R469, R481). -/
structure PortTag where
  req : Packet
  expired : Bool := false
deriving DecidableEq, Repr

/-- A command in a frame to the unit (13 Table 13.5): true for WR. -/
structure PortCommand where
  write : Bool
  size : Nat
  lk : Bool
  tag : Nat
  addr : Nat
deriving DecidableEq, Repr

/-- A sequenced frame that a port has sent and the unit has not acknowledged (13 R471, R477): IDLE without commands, SINGLE
with the data of a WR, or BUNDLE. -/
structure PortFrame where
  fseq : Nat
  commands : List PortCommand := []
  bundle : Bool := false
  data : Nat := 0
deriving DecidableEq, Repr

/-- The lock that a requester holds: its panel, and its grants under the lock (13 R490). -/
structure PortLock where
  panel : Nat
  grants : Nat
deriving DecidableEq, Repr

/-- A Selvedge port beside its registers. -/
structure Port where
  /-- Accepted requests that hold no tag yet, oldest first (13 R465). -/
  ingress : List Packet := []
  tags : PMap PortTag := []
  /-- FSEQ of the next sequenced frame sent. -/
  next : Nat := 0
  /-- The replay buffer, oldest first. -/
  replay : List PortFrame := []
  /-- FSEQ expected from the unit. -/
  expect : Nat := 0
  /-- A frame has failed and the expected one has not come yet (13 R476). -/
  discarding : Bool := false
  /-- The last FSEQ of the replay in progress (13 R478). -/
  replaying : Option Nat := none
  attempts : Nat := 0
  retrains : Nat := 0
  /-- Start beats of the episodes within the last 2^30 beats (13 R478). -/
  starts : List Nat := []
  /-- Beats of each lane's marker failures within the last 2^24 beats (13 R482). -/
  markers : PMap (List Nat) := []
  /-- Lanes that went bad too late for the training or retrain in progress (13 R482). -/
  late : List Nat := []
  /-- Wait counters by panel (13 R489). -/
  waits : PMap Nat := []
  /-- The rotating pointer of the arbiter, a panel (13 R488). -/
  pointer : Nat := 0
  lock : Option PortLock := none
  /-- Frames of the replay in progress that have not been sent again yet (13 R477). -/
  resend : List PortFrame := []
  /-- Beats of frames since the last alignment marker sent (13 R460). -/
  beat : Nat := 0
  /-- Lanes that went bad in OFF or FAILED, or in TRAINING before its step 2 ended, as bits (13 R482). -/
  down : Nat := 0
deriving DecidableEq, Repr

/-! ### The host port (14) -/

/-- The CXL.cache requests that the module issues (14 Table 14.1). -/
inductive CacheOp | rdCurr | woWrInv | woWrInvF
deriving DecidableEq, Repr

/-- A CXL.cache request for one line of 64 B of host memory: for which LD, the line, and the bytes of it that it reads or
writes (14 R507). -/
structure CacheRequest where
  ld : Nat
  op : CacheOp
  line : Nat
  mask : Nat
deriving DecidableEq, Repr

/-- An answer that the module gives to a host or on the management bus, kept for the outside to see: who it is for, what
kind of answer, whether it is good, and its bytes. -/
structure HostAnswer where
  ld : Nat
  kind : Nat
  ok : Bool
  len : Nat
  data : Nat
deriving DecidableEq, Repr

/-- The content of a beacon word (14 Table 14.3): fibres retired for transmitting, and fibres asked of the peer. -/
structure Beacon where
  tx0 : Nat
  tx1 : Nat
  rq0 : Nat
  rq1 : Nat
deriving DecidableEq, Repr

/-- The optical lanes of the host port beside CXL_FIBRE (14 R495 to R498). -/
structure Fibres where
  /-- The fibres that the module asks its peer to retire, in order. -/
  asks : List Nat := []
  /-- Fibres that have gone bad, for receiving. -/
  bad : List Nat := []
  /-- The last word received with a correct CRC. -/
  last : Option (BitVec 40) := none
  /-- The last valid beacon. -/
  peer : Option Beacon := none
  /-- The module has asked for Recovery and the link has not entered it yet. -/
  recovery : Bool := false
  /-- The lanes that the link runs on, in ascending order: 16, or 8 after down-training (14 R498). -/
  lanes : List Nat := List.range 16
deriving DecidableEq, Repr

/-! ### The store (20) -/

/-- What a copy of a store section holds; each section uses its own fields (20 Table 20.5). -/
structure Payload where
  /-- REPAIR: the repair map by physical row, the fenced logical cores and the bad positions that hold them, the positions
  on which a test and the fuse map disagreed, the relocation list, and the counts of BRG_DISAGREE
  and BRG_DARN_COUNT. -/
  badPositions : PMap (List Nat) := []
  fenced : List Nat := []
  heldBad : List Position := []
  disagreements : List Position := []
  relocations : List Relocation := []
  counts : List Nat := [0, 0, 0, 0, 0, 0]
  /-- TOPO: the seam links that are not expected to carry traffic. -/
  unexpected : List Nat := []
  /-- WATCH. -/
  watch : List WatchEntry := []
  /-- LIFE: power-on hours, resets, trips by field, darning actions. -/
  hours : Nat := 0
  resets : Nat := 0
  trips : PMap Nat := []
  darns : Nat := 0
deriving DecidableEq, Repr

/-- A copy of a section in a bank (20 R661): erased, without a valid header or check, or valid with its SEQ. -/
inductive CopyState
  | blank
  | broken
  | valid (seq : Nat) (content : Payload)
deriving DecidableEq, Repr

/-- A section's copies in banks A and B. -/
structure Section where
  a : CopyState := .valid 1 {}
  b : CopyState := .blank
deriving DecidableEq, Repr

/-- The section write in progress (20 R662, R663): the section, what is written, and whether its contents changed since. -/
structure NvsWrite where
  id : Nat
  content : Payload
deriving DecidableEq, Repr

/-! ### Resets (16, 17) -/

/-- What a reset of 17 Table 17.1 reaches. -/
structure Reach where
  mgmt : Bool
  i3c : Bool
  host : Bool
  fields : Bool
deriving DecidableEq, Repr

/-- A reset of 17 Table 17.1 in progress. -/
structure ResetRun where
  reach : Reach
  /-- The next assertion step, 1 to 6: A1, A2, A3, the two parts of A4, A5; none once release may begin. -/
  assertStep : Option Nat
  /-- The step that release starts from. -/
  start : Nat
  /-- The next release step, 1 to 7. -/
  release : Nat
  /-- The optics group that step 7 releases next. -/
  group : Nat := 0
  /-- Sources that have not been withdrawn, by code. -/
  sources : List Nat := []
  /-- It waits for the end of a write pulse (17 R591). -/
  delayed : Bool := false
deriving DecidableEq, Repr

/-- A partial reset in progress: its scope and target, and its phase, 1 drain, 2 reset, 3 release (16 R575). -/
structure PartialReset where
  scope : Nat
  target : Nat
  phase : Nat
  /-- It is the partition reset of a Function Level Reset (14 R525). -/
  flr : Bool := false
deriving DecidableEq, Repr

/-! ### Clocks, power, management (18, 19, 21) -/

/-- A stitch sequence in progress (18 R606): the setting it goes to, whether it raises, and whether the clock has been
switched. -/
structure Sequence where
  setting : Nat
  raises : Bool
  switched : Bool
deriving DecidableEq, Repr

/-- The state of the power controller beside its registers (19 R633 to R637). -/
structure PowerCtl where
  /-- Offset between the measured and the modelled power, in W. -/
  offset : Int := 0
  /-- The latest samples of input power, in mW, newest first: at most 20, which 10 µs part. -/
  samples : List Nat := []
  /-- Fields that reached WARN and have not parked for it yet. -/
  asking : List Nat := []
  /-- Fields whose unparking has been decided and has not begun. -/
  due : List Nat := []
  /-- Fields that are being unparked. -/
  unparking : List Nat := []
deriving DecidableEq, Repr

/-- An SPDM connection of a logical device (20 R656): how far negotiation has come, and its session, open or still in its
handshake. -/
structure Spdm where
  stage : Nat := 0
  session : Option Bool := none
deriving DecidableEq, Repr

/-- The management interface beside its registers (21 R676 to R683). -/
structure Management where
  /-- The reset action that the next target reset pattern performs: RSTACT's defining byte. -/
  rstact : Option Nat := none
  /-- Pending IBI codes. -/
  ibis : List Nat := []
  /-- The response of the last command: STATUS, SEQ and data bytes. -/
  response : Option (Nat × Nat × List Nat) := none
  /-- The slot that FW_BEGIN named. -/
  slot : Option Nat := none
  /-- The arbiter of the register bus: wait counters, rotating pointer, lock owner and its grants. -/
  waits : PMap Nat := []
  pointer : Nat := 0
  lock : Option PortLock := none
deriving DecidableEq, Repr

/-! ### The module -/

/-- The state of the module. -/
structure State where
  /-- The commands that wait, first in first out (the model's own, log entry 4). -/
  pending : List Instr := []
  /-- How many free values the model has taken (the model's own, log entry 6). -/
  freeCtr : Nat := 0
  /-- Every register field of the manual's tables, by field number, unit and index. -/
  regs : PMap Nat := []
  /-- Counters of time that have run since their reset, by the key of their register field (log entry 7). -/
  ticked : List Nat := []
  /-- Threads, by 4 × logical core + thread (01 R23). -/
  threads : PMap Thread := []
  /-- Cores, by logical core number. -/
  cores : PMap Core := []
  /-- Lane generators, by logical lane number (05 R194). -/
  lanes : PMap Word := []
  /-- The data SRAMs, by wafer SRAM address (01 R24). -/
  sram : List Host.Cell := []
  /-- Tiles whose checksum does not match their bytes, as 256 × logical core + tile (15 R528). -/
  damaged : List Nat := []
  /-- Tiles whose BAD bit is 1 (15 R531). -/
  badTiles : List Nat := []
  /-- Instruction stores, by 0x2000 × logical core + byte address (02 R69). -/
  istore : List Host.Cell := []
  /-- Words of the instruction stores whose parity fails, by byte address / 4 (15 R537). -/
  istoreBad : List Nat := []
  /-- Pattern stores, by 0x4000 × logical core + byte offset. -/
  patStore : List Host.Cell := []
  patBad : List Nat := []
  /-- Fenced logical cores (16 R579). -/
  fenced : List Nat := []
  /-- Positions in no use for a logical column, by physical row (128 × field + row): bad positions that hold no fenced
  column (01 R8, R9). -/
  badPositions : PMap (List Nat) := []
  /-- Bad positions that hold a fenced column (01 R8). -/
  heldBad : List Position := []
  /-- Positions that the fuse map, written once at the factory, marks bad (16 R569). -/
  fuseMap : List Position := []
  /-- Positions on which the fuse map and a start-up test disagreed (16 R570). -/
  disagreements : List Position := []
  /-- The relocation list, sorted by logical row and then by fx (01 R35). -/
  relocations : List Relocation := []
  /-- The watch list (15 R540). -/
  watch : List WatchEntry := []
  /-- Positions condemned or asked for, waiting for darning, in order of arrival (16 R578). -/
  darnQueue : List Position := []
  /-- The darning action in progress (16 R578). -/
  darn : Option DarnAction := none
  fab : Fabric := {}
  /-- Cut orders in service, by slot (07 R266). -/
  slots : PMap CutOrder := []
  /-- The slot windows that Marker has written (07 R274). -/
  slotTables : PMap SlotTables := []
  /-- The waiting cut order of each logical device, with its descriptor (07 R266). -/
  waitingOrders : PMap CutOrder := []
  /-- The gradient rings in service, by number (12 R431). -/
  rings : PMap Ring := []
  /-- Cue entries whose count has come and that have not fired, as 256 × field + entry (18 R620, R621). -/
  cueDue : List Nat := []
  /-- The logical device whose ring Marker served last (07 R260). -/
  markerLast : Nat := 15
  /-- GEN of the distance table (01 R36). -/
  distGen : Nat := 0
  /-- The migration in progress (07 R279). -/
  migration : Option Migration := none
  /-- What the module has written to its hosts and to far memory on its own account, oldest first: status records, event
  records, MSI-X messages, objects written back. -/
  hostOut : List HostWrite := []
  /-- Selvedge ports, by number (13). -/
  ports : PMap Port := []
  /-- Frames that ports have sent to their units, with the port, oldest first (13 R471). -/
  portOut : List (Nat × BitVec 2176) := []
  /-- Port steering stages: the physical position that each port reaches in its attachment row (13 R462). -/
  portSteer : PMap Nat := []
  /-- Ports that the store marks as fused off: those whose attachment router was bad at shipment, and those of rows relocated at
  first bring-up (13 R463, Table 13.11). -/
  fusedPorts : List Nat := []
  /-- Host-memory requests that wait for their host's answer (14 R507). -/
  hostReqs : List Packet := []
  /-- CXL.cache requests sent to hosts, oldest first (14 R507). -/
  cacheOut : List CacheRequest := []
  /-- MSI-X messages sent, by logical device and vector, oldest first (14 R520). -/
  messages : List (Nat × Nat) := []
  /-- Masked vectors whose message is pending (14 R520). -/
  msixPending : List Nat := []
  fibres : Fibres := {}
  /-- Answers to hosts and on the management bus, oldest first. -/
  answers : List HostAnswer := []
  /-- Seam links that the expected topology does not list (16 R567); none on a perfect wafer. -/
  unexpected : List Nat := []
  /-- Seam links that passed their last measurement (16 R566). -/
  discovered : List Nat := []
  /-- The bring-up command that runs, as BRG_CMD was written (16 R564). -/
  brgCmd : Option Nat := none
  /-- The store held no repair map when it was loaded (16 R571). -/
  firstBringUp : Bool := false
  partialReset : Option PartialReset := none
  /-- Partition resets of Function Level Resets that wait for the one that runs (16 Table 16.5). -/
  waitingResets : List PartialReset := []
  /-- The reset of the module in progress; after power-on, release is about to begin (17 R588). -/
  resetRun : Option ResetRun :=
    some { reach := ⟨true, true, true, true⟩, assertStep := none, start := 1, release := 1 }
  /-- A software reset of the store's block waits for the end of a write pulse (17 R591). -/
  nvsResetWaits : Bool := false
  /-- Settings of each field's PLLs, by 2 × field + PLL (18 R600). -/
  pllSetting : PMap Nat := []
  sequences : PMap Sequence := []
  /-- Fields whose sequencer holds after a loss of lock (18 R604). -/
  lockHold : List Nat := []
  /-- Fields whose trees stand still until the new source of a MODE 1 switch is ready (18 R603). -/
  stopped : List Nat := []
  power : PowerCtl := {}
  /-- Sections of the store, by ID (20 R659). -/
  store : PMap Section := []
  /-- LIFE as it stands: power-on hours, resets, trips by field, darning actions. -/
  life : Payload := {}
  /-- Sections that wait to be written. -/
  nvsQueue : List Nat := []
  nvsWrite : Option NvsWrite := none
  /-- Bytes written to the firmware slots by updates, by 2^22 × slot + offset (20 R653). -/
  firmware : List Host.Cell := []
  /-- The runs of bytes of the firmware slots that updates have written, as address and length; what the rest of the flash
  holds comes from the factory (20 R650). -/
  fwRuns : List (Nat × Nat) := []
  /-- THM_UPD_BUF, by byte offset. -/
  updBuf : List Host.Cell := []
  spdm : PMap Spdm := []
  /-- IDE streams that hold a key: 16 the link stream, 0 to 15 the selective ones (20 R658). -/
  ideKeys : List Nat := []
  mgt : Management := {}
  /-- The treadle count at which TEST_EN was set (15 R547). -/
  testsFrom : Nat := 0
  /-- Row segments under test, as 8 × logical row + fx, with the groups of cores still to finish (15 R548, R549). -/
  tests : PMap (List (List Nat)) := []
  /-- Open trap windows by slot: traps folded so far, the thread ID of the first of them, and its treadle count
  (14 R522). -/
  trapWindows : PMap (Nat × Nat × Nat) := []
  /-- Each field's copy of the treadle count (18 R615). -/
  trdCopy : PMap Nat := []
  /-- How often each field's copy has advanced, up to 2 (18 R616). -/
  trdAdvances : PMap Nat := []
  /-- Spool requests posted and not complete, in order of posting (09 R373). -/
  spool : List SpoolReq := []
  nextSpool : Nat := 0
  /-- Injection windows of the spool engines, by panel. -/
  spoolWin : PMap SpoolWindow := []
  /-- Events raised and not yet written to a host's queue (14 R520). -/
  events : List Event := []
deriving DecidableEq, Repr

/-- The module right after reset: every register at its reset value, every memory with nothing listed. -/
def State.reset : State := {}

end Sys2Proof.Machine
end

