-- ==== Sys2Proof/Machine/Ops.lean ====
section
/-!
DEFINITION. The named operations over the state: register fields, threads, cores, SRAM tiles, geometry, events, traps,
tack signals. Every meaning reads and writes the state through them.
-/

namespace Sys2Proof.Machine

/-- The outcome of a command. -/
abbrev Out := Host.Outcome State Fault Refusal

/-! ### Register fields -/

/-- The key of a field's copy: field number, unit and index. -/
def fldKey (f : Fld) (u n : Nat) : Nat := (f.id * 2 ^ 20 + u) * 2 ^ 12 + n

/-- A register field: unit `u` (core, field, panel, port, logical device, ring), index `n`. -/
def State.get (s : State) (f : Fld) (u : Nat := 0) (n : Nat := 0) : Nat :=
  mget (f.rst u n) s.regs (fldKey f u n)

/-- A field as a flag. -/
def State.flag (s : State) (f : Fld) (u : Nat := 0) (n : Nat := 0) : Bool := decide (s.get f u n = 1)

/-- The state with a field set to the low bits of a value. -/
def State.put (s : State) (f : Fld) (v : Nat) (u : Nat := 0) (n : Nat := 0) : State :=
  { s with regs := mset (f.rst u n) s.regs (fldKey f u n) (v % 2 ^ f.width) }

/-- A counter of time has run: what it shows is a matter of time until its reset (log entry 7). -/
def State.tick (s : State) (f : Fld) (u : Nat := 0) (n : Nat := 0) : State :=
  { s with ticked := if s.ticked.contains (fldKey f u n) then s.ticked else s.ticked ++ [fldKey f u n] }

/-- The registers whose keys meet a condition return to their reset values, and their timed counters with them. -/
def State.resetKeys (s : State) (gone : Nat → Bool) : State :=
  { s with regs := s.regs.filter fun e => !gone e.1
           ticked := s.ticked.filter fun k => !gone k }

/-- A saturating count after `k` more events, with its sticky flag (02 R91). The flag is set at the events that come once the
count stands at its maximum (DEDUCED: 02 R91 says of a count at its maximum that it sets its flag again at every event; log
entry 46). -/
def State.addSat (s : State) (f sat : Fld) (k : Nat) (u : Nat := 0) (n : Nat := 0) (satn : Nat := n) : State :=
  if s.get f u n + k ≤ 2 ^ f.width - 1 then s.put f (s.get f u n + k) u n
  else (s.put f (2 ^ f.width - 1) u n).put sat 1 u satn

/-- A saturating count without a sticky flag after `k` more events. -/
def State.addMax (s : State) (f : Fld) (k : Nat) (u : Nat := 0) (n : Nat := 0) : State :=
  s.put f (min (s.get f u n + k) (2 ^ f.width - 1)) u n

/-- A wrapping count after `k` more events. -/
def State.addWrap (s : State) (f : Fld) (k : Nat) (u : Nat := 0) (n : Nat := 0) : State :=
  s.put f (s.get f u n + k) u n

/-- A bit of a field set or cleared. -/
def State.putBit (s : State) (f : Fld) (i : Nat) (b : Bool) (u : Nat := 0) (n : Nat := 0) : State :=
  let v := s.get f u n
  s.put f (if v.testBit i = b then v else if b then v + 2 ^ i else v - 2 ^ i) u n

/-- A free value of `w` bits, and the state that has taken it (log entry 6). -/
def State.free (s : State) (w : Nat) : BitVec w × State :=
  (Config.freeBits w s.freeCtr, { s with freeCtr := s.freeCtr + 1 })

/-! ### Threads and cores -/

/-- The number of a thread among all threads, its thread ID (01 R23). -/
def threadId (c : Lcn) (t : Fin 4) : Nat := c.toNat * 4 + t.val

def State.thread (s : State) (c : Lcn) (t : Fin 4) : Thread := mget Thread.reset s.threads (threadId c t)

def State.setThread (s : State) (c : Lcn) (t : Fin 4) (th : Thread) : State :=
  { s with threads := mset Thread.reset s.threads (threadId c t) th }

def State.core (s : State) (c : Lcn) : Core := mget Core.reset s.cores c.toNat

def State.setCore (s : State) (c : Lcn) (k : Core) : State :=
  { s with cores := mset Core.reset s.cores c.toNat k }

/-- The four threads of a core. -/
def allThreads : List (Fin 4) := [0, 1, 2, 3]

/-- s[r]; s0 reads as zero (02 R46). -/
def Thread.readS (th : Thread) (r : Fin 32) : Word := if r = 0 then 0 else mget 0 th.s r.val

/-- The thread after a write of s[r]; a write of s0 is ignored (02 R46). -/
def Thread.writeS (th : Thread) (r : Fin 32) (v : Word) : Thread :=
  if r = 0 then th else { th with s := mset 0 th.s r.val v }

def Thread.readA (th : Thread) (r : Fin 16) : Word := mget 0 th.a r.val

def Thread.writeA (th : Thread) (r : Fin 16) (v : Word) : Thread := { th with a := mset 0 th.a r.val v }

/-- p[r]; p0 reads as 1 (02 R46). -/
def Thread.readP (th : Thread) (r : Fin 8) : Bool := decide (r = 0) || th.p.getLsbD r.val

/-- The thread after a write of p[r]; a write of p0 is ignored (02 R46). -/
def Thread.writeP (th : Thread) (r : Fin 8) (v : Bool) : Thread :=
  if r = 0 then th
  else { th with p := (th.p &&& ~~~(1#8 <<< r.val)) ||| ((BitVec.ofBool v).zeroExtend 8 <<< r.val) }

def Thread.readT (th : Thread) (r : Fin 8) : Tile := mget 0 th.t r.val

def Thread.writeT (th : Thread) (r : Fin 8) (v : Tile) : Thread := { th with t := mset 0 th.t r.val v }

/-- The guard of an instruction (03 R98). -/
def Thread.guard (th : Thread) (x : Issue) : Bool := th.readP x.pred != x.pn

/-! ### Geometry (01) -/

/-- The field of a logical core (01 Table 1.2). -/
def fieldOf (c : Lcn) : Nat := (c.toNat / 1024 / 128) * 8 + (c.toNat % 1024) / 128

/-- The panel of a logical core, as 8 × field + panel. -/
def panelOf (c : Lcn) : Nat := fieldOf c * 8 + (c.toNat / 1024 / 16) % 8

/-- The row segment of a logical core, as 8 × logical row + fx (07 R283). -/
def segmentOf (c : Lcn) : Nat := (c.toNat / 1024) * 8 + (c.toNat % 1024) / 128

/-- A logical position from row and column. -/
def posOf (row col : Nat) : Lcn := BitVec.ofNat 20 (row * 1024 + col)

def rowOf (c : Lcn) : Nat := c.toNat / 1024
def colOf (c : Lcn) : Nat := c.toNat % 1024

/-- A gusset core: panel 7 of a field whose fx + fy is odd (01 Table 1.2). -/
def isGusset (c : Lcn) : Bool :=
  decide ((fieldOf c % 8 + fieldOf c / 8) % 2 = 1) && decide (panelOf c % 8 = 7)

/-- A field is a hole (08 R311). -/
def State.isHole (s : State) (f : Nat) : Bool := (s.get F.FAB_HOLEMAP_HOLES).testBit f

/-- A power domain of 19 Table 19.1 is on: compute of field f at f, transit at 64 + f, optics group g at 128 + g, host-attach
at 136 and 137 (19 R624). -/
def State.domainOn (s : State) (i : Nat) : Bool := (s.get F.PWR_DOMSTATn_ON 0 (i / 64)).testBit (i % 64)

def State.setDomain (s : State) (i : Nat) (on : Bool) : State := s.putBit F.PWR_DOMSTATn_ON (i % 64) on 0 (i / 64)

def State.computeOn (s : State) (f : Nat) : Bool := s.domainOn f

def State.transitOn (s : State) (f : Nat) : Bool := s.domainOn (64 + f)

/-- A field is parked: its compute domain is off and its transit domain is on (19 R625). -/
def State.isParked (s : State) (f : Nat) : Bool := s.transitOn f && !s.computeOn f

def State.isFenced (s : State) (c : Lcn) : Bool := s.fenced.contains c.toNat

/-- The physical row that holds a row segment, as 128 × field + row (01 R8, R17). -/
def State.rowOfSegment (s : State) (seg : Nat) : Nat :=
  match s.relocations.find? fun r => r.lrow * 8 + r.fx == seg with
  | some r => (r.gfy * 8 + r.gfx) * 128 + 112 + r.grow
  | none => (seg / 8 / 128 * 8 + seg % 8) * 128 + seg / 8 % 128

/-- The field whose silicon holds a logical core. -/
def State.homeField (s : State) (c : Lcn) : Nat := s.rowOfSegment (segmentOf c) / 128

/-- A logical core is backed: outside the gussets, not fenced, held in a field whose compute domain is on, so in no parked
field and no hole (02 R88). DESIGN CHOICE for a core of a parked field whose row a running field's gusset holds: the holding
field decides, so it stays backed (01 R15; log entry 46). -/
def State.backed (s : State) (c : Lcn) : Bool :=
  !isGusset c && !s.isFenced c && s.computeOn (s.homeField c) && !s.isHole (s.homeField c)

/-- The compute tree of a field runs: it is enabled and not held by a switch of its source (18 R599, R603). -/
def State.computeTree (s : State) (f : Nat) : Bool := s.flag F.CLK_FLDf_CTL_CMP_EN f && !s.stopped.contains f

/-- The transit tree of a field runs. -/
def State.transitTree (s : State) (f : Nat) : Bool := s.flag F.CLK_FLDf_CTL_TRN_EN f && !s.stopped.contains f

/-- The core's clocks run: its own enable and its field's compute tree (02 R89, Table 2.9; 18 R599). DEDUCED: a core whose
field's tree is off or held by a switch of its source has no clock either, so an access to it is gated (log entry 46). -/
def State.clocked (s : State) (c : Lcn) : Bool :=
  s.flag F.CORE_CTL_CLK_EN c.toNat && s.computeTree (s.homeField c)

/-- A byte address of the instruction store lies in the pattern window while a switch writes it (10 R399). -/
def State.windowShut (s : State) (c : Lcn) (pc : Nat) : Bool :=
  match (s.core c).switch with
  | some w => w.running && decide (0x1000 ≤ pc) && decide (pc ≤ 0x1FFC)
  | none => false

/-- The current treadle count. -/
def State.now (s : State) : Nat := s.get F.TRD_COUNT_COUNT

/-- An update of the distance table: GEN goes to its next even value. The update is one step of the model, so no read meets the
odd value in between (01 R36; log entry 46). -/
def State.updateDistances (s : State) : State := { s with distGen := s.distGen + 2 }

/-! ### Cut orders and logical devices -/

/-- FLAGS.DUP of a cut order (07 Table 7.6). -/
def CutOrder.dup (o : CutOrder) : Bool := o.desc.flags.testBit 3

/-- Every core of a cut order: those of its rank table, and their shadows under full redundancy (15 R555). -/
def CutOrder.allCores (o : CutOrder) : List Nat :=
  o.cores ++ if o.dup then o.cores.map fun n => n ^^^ 0x80000 else []

/-- The slot whose cut order holds a core, with the cut order. -/
def State.slotOf (s : State) (c : Lcn) : Option (Nat × CutOrder) :=
  s.slots.find? fun e => e.2.allCores.contains c.toNat

/-- The logical device of a core's threads: the one that submitted its cut order, LD 0 where none holds it
(log entry 10). -/
def State.ldOf (s : State) (c : Lcn) : Nat := match s.slotOf c with
  | some e => e.2.ld
  | none => 0

/-- The darning action in progress holds a core's cut order: its threads are halted and its engines issue nothing
(16 R580). -/
def State.darnHeld (s : State) (c : Lcn) : Bool :=
  match s.darn, s.slotOf c with
  | some d, some (slot, _) => d.slot == some slot
  | _, _ => false

/-- A field lies in the partition of a logical device (14 R502). -/
def State.inPartition (s : State) (ld f : Nat) : Bool := (s.get F.CXL_LDk_PART_FIELDS ld).testBit f

/-- A core lies in the scope of a partial reset (16 Table 16.4). -/
def State.inScope (s : State) (r : PartialReset) (c : Lcn) : Bool :=
  match r.scope with
  | 0 => decide (c.toNat = r.target)
  | 1 => decide (panelOf c = r.target)
  | 2 => s.inPartition r.target (fieldOf c)
  | _ => true

/-- A core lies in a scope that drains: its engines take no new work (16 R575). -/
def State.draining (s : State) (c : Lcn) : Bool :=
  match s.partialReset with
  | some r => decide (r.phase = 1) && s.inScope r c
  | none => false

/-- A cut order holds a core in the scope of the partial reset in progress: it ends once the reset is complete
(16 R575). -/
def State.orderInReset (s : State) (o : CutOrder) : Bool :=
  match s.partialReset with
  | some r => r.scope != 0 && r.phase != 0 && o.allCores.any fun n => s.inScope r (BitVec.ofNat 20 n)
  | none => false

/-- The logical device that owns a field. -/
def State.ownerOf (s : State) (f : Nat) : Option Nat := (List.range 16).find? fun k => s.inPartition k f

/-! ### Events (14 R518 to R522) -/

/-- An event that finds its queue full, or a link that cannot carry it, is lost: OVF and LOST (14 R521). -/
def State.loseEvent (s : State) (ld : Nat) : State :=
  (s.put F.CXL_LDk_EVQPTR_OVF 1 ld).addMax F.CXL_LDk_EVQPTR_LOST 1 ld

/-- An event on its way to its logical device's queue; while the host link is down it is lost (14 R520, R524). -/
def State.raiseEvent (s : State) (e : Event) : State :=
  if s.get F.CXL_LINKSTAT_STATE < 2 then s.loseEvent e.ld
  else { s with events := s.events ++ [e] }

/-- An event raised now for one logical device. -/
def State.raise (s : State) (kind ld id detail0 detail1 : Nat) : State :=
  s.raiseEvent { kind, ld, id, tr := s.now, detail0, detail1 }

/-- An in-band interrupt on the management bus: at most one of each code waits, and only while they are enabled
(21 R678). -/
def State.pendIbi (s : State) (code : Nat) : State :=
  if s.flag F.MGT_STAT_IBI_EN && !s.mgt.ibis.contains code then
    { s with mgt := { s.mgt with ibis := s.mgt.ibis ++ [code] } }
  else s

/-- An event for LD 0 and the LD that owns a field (14 Table 14.7). -/
def State.raiseField (s : State) (kind f detail0 detail1 : Nat) : State :=
  let s := s.raise kind 0 0 detail0 detail1
  match s.ownerOf f with
  | some k => if k = 0 then s else s.raise kind k 0 detail0 detail1
  | none => s

/-- An event for every LD of a list. -/
def State.raiseAll (s : State) (kind : Nat) (lds : List Nat) (detail0 : Nat) : State :=
  lds.foldl (fun s k => s.raise kind k 0 detail0 0) s

/-- A thread-trap event: the first trap of a cut order's window is raised at once, the others are folded until the
window ends (14 R522). -/
def State.raiseTrap (s : State) (c : Lcn) (t : Fin 4) : State :=
  match s.slotOf c with
  | none => s
  | some (slot, o) =>
    match findKey s.trapWindows slot with
    | none =>
      let s := s.raise 2 o.ld (slot + o.gen * 64) (threadId c t) 0
      { s with trapWindows := putKey s.trapWindows slot (0, 0, 0) }
    | some (k, first, firstTr) =>
      let folded := (k + 1, if k = 0 then threadId c t else first, if k = 0 then s.now else firstTr)
      { s with trapWindows := putKey s.trapWindows slot folded }

/-! ### Halting and traps (02 R49, 03 R134 to R138) -/

/-- A halt request of one thread (02 R49, Table 2.3). -/
def State.haltThread (s : State) (c : Lcn) (t : Fin 4) : State :=
  let th := s.thread c t
  match th.st with
  | .running | .stalled | .waiting => s.setThread c t { th with st := .halted, former := th.st }
  | _ => s

/-- What a trap records (03 Tables 3.13, 3.14, 3.16). -/
structure TrapInfo where
  cause : Nat
  sub : Nat
  resp : Bool := false
  pc : Nat
  info : Nat := 0
  addr : Nat := 0
  multi : Bool := false
deriving DecidableEq, Repr

/-- The trap registers written. -/
def State.recordTrap (s : State) (c : Lcn) (t : Fin 4) (r : TrapInfo) : State :=
  let u := c.toNat
  let n := t.val
  ((((((((s.put F.CORE_TRAPn_CAUSE r.cause u n).put F.CORE_TRAPn_SUB r.sub u n).put F.CORE_TRAPn_RESP
    (bit r.resp) u n).put F.CORE_TRAPn_MULTI (bit r.multi) u n).put F.CORE_TRAPn_VALID 1 u n).put
    F.CORE_TRAPn_PC r.pc u n).put F.CORE_TRAPn_INFO r.info u n).put F.CORE_TRAP_ADDRn_ADDR r.addr u n)

/-- A thread takes a trap: it records the cause, enters TRAPPED and leaves any waiter set, raises its event, and halts
the core's other threads where STOP_CORE says so (03 R134, R138). A condition that meets a thread already TRAPPED only
sets MULTI (03 R136). -/
def State.trap (s : State) (c : Lcn) (t : Fin 4) (r : TrapInfo) : State :=
  let th := s.thread c t
  match th.st with
  | .trapped => s.put F.CORE_TRAPn_MULTI 1 c.toNat t.val
  | _ =>
    let s := (s.recordTrap c t r).setThread c t { th with st := .trapped, wait := none, stall := 0 }
    let s := if s.flag F.CORE_TRAPCTL_STOP_CORE c.toNat then
        allThreads.foldl (fun s u => if u = t then s else s.haltThread c u) s
      else s
    if s.flag F.CORE_TRAPCTL_EVT_EN c.toNat then s.raiseTrap c t else s

/-- A response trap of an operation: a STOPPED thread takes none and sets STOPPED_ERR (03 R119). -/
def State.trapResponse (s : State) (c : Lcn) (t : Fin 4) (r : TrapInfo) : State :=
  match (s.thread c t).st with
  | .stopped => s.put F.CORE_STAT_STOPPED_ERR 1 c.toNat
  | _ => s.trap c t { r with resp := true }

/-! ### Tacks (09 R366 to R368) -/

/-- The condition of a wait on a tack's value (03 R128). -/
def Wait.holds (w : Wait) (v : BitVec 32) : Bool :=
  if w.eq then decide (v = w.operand) else !(v - w.operand).msb

/-- The value of a tack. -/
def State.tack (s : State) (c : Lcn) (n : Fin 32) : BitVec 32 :=
  BitVec.ofNat 32 (s.get F.TACK_STATEn_VALUE c.toNat n.val)

/-- A waiting thread wakes when its wait on a tack holds; a halted waiter stays in the set (02 R50, 09 R367). -/
def State.wake (s : State) (c : Lcn) (n : Fin 32) (t : Fin 4) : State :=
  let th := s.thread c t
  match th.wait with
  | some w =>
    if w.tack = n ∧ th.st = .waiting ∧ w.holds (s.tack c n) = true then
      s.setThread c t { th with st := .running, wait := none }
    else s
  | none => s

/-- One signal applied to a tack: its value, its last signaller, and the waiters whose condition now holds
(09 R366 to R368). -/
def State.signal (s : State) (c : Lcn) (n : Fin 32) (set : Bool) (v : BitVec 32) (lkind ltid : Nat) : State :=
  let u := c.toNat
  let new := if set then v else s.tack c n + v
  let s := (((s.put F.TACK_STATEn_VALUE new.toNat u n.val).put F.TACK_STATEn_SIGNALLED 1 u n.val).put
    F.TACK_STATEn_LKIND lkind u n.val).put F.TACK_STATEn_LTID ltid u n.val
  allThreads.foldl (fun s t => s.wake c n t) s

/-! ### Data SRAM (02 R58 to R64, 15 R528 to R533) -/

/-- The key of a tile: 256 × logical core + tile. -/
def tileKey (c : Lcn) (tile : Nat) : Nat := c.toNat * 256 + tile

/-- The wafer SRAM address of a byte. -/
def sramAddr (c : Lcn) (off : Nat) : Nat := c.toNat * 65536 + off

def State.readSram (s : State) (c : Lcn) (off n : Nat) : Nat := readLE s.sram 0 (sramAddr c off) n

/-- A sparse product that remembers a written tile (06 R224). -/
def Product.touch (q : Product) (tile : Nat) : Product :=
  if q.sparse = 0 then q else { q with touched := tile :: q.touched }

/-- A write of a tile noted by the sparse products of the core's queue and array (06 R224). -/
def State.noteWrite (s : State) (c : Lcn) (tile : Nat) : State :=
  let k := s.core c
  if k.queue.isEmpty && k.array.isNone then s
  else s.setCore c { k with
    queue := k.queue.map fun q => q.touch tile
    array := k.array.map fun q => q.touch tile }

/-- Bytes written within one tile. -/
def State.writeSram (s : State) (c : Lcn) (off v n : Nat) : State :=
  { s.noteWrite c (off / 256) with sram := writeLE s.sram 0 (sramAddr c off) v n }

def State.readTile (s : State) (c : Lcn) (tile : Nat) : Tile := BitVec.ofNat 2048 (s.readSram c (tile * 256) 256)

/-- The tile's stored checksum matches its bytes. -/
def State.tileGood (s : State) (c : Lcn) (tile : Nat) : Bool := !s.damaged.contains (tileKey c tile)

/-- A whole-tile write makes the checksum match and clears BAD (15 R528, R531). -/
def State.writeTile (s : State) (c : Lcn) (tile : Nat) (v : Tile) : State :=
  { s.writeSram c (tile * 256) v.toNat 256 with
    damaged := s.damaged.erase (tileKey c tile)
    badTiles := s.badTiles.erase (tileKey c tile) }

/-- The injection windows of cores whose registers have returned to their reset values: FAB_WIN.W at the field's W_MAX (08
Table 8.9). -/
def State.resetWindows (s : State) (cores : List Lcn) : State :=
  cores.foldl (fun s c => s.put F.FAB_WIN_W (s.get F.FAB_WINCFG_W_MAX (fieldOf c)) c.toNat) s

/-! ### The watch list (15 R538 to R546) -/

/-- The (n + 1)-th number from 0 that a list does not hold. -/
def nthFree (bad : List Nat) (n : Nat) : Nat :=
  (((List.range (n + 1 + bad.length)).filter fun p => !bad.contains p)[n]?).getD n

/-- The physical position of a logical core (01 R8). -/
def State.positionOf (s : State) (c : Lcn) : Position :=
  let row := s.rowOfSegment (segmentOf c)
  { field := row / 128, panel := row % 128 / 16, row := row % 16,
    pos := nthFree (mget [] s.badPositions row) (colOf c % 128) }

/-- Two 48-bit treadle counts lie within a window: serial-number arithmetic (15 R544). -/
def withinWindow (now t window : Nat) : Bool :=
  let d := (now + 2 ^ 48 - t % 2 ^ 48) % 2 ^ 48
  decide (d ≤ window) && decide (d ≤ 2 ^ 47)

/-- Failures of an entry within the window. -/
def State.inWindow (s : State) (e : WatchEntry) : Nat :=
  (e.times.filter fun t => withinWindow s.now t (s.get F.INT_FENCE_WINDOW_TR)).length

/-- Older of two entries' newest failures, by age from now. -/
def WatchEntry.age (e : WatchEntry) (now : Nat) : Nat := (now + 2 ^ 48 - e.times.headD 0 % 2 ^ 48) % 2 ^ 48

/-- The entry that a full list gives up: the oldest newest failure among those not condemned (15 R541). -/
def State.displaced (s : State) : Option Position :=
  ((s.watch.filter fun e => !e.condemned).foldl (fun (b : Option WatchEntry) e =>
    match b with
    | none => some e
    | some f => if f.age s.now < e.age s.now then some e else b) none).map (·.at_)

/-- A failure entered in the list: added to its entry, to a new entry, or in the place of the displaced one. -/
def State.enterFailure (s : State) (p : Position) (lcn cause : Nat) : State :=
  let keep := s.get F.INT_FENCE_COUNT_COUNT
  match s.watch.find? fun e => e.at_ = p with
  | some _ =>
    { s with watch := s.watch.map fun e =>
        if e.at_ = p then { e with times := (s.now :: e.times).take keep, lcn, cause, passed := false } else e }
  | none =>
    let new : WatchEntry := { at_ := p, lcn, times := [s.now], cause }
    if s.watch.length < 1024 then { s with watch := s.watch ++ [new] }
    else
      let s' := s.addSat F.INT_STAT_DISPLACED F.INT_STAT_SAT 1
      match s.displaced with
      | some q => { s' with watch := s.watch.map fun e => if e.at_ = q then new else e }
      | none => s'

/-- A position condemned when its entry is full of failures within the window (15 R543, R546); darning takes the
request when its queue has room (16 R578). -/
def State.condemn (s : State) (p : Position) : State × Bool :=
  match s.watch.find? fun e => e.at_ = p with
  | some e =>
    if !e.condemned && decide (s.get F.INT_FENCE_COUNT_COUNT ≤ s.inWindow e) then
      if s.flag F.INT_CTL_FENCE_EN then
        let s' := s.addSat F.INT_STAT_CONDEMNED F.INT_STAT_SAT 1
        ({ s' with
            watch := s.watch.map fun e => if e.at_ = p then { e with condemned := true } else e
            darnQueue := if s.darnQueue.length < 64 then s.darnQueue ++ [p] else s.darnQueue }, true)
      else (s.put F.INT_STAT_WOULD_FENCE 1, false)
    else (s, false)
  | none => (s, false)

/-- A counted failure of a core's position (15 R538 to R546): counters, watch list, condemnation, event. -/
def State.countFailure (s : State) (c : Lcn) (cause tile : Nat) : State :=
  let p := s.positionOf c
  let s := s.addSat F.INT_CSUMSTAT_COUNTED F.INT_CSUMSTAT_SAT 1 c.toNat
  let s := s.addSat F.INT_CAUSEc_COUNT F.INT_CAUSEc_SAT 1 0 cause
  let s := s.enterFailure p c.toNat cause
  let inwin := match s.watch.find? fun e => e.at_ = p with
    | some e => s.inWindow e
    | none => 0
  let r := s.condemn p
  r.1.raiseField 0x0C (fieldOf c) c.toNat
    (cause + tile % 256 * 2 ^ 8 + 2 ^ 16 + bit r.2 * 2 ^ 17 + inwin * 2 ^ 32)

/-- A failed check of a tile: the core's detection registers, and a counted failure when its BAD bit was clear
(15 R531). -/
def State.tileFailed (s : State) (c : Lcn) (tile cause : Nat) : State :=
  let u := c.toNat
  let s := s.addSat F.INT_CSUMSTAT_DETECT F.INT_CSUMSTAT_SAT 1 u
  let s := ((s.put F.INT_CSUMLAST_TILE tile u).put F.INT_CSUMLAST_CAUSE cause u).put F.INT_CSUMLAST_TR s.now u
  if s.badTiles.contains (tileKey c tile) then s
  else
    let s := s.countFailure c cause tile
    { s with badTiles := s.badTiles ++ [tileKey c tile] }

/-- A packet-check failure counted against the core that detected it (15 R539). -/
def State.packetFailed (s : State) (c : Lcn) : State := s.countFailure c 5 0

/-! ### Clock gates (18 R610, R611) -/

/-- The clocks of a register's block run, for a unit of the block; a core window's gate is its core's CLK_EN, which gates
everything but CORE_CTL (02 R89). -/
def State.blockClocked (s : State) (r : Reg) (b : Block) (u : Nat) : Bool :=
  match b with
  | .core => s.clocked (BitVec.ofNat 20 u) || r == .CORE_CTL
  | .fld => s.flag F.CLK_FLDf_CTL_BLK_EN u
  | .pnl => s.flag F.CLK_FLDf_CTL_BLK_EN (u / 8)
  | .waf => s.flag F.CLK_BLKEN_WAF
  | .pwr => s.flag F.CLK_BLKEN_PWR
  | .trd => s.flag F.CLK_BLKEN_TRD
  | .intg => s.flag F.CLK_BLKEN_INT
  | .nvs => s.flag F.CLK_BLKEN_NVS
  | .thm => s.flag F.CLK_BLKEN_THM
  | .mrk => s.flag F.CLK_BLKEN_MRK
  | .brg => s.flag F.CLK_BLKEN_BRG
  | .cxl => s.flag F.CLK_BLKEN_CXL
  | .sel => (s.get F.CLK_PORTEN_PORTS).testBit u
  | .clk => true
  | .rst => true

/-- BAR0 offset of a block's unit (07 R255, R256); a core window's is that of the aperture (02 R87). -/
def blockOffset (b : Block) (u : Nat) : Nat :=
  match b with
  | .waf => 0
  | .clk => 0x10000
  | .rst => 0x20000
  | .pwr => 0x30000
  | .trd => 0x40000
  | .intg => 0x50000
  | .nvs => 0x60000
  | .thm => 0x70000
  | .mrk => 0x80000
  | .brg => 0x90000
  | .cxl => 0x100000
  | .sel => 0x200000 + u * 0x8000
  | .fld => 0x1000000 + u * 0x40000
  | .pnl => 0x1000000 + u / 8 * 0x40000 + 0x10000 + u % 8 * 0x4000
  | .core => 0x2000000 + (u / 1024 % 16 * 128 + u % 128) * 0x4000

/-- The BAR0 offset of a register's copy. -/
def regOffset (r : Reg) (u n : Nat) : Nat :=
  blockOffset r.place.block (if r.place.byUnit then 0 else u) + r.place.base +
    r.place.stride * (if r.place.byUnit then u else n)

/-- A GATED error is counted and its offset recorded (18 R611). -/
def State.gatedError (s : State) (off : Nat) : State :=
  (s.addSat F.CLK_GATEDERR_COUNT F.CLK_GATEDERR_SAT 1).put F.CLK_GATEDERR_LAST off

/-- A write of a register of a block: its effect, or a GATED error. -/
def State.ifClocked (s : State) (r : Reg) (u n : Nat) (f : State → State) : State :=
  if s.blockClocked r r.place.block u then f s else s.gatedError (regOffset r u n)

/-- A write of a register of a core's window: ignored where no core backs it (02 R88, R89). -/
def State.ifWindow (s : State) (r : Reg) (c : Lcn) (n : Nat) (f : State → State) : State :=
  if s.backed c then s.ifClocked r c.toNat n f else s

end Sys2Proof.Machine
end

