-- ==== Sys2Proof/Machine/Flags.lean ====
section
/-!
DEFINITION. The flag computations: the conditions of the predicate compares (03 Table 3.17), and the sticky flags of the
tile and tensor classes (04 Table 4.12, 05 R206).
-/

namespace Sys2Proof.Machine

/-- The conditions of the predicate compares. -/
inductive Cond | eq | ne | lt | ge | ltu | geu | gt | le | gtu | leu
deriving DecidableEq, Repr

/-- A condition over two 64-bit values, signed or unsigned as Table 3.17 states. -/
def Cond.holds (k : Cond) (a b : Word) : Bool :=
  match k with
  | .eq => decide (a = b)
  | .ne => decide (a ≠ b)
  | .lt => a.slt b
  | .ge => !a.slt b
  | .ltu => a.ult b
  | .geu => !a.ult b
  | .gt => b.slt a
  | .le => !b.slt a
  | .gtu => b.ult a
  | .leu => !b.ult a

/-- The sticky flags that tile and tensor arithmetic can raise (04 Table 4.12, 05 Table 5.6). -/
structure TFlags where
  nv : Bool := false
  ovf : Bool := false
  flush : Bool := false
  lowinex : Bool := false
  intwrap : Bool := false
  cvtsat : Bool := false
  clamp : Bool := false
  nanlost : Bool := false
deriving DecidableEq, Repr

/-- The flags of two results together. -/
def TFlags.or (a b : TFlags) : TFlags :=
  { nv := a.nv || b.nv, ovf := a.ovf || b.ovf, flush := a.flush || b.flush, lowinex := a.lowinex || b.lowinex,
    intwrap := a.intwrap || b.intwrap, cvtsat := a.cvtsat || b.cvtsat, clamp := a.clamp || b.clamp,
    nanlost := a.nanlost || b.nanlost }

/-- Some flag of CORE_TSTAT or CORE_FMTCTL is raised. -/
def TFlags.any (a : TFlags) : Bool :=
  a.nv || a.ovf || a.flush || a.lowinex || a.intwrap || a.cvtsat || a.clamp || a.nanlost

/-- A sticky bit set where a condition holds. -/
def State.stick (s : State) (f : Fld) (u : Nat) (b : Bool) : State := if b then s.put f 1 u else s

/-- The flags set in CORE_TSTAT and CORE_FMTCTL, with the issuing thread's SRC bits; a merge of the fabric has no
thread and sets no SRC bit (05 R206, 08 R323). -/
def State.setFlags (s : State) (c : Lcn) (t : Option (Fin 4)) (x : TFlags) : State :=
  let u := c.toNat
  let s := ((((((s.stick F.CORE_TSTAT_NV u x.nv).stick F.CORE_TSTAT_OF u x.ovf).stick F.CORE_TSTAT_FLUSH u
    x.flush).stick F.CORE_TSTAT_LOWINEX u x.lowinex).stick F.CORE_TSTAT_INTWRAP u x.intwrap).stick
    F.CORE_TSTAT_CVTSAT u x.cvtsat)
  let s := (s.stick F.CORE_FMTCTL_CLAMP u x.clamp).stick F.CORE_FMTCTL_NANLOST u x.nanlost
  match t with
  | none => s
  | some t =>
    let s := if x.any then s.putBit F.CORE_TSTAT_SRC t.val true u else s
    if x.clamp || x.nanlost then s.putBit F.CORE_FMTCTL_SRC t.val true u else s

end Sys2Proof.Machine
end

