-- ==== Sys2Proof/Machine/Operands.lean ====
section
/-!
DEFINITION. The operand forms of the instructions: second operands, immediates, effective addresses, and the instruction
lengths that the short and long forms give.
-/

namespace Sys2Proof

/-- Bytes of the instruction that carries a second operand: a long form is 8 bytes (03 R95). -/
def Src2.len : Src2 → Nat
  | .imm32 _ => 8
  | _ => 4

/-- The immediate of a compare, sign-extended (03 R685). -/
def CmpImm.value : CmpImm → Word
  | .imm9 v => v.signExtend 64
  | .imm32 v => v.signExtend 64

def CmpImm.len : CmpImm → Nat
  | .imm9 _ => 4
  | .imm32 _ => 8

/-- The byte offset of an access of `size` bytes: OFF6 scaled, OFF32 as it stands (03 R108, R95). -/
def Off.value (o : Off) (size : Nat) : Word :=
  match o with
  | .off6 v => v.signExtend 64 * BitVec.ofNat 64 size
  | .off32 v => v.signExtend 64

def Off.len : Off → Nat
  | .off6 _ => 4
  | .off32 _ => 8

/-- The byte offset of a tile access: OFF8 in tiles, OFF32 in bytes (04 R173). -/
def TileOff.value : TileOff → Word
  | .off8 v => v.signExtend 64 * 256
  | .off32 v => v.signExtend 64

def TileOff.len : TileOff → Nat
  | .off8 _ => 4
  | .off32 _ => 8

end Sys2Proof

namespace Sys2Proof.Machine

/-- The second operand of a scalar operation (03 R102). -/
def Thread.src2 (th : Thread) : Src2 → Word
  | .reg r => th.readS r
  | .imm7 v => v.signExtend 64
  | .imm32 v => v.signExtend 64

/-- The address an access uses: a[A] + offset, or a[A] unchanged with PI (03 R108). -/
def Thread.address (th : Thread) (a : Fin 16) (pi : Bool) (off : Word) : Word :=
  if pi then th.readA a else th.readA a + off

/-- The thread after the address register's update with PI: a[A] + offset (03 R108). -/
def Thread.postIncrement (th : Thread) (a : Fin 16) (pi : Bool) (off : Word) : Thread :=
  if pi then th.writeA a (th.readA a + off) else th

/-- The low bytes of a loaded value, extended to 64 bits. -/
def extendLoad (bytes : Nat) (signed : Bool) (v : Nat) : Word :=
  let w := 8 * bytes
  if signed && v.testBit (w - 1) then BitVec.ofNat 64 v ||| (BitVec.allOnes 64 <<< w)
  else BitVec.ofNat 64 (v % 2 ^ w)

/-- The logical core number that a core's threads see: a shadow sees its primary's (15 R556). -/
def State.seenLcn (s : State) (c : Lcn) : Lcn :=
  if s.flag F.INT_DUPSTAT_SHADOW c.toNat then c ^^^ 0x80000 else c

/-- The core that a core number of a thread's operation reaches: a shadow inverts bit 19 (15 R556). -/
def State.reachedLcn (s : State) (c target : Lcn) : Lcn :=
  if s.flag F.INT_DUPSTAT_SHADOW c.toNat then target ^^^ 0x80000 else target

/-- Where an address leads, decided at issue (03 Table 3.8). -/
inductive Target
  | own (off : Nat)
  | remote (c : Lcn)
  | far
  | host
  | ownWindow (off : Nat)
  | registers
  | nowhere
deriving DecidableEq, Repr

/-- The target of an address for a thread of core `c` (03 R110, 07 R251, R257). -/
def State.target (s : State) (c : Lcn) (a : Word) : Target :=
  let v := a.toNat
  let top := v / 2 ^ 48
  if top = 0 then
    if bits v 47 36 = 0 then
      let lcn := BitVec.ofNat 20 (bits v 35 16)
      if lcn = s.seenLcn c then .own (v % 65536) else .remote lcn
    else .nowhere
  else if top = 1 then (if bits v 47 46 = 0 then .far else .nowhere)
  else if top = 2 then .host
  else if top = 0xFF then
    let o := v % 2 ^ 48
    if 0x10000000 ≤ o ∧ o < 0x10004000 then .ownWindow (o - 0x10000000)
    else if 0x100000000 + c.toNat * 0x4000 ≤ o ∧ o < 0x100000000 + (c.toNat + 1) * 0x4000 then
      .ownWindow (o % 0x4000)
    else .registers
  else .nowhere

end Sys2Proof.Machine
end

