-- ==== Sys2Proof/Machine/Issue.lean ====
section
/-!
DEFINITION. How an instruction issues: eligibility, guards, stalls, request tags, issue traps and retirement
(02 R51 to R56, R71 to R78; 03 R98 to R101, R134 to R136).
-/

namespace Sys2Proof.Machine

/-- A tag's operation will write a register. -/
def TagOp.writes (o : TagOp) (r : RegRef) : Bool :=
  match o, r with
  | .load rd _ _, .s x => decide (rd = x)
  | .amo rd _, .s x => decide (rd = x)
  | .nprobe rd, .s x => decide (rd = x)
  | .tileLoad td, .t x => decide (td = x)
  | _, _ => false

/-- The tags a core's threads hold. -/
def Core.heldTags (k : Core) : List (Nat × Tag) := k.tags.filter fun e => e.2.st == .held

/-- A register waits for the answer of a held tag of its thread (03 R115). -/
def Core.isPending (k : Core) (t : Fin 4) (r : RegRef) : Bool :=
  k.heldTags.any fun e => decide (e.2.thread = t) && e.2.op.writes r

/-- Tags held by a thread. -/
def Core.heldBy (k : Core) (t : Fin 4) : Nat := (k.heldTags.filter fun e => decide (e.2.thread = t)).length

/-- Tags in the pool. -/
def Core.freeTags (k : Core) : Nat := 64 - (k.tags.filter fun e => e.2.st != .free).length

/-- The lowest-numbered tag in the pool (log entry 11). -/
def Core.nextTag (k : Core) : Nat :=
  ((List.range 64).find? fun i => decide ((mget {} k.tags i : Tag).st = .free)).getD 0

/-- The threads that wait for a free tag, or have one promised, in rotating order after the last that received one (02 R74). -/
def State.tagWaiters (s : State) (c : Lcn) : List (Fin 4) :=
  (List.range 4).filterMap fun i =>
    let t : Fin 4 := Fin.ofNat 4 ((s.core c).lastTag + 1 + i)
    if ((s.thread c t).st = .stalled ∨ (s.thread c t).st = .running) ∧ (s.thread c t).stall = 2 then some t else none

/-- Why a thread cannot take a tag: 3 at THREAD_MAX, 2 when the pool has none for it (02 R73, R74). -/
def State.tagStall (s : State) (c : Lcn) (t : Fin 4) : Option Nat :=
  let k := s.core c
  if s.get F.CORE_TAGCFG_THREAD_MAX c.toNat ≤ k.heldBy t then some 3
  else
    let before := ((s.tagWaiters c).takeWhile fun u => decide (u ≠ t)).length
    if k.freeTags ≤ before then some 2 else none

/-- A product or a reseed holds the draws of the core (05 R198, R199). -/
def Core.drawsHeld (k : Core) : Bool :=
  k.reseeding || (k.queue.any fun q => q.rm == 2) || match k.array with
    | some q => q.rm == 2
    | none => false

/-- A thread's accumulators are free of queued and running products. -/
def State.accsFree (s : State) (c : Lcn) (t : Fin 4) : Bool :=
  !(((s.core c).queue ++ (s.core c).array.toList).any fun q => s.get F.CORE_ACC_OWN_OWNER_k c.toNat q.cd.val == t.val)

/-- The reason for which a thread is stalled has cleared (02 Table 2.3). Reasons 4, 6 and 7 clear with time alone, when the
instruction is offered again (log entry 47). -/
def State.stallClears (s : State) (c : Lcn) (t : Fin 4) : Bool :=
  let th := s.thread c t
  let k := s.core c
  match th.stall with
  | 1 => !(th.wants.any fun r => k.isPending t r) && (!th.wants.isEmpty || s.accsFree c t)
  | 2 | 3 => (s.tagStall c t).isNone
  | 5 => decide (k.queue.length < 2)
  | 8 => !k.drawsHeld
  | _ => false

/-- A stalled thread of a core whose reason has cleared is RUNNING again (02 Table 2.3). -/
def State.unstall (s : State) (c : Lcn) (t : Fin 4) : State :=
  if (s.thread c t).st = .stalled ∧ s.stallClears c t = true then
    s.setThread c t { s.thread c t with st := .running }
  else s

/-- Every stalled thread of a core whose reason has cleared is RUNNING again. -/
def State.settle (s : State) (c : Lcn) : State := allThreads.foldl (fun s t => s.unstall c t) s

/-- The state after a thread takes a tag, with the tag's number and generation (02 R71, R78). -/
def State.takeTag (s : State) (c : Lcn) (t : Fin 4) (pc : Nat) (addr : Word) (op : TagOp) (dest : Nat)
    (others : List Nat := []) (dst : Lcn := BitVec.ofNat 20 dest) : State × Nat × Nat :=
  let k := s.core c
  let n := k.nextTag
  let g := (mget {} k.tags n : Tag).gen
  let held : Tag :=
    { st := .held, gen := g, thread := t, pc, addr, op, dest, dst, others, pkt := s.fab.nextId }
  (s.setCore c { k with lastTag := t.val, tags := mset {} k.tags n held }, n, g)

/-- The tag after its operation ends: back in the pool, its generation advanced for the next use (02 R78). -/
def Tag.release (g : Tag) : Tag := { gen := (g.gen + 1) % 16 }

/-- A tag of a core. -/
def State.tagAt (s : State) (c : Lcn) (n : Nat) : Tag := mget {} (s.core c).tags n

def State.setTag (s : State) (c : Lcn) (n : Nat) (g : Tag) : State :=
  s.setCore c { s.core c with tags := mset {} (s.core c).tags n g }

/-- The condition recorded among several issue-trap conditions given in rising order of cause and subcode: the lowest,
with MULTI when another holds too (03 R136). -/
def firstTrap (l : List (Bool × TrapInfo)) : Option TrapInfo :=
  match (l.filter fun e => e.1).map (·.2) with
  | [] => none
  | [r] => some r
  | r :: _ => some { r with multi := true }

/-- What an instruction does when it issues. -/
inductive Act
  /-- It has its effect and the thread goes on at a program counter. -/
  | done (s : State) (pc : Nat)
  /-- It takes an issue trap and has no effect (03 R134). -/
  | trap (r : TrapInfo)
  /-- It issues, and its own access brings a response trap (15 R533). -/
  | late (s : State) (pc : Nat) (r : TrapInfo)
  /-- Its own access resets its core: nothing of it remains (16 R574). -/
  | gone (s : State)

/-- The instruction retires: the thread's program counter and its count of retired instructions. -/
def State.retire (s : State) (c : Lcn) (t : Fin 4) (pc : Nat) : State :=
  let th := s.thread c t
  s.setThread c t { th with pc, retired := th.retired + 1, stall := 0 }

/-- A thread stalls for a reason of 02 Table 2.7, and the counters of its reason run. -/
def State.stallThread (s : State) (c : Lcn) (t : Fin 4) (reason : Nat) (wants : List RegRef := []) : State :=
  let s := s.setThread c t { s.thread c t with st := .stalled, stall := reason, wants }
  let u := c.toNat
  let s := (s.tick F.CORE_PAT_THSTALLn_STALL_CC u t.val).tick F.CORE_PAT_THSTALLn_SAT u t.val
  match reason with
  | 2 | 3 => (s.tick F.CORE_TAGSTALL_STALL_CC u).tick F.CORE_TAGSTALL_SAT u
  | 5 => (s.tick F.CORE_TQFULL_STALL_CC u).tick F.CORE_TQFULL_SAT u
  | _ => s

/-- What an instruction needs beside its registers, its tag and its queue: the divider, or a port of its core's own SRAM,
with the pipe it issues on. -/
inductive Needs
  | none
  | divider
  | read (tPipe : Bool)
  | write
deriving DecidableEq, Repr

/-- The port of the banks that an instruction needs: 0 the read port, 1 the write port (02 R60). -/
def Needs.port : Needs → Option (Fin 3)
  | .read _ => some 0
  | .write => some 1
  | _ => Option.none

/-- Whether an access loses to another port that needs its bank: the higher port wins, but one that has lost 4 consecutive cc
wins against any other (02 R61). -/
def Core.losesBank (k : Core) (mine other : Fin 3) : Bool :=
  if 4 ≤ mget 0 k.portLost mine.val then false
  else if 4 ≤ mget 0 k.portLost other.val then true else decide (mine < other)

/-- A conflict of two ports for a bank: the loser's run of lost cc grows, the winner's ends, and the cc counts in
CORE_BANKCONF (02 R61). -/
def State.bankConflict (s : State) (c : Lcn) (mine other : Fin 3) : State :=
  let k := s.core c
  let (win, lose) := if k.losesBank mine other then (other.val, mine.val) else (mine.val, other.val)
  ((s.setCore c { k with portLost := mset 0 (mset 0 k.portLost lose (mget 0 k.portLost lose + 1)) win 0 }).tick
    F.CORE_BANKCONF_LOST c.toNat).tick F.CORE_BANKCONF_SAT c.toNat

/-- One contention that an offered instruction meets: whether it loses its cc, and the state of the arbitration after it (02
R61, R62; 06 R225). -/
def State.contend (s : State) (x : Issue) (needs : Needs) (h : Contention) : Bool × State :=
  let c := x.core
  let k := s.core c
  match h, needs with
  | .pipe, .read tPipe => (k.tPipeLost != tPipe, s.setCore c { k with tPipeLost := !k.tPipeLost })
  | .walker, .read _ => (true, s)
  | .bank other, _ =>
    match needs.port with
    | some mine => if mine = other then (false, s) else (k.losesBank mine other, s.bankConflict c mine other)
    | Option.none => (false, s)
  | _, _ => (false, s)

/-- The contentions that an instruction meets, one after the other, until it loses one. -/
def State.contends (s : State) (x : Issue) (needs : Needs) : List Contention → Bool × State
  | [] => (false, s)
  | h :: l =>
    let r := s.contend x needs h
    if r.1 then r else r.2.contends x needs l

/-- A thread can offer an instruction: RUNNING or STALLED on a core whose clocks run, its program counter inside the
instruction store (02 R52, R68). -/
def State.canIssue (s : State) (c : Lcn) (t : Fin 4) : Bool :=
  let th := s.thread c t
  (decide (th.st = .running) || decide (th.st = .stalled)) && s.clocked c && s.backed c && decide (th.pc ≤ 0x1FFC)

/-- The instruction-fetch trap that the address of an offered instruction brings: a long form runs past the store (02 R68, 03
R96), or the pattern window is being written and reads 0xFFFF_FFFF (10 R399). -/
def State.fetchStop (s : State) (c : Lcn) (pc len : Nat) : Option TrapInfo :=
  if s.windowShut c pc then some { cause := 1, sub := 2, pc, info := 0xFFFFFFFF, addr := pc }
  else if 0x2000 < pc + len then some { cause := 1, sub := 0, pc, addr := pc }
  else none

/-- Why an offered instruction does not issue in its cc, and the registers it waits for: the first reason of 02 R690 that
holds, but for a conflict of ports. `lacks` is the resource of its own that it lacks. -/
def State.holdUp (s : State) (x : Issue) (regs : List RegRef) (lacks : Option Nat) (needs : Needs) :
    Option (Nat × List RegRef) :=
  let wants := regs.filter fun r => (s.core x.core).isPending x.thread r
  if x.held.contains .buffer then some (7, [])
  else if !wants.isEmpty || x.held.contains .source then some (1, wants)
  else
    match lacks with
    | some 2 | some 3 | Option.none =>
      if needs == .divider && x.held.contains .divider then some (6, []) else lacks.map fun r => (r, [])
    | some r => some (r, [])

/-- What an instruction does once it issues: its effect, or its trap. -/
def State.enact (s : State) (c : Lcn) (t : Fin 4) (act : Thread → State → Act) : State :=
  let th := { s.thread c t with st := .running, stall := 0 }
  let s := s.setThread c t th
  match act th s with
  | .done s' pc => s'.retire c t pc
  | .trap r => s.trap c t r
  | .late s' pc r => (s'.retire c t pc).trapResponse c t r
  | .gone s' => s'

/-- An instruction that issues: one whose guard is false only moves on, unless it is sel (`always`) (02 R54, 03 R98). -/
def State.issues (s : State) (x : Issue) (len : Nat) (act : Thread → State → Act) (always : Bool) : State :=
  let th := s.thread x.core x.thread
  if !always && !th.guard x then
    (s.setThread x.core x.thread { th with st := .running }).retire x.core x.thread (th.pc + len)
  else s.enact x.core x.thread act

/-- An instruction offered by a thread. `regs` are the registers it reads or writes, `lacks` the resource it lacks, `act` its
effect, and `needs` what else it takes. An instruction-fetch trap comes first (02 R691); a stall comes before the guard: an
instruction whose guard is false issues exactly as otherwise (02 R54). A thread that cannot issue leaves the state as it is
(log entry 3). -/
def State.issue (s : State) (x : Issue) (len : Nat) (regs : List RegRef) (lacks : Option Nat)
    (act : Thread → State → Act) (always : Bool := false) (needs : Needs := .none) : State :=
  let c := x.core
  let t := x.thread
  let pc := (s.thread c t).pc
  if !s.canIssue c t then s
  else match s.fetchStop c pc len with
    | some r => s.trap c t r
    | Option.none =>
      match s.holdUp x regs lacks needs with
      | some (reason, wants) => s.stallThread c t reason wants
      | Option.none =>
        let r := s.contends x needs x.held
        if r.1 then r.2.stallThread c t 4 else r.2.issues x len act always

/-- An instruction that only writes its thread's registers. -/
def State.issueLocal (s : State) (x : Issue) (len : Nat) (regs : List RegRef) (f : Thread → State → Thread)
    (always : Bool := false) (needs : Needs := .none) : State :=
  s.issue x len regs none
    (fun th s => .done (s.setThread x.core x.thread (f th s)) (th.pc + len)) always needs

/-! ### Operation digests (15 R549, R558) -/

/-- A CRC-64 after one byte, most significant bit first, by the polynomial of 15 R549. -/
def crc64Byte (d : BitVec 64) (b : Byte) : BitVec 64 :=
  (List.range 8).foldl (fun d _ => if d.msb then (d <<< 1) ^^^ 0x42F0E1EBA9EA3693#64 else d <<< 1)
    (d ^^^ (b.zeroExtend 64 <<< 56))

/-- A CRC-64 after a list of bytes. -/
def crc64 (d : BitVec 64) (l : List Byte) : BitVec 64 := l.foldl crc64Byte d

/-- An operation of a thread joins its operation digest where the core runs a copy of a DUP cut order. -/
def State.foldDigest (s : State) (c : Lcn) (t : Fin 4) (typ dst addr data len : Nat) : State :=
  if s.flag F.INT_DUPSTAT_DUP c.toNat then
    let th := s.thread c t
    s.setThread c t { th with digest := crc64 th.digest (Config.digestBytes typ dst addr data len) }
  else s

end Sys2Proof.Machine
end

