-- ==== Sys2Proof/Machine/Address.lean ====
section
/-!
DEFINITION. The address class 0x3 (03 R107, Table 3.6). Address arithmetic wraps and never traps.
-/

namespace Sys2Proof.Machine

/-- AADD: a[AD] = a[AS] + (s[SR] << SH). -/
def execAadd (x : Issue) (ad as_ : Fin 16) (sr : Fin 32) (sh : Fin 16) (s : State) : Out :=
  .next (s.issueLocal x 4 [.s sr] fun th _ => th.writeA ad (th.readA as_ + (th.readS sr <<< sh.val)))

/-- ASUB: a[AD] = a[AS] − (s[SR] << SH). -/
def execAsub (x : Issue) (ad as_ : Fin 16) (sr : Fin 32) (sh : Fin 16) (s : State) : Out :=
  .next (s.issueLocal x 4 [.s sr] fun th _ => th.writeA ad (th.readA as_ - (th.readS sr <<< sh.val)))

/-- ASET: a[AD] = s[SR]. -/
def execAset (x : Issue) (ad : Fin 16) (sr : Fin 32) (s : State) : Out :=
  .next (s.issueLocal x 4 [.s sr] fun th _ => th.writeA ad (th.readS sr))

/-- AGET: s[SR] = a[AS]. -/
def execAget (x : Issue) (sr : Fin 32) (as_ : Fin 16) (s : State) : Out :=
  .next (s.issueLocal x 4 [.s sr] fun th _ => th.writeS sr (th.readA as_))

/-- AADDI: a[AD] = a[AS] + the sign-extended immediate. -/
def execAaddi (x : Issue) (ad as_ : Fin 16) (i : CmpImm) (s : State) : Out :=
  .next (s.issueLocal x i.len [] fun th _ => th.writeA ad (th.readA as_ + i.value))

/-- ALOCAL: an address in the issuing core's own SRAM. -/
def execAlocal (x : Issue) (ad : Fin 16) (sr : Fin 32) (s : State) : Out :=
  .next (s.issueLocal x 4 [.s sr] fun th s =>
    th.writeA ad (BitVec.ofNat 64 ((s.seenLcn x.core).toNat * 65536) + (th.readS sr &&& 0xFFFF)))

/-- ACORE: bits [35:16] replaced by s[SR][19:0]. -/
def execAcore (x : Issue) (ad as_ : Fin 16) (sr : Fin 32) (s : State) : Out :=
  .next (s.issueLocal x 4 [.s sr] fun th _ =>
    th.writeA ad ((th.readA as_ &&& ~~~(0xFFFFF#64 <<< 16)) ||| ((th.readS sr &&& 0xFFFFF) <<< 16)))

end Sys2Proof.Machine
end

