-- ==== Sys2Proof/Machine/Layout.lean ====
section
/-!
DEFINITION. The layouts of what the block reads and writes as bytes: ring entries, descriptors and object tables in host
memory (07 R261 to R263).
-/

namespace Sys2Proof.Machine

/-- The `n` bytes at byte offset `off` of a record, which is little-endian. -/
def recordField {w : Nat} (v : BitVec w) (off n : Nat) : Nat := v.toNat / 2 ^ (8 * off) % 2 ^ (8 * n)

/-! ### Ring entries (07 Table 7.5) -/

def RingEntry.kind (e : RingEntry) : Nat := recordField e.bytes 0 1
def RingEntry.flags (e : RingEntry) : Nat := recordField e.bytes 1 1
def RingEntry.arg (e : RingEntry) : Nat := recordField e.bytes 8 8

/-- The reserved bytes of an entry are zero. -/
def RingEntry.reservedZero (e : RingEntry) : Bool :=
  recordField e.bytes 2 6 == 0 && recordField e.bytes 16 48 == 0

/-! ### Descriptors (07 Tables 7.6 and 7.7) -/

/-- An object table entry with the initial contents of its object: none, so zeros, where SRC is 0. -/
def objectEntry (v : BitVec 256) (content : List Byte) : ObjectEntry :=
  { size := recordField v 0 8
    src := BitVec.ofNat 64 (recordField v 8 8)
    kind := recordField v 0x10 1
    oflags := recordField v 0x11 1
    first := recordField v 0x14 4
    count := recordField v 0x18 4
    pinLcn := recordField v 0x1C 4
    content := if recordField v 8 8 = 0 then [] else content
    reservedZero := recordField v 0x11 1 / 4 == 0 && recordField v 0x12 2 == 0 && recordField v 0x1C 4 / 2 ^ 20 == 0 }

/-- A pin list entry: core index and logical core. -/
def pinEntry (v : BitVec 64) : Nat × Nat := (v.toNat % 2 ^ 22, v.toNat / 2 ^ 32 % 2 ^ 20)

/-- The reserved bits of a pin list entry are zero. -/
def pinZero (v : BitVec 64) : Bool := v.toNat / 2 ^ 22 % 2 ^ 10 == 0 && v.toNat / 2 ^ 52 == 0

/-- The reserved bytes of a descriptor are zero. -/
def descriptorZero (v : BitVec 1024) : Bool :=
  recordField v 0x26 2 == 0 && recordField v 0x42 2 == 0 && recordField v 0x60 32 == 0

/-- A descriptor and what it names, as Marker reads them. -/
def CutReads.order (r : CutReads) : Descriptor :=
  let v := r.descriptor
  let objCount := recordField v 0x40 2
  let pinCount := recordField v 0x44 4
  let objects := (r.table.getD []).take objCount |>.zipIdx.map fun e => objectEntry e.1 ((r.contents[e.2]?).getD [])
  let pins := (r.pins.getD []).take pinCount
  { format := recordField v 0 4
    flags := recordField v 4 4
    tag := BitVec.ofNat 64 (recordField v 8 8)
    imageLen := recordField v 0x18 4
    entry := recordField v 0x1C 4
    threads := recordField v 0x20 4
    tpc := recordField v 0x24 1
    localTiles := recordField v 0x25 1
    seed := BitVec.ofNat 64 (recordField v 0x28 8)
    arg := BitVec.ofNat 64 (recordField v 0x30 8)
    objects
    pins := pins.map pinEntry
    fields := BitVec.ofNat 64 (recordField v 0x50 8)
    status := BitVec.ofNat 64 (recordField v 0x58 8)
    reservedZero := descriptorZero v && (objects.all fun e => e.reservedZero) && pins.all pinZero
    readOk := r.image.isSome && (objCount == 0 || r.table.isSome) && (pinCount == 0 || r.pins.isSome)
    objCount, pinCount
    imageAddr := recordField v 0x10 8
    objsAddr := recordField v 0x38 8
    pinsAddr := recordField v 0x48 8
    image := r.image.getD [] }

/-- The image, the object table and the pin list lie at aligned addresses, where there are any. -/
def Descriptor.aligned (d : Descriptor) : Bool :=
  d.imageAddr % 256 == 0 && (d.objCount == 0 || d.objsAddr % 32 == 0) && (d.pinCount == 0 || d.pinsAddr % 8 == 0)

/-- The descriptor that a CUT entry names, where it could be read. -/
def RingEntry.order (e : RingEntry) : Option Descriptor := e.cut.map CutReads.order

end Sys2Proof.Machine
end

