-- ==== Sys2Proof/Machine/Net.lean ====
section
/-!
DEFINITION. The network interfaces and the routes of the mesh: attachments, relocation, injection under the window and the
fence, replies, and the next hop of a packet with its detours (07 R284 to R286, R686; 08 R300 to R318).
-/

namespace Sys2Proof.Machine

/-! ### Positions -/

/-- The position of row `r` and column `c` within field `f`. -/
def fieldPos (f r c : Nat) : Lcn := posOf (f / 8 * 128 + r) (f % 8 * 128 + c)

/-- The field of Selvedge port `p` (13 R458). -/
def portField (p : Nat) : Nat :=
  match p / 8 with
  | 0 => p % 8
  | 1 => p % 8 * 8 + 7
  | 2 => 56 + p % 8
  | _ => p % 8 * 8

/-- The attachment position of Selvedge port `p` (07 R269). -/
def portAttachment (p : Nat) : Lcn :=
  match p / 8 with
  | 0 => fieldPos (portField p) 0 64
  | 1 => fieldPos (portField p) 64 127
  | 2 => fieldPos (portField p) 127 64
  | _ => fieldPos (portField p) 64 0

/-- The port and the local address of a far offset (13 R466). -/
def State.farPort (s : State) (o : Nat) : Nat × Nat :=
  if s.flag F.SEL_MAP_MODE then (bits o 12 8, bits o 45 13 * 256 + o % 256) else (bits o 45 41, bits o 40 0)

/-- The four management attachments with their fields (07 R686). -/
def managementAttachments : List (Nat × Lcn) :=
  [(27, posOf 511 511), (28, posOf 511 512), (35, posOf 512 511), (36, posOf 512 512)]

/-- The management attachment a core uses: that of its own quadrant, or the first whose field is no hole (07 R686). -/
def State.managementPos (s : State) (c : Lcn) : Lcn :=
  let f := fieldOf c
  let own := (if f % 8 < 4 then 0 else 1) + (if f / 8 < 4 then 0 else 2)
  match managementAttachments[own]? with
  | some (g, p) =>
    if s.isHole g then ((managementAttachments.find? fun e => !s.isHole e.1).map (·.2)).getD p else p
  | none => posOf 511 511

/-- The attachment of a register-space offset for a sender, and its fence destination (07 R686, 08 R318). -/
def State.registerRoute (s : State) (c : Lcn) (o : Nat) : Lcn × Nat :=
  if 0x100000000 ≤ o ∧ o < 0x100000000 + 0x4000 * 0x100000 then
    let n := (o - 0x100000000) / 0x4000
    (BitVec.ofNat 20 n, 2 ^ 22 + n)
  else if 0x1000000 ≤ o ∧ o < 0x2000000 then
    let f := (o - 0x1000000) / 0x40000
    let r := (o - 0x1000000) % 0x40000
    if r < 0x10000 then (fieldPos f 64 64, 2 ^ 21 + 400 + f)
    else
      let p := (r - 0x10000) / 0x4000
      (fieldPos f (16 * (p % 8)) 64, 2 ^ 21 + 500 + f * 8 + p % 8)
  else if 0x200000 ≤ o ∧ o < 0x300000 then
    (portAttachment ((o - 0x200000) / 0x8000), 2 ^ 21 + 200 + (o - 0x200000) / 0x8000)
  else if 0x1000000000 ≤ o ∧ o < 0x1000000000 + 64 * 0x400000 then
    (s.managementPos c, 2 ^ 21 + 2000 + (o - 0x1000000000) / 0x400000)
  else (s.managementPos c, 2 ^ 21 + min (o / 0x10000) 0x10)

/-- A row segment's relocation-list entry. -/
def State.relocationOf (s : State) (seg : Nat) : Option Relocation :=
  s.relocations.find? fun r => r.lrow * 8 + r.fx == seg

/-- The route target of a core: its own position, or the same column of the gusset row that holds its segment
(08 R300, 07 R284). -/
def State.routeTarget (s : State) (c : Lcn) : Lcn :=
  match s.relocationOf (segmentOf c) with
  | some r => posOf (r.gfy * 128 + 112 + r.grow) (r.gfx * 128 + colOf c % 128)
  | none => c

/-- The logical core whose position this is: the one the router's network interface backs, before fencing, parking and
holes are looked at. -/
def State.coreAt (s : State) (p : Lcn) : Option Lcn :=
  match s.relocations.find? fun r =>
      r.gfy * 128 + 112 + r.grow == rowOf p && r.gfx == colOf p / 128 with
  | some r => some (posOf r.lrow (r.fx * 128 + colOf p % 128))
  | none => if isGusset p || (s.relocationOf (segmentOf p)).isSome then none else some p

/-! ### Injection -/

/-- The network and buffer class of a packet: 0 for VC0, 1 for VC1 (08 Table 8.3). -/
def PacketType.vc : PacketType → Nat
  | .rd | .wr | .amo | .msg | .nsum | .ncast | .rdr => 1
  | _ => 0

/-- A packet of the reply network. -/
def PacketType.isReply : PacketType → Bool
  | .rdr | .ack | .err | .unb | .prober | .rstr | .nsuma | .ncasta => true
  | _ => false

/-- The virtual channel a packet travels on: VC2 on a detour (08 R307). -/
def Packet.channel (p : Packet) : Nat := if p.ring.isSome then 2 else p.typ.vc

/-- A VC1 request, which the injection window counts (08 R314). -/
def Packet.windowed (p : Packet) : Bool := !p.typ.isReply && p.typ.vc == 1

/-- The window of a core's interface: W, or W_MAX with WIN_EN 0 (08 Table 8.11). -/
def State.window (s : State) (c : Lcn) : Nat :=
  if s.flag F.FAB_CTL_WIN_EN (fieldOf c) then s.get F.FAB_WIN_W c.toNat
  else s.get F.FAB_WINCFG_W_MAX (fieldOf c)

/-- A held tag's request is older than a packet. -/
def Tag.before (g : Tag) (p : Packet) : Bool := g.st == .held && decide (g.pkt < p.id)

/-- A tag's operation goes to a destination of 08 R318, one of several for a broadcast. -/
def Tag.goesTo (g : Tag) (d : Nat) : Bool := g.dest == d || g.others.contains d

/-- A packet of a thread's operation: its request, or one write of its column broadcast. -/
def Requester.ofThread : Requester → Bool
  | .thread | .ncastLeg _ => true
  | _ => false

/-- A packet of a sum or a broadcast, whose fence looks at every destination (08 R317). -/
def Packet.fencesAll (p : Packet) : Bool :=
  p.typ == .nsum || p.typ == .ncast || match p.sender with
    | .ncastLeg _ => true
    | _ => false

/-- The fence and the one-sum-per-tree rule let a packet go: with F, no earlier packet of its thread to the same
destination is unanswered (nsum and ncast: to any); a leaf's nsum waits for its tree's earlier one (08 R317, R320). The
sum that a merge node sends waits for neither. -/
def State.unfenced (s : State) (p : Packet) : Bool :=
  match p.sender with
  | .ringUnit => !p.f || !((s.core p.src).ringOps.any fun o => decide (o.1 < p.id) && o.2.1 == p.fence)
  | .thread | .ncastLeg _ =>
    let tags := ((s.core p.src).heldTags.filter fun e => e.1 != p.tag).map (·.2)
    let mine := tags.filter fun g => decide (g.thread = p.sth) && g.before p
    let fenceOk := !p.f || !(mine.any fun g => p.fencesAll || g.goesTo p.fence)
    let treeOk := p.typ != .nsum ||
      !(tags.any fun g => g.before p && g.op == .nsum (p.arg % 65536))
    fenceOk && treeOk
  | _ => true

/-- A packet's route target is that of a relocated segment, so its interface looks the segment up (07 R284, R285). -/
def State.looksUp (s : State) (p : Packet) : Bool := (s.relocationOf (segmentOf p.dst)).isSome && p.rt != p.dst

/-- The translation a packet needs is at hand: its target is not relocated, or its segment is cached (07 R285). -/
def State.translated (s : State) (p : Packet) : Bool :=
  !s.looksUp p || (mget [] s.fab.caches p.src.toNat).contains (segmentOf p.dst)

/-- A translation cache after a lookup of a segment: most recently used first, eight entries. -/
def cacheUse (l : List Nat) (seg : Nat) : List Nat := (seg :: l.erase seg).take 8

/-- The translation caches after a packet's lookup: a hit makes its segment the most recently used (07 R285). -/
def State.cachesAfter (s : State) (p : Packet) : PMap (List Nat) :=
  if s.looksUp p then
    mset [] s.fab.caches p.src.toNat (cacheUse (mget [] s.fab.caches p.src.toNat) (segmentOf p.dst))
  else s.fab.caches

/-- The engine window that a packet from or to an interface belongs to: that of a panel's spool engine, or that of a
core's ring unit (08 R316, 12 R443). -/
def Packet.engineWindow (p : Packet) (c : Lcn) : Option Nat :=
  match p.sender with
  | .spool _ _ _ => some (panelOf c)
  | .ringUnit => some (512 + c.toNat)
  | _ => none

/-- The field of an engine's window. -/
def engineField (k : Nat) : Nat := if k < 512 then k / 8 else fieldOf (BitVec.ofNat 20 (k - 512))

/-- An engine's window: at its field's W_MAX until a packet or a reply moves it (08 R314, R316). -/
def State.engineWin (s : State) (k : Nat) : SpoolWindow :=
  (findKey s.spoolWin k).getD { w := s.get F.FAB_WINCFG_W_MAX (engineField k) }

def State.setEngineWin (s : State) (k : Nat) (w : SpoolWindow) : State := { s with spoolWin := putKey s.spoolWin k w }

/-- The window has room for a VC1 request: the core's, or the spool engine's (08 R314, R316). -/
def State.windowRoom (s : State) (p : Packet) : Bool :=
  if !p.windowed then true
  else match p.engineWindow p.src with
  | some e =>
    let k := s.engineWin e
    let f := fieldOf p.src
    decide (k.out < if s.flag F.FAB_CTL_WIN_EN f then k.w else s.get F.FAB_WINCFG_W_MAX f)
  | none => decide (s.get F.FAB_WIN_OUT p.src.toNat < s.window p.src)

/-- Flits of a packet: three header flits and its payload (08 R295). -/
def Packet.size (p : Packet) : Nat := 3 + p.flits

/-- Flits held in the buffer of a position, network, side and channel. -/
def State.occupancy (s : State) (pos : Lcn) (reply : Bool) (side vc : Nat) : Nat :=
  ((s.fab.pkts.filter fun q => q.injected && q.pos == pos && q.typ.isReply == reply && q.side == side &&
    q.channel == vc).map Packet.size).sum

/-- Depth of an input buffer: a router's, or a seam gate's receive FIFO (08 Table 8.1). -/
def bufferDepth (vc : Nat) (seam : Bool) : Nat :=
  match vc, seam with
  | 0, false => 8
  | 0, true => 12
  | _, false => 36
  | _, true => 48

/-- A packet is marked when it joins a buffer of a field that holds so many flits with it (08 R312). -/
def State.marks (s : State) (f vc held : Nat) : Bool :=
  let limit := if vc = 2 then s.get F.FAB_MARK_THRESH_VC2 f else s.get F.FAB_MARK_THRESH_VC1 f
  s.flag F.FAB_CTL_MARK_EN f && vc != 0 && decide (limit < held)

/-- The local input buffer of a packet's router has room for it (08 R291, Table 8.1). -/
def State.localRoom (s : State) (p : Packet) : Bool :=
  decide (s.occupancy p.pos p.typ.isReply 4 p.typ.vc + p.size ≤ bufferDepth p.typ.vc false)

/-- A waiting packet may be injected: the local input buffer has room and its translation is at hand; a reply is the oldest
of its interface's reply queue; of a request, its thread's earlier packets are gone, the fence is met and the window has
room (07 R285; 08 R289, R291, R314, R317). -/
def State.mayInject (s : State) (p : Packet) : Bool :=
  s.localRoom p && s.translated p &&
    if p.typ.isReply then
      !(s.fab.pkts.any fun q => !q.injected && q.typ.isReply && q.pos == p.pos && decide (q.id < p.id))
    else
      !(p.sender.ofThread && s.fab.pkts.any fun q => !q.injected && !q.typ.isReply && q.src == p.src && q.sth == p.sth &&
          q.sender.ofThread && decide (q.id < p.id)) &&
        s.unfenced p && s.windowRoom p

/-- Packets with one replaced, by number. -/
def State.setPacket (s : State) (p : Packet) : State :=
  { s with fab := { s.fab with pkts := s.fab.pkts.map fun q => if q.id = p.id then p else q } }

/-- Packets with one gone. -/
def State.dropPacket (s : State) (id : Nat) : State :=
  { s with fab := { s.fab with pkts := s.fab.pkts.filter fun q => !decide (q.id = id) } }

/-- A VC1 request counted as outstanding by its window. -/
def State.countOut (s : State) (p : Packet) : State :=
  if !p.windowed then s
  else match p.engineWindow p.src with
  | some e => s.setEngineWin e { s.engineWin e with out := (s.engineWin e).out + 1 }
  | none => s.put F.FAB_WIN_OUT (s.get F.FAB_WIN_OUT p.src.toNat + 1) p.src.toNat

/-- A packet as it joins the local input buffer of its router: marked as the buffer's occupancy asks, under the next place in
the order of injection (08 R312, R315). -/
def State.joined (s : State) (p : Packet) : Packet :=
  let held := s.occupancy p.pos p.typ.isReply 4 p.typ.vc + p.size
  { p with injected := true, side := 4, cm := p.cm || s.marks (fieldOf p.pos) p.typ.vc held, inj := s.fab.injected }

/-- The counts of an injection: its place in the order, the use of the translation cache, and a mark. -/
def State.countInjection (s : State) (p : Packet) : State :=
  let s' := { s with fab := { s.fab with injected := s.fab.injected + 1, caches := s.cachesAfter p } }
  if (s.joined p).cm && !p.cm then s'.addSat F.FAB_MARKS_MARKS F.FAB_MARKS_SAT 1 (fieldOf p.pos) else s'

/-- A reply put into the reply queue of the interface at its position, which injects it at once where it may (08 R289,
R291). -/
def State.putReply (s : State) (p : Packet) : State :=
  let p := { p with id := s.fab.nextId, injected := false }
  let goes := s.mayInject p
  let s' := { s with fab := { s.fab with
    pkts := s.fab.pkts ++ [if goes then s.joined p else p], nextId := s.fab.nextId + 1 } }
  if goes then s'.countInjection p else s'

/-- A reply to a request, from the position that serves it; `bulk` says whether a window counts the request as outstanding.
A reply whose route target lies in a hole, or that starts in a field whose transit domain is off, is discarded (08 R297,
R300, R304, R313). -/
def State.replyAs (s : State) (q : Packet) (bulk : Bool) (pos : Lcn) (typ : PacketType) (opc arg flits body : Nat) : State :=
  let rt := s.routeTarget q.src
  if s.isHole (fieldOf rt) || !s.transitOn (fieldOf pos) then s
  else s.putReply
    { id := 0, typ, ld := q.ld, rt, dst := q.src, opc, src := q.dst, sth := q.sth, tag := q.tag, gen := q.gen, arg, flits,
      body, sender := q.sender, pos, ce := q.cm, req := q.id, bulk, reqInj := q.inj }

/-- A reply to a request that was injected: its window counts a VC1 request (08 R314). -/
def State.reply (s : State) (q : Packet) (pos : Lcn) (typ : PacketType) (opc arg flits body : Nat) : State :=
  s.replyAs q q.windowed pos typ opc arg flits body

/-- The UNB subcode with which a sender's own interface answers a request that it cannot send: 3 where the destination, or
the row that holds it, lies in a hole field; 0 where one write of a column broadcast names a gusset core (08 R304, 01 R15,
03 R133; log entry 27). -/
def State.unreachable (s : State) (p : Packet) : Option Nat :=
  if s.isHole (fieldOf p.dst) || s.isHole (fieldOf p.rt) then some 3
  else match p.sender with
    | .ncastLeg _ => if isGusset p.dst then some 0 else none
    | _ => none

/-- A request answered UNB by its sender's own interface. -/
def State.answerOwn (s : State) (p : Packet) (sub : Nat) : State :=
  s.replyAs { p with cm := false } false (s.routeTarget p.src) .unb 0 sub 0 0

/-- A waiting request whose destination has become a hole is answered by its own interface, and a waiting reply whose
target has is discarded (08 R304). -/
def State.turnBack (s : State) (p : Packet) : State :=
  if p.typ.isReply then s.dropPacket p.id else (s.dropPacket p.id).answerOwn p 3

/-- A packet that waits in its interface is injected when it may be, or turned back. -/
def State.tryInject (s : State) (p : Packet) : State :=
  if p.injected then s
  else if s.isHole (fieldOf p.dst) && !p.typ.isReply || s.isHole (fieldOf p.rt) then s.turnBack p
  else if s.mayInject p then ((s.setPacket (s.joined p)).countInjection p).countOut p
  else s

/-- Every packet that waits in a core's interface is offered for injection, oldest first. -/
def State.pump (s : State) (c : Lcn) : State :=
  (s.fab.pkts.filter fun p => !p.injected && p.src == c).foldl (fun s p => s.tryInject p) s

/-- What may go once a reply has come: the packets that wait in the interface it came to, or those of its engine's window
(08 R316). -/
def State.pumpFor (s : State) (p : Packet) : State :=
  match p.engineWindow p.dst with
  | some e =>
    (s.fab.pkts.filter fun q => !q.injected && q.engineWindow q.src == some e).foldl (fun s q => s.tryInject q) s
  | none => s.pump p.dst

/-- A packet put among the packets of the fabric under the next number, waiting in its interface. -/
def State.enqueue (s : State) (p : Packet) : State :=
  { s with fab := { s.fab with
      pkts := s.fab.pkts ++ [{ p with id := s.fab.nextId, injected := false }]
      nextId := s.fab.nextId + 1 } }

/-- A request sent by a core: answered at once with UNB where its destination cannot be reached, and otherwise put into the
interface, which injects it when it may (08 R304, R314, R317). -/
def State.send (s : State) (p : Packet) : State :=
  let p := { p with id := s.fab.nextId, injected := false }
  match s.unreachable p with
  | some sub => ({ s with fab := { s.fab with nextId := s.fab.nextId + 1 } }).answerOwn p sub
  | none => (s.enqueue p).pump p.src

/-- A request of a thread to a core as it stands: its route target, its source and its logical device filled in. -/
def State.requestTo (s : State) (x : Issue) (typ : PacketType) (d : Lcn) (tag gen : Nat) : Packet :=
  { id := 0, typ, rt := s.routeTarget d, dst := d, src := x.core, sth := x.thread, tag, gen,
    ld := s.ldOf x.core, pos := s.routeTarget x.core, fence := d.toNat }

/-- A request of a thread to a core that it names: a shadow reaches the partner of that core (15 R556). -/
def State.coreRequest (s : State) (x : Issue) (typ : PacketType) (dst : Lcn) (tag gen : Nat) : Packet :=
  s.requestTo x typ (s.reachedLcn x.core dst) tag gen

/-! ### Marks and the window (08 R312 to R316) -/

/-- A window after a reply: a mark halves it, down to the least, and ignores later marks on replies to packets injected
before; an unmarked run of its own length raises it by one (08 R315). -/
def SpoolWindow.after (k : SpoolWindow) (mark : Bool) (req injected lo hi : Nat) : SpoolWindow :=
  if mark then
    if req < k.markFence then k else { k with w := max (k.w / 2) lo, markFence := injected, unmarked := 0 }
  else if k.w ≤ k.unmarked + 1 then { k with w := min (k.w + 1) hi, unmarked := 0 }
  else { k with unmarked := k.unmarked + 1 }

/-- A window after a reply where WIN_EN decides whether it moves: with WIN_EN 0 it holds W_MAX (08 Table 8.11). -/
def SpoolWindow.next (k : SpoolWindow) (en mark : Bool) (req injected lo hi : Nat) : SpoolWindow :=
  if en then k.after mark req injected lo hi else { k with w := hi, unmarked := 0 }

/-- A reply's effect on its requester's window: one VC1 request fewer outstanding, and the window itself; a core's marks
are counted (08 R313 to R316). -/
def State.windowReply (s : State) (p : Packet) : State :=
  let c := p.dst
  let u := c.toNat
  let mark := p.ce || p.cm
  let lo := s.get F.FAB_WINCFG_W_MIN (fieldOf c)
  let hi := s.get F.FAB_WINCFG_W_MAX (fieldOf c)
  let en := s.flag F.FAB_CTL_WIN_EN (fieldOf c)
  match p.engineWindow c with
  | some e =>
    let k := s.engineWin e
    s.setEngineWin e ({ k with out := k.out - bit p.bulk }.next en mark p.reqInj s.fab.injected lo hi)
  | none =>
    let k := s.core c
    let w : SpoolWindow := { w := s.get F.FAB_WIN_W u, out := s.get F.FAB_WIN_OUT u - bit p.bulk,
                             markFence := k.markFence, unmarked := k.unmarked }
    let w := w.next en mark p.reqInj s.fab.injected lo hi
    let s := if mark then s.addSat F.FAB_WIN_MARKS F.FAB_WIN_SAT 1 u else s
    ((s.put F.FAB_WIN_W w.w u).put F.FAB_WIN_OUT w.out u).setCore c
      { k with markFence := w.markFence, unmarked := w.unmarked }

/-! ### Routes -/

/-- The first and last logical row and column of a field. -/
def fieldBox (f : Nat) : Nat × Nat × Nat × Nat :=
  (f / 8 * 128, f / 8 * 128 + 127, f % 8 * 128, f % 8 * 128 + 127)

/-- Two closed intervals meet, the first given by its ends in either order. -/
def meets (a b lo hi : Nat) : Bool := decide (min a b ≤ hi) && decide (lo ≤ max a b)

/-- The X-then-Y route from one position to another enters a field (08 R301, R308). -/
def routeEnters (f : Nat) (p q : Lcn) : Bool :=
  let (r0, r1, c0, c1) := fieldBox f
  (decide (r0 ≤ rowOf p) && decide (rowOf p ≤ r1) && meets (colOf p) (colOf q) c0 c1) ||
    (decide (c0 ≤ colOf q) && decide (colOf q ≤ c1) && meets (rowOf p) (rowOf q) r0 r1)

/-- The sides: 0 north, 1 east, 2 south, 3 west. -/
def sideTo (p rt : Lcn) : Nat :=
  if colOf p < colOf rt then 1 else if colOf rt < colOf p then 3 else if rowOf rt < rowOf p then 0 else 2

/-- The side by which the ring of a hole goes on from a position of it (08 R307). -/
def ringSide (d : Detour) (p : Lcn) : Nat :=
  let (r0, r1, c0, c1) := fieldBox d.hole
  let r : Int := rowOf p
  let c : Int := colOf p
  let top : Int := r0 - 1
  let bottom : Int := r1 + 1
  let left : Int := c0 - 1
  let right : Int := c1 + 1
  if d.clockwise then
    if r = top ∧ c < right then 1
    else if c = right ∧ r < bottom then 2
    else if r = bottom ∧ left < c then 3
    else 0
  else if r = top ∧ left < c then 3
  else if c = left ∧ r < bottom then 2
  else if r = bottom ∧ c < right then 1
  else 0

/-- The neighbour of a position on a side; none beyond the wafer's edge. -/
def neighbour (p : Lcn) (side : Nat) : Option Lcn :=
  match side with
  | 0 => if 0 < rowOf p then some (posOf (rowOf p - 1) (colOf p)) else none
  | 1 => if colOf p < 1023 then some (posOf (rowOf p) (colOf p + 1)) else none
  | 2 => if rowOf p < 1023 then some (posOf (rowOf p + 1) (colOf p)) else none
  | _ => if 0 < colOf p then some (posOf (rowOf p) (colOf p - 1)) else none

/-- Along the ring from a position, a leaving point comes before the wafer's edge (08 R307). -/
def ringLeaves (d : Detour) (rt : Lcn) : Nat → Lcn → Bool
  | 0, _ => false
  | n + 1, p =>
    if !routeEnters d.hole p rt then true
    else match neighbour p (ringSide d p) with
      | some q => ringLeaves d rt n q
      | none => false

/-- Holes the fabric detours around. -/
def State.detoured (s : State) (f : Nat) : Bool := s.isHole f && !s.fab.excess.contains f

/-- A field has a neighbour on a side. -/
def hasSeam (f side : Nat) : Bool :=
  match side with
  | 0 => decide (8 ≤ f)
  | 1 => decide (f % 8 < 7)
  | 2 => decide (f < 56)
  | _ => decide (0 < f % 8)

/-- The field beyond a side. -/
def beyond (f side : Nat) : Nat :=
  match side with
  | 0 => f - 8
  | 1 => f + 1
  | 2 => f + 8
  | _ => f - 1

/-- A seam link under one key, whichever of its two fields names it: its field's east or south side, its network and its
row or column within the field. -/
def linkKey (f side net i : Nat) : Nat :=
  let (g, sd) := if side = 3 then (f - 1, 1) else if side = 0 then (f - 8, 2) else (f, side)
  ((g * 4 + sd) * 2 + net) * 128 + i

def State.link (s : State) (f side net i : Nat) : SeamLink := mget {} s.fab.links (linkKey f side net i)

def State.setLink (s : State) (f side net i : Nat) (l : SeamLink) : State :=
  { s with fab := { s.fab with links := mset {} s.fab.links (linkKey f side net i) l } }

/-- The seam a hop crosses, as field, side, network and index; none inside a field. -/
def seamOf (p q : Lcn) (side net : Nat) : Option (Nat × Nat × Nat × Nat) :=
  if fieldOf p = fieldOf q then none
  else some (fieldOf p, side, net, if side % 2 = 1 then rowOf p % 128 else colOf p % 128)

/-- What a router does next with a packet's head. -/
inductive Hop
  /-- It leaves the network here. -/
  | arrived
  /-- It goes on by a side to a neighbour, with its detour state. -/
  | to (side : Nat) (next : Lcn) (ring : Option Detour) (entered : Bool)
  /-- The absent responder takes it: an excess hole or a FAILED seam link lies ahead (08 R309). -/
  | noRoute
  /-- The seam link ahead carries no flit now (08 Table 8.6). -/
  | wait
deriving DecidableEq, Repr

/-- The hop over a side, looked at for holes, seam links and detours. -/
def State.hopBy (s : State) (p : Packet) (side : Nat) (ring : Option Detour) (entered : Bool) : Hop :=
  match neighbour p.pos side with
  | none => .noRoute
  | some q =>
    match seamOf p.pos q side (bit p.typ.isReply) with
    | none => .to side q ring entered
    | some (f, sd, n, i) =>
      if s.fab.excess.contains (fieldOf q) then .noRoute
      else match (s.link f sd n i).st with
        | .up => .to side q ring entered
        | .failed => .noRoute
        | _ => .wait

/-- The side by which a packet goes on, its detour state, and whether it enters a ring; none where it has arrived
(08 R301, R307, R308). -/
def State.nextSide (s : State) (p : Packet) : Option (Nat × Option Detour × Bool) :=
  let ring := match p.ring with
    | some d => if routeEnters d.hole p.pos p.rt then some d else none
    | none => none
  match ring with
  | some d => some (ringSide d p.pos, some d, false)
  | none =>
    if p.pos = p.rt then none
    else
      let side := sideTo p.pos p.rt
      let into := match neighbour p.pos side with
        | some q => if s.detoured (fieldOf q) && fieldOf q != fieldOf p.pos then some (fieldOf q) else none
        | none => none
      match into with
      | some f =>
        let cw : Detour := { hole := f, clockwise := true }
        let d := if ringLeaves cw p.rt 520 p.pos then cw else { cw with clockwise := false }
        some (ringSide d p.pos, some d, true)
      | none => some (side, none, false)

/-- The next hop of a packet (08 R301, R307 to R309). -/
def State.nextHop (s : State) (p : Packet) : Hop :=
  match s.nextSide p with
  | none => .arrived
  | some (side, ring, entered) => s.hopBy p side ring entered

/-! ### Routes as the topology stands (01 R34; 07 R269; 08 R310) -/

/-- The cost of a route: hops, seam crossings, the holes it circles, and whether it uses VC2. -/
structure RouteCost where
  hops : Nat := 0
  seams : Nat := 0
  holes : List Nat := []
  detour : Bool := false
deriving DecidableEq, Repr

/-- The head latency of a route at one common setting (01 R31). -/
def RouteCost.latency (r : RouteCost) : Nat := r.hops - r.seams + 6 * r.seams

/-- A link carries traffic, now or after its retry. -/
def SeamLink.carries (l : SeamLink) : Bool :=
  match l.st with
  | .up | .retry | .retrain => true
  | _ => false

/-- A route walked from a packet's position, by count of hops at most; none where an excess hole, a link that carries no
traffic or the wafer's edge ends it. The links looked at are those of the request network (DESIGN CHOICE: 01 R34 names one
route and no network; log entry 46). -/
def State.walk (s : State) (p : Packet) (r : RouteCost) : Nat → Option RouteCost
  | 0 => none
  | n + 1 =>
    match s.nextSide p with
    | none => some r
    | some (side, ring, _) =>
      match neighbour p.pos side with
      | none => none
      | some q =>
        let open_ := match seamOf p.pos q side 0 with
          | none => true
          | some (f, sd, net, i) => !s.fab.excess.contains (fieldOf q) && (s.link f sd net i).carries
        if !open_ then none
        else
          let holes := match ring with
            | some d => if r.holes.contains d.hole then r.holes else r.holes ++ [d.hole]
            | none => r.holes
          s.walk { p with pos := q, ring }
            { hops := r.hops + 1, seams := r.seams + bit (decide (fieldOf p.pos ≠ fieldOf q)), holes,
              detour := r.detour || ring.isSome } n

/-- The cost of the route between two positions. -/
def State.routeCost (s : State) (p q : Lcn) : Option RouteCost :=
  s.walk { id := 0, typ := .rd, rt := q, dst := q, src := p, pos := p } {} 16384

/-! ### Routers: the choice of the next packet at an output port (08 R292, R294) -/

/-- A packet stands first in its buffer. -/
def State.heads (s : State) (p : Packet) : Bool :=
  match s.fab.pkts.find? fun q => q.injected && q.pos == p.pos && q.typ.isReply == p.typ.isReply && q.side == p.side &&
      q.channel == p.channel with
  | some q => q.id == p.id
  | none => false

/-- The packet as it stands after a hop, but for its mark. -/
def Packet.over (p : Packet) (side : Nat) (q : Lcn) (ring : Option Detour) : Packet :=
  { p with pos := q, side := (side + 2) % 4, ring, hops := p.hops + 1,
           seams := p.seams + bit (decide (fieldOf p.pos ≠ fieldOf q)) }

/-- The next buffer of a hop holds credits for the whole packet (08 R292). -/
def State.hopRoom (s : State) (p : Packet) (side : Nat) (q : Lcn) (ring : Option Detour) : Bool :=
  let p' := p.over side q ring
  decide (s.occupancy q p.typ.isReply p'.side p'.channel + p.size ≤
    bufferDepth p'.channel (decide (fieldOf p.pos ≠ fieldOf q)))

/-- The row of a spare shift is held: no packet enters it from outside (16 R580). -/
def State.rowHeld (s : State) (p q : Lcn) : Bool :=
  match s.darn with
  | some d => d.kind == 1 && d.recorded &&
      (let at_ := (d.at_.field / 8 * 128 + d.at_.panel * 16 + d.at_.row, d.at_.field % 8)
       let on (x : Lcn) : Bool := (rowOf x, colOf x / 128) == at_
       on q && !on p)
  | none => false

/-- What an input offers at an output port: the side by which its head leaves and the VC it leaves on; none where it is not
first in its buffer, goes nowhere, or lacks credits. -/
def State.offer (s : State) (p : Packet) : Option (Nat × Nat) :=
  if !s.heads p then none
  else match s.nextHop p with
    | .to side q ring _ =>
      if s.hopRoom p side q ring && !s.rowHeld p.pos q then some (side, (p.over side q ring).channel) else none
    | _ => none

/-- The number of an output port. -/
def portKey (p : Packet) (side : Nat) : Nat := (p.pos.toNat * 2 + bit p.typ.isReply) * 4 + side

def State.routerPort (s : State) (p : Packet) (side : Nat) : RouterPort := mget {} s.fab.ports (portKey p side)

/-- The inputs that offer a packet at an output port of the router that holds `p`, as input side and VC. -/
def State.inputsAt (s : State) (p : Packet) (side : Nat) : List (Nat × Nat) :=
  (s.fab.pkts.filter fun q => q.injected && q.pos == p.pos && q.typ.isReply == p.typ.isReply).filterMap fun q =>
    match s.offer q with
    | some (sd, vc) => if sd = side then some (q.side, vc) else none
    | none => none

/-- The order of the VCs at an output port (08 R294). -/
def vcOrder : List Nat := [0, 2, 1]

/-- The VC of the next packet among those offered: one that has lost 16 consecutive choices, or the first in order. -/
def RouterPort.chooseVc (r : RouterPort) (vcs : List Nat) : Option Nat :=
  match vcOrder.find? fun v => vcs.contains v && decide (16 ≤ mget 0 r.lost v) with
  | some v => some v
  | none => vcOrder.find? vcs.contains

/-- The input that wins on a VC: the first from the rotating pointer on. -/
def RouterPort.chooseInput (r : RouterPort) (vc : Nat) (inputs : List Nat) : Option Nat :=
  ((List.range 5).map fun i => (mget 0 r.next vc + i) % 5).find? inputs.contains

/-- A packet wins the next choice at the output port by which it leaves. -/
def State.wins (s : State) (p : Packet) (side vc : Nat) : Bool :=
  let l := s.inputsAt p side
  let r := s.routerPort p side
  s.offer p == some (side, vc) && r.chooseVc (l.map (·.2)) == some vc &&
    r.chooseInput vc ((l.filter fun e => e.2 == vc).map (·.1)) == some p.side

/-- An output port after a choice: the other VCs that offered a packet have lost it, and the winner's pointer moves to the
input after it. A VC that offered nothing keeps its count (log entry 27). -/
def RouterPort.chosen (r : RouterPort) (vcs : List Nat) (vc input : Nat) : RouterPort :=
  { lost := vcOrder.foldl (fun m v =>
      if v = vc then mset 0 m v 0 else if vcs.contains v then mset 0 m v (mget 0 m v + 1) else m) r.lost
    next := mset 0 r.next vc ((input + 1) % 5) }

end Sys2Proof.Machine
end

