-- ==== Sys2Proof/Machine/CoreCtl.lean ====
section
/-!
DEFINITION. The core's control events: tag timers, core reset, halt and resume, accumulator owners, seeding
(02 R49, R50, R76, R78, R86; 05 R197 to R202; 09 R366; 16 R574).
-/

namespace Sys2Proof.Machine

/-- The retry-in-progress indication: some seam link or Selvedge port retries or retrains (08 R333, 13 R480). -/
def State.retryIndication (s : State) : Bool :=
  (s.fab.links.any fun e => e.2.st == .retry || e.2.st == .retrain) ||
    (List.range 32).any fun p => decide (s.get F.SEL_STAT_STATE p = 3) || decide (s.get F.SEL_STAT_STATE p = 4)

/-- The trap record of a held tag. -/
def Tag.trapInfo (g : Tag) (cause sub info : Nat) : TrapInfo :=
  { cause, sub, resp := true, pc := g.pc, info, addr := g.addr.toNat }

/-- TAG_TIMEOUT: a held tag's timer reaches its limit (02 R76); the timer stands still while the retry indication is
raised. A tag of a STOPPED thread raises no trap (03 R119); a tag that a core reset left behind returns to the pool
(16 R574). -/
def execTagTimeout (c : Lcn) (tag : Fin 64) (s : State) : Out :=
  let g := s.tagAt c tag.val
  if s.retryIndication then .next s
  else match g.st with
    | .held =>
      let s := (s.setTag c tag.val { g with st := .quarantine }).put F.CORE_STAT_TIMEOUT 1 c.toNat
      match (s.thread c g.thread).st with
      | .stopped => .next s
      | _ => .next (s.trap c g.thread (g.trapInfo 7 0 (tag.val + g.gen * 64)))
    | .orphan => .next (s.setTag c tag.val { gen := g.gen })
    | _ => .next s

/-- TAG_QUARANTINE_END: a timed-out tag returns to the pool (02 R78). -/
def execTagQuarantineEnd (c : Lcn) (tag : Fin 64) (s : State) : Out :=
  let g := s.tagAt c tag.val
  match g.st with
  | .quarantine => .next (((s.setTag c tag.val g.release).pump c).settle c)
  | _ => .next s

/-! ### Core reset (16 R574) -/

/-- A register key belongs to a core's window and a core reset returns it to its reset value: all but the tree entries
(08 R336). -/
def resetsWithCore (c : Lcn) (key : Nat) : Bool :=
  let id := key / 2 ^ 32
  decide (id < coreFieldCount) && decide (key / 2 ^ 12 % 2 ^ 20 = c.toNat) &&
    !(decide (F.FAB_TREEn_A_TREE.id ≤ id) && decide (id ≤ F.FAB_TREEn_B_TACK.id))

/-- A tag after its core's reset: a held tag leaves its thread with its generation advanced. -/
def Tag.orphaned (g : Tag) : Tag :=
  match g.st with
  | .held => { g with st := .orphan, gen := (g.gen + 1) % 16 }
  | _ => g

/-- What a core keeps through a core reset beside its memories: its tag table, its merge buffers. -/
def Core.afterReset (k : Core) : Core :=
  { Core.reset with
    tags := k.tags.map fun e => (e.1, e.2.orphaned)
    sums := k.sums
    owed := k.owed
    absorbing := true }

/-- Answers RSTR to a request that the interface holds: a message in a landing slot, or a partner digest (09 R355, 16 R574). -/
def State.refuseLanding (s : State) (q : Packet) : State := s.reply q q.pos .rstr 0 0 0 0

/-- The ring of a core fails: one of its cores was reset or lost (12 Table 12.4). -/
def State.failRingOf (s : State) (c : Lcn) : State :=
  let j := s.get F.CORE_RING_CFG_RING c.toNat
  if s.flag F.CORE_RING_CFG_VALID c.toNat then
    match findKey s.rings j with
    | some r => { s with rings := putKey s.rings j { r with fail := true } }
    | none => s
  else s

/-- The destination tiles of the compressor and of the selection engine where one runs (06 R232, R239, R242). -/
def State.undoneTiles (s : State) (c : Lcn) : List Nat :=
  let u := c.toNat
  let dst := s.get F.SPX_CMP_CMD_DST u
  (List.range 256).filter fun k =>
    (s.flag F.SPX_CMP_STAT_BUSY u && decide (dst ≤ k) && decide (k < dst + s.get F.SPX_CMP_CMD_SPAN u)) ||
      ((s.core c).sel.isSome && k == s.get F.SPX_SEL_CMD_IDX u) ||
      s.spool.any fun r => r.isGather && r.core == c && r.gather.any fun e => e.2 % 65536 / 256 == k

/-- The contents of a tile are undefined until it is written again (log entry 6). -/
def State.freeTile (s : State) (c : Lcn) (k : Nat) : State :=
  let (v, s) := s.free 2048
  { s with sram := writeLE s.sram 0 (sramAddr c (k * 256)) v.toNat 256 }

/-- A request of the core's own threads and engines that waits in its interface: it goes with the core reset, while replies and
the packets of a spool engine stay (08 R290, 16 R574; log entry 41). -/
def Packet.waitsInCore (p : Packet) (c : Lcn) : Bool :=
  !p.injected && p.src == c && !p.typ.isReply && match p.sender with
    | .spool _ _ _ | .spoolDone => false
    | _ => true

/-- The core reset of 16 R574: threads, registers, lanes, accumulators, tacks and queues return to their reset values; the
memories, checksums, BAD bits and tree entries stay, but for the destination tiles of an engine that it stops; the interface
absorbs traffic until the phase ends. -/
def State.coreReset (s : State) (c : Lcn) : State :=
  let k := s.core c
  let s := (s.undoneTiles c).foldl (fun s n => s.freeTile c n) s
  let s := (k.landing ++ k.digests).foldl (fun s l => s.refuseLanding l) (s.failRingOf c)
  let s := { s.resetKeys (resetsWithCore c) with
    threads := s.threads.filter fun e => !decide (e.1 / 4 = c.toNat)
    lanes := s.lanes.filter fun e => !decide (e.1 / 256 = c.toNat)
    spoolWin := delKey s.spoolWin (512 + c.toNat)
    spool := s.spool.filter fun r => !(r.isGather && r.core == c)
    fab := { s.fab with pkts := s.fab.pkts.filter fun p => !p.waitsInCore c } }
  let s := s.put F.FAB_WIN_W (s.get F.FAB_WINCFG_W_MAX (fieldOf c)) c.toNat
  s.setCore c k.afterReset

/-- A core reset that CORE_CTL asks for: without effect on a core in a scope that is being reset (16 Table 16.5). -/
def State.softReset (s : State) (c : Lcn) : State :=
  match s.partialReset with
  | some r => if r.phase ≠ 0 ∧ s.inScope r c = true then s else s.coreReset c
  | none => s.coreReset c

/-- CORE_SW_RST: a CORE_CTL write with SW_RST 1 performs the core reset and nothing else (16 R574, 00 R688). -/
def execCoreSwRst (c : Lcn) (s : State) : Out :=
  .next (if s.backed c then s.softReset c else s)

/-! ### Halt and resume -/

/-- THREAD_HALT: a HALT bit stops issue of a thread (02 R49). -/
def execThreadHalt (c : Lcn) (t : Fin 4) (s : State) : Out :=
  .next (if s.backed c then s.haltThread c t else s)

/-- A halted thread returns to its former state; a halted waiter evaluates its wait again (02 R50). -/
def State.resumeThread (s : State) (c : Lcn) (t : Fin 4) : State :=
  let th := s.thread c t
  match th.st with
  | .halted =>
    match th.wait with
    | some w =>
      if w.holds (s.tack c w.tack) then s.setThread c t { th with st := .running, wait := none }
      else s.setThread c t { th with st := .waiting }
    | none => (s.setThread c t { th with st := th.former }).unstall c t
  | _ => s

/-- THREAD_RESUME. -/
def execThreadResume (c : Lcn) (t : Fin 4) (s : State) : Out :=
  .next (if s.backed c then s.resumeThread c t else s)

/-! ### Accumulator owners (02 R86) -/

/-- A product names an accumulator: CD, or the pair of an FP64 product (04 R147). -/
def Product.uses (q : Product) (k : Nat) : Bool :=
  decide (q.cd.val = k) || (q.fmt == 9 && decide (q.cd.val / 2 = k / 2))

/-- An accumulator is used by a queued or running tensor instruction. -/
def Core.accInUse (k : Core) (i : Nat) : Bool :=
  (k.queue.any fun q => q.uses i) || (match k.array with | some q => q.uses i | none => false)

/-- One accumulator's owner written: at once, or when the instruction that uses it completes. -/
def State.writeOwner (s : State) (c : Lcn) (i owner : Nat) : State :=
  let k := s.core c
  if k.accInUse i && s.get F.CORE_ACC_OWN_OWNER_k c.toNat i != owner then
    s.setCore c { k with accNext := putKey k.accNext i owner }
  else
    (s.put F.CORE_ACC_OWN_OWNER_k owner c.toNat i).setCore c { k with accNext := delKey k.accNext i }

/-- The CORE_ACC_OWN register written. -/
def State.writeAccOwn (s : State) (c : Lcn) (v : Nat) : State :=
  (List.range 4).foldl (fun s i => s.writeOwner c i (v / 4 ^ i % 4)) s

/-- Deferred owners take effect once no queued or running instruction uses their accumulators, those queued after the write
among them (DESIGN CHOICE, log entry 46: 02 R86 speaks of one instruction). -/
def State.settleOwners (s : State) (c : Lcn) : State :=
  (s.core c).accNext.foldl
    (fun s e => if (s.core c).accInUse e.1 then s else s.writeOwner c e.1 e.2) s

/-- ACC_OWN_WRITE. -/
def execAccOwnWrite (c : Lcn) (v : BitVec 8) (s : State) : Out :=
  .next (s.ifWindow .CORE_ACC_OWN c 0 fun s => s.writeAccOwn c v.toNat)

/-! ### Seeds and lanes (05 R194 to R202) -/

/-- The state that seeding gives a lane (05 R197). -/
def seedLane (seed : Word) (n : Nat) : Word :=
  let z := seed + BitVec.ofNat 64 (n + 1) * 0x9e3779b97f4a7c15
  let z := (z ^^^ (z >>> 30)) * 0xbf58476d1ce4e5b9
  let z := (z ^^^ (z >>> 27)) * 0x94d049bb133111eb
  z ^^^ (z >>> 31)

/-- The logical lane number (05 R194); a shadow shows its primary's core number (15 R556). -/
def State.laneNumber (s : State) (c : Lcn) (l : Nat) : Nat := (s.seenLcn c).toNat * 256 + l

/-- A lane's state; an unwritten lane is seeded from SEED = 0 (05 Table 5.10). -/
def State.lane (s : State) (c : Lcn) (l : Nat) : Word :=
  mget (seedLane 0 (c.toNat * 256 + l)) s.lanes (c.toNat * 256 + l)

def State.setLane (s : State) (c : Lcn) (l : Nat) (v : Word) : State :=
  { s with lanes := mset (seedLane 0 (c.toNat * 256 + l)) s.lanes (c.toNat * 256 + l) v }

/-- Every thread of the core is STOPPED, HALTED or TRAPPED and the tensor queue and array are empty (05 R202). -/
def State.quiet (s : State) (c : Lcn) : Bool :=
  (allThreads.all fun t => match (s.thread c t).st with
    | .stopped | .halted | .trapped => true
    | _ => false) && (s.core c).queue.isEmpty && (s.core c).array.isNone

/-- Every lane seeded from the current SEED. -/
def State.seedAll (s : State) (c : Lcn) : State :=
  let seed := BitVec.ofNat 64 (s.get F.CORE_SRSEED_SEED c.toNat)
  (List.range 256).foldl (fun s l => s.setLane c l (seedLane seed (s.laneNumber c l))) s

/-- The reseed that a write of RESEED starts, or REJ (05 R198, R202). -/
def State.reseed (s : State) (c : Lcn) : State :=
  if s.quiet c then
    let s := s.seedAll c
    s.setCore c { s.core c with reseeding := true }
  else s.put F.CORE_SRCMD_REJ 1 c.toNat

/-- RESEED. -/
def execReseed (c : Lcn) (s : State) : Out :=
  .next (s.ifWindow .CORE_SRCMD c 0 fun s => s.reseed c)

/-- RESEED_COMPLETE: the 256 cc end. -/
def execReseedComplete (c : Lcn) (s : State) : Out :=
  .next ((s.setCore c { s.core c with reseeding := false }).settle c)

/-- A write of SEED. -/
def State.writeSeed (s : State) (c : Lcn) (v : Word) : State :=
  if s.quiet c then s.put F.CORE_SRSEED_SEED v.toNat c.toNat else s.put F.CORE_SRCMD_REJ 1 c.toNat

/-- A write of a lane state. -/
def State.writeLane (s : State) (c : Lcn) (l : Nat) (v : Word) : State :=
  if s.quiet c then s.setLane c l v else s.put F.CORE_SRCMD_REJ 1 c.toNat

/-- SRSEED_WRITE: SEED, or the state of a lane (05 R202). -/
def execSrseedWrite (c : Lcn) (lane : Option (Fin 256)) (v : Word) (s : State) : Out :=
  .next (match lane with
    | none => s.ifWindow .CORE_SRSEED c 0 fun s => s.writeSeed c v
    | some l => s.ifWindow .CORE_SRLANEl c l.val fun s => s.writeLane c l.val v)

/-- TACK_VALUE_WRITE: a write of TACK_STATEn.VALUE acts as a set signal of order 5 (09 R366). -/
def execTackValueWrite (c : Lcn) (n : Fin 32) (v : BitVec 32) (s : State) : Out :=
  .next (s.ifWindow .TACK_STATEn c n.val fun s => s.signal c n true v 2 0)

end Sys2Proof.Machine
end

