-- ==== Sys2Proof/Machine/Hash.lean ====
section
/-!
DEFINITION. The hash SM3 that 15 R552 and chapter 20 name; the manual gives the name alone, so its steps are those of the
published standard (PRESUMED, log entry 15). The CRC-32s of packets, frames and stored copies (08 R296, 13 R471, 20 R660).
-/

namespace Sys2Proof.Machine

/-- The eight words of the chaining value. -/
abbrev Sm3 := List (BitVec 32)

/-- The initial value. -/
def sm3Init : Sm3 :=
  [0x7380166f, 0x4914b2b9, 0x172442d7, 0xda8a0600, 0xa96f30bc, 0x163138aa, 0xe38dee4d, 0xb0fb0e4e]

/-- The word of a block at an index. -/
def wordAt (l : List (BitVec 32)) (i : Nat) : BitVec 32 := (l[i]?).getD 0

def sm3P0 (x : BitVec 32) : BitVec 32 := x ^^^ x.rotateLeft 9 ^^^ x.rotateLeft 17
def sm3P1 (x : BitVec 32) : BitVec 32 := x ^^^ x.rotateLeft 15 ^^^ x.rotateLeft 23

/-- The 68 message words of a block of 16. -/
def sm3Expand (l : List (BitVec 32)) : List (BitVec 32) :=
  (List.range 52).foldl (fun w i =>
    w ++ [sm3P1 (wordAt w i ^^^ wordAt w (i + 7) ^^^ (wordAt w (i + 13)).rotateLeft 15) ^^^
      (wordAt w (i + 3)).rotateLeft 7 ^^^ wordAt w (i + 10)]) l

/-- The Boolean functions of round `j`. -/
def sm3FF (j : Nat) (x y z : BitVec 32) : BitVec 32 :=
  if j < 16 then x ^^^ y ^^^ z else (x &&& y) ||| (x &&& z) ||| (y &&& z)
def sm3GG (j : Nat) (x y z : BitVec 32) : BitVec 32 :=
  if j < 16 then x ^^^ y ^^^ z else (x &&& y) ||| (~~~x &&& z)

/-- One round. -/
def sm3Round (w : List (BitVec 32)) (v : Sm3) (j : Nat) : Sm3 :=
  let x := wordAt v
  let t : BitVec 32 := if j < 16 then 0x79cc4519 else 0x7a879d8a
  let a12 := (x 0).rotateLeft 12
  let ss1 := (a12 + x 4 + t.rotateLeft (j % 32)).rotateLeft 7
  let ss2 := ss1 ^^^ a12
  let tt1 := sm3FF j (x 0) (x 1) (x 2) + x 3 + ss2 + (wordAt w j ^^^ wordAt w (j + 4))
  let tt2 := sm3GG j (x 4) (x 5) (x 6) + x 7 + ss1 + wordAt w j
  [tt1, x 0, (x 1).rotateLeft 9, x 2, sm3P0 tt2, x 4, (x 5).rotateLeft 19, x 6]

/-- The chaining value after a block of 16 words. -/
def sm3Block (v : Sm3) (l : List (BitVec 32)) : Sm3 :=
  let w := sm3Expand l
  List.zipWith (· ^^^ ·) ((List.range 64).foldl (sm3Round w) v) v

/-- Big-endian words of a list of bytes, by count. -/
def bigWords (b : List Byte) : Nat → List (BitVec 32)
  | 0 => []
  | n + 1 =>
    (b.take 4).foldl (fun (v : BitVec 32) x => (v <<< 8) ||| x.zeroExtend 32) 0 :: bigWords (b.drop 4) n

/-- The digest over whole blocks, by count. -/
def sm3Blocks (v : Sm3) (b : List Byte) : Nat → Sm3
  | 0 => v
  | n + 1 => sm3Blocks (sm3Block v (bigWords b 16)) (b.drop 64) n

/-- The padding of a message of `n` bytes: a one bit, zeros, and the length in bits. -/
def sm3Pad (n : Nat) : List Byte :=
  0x80 :: (List.replicate ((119 - n % 64) % 64) 0 ++
    (List.range 8).map fun i => BitVec.ofNat 8 (8 * n / 256 ^ (7 - i)))

/-- The SM3 digest of a list of bytes. -/
def sm3 (b : List Byte) : BitVec 256 :=
  let m := b ++ sm3Pad b.length
  (sm3Blocks sm3Init m (m.length / 64)).foldl (fun (v : BitVec 256) x => (v <<< 32) ||| x.zeroExtend 256) 0

/-! ### CRC-32 -/

/-- The number of a list of bytes, least significant first. -/
def ofBytes (l : List (BitVec 8)) : Nat := l.foldr (fun b acc => b.toNat + 256 * acc) 0

/-- The number of a list of bytes, most significant first. -/
def ofBigBytes (l : List (BitVec 8)) : Nat := l.foldl (fun acc b => 256 * acc + b.toNat) 0

/-- A CRC register after one zero bit, under a reflected polynomial. -/
def crcShift (poly c : Nat) : Nat := if c % 2 = 1 then c / 2 ^^^ poly else c / 2

/-- A CRC register after the low `n` bits of a number, least significant first. -/
def crcBits (poly : Nat) : Nat → Nat → Nat → Nat
  | 0, _, c => c
  | n + 1, v, c => crcBits poly n (v / 2) (crcShift poly (c ^^^ v % 2))

/-- A reflected CRC-32 of `n` bytes that are least significant first, with the initial value of all ones and final
inversion. -/
def crc32 (poly n v : Nat) : BitVec 32 := ~~~BitVec.ofNat 32 (crcBits poly (8 * n) v (2 ^ 32 - 1))

/-- The polynomial 0x1EDC_6F41 of CRC-32C, reflected as CRC-32C commonly is (08 R296; PRESUMED, log entry 49). -/
def crcC : Nat := 0x82F63B78

/-- The reflected polynomial 0x04C1_1DB7 (20 R660). -/
def crcStore : Nat := 0xEDB88320

end Sys2Proof.Machine
end

