-- ==== Sys2Proof/Machine/Store.lean ====
section
/-!
DEFINITION. The non-volatile store: what each section holds, its copies and their winner, queued writes, and the load at
release step 2 (20 R659 to R665).
-/

namespace Sys2Proof.Config

/-- The payload bytes of a section's contents, by section ID: 20 Table 20.5 names what they hold and not their layout (log entry
51). -/
opaque storeBytes : Nat → Sys2Proof.Machine.Payload → List (BitVec 8)

end Sys2Proof.Config

namespace Sys2Proof.Machine

/-- The section IDs (20 Table 20.5). -/
def sectRepair : Nat := 1
def sectTopo : Nat := 3
def sectWatch : Nat := 4
def sectLife : Nat := 5

/-- The counts that the REPAIR section keeps, in order. -/
def repairCounts : List Fld :=
  [F.BRG_DISAGREE_TEST_ONLY, F.BRG_DISAGREE_FUSE_ONLY, F.BRG_DISAGREE_FIELD, F.BRG_DARN_COUNT_SPARES,
   F.BRG_DARN_COUNT_RELOCS, F.BRG_DARN_COUNT_FENCES]

/-- The contents of a section as they stand now. -/
def State.payload (s : State) (k : Nat) : Payload :=
  match k with
  | 1 => { badPositions := s.badPositions, fenced := s.fenced, relocations := s.relocations,
           heldBad := s.heldBad, disagreements := s.disagreements,
           counts := repairCounts.map fun f => s.get f }
  | 3 => { unexpected := s.unexpected }
  | 4 => { watch := s.watch }
  | 5 => s.life
  | _ => {}

/-! ### Copies (20 R660, Tables 20.5 and 20.6) -/

/-- The offset of a section in its bank and the size of its region; a region of size 0 belongs to no section. -/
def sectRegion : Nat → Nat × Nat
  | 1 => (0x00000, 144 * 1024)
  | 2 => (0x24000, 8 * 1024)
  | 3 => (0x26000, 12 * 1024)
  | 4 => (0x29000, 64 * 1024)
  | 5 => (0x39000, 4 * 1024)
  | 6 => (0x3A000, 12 * 1024)
  | _ => (0x3D000, 0)

/-- The first twelve bytes of a copy's header: MAGIC, ID, FORMAT, LEN and SEQ. -/
def copyHead (id len seq : Nat) : List Byte :=
  [0x54, 0x53, BitVec.ofNat 8 id, 0x01] ++ ((List.range 4).map fun i => BitVec.ofNat 8 (len / 256 ^ i)) ++
    (List.range 4).map fun i => BitVec.ofNat 8 (seq / 256 ^ i)

/-- The copy check over header bytes 0 to 11 and the payload. -/
def copyCheck (head payload : List Byte) : BitVec 32 :=
  crc32 crcStore (head.length + payload.length) (ofBytes (head ++ payload))

/-- A copy as its bytes: the header, with the check last, and the payload. -/
def copyBytes (id seq : Nat) (payload : List Byte) : List Byte :=
  let head := copyHead id payload.length seq
  let crc := copyCheck head payload
  head ++ ((List.range 4).map fun i => BitVec.ofNat 8 (crc.toNat / 256 ^ i)) ++ payload

/-- The bytes at the start of a region are a valid copy of a section: MAGIC, ID, FORMAT and LEN are right, and the check holds
(20 R661). -/
def copyValid (id : Nat) (b : List Byte) : Bool :=
  let len := ofBytes ((b.drop 4).take 4)
  let payload := (b.drop 16).take len
  b.take 4 == [0x54, 0x53, BitVec.ofNat 8 id, 0x01] && decide (len + 16 ≤ (sectRegion id).2) &&
    payload.length == len && (copyCheck (b.take 12) payload).toNat == ofBytes ((b.drop 12).take 4)

/-- SEQ of a copy's bytes. -/
def copySeq (b : List Byte) : Nat := ofBytes ((b.drop 8).take 4)

/-- The bytes that a copy's region starts with: ones where it is erased, and the copy itself where it is valid; the bytes of a
copy without a valid header or check are not held. -/
def CopyState.bytes (id : Nat) : CopyState → Option (List Byte)
  | .blank => some (List.replicate (sectRegion id).2 0xFF)
  | .broken => none
  | .valid seq p => some (copyBytes id seq (Config.storeBytes id p))

/-- A SEQ is later than another, by serial-number arithmetic on 32 bits (18 R617). -/
def laterSeq (a b : Nat) : Bool :=
  let d : Nat := (a + 2 ^ 32 - b % 2 ^ 32) % 2 ^ 32
  decide (1 ≤ d) && decide (d < 2 ^ 31)

/-- The winning copy of a section: whether it is bank B's, its SEQ and its contents (20 R661). -/
def Section.winner (x : Section) : Option (Bool × Nat × Payload) :=
  match x.a, x.b with
  | .valid i p, .valid j q => if laterSeq j i then some (true, j, q) else some (false, i, p)
  | .valid i p, _ => some (false, i, p)
  | _, .valid j q => some (true, j, q)
  | _, _ => none

/-- Both copies of a section are erased. -/
def Section.isBlank (x : Section) : Bool := x.a == .blank && x.b == .blank

/-- A copy is valid. -/
def CopyState.isValid (x : CopyState) : Bool :=
  match x with
  | .valid _ _ => true
  | _ => false

/-- Both copies are valid under one SEQ. -/
def Section.sameSeq (x : Section) : Bool :=
  match x.a, x.b with
  | .valid i _, .valid j _ => i == j
  | _, _ => false

def State.sect (s : State) (k : Nat) : Section := mget {} s.store k

def State.setSect (s : State) (k : Nat) (x : Section) : State := { s with store := mset {} s.store k x }

/-- A section's contents have changed and are not yet durable (20 Table 20.9). -/
def State.isDirty (s : State) (k : Nat) : Bool :=
  match (s.sect k).winner with
  | some (_, _, p) => s.payload k != p
  | none => s.payload k != {}

/-- A section joins those that wait to be written. -/
def State.queueSection (s : State) (k : Nat) : State :=
  if s.nvsQueue.contains k then s else { s with nvsQueue := s.nvsQueue ++ [k] }

/-- The losing copy of a section replaced. -/
def Section.setLoser (x : Section) (c : CopyState) : Section :=
  match x.winner with
  | some (true, _, _) => { x with a := c }
  | some (false, _, _) => { x with b := c }
  | none => { x with a := c }

/-- A write pulse is in progress (17 R591). -/
def State.writing (s : State) : Bool := s.nvsWrite.isSome

/-- NVS_SECTION_WRITE: Thimble starts the next pending section, in the order REPAIR, TOPO, LIFE, WATCH; the losing copy is
without a valid header until its last page (20 R662, R663). -/
def execNvsSectionWrite (s : State) : Host.Outcome State Fault Refusal :=
  if s.writing || !s.flag F.NVS_STAT_LOADED || s.flag F.NVS_STAT_LOSS then .next s
  else match [sectRepair, sectTopo, sectLife, sectWatch].find? fun k => s.nvsQueue.contains k with
    | none => .next s
    | some k =>
      let s := { s with nvsQueue := s.nvsQueue.filter fun j => j != k
                        nvsWrite := some { id := k, content := s.payload k } }
      .next (((s.setSect k ((s.sect k).setLoser .broken)).put F.NVS_STAT_BUSY 1).put F.NVS_STAT_SECT k)

/-- The new copy of a section in force and the other erased. -/
def Section.committed (x : Section) (p : Payload) : Section :=
  match x.winner with
  | some (true, i, _) => { a := .valid ((i + 1) % 2 ^ 32) p, b := .blank }
  | some (false, i, _) => { a := .blank, b := .valid ((i + 1) % 2 ^ 32) p }
  | none => { a := .valid 1 p, b := .blank }

/-- A section written through to the store within one step. -/
def State.commitSection (s : State) (k : Nat) : State :=
  (s.setSect k ((s.sect k).committed (s.payload k))).addWrap F.NVS_STAT_WRITES 1

/-- NVS_WRITE_DURABLE: the new copy reads back valid and the other is erased; a section that has changed meanwhile is
written again (20 R662, R663). -/
def execNvsWriteDurable (s : State) : Host.Outcome State Fault Refusal :=
  match s.nvsWrite with
  | none => .next s
  | some w =>
    let s := { s.setSect w.id ((s.sect w.id).committed w.content) with nvsWrite := none }
    let s := ((s.put F.NVS_STAT_BUSY 0).put F.NVS_STAT_SECT 0).addWrap F.NVS_STAT_WRITES 1
    .next (if s.isDirty w.id then s.queueSection w.id else s)

/-- A reset or a loss of power cuts the write in progress short: its copy stays without a valid header (20 R662). -/
def State.cutWrite (s : State) : State :=
  { ((s.put F.NVS_STAT_BUSY 0).put F.NVS_STAT_SECT 0) with nvsWrite := none, nvsQueue := [] }

/-! ### The load at release step 2 (20 R664, R665) -/

/-- The REPAIR section taken into service. -/
def State.loadRepair (s : State) (p : Payload) : State :=
  let s := { s with
    badPositions := p.badPositions
    fenced := p.fenced
    heldBad := p.heldBad
    disagreements := p.disagreements
    relocations := p.relocations }
  (repairCounts.zip p.counts).foldl (fun s e => s.put e.1 e.2) s

/-- Every link of the wafer, for a store without an expected topology. -/
def noTopology : List Nat := List.range (64 * 4 * 2 * 128)

/-- The sections loaded: REPAIR, TOPO, WATCH and LIFE as their copies stand, with first bring-up, LIFE_LOST and LOSS. -/
def State.loadStore (s : State) : State :=
  let sect (k : Nat) : Option (Bool × Nat × Payload) := (s.sect k).winner
  let lost (k : Nat) : Bool := (sect k).isNone && !(s.sect k).isBlank
  let loss := lost sectRepair || (sect 2).isNone || (sect 6).isNone
  let s := { s with firstBringUp := (s.sect sectRepair).isBlank }
  let s := match sect sectRepair with
    | some (_, _, p) => s.loadRepair p
    | none => s.loadRepair {}
  let s := { s with
    unexpected := (match sect sectTopo with | some (_, _, p) => p.unexpected | none => noTopology)
    watch := (match sect sectWatch with | some (_, _, p) => p.watch | none => [])
    life := (match sect sectLife with | some (_, _, p) => p | none => {}) }
  let s := if (sect sectLife).isNone then s.put F.NVS_STAT_LIFE_LOST 1 else s
  let s := if (List.range 7).any fun k => (s.sect k).sameSeq then s.put F.NVS_STAT_EQSEQ 1 else s
  let s := (List.range 7).foldl (fun s k => s.put F.NVS_SECTk_BLANK (bit (s.sect k).isBlank) 0 k) s
  let s := (s.put F.NVS_STAT_LOADED 1).put F.NVS_STAT_LOSS (bit loss)
  s.put F.BRG_READY_NVS (bit !loss)

end Sys2Proof.Machine
end

