-- ==== Sys2Proof/Machine/RegAccess.lean ====
section
/-!
DEFINITION. Register access: reading a register with the fields that other state decides, writing one under its access
codes, the clock gates of the blocks, and the places of registers in device register space and in the core windows
(00 R3 to R6; 02 R87 to R90; 07 R254 to R258; 14 R500, R513; 18 R610, R611).
-/

namespace Sys2Proof.Machine

/-! ### Reading -/

/-- The code of a thread state (02 Table 2.2). -/
def ThreadState.code : ThreadState → Nat
  | .stopped => 0
  | .running => 1
  | .stalled => 2
  | .waiting => 3
  | .halted => 4
  | .trapped => 5

/-- The entry of a list by number. -/
def nth? {α : Type} (l : List α) (n : Nat) : Option α := l[n]?

/-- Fields that time moves while nothing else happens: clocks, and the cc that ports lose to each other. The model keeps no
clock, so a read of one returns a free value (log entry 7). -/
def runningFields : List Fld :=
  [F.CORE_CYCLES_CC, F.CLK_FLDf_CYCLES_CC]

/-- Fields that count time in some condition of the machine: a read of one returns a free value once its counter has run since
its reset, and its reset value before (log entry 7). -/
def timedFields : List Fld :=
  [F.CORE_TAGSTALL_STALL_CC, F.CORE_TAGSTALL_SAT, F.CORE_BANKCONF_LOST, F.CORE_BANKCONF_SAT,
   F.CORE_TQFULL_STALL_CC, F.CORE_TQFULL_SAT, F.BOB_HELDCC_CC, F.BOB_HELDCC_SAT, F.FAB_RETRY_STAT_MAX_CC,
   F.CORE_QENDe_B_WAIT_CC, F.CORE_QENDe_B_HELD_CC, F.CORE_QENDe_B_SAT, F.CORE_STEERu_B_WAIT_IN,
   F.CORE_STEERu_B_WAIT_OUT, F.CORE_STEERu_B_SAT, F.CORE_PAT_SWCC_LAST_WAIT, F.CORE_PAT_SWCC_MAX_WAIT,
   F.CORE_PAT_THSTALLn_QWAIT_CC, F.CORE_PAT_THSTALLn_STALL_CC, F.CORE_PAT_THSTALLn_SAT,
   F.SEL_RETRYSTAT_MAX_US, F.PWR_THR_TRr_TR, F.PWR_THR_TRr_SAT, F.PWR_THR_USr_US,
   F.PWR_THR_USr_SAT]

/-- A number whose bit i is 1 where a condition holds of i. -/
def bitMap (n : Nat) (f : Nat → Bool) : Nat := ((List.range n).map fun i => bit (f i) * 2 ^ i).sum

/-- How many numbers below a bound meet a condition. -/
def countBelow (n : Nat) (f : Nat → Bool) : Nat := ((List.range n).filter f).length

/-- Bad positions of a physical row that hold no fenced column. -/
def State.rowBad (s : State) (row : Nat) : List Nat := mget [] s.badPositions row

/-- A gusset row, as 128 × field + row, holds a relocated row segment. -/
def State.hosting (s : State) (row : Nat) : Bool :=
  s.relocations.any fun r => (r.gfy * 8 + r.gfx) * 128 + 112 + r.grow == row

/-- The gusset rows of the wafer, as 128 × field + row. -/
def gussetRows : List Nat :=
  (List.range 64).flatMap fun f =>
    if (f % 8 + f / 8) % 2 = 1 then (List.range 16).map fun r => f * 128 + 112 + r else []

/-- Bad positions of a physical row, those that hold fenced columns included. -/
def State.badCount (s : State) (row : Nat) : Nat :=
  (s.rowBad row).length + (s.heldBad.filter fun p => p.field * 128 + p.panel * 16 + p.row == row).length

/-- A gusset row with at most two bad positions and no relocated row (01 Table 1.4, R16). -/
def State.openGussetRow (s : State) (row : Nat) : Bool := decide (s.badCount row ≤ 2) && !s.hosting row

/-- A gusset row that darning may take: open, in a field that is neither parked nor a hole (16 R579; 19 R644). -/
def State.freeGussetRow (s : State) (row : Nat) : Bool :=
  s.openGussetRow row && !s.isParked (row / 128) && !s.isHole (row / 128)

/-- Row segments of a field that are relocated out of it, and those that its gusset holds. -/
def State.movedOut (s : State) (f : Nat) : Nat :=
  (s.relocations.filter fun r => r.lrow / 128 * 8 + r.fx == f).length

def State.movedIn (s : State) (f : Nat) : Nat := (s.relocations.filter fun r => r.gfy * 8 + r.gfx == f).length

/-- The logical cores outside the gussets that a field holds and that are not fenced. -/
def State.coresHeld (s : State) (f : Nat) : Nat :=
  let rows := (if (f % 8 + f / 8) % 2 = 1 then 112 else 128) + s.movedIn f - s.movedOut f
  128 * rows - (s.fenced.filter fun n => s.homeField (BitVec.ofNat 20 n) == f).length

/-- WAF_CORES.WORKING: the cores that fencing, a parked field or a hole leaves backed (01 R15, Table 1.4; log entry 46). -/
def State.coresWorking (s : State) : Nat :=
  ((List.range 64).map fun f => if s.isParked f || s.isHole f then 0 else s.coresHeld f).sum

/-- Seam links of a side of a field that are in some state. -/
def State.linksIn (s : State) (f side : Nat) (is : LinkState → Bool) : Nat :=
  if hasSeam f side then
    countBelow 128 (fun i => is (s.link f side 0 i).st) + countBelow 128 (fun i => is (s.link f side 1 i).st)
  else 0

/-- A link retries or retrains. -/
def LinkState.retrying : LinkState → Bool
  | .retry | .retrain => true
  | _ => false

/-- The fields whose REASON has a bit set, or whose temperature is at CRIT or above, or an unattainable cap, drive FAULT_N
low (19 R646). -/
def State.fault (s : State) : Bool :=
  s.flag F.PWR_STAT_UNATTAIN ||
    (List.range 64).any fun f => (s.get F.PWR_FLDf_STAT_REASON f).testBit 3 ||
      decide (s.get F.PWR_THERM_CRIT ≤ s.get F.PWR_FLDf_STAT_TEMP f)

/-- The programmed voltage: 1.10 × the minimum, rounded up to a multiple of 5 mV (19 R628). -/
def programmed (mv : Nat) : Nat := (11 * mv + 49) / 50 * 5

/-- The effective stitch setting of a field (18 R606). -/
def State.effSetting (s : State) (f : Nat) : Nat :=
  min (s.get F.CLK_FLDf_STITCH_TARGET f) (min (s.get F.PWR_STAT_W) (s.get F.PWR_FLDf_STAT_TCEIL f))

/-- The sequencer of a field holds: on REF, after a loss of lock, or without a reference (18 R604, R609). -/
def State.seqHolds (s : State) (f : Nat) : Bool :=
  s.get F.CLK_FLDf_STAT_ACTIVE f == 0 || s.lockHold.contains f || !s.flag F.CLK_STAT_REFOK

/-- Views of the store, the clocks, the power block, bring-up and Thimble (16 to 20). -/
def State.viewedMgmt (s : State) (f : Fld) (u n : Nat) : Option Nat :=
  let is (g : Fld) : Bool := f.id == g.id
  let sect (v : Section → Nat) : Option Nat := some (if n = 0 then 0 else v (s.sect n))
  let cur := s.get F.CLK_FLDf_STAT_CUR u
  let min := (Config.minMillivolts u cur).toNat
  if is F.NVS_SECTk_A_VALID then sect fun x => bit x.a.isValid
  else if is F.NVS_SECTk_B_VALID then sect fun x => bit x.b.isValid
  else if is F.NVS_SECTk_NEWER then sect fun x => match x.winner with | some (b, _, _) => bit b | none => 0
  else if is F.NVS_SECTk_SEQ then sect fun x => match x.winner with | some (_, i, _) => i | none => 0
  else if is F.NVS_SECTk_DIRTY then some (bit (decide (n ≠ 0) && s.isDirty n))
  else if is F.BRG_CMDSTAT_BUSY then some (bit s.brgCmd.isSome)
  else if is F.BRG_RSTSTAT_BUSY then some (bit s.partialReset.isSome)
  else if is F.BRG_RSTSTAT_PHASE then some (match s.partialReset with | some r => r.phase | none => 0)
  else if is F.BRG_DARN_STAT_BUSY then some (bit s.darn.isSome)
  else if is F.CLK_FLDf_STAT_REF_RDY then some (s.get F.CLK_STAT_REFOK)
  else if is F.CLK_FLDf_STAT_SEQ_BUSY then some (bit (findKey s.sequences u).isSome)
  else if is F.CLK_FLDf_STAT_HOLD then some (bit (s.seqHolds u))
  else if is F.CLK_FLDf_STITCH_CEIL then some (Nat.min (s.get F.PWR_STAT_W) (s.get F.PWR_FLDf_STAT_TCEIL u))
  else if is F.CLK_FLDf_STITCH_EFF then some (s.effSetting u)
  else if is F.TRD_STAT_RUNNING then some (s.get F.BRG_READY_TREADLE)
  else if is F.PWR_STAT_FAULT then some (bit s.fault)
  else if is F.PWR_STAT_PARKED then
    some (countBelow 64 fun i => s.isParked i && s.get F.PWR_FLDf_STAT_REASON i != 0)
  else if is F.PWR_FLDf_VOLT_PROG_MV then some (if cur = 0 then 0 else programmed min)
  else if is F.PWR_FLDf_VOLT_MIN_MV then some min
  else if is F.THM_STAT_SESSIONS then some (s.spdm.filter fun e => e.2.session.isSome).length
  else none

/-- The field's own registers, the panels' and Marker's views of other state (01 Tables 1.4 to 1.7; 07 Tables 7.13, 7.15,
7.21; 08 Tables 8.15 to 8.18; 16 Table 16.9). -/
def State.viewedMap (s : State) (f : Fld) (u n : Nat) : Option Nat :=
  let is (g : Fld) : Bool := f.id == g.id
  let row := u / 8 * 128 + u % 8 * 16 + n
  let seg (r : Nat) : Nat := (r / 128 / 8 * 128 + r % 128) * 8 + r / 128 % 8
  let rel (v : Relocation → Nat) : Option Nat := some (((nth? s.relocations n).map v).getD 0)
  if is F.FLD_ID_HOLE then some (bit (s.isHole u))
  else if is F.FLD_ID_PARKED then some (bit (s.isParked u))
  else if is F.WAF_CORES_WORKING then some s.coresWorking
  else if is F.WAF_CORES_FREE_GUSSET_ROWS then some (gussetRows.filter s.openGussetRow).length
  else if is F.WAF_CORES_RELOCATED_ROWS then some s.relocations.length
  else if is F.PNL_ROWSTAT_SPARES_USED_k then some (min 2 (s.rowBad row).length)
  else if is F.PNL_ROWSTAT_RELOCATED_k then some (bit (s.relocationOf (seg row)).isSome)
  else if is F.PNL_ROWSTAT_HOSTING_k then some (bit (s.hosting row))
  else if is F.PNL_RELOCn_LROW then rel (·.lrow)
  else if is F.PNL_RELOCn_FX then rel (·.fx)
  else if is F.PNL_RELOCn_GFX then rel (·.gfx)
  else if is F.PNL_RELOCn_GFY then rel (·.gfy)
  else if is F.PNL_RELOCn_GROW then rel (·.grow)
  else if is F.PNL_RELOCn_VALID then rel fun _ => 1
  else if is F.MRK_RELOC_BITMAPw_BITS then some (bitMap 64 fun i => (s.relocationOf (64 * n + i)).isSome)
  else if is F.MRK_STAT_SLOTS_USED then some (s.slots.filter fun e => decide (1 ≤ e.2.st) && decide (e.2.st ≤ 5)).length
  else if is F.MRK_STAT_BUSY then some (bit (s.slots.any fun e => e.2.st == 2 || e.2.st == 3))
  else if is F.MRK_STAT_PAUSED then some (bit (s.flag F.MRK_CTL_PAUSE && s.slots.any fun e => e.2.st == 1))
  else if is F.FAB_SEAMSTATs_RETRYING then some (s.linksIn u n LinkState.retrying)
  else if is F.FAB_SEAMSTATs_FAILED then some (s.linksIn u n (· == .failed))
  else if is F.FAB_SEAMFAILs_n_h_LINKS then
    some (bitMap 64 fun i => hasSeam u (n / 4) && (s.link u (n / 4) (n / 2 % 2) (64 * (n % 2) + i)).st == .failed)
  else if is F.FAB_RETRY_STAT_LOCAL then
    some (bit ((List.range 4).any fun d => decide (0 < s.linksIn u d LinkState.retrying)))
  else if is F.FAB_HOLEMAP_HOLES then some (s.get F.FAB_HOLEMAP_HOLES)
  else if is F.FAB_PARKMAP_PARKED then some (bitMap 64 fun i => !s.computeOn i && (s.transitOn i || s.isHole i))
  else if is F.BRG_FLD_READY_MAP then
    some (s.get F.BRG_FLD_TRANSIT_MAP &&& s.get F.BRG_FLD_SEAMOK_MAP &&& s.get F.BRG_FLD_TOPO_MAP &&&
      s.get F.BRG_FLD_COMPUTE_MAP)
  else if is F.SEL_TAGSTAT_INFLIGHT then some (mget {} s.ports u).tags.length
  else if is F.SEL_MAP_OK then
    some (bit ((List.range 32).all fun p =>
      s.get F.SEL_STAT_STATE p == 2 && s.get F.SEL_CAP_CAP_GIB p == s.get F.SEL_CAP_CAP_GIB 0))
  else if is F.BRG_PORTS_MAP then some (bitMap 32 fun p => s.get F.SEL_STAT_STATE p == 2)
  else none

/-- The occupancy of an in end or the outstanding count of an out end of the active pattern (10 R392). -/
def State.endCount (s : State) (c : Lcn) (e : Nat) : Nat :=
  let u := c.toNat
  let moved := mget 0 (s.core c).ends e
  if s.flag F.CORE_QENDe_A_ROLE u e then
    (moved + s.get F.CORE_QENDe_A_DEPTH u e + 2 ^ 32 - (s.tack c (Fin.ofNat 32 (s.get F.CORE_QENDe_A_CTACK u e))).toNat) %
      2 ^ 32
  else
    ((s.tack c (Fin.ofNat 32 (s.get F.CORE_QENDe_A_FTACK u e))).toNat + 2 ^ 32 - moved % 2 ^ 32) % 2 ^ 32

/-- The registers of a thread can be read: STOPPED, HALTED or TRAPPED (02 R90). -/
def State.readable (s : State) (c : Lcn) (t : Fin 4) : Bool :=
  match (s.thread c t).st with
  | .stopped | .halted | .trapped => true
  | _ => false

/-- A reason of 19 Table 19.3 is active. -/
def State.throttles (s : State) (r : Nat) : Bool :=
  let parked (l : List Nat) : Bool := (List.range 64).any fun f =>
    l.any fun b => (s.get F.PWR_FLDf_STAT_REASON f).testBit b
  let input := decide (800 * s.get F.PWR_MEAS_VIN_MV / 1000 ≤ min (s.get F.PWR_CAP_RACK) (s.get F.PWR_CAP_HOST))
  match r with
  | 0 => decide (s.get F.PWR_STAT_W < 8) && !input
  | 1 => parked [0]
  | 2 => (List.range 64).any fun f => decide (s.get F.PWR_FLDf_STAT_TCEIL f < 8)
  | 3 => parked [1, 2]
  | 4 => parked [3]
  | 5 => parked [4]
  | 6 => s.flag F.PWR_STAT_UNATTAIN
  | _ => decide (s.get F.PWR_STAT_W < 8) && input

/-- The counters of the active throttling reasons run (19 R645). -/
def State.noteThrottles (s : State) : State :=
  ((List.range 8).filter s.throttles).foldl (fun s r =>
    [F.PWR_THR_TRr_TR, F.PWR_THR_TRr_SAT, F.PWR_THR_USr_US, F.PWR_THR_USr_SAT].foldl (fun s f => s.tick f 0 r) s) s

/-- A field of PWR_THR_TRr or PWR_THR_USr. -/
def isThrottle (f : Fld) : Bool :=
  [F.PWR_THR_TRr_TR, F.PWR_THR_TRr_SAT, F.PWR_THR_USr_US, F.PWR_THR_USr_SAT].any fun g => f.id == g.id

/-- The fields whose value other state decides: unit and index as in their register. -/
def State.viewed (s : State) (f : Fld) (u n : Nat) : Option Nat :=
  let c : Lcn := BitVec.ofNat 20 u
  let t : Fin 4 := Fin.ofNat 4 n
  let is (g : Fld) : Bool := f.id == g.id
  let free : Nat := (Config.readBits f.width f.id n s.freeCtr).toNat
  if runningFields.any fun g => f.id == g.id then some free
  else if timedFields.any fun g => f.id == g.id then
    (if s.ticked.contains (fldKey f u n) || (isThrottle f && s.throttles n) then some free else none)
  else if f.id < coreFieldCount then
    if is F.CORE_ID_RELOCATED then some (bit (s.relocationOf (segmentOf c)).isSome)
    else if is F.CORE_THSTATE_STATE_n then some (s.thread c t).st.code
    else if is F.CORE_TH_PCn_PC then some (if s.readable c t then (s.thread c t).pc % 8192 else free)
    else if is F.CORE_TH_RETn_RETIRED then some (s.thread c t).retired.toNat
    else if is F.CORE_TH_WAITn_TACK then some (match (s.thread c t).wait with | some w => w.tack.val | none => 0)
    else if is F.CORE_TH_WAITn_STALL then some (s.thread c t).stall
    else if is F.CORE_TAGSTAT_FREE then some (s.core c).freeTags
    else if is F.CORE_TAGSTAT_HELD_n then some ((s.core c).heldBy t)
    else if is F.FAB_WIN_W then some (s.window c)
    else if is F.TACK_STATEn_WAITERS then
      some ((allThreads.map fun i => match (s.thread c i).wait with
        | some w => if w.tack.val = n then 2 ^ i.val else 0
        | none => 0).sum)
    else if is F.TACK_WAITt_OPERAND then
      some (match (s.thread c t).wait with | some w => w.operand.toNat | none => 0)
    else if is F.TACK_WAITt_EQ then some (match (s.thread c t).wait with | some w => bit w.eq | none => 0)
    else if is F.TACK_WAITt_VALID then some (bit (s.thread c t).wait.isSome)
    else if is F.CORE_QENDe_B_OCC then
      some (if s.flag F.CORE_QENDe_A_VALID u n then min (s.endCount c n) 1023 else 0)
    else if is F.CORE_PAT_STAT_PENDING then
      some (match (s.core c).switch with | some w => bit !w.running | none => 0)
    else if is F.CORE_PAT_STAT_SWITCHING then
      some (match (s.core c).switch with | some w => bit w.running | none => 0)
    else if is F.CORE_PAT_STAT_LOADING then some (bit (!(s.core c).loads.isEmpty))
    else if is F.BOB_STAT_HELD then some (s.core c).landing.length
    else if is F.BOB_STAT_LOCAL_BLOCK then some (bit (decide (4 ≤ (s.core c).landing.length)))
    else if is F.INT_CSUMSTAT_BADTILES then
      some (s.badTiles.filter fun k => k / 256 == u).length
    else if is F.INT_BADMAPw_BAD then
      some (((List.range 64).map fun i => if s.badTiles.contains (tileKey c (64 * n + i)) then 2 ^ i else 0).sum)
    else if is F.CORE_SRLANEl_STATE then
      some (if s.quiet c then (s.lane c n).toNat else free)
    else none
  else if (s.viewedMap f u n).isSome then s.viewedMap f u n
  else if (s.viewedMgmt f u n).isSome then s.viewedMgmt f u n
  else if is F.INT_STAT_ENTRIES then some s.watch.length
  else if is F.BRG_DARN_STAT_PENDING then some s.darnQueue.length
  else if is F.FAB_RETRY_STAT_ANY then some (bit s.retryIndication)
  else
    let e := nth? s.watch n
    let w (v : WatchEntry → Nat) : Option Nat := some ((e.map v).getD 0)
    if is F.INT_WL_An_FIELD then w fun e => e.at_.field
    else if is F.INT_WL_An_PANEL then w fun e => e.at_.panel
    else if is F.INT_WL_An_PROW then w fun e => e.at_.row
    else if is F.INT_WL_An_POS then w fun e => e.at_.pos
    else if is F.INT_WL_An_LCN then w fun e => e.lcn
    else if is F.INT_WL_An_INWIN then w fun e => s.inWindow e
    else if is F.INT_WL_An_CONDEMNED then w fun e => bit e.condemned
    else if is F.INT_WL_An_VALID then w fun _ => 1
    else if is F.INT_WL_Bn_LAST_TR then w fun e => e.times.headD 0
    else if is F.INT_WL_Bn_LAST_CAUSE then w fun e => e.cause
    else none

/-- The value a read of a field returns: zero for WO fields (00 R3). -/
def State.readFld (s : State) (f : Fld) (u n : Nat) : Nat :=
  match f.acc with
  | .wo => 0
  | _ => (s.viewed f u n).getD (s.get f u n)

/-- A register read whole: every field at its place, reserved bits zero (00 R3, R4). -/
def State.readReg (s : State) (r : Reg) (u n : Nat) : Nat :=
  (r.fields.map fun f =>
    ((List.range f.rep).map fun j => s.readFld f u (n * f.rep + j) % 2 ^ f.width * 2 ^ (f.lo + j * f.stride)).sum).sum

/-! ### Writing under the access codes -/

/-- The bits of a value that a copy of a field takes. -/
def Fld.slice (f : Fld) (j v : Nat) : Nat := v / 2 ^ (f.lo + j * f.stride) % 2 ^ f.width

/-- The condition that a timed counter counts holds now, so that its sticky flag may be set again at once. -/
def State.ticking (s : State) (f : Fld) (u n : Nat) : Bool :=
  let c : Lcn := BitVec.ofNat 20 u
  let is (g : Fld) : Bool := f.id == g.id
  let stalled (l : List Nat) : Bool :=
    allThreads.any fun t => (s.thread c t).st == .stalled && l.contains (s.thread c t).stall
  if is F.CORE_TAGSTALL_SAT then stalled [2, 3]
  else if is F.CORE_TQFULL_SAT then stalled [5]
  else if is F.BOB_HELDCC_SAT then !(s.core c).landing.isEmpty
  else if is F.CORE_QENDe_B_SAT then s.flag F.CORE_QENDe_A_VALID u n
  else if is F.CORE_STEERu_B_SAT then s.flag F.CORE_STEERu_A_VALID u n
  else if is F.CORE_PAT_THSTALLn_SAT then
    (s.thread c (Fin.ofNat 4 n)).st == .stalled || (s.thread c (Fin.ofNat 4 n)).st == .waiting
  else if is F.CORE_BANKCONF_SAT then false
  else if isThrottle f then s.throttles n
  else true

/-- The sticky flag of a timed counter is cleared: it reads zero until the counter runs again (02 R91). -/
def State.untick (s : State) (f : Fld) (u n new : Nat) : State :=
  if new = 1 ∧ (s.ticked.contains (fldKey f u n) && !s.ticking f u n) = true then
    { s with ticked := s.ticked.filter fun k => k != fldKey f u n }
  else s

/-- One copy of a field written under its access code (00 R3): RW sets it, W1C clears and W1S sets the bits that are
written 1, RO and WO keep nothing. -/
def State.writeFld (s : State) (f : Fld) (u n j v : Nat) : State :=
  let i := n * f.rep + j
  let new := f.slice j v
  match f.acc with
  | .ro => s
  | .wo => s
  | .rw => s.put f new u i
  | .w1c => (s.put f (s.get f u i - (s.get f u i &&& new)) u i).untick f u i new
  | .w1s => s.put f (s.get f u i ||| new) u i

/-- Every copy of a field written. -/
def State.writeFldAll (s : State) (f : Fld) (u n v : Nat) : State :=
  (List.range f.rep).foldl (fun s j => s.writeFld f u n j v) s

/-- A register written whole under its fields' access codes. -/
def State.writePlain (s : State) (r : Reg) (u n v : Nat) : State :=
  r.fields.foldl (fun s f => s.writeFldAll f u n v) s

/-- The ranges of values that the Meaning columns define, for fields where they leave some values out and no rule says
what such a write does (00 R6). -/
def definedRanges : List (Fld × Nat × Nat) :=
  [(F.CORE_TAGCFG_THREAD_MAX, 1, 64), (F.CORE_TAGCFG_TIMEOUT_EXP, 24, 30),
   (F.FAB_MARK_THRESH_VC1, 1, 48), (F.FAB_MARK_THRESH_VC2, 1, 48),
   (F.FAB_WINCFG_W_MAX, 1, 64), (F.FAB_WINCFG_W_MIN, 1, 64),
   (F.FAB_RETRYCFG_REPLAY_MAX, 1, 16), (F.FAB_RETRYCFG_RETRAIN_MAX, 0, 4), (F.FAB_RETRYCFG_EPISODE_MAX, 1, 255),
   (F.FAB_DL_WINDOW_EXP, 16, 30)] ++
  [(F.SEL_WAIT_LIMIT_LIMIT, 4, 1023), (F.SEL_LOCK_MAX_MAX, 1, 63), (F.SEL_RETRYCFG_REPLAY_MAX, 1, 16),
   (F.SEL_RETRYCFG_EPISODE_MAX, 1, 255), (F.SEL_RETRYCFG_LANE_ERR, 1, 255), (F.SEL_RSP_TIMEOUT_US, 100, 5000),
   (F.CXL_HM_TIMEOUT_US, 1000, 16000), (F.CXL_LDk_RING_LOG2SIZE, 6, 16), (F.CXL_LDk_EVQ_LOG2SIZE, 6, 16),
   (F.CXL_LDk_MSIX_COUNT, 0, 2048)] ++
  [(F.INT_FENCE_COUNT_COUNT, 1, 8), (F.INT_FENCE_WINDOW_TR, 1, 2 ^ 47 - 1), (F.BRG_DRAIN_LIMIT_US, 1000, 60000),
   (F.BRG_DARN_CMD_POS, 0, 129),
   (F.CLK_OBS_SRC, 0, 6), (F.CLK_FLDf_CTL_SRC, 0, 2), (F.CLK_FLDf_STITCH_TARGET, 1, 8),
   (F.PWR_CTL_TRIP_MAX, 1, 15), (F.PWR_CAP_HOST, 1000, 40000),
   (F.MGT_ARBCFG_WAIT_LIMIT, 4, 1023), (F.MGT_ARBCFG_LOCK_MAX, 1, 63)]

/-- A value lies within every defined range of a register's fields; W_MIN lies within 1 to W_MAX, and GSTRIDE is a multiple of
256 (06 Table 6.16). -/
def Reg.defines (r : Reg) (v : Nat) : Bool :=
  (r.fields.all fun f => definedRanges.all fun e =>
    e.1.id != f.id || (decide (e.2.1 ≤ f.slice 0 v) && decide (f.slice 0 v ≤ e.2.2))) &&
  (r != .FAB_WINCFG || decide (F.FAB_WINCFG_W_MIN.slice 0 v ≤ F.FAB_WINCFG_W_MAX.slice 0 v)) &&
  (r != .SPX_GATHER_CFG || F.SPX_GATHER_CFG_GSTRIDE.slice 0 v % 256 == 0)

/-! ### Register space and the core windows -/

/-- A place of register space: a register's copy, a place in a core's window that no register takes, a slot window, the
distance table, an empty place, or none (07 Table 7.2). -/
inductive RegSpace
  | reg (r : Reg) (u n : Nat)
  | window (c : Lcn) (off : Nat)
  | slot (n off : Nat)
  | distance (off : Nat)
  | empty (b : Option (Block × Nat))
  | outside
deriving DecidableEq, Repr

/-- The register at an offset of a block's unit. -/
def regAtUnit (b : Block) (u off : Nat) : RegSpace :=
  match b.regAt off with
  | some (r, i) => if r.place.byUnit then .reg r i 0 else .reg r u i
  | none => .empty (some (b, u))

/-- An offset within a core's window (02 Table 2.6). -/
def windowAt (c : Lcn) (off : Nat) : RegSpace :=
  if off < 0x1000 then
    match Block.regAt .core off with
    | some (r, i) => .reg r c.toNat i
    | none => .empty (some (.core, c.toNat))
  else .window c off

/-- What stands at a BAR0 offset below the aperture (07 R255, R256). -/
def bar0At (o : Nat) : RegSpace :=
  if o < 0x100000 then
    let k := o / 0x10000
    if k = 0xA then (if o % 0x10000 < 0x6000 then .distance (o % 0x10000) else .empty (some (.clk, 0)))
    else
      match [Block.waf, .clk, .rst, .pwr, .trd, .intg, .nvs, .thm, .mrk, .brg][k]? with
      | some b => regAtUnit b 0 (o % 0x10000)
      | none => .empty (some (.clk, 0))
  else if o < 0x200000 then regAtUnit .cxl 0 (o - 0x100000)
  else if o < 0x300000 then
    let p := (o - 0x200000) / 0x8000
    let off := (o - 0x200000) % 0x8000
    if off = 0x4000 ∧ p ≠ 0 then .empty (some (.sel, p)) else regAtUnit .sel p off
  else if 0x1000000 ≤ o ∧ o < 0x2000000 then
    let f := (o - 0x1000000) / 0x40000
    let r := (o - 0x1000000) % 0x40000
    if r < 0x10000 then regAtUnit .fld f r
    else if r < 0x30000 then regAtUnit .pnl (f * 8 + (r - 0x10000) / 0x4000) ((r - 0x10000) % 0x4000)
    else .empty (some (.fld, f))
  else .empty none

/-- What stands at an offset of device register space, bits [47:0] of the address (07 Table 7.2). -/
def regSpaceAt (o : Nat) : RegSpace :=
  if o < 0x2000000 then bar0At o
  else if 0x100000000 ≤ o ∧ o < 0x100000000 + 0x100000 * 0x4000 then
    windowAt (BitVec.ofNat 20 ((o - 0x100000000) / 0x4000)) (o % 0x4000)
  else if 0x1000000000 ≤ o ∧ o < 0x1000000000 + 64 * 0x400000 then
    .slot ((o - 0x1000000000) / 0x400000) (o % 0x400000)
  else .outside

/-- The registers of a thread can be written: STOPPED or HALTED (02 R90). -/
def State.writable (s : State) (c : Lcn) (t : Fin 4) : Bool :=
  match (s.thread c t).st with
  | .stopped | .halted => true
  | _ => false

/-- Owner thread of an accumulator. -/
def State.owner (s : State) (c : Lcn) (k : Nat) : Fin 4 := Fin.ofNat 4 (s.get F.CORE_ACC_OWN_OWNER_k c.toNat k)

def State.acc (s : State) (c : Lcn) (k : Nat) : Acc := mget 0 (s.core c).accs k

def State.setAcc (s : State) (c : Lcn) (k : Nat) (v : Acc) : State :=
  s.setCore c { s.core c with accs := mset 0 (s.core c).accs k v }

/-- The eight bytes at an offset of a core's window that no register takes; none where 02 R90 leaves the value
undefined. -/
def State.readWindow (s : State) (c : Lcn) (off : Nat) : Option Nat :=
  if off < 0x2000 then
    let t : Fin 4 := Fin.ofNat 4 ((off - 0x1000) / 0x400)
    let o := off % 0x400
    let th := s.thread c t
    if 0x188 ≤ o then some 0
    else if !s.readable c t then none
    else if o < 0x100 then some (th.readS (Fin.ofNat 32 (o / 8))).toNat
    else if o < 0x180 then some (th.readA (Fin.ofNat 16 (o / 8 % 16))).toNat
    else some ((List.range 8).map fun i => bit (th.readP (Fin.ofNat 8 i)) * 256 ^ i).sum
  else if !s.flag F.CORE_DBG_VIEW c.toNat then
    let t : Fin 4 := Fin.ofNat 4 ((off - 0x2000) / 0x800)
    if !s.readable c t then none
    else some (((s.thread c t).readT (Fin.ofNat 8 (off % 0x800 / 0x100))).toNat / 2 ^ (off % 0x100 * 8) % 2 ^ 64)
  else if off < 0x3000 then
    let k := (off - 0x2000) / 0x400
    if !s.readable c (s.owner c k) then none
    else some ((s.acc c k).toNat / 2 ^ (off % 0x400 * 8) % 2 ^ 64)
  else some 0

/-- A number with the 64 bits from bit `lo` replaced. -/
def spliceWord (v lo x : Nat) : Nat := v - v / 2 ^ lo % 2 ^ 64 * 2 ^ lo + x % 2 ^ 64 * 2 ^ lo

/-- Eight bytes written at an offset of a core's window that no register takes (02 R90). -/
def State.writeWindow (s : State) (c : Lcn) (off v : Nat) : State :=
  let rej := s.put F.CORE_STAT_DBG_REJ 1 c.toNat
  if off < 0x2000 then
    let t : Fin 4 := Fin.ofNat 4 ((off - 0x1000) / 0x400)
    let o := off % 0x400
    let th := s.thread c t
    if 0x188 ≤ o then s
    else if !s.writable c t then rej
    else if o < 0x100 then s.setThread c t (th.writeS (Fin.ofNat 32 (o / 8)) (BitVec.ofNat 64 v))
    else if o < 0x180 then s.setThread c t (th.writeA (Fin.ofNat 16 (o / 8 % 16)) (BitVec.ofNat 64 v))
    else
      s.setThread c t ((List.range 8).foldl
        (fun th i => th.writeP (Fin.ofNat 8 i) (decide (v / 256 ^ i % 2 = 1))) th)
  else if !s.flag F.CORE_DBG_VIEW c.toNat then
    let t : Fin 4 := Fin.ofNat 4 ((off - 0x2000) / 0x800)
    let k : Fin 8 := Fin.ofNat 8 (off % 0x800 / 0x100)
    let th := s.thread c t
    if !s.writable c t then rej
    else s.setThread c t (th.writeT k (BitVec.ofNat 2048 (spliceWord (th.readT k).toNat (off % 0x100 * 8) v)))
  else if off < 0x3000 then
    let k := (off - 0x2000) / 0x400
    if !s.writable c (s.owner c k) then rej
    else s.setAcc c k (BitVec.ofNat 8192 (spliceWord (s.acc c k).toNat (off % 0x400 * 8) v))
  else s

end Sys2Proof.Machine
end

