-- ==== Sys2Proof/Machine/Cue.lean ====
section
/-!
DEFINITION. Cue tables: arming, cancelling, and the entries that come due (18 R615, R618 to R622).
-/

namespace Sys2Proof.Machine

/-- A field's copy of the treadle count (18 R615). -/
def State.fieldCount (s : State) (f : Nat) : Nat := mget 0 s.trdCopy f

/-- FLD_CUESTAT.ARMED after a change of the table. -/
def State.showArmed (s : State) (f : Nat) : State :=
  s.put F.FLD_CUESTAT_ARMED (countBelow 256 fun n => s.flag F.FLD_CUEn_B_VALID f n) f

/-- An entry cancelled, or gone once it has fired. -/
def State.disarm (s : State) (f n : Nat) : State :=
  { (s.put F.FLD_CUEn_B_VALID 0 f n).showArmed f with cueDue := s.cueDue.filter fun k => k != 256 * f + n }

/-- An entry comes due: it fires at its CUE_FIRE. -/
def State.makeDue (s : State) (f n : Nat) : State :=
  if s.cueDue.contains (256 * f + n) then s else { s with cueDue := s.cueDue ++ [256 * f + n] }

/-- Word B written with VALID 1: the entry is armed, due at once where its count is reached, or due at once and late where
the count has passed; before counting begins it only stays armed (18 R620). -/
def State.arm (s : State) (f n count kind : Nat) : State :=
  let s := ((s.put F.FLD_CUEn_B_COUNT count f n).put F.FLD_CUEn_B_KIND kind f n).put F.FLD_CUEn_B_VALID 1 f n
  let s := { s.showArmed f with cueDue := s.cueDue.filter fun k => k != 256 * f + n }
  let d : Nat := (count + 2 ^ 48 - s.fieldCount f % 2 ^ 48) % 2 ^ 48
  if !s.flag F.BRG_READY_TREADLE then s
  else if d = 0 then s.makeDue f n
  else if d < 2 ^ 47 then s
  else (s.makeDue f n).put F.FLD_CUESTAT_LATE 1 f

/-- A cue that the integrity block or the step controller places in its own entry of a field's table (18 R618). -/
def State.placeCue (s : State) (f n kind arg count : Nat) : State :=
  if s.flag F.CLK_FLDf_CTL_TRN_EN f then (s.put F.FLD_CUEn_A_CUE arg f n).arm f n (count % 2 ^ 48) kind else s

/-- The entry of a ring's deadline, of its digest mark, of a field's test sweep and of its suspect sweep, among the entries
224 to 255 (DESIGN CHOICE, log entry 16). -/
def deadlineEntry (j : Nat) : Nat := 224 + j
def markEntry (j : Nat) : Nat := 228 + j
def sweepEntry : Nat := 232
def suspectEntry : Nat := 233

/-- Every entry of a field's table emptied (18 R622). -/
def State.emptyCues (s : State) (f : Nat) : State :=
  { s.resetKeys (fun k => k / 2 ^ 12 % 2 ^ 20 == f &&
      ((decide (F.FLD_CUEn_B_COUNT.id ≤ k / 2 ^ 32) && decide (k / 2 ^ 32 ≤ F.FLD_CUEn_B_VALID.id)) ||
        k / 2 ^ 32 == F.FLD_CUEn_A_CUE.id || k / 2 ^ 32 == F.FLD_CUESTAT_ARMED.id)) with
    cueDue := s.cueDue.filter fun k => k / 256 != f }

end Sys2Proof.Machine
end

