-- ==== Sys2Proof/Machine/Spool.lean ====
section
/-!
DEFINITION. The spool engines: posted requests, their checks, their reads and writes, completion and failure
(09 R371 to R376; 06 R243, R244; 08 R316; 13 R464).
-/

namespace Sys2Proof.Machine

/-! ### Routes of memory accesses -/

/-- Destination, route target and fence destination of an access to wafer SRAM, far memory or host memory by a core
(08 R300, R318; 13 R461, R470; 14 R507, R508; 07 R686). -/
def State.memoryRoute (s : State) (c : Lcn) (a : Nat) : Option (Lcn × Lcn × Nat) :=
  if a < 2 ^ 36 then
    let d := s.reachedLcn c (BitVec.ofNat 20 (a / 65536))
    some (d, s.routeTarget d, d.toNat)
  else if a / 2 ^ 46 = 4 then
    let p := (s.farPort (a % 2 ^ 46)).1
    some (portAttachment p, portAttachment p, 2 ^ 23 + p)
  else if a / 2 ^ 48 = 2 then
    let m := s.managementPos c
    some (m, m, 2 ^ 23 + 100)
  else none

/-- The end of the region that holds an address (07 Table 7.1). -/
def regionEnd (a : Nat) : Nat :=
  if a < 2 ^ 36 then 2 ^ 36 else if a / 2 ^ 46 = 4 then 5 * 2 ^ 46 else 3 * 2 ^ 48

/-! ### Posting (09 R371, R373) -/

/-- Requests of a core posted and not complete. -/
def State.spoolPosted (s : State) (c : Lcn) : Nat :=
  (s.spool.filter fun r => r.core == c && !r.isGather).length

/-- SPL_STAT.POSTED after a change of the requests. -/
def State.showPosted (s : State) (c : Lcn) : State := s.put F.SPL_STAT_POSTED (s.spoolPosted c) c.toNat

/-- A request added to the panel's queue. -/
def State.addSpool (s : State) (r : SpoolReq) : State :=
  let s := { s with spool := s.spool ++ [{ r with id := s.nextSpool, ld := s.ldOf r.core, panel := panelOf r.core }],
                    nextSpool := s.nextSpool + 1 }
  s.showPosted r.core

/-- The request that the core's spool registers name, posted by a thread (09 R371). -/
def State.postSpool (s : State) (c : Lcn) (t : Fin 4) : State :=
  let u := c.toNat
  s.addSpool { id := 0, panel := 0, core := c, thread := t, ld := 0, src := s.get F.SPL_SRC_ADDR u,
                 dst := s.get F.SPL_DST_ADDR u, tiles := s.get F.SPL_CMD_TILES u, tack := s.get F.SPL_CMD_TACK u }

/-- A write of SPL_CMD by a thread of the core: a GO write beyond two requests is discarded and sets REJ (09 R371, Table
9.10). -/
def State.writeSplCmd (s : State) (c : Lcn) (t : Fin 4) (v : Nat) : State :=
  if v.testBit 63 && decide (2 ≤ s.spoolPosted c) then s.put F.SPL_STAT_REJ 1 c.toNat
  else
    let s := s.writePlain .SPL_CMD c.toNat 0 v
    if v.testBit 63 then s.postSpool c t else s

/-- SPOOL_POST: a thread's write of SPL_CMD. -/
def execSpoolPost (c : Lcn) (t : Fin 4) (v : Word) (s : State) : Out :=
  .next (s.ifWindow .SPL_CMD c 0 fun s => s.writeSplCmd c t v.toNat)

/-! ### The engine (09 R372 to R376) -/

/-- The address pair of a tile of a request. -/
def SpoolReq.move (r : SpoolReq) (k : Nat) : Nat × Nat :=
  if r.isGather then (r.gather[k]?).getD (0, 0) else (r.src + 256 * k, r.dst + 256 * k)

/-- Tiles of a request. -/
def SpoolReq.count (r : SpoolReq) : Nat := if r.isGather then r.gather.length else r.tiles

/-- The lowest error code of a posted request (09 Table 9.5). -/
def State.spoolError (s : State) (r : SpoolReq) : Option Nat :=
  let noTarget (a : Nat) : Bool := (s.memoryRoute r.core a).isNone
  if r.isGather then none
  else if r.tiles = 0 ∨ 65536 < r.tiles then some 1
  else if r.src % 256 ≠ 0 ∨ r.dst % 256 ≠ 0 then some 2
  else if noTarget r.src || noTarget r.dst then some 3
  else if regionEnd r.src < r.src + 256 * r.tiles ∨ regionEnd r.dst < r.dst + 256 * r.tiles then some 4
  else none

/-- A request replaced. -/
def State.setSpool (s : State) (r : SpoolReq) : State :=
  { s with spool := s.spool.map fun q => if q.id = r.id then r else q }

/-- A request by number. -/
def State.spoolAt (s : State) (id : Nat) : Option SpoolReq := s.spool.find? fun r => r.id == id

/-- Tiles in flight in a panel. -/
def State.panelFlight (s : State) (panel : Nat) : Nat :=
  ((s.spool.filter fun r => r.panel == panel).map fun r => r.live.length).sum

/-- The core of a panel at column 64 whose interface carries tile `k`: the cores that stand there take turns (09 R374). -/
def State.spoolPort (s : State) (panel k : Nat) : Lcn :=
  let all := (List.range 16).map fun i => fieldPos (panel / 8) (panel % 8 * 16 + i) 64
  let here := all.filter fun c => s.backed c && (s.relocationOf (segmentOf c)).isNone
  (here[k % max 1 here.length]?).getD (fieldPos (panel / 8) (panel % 8 * 16 + k % 16) 64)

/-- The lock mark of a tile's read or write at a far port, given the address of the request's next tile: set for every tile
but the last of a run to one port, in the port-linear mapping (13 R464). -/
def State.lockMark (s : State) (a : Nat) (next : Option Nat) : Nat :=
  match next with
  | some b =>
    if a / 2 ^ 46 = 4 ∧ b / 2 ^ 46 = 4 ∧ s.get F.SEL_MAP_MODE = 0 ∧
        (s.farPort (a % 2 ^ 46)).1 = (s.farPort (b % 2 ^ 46)).1 then 8 else 0
  | none => 0

/-- A read or a write of one tile of a request, as a packet. -/
def State.spoolPacket (s : State) (r : SpoolReq) (k : Nat) (write : Bool) (body : Nat) : Option Packet :=
  let end_ (k : Nat) : Nat := if write then (r.move k).2 else (r.move k).1
  let a := end_ k
  let c := s.spoolPort r.panel k
  (s.memoryRoute r.core a).map fun d =>
    { id := 0, typ := if write then .wr else .rd, ld := r.ld, dst := d.1, rt := d.2.1, fence := d.2.2,
      opc := 4 + s.lockMark a (if k + 1 < r.count then some (end_ (k + 1)) else none), src := c, arg := a
      flits := if write then 32 else 0, body, sender := .spool r.id k write, pos := s.routeTarget c }

/-- The failure of an operation of a request: SPL_STAT.FAIL, or GFAIL for a gather (09 R376, 06 R244). -/
def State.spoolFailed (s : State) (r : SpoolReq) : State :=
  if r.isGather then s.put F.SPX_SEL_STAT_GFAIL 1 r.core.toNat else s.put F.SPL_STAT_FAIL 1 r.core.toNat

/-- A tile's operation is over. -/
def State.spoolEndTile (s : State) (id k : Nat) (failed : Bool) : State :=
  match s.spoolAt id with
  | none => s
  | some r =>
    let s := if failed then s.spoolFailed r else s
    s.setSpool { r with live := r.live.filter fun e => e.1 != k, saved := delKey r.saved k }

/-- A failed write leaves its destination tile with its old contents: what the write has replaced is put back, and a packet of
the operation still in the fabric is gone (09 R376; log entry 31). -/
def State.spoolUndo (s : State) (id k : Nat) : State :=
  let s := { s with fab := { s.fab with pkts := s.fab.pkts.filter fun p =>
    !(match p.sender with | .spool i j _ => i == id && j == k | _ => false) } }
  match (s.spoolAt id).bind fun r => findKey r.saved k with
  | some (a, old) => s.writeTile (BitVec.ofNat 20 (a / 65536)) (a % 65536 / 256) old
  | none => s

/-- A spool write is about to replace a tile of wafer SRAM, whose old contents are kept until the write is acknowledged. -/
def State.spoolSave (s : State) (p : Packet) (c : Lcn) (tile : Nat) : State :=
  match p.sender with
  | .spool id k true =>
    match s.spoolAt id with
    | some r => s.setSpool { r with saved := putKey r.saved k (c.toNat * 65536 + tile * 256, s.readTile c tile) }
    | none => s
  | _ => s

/-- A packet of a tile sent, or the tile failed where its address has no target. -/
def State.spoolSend (s : State) (r : SpoolReq) (k : Nat) (write : Bool) (body : Nat) : State :=
  match s.spoolPacket r k write body with
  | some p => s.send p
  | none => s.spoolEndTile r.id k true

/-- Reads issued while tiles remain and the panel holds fewer than 256 in flight (09 R374). -/
def State.spoolIssue (s : State) (id : Nat) : Nat → State
  | 0 => s
  | n + 1 =>
    match s.spoolAt id with
    | none => s
    | some r =>
      if r.taken && !s.darnHeld r.core && decide (r.issued < r.count) && decide (s.panelFlight r.panel < 256) then
        let s := s.setSpool { r with issued := r.issued + 1, live := r.live ++ [(r.issued, false)] }
        (s.spoolSend r r.issued false 0).spoolIssue id n
      else s

/-- The reads of a panel's taken requests that are still to come, as far as the panel has room (09 R373, R374). -/
def State.spoolMore (s : State) (panel : Nat) : State :=
  match s.spool.find? fun q => q.panel == panel && q.taken && decide (q.issued < q.count) with
  | some q => s.spoolIssue q.id 256
  | none => s

/-- The first request of a panel that the engine has not taken. -/
def State.spoolNext (s : State) (panel : Nat) : Option SpoolReq :=
  (s.spool.filter fun r => r.panel == panel).find? fun r => !r.taken

/-- The completion signal of a request: a TSIG packet with the posting core and thread as its source, sent through an interface
of the panel (09 R375, Table 9.4). -/
def State.spoolTsig (s : State) (r : SpoolReq) : State :=
  s.send { id := 0, typ := .tsig, rt := s.routeTarget r.core, dst := r.core, src := r.core, sth := r.thread, ld := r.ld,
           pos := s.routeTarget (s.spoolPort r.panel 0), arg := r.tack % 32 + 2 ^ 32,
           sender := if r.isGather then .engine else .spoolDone, fence := r.core.toNat }

/-- A request leaves the engine: its tack is signalled (09 R375), and a gather ends the selection engine's command
(06 R240). -/
def State.spoolSignal (s : State) (r : SpoolReq) : State :=
  let s := { s with spool := s.spool.filter fun q => q.id != r.id }
  let s := s.showPosted r.core
  let s := if r.isGather then
      (s.put F.SPX_SEL_STAT_BUSY 0 r.core.toNat).put F.SPX_SEL_STAT_DONE 1 r.core.toNat
    else s
  s.spoolTsig r

/-- SPOOL_TAKE: the engine takes its panel's next request once every read of the request before it has been issued, and
checks it (09 R372, R373). -/
def execSpoolTake (panel : Fin 512) (s : State) : Out :=
  let s := s.spoolMore panel.val
  match s.spoolNext panel.val with
  | none => .next s
  | some r =>
    if s.darnHeld r.core || s.draining r.core ||
        s.spool.any fun q => q.panel == panel.val && q.taken && decide (q.issued < q.count) then .next s
    else match s.spoolError r with
      | some e =>
        let u := r.core.toNat
        .next (((s.put F.SPL_STAT_ERR 1 u).put F.SPL_STAT_ERRCODE e u).spoolSignal r)
      | none => .next ((s.setSpool { r with taken := true }).spoolIssue r.id 256)

/-- A tile's data goes on as its write. A write to far or host memory joins the operation digest of the posting thread; a
shadow does not send it, and its network interface answers it (15 R557, R558). -/
def State.spoolWrite (s : State) (r : SpoolReq) (k body : Nat) : State :=
  let dst := (r.move k).2
  if dst < 2 ^ 36 then s.spoolSend r k true body
  else
    let s := s.foldDigest r.core r.thread 1 0 dst body 256
    if s.flag F.INT_DUPSTAT_SHADOW r.core.toNat then (s.spoolEndTile r.id k false).spoolMore r.panel
    else s.spoolSend r k true body

/-- An answer to a tile's operation: a read's data goes on as the write, a write's acknowledgement ends the tile, and
the request issues further reads. An answer to an operation that is no longer in flight is discarded. -/
def State.spoolAnswer (s : State) (id k : Nat) (write ok : Bool) (body : Nat) : State :=
  match s.spoolAt id with
  | none => s
  | some r =>
    if !r.live.contains (k, write) then s
    else if !ok then ((s.spoolUndo id k).spoolEndTile id k true).spoolMore r.panel
    else if write then (s.spoolEndTile id k false).spoolMore r.panel
    else
      let r := { r with live := r.live.map fun e => if e.1 = k then (k, true) else e }
      (s.setSpool r).spoolWrite r k body

/-- SPOOL_OP_TIMEOUT: an operation of a request times out; the timer stands still while the retry indication is raised
(09 R376). -/
def execSpoolOpTimeout (id k : Nat) (s : State) : Out :=
  match s.spoolAt id with
  | none => .next s
  | some r =>
    .next (if s.retryIndication || !(r.live.any fun e => e.1 == k) then s
      else ((s.spoolUndo id k).spoolEndTile id k true).spoolMore r.panel)

/-- SPOOL_COMPLETE: every write of a request is acknowledged or has failed, so its tack is signalled (09 R375). -/
def execSpoolComplete (id : Nat) (s : State) : Out :=
  match s.spoolAt id with
  | none => .next s
  | some r => .next (if r.taken && r.issued == r.count && r.live.isEmpty then s.spoolSignal r else s)

end Sys2Proof.Machine
end

