-- ==== Sys2Proof/Machine/Number.lean ====
section
/-!
DEFINITION. The number formats of chapters 04 and 05: element layouts, exact values, rounding, special values, and the
special functions (04 Table 4.1, R164 to R172; 05 R180 to R205). An exact value is a signed integer times a power of two.
-/

namespace Sys2Proof.Machine

/-! ### Exact values -/

/-- A value that an instruction reads or computes: a NaN, an invalid result, an infinity, or (−1)^neg × m × 2^e. -/
inductive Num
  | nan
  | invalid
  | inf (neg : Bool)
  | fin (neg : Bool) (m : Nat) (e : Int)
deriving DecidableEq, Repr

def Num.isNan : Num → Bool
  | .nan => true
  | _ => false

def Num.isInvalid : Num → Bool
  | .invalid => true
  | _ => false

def Num.isInf (neg : Bool) : Num → Bool
  | .inf b => b == neg
  | _ => false

def Num.isFin : Num → Bool
  | .fin _ _ _ => true
  | _ => false

/-- The sign of a value. -/
def Num.sign : Num → Bool
  | .inf b => b
  | .fin b _ _ => b
  | _ => false

def Num.neg : Num → Num
  | .inf b => .inf !b
  | .fin b m e => .fin (!b) m e
  | x => x

/-- A product: NaN before infinity × 0, the sign the exclusive OR (05 R193). -/
def Num.mul (a b : Num) : Num :=
  match a, b with
  | .nan, _ => .nan
  | _, .nan => .nan
  | .invalid, _ => .invalid
  | _, .invalid => .invalid
  | .inf x, .inf y => .inf (x != y)
  | .inf x, .fin y m _ => if m = 0 then .invalid else .inf (x != y)
  | .fin x m _, .inf y => if m = 0 then .invalid else .inf (x != y)
  | .fin x m e, .fin y n f => .fin (x != y) (m * n) (e + f)

/-- A finite value as an integer multiple of 2^e0. -/
def Num.scaled (e0 : Int) : Num → Int
  | .fin b m e => (if b then -1 else 1) * (m : Int) * 2 ^ (e - e0).toNat
  | _ => 0

/-- The smallest exponent of the finite nonzero values of a list, 0 where there is none. -/
def minExponent (l : List Num) : Int :=
  (l.foldl (fun (b : Option Int) x =>
    match x with
    | .fin _ m e => if m = 0 then b else some (match b with | some f => min e f | none => e)
    | _ => b) none).getD 0

/-- The exact sum of terms with the rows of 04 Table 4.2: NaN, invalid, infinity, zero, sum. -/
def sumNums (l : List Num) : Num :=
  if l.any Num.isNan then .nan
  else if l.any Num.isInvalid || (l.any (Num.isInf true) && l.any (Num.isInf false)) then .invalid
  else if l.any (Num.isInf true) then .inf true
  else if l.any (Num.isInf false) then .inf false
  else
    let e0 := minExponent l
    let v := (l.map (Num.scaled e0)).sum
    if v = 0 then .fin (l.all Num.sign) 0 0 else .fin (decide (v < 0)) v.natAbs e0

/-- a < b for values that are no NaN; the two zeros are equal. -/
def Num.less (a b : Num) : Bool :=
  match a, b with
  | .inf true, .inf true => false
  | .inf true, _ => true
  | _, .inf true => false
  | .inf false, _ => false
  | _, .inf false => true
  | a, b =>
    let e0 := minExponent [a, b]
    decide (a.scaled e0 < b.scaled e0)

/-- The smaller value, −0 below +0; a NaN where either is one (04 R167). -/
def Num.min (a b : Num) : Num :=
  if a.isNan || b.isNan then .nan
  else if a.less b then a else if b.less a then b else if a.sign then a else b

/-- The larger value, +0 above −0; a NaN where either is one (04 R167). -/
def Num.max (a b : Num) : Num :=
  if a.isNan || b.isNan then .nan
  else if a.less b then b else if b.less a then a else if a.sign then b else a

/-! ### Formats -/

/-- The special encodings of a floating-point format (05 Table 5.1). -/
inductive Specials
  /-- Infinities and NaNs under the all-ones exponent. -/
  | ieee
  /-- One NaN encoding, all ones below the sign. -/
  | oneNan
  | none
deriving DecidableEq, Repr

/-- A floating-point layout. -/
structure Fp where
  exp : Nat
  man : Nat
  bias : Nat
  specials : Specials
  /-- Subnormals are flushed (05 R182). -/
  flush : Bool
deriving DecidableEq, Repr

/-- The layout of a format code, none for the integer codes (05 Table 5.1). -/
def fpOf : Nat → Option Fp
  | 0x0 => some ⟨4, 3, 7, .oneNan, false⟩
  | 0x1 => some ⟨5, 2, 15, .ieee, false⟩
  | 0x3 => some ⟨2, 3, 1, .none, false⟩
  | 0x4 => some ⟨3, 2, 3, .none, false⟩
  | 0x5 => some ⟨2, 1, 1, .none, false⟩
  | 0x6 => some ⟨5, 10, 15, .ieee, false⟩
  | 0x7 => some ⟨8, 7, 127, .ieee, false⟩
  | 0x8 => some ⟨8, 23, 127, .ieee, true⟩
  | 0x9 => some ⟨11, 52, 1023, .ieee, true⟩
  | _ => none

/-- Element width of a format code (04 Table 4.1). -/
def fmtWidth : Nat → Nat
  | 0x3 | 0x4 => 6
  | 0x5 => 4
  | 0x6 | 0x7 => 16
  | 0x8 | 0xA => 32
  | 0x9 => 64
  | _ => 8

/-- Elements per tile (04 Table 4.1). -/
def fmtCount : Nat → Nat
  | 0x5 => 512
  | 0x6 | 0x7 => 128
  | 0x8 | 0xA => 64
  | 0x9 => 32
  | _ => 256

/-- Columns of the operand shape: K (04 Table 4.1). -/
def fmtColumns (fmt : Nat) : Nat := fmtCount fmt / 16

/-- An integer format code. -/
def fmtIsInt (fmt : Nat) : Bool := fmt == 0x2 || fmt == 0xA

/-- Element `e` of a tile (04 R142). -/
def tileElem (fmt : Nat) (t : Tile) (e : Nat) : Nat := t.toNat / 2 ^ (fmtWidth fmt * e) % 2 ^ fmtWidth fmt

/-- All elements of a tile. -/
def tileElems (fmt : Nat) (t : Tile) : List Nat := (List.range (fmtCount fmt)).map (tileElem fmt t)

/-- Numbers of `w` bits packed, the first least significant. -/
def packBits (w : Nat) (l : List Nat) : Nat := l.foldr (fun v acc => v % 2 ^ w + 2 ^ w * acc) 0

/-- A tile of elements; the bytes that a format does not use are zero (04 R145). -/
def packTile (fmt : Nat) (l : List Nat) : Tile := BitVec.ofNat 2048 (packBits (fmtWidth fmt) l)

def Fp.signBit (f : Fp) : Nat := 2 ^ (f.exp + f.man)

/-- The encoding of infinity, without its sign. -/
def Fp.infBits (f : Fp) : Nat := (2 ^ f.exp - 1) * 2 ^ f.man

/-- The canonical NaN (05 Table 5.2). -/
def Fp.nanBits (f : Fp) : Nat :=
  match f.specials with
  | .ieee => f.infBits + 2 ^ (f.man - 1)
  | .oneNan => f.signBit - 1
  | .none => 0

/-- The largest finite encoding (05 Table 5.2). -/
def Fp.maxBits (f : Fp) : Nat :=
  match f.specials with
  | .ieee => f.infBits - 1
  | .oneNan => f.signBit - 2
  | .none => f.signBit - 1

/-- The smallest normal exponent. -/
def Fp.minExp (f : Fp) : Int := 1 - (f.bias : Int)

/-- An encoding's value, and whether the input flush of 05 R182 met it. -/
def Fp.decode (f : Fp) (x : Nat) : Num × Bool :=
  let s := x.testBit (f.exp + f.man)
  let e := x / 2 ^ f.man % 2 ^ f.exp
  let m := x % 2 ^ f.man
  let plain : Num × Bool :=
    if e = 0 then
      if f.flush && m != 0 then (.fin s 0 0, true) else (.fin s m (f.minExp - f.man), false)
    else (.fin s (m + 2 ^ f.man) ((e : Int) - f.bias - f.man), false)
  match f.specials with
  | .ieee => if e = 2 ^ f.exp - 1 then (if m = 0 then .inf s else .nan, false) else plain
  | .oneNan => if x % f.signBit = f.signBit - 1 then (.nan, false) else plain
  | .none => plain

/-- The largest finite value as m × 2^e. -/
def Fp.maxFinite (f : Fp) : Nat × Int :=
  match (f.decode f.maxBits).1 with
  | .fin _ m e => (m, e)
  | _ => (0, 0)

/-- The value of an element of any format; an integer format gives its two's-complement value. -/
def decodeElem (fmt x : Nat) : Num × Bool :=
  match fpOf fmt with
  | some f => f.decode x
  | none =>
    let v := toSigned (fmtWidth fmt) x
    (.fin (decide (v < 0)) v.natAbs 0, false)

/-! ### Rounding (05 R190 to R195) -/

/-- A magnitude m × 2^e at spacing 2^q: the lower neighbour's multiple, the part below it, and the bits of that part. -/
def splitAt (m : Nat) (e q : Int) : Nat × Nat × Nat :=
  if q ≤ e then (m * 2 ^ (e - q).toNat, 0, 0)
  else (m / 2 ^ (q - e).toNat, m % 2 ^ (q - e).toNat, (q - e).toNat)

/-- Whether the upper neighbour is taken: RNE, RTZ, stochastic with a draw, or the upper one always when the value is
inexact (mode 3, the model's own, for the bracketing choice of 04 R169). -/
def roundsToUpper (rm draw lo rem sh : Nat) : Bool :=
  match rm with
  | 0 => decide (2 ^ sh < 2 * rem) || (decide (2 * rem = 2 ^ sh) && decide (0 < sh) && lo % 2 == 1)
  | 1 => false
  | 2 => decide (2 ^ 16 ≤ rem * 2 ^ 16 / 2 ^ sh + draw)
  | _ => decide (0 < rem)

/-- The sign and magnitude encoded, for a magnitude k × 2^q that the format holds. -/
def Fp.encodeMag (f : Fp) (neg : Bool) (k : Nat) (q : Int) : Nat :=
  let s := if neg then f.signBit else 0
  if k = 0 then s
  else
    let e : Int := (Nat.log2 k : Int) + q
    if e < f.minExp then s + k
    else
      let mant := if Nat.log2 k ≤ f.man then k * 2 ^ (f.man - Nat.log2 k) else k / 2 ^ (Nat.log2 k - f.man)
      s + (e + f.bias).toNat * 2 ^ f.man + mant % 2 ^ f.man

/-- An overflow's result (05 Table 5.4). -/
def Fp.overflow (f : Fp) (sat neg : Bool) : Nat × TFlags :=
  let s := if neg then f.signBit else 0
  let narrow := f.exp == 5 && f.man == 2
  match f.specials with
  | .ieee => if sat && narrow then (s + f.maxBits, { clamp := true }) else (s + f.infBits, { ovf := true })
  | .oneNan => if sat then (s + f.maxBits, { clamp := true }) else (s + f.nanBits, { ovf := true })
  | .none => (s + f.maxBits, { clamp := true })

/-- A finite exact value rounded into a format (05 R191, R192). -/
def Fp.round (f : Fp) (sat : Bool) (rm draw : Nat) (neg : Bool) (m : Nat) (e : Int) : Nat × TFlags :=
  if m = 0 then (if neg then f.signBit else 0, {})
  else
    let top : Int := (Nat.log2 m : Int) + e
    let normal : Int := top - f.man
    let q := if f.flush then normal else max normal (f.minExp - f.man)
    let (lo, rem, sh) := splitAt m e q
    let k := if roundsToUpper rm draw lo rem sh then lo + 1 else lo
    let (mm, me) := f.maxFinite
    let beyond := (Num.fin false mm me).less (.fin false k q)
    if beyond then f.overflow sat neg
    else if f.flush && k != 0 && (Num.fin false k q).less (.fin false 1 f.minExp) then
      (if neg then f.signBit else 0, { flush := true })
    else (f.encodeMag neg k q, {})

/-- Any result encoded: NaN, infinity (05 Table 5.5), or a finite value rounded. -/
def Fp.encode (f : Fp) (sat : Bool) (rm draw : Nat) (x : Num) : Nat × TFlags :=
  match x with
  | .nan => (f.nanBits, { nanlost := f.specials == .none })
  | .invalid => (f.nanBits, { nv := true, nanlost := f.specials == .none })
  | .inf neg =>
    let s := if neg then f.signBit else 0
    match f.specials with
    | .ieee => if sat && f.exp == 5 && f.man == 2 then (s + f.maxBits, { clamp := true }) else (s + f.infBits, {})
    | .oneNan => if sat then (s + f.maxBits, { clamp := true }) else (s + f.nanBits, {})
    | .none => (s + f.maxBits, { clamp := true })
  | .fin neg m e => f.round sat rm draw neg m e

/-- A value converted into a two's-complement integer of `w` bits under RNE or RTZ, clamped (05 R205, Table 5.5). -/
def toInteger (w rm : Nat) (x : Num) : Nat × TFlags :=
  match x with
  | .inf true => (2 ^ (w - 1), { clamp := true })
  | .inf false => (2 ^ (w - 1) - 1, { clamp := true })
  | .fin neg m e =>
    let (lo, rem, sh) := splitAt m e 0
    let k := if roundsToUpper rm 0 lo rem sh then lo + 1 else lo
    if neg then
      if 2 ^ (w - 1) < k then (2 ^ (w - 1), { clamp := true }) else (ofSigned w (-(k : Int)), {})
    else if 2 ^ (w - 1) ≤ k then (2 ^ (w - 1) - 1, { clamp := true })
    else (k, {})
  | _ => (0, { nanlost := true })

/-! ### Special functions (04 R169, Table 4.6) -/

/-- The integer square root, by its bits from bit `n` − 1 downward onto `r`. -/
def isqrtFrom (x : Nat) : Nat → Nat → Nat
  | 0, r => r
  | n + 1, r => if (r + 2 ^ n) * (r + 2 ^ n) ≤ x then isqrtFrom x n (r + 2 ^ n) else isqrtFrom x n r

/-- The integer square root of a number below 2^(2·640). -/
def isqrt (x : Nat) : Nat := isqrtFrom x 640 0

/-- Fraction bits of the intermediate values of texp2. -/
def expBits : Nat := 192

/-- 2^f × 2^192 rounded down, for the fraction f whose `n` bits are given, the least significant first. -/
def exp2Frac (v : Nat) : Nat → Nat → Nat
  | 0, y => y
  | n + 1, y => exp2Frac (v / 2) n (isqrt ((if v % 2 = 1 then 2 * y else y) * 2 ^ expBits))

/-- A value known to lie in [m × 2^e, (m + 1) × 2^e), exact or not. -/
structure Bracket where
  m : Nat
  e : Int
  exact : Bool
deriving DecidableEq, Repr

/-- 2^x of a finite x: a whole exponent exactly, a fraction by square roots; beyond ±4096 a power that overflows or
underflows every format. -/
def exp2Bracket (neg : Bool) (m : Nat) (e : Int) : Bracket :=
  if 4096 < (splitAt m e 0).1 then ⟨1, if neg then -4096 else 4096, false⟩
  else
    let n := (-e).toNat
    let v : Int := (if neg then -1 else 1) * (m : Int) * 2 ^ e.toNat
    let whole := v / 2 ^ n
    let frac := (v % 2 ^ n).toNat
    if frac = 0 then ⟨1, whole, true⟩
    else ⟨exp2Frac frac n (2 ^ expBits), whole - expBits, false⟩

/-- 1/x of a finite nonzero magnitude. -/
def rcpBracket (m : Nat) (e : Int) : Bracket :=
  ⟨2 ^ 128 / m, -128 - e, decide (2 ^ 128 % m = 0)⟩

/-- 1/√x of a finite nonzero magnitude. -/
def rsqrtBracket (m : Nat) (e : Int) : Bracket :=
  let m' := if e % 2 = 0 then m else 2 * m
  let e' := if e % 2 = 0 then e else e - 1
  let r := isqrt (2 ^ 192 / m')
  ⟨r, -96 - e' / 2, decide (r * r * m' = 2 ^ 192)⟩

/-- The special functions by operation code: 0 texp2, 1 trcp, 2 trsqrt. A result that is no bracket is a special value of
Table 4.6. -/
def specialFunction (op : Nat) (x : Num) : Num ⊕ (Bool × Bracket) :=
  match op, x with
  | _, .nan => .inl .nan
  | _, .invalid => .inl .nan
  | 0, .inf neg => .inl (if neg then .fin false 0 0 else .inf false)
  | 1, .inf neg => .inl (.fin neg 0 0)
  | _, .inf neg => .inl (if neg then .invalid else .fin false 0 0)
  | 0, .fin neg m e => if m = 0 then .inl (.fin false 1 0) else .inr (false, exp2Bracket neg m e)
  | 1, .fin neg m e => if m = 0 then .inl (.inf neg) else .inr (neg, rcpBracket m e)
  | _, .fin neg m e =>
    if m = 0 then .inl (.inf neg) else if neg then .inl .invalid else .inr (false, rsqrtBracket m e)

/-- A special function's element: correctly rounded to nearest even in FP16 and BF16; in FP32 the exact value or the
bracketing value that the implementation's choice gives (04 R169). -/
def specialElem (op fmt : Nat) (f : Fp) (raw : Nat) : Nat × TFlags :=
  let (x, flushed) := f.decode raw
  let r := match specialFunction op x with
    | .inl v => f.encode false 0 0 v
    | .inr (neg, b) =>
      if b.exact then f.round false 0 0 neg b.m b.e
      else
        let mode := if fmt = 8 then (if Config.roundsUp op (BitVec.ofNat 32 raw) then 3 else 1) else 0
        f.round false mode 0 neg (2 * b.m + 1) (b.e - 1)
  (r.1, { r.2 with flush := r.2.flush || flushed })

end Sys2Proof.Machine
end

