-- ==== Sys2Proof/Machine/Tile.lean ====
section
/-!
DEFINITION. The elementwise instructions of the tile class (04 R164 to R178, Tables 4.5 to 4.11), with the draws of
stochastic rounding (04 R175, 05 R195 to R199).
-/

namespace Sys2Proof.Machine

/-! ### Draws -/

/-- A draw of a lane: its next state and the top 16 bits of it (05 R196). -/
def State.draw (s : State) (c : Lcn) (l : Nat) : Nat × State :=
  let x := s.lane c l * 0x5851f42d4c957f2d + 0x14057b7ef767814f
  (x.toNat / 2 ^ 48, (s.setLane c l x).addWrap F.CORE_SRDRAWS_DRAWS 1 c.toNat)

/-- An exact element on its way into a format: its lane, its value, whether an input of it was flushed. -/
structure Exact where
  lane : Nat
  val : Num
  flushed : Bool
deriving DecidableEq, Repr

/-- One element rounded; a finite value takes a draw under RM = 2 (04 R175). -/
def State.roundOne (s : State) (c : Lcn) (f : Fp) (rm : Nat) (x : Exact) : Nat × TFlags × State :=
  let sat := s.flag F.CORE_FMTCTL_FP8_SAT c.toNat
  let d := if rm = 2 ∧ x.val.isFin = true then s.draw c (x.lane % 256) else (0, s)
  let r := f.encode sat rm d.1 x.val
  (r.1, { r.2 with flush := r.2.flush || x.flushed }, d.2)

/-- Elements rounded in order. -/
def State.roundAll (s : State) (c : Lcn) (f : Fp) (rm : Nat) : List Exact → List Nat × TFlags × State
  | [] => ([], {}, s)
  | x :: l =>
    let r := s.roundOne c f rm x
    let q := r.2.2.roundAll c f rm l
    (r.1 :: q.1, r.2.1.or q.2.1, q.2.2)

/-- A resource stall of an instruction with RM = 2: an earlier tmma with RM = 2 is queued or runs, or a reseed runs
(05 R198, R199; log entry 13). -/
def State.drawHold (s : State) (c : Lcn) (rm : Nat) : Option Nat :=
  let k := s.core c
  if rm = 2 ∧ (k.reseeding = true ∨ (k.queue.any fun q => q.rm == 2) = true ∨
      (match k.array with | some q => q.rm == 2 | none => false) = true) then some 8 else none

/-! ### The shared form -/

/-- The tile-format trap for subcodes that hold, given in rising order (04 R178). -/
def formatTrap (pc : Nat) (subs : List (Nat × Bool)) : Option TrapInfo :=
  firstTrap (subs.map fun e => (e.2, { cause := 0x10, sub := e.1, pc }))

/-- The formats of 04 Table 4.5. -/
def floatFmts : List Nat := [0x6, 0x7, 0x8, 0x9]
def arithFmts : List Nat := [0x6, 0x7, 0x8, 0x9, 0x2, 0xA]
def allFmts : List Nat := [0x0, 0x1, 0x2, 0x3, 0x4, 0x5, 0x6, 0x7, 0x8, 0x9, 0xA]

/-- An elementwise instruction: its holds, its tile-format conditions, its effect. -/
def State.tileOp (s : State) (x : Issue) (regs : List RegRef) (rm : Nat) (subs : List (Nat × Bool))
    (act : Thread → State → State) (len : Nat := 4) : State :=
  s.issue x len regs (s.drawHold x.core rm) fun th s =>
    match formatTrap th.pc subs with
    | some r => .trap r
    | none => .done (act th s) (th.pc + len)

/-- The conditions of an operation that accepts a list of formats: subcode 0, and subcode 4 for RM = 2 with an integer
format (04 R165, R175). -/
def elementSubs (fmts : List Nat) (fmt rm : Nat) : List (Nat × Bool) :=
  [(0, !fmts.contains fmt), (4, rm == 2 && fmtIsInt fmt)]

/-- A tile register of the issuing thread written. -/
def State.putT (s : State) (x : Issue) (td : Fin 8) (v : Tile) : State :=
  s.setThread x.core x.thread ((s.thread x.core x.thread).writeT td v)

/-- Exact elements rounded into a format and written to a tile register, with their flags. -/
def State.writeRounded (s : State) (x : Issue) (td : Fin 8) (fmt : Nat) (f : Fp) (rm : Nat) (l : List Exact) : State :=
  let r := s.roundAll x.core f rm l
  (r.2.2.setFlags x.core (some x.thread) r.2.1).putT x td (packTile fmt r.1)

/-- Elements of two tiles side by side. -/
def elemPairs (fmt : Nat) (a b : Tile) : List (Nat × Nat × Nat) :=
  (List.range (fmtCount fmt)).map fun e => (e, tileElem fmt a e, tileElem fmt b e)

/-- A two-operand operation: `fl` on exact values in a floating-point format, `int` on bits of width w in an integer
format, where it wraps (04 R164). -/
def State.binary (s : State) (x : Issue) (td ta tb : Fin 8) (fmt : Fin 13) (rm : Fin 3) (fmts : List Nat)
    (fl : Num → Num → Num) (int : Nat → Nat → Nat → Nat) : State :=
  s.tileOp x [.t td, .t ta, .t tb] rm.val (elementSubs fmts fmt.val rm.val) fun th s =>
    let l := elemPairs fmt.val (th.readT ta) (th.readT tb)
    match fpOf fmt.val with
    | some f =>
      s.writeRounded x td fmt.val f rm.val (l.map fun e =>
        let a := f.decode e.2.1
        let b := f.decode e.2.2
        { lane := e.1, val := fl a.1 b.1, flushed := a.2 || b.2 })
    | none =>
      let w := fmtWidth fmt.val
      s.putT x td (packTile fmt.val (l.map fun e => int w e.2.1 e.2.2))

/-- A two-operand operation whose result is one of its operands or is exact, so that it takes no draw. -/
def State.binaryExact (s : State) (x : Issue) (td ta tb : Fin 8) (fmt : Fin 13) (rm : Fin 3)
    (fl : Num → Num → Num) (int : Nat → Nat → Nat → Nat) : State :=
  s.tileOp x [.t td, .t ta, .t tb] rm.val (elementSubs arithFmts fmt.val rm.val) fun th s =>
    let l := elemPairs fmt.val (th.readT ta) (th.readT tb)
    match fpOf fmt.val with
    | some f =>
      s.writeRounded x td fmt.val f 0 (l.map fun e =>
        let a := f.decode e.2.1
        let b := f.decode e.2.2
        { lane := e.1, val := fl a.1 b.1, flushed := a.2 || b.2 })
    | none =>
      let w := fmtWidth fmt.val
      s.putT x td (packTile fmt.val (l.map fun e => int w e.2.1 e.2.2))

/-- TADD. -/
def execTadd (x : Issue) (td ta tb : Fin 8) (fmt : Fin 13) (rm : Fin 3) (s : State) : Out :=
  .next (s.binary x td ta tb fmt rm arithFmts (fun a b => sumNums [a, b]) fun w a b => (a + b) % 2 ^ w)

/-- TSUB. -/
def execTsub (x : Issue) (td ta tb : Fin 8) (fmt : Fin 13) (rm : Fin 3) (s : State) : Out :=
  .next (s.binary x td ta tb fmt rm arithFmts (fun a b => sumNums [a, b.neg]) fun w a b => (a + 2 ^ w - b) % 2 ^ w)

/-- TMUL. -/
def execTmul (x : Issue) (td ta tb : Fin 8) (fmt : Fin 13) (rm : Fin 3) (s : State) : Out :=
  .next (s.binary x td ta tb fmt rm arithFmts Num.mul fun w a b => a * b % 2 ^ w)

/-- TFMA: t[TD] = t[TA] × t[TB] + t[TD] with one rounding (04 R164). -/
def execTfma (x : Issue) (td ta tb : Fin 8) (fmt : Fin 13) (rm : Fin 3) (s : State) : Out :=
  .next (s.tileOp x [.t td, .t ta, .t tb] rm.val (elementSubs floatFmts fmt.val rm.val) fun th s =>
    match fpOf fmt.val with
    | some f =>
      s.writeRounded x td fmt.val f rm.val ((elemPairs fmt.val (th.readT ta) (th.readT tb)).map fun e =>
        let a := f.decode e.2.1
        let b := f.decode e.2.2
        let d := f.decode (tileElem fmt.val (th.readT td) e.1)
        { lane := e.1, val := sumNums [a.1.mul b.1, d.1], flushed := a.2 || b.2 || d.2 })
    | none => s)

/-- The smaller of two signed values of `w` bits. -/
def minSigned (w a b : Nat) : Nat := if toSigned w b < toSigned w a then b else a

/-- The larger of two signed values of `w` bits. -/
def maxSigned (w a b : Nat) : Nat := if toSigned w a < toSigned w b then b else a

/-- TMIN (04 R167). -/
def execTmin (x : Issue) (td ta tb : Fin 8) (fmt : Fin 13) (rm : Fin 3) (s : State) : Out :=
  .next (s.binaryExact x td ta tb fmt rm Num.min minSigned)

/-- TMAX (04 R167). -/
def execTmax (x : Issue) (td ta tb : Fin 8) (fmt : Fin 13) (rm : Fin 3) (s : State) : Out :=
  .next (s.binaryExact x td ta tb fmt rm Num.max maxSigned)

/-- TSEL: d ≠ 0 ? a : b on raw bits. -/
def execTsel (x : Issue) (td ta tb : Fin 8) (fmt : Fin 13) (rm : Fin 3) (s : State) : Out :=
  .next (s.tileOp x [.t td, .t ta, .t tb] rm.val (elementSubs allFmts fmt.val rm.val) fun th s =>
    s.putT x td (packTile fmt.val ((elemPairs fmt.val (th.readT ta) (th.readT tb)).map fun e =>
      if tileElem fmt.val (th.readT td) e.1 = 0 then e.2.2 else e.2.1)))

/-! ### Compares (04 R167) -/

/-- A compare condition over two elements: 0 equal, 1 less, 2 less or equal, 3 unordered; and the input flush. -/
def condHolds (fmt cond a b : Nat) : Bool × Bool :=
  let x := decodeElem fmt a
  let y := decodeElem fmt b
  let un := x.1.isNan || y.1.isNan
  let r := match cond with
    | 0 => !un && !x.1.less y.1 && !y.1.less x.1
    | 1 => !un && x.1.less y.1
    | 2 => !un && !y.1.less x.1
    | _ => un
  (r, x.2 || y.2)

/-- The conditions of a compare over every element. -/
def condAll (fmt cond : Nat) (a b : Tile) : List (Bool × Bool) :=
  (elemPairs fmt a b).map fun e => condHolds fmt cond e.2.1 e.2.2

/-- The flags of compared elements. -/
def condFlags (l : List (Bool × Bool)) : TFlags := { flush := l.any fun e => e.2 }

/-- TCMPM: all ones where the condition holds. -/
def execTcmpm (x : Issue) (td ta tb : Fin 8) (fmt : Fin 13) (cond : Fin 4) (s : State) : Out :=
  .next (s.tileOp x [.t td, .t ta, .t tb] 0 [(0, !arithFmts.contains fmt.val)] fun th s =>
    let l := condAll fmt.val cond.val (th.readT ta) (th.readT tb)
    (s.setFlags x.core (some x.thread) (condFlags l)).putT x td
      (packTile fmt.val (l.map fun e => if e.1 then 2 ^ fmtWidth fmt.val - 1 else 0)))

/-- A predicate written from the conditions of all elements. -/
def State.comparePred (s : State) (x : Issue) (pd ta tb : Fin 8) (fmt : Fin 13) (cond : Fin 4)
    (f : List Bool → Bool) : State :=
  s.tileOp x [.t ta, .t tb] 0 [(0, !arithFmts.contains fmt.val)] fun th s =>
    let l := condAll fmt.val cond.val (th.readT ta) (th.readT tb)
    let s := s.setFlags x.core (some x.thread) (condFlags l)
    s.setThread x.core x.thread ((s.thread x.core x.thread).writeP pd (f (l.map (·.1))))

/-- TCMP_ANY. -/
def execTcmpAny (x : Issue) (pd ta tb : Fin 8) (fmt : Fin 13) (cond : Fin 4) (s : State) : Out :=
  .next (s.comparePred x pd ta tb fmt cond fun l => l.any id)

/-- TCMP_ALL. -/
def execTcmpAll (x : Issue) (pd ta tb : Fin 8) (fmt : Fin 13) (cond : Fin 4) (s : State) : Out :=
  .next (s.comparePred x pd ta tb fmt cond fun l => l.all id)

/-! ### Raw-bit operations (05 R183) -/

/-- A one-operand operation on raw bits. -/
def State.unaryRaw (s : State) (x : Issue) (td ta : Fin 8) (fmt : Fin 13) (rm : Fin 3) (f : Nat → Nat) : State :=
  s.tileOp x [.t td, .t ta] rm.val (elementSubs allFmts fmt.val rm.val) fun th s =>
    s.putT x td (packTile fmt.val ((tileElems fmt.val (th.readT ta)).map f))

/-- TABS: the sign bit cleared, or the wrapped absolute value. -/
def execTabs (x : Issue) (td ta : Fin 8) (fmt : Fin 13) (rm : Fin 3) (s : State) : Out :=
  let w := fmtWidth fmt.val
  .next (s.unaryRaw x td ta fmt rm fun v =>
    if fmtIsInt fmt.val then ofSigned w (toSigned w v).natAbs else v % 2 ^ (w - 1))

/-- TNEG: the sign bit inverted, or the wrapped negation. -/
def execTneg (x : Issue) (td ta : Fin 8) (fmt : Fin 13) (rm : Fin 3) (s : State) : Out :=
  let w := fmtWidth fmt.val
  .next (s.unaryRaw x td ta fmt rm fun v =>
    if fmtIsInt fmt.val then (2 ^ w - v) % 2 ^ w else (v + 2 ^ (w - 1)) % 2 ^ w)

/-- TMOV. -/
def execTmov (x : Issue) (td ta : Fin 8) (fmt : Fin 13) (rm : Fin 3) (s : State) : Out :=
  .next (s.unaryRaw x td ta fmt rm id)

/-! ### Row reductions (04 R168) -/

/-- Rows of a tile. -/
def tileRows (fmt : Nat) (t : Tile) : List (List Nat) :=
  let k := fmtColumns fmt
  (List.range 16).map fun i => (List.range k).map fun j => tileElem fmt t (i * k + j)

/-- Every element of a row replaced by the row's value. -/
def spreadRows (fmt : Nat) (l : List Nat) : Tile := packTile fmt (l.flatMap fun v => List.replicate (fmtColumns fmt) v)

/-- A reduction over rows: floating-point rows rounded once with the lane of the row's first element, INT32 rows by a
function on bits. -/
def State.reduce (s : State) (x : Issue) (td ta : Fin 8) (fmt : Fin 13) (rm : Fin 3) (mode : Nat)
    (fl : List Num → Num) (int : List Nat → Nat) : State :=
  s.tileOp x [.t td, .t ta] rm.val (elementSubs [0x6, 0x7, 0x8, 0x9, 0xA] fmt.val rm.val) fun th s =>
    let rows := tileRows fmt.val (th.readT ta)
    match fpOf fmt.val with
    | some f =>
      let l : List Exact := rows.zipIdx.map fun e =>
        let d := e.1.map f.decode
        { lane := e.2 * fmtColumns fmt.val, val := fl (d.map (·.1)), flushed := d.any (·.2) }
      let r := s.roundAll x.core f mode l
      (r.2.2.setFlags x.core (some x.thread) r.2.1).putT x td (spreadRows fmt.val r.1)
    | none => s.putT x td (spreadRows fmt.val (rows.map int))

/-- TRED_SUM. -/
def execTredSum (x : Issue) (td ta : Fin 8) (fmt : Fin 13) (rm : Fin 3) (s : State) : Out :=
  .next (s.reduce x td ta fmt rm rm.val sumNums fun l => l.sum % 2 ^ 32)

/-- The maximum of a row (04 R167, R168). -/
def maxNums : List Num → Num
  | [] => .nan
  | a :: l => l.foldl Num.max a

/-- TRED_MAX. -/
def execTredMax (x : Issue) (td ta : Fin 8) (fmt : Fin 13) (rm : Fin 3) (s : State) : Out :=
  .next (s.reduce x td ta fmt rm 0 maxNums fun l => l.foldl (maxSigned 32) (l.headD 0))

/-! ### Special functions (04 R169) -/

/-- texp2, trcp and trsqrt. -/
def State.special (s : State) (x : Issue) (td ta : Fin 8) (fmt : Fin 13) (rm : Fin 3) (op : Nat) : State :=
  s.tileOp x [.t td, .t ta] rm.val [(0, !([0x6, 0x7, 0x8] : List Nat).contains fmt.val), (4, rm.val != 0)] fun th s =>
    match fpOf fmt.val with
    | some f =>
      let l := (tileElems fmt.val (th.readT ta)).map (specialElem op fmt.val f)
      (s.setFlags x.core (some x.thread) (l.foldl (fun a e => a.or e.2) {})).putT x td
        (packTile fmt.val (l.map (·.1)))
    | none => s

/-- TEXP2. -/
def execTexp2 (x : Issue) (td ta : Fin 8) (fmt : Fin 13) (rm : Fin 3) (s : State) : Out :=
  .next (s.special x td ta fmt rm 0)

/-- TRCP. -/
def execTrcp (x : Issue) (td ta : Fin 8) (fmt : Fin 13) (rm : Fin 3) (s : State) : Out :=
  .next (s.special x td ta fmt rm 1)

/-- TRSQRT. -/
def execTrsqrt (x : Issue) (td ta : Fin 8) (fmt : Fin 13) (rm : Fin 3) (s : State) : Out :=
  .next (s.special x td ta fmt rm 2)

/-! ### Transpose (04 R171) -/

/-- Registers of a transpose group and the side of its square (04 Table 4.7). -/
def transposeGroup (fmt : Nat) : Nat × Nat :=
  match fmt with
  | 0x5 => (2, 32)
  | 0x6 | 0x7 => (2, 16)
  | 0x8 | 0xA => (4, 16)
  | _ => (1, 16)

/-- Where element (i, j) of the square stands: register of the group and element index (04 Table 4.7). -/
def transposePlace (fmt i j : Nat) : Nat × Nat :=
  match fmt with
  | 0x5 => (i / 16, i % 16 * 32 + j)
  | 0x6 | 0x7 => (j / 8, i * 8 + j % 8)
  | 0x8 | 0xA => (j / 4, i * 4 + j % 4)
  | _ => (0, i * 16 + j)

/-- The element of the square that stands at element `e` of register `g`. -/
def transposeIndex (fmt g e : Nat) : Nat × Nat :=
  match fmt with
  | 0x5 => (g * 16 + e / 32, e % 32)
  | 0x6 | 0x7 => (e / 8, g * 8 + e % 8)
  | 0x8 | 0xA => (e / 4, g * 4 + e % 4)
  | _ => (e / 16, e % 16)

/-- The registers of a group from a first one. -/
def groupRegs (t : Fin 8) (g : Nat) : List RegRef := (List.range g).map fun i => .t (Fin.ofNat 8 (t.val + i))

/-- TTR. -/
def execTtr (x : Issue) (td ta : Fin 8) (fmt : Fin 13) (rm : Fin 3) (s : State) : Out :=
  let g := (transposeGroup fmt.val).1
  let subs := [(0, !([0x0, 0x1, 0x2, 0x3, 0x4, 0x5, 0x6, 0x7, 0x8, 0xA] : List Nat).contains fmt.val),
    (1, decide (ta.val % g ≠ 0) || decide (td.val % g ≠ 0)), (4, rm.val == 2 && fmtIsInt fmt.val)]
  .next (s.tileOp x (groupRegs ta g ++ groupRegs td g) rm.val subs fun th s =>
    (List.range g).foldl (fun s k =>
      s.putT x (Fin.ofNat 8 (td.val + k)) (packTile fmt.val ((List.range (fmtCount fmt.val)).map fun e =>
        let (i, j) := transposeIndex fmt.val k e
        let p := transposePlace fmt.val j i
        tileElem fmt.val (th.readT (Fin.ofNat 8 (ta.val + p.1))) p.2))) s)

/-! ### The error-compensating pair (04 R172) -/

/-- The high and low parts of an exact sum or product (04 Table 4.8). -/
def pairParts (f : Fp) (exact : Num) (flushed inputNan inputInf : Bool) : Nat × Nat × TFlags :=
  let hi := f.encode false 0 0 exact
  match (f.decode hi.1).1 with
  | .nan => (hi.1, hi.1, { nv := !inputNan, flush := flushed })
  | .inf _ => (hi.1, 0, { ovf := !inputInf, flush := flushed })
  | h =>
    match sumNums [exact, h.neg] with
    | .fin neg m e =>
      if m = 0 then (hi.1, 0, { hi.2 with flush := hi.2.flush || flushed })
      else
        let lo := f.round false 0 0 neg m e
        (hi.1, lo.1, { hi.2 with flush := hi.2.flush || flushed, lowinex := lo.2.flush })
    | _ => (hi.1, 0, hi.2)

/-- Shared form of ttwosum and ttwoprod. -/
def State.pair (s : State) (x : Issue) (td ta tb : Fin 8) (fmt : Fin 13) (rm : Fin 3) (op : Num → Num → Num) : State :=
  let td1 : Fin 8 := Fin.ofNat 8 (td.val + 1)
  let subs := [(0, !([0x8, 0x9] : List Nat).contains fmt.val), (1, td.val % 2 == 1), (4, rm.val != 0)]
  s.tileOp x [.t td, .t td1, .t ta, .t tb] rm.val subs fun th s =>
    match fpOf fmt.val with
    | some f =>
      let l := (elemPairs fmt.val (th.readT ta) (th.readT tb)).map fun e =>
        let a := f.decode e.2.1
        let b := f.decode e.2.2
        pairParts f (op a.1 b.1) (a.2 || b.2) (a.1.isNan || b.1.isNan)
          (a.1.isInf true || a.1.isInf false || b.1.isInf true || b.1.isInf false)
      let s := s.setFlags x.core (some x.thread) (l.foldl (fun a e => a.or e.2.2) {})
      (s.putT x td (packTile fmt.val (l.map (·.1)))).putT x td1 (packTile fmt.val (l.map (·.2.1)))
    | none => s

/-- TTWOSUM. -/
def execTtwosum (x : Issue) (td ta tb : Fin 8) (fmt : Fin 13) (rm : Fin 3) (s : State) : Out :=
  .next (s.pair x td ta tb fmt rm fun a b => sumNums [a, b])

/-- TTWOPROD. -/
def execTtwoprod (x : Issue) (td ta tb : Fin 8) (fmt : Fin 13) (rm : Fin 3) (s : State) : Out :=
  .next (s.pair x td ta tb fmt rm Num.mul)

/-! ### Conversion (04 R170) -/

/-- Elements converted from one format into another, with their flags (05 R203 to R205). -/
def State.convert (s : State) (c : Lcn) (fmts fmtd rm : Nat) (l : List (Nat × Nat)) : List Nat × TFlags × State :=
  let src := l.map fun e => (e.1, decodeElem fmts e.2)
  match fpOf fmtd with
  | some f => s.roundAll c f rm (src.map fun e => { lane := e.1, val := e.2.1, flushed := e.2.2 })
  | none =>
    let r := src.map fun e => (toInteger (fmtWidth fmtd) rm e.2.1, e.2.2)
    (r.map fun e => e.1.1, r.foldl (fun a e => a.or { e.1.2 with flush := e.2 }) {}, s)

/-- TCVT. -/
def execTcvt (x : Issue) (td ta : Fin 8) (fmts fmtd : Fin 13) (rm : Fin 3) (part : Fin 8) (s : State) : Out :=
  let ns := fmtCount fmts.val
  let nd := fmtCount fmtd.val
  let ratio := max ns nd / min ns nd
  let subs := [(0, !allFmts.contains fmts.val || !allFmts.contains fmtd.val),
    (4, rm.val == 2 && fmtIsInt fmtd.val), (5, decide (ratio ≤ part.val)), (6, decide (8 < ratio))]
  .next (s.tileOp x [.t td, .t ta] rm.val subs (fun th s =>
    let a := th.readT ta
    if nd ≤ ns then
      let r := s.convert x.core fmts.val fmtd.val rm.val
        ((List.range nd).map fun e => (e, tileElem fmts.val a (part.val * nd + e)))
      (r.2.2.setFlags x.core (some x.thread) r.2.1).putT x td (packTile fmtd.val r.1)
    else
      let r := s.convert x.core fmts.val fmtd.val rm.val
        ((List.range ns).map fun e => (part.val * ns + e, tileElem fmts.val a e))
      let old := tileElems fmtd.val (th.readT td)
      (r.2.2.setFlags x.core (some x.thread) r.2.1).putT x td
        (packTile fmtd.val (old.take (part.val * ns) ++ r.1 ++ old.drop (part.val * ns + ns)))) 8)

/-! ### Scalars and elements (04 R165) -/

/-- TINS: element s[RS2] of t[TD] takes the low bits of s[RS1]. -/
def execTins (x : Issue) (td : Fin 8) (rs1 rs2 : Fin 32) (fmt : Fin 13) (s : State) : Out :=
  .next (s.tileOp x [.t td, .s rs1, .s rs2] 0 [(0, !allFmts.contains fmt.val)] fun th s =>
    let i := (th.readS rs2).toNat % fmtCount fmt.val
    s.putT x td (packTile fmt.val ((tileElems fmt.val (th.readT td)).set i ((th.readS rs1).toNat))))

/-- TEXT: s[RD] takes an element, sign-extended for the integer formats. -/
def execText (x : Issue) (td : Fin 8) (rd rs2 : Fin 32) (fmt : Fin 13) (s : State) : Out :=
  .next (s.tileOp x [.t td, .s rd, .s rs2] 0 [(0, !allFmts.contains fmt.val)] fun th s =>
    let v := tileElem fmt.val (th.readT td) ((th.readS rs2).toNat % fmtCount fmt.val)
    let r := if fmtIsInt fmt.val then ofSigned 64 (toSigned (fmtWidth fmt.val) v) else v
    s.setThread x.core x.thread ((s.thread x.core x.thread).writeS rd (BitVec.ofNat 64 r)))

/-- TSPLAT: every element takes the low bits of s[RS1]. -/
def execTsplat (x : Issue) (td : Fin 8) (rs1 : Fin 32) (fmt : Fin 13) (s : State) : Out :=
  .next (s.tileOp x [.t td, .s rs1] 0 [(0, !allFmts.contains fmt.val)] fun th s =>
    s.putT x td (packTile fmt.val (List.replicate (fmtCount fmt.val) (th.readS rs1).toNat)))

end Sys2Proof.Machine
end

