-- ==== Sys2Proof/Machine/Tensor.lean ====
section
/-!
DEFINITION. The tensor class and the tensor array: tmma dense and sparse, cread, cwrite, czero, the walker
(04 R146 to R163, R175; 06 R208 to R231, R692; 15 R535).
-/

namespace Sys2Proof.Machine

/-! ### Accumulators (04 R146, R147) -/

/-- The accumulators an instruction names: CD, or the pair of an even CD in FP64. -/
def namedAccs (cd fmt : Nat) : List Nat :=
  if fmt = 9 ∧ cd % 2 = 0 then [cd, cd + 1] else [cd]

/-- The accumulator or pair as one number. -/
def State.readAccs (s : State) (c : Lcn) (cd fmt : Nat) : Nat :=
  if fmt = 9 then (s.acc c (cd / 2 * 2)).toNat + 2 ^ 8192 * (s.acc c (cd / 2 * 2 + 1)).toNat else (s.acc c cd).toNat

/-- The accumulator or pair written. -/
def State.writeAccs (s : State) (c : Lcn) (cd fmt v : Nat) : State :=
  if fmt = 9 then
    (s.setAcc c (cd / 2 * 2) (BitVec.ofNat 8192 v)).setAcc c (cd / 2 * 2 + 1) (BitVec.ofNat 8192 (v / 2 ^ 8192))
  else s.setAcc c cd (BitVec.ofNat 8192 v)

/-- Bits of an accumulator element. -/
def accWidth (fmt : Nat) : Nat := if fmt = 9 then 64 else 32

/-- The owner trap of 02 R85: the lowest named accumulator that the thread does not own. -/
def State.ownerTrap (s : State) (c : Lcn) (t : Fin 4) (pc cd fmt : Nat) : Bool × TrapInfo :=
  match (namedAccs cd fmt).find? fun k => decide (s.owner c k ≠ t) with
  | some k => (true, { cause := 8, sub := 0, pc, info := k })
  | none => (false, { cause := 8, sub := 0, pc })

/-- A named accumulator is busy (04 R159). -/
def State.accBusy (s : State) (c : Lcn) (cd fmt : Nat) : Bool :=
  (namedAccs cd fmt).any fun k => (s.core c).accInUse k

/-! ### Stripe headers (06 Tables 6.1 and 6.4) -/

/-- A stripe header. -/
structure Stripe where
  form : Nat
  s24 : Bool
  span : Nat
  count : Nat
  base : Nat
  xbase : Nat
  reservedZero : Bool
deriving DecidableEq, Repr

/-- The header in slot `h` of a tile register. -/
def stripeOf (t : Tile) (h : Nat) : Stripe :=
  let v := t.toNat / 2 ^ (128 * h) % 2 ^ 128
  { form := bits v 1 0, s24 := v.testBit 2, span := bits v 15 8, count := bits v 23 16, base := bits v 31 24,
    xbase := bits v 39 32, reservedZero := decide (bits v 7 3 = 0 ∧ bits v 127 40 = 0) }

/-- Data tiles of a stripe. -/
def Stripe.tiles (h : Stripe) : Nat := if h.form = 0 then h.span else h.count

/-- A region of a stripe runs past tile 255 (06 R217). -/
def Stripe.runsPast (h : Stripe) (mx : Bool) : Bool :=
  decide (255 < (if h.form = 0 then h.base + h.span - 1 else h.base + h.count)) ||
    (mx && decide (0 < h.tiles) && decide (255 < h.xbase + (h.tiles - 1) / 16))

/-- A header that R217 refuses by itself. -/
def Stripe.malformed (h : Stripe) (mx : Bool) : Bool :=
  decide (2 ≤ h.form) || !h.reservedZero || decide (h.span = 0) || decide (128 < h.span) ||
    (if h.form = 0 then decide (h.count ≠ 0) else decide (h.span < h.count)) ||
    (!mx && decide (h.xbase ≠ 0)) || h.runsPast mx

/-- The formats that the 2:4 form permits (06 R212). -/
def s24Permitted (fmt : Nat) : Bool := decide (fmt ≤ 7) || fmt == 0xB || fmt == 0xC

/-- The sparse descriptor of an immediate word is malformed (06 R217). -/
def sparseMalformed (desc : Nat) (a b : Tile) (fmt : Nat) (mx : Bool) (ts : Nat) : Bool :=
  if desc % 2 = 0 then decide (desc ≠ 0)
  else
    let ha := stripeOf a (bits desc 4 1)
    let hb := stripeOf b (bits desc 8 5)
    decide (512 ≤ desc) || ha.malformed mx || hb.malformed mx || decide (ha.span ≠ hb.span) ||
      (ha.s24 && hb.s24) || ((ha.s24 || hb.s24) && !s24Permitted fmt) || (mx && decide (ts ≠ 0))

/-! ### TMMA at issue -/

/-- MX is permitted for a format code (04 Table 4.1). -/
def mxPermitted (fmt : Nat) : Bool := decide (fmt ≤ 5) || fmt == 0xB || fmt == 0xC

/-- The tile-format conditions of a tmma (04 R154, R178; INT32 has no product, Table 4.3). -/
def tmmaSubs (cd fmt rm : Nat) (mx : Bool) (bad : Bool) : List (Nat × Bool) :=
  [(0, fmt == 0xA), (2, fmt == 9 && cd % 2 == 1), (3, mx && !mxPermitted fmt),
   (4, fmt == 2 && !mx && rm != 0), (7, bad)]

/-- The long form of a tmma: MX, TS and the sparse descriptor. -/
def tmmaLong : Option (Bool × Fin 8 × BitVec 16) → Bool × Fin 8 × Nat
  | none => (false, 0, 0)
  | some (mx, ts, d) => (mx, ts, d.toNat)

/-- TMMA: operands copied into the tensor queue, or a stall with reason 5 while it is full (04 R149, R156; 02 R56). -/
def execTmma (x : Issue) (cd : Fin 4) (ta tb : Fin 8) (fmt : Fin 13) (rm : Fin 3) (z ng : Bool)
    (long : Option (Bool × Fin 8 × BitVec 16)) (s : State) : Out :=
  let (mx, ts, desc) := tmmaLong long
  let len := if long.isSome then 8 else 4
  let k := s.core x.core
  let stall := if rm.val = 2 ∧ k.reseeding = true then some 8 else if 2 ≤ k.queue.length then some 5 else none
  .next (s.issue x len ([.t ta, .t tb] ++ if mx && desc == 0 then [.t ts] else []) stall fun th s =>
    let a := th.readT ta
    let b := th.readT tb
    let own := s.ownerTrap x.core x.thread th.pc cd.val fmt.val
    let subs := tmmaSubs cd.val fmt.val rm.val mx (sparseMalformed desc a b fmt.val mx ts.val)
    match firstTrap (own :: subs.map fun e => (e.2, { cause := 0x10, sub := e.1, pc := th.pc })) with
    | some r => .trap r
    | none =>
      let q : Product :=
        { thread := x.thread, pc := th.pc, cd, a, b, scales := th.readT ts, fmt := fmt.val, rm := rm.val, z, ng, mx,
          sparse := desc }
      let k := s.core x.core
      .done (s.setCore x.core { k with queue := k.queue ++ [q] }) (th.pc + len))

/-! ### The matrix product (04 R149 to R155; 06 R219) -/

/-- Formats of the A and B operands of a code (04 R144). -/
def operandFmts (fmt : Nat) : Nat × Nat :=
  match fmt with
  | 0xB => (0, 1)
  | 0xC => (1, 0)
  | f => (f, f)

/-- An E8M0 scale (05 R187). -/
def scaleValue (b : Nat) : Num := if b = 0xFF then .nan else .fin false 1 ((b : Int) - 127)

/-- An operand element: its value with the scale of its row, and its input flush; an MXINT8 element is its bits times
2^−6 (04 R153, R154). -/
def operandValue (fmt : Nat) (mx : Bool) (scale : Num) (raw : Nat) : Num × Bool :=
  let d := decodeElem fmt raw
  if mx then
    match d.1, fmt with
    | .fin n m e, 2 => (scale.mul (.fin n m (e - 6)), d.2)
    | v, _ => (scale.mul v, d.2)
  else d

/-- Row `i` of a dense operand tile, by K position. -/
def denseRow (fmt : Nat) (t : Tile) (mx : Bool) (scale : Num) (i : Nat) : List (Nat × Num × Bool) :=
  let k := fmtColumns fmt
  (List.range k).map fun p => (p, operandValue fmt mx scale (tileElem fmt t (i * k + p)))

/-- The code of kept element `m` of a 2:4 tile (06 R212). -/
def keptCode (t : Tile) (m : Nat) : Nat := t.toNat / 2 ^ (1024 + 2 * m) % 4

/-- A second element whose code is not greater than its group's first is dropped (06 R214). -/
def keptDropped (t : Tile) (k i q : Nat) : Bool :=
  q % 2 == 1 && decide (keptCode t (i * (k / 2) + q) ≤ keptCode t (i * (k / 2) + q - 1))

/-- Row `i` of a 2:4 operand tile: kept elements by the logical position they stand at, and how many were dropped. -/
def s24Row (fmt : Nat) (t : Tile) (mx : Bool) (scale : Num) (i : Nat) : List (Nat × Num × Bool) × Nat :=
  let k := fmtColumns fmt
  let kept := (List.range (k / 2)).filter fun q => !keptDropped t k i q
  (kept.map fun q =>
    let m := i * (k / 2) + q
    (4 * (q / 2) + keptCode t m, operandValue fmt mx scale (tileElem fmt t m)), k / 2 - kept.length)

/-- The rows of an operand tile, with the number of dropped elements. -/
def operandRows (fmt : Nat) (t : Tile) (s24 mx : Bool) (scales : Tile) (base : Nat) :
    List (List (Nat × Num × Bool)) × Nat :=
  let rows := (List.range 16).map fun i =>
    let sc := scaleValue (scales.toNat / 2 ^ (8 * (base + i)) % 256)
    if s24 then s24Row fmt t mx sc i else (denseRow fmt t mx sc i, 0)
  (rows.map (·.1), (rows.map (·.2)).sum)

/-- The products of an element: every position, or the positions a 2:4 operand keeps (06 R215, R219). -/
def elementProducts (a b : List (Nat × Num × Bool)) (aS24 bS24 ng : Bool) : List Num :=
  let at_ (l : List (Nat × Num × Bool)) (p : Nat) : Num := ((l[p]?).map (·.2.1)).getD (.fin false 0 0)
  let l := if aS24 then a.map fun e => e.2.1.mul (at_ b e.1)
    else if bS24 then b.map fun e => (at_ a e.1).mul e.2.1
    else (List.zip a b).map fun e => e.1.2.1.mul e.2.2.1
  if ng then l.map Num.neg else l

/-- What one pass works on. -/
structure Pass where
  fmt : Nat
  rm : Nat
  z : Bool
  ng : Bool
  mx : Bool
  a : Tile
  b : Tile
  scales : Tile
  aS24 : Bool
  bS24 : Bool

/-- One pass of INT8 without MX: exact sums modulo 2^32 (04 R154). -/
def integerPass (p : Pass) (old : Nat) : Nat × TFlags :=
  let rows (s24 : Bool) (t : Tile) := (operandRows 2 t s24 false 0 0).1
  let ra := rows p.aS24 p.a
  let rb := rows p.bS24 p.b
  let cells := (List.range 256).map fun e =>
    let l := elementProducts ((ra[e / 16]?).getD []) ((rb[e % 16]?).getD []) p.aS24 p.bS24 p.ng
    let acc : Int := if p.z then 0 else toSigned 32 (old / 2 ^ (32 * e) % 2 ^ 32)
    (l.map (Num.scaled 0)).sum + acc
  (packBits 32 (cells.map (ofSigned 32)),
    { intwrap := cells.any fun v => decide (v < -2 ^ 31) || decide (2 ^ 31 ≤ v) })

/-- One pass over the accumulator: every element's exact sum rounded once (04 R150, Table 4.2). -/
def State.pass (s : State) (c : Lcn) (p : Pass) (old : Nat) : Nat × TFlags × State :=
  if p.fmt = 2 ∧ p.mx = false then
    let r := integerPass p old
    (r.1, r.2, s)
  else
    let (fa, fb) := operandFmts p.fmt
    let ra := (operandRows fa p.a p.aS24 p.mx p.scales 0).1
    let rb := (operandRows fb p.b p.bS24 p.mx p.scales 16).1
    let accFmt := if p.fmt = 9 then 9 else 8
    let f : Fp := if p.fmt = 9 then ⟨11, 52, 1023, .ieee, true⟩ else ⟨8, 23, 127, .ieee, true⟩
    let w := accWidth p.fmt
    let flushed := (ra.any fun r => r.any fun e => e.2.2) || (rb.any fun r => r.any fun e => e.2.2)
    let cells : List Exact := (List.range 256).map fun e =>
      let l := elementProducts ((ra[e / 16]?).getD []) ((rb[e % 16]?).getD []) p.aS24 p.bS24 p.ng
      let acc := decodeElem accFmt (old / 2 ^ (w * e) % 2 ^ w)
      { lane := e, val := sumNums (if p.z then l else acc.1 :: l), flushed := flushed || (!p.z && acc.2) }
    let r := s.roundAll c f p.rm cells
    (packBits w r.1, r.2.1, r.2.2)

/-- Elements dropped in a pass (06 R214). -/
def Pass.drops (p : Pass) : Nat :=
  let (fa, fb) := operandFmts p.fmt
  (operandRows fa p.a p.aS24 p.mx p.scales 0).2 + (operandRows fb p.b p.bS24 p.mx p.scales 16).2

/-- Occupancy of a format (04 Table 4.3). -/
def fmtOccupancy (fmt : Nat) : Nat := if fmt = 9 then 256 else if fmt = 8 then 128 else 64

/-! ### The array (04 R157, R158; 06 R227, R228) -/

/-- The walk of a product has found its pairs and read what its start needs (06 R227). -/
def Product.ready (q : Product) : Bool :=
  if q.sparse = 0 then true
  else match q.walk with
    | none => false
    | some w => w.bad.isSome || w.pairs.isEmpty || !w.reads.isEmpty

/-- TENSOR_ARRAY_START: the idle array takes the head entry of the queue. -/
def execTensorArrayStart (c : Lcn) (s : State) : Out :=
  let k := s.core c
  match k.array, k.queue with
  | none, q :: rest => .next (if q.ready then (s.setCore c { k with array := some q, queue := rest }).settle c else s)
  | _, _ => .next s

/-- Passes run in order over an accumulator. -/
def State.runPasses (s : State) (c : Lcn) (q : Product) (sa sb : Bool) :
    List (Tile × Tile × Tile) → Bool → Nat → Nat × TFlags × Nat × State
  | [], _, old => (old, {}, 0, s)
  | r :: l, first, old =>
    let p : Pass := { fmt := q.fmt, rm := q.rm, z := q.z && first, ng := q.ng, mx := q.mx, a := r.1, b := r.2.1,
                      scales := r.2.2, aS24 := sa, bS24 := sb }
    let v := s.pass c p old
    let n := v.2.2.runPasses c q sa sb l false v.1
    (n.1, v.2.1.or n.2.1, p.drops + n.2.2.1, n.2.2.2)

/-- The tiles that the result of a sparse product depends on: index tiles, and the data and scale tiles of the passes that
are applied (06 R224, 15 R535). -/
def Product.usedTiles (q : Product) : List Nat :=
  let ha := stripeOf q.a (bits q.sparse 4 1)
  let hb := stripeOf q.b (bits q.sparse 8 5)
  let index (h : Stripe) : List Nat := if h.form = 1 then [h.base] else []
  let data := match q.walk with
    | some w => (w.pairs.take w.reads.length).flatMap fun e =>
        [e.1, e.2.1] ++ if q.mx then [ha.xbase + e.2.2.1 / 16, hb.xbase + e.2.2.2 / 16] else []
    | none => []
  index ha ++ index hb ++ data

/-- A product ends: the array is free, owners written meanwhile take effect (02 R86), and threads that waited for the end
go on. -/
def State.endProduct (s : State) (c : Lcn) : State :=
  ((s.setCore c { s.core c with array := none }).settleOwners c).settle c

/-- A dense product completes. -/
def State.completeDense (s : State) (c : Lcn) (q : Product) : State :=
  let p : Pass := { fmt := q.fmt, rm := q.rm, z := q.z, ng := q.ng, mx := q.mx, a := q.a, b := q.b, scales := q.scales,
                    aS24 := false, bS24 := false }
  let r := s.pass c p (s.readAccs c q.cd.val q.fmt)
  let s := (r.2.2.writeAccs c q.cd.val q.fmt r.1).setFlags c (some q.thread) r.2.1
  (s.addSat F.CORE_TBUSY_BUSY F.CORE_TBUSY_SAT (fmtOccupancy q.fmt) c.toNat).endProduct c

/-- The result of a sparse product: undefined, so free, where a tile it reads was written meanwhile (06 R224). -/
def State.sparseResult (s : State) (q : Product) (v : Nat) : Nat × State :=
  if q.usedTiles.any fun t => q.touched.contains t then
    let a := s.free 8192
    let b := a.2.free 8192
    (a.1.toNat + 2 ^ 8192 * b.1.toNat, b.2)
  else (v, s)

/-- A sparse product completes with the passes its walk has read (06 R219 to R223, R228, R229; 15 R535). -/
def State.completeSparse (s : State) (c : Lcn) (q : Product) (w : Walk) : State :=
  let u := c.toNat
  let ha := stripeOf q.a (bits q.sparse 4 1)
  let hb := stripeOf q.b (bits q.sparse 8 5)
  let old := s.readAccs c q.cd.val q.fmt
  let r := s.runPasses c q ha.s24 hb.s24 w.reads true old
  let v := if w.bad.isNone && w.pairs.isEmpty && q.z then 0 else r.1
  let (v, s) := r.2.2.2.sparseResult q v
  let s := (s.writeAccs c q.cd.val q.fmt v).setFlags c (some q.thread) r.2.1
  let s := if r.2.2.1 = 0 then s
    else (s.addSat F.SPX_DROP_CODE F.SPX_DROP_SAT r.2.2.1 u).putBit F.SPX_DROP_SRC q.thread.val true u
  let s := s.addSat F.SPX_PASSES_PASSES F.SPX_PASSES_SAT (w.reads.length - w.counted) u
  let o := fmtOccupancy q.fmt
  let run := w.reads.length * (if ha.s24 || hb.s24 then o / 2 else o)
  match w.bad with
  | some tile =>
    let s := (s.addSat F.CORE_TBUSY_BUSY F.CORE_TBUSY_SAT run u).endProduct c
    s.trapResponse c q.thread
      { cause := 6, sub := 0, pc := q.pc, info := tile, addr := (s.seenLcn c).toNat * 65536 + tile * 256 }
  | none =>
    let busy := max run (o * ((ha.span + 7) / 8))
    ((s.addSat F.SPX_POS_POS F.SPX_POS_SAT ha.span u).addSat F.CORE_TBUSY_BUSY F.CORE_TBUSY_SAT busy u).endProduct c

/-- TENSOR_ARRAY_COMPLETE. A sparse product completes when its walk has read every pair's tiles or has met a bad one. -/
def execTensorArrayComplete (c : Lcn) (s : State) : Out :=
  match (s.core c).array with
  | none => .next s
  | some q =>
    if q.sparse = 0 then .next (s.completeDense c q)
    else match q.walk with
      | none => .next s
      | some w => .next (if w.bad.isSome || w.reads.length == w.pairs.length then s.completeSparse c q w else s)

/-! ### The walker (06 R218, R227, R230, R692) -/

/-- The entries of an index tile's list that the walker accepts, as (position, entry number), and how many it drops. -/
def acceptEntries (t : Tile) (h : Stripe) : List (Nat × Nat) × Nat :=
  let r := (List.range h.count).foldl (fun (b : List (Nat × Nat) × Nat × Nat) n =>
    let p := t.toNat / 2 ^ (8 * (16 + n)) % 256
    if h.span ≤ p ∨ p < b.2.2 then (b.1, b.2.1 + 1, b.2.2) else (b.1 ++ [(p, n)], b.2.1, p + 1)) ([], 0, 0)
  (r.1, r.2.1)

/-- Positions of a stripe with their data tile numbers. -/
def Stripe.entries (h : Stripe) (index : Tile) : List (Nat × Nat) × Nat :=
  if h.form = 0 then ((List.range h.span).map fun k => (k, k), 0) else acceptEntries index h

/-- The data tile of entry `d`. -/
def Stripe.dataTile (h : Stripe) (d : Nat) : Nat := if h.form = 0 then h.base + d else h.base + 1 + d

/-- The pairs of two stripes in ascending position order (06 Table 6.5). -/
def pairStripes (ha hb : Stripe) (a b : List (Nat × Nat)) : List (Nat × Nat × Nat × Nat) :=
  a.filterMap fun e => (b.find? fun g => g.1 == e.1).map fun g =>
    (ha.dataTile e.2, hb.dataTile g.2, e.2, g.2)

/-- The head of the tensor queue replaced. -/
def State.setHead (s : State) (c : Lcn) (q : Product) : State :=
  let k := s.core c
  s.setCore c { k with queue := q :: k.queue.drop 1 }

/-- A list's drops counted (06 R230). -/
def State.countDrops (s : State) (c : Lcn) (t : Fin 4) (n : Nat) : State :=
  if n = 0 then s
  else (s.addSat F.SPX_DROP_IDX F.SPX_DROP_SAT n c.toNat).putBit F.SPX_DROP_SRC t.val true c.toNat

/-- An index tile read for a sparse form stripe; none where its check fails. -/
def State.readIndex (s : State) (c : Lcn) (h : Stripe) : Option Tile :=
  if h.form = 0 then some 0 else if s.tileGood c h.base then some (s.readTile c h.base) else none

/-- The walker has read through a bank port: other ports may have lost to it or it to them (02 R61). -/
def State.noteBanks (s : State) (c : Lcn) : State :=
  (s.tick F.CORE_BANKCONF_LOST c.toNat).tick F.CORE_BANKCONF_SAT c.toNat

/-- The lead-in of a sparse product. -/
def State.leadIn (s : State) (c : Lcn) (q : Product) : State :=
  let ha := stripeOf q.a (bits q.sparse 4 1)
  let hb := stripeOf q.b (bits q.sparse 8 5)
  let s := s.noteBanks c
  match s.readIndex c ha with
  | none => (s.setHead c { q with walk := some { pairs := [], bad := some ha.base } }).tileFailed c ha.base 3
  | some ta =>
    let a := ha.entries ta
    let s := s.countDrops c q.thread a.2
    match s.readIndex c hb with
    | none => (s.setHead c { q with walk := some { pairs := [], bad := some hb.base } }).tileFailed c hb.base 3
    | some tb =>
      let b := hb.entries tb
      let s := s.countDrops c q.thread b.2
      s.setHead c { q with walk := some { pairs := pairStripes ha hb a.1 b.1 } }

/-- WALKER_LEAD_IN: for the head of the tensor queue, once. -/
def execWalkerLeadIn (c : Lcn) (s : State) : Out :=
  match (s.core c).queue with
  | q :: _ => .next (if q.sparse ≠ 0 ∧ q.walk.isNone = true then s.leadIn c q else s)
  | [] => .next s

/-- The tiles a pass reads in order, each with whether it is read: scale tiles only where they differ from those of the
pass before (06 R692). -/
def Product.passTiles (q : Product) (w : Walk) (n : Nat) : List Nat :=
  let ha := stripeOf q.a (bits q.sparse 4 1)
  let hb := stripeOf q.b (bits q.sparse 8 5)
  match w.pairs[n]? with
  | none => []
  | some e =>
    let xa := ha.xbase + e.2.2.1 / 16
    let xb := hb.xbase + e.2.2.2 / 16
    let before := if n = 0 then none else w.pairs[n - 1]?
    let fresh (x : Nat) (old : Option Nat) : List Nat := if old = some x then [] else [x]
    [e.1, e.2.1] ++ if q.mx then
        fresh xa (before.map fun p => ha.xbase + p.2.2.1 / 16) ++ fresh xb (before.map fun p => hb.xbase + p.2.2.2 / 16)
      else []

/-- The scales of a pass in the layout of a TS register (06 R222). -/
def State.passScales (s : State) (c : Lcn) (q : Product) (e : Nat × Nat × Nat × Nat) : Tile :=
  let ha := stripeOf q.a (bits q.sparse 4 1)
  let hb := stripeOf q.b (bits q.sparse 8 5)
  let slot (h : Stripe) (d : Nat) : Nat :=
    (s.readTile c (h.xbase + d / 16)).toNat / 2 ^ (128 * (d % 16)) % 2 ^ 128
  if q.mx then BitVec.ofNat 2048 (slot ha e.2.2.1 + 2 ^ 128 * slot hb e.2.2.2) else 0

/-- The next pass of a walk read: its data and scales, or the bad tile that stops the product. -/
def State.readPass (s : State) (c : Lcn) (q : Product) (w : Walk) : Walk × State :=
  match w.pairs[w.reads.length]? with
  | none => (w, s)
  | some e =>
    match (q.passTiles w w.reads.length).find? fun t => !s.tileGood c t with
    | some t => ({ w with bad := some t }, s.tileFailed c t 3)
    | none => ({ w with reads := w.reads ++ [(s.readTile c e.1, s.readTile c e.2.1, s.passScales c q e)] }, s)

/-- The passes that the array has completed when the walker reads pass `n` of the running product: the reads of a pass begin
with the pass before it, and the passes run back to back (06 R228, R229, R692). -/
def State.countPasses (s : State) (c : Lcn) (w : Walk) : Walk × State :=
  let done := w.reads.length - 1
  if done ≤ w.counted then (w, s)
  else ({ w with counted := done }, s.addSat F.SPX_PASSES_PASSES F.SPX_PASSES_SAT (done - w.counted) c.toNat)

/-- WALKER_PASS_READ: the next pass of the running product, or the first pass of the head of the queue. -/
def execWalkerPassRead (c : Lcn) (head : Bool) (s : State) : Out :=
  let k := s.core c
  match if head then k.queue.head? else k.array with
  | none => .next s
  | some q =>
    match q.walk with
    | none => .next s
    | some w =>
      if w.bad.isSome || (head && !w.reads.isEmpty) then .next s
      else
        let (w, s) := if head then (w, s) else s.countPasses c w
        let r := (s.noteBanks c).readPass c q w
        let q' := { q with walk := some r.1 }
        .next (if head then r.2.setHead c q' else r.2.setCore c { r.2.core c with array := some q' })

/-! ### Moving accumulators (04 R161 to R163) -/

/-- Parts of a cread format, 0 for a format that has none (04 Table 4.4). -/
def creadParts (fmt : Nat) : Nat :=
  match fmt with
  | 0x8 | 0xA => 4
  | 0x6 | 0x7 | 0x5 => 2
  | 0x9 => 8
  | 0x0 | 0x1 | 0x2 | 0x3 | 0x4 => 1
  | _ => 0

/-- Parts of a cwrite format. -/
def cwriteParts (fmt : Nat) : Nat :=
  match fmt with
  | 0x8 | 0xA => 4
  | 0x9 => 8
  | _ => 0

/-- The traps of an accumulator move. -/
def State.moveTrap (s : State) (x : Issue) (pc cd fmt rm part parts : Nat) (reads : Bool) : Option TrapInfo :=
  let subs : List (Nat × Bool) := [(0, parts == 0), (2, fmt == 9 && cd % 2 == 1), (4, reads && rm == 2 && fmtIsInt fmt),
    (5, parts != 0 && decide (parts ≤ part))]
  firstTrap (s.ownerTrap x.core x.thread pc cd fmt ::
    subs.map fun e => (e.2, { cause := 0x10, sub := e.1, pc }))

/-- The stall of an accumulator move: a busy accumulator, then the draw hold (02 R690). -/
def State.moveStall (s : State) (c : Lcn) (cd fmt rm : Nat) : Option Nat :=
  if s.accBusy c cd fmt then some 1 else s.drawHold c rm

/-- The accumulator elements that a part reads: 64 per part in FP32 and INT32, 128 in FP16 and BF16, 32 of a pair in
FP64, all 256 otherwise (04 Table 4.4). -/
def partElems (fmt part : Nat) : List Nat :=
  let n := match fmt with
    | 0x8 | 0xA => 64
    | 0x6 | 0x7 => 128
    | 0x9 => 32
    | _ => 256
  (List.range n).map fun e => if n = 256 then e else part * n + e

/-- The tile that a cread leaves, its flags, and the state after its draws. -/
def State.creadTile (s : State) (c : Lcn) (acc fmt rm part : Nat) (old : Tile) : Tile × TFlags × State :=
  let w := accWidth fmt
  let src := (partElems fmt part).map fun e => (e, acc / 2 ^ (w * e) % 2 ^ w)
  if fmt = 0xA then (packTile fmt (src.map (·.2)), {}, s)
  else if fmt = 2 then
    let r := src.map fun e => toInteger 8 0 (decodeElem 0xA e.2).1
    (packTile 2 (r.map (·.1)), { cvtsat := r.any fun e => e.2.clamp }, s)
  else
    match fpOf fmt with
    | some f =>
      let r := s.roundAll c f rm (src.map fun e =>
        let d := decodeElem (if fmt = 9 then 9 else 8) e.2
        { lane := e.1, val := d.1, flushed := d.2 })
      if fmt = 5 then
        let l := (List.range 512).map fun e =>
          if e % 32 / 16 = part then (r.1[e / 32 * 16 + e % 16]?).getD 0 else tileElem 5 old e
        (packTile 5 l, r.2)
      else (packTile fmt r.1, r.2)
    | none => (old, {}, s)

/-- CREAD. -/
def execCread (x : Issue) (cd : Fin 4) (tr : Fin 8) (part : Fin 8) (fmt : Fin 13) (rm : Fin 3) (s : State) : Out :=
  .next (s.issue x 4 [.t tr] (s.moveStall x.core cd.val fmt.val rm.val) fun th s =>
    match s.moveTrap x th.pc cd.val fmt.val rm.val part.val (creadParts fmt.val) true with
    | some r => .trap r
    | none =>
      let v := s.creadTile x.core (s.readAccs x.core cd.val fmt.val) fmt.val rm.val part.val (th.readT tr)
      .done ((v.2.2.setFlags x.core (some x.thread) v.2.1).putT x tr v.1) (th.pc + 4))

/-- CWRITE: the tile's bits into a part, without conversion. -/
def execCwrite (x : Issue) (cd : Fin 4) (tr : Fin 8) (part : Fin 8) (fmt : Fin 13) (rm : Fin 3) (s : State) : Out :=
  .next (s.issue x 4 [.t tr] (s.moveStall x.core cd.val fmt.val rm.val) fun th s =>
    match s.moveTrap x th.pc cd.val fmt.val rm.val part.val (cwriteParts fmt.val) false with
    | some r => .trap r
    | none =>
      let old := s.readAccs x.core cd.val fmt.val
      let lo := 2 ^ (2048 * part.val)
      let v := old - old / lo % 2 ^ 2048 * lo + (th.readT tr).toNat * lo
      .done (s.writeAccs x.core cd.val fmt.val v) (th.pc + 4))

/-- CZERO: every bit of the accumulator zero. -/
def execCzero (x : Issue) (cd : Fin 4) (s : State) : Out :=
  .next (s.issue x 4 [] (s.moveStall x.core cd.val 0 0) fun th s =>
    match firstTrap [s.ownerTrap x.core x.thread th.pc cd.val 0] with
    | some r => .trap r
    | none => .done (s.setAcc x.core cd.val 0) (th.pc + 4))

end Sys2Proof.Machine
end

