-- ==== Sys2Proof/Machine/Sparse.lean ====
section
/-!
DEFINITION. The output compressor and the selection engine (06 R232 to R245, Tables 6.7 and 6.11 to 6.17).
-/

namespace Sys2Proof.Machine

/-- Bytes written into one tile by a read-merge-write; where the tile's check fails nothing is written and the failure is
counted (15 R531, Table 15.2). -/
def State.writePart (s : State) (c : Lcn) (off v n : Nat) : Bool × State :=
  if s.tileGood c (off / 256) then (true, s.writeSram c off v n) else (false, s.tileFailed c (off / 256) 4)

/-- Two ranges of tiles, given by first tile and count, overlap. -/
def rangesMeet (a b : Nat × Nat) : Bool := decide (a.1 < b.1 + b.2) && decide (b.1 < a.1 + a.2)

/-- Some two ranges of a list overlap. -/
def someMeet : List (Nat × Nat) → Bool
  | [] => false
  | r :: l => l.any (rangesMeet r) || someMeet l

/-! ### The compressor -/

/-- The lowest error code of a compressor command (06 Table 6.7). -/
def cmpError (src dst span fmt : Nat) (prune : Bool) (hdr : Nat) : Option Nat :=
  if span = 0 ∨ 128 < span then some 1
  else if 255 < src + span - 1 then some 2
  else if 255 < dst + span - 1 then some 3
  else if 10 < fmt ∨ (prune && !s24Permitted fmt) = true then some 4
  else if someMeet [(src, span), (dst, span), (hdr / 16, 1)] then some 5
  else none

/-- A compressor command ends: its status, and its tack (06 R233, R237). -/
def State.cmpEnd (s : State) (c : Lcn) (err : Option Nat) : State :=
  let u := c.toNat
  let s := (s.put F.SPX_CMP_STAT_BUSY 0 u).put F.SPX_CMP_STAT_DONE 1 u
  let s := match err with
    | some e => (s.put F.SPX_CMP_STAT_ERR 1 u).put F.SPX_CMP_STAT_ERRCODE e u
    | none => s
  s.signal c (Fin.ofNat 32 (s.get F.SPX_CMP_CMD_TACK u)) false 1 1 0

/-- A write of SPX_CMP_CMD (06 R232, R233). -/
def State.writeCmpCmd (s : State) (c : Lcn) (v : Nat) : State :=
  let u := c.toNat
  if s.flag F.SPX_CMP_STAT_BUSY u then s.put F.SPX_CMP_STAT_REJ 1 u
  else
    let s := s.writePlain .SPX_CMP_CMD u 0 v
    if !v.testBit 63 then s
    else
      match cmpError (s.get F.SPX_CMP_CMD_SRC u) (s.get F.SPX_CMP_CMD_DST u) (s.get F.SPX_CMP_CMD_SPAN u)
          (s.get F.SPX_CMP_CMD_FMT u) (s.flag F.SPX_CMP_CMD_PRUNE24 u) (s.get F.SPX_CMP_CMD_HDR16 u) with
      | some e => s.cmpEnd c (some e)
      | none => s.put F.SPX_CMP_STAT_BUSY 1 u

/-- COMPRESSOR_START: a write of SPX_CMP_CMD. -/
def execCompressorStart (c : Lcn) (v : Word) (s : State) : Out :=
  .next (s.ifWindow .SPX_CMP_CMD c 0 fun s => s.writeCmpCmd c v.toNat)

/-- An element reads as a zero of its format (06 R234). -/
def elemIsZero (fmt x : Nat) : Bool :=
  match (decodeElem fmt x).1 with
  | .fin _ m _ => m == 0
  | _ => false

/-- A tile is absent. -/
def tileAbsent (fmt : Nat) (t : Tile) : Bool := (tileElems fmt t).all (elemIsZero fmt)

/-- The magnitude of `a` is below that of `b`, a NaN counted as largest (06 R236). -/
def magnitudeLess (fmt a b : Nat) : Bool :=
  let abs (x : Num) : Num := if x.sign then x.neg else x
  let x := abs (decodeElem fmt a).1
  let y := abs (decodeElem fmt b).1
  if x.isNan then false else if y.isNan then true else x.less y

/-- The positions that a group of four keeps: the two of largest magnitude, ties to the lower, ascending. -/
def keepTwo (fmt : Nat) (g : List Nat) : List Nat :=
  let beats (p q : Nat) : Bool :=
    let x := (g[p]?).getD 0
    let y := (g[q]?).getD 0
    magnitudeLess fmt y x || (!magnitudeLess fmt x y && decide (p < q))
  (List.range 4).filter fun p => decide (((List.range 4).filter fun q => q != p && beats q p).length < 2)

/-- A tile in the 2:4 form, and whether an element that is no zero was discarded (06 R213, R236). -/
def pruneTile (fmt : Nat) (t : Tile) : Tile × Bool :=
  let e := tileElems fmt t
  let groups := (List.range (fmtCount fmt / 4)).map fun g => (e.drop (4 * g)).take 4
  let kept := groups.map fun g => (g, keepTwo fmt g)
  let vals := kept.flatMap fun e => e.2.map fun p => (e.1[p]?).getD 0
  let codes := kept.flatMap fun e => e.2
  let lost := kept.any fun e => (List.range 4).any fun p => !e.2.contains p && !elemIsZero fmt ((e.1[p]?).getD 0)
  (BitVec.ofNat 2048 (packBits (fmtWidth fmt) vals + 2 ^ 1024 * packBits 2 codes), lost)

/-- The bytes of an index tile for a list of positions (06 Table 6.2). -/
def indexTile (l : List Nat) : Tile :=
  BitVec.ofNat 2048 ((l.map fun k => 2 ^ k).sum + 2 ^ 128 * packBits 8 l)

/-- The 16 bytes of a stripe header (06 Table 6.1). -/
def headerBits (form : Nat) (s24 : Bool) (span count base : Nat) : Nat :=
  form + bit s24 * 4 + span * 2 ^ 8 + count * 2 ^ 16 + base * 2 ^ 24

/-- Tiles written from a first tile upward. -/
def State.writeTiles (s : State) (c : Lcn) : Nat → List Tile → State
  | _, [] => s
  | k, t :: l => (s.writeTile c k t).writeTiles c (k + 1) l

/-- The compressor's run: the stripe in the smaller form, then its header (06 R234 to R237). -/
def State.compress (s : State) (c : Lcn) : State :=
  let u := c.toNat
  let src := s.get F.SPX_CMP_CMD_SRC u
  let dst := s.get F.SPX_CMP_CMD_DST u
  let span := s.get F.SPX_CMP_CMD_SPAN u
  let fmt := s.get F.SPX_CMP_CMD_FMT u
  let prune := s.flag F.SPX_CMP_CMD_PRUNE24 u
  match (List.range span).find? fun k => !s.tileGood c (src + k) with
  | some k => (s.tileFailed c (src + k) 3).cmpEnd c (some 7)
  | none =>
    let tiles := (List.range span).map fun k => (k, s.readTile c (src + k))
    let present := tiles.filter fun e => !tileAbsent fmt e.2
    let p := present.length
    let sparse := decide (1 + p ≤ span)
    let data := (if sparse then present else tiles).map fun e => if prune then pruneTile fmt e.2 else (e.2, false)
    let s := s.writeTiles c (if sparse then dst + 1 else dst) (data.map (·.1))
    let s := if sparse then s.writeTile c dst (indexTile (present.map (·.1))) else s
    let hdr := headerBits (bit sparse) prune span (if sparse then p else 0) dst
    let (ok, s) := s.writePart c (16 * s.get F.SPX_CMP_CMD_HDR16 u) hdr 16
    let s := if data.any (·.2) then s.put F.SPX_CMP_STAT_PRUNED 1 u else s
    let s := (s.put F.SPX_CMP_STAT_DENSE (bit !sparse) u).put F.SPX_CMP_STAT_PRESENT p u
    s.cmpEnd c (if ok then none else some 7)

/-- COMPRESSOR_DONE: on a core whose clocks run. -/
def execCompressorDone (c : Lcn) (s : State) : Out :=
  .next (if s.flag F.SPX_CMP_STAT_BUSY c.toNat && s.clocked c then s.compress c else s)

/-! ### The selection engine -/

/-- The lowest error code of a selection command (06 Table 6.7). -/
def State.selError (s : State) (c : Lcn) : Option Nat :=
  let u := c.toNat
  let groups := s.get F.SPX_SEL_CMD_GROUPS u
  let n := s.get F.SPX_SEL_CMD_N u
  let tpg := s.get F.SPX_GATHER_CFG_TPG u
  let dst := s.get F.SPX_GATHER_CFG_DST u
  let addr := s.get F.SPX_GATHER_SRC_ADDR u
  let gather := s.flag F.SPX_SEL_CMD_GATHER u
  let ranges := [(s.get F.SPX_SEL_CMD_SCORE u, 1), (s.get F.SPX_SEL_CMD_IDX u, 1),
    (s.get F.SPX_SEL_CMD_HDR16 u / 16, 1)] ++ if gather then [(dst, groups * tpg)] else []
  if groups = 0 ∨ 128 < groups ∨ (s.flag F.SPX_SEL_CMD_TOPN u = true ∧ (n = 0 ∨ groups < n)) ∨ tpg = 0 ∨ 16 < tpg then
    some 1
  else if gather = true ∧ 255 < dst + groups * tpg - 1 then some 3
  else if someMeet ranges then some 5
  else if gather = true ∧ (addr % 256 ≠ 0 ∨ (s.memoryRoute c addr).isNone = true) then some 6
  else none

/-- A selection command ends. -/
def State.selEnd (s : State) (c : Lcn) (err : Option Nat) : State :=
  let u := c.toNat
  let s := (s.put F.SPX_SEL_STAT_BUSY 0 u).put F.SPX_SEL_STAT_DONE 1 u
  let s := match err with
    | some e => (s.put F.SPX_SEL_STAT_ERR 1 u).put F.SPX_SEL_STAT_ERRCODE e u
    | none => s
  let s := s.setCore c { s.core c with sel := none }
  s.signal c (Fin.ofNat 32 (s.get F.SPX_SEL_CMD_TACK u)) false 1 1 0

/-- A write of SPX_SEL_CMD (06 R240). -/
def State.writeSelCmd (s : State) (c : Lcn) (v : Nat) : State :=
  let u := c.toNat
  if s.flag F.SPX_SEL_STAT_BUSY u then s.put F.SPX_SEL_STAT_REJ 1 u
  else
    let s := s.writePlain .SPX_SEL_CMD u 0 v
    if !v.testBit 63 then s
    else
      match s.selError c with
      | some e => s.selEnd c (some e)
      | none =>
        let l : SelLatch :=
          { thr := s.get F.SPX_SEL_THR_THR u, addr := s.get F.SPX_GATHER_SRC_ADDR u,
            stride := s.get F.SPX_GATHER_CFG_GSTRIDE u, tpg := s.get F.SPX_GATHER_CFG_TPG u,
            dst := s.get F.SPX_GATHER_CFG_DST u }
        (s.put F.SPX_SEL_STAT_BUSY 1 u).setCore c { s.core c with sel := some l }

/-- SELECTION_START: a write of SPX_SEL_CMD. -/
def execSelectionStart (c : Lcn) (v : Word) (s : State) : Out :=
  .next (s.ifWindow .SPX_SEL_CMD c 0 fun s => s.writeSelCmd c v.toNat)

/-- The groups selected by a threshold: scores at or above it; a NaN is never selected (06 R241). -/
def selectByThreshold (f : Fp) (scores : List Nat) (thr : Nat) : List Nat :=
  let t := (f.decode thr).1
  (scores.zipIdx.filter fun e =>
    let v := (f.decode e.1).1
    !v.isNan && !t.isNan && !v.less t).map (·.2)

/-- The `n` groups of largest score, ties to the lower group, ascending; every group that is no NaN where there are fewer
(06 R241). -/
def selectTop (f : Fp) (scores : List Nat) (n : Nat) : List Nat :=
  let l := (scores.zipIdx.map fun e => ((f.decode e.1).1, e.2)).filter fun e => !e.1.isNan
  (l.filter fun e =>
    decide ((l.filter fun g => g.2 != e.2 && (e.1.less g.1 || (!g.1.less e.1 && decide (g.2 < e.2)))).length < n)).map
      (·.2)

/-- The gather of the selected groups (06 R243). -/
def State.postGather (s : State) (c : Lcn) (l : SelLatch) (groups : List Nat) : State :=
  let base := (s.seenLcn c).toNat * 65536
  let moves := groups.zipIdx.flatMap fun e => (List.range l.tpg).map fun t =>
    (l.addr + e.1 * l.stride + 256 * t, base + (l.dst + e.2 * l.tpg + t) * 256)
  s.addSpool { id := 0, panel := 0, core := c, thread := 0, ld := 0, src := 0, dst := 0, tiles := 0,
               tack := s.get F.SPX_SEL_CMD_TACK c.toNat, gather := moves, isGather := true }

/-- The selection engine's run (06 R241 to R243). -/
def State.select (s : State) (c : Lcn) (l : SelLatch) : State :=
  let u := c.toNat
  let score := s.get F.SPX_SEL_CMD_SCORE u
  if !s.tileGood c score then (s.tileFailed c score 3).selEnd c (some 7)
  else
    let bf := s.flag F.SPX_SEL_CMD_SFMT u
    let f : Fp := if bf then ⟨8, 7, 127, .ieee, false⟩ else ⟨5, 10, 15, .ieee, false⟩
    let groups := s.get F.SPX_SEL_CMD_GROUPS u
    let scores := (tileElems 6 (s.readTile c score)).take groups
    let sel := if s.flag F.SPX_SEL_CMD_TOPN u then selectTop f scores (s.get F.SPX_SEL_CMD_N u)
      else selectByThreshold f scores l.thr
    let idx := s.get F.SPX_SEL_CMD_IDX u
    let s := s.writeTile c idx (indexTile sel)
    let (ok, s) := s.writePart c (16 * s.get F.SPX_SEL_CMD_HDR16 u) (headerBits 1 false groups sel.length idx) 16
    if !ok then s.selEnd c (some 7)
    else
      let s := s.put F.SPX_SEL_STAT_SELECTED sel.length u
      if s.flag F.SPX_SEL_CMD_GATHER u then (s.setCore c { s.core c with sel := none }).postGather c l sel
      else s.selEnd c none

/-- SELECTION_DONE: on a core whose clocks run and that no darning action holds. -/
def execSelectionDone (c : Lcn) (s : State) : Out :=
  match (s.core c).sel with
  | some l => .next (if s.darnHeld c || !s.clocked c then s else s.select c l)
  | none => .next s

end Sys2Proof.Machine
end

