-- ==== Sys2Proof/Machine/Message.lean ====
section
/-!
DEFINITION. Active messages: msend, mpoll, mfree, the placement of records in bobbins, held messages
(03 R121 to R126; 09 R338 to R362).
-/

namespace Sys2Proof.Machine

/-! ### Acceptance at a network interface (08 R289, 09 R351) -/

/-- The reply queue of a position has a free entry: 16 hold the replies that wait there and those of held messages (08
R289). -/
def State.replyRoom (s : State) (pos : Lcn) : Bool :=
  let waiting := (s.fab.pkts.filter fun q => !q.injected && q.typ.isReply && q.pos == pos).length
  let held := match s.coreAt pos with
    | some c => (s.core c).landing.length
    | none => 0
  decide (waiting + held < 16)

/-- A position's network interface accepts a request now: its reply queue has room, and for a VC1 request some landing
slot of the core is free (08 R289, 09 R351). A sum is answered only once it is written, and takes no entry (08 R324; log entry
32). -/
def State.accepts (s : State) (c : Lcn) (p : Packet) : Bool :=
  (p.typ == .nsum || s.replyRoom p.pos) && (p.typ.vc == 0 || decide ((s.core c).landing.length < 4))

/-! ### Bobbins (09 R341, R342) -/

/-- A bobbin's descriptor as it stands. -/
structure Bobbin where
  tail : Nat
  head : Nat
  ready : Nat
  held : Bool
  base : Nat
  tiles : Nat
  enable : Bool
  formed : Bool
deriving DecidableEq, Repr

/-- The descriptor at an offset of a core's SRAM. -/
def State.bobbin (s : State) (c : Lcn) (off : Nat) : Bobbin :=
  let w := s.readSram c off 8
  let d := s.readSram c (off + 8) 8
  let base := bits d 7 0
  let tiles := bits d 14 8
  { tail := bits w 14 0, head := bits w 30 16, ready := bits w 42 32, held := w.testBit 43, base, tiles,
    enable := d.testBit 15,
    formed := decide (1 ≤ tiles ∧ tiles ≤ 64 ∧ base + tiles ≤ 256 ∧ d / 2 ^ 16 = 0) &&
      !(decide (base ≤ off / 256) && decide (off / 256 < base + tiles)) }

/-- The status word of a bobbin. -/
def Bobbin.status (b : Bobbin) : Nat := b.tail + b.head * 2 ^ 16 + b.ready * 2 ^ 32 + bit b.held * 2 ^ 43

def Bobbin.size (b : Bobbin) : Nat := 256 * b.tiles

/-- A bobbin's status word written (09 R344). -/
def State.writeStatus (s : State) (c : Lcn) (off : Nat) (b : Bobbin) : State := s.writeSram c off b.status 8

/-- Bytes written over as many tiles as they span; a tile covered whole is written whole. -/
def State.writeRange (s : State) (c : Lcn) (off v : Nat) : Nat → Nat → State
  | 0, _ => s
  | fuel + 1, n =>
    let k := min n (256 - off % 256)
    let s := if k = 256 then s.writeTile c (off / 256) (BitVec.ofNat 2048 v)
      else if k = 0 then s else s.writeSram c off (v % 2 ^ (8 * k)) k
    s.writeRange c (off + k) (v / 2 ^ (8 * k)) fuel (n - k)

/-- The tiles that a write of some bytes covers only in part. -/
def partTiles (off n : Nat) : List Nat :=
  let first := off / 256
  let last := (off + n - 1) / 256
  (if off % 256 = 0 ∧ 256 ≤ n then [] else [first]) ++
    if last = first ∨ (off + n) % 256 = 0 then [] else [last]

/-! ### Placement (09 R345 to R350) -/

/-- Where a record lands: its offset, the offset of a wrap marker written before it, the new head and tail. -/
structure Landing where
  at_ : Nat
  marker : Option Nat
  head : Nat
  tail : Nat
deriving DecidableEq, Repr

/-- The place of a record of `l` bytes, none where the message must be held (09 R346). -/
def Bobbin.place (b : Bobbin) (l : Nat) : Option Landing :=
  let room := b.size - b.tail - (if b.head = 0 then 8 else 0)
  if b.tail = b.head ∧ room < l then some ⟨0, none, 0, l⟩
  else if b.head ≤ b.tail then
    if l ≤ room then some ⟨b.tail, none, b.head, if b.tail + l = b.size then 0 else b.tail + l⟩
    else if l + 8 ≤ b.head then some ⟨0, some b.tail, b.head, l⟩
    else none
  else if l + 8 ≤ b.head - b.tail then some ⟨b.tail, none, b.head, b.tail + l⟩
  else none

/-- What a placement ends in. -/
inductive Placed
  | done (s : State)
  | held
  | refused (s : State) (code arg : Nat)

/-- A record placed: its bytes, the wrap marker, the status word and the counts, unless a partly written tile fails its
check. -/
def State.putRecord (s : State) (c : Lcn) (off : Nat) (b : Bobbin) (p : Landing) (l body : Nat) : Placed :=
  let ring := b.base * 256
  let marker := match p.marker with
    | some m => partTiles (ring + m) 8
    | none => []
  match (marker ++ partTiles (ring + p.at_) l).find? fun t => !s.tileGood c t with
  | some t => .refused (s.tileFailed c t 2) 0x21 t
  | none =>
    let s := match p.marker with
      | some m => (s.writeSram c (ring + m) (2 ^ 24) 8).writeSram c (off + 0x18) (s.readSram c (off + 0x18) 8 + 1) 8
      | none => s
    let s := s.writeRange c (ring + p.at_) body 3 l
    let s := s.writeSram c (off + 0x10) (s.readSram c (off + 0x10) 8 + 1) 8
    let s := s.writeStatus c off { b with head := p.head, tail := p.tail, ready := b.ready + 1 }
    .done (s.addWrap F.BOB_STAT_PLACED 1 c.toNat)

/-- The checks of a message and its placement (09 R345, R346). -/
def State.placeMessage (s : State) (c : Lcn) (off l body : Nat) : Placed :=
  if !s.tileGood c (off / 256) then .refused (s.tileFailed c (off / 256) 2) 0x21 (off / 256)
  else
    let b := s.bobbin c off
    if !b.enable then .refused s 0x10 0
    else if !b.formed then .refused s 0x11 0
    else if b.size - 8 < l then .refused s 0x12 0
    else match b.place l with
      | some p => s.putRecord c off b p l body
      | none => .held

/-- Held messages of a bobbin, in order of arrival. -/
def State.heldFor (s : State) (c : Lcn) (off : Nat) : List Packet :=
  (s.core c).landing.filter fun q => q.arg % 65536 == off

/-- The HELD bit of a bobbin after a change of the landing slots. -/
def State.showHeld (s : State) (c : Lcn) (off : Nat) : State :=
  s.writeStatus c off { s.bobbin c off with held := !(s.heldFor c off).isEmpty }

/-- An error reply's argument: the code, and the tile number that 0x21 carries (15 R534). -/
def errArg (code tile : Nat) : Nat := code + tile * 256

/-- A bobbin is named by a message or an mpoll: the detector knows it, with whether the last mpoll found no record (09 Table
9.6). -/
def State.noteBobbin (s : State) (c : Lcn) (off : Nat) (empty : Option Bool) : State :=
  let k := s.core c
  match empty with
  | some b => s.setCore c { k with bobbins := putKey k.bobbins (off / 32) b }
  | none => if (findKey k.bobbins (off / 32)).isSome then s
    else s.setCore c { k with bobbins := putKey k.bobbins (off / 32) false }

/-- A MSG packet served: placed and acknowledged, held in a landing slot, or refused (09 R345 to R350). -/
def State.takeMessage (s : State) (c : Lcn) (q : Packet) : State :=
  let off := q.arg % 65536
  let l := 8 * q.flits
  let behind := !(s.heldFor c off).isEmpty && s.tileGood c (off / 256) &&
    (let b := s.bobbin c off; b.enable && b.formed && decide (l ≤ b.size - 8))
  let hold (s : State) : State :=
    let s := (s.tick F.BOB_HELDCC_CC c.toNat).tick F.BOB_HELDCC_SAT c.toNat
    (s.setCore c { s.core c with landing := (s.core c).landing ++ [q] }).showHeld c off
  if behind then hold (s.noteBobbin c off none)
  else match s.placeMessage c off l q.body with
    | .done s => (s.noteBobbin c off none).reply q q.pos .ack 0 0 0 0
    | .held => hold (s.noteBobbin c off none)
    | .refused s code tile => s.reply q q.pos .err 0 (errArg code tile) 0 0

/-- A held message leaves its landing slot. -/
def State.unhold (s : State) (c : Lcn) (q : Packet) : State :=
  s.setCore c { s.core c with landing := (s.core c).landing.filter fun p => p.id != q.id }

/-- HELD_MSG_PLACE: the first held message of a bobbin is retried (09 R350). While the core's clocks are off its access ends
GATED: it is answered ERR 0x08 and leaves its slot (02 R89; log entry 28). -/
def execHeldMsgPlace (c : Lcn) (off : Fin 65536) (s : State) : Out :=
  match s.heldFor c off.val with
  | [] => .next s
  | q :: _ =>
    if !s.clocked c then
      .next (((s.gatedError (blockOffset .core c.toNat)).unhold c q).reply q q.pos .err 0 (errArg 8 0) 0 0)
    else match s.placeMessage c off.val (8 * q.flits) q.body with
      | .done s => .next (((s.unhold c q).showHeld c off.val).reply q q.pos .ack 0 0 0 0)
      | .held => .next s
      | .refused s code tile =>
        let s := if s.tileGood c (off.val / 256) then (s.unhold c q).showHeld c off.val else s.unhold c q
        .next (s.reply q q.pos .err 0 (errArg code tile) 0 0)

/-! ### The instructions -/

/-- An address in the issuing core's own SRAM, as its offset. -/
def State.ownOffset (s : State) (c : Lcn) (a : Word) : Option Nat :=
  match s.target c a with
  | .own off => some off
  | _ => none

/-- The header of a record (09 R338). -/
def recordHeader (len h : Nat) (f : Bool) (src : Lcn) (t : Fin 4) (ld : Nat) (seq : BitVec 32) : Nat :=
  (16 + len) + h * 2 ^ 16 + bit f * 2 ^ 25 + (src.toNat + t.val * 2 ^ 20 + ld * 2 ^ 22) * 2 ^ 32 + seq.toNat * 2 ^ 64

/-- The first tile of own SRAM among the bytes from `off` that fails its check. -/
def State.badAmong (s : State) (c : Lcn) (off n : Nat) : Option Nat :=
  if n = 0 then none else [off / 256, (off + n - 1) / 256].find? fun t => !s.tileGood c t

/-- The checksum trap of an own-SRAM read (15 Table 15.2). -/
def checkTrap (pc tile : Nat) (a : Word) : TrapInfo := { cause := 6, sub := 0, pc, info := tile, addr := a.toNat }

/-- The traps of an msend (03 R111, R123). -/
def State.msendTrap (s : State) (x : Issue) (th : Thread) (h : Fin 64) (rs : Fin 32) (a : Fin 16) : Option TrapInfo :=
  let len := (th.readS (Fin.ofNat 32 (rs.val + 1))).toNat
  let pa := th.readA a
  let bob := th.readS rs
  let own := s.ownOffset x.core pa
  let badLen := decide (240 < len) || decide (len % 8 ≠ 0)
  let badPay := match own with
    | none => true
    | some off => decide (off % 8 ≠ 0) || decide (65536 < off + len)
  let badBob := decide (2 ^ 36 ≤ bob.toNat) || decide (bob.toNat % 32 ≠ 0)
  let dst : Lcn := BitVec.ofNat 20 (bob.toNat / 65536)
  firstTrap [
    (decide (bob.toNat < 2 ^ 36) && isGusset dst, { cause := 4, sub := 0, pc := th.pc, info := dst.toNat, addr := bob.toNat }),
    (badLen, { cause := 9, sub := 0, pc := th.pc, info := h.val, addr := pa.toNat }),
    (badPay, { cause := 9, sub := 1, pc := th.pc, info := h.val, addr := pa.toNat }),
    (badBob, { cause := 9, sub := 3, pc := th.pc, info := h.val, addr := bob.toNat })]

/-- A thread's message sequence number after one more msend (09 R339). -/
def State.nextSeq (s : State) (x : Issue) : State :=
  let th := s.thread x.core x.thread
  s.setThread x.core x.thread { th with seq := th.seq + 1 }

/-- A message about to be sent, with where its payload lies (03 R124). -/
def State.noteSent (s : State) (x : Issue) (th : Thread) (off len : Nat) : State :=
  let m : SentMsg := { pkt := s.fab.nextId, thread := x.thread, retired := th.retired.toNat, off, len }
  s.setCore x.core { s.core x.core with sent := some m }

/-- The message, if any, whose payload a thread's store of `n` bytes may still reach: another thread sent it, and has retired
at most one instruction since, so that the store may fall into the same cc or the next (03 R124). -/
def State.sentUnder (s : State) (c : Lcn) (t : Fin 4) (off n : Nat) : Option SentMsg :=
  match (s.core c).sent with
  | some m =>
    if m.thread ≠ t ∧ (s.thread c m.thread).retired.toNat ≤ m.retired + 2 ∧ off < m.off + m.len ∧ m.off < off + n then
      some m
    else none
  | none => none

/-- A thread has stored `n` bytes in its core's SRAM: it is undefined whether a message sent in the same cc or the one before
carries them, so a free bit decides (03 R124). -/
def State.stored (s : State) (c : Lcn) (t : Fin 4) (off n : Nat) : State :=
  match s.sentUnder c t off n with
  | none => s
  | some m =>
    let lo := max off m.off
    let k := min (off + n) (m.off + m.len) - lo
    let at_ := 2 ^ (128 + 8 * (lo - m.off))
    let (b, s) := s.free 1
    match s.fab.pkts.find? fun p => p.id == m.pkt with
    | some p =>
      if b = 1 then
        s.setPacket { p with body := p.body - p.body / at_ % 2 ^ (8 * k) * at_ + s.readSram c lo k * at_ }
      else s
    | none => s

/-- MSEND. Its payload is read as a load in the same cc reads it (03 R124). -/
def execMsend (x : Issue) (h : Fin 64) (rs : Fin 32) (a : Fin 16) (f : Bool) (s : State) : Out :=
  let c := x.core
  let r1 : Fin 32 := Fin.ofNat 32 (rs.val + 1)
  let stall := match s.msendTrap x (s.thread c x.thread) h rs a with
    | some _ => none
    | none => s.tagStall c x.thread
  .next (s.issue x 4 [.s rs, .s r1] stall fun th s =>
    match s.msendTrap x th h rs a with
    | some r => .trap r
    | none =>
      let len := (th.readS r1).toNat
      let pa := th.readA a
      let off := pa.toNat % 65536
      let bob := (th.readS rs).toNat
      match s.badAmong c off len with
      | some t => .late ((s.nextSeq x).tileFailed c t 1) (th.pc + 4) (checkTrap th.pc t pa)
      | none =>
        let dst : Lcn := BitVec.ofNat 20 (bob / 65536)
        let fence := (s.reachedLcn c dst).toNat
        let (s', tag, gen) := s.takeTag c x.thread th.pc (th.readS rs) .msend fence
        let p := s'.coreRequest x .msg dst tag gen
        let hdr := recordHeader len h.val f (s.seenLcn c) x.thread p.ld th.seq
        let body := hdr + s.readSram c off len * 2 ^ 128
        let s' := ((s'.nextSeq x).foldDigest c x.thread 3 dst.toNat bob body (16 + len)).noteSent x th off len
        .done (s'.send { p with f, arg := bob, flits := 2 + len / 8, body }) (th.pc + 4))

/-- The message trap of a poll or a free at issue (09 R357). -/
def State.bobbinTrap (s : State) (x : Issue) (th : Thread) (a : Fin 16) : Option TrapInfo :=
  let bad := match s.ownOffset x.core (th.readA a) with
    | none => true
    | some off => decide (off % 32 ≠ 0) ||
        (s.tileGood x.core (off / 256) && !((s.bobbin x.core off).enable && (s.bobbin x.core off).formed))
  firstTrap [(bad, { cause := 9, sub := 1, pc := th.pc, addr := (th.readA a).toNat })]

/-- MPOLL: dispatches the record at HEAD, or clears PD (03 R125, R126; 09 R358, R360). -/
def execMpoll (x : Issue) (pd : Fin 8) (a : Fin 16) (s : State) : Out :=
  let c := x.core
  .next (s.issue x 4 [.s 31] none fun th s =>
    match s.bobbinTrap x th a with
    | some r => .trap r
    | none =>
      let pa := th.readA a
      let off := pa.toNat % 65536
      let next := th.pc + 4
      if !s.tileGood c (off / 256) then
        .late (s.tileFailed c (off / 256) 1) next (checkTrap th.pc (off / 256) pa)
      else
        let b := s.bobbin c off
        if b.ready = 0 then .done ((s.setThread c x.thread (th.writeP pd false)).noteBobbin c off (some true)) next
        else
          let rec_ := b.base * 256 + b.head
          if !s.tileGood c (rec_ / 256) then
            .late (s.tileFailed c (rec_ / 256) 1) next (checkTrap th.pc (rec_ / 256) pa)
          else
            let h := s.readSram c (rec_ + 2) 1 % 64
            if !s.flag F.BOB_HANDLERn_VALID c.toNat h then
              .late s next { cause := 9, sub := 2, pc := th.pc, info := h, addr := pa.toNat }
            else
              let th := (th.writeP pd true).writeS 31 (BitVec.ofNat 64 next)
              let th := th.writeA 15 (BitVec.ofNat 64 ((s.seenLcn c).toNat * 65536 + rec_ + 16))
              .done ((s.setThread c x.thread th).noteBobbin c off (some false)) (s.get F.BOB_HANDLERn_ADDR c.toNat h * 4))

/-- HEAD after the record at it is released: past the record, then past the ring's end or a wrap marker (09 R348,
R361). -/
def State.releasedHead (s : State) (c : Lcn) (b : Bobbin) : Nat :=
  let h := b.head + s.readSram c (b.base * 256 + b.head) 2
  let h := if b.size ≤ h then 0 else h
  let m := s.readSram c (b.base * 256 + h) 8
  if h ≠ b.tail ∧ m = 2 ^ 24 then 0 else h

/-- MFREE (09 R361). -/
def execMfree (x : Issue) (a : Fin 16) (s : State) : Out :=
  let c := x.core
  .next (s.issue x 4 [] none fun th s =>
    match s.bobbinTrap x th a with
    | some r => .trap r
    | none =>
      let pa := th.readA a
      let off := pa.toNat % 65536
      let next := th.pc + 4
      let b := s.bobbin c off
      if !s.tileGood c (off / 256) then
        .late (s.tileFailed c (off / 256) 1) next (checkTrap th.pc (off / 256) pa)
      else if b.ready = 0 then .done (s.put F.BOB_STAT_FREE_EMPTY 1 c.toNat) next
      else
        match s.badAmong c (b.base * 256 + b.head) 8 with
        | some t => .late (s.tileFailed c t 1) next (checkTrap th.pc t pa)
        | none => .done (s.writeStatus c off { b with head := s.releasedHead c b, ready := b.ready - 1 }) next)

end Sys2Proof.Machine
end

