-- ==== Sys2Proof/Machine/Fabric.lean ====
section
/-!
DEFINITION. The fabric class 0x8, translation misses, and the routers: forwarding, congestion marks, detours, and the
absent responder (03 R130 to R133; 07 R285; 08 R292, R301 to R309, R312, R320, R326 to R328).
-/

namespace Sys2Proof.Machine

/-! ### The instructions -/

/-- A whole tile of the issuing core's own SRAM at an address: its number (03 R131). -/
def State.ownTile (s : State) (c : Lcn) (a : Word) : Option Nat :=
  match s.ownOffset c a with
  | some off => if off % 256 = 0 then some (off / 256) else none
  | none => none

/-- The address-map trap of a fabric operand. -/
def operandTrap (bad : Bool) (pc : Nat) (a : Word) : Option TrapInfo :=
  firstTrap [(bad, { cause := 3, sub := 2, pc, addr := a.toNat })]

/-- The tree entry of a core for a tree, of some kinds (08 R319). -/
def State.treeEntry (s : State) (c : Lcn) (tree : Nat) (leaf : Bool) : Option Nat :=
  (List.range 16).find? fun n =>
    let k := s.get F.FAB_TREEn_A_KIND c.toNat n
    s.get F.FAB_TREEn_A_TREE c.toNat n == tree && if leaf then k == 1 else k == 2 || k == 3

/-- The argument of an NSUM packet (08 Table 8.3). -/
def nsumArg (tree side step : Nat) : Nat := tree + side * 2 ^ 16 + step * 2 ^ 32

/-- NSUM (08 R320). -/
def execNsum (x : Issue) (a : Fin 16) (rs1 rs2 : Fin 32) (f : Bool) (s : State) : Out :=
  let c := x.core
  let trap (th : Thread) : Option TrapInfo :=
    let tree := (th.readS rs1).toNat % 65536
    operandTrap ((s.ownTile c (th.readA a)).isNone || (s.treeEntry c tree true).isNone) th.pc (th.readA a)
  let stall := if (trap (s.thread c x.thread)).isSome then none else s.tagStall c x.thread
  .next (s.issue x 4 [.s rs1, .s rs2] stall fun th s =>
    match trap th with
    | some r => .trap r
    | none =>
      let tree := (th.readS rs1).toNat % 65536
      let step := (th.readS rs2).toNat % 2 ^ 32
      let tile := (th.readA a).toNat % 65536 / 256
      let n := (s.treeEntry c tree true).getD 0
      if !s.tileGood c tile then .late (s.tileFailed c tile 1) (th.pc + 4) (checkTrap th.pc tile (th.readA a))
      else
        let parent : Lcn := BitVec.ofNat 20 (s.get F.FAB_TREEn_A_PARENT c.toNat n)
        let arg := nsumArg tree (s.get F.FAB_TREEn_A_SIDE c.toNat n) step
        let body := (s.readTile c tile).toNat
        let s := s.foldDigest c x.thread 5 (s.reachedLcn c parent).toNat arg body 256
        let (s, tag, gen) := s.takeTag c x.thread th.pc (th.readA a) (.nsum tree) parent.toNat
        .done (s.send { s.requestTo x .nsum parent tag gen with f, arg, flits := 32, body }) (th.pc + 4))

/-- A span of cores (03 R132): its first core, its count, and whether it runs along a column. -/
structure Span where
  first : Lcn
  count : Nat
  column : Bool
deriving DecidableEq, Repr

/-- The span that 29 bits give; the operand's bits above them, which 03 R132 does not list, are ignored (DESIGN CHOICE, log entry
46). -/
def spanOf (v : Nat) : Span := { first := BitVec.ofNat 20 v, count := bits v 27 20, column := v.testBit 28 }

/-- The core at a place of a span. -/
def Span.at_ (p : Span) (i : Nat) : Lcn :=
  if p.column then posOf (rowOf p.first + i) (colOf p.first) else posOf (rowOf p.first) (colOf p.first + i)

/-- A span's count is 1 to 128 and it stays within one field. -/
def Span.fits (p : Span) : Bool :=
  decide (1 ≤ p.count) && decide (p.count ≤ 128) &&
    decide ((if p.column then rowOf p.first else colOf p.first) % 128 + p.count ≤ 128)

/-- The span crosses a relocated row segment along a column, so it goes as single writes (08 R327). -/
def State.spanAsWrites (s : State) (p : Span) : Bool :=
  p.column && (List.range p.count).any fun i => (s.relocationOf (segmentOf (p.at_ i))).isSome

/-- The destinations of a broadcast besides its first core (03 R129, 08 R318). -/
def State.spanOthers (s : State) (c : Lcn) (p : Span) : List Nat :=
  (List.range (p.count - 1)).map fun i => (s.reachedLcn c (p.at_ (i + 1))).toNat

/-- The single writes of a column broadcast. -/
def State.sendLegs (s : State) (x : Issue) (p : Span) (tag gen off body : Nat) (f : Bool) : State :=
  (List.range p.count).foldl (fun s i =>
    let d := s.reachedLcn x.core (p.at_ i)
    s.send { s.requestTo x .wr d tag gen with
      f, opc := 4, arg := d.toNat * 65536 + off, flits := 32, body, sender := .ncastLeg i }) s

/-- NCAST (03 R131 to R133; 08 R326, R327). -/
def execNcast (x : Issue) (a : Fin 16) (rs1 rs2 : Fin 32) (f : Bool) (s : State) : Out :=
  let c := x.core
  let trap (th : Thread) : Option TrapInfo :=
    operandTrap ((s.ownTile c (th.readA a)).isNone || decide ((th.readS rs2).toNat % 256 ≠ 0) ||
      !(spanOf (th.readS rs1).toNat).fits) th.pc (th.readA a)
  let stall := if (trap (s.thread c x.thread)).isSome then none else s.tagStall c x.thread
  .next (s.issue x 4 [.s rs1, .s rs2] stall fun th s =>
    match trap th with
    | some r => .trap r
    | none =>
      let tile := (th.readA a).toNat % 65536 / 256
      let off := (th.readS rs2).toNat % 65536
      let word := (th.readS rs1).toNat % 2 ^ 29
      let span := spanOf word
      if !s.tileGood c tile then .late (s.tileFailed c tile 1) (th.pc + 4) (checkTrap th.pc tile (th.readA a))
      else
        let body := (s.readTile c tile).toNat
        let s := s.foldDigest c x.thread 6 span.first.toNat (off + word * 65536) body 256
        let first := s.reachedLcn c span.first
        if s.spanAsWrites span then
          let (s, tag, gen) :=
            s.takeTag c x.thread th.pc (th.readA a) (.ncastWrites span.count none) first.toNat (s.spanOthers c span)
          .done (s.sendLegs x span tag gen off body f) (th.pc + 4)
        else
          let (s, tag, gen) := s.takeTag c x.thread th.pc (th.readA a) .ncast first.toNat (s.spanOthers c span)
          let arg := off + (first.toNat + word / 2 ^ 20 * 2 ^ 20) * 65536
          .done (s.send { s.requestTo x .ncast first tag gen with f, arg, flits := 32, body }) (th.pc + 4))

/-- NPROBE (08 R328). It names a core and no address, so ADDR of its traps is 0 (DESIGN CHOICE, log entry 46). -/
def execNprobe (x : Issue) (rs1 rs2 : Fin 32) (s : State) : Out :=
  let c := x.core
  let target (th : Thread) : Lcn := (th.readS rs2).truncate 20
  let trap (th : Thread) : Option TrapInfo :=
    firstTrap [(isGusset (target th), { cause := 4, sub := 0, pc := th.pc, info := (target th).toNat })]
  let stall := if (trap (s.thread c x.thread)).isSome then none else s.tagStall c x.thread
  .next (s.issue x 4 [.s rs1, .s rs2] stall fun th s =>
    match trap th with
    | some r => .trap r
    | none =>
      let (s, tag, gen) := s.takeTag c x.thread th.pc 0 (.nprobe rs1) (target th).toNat
      .done (s.send (s.requestTo x .probe (target th) tag gen)) (th.pc + 4))

/-! ### Translation (07 R285) -/

/-- TRANSLATION_MISS: the panel's relocation table answers a lookup of the core's interface, and the packets that waited
for it may be injected. -/
def execTranslationMiss (c : Lcn) (seg : Fin 8192) (s : State) : Out :=
  let l := mget [] s.fab.caches c.toNat
  if (s.relocationOf seg.val).isNone || l.contains seg.val then .next s
  else
    let s := { s with fab := { s.fab with caches := mset [] s.fab.caches c.toNat (cacheUse l seg.val) } }
    .next (s.pump c)

/-! ### Routers -/

/-- The packet bound for a block at an attachment, not for a core (07 R686, 08 R318). -/
def Packet.toBlock (p : Packet) : Bool :=
  !p.typ.isReply && ((decide (2 ^ 21 ≤ p.fence) && decide (p.fence < 2 ^ 22)) || decide (2 ^ 23 ≤ p.fence))

/-- Why no core answers at a position: the unbacked-core subcode (08 R303; 03 Table 3.13). -/
def State.absentAt (s : State) (p : Lcn) : Option Nat :=
  match s.coreAt p with
  | none => if isGusset p then some 0 else none
  | some c => if s.isFenced c then some 1 else if s.isParked (fieldOf p) then some 2 else none

/-- A packet taken by the absent responder of a router: a request is answered, a reply is discarded and counted
(08 R303, R309). -/
def State.absorb (s : State) (p : Packet) (typ : PacketType) (arg : Nat) : State :=
  let s := s.dropPacket p.id
  if p.typ.isReply then s.addSat F.FAB_NICHK_MISS F.FAB_NICHK_SAT 1 p.pos.toNat
  else s.reply p p.pos typ 0 arg 0 0

/-- The flits of a packet as a direction of a seam link sends them: the next sequence number, and the replay buffer with the
latest 64 of them (08 R329). -/
def SeamDir.send (d : SeamDir) (p : Packet) : SeamDir :=
  let l := d.buffer ++ List.replicate p.size p.id
  { d with next := (d.next + p.size) % 64, buffer := l.drop (l.length - 64) }

/-- A direction of a link, by the side over which a packet leaves: to the east or south, or to the west or north. -/
def SeamLink.dir (l : SeamLink) (side : Nat) : SeamDir := if side = 1 ∨ side = 2 then l.onward else l.back

def SeamLink.setDir (l : SeamLink) (side : Nat) (d : SeamDir) : SeamLink :=
  if side = 1 ∨ side = 2 then { l with onward := d } else { l with back := d }

/-- A packet passes the seam, if any, that its hop crosses. -/
def State.crossSeam (s : State) (p : Packet) (side : Nat) (q : Lcn) : State :=
  match seamOf p.pos q side (bit p.typ.isReply) with
  | some (f, sd, n, i) =>
    let l := s.link f sd n i
    s.setLink f sd n i (l.setDir sd ((l.dir sd).send p))
  | none => s

/-- The output port by which a packet leaves, after its choice (08 R294). -/
def State.choose (s : State) (p : Packet) (side vc : Nat) : State :=
  let r := (s.routerPort p side).chosen ((s.inputsAt p side).map (·.2)) vc p.side
  { s with fab := { s.fab with ports := mset {} s.fab.ports (portKey p side) r } }

/-- A packet moved over a side to the end of the next buffer, with its counts, its mark and its ring. -/
def State.hop (s : State) (p : Packet) (side : Nat) (q : Lcn) (ring : Option Detour) (entered : Bool) : State :=
  let p' := p.over side q ring
  let mark := s.marks (fieldOf q) p'.channel (s.occupancy q p.typ.isReply p'.side p'.channel + p.size)
  let s := (((s.choose p side p'.channel).crossSeam p side q).dropPacket p.id)
  let s := { s with fab := { s.fab with pkts := s.fab.pkts ++ [{ p' with cm := p.cm || mark }] } }
  let s := if mark && !p.cm then s.addSat F.FAB_MARKS_MARKS F.FAB_MARKS_SAT 1 (fieldOf q) else s
  if entered then s.addSat F.FAB_DETOURS_ENTRIES F.FAB_DETOURS_SAT 1 (fieldOf p.pos) else s

/-- The absent responder of the router where a packet leaves the network: UNB where the core that should stand there is not
backed, ERR 0x06 where a relocation has vacated the position (08 R302, R303; log entry 27). A broadcast is passed on by
NCAST_PACKET. -/
def State.absentResponse (s : State) (p : Packet) : State :=
  if p.toBlock || p.typ == .ncast then s
  else match s.absentAt p.pos with
    | some sub => s.absorb p .unb sub
    | none => if (s.coreAt p.pos).isNone then s.absorb p .err 6 else s

/-- ROUTER_FORWARD: a packet that waits in its interface is injected when it may be; the router that holds the head of a buffer
sends it on to the next hop when it wins the output port, or its absent responder takes it (08 R292, R294, R301, R303, R307 to
R309, R312). -/
def execRouterForward (pkt : Nat) (s : State) : Out :=
  match s.fab.pkts.find? fun p => p.id == pkt with
  | none => .next s
  | some p =>
    if !s.transitTree (fieldOf p.pos) then .next s
    else if !p.injected then .next (s.tryInject p)
    else if !s.heads p then .next s
    else match s.nextHop p with
      | .wait => .next s
      | .noRoute => .next (s.absorb p .err 5)
      | .to side q ring entered =>
        .next (if s.wins p side (p.over side q ring).channel then s.hop p side q ring entered else s)
      | .arrived => .next (s.absentResponse p)

end Sys2Proof.Machine
end

