-- ==== Sys2Proof/Machine/Deliver.lean ====
section
/-!
DEFINITION. The arrival of packets at a core's network interface: acceptance, the packet check, misroutes, traffic into a
reset, and the end of request tags (02 R72 to R78; 08 R289, R299, R302, R313; 16 R574, R580; 18 R611).
-/

namespace Sys2Proof.Machine

/-- A packet of a type that stands whole, first in its buffer, at the position where it leaves the network. -/
def State.atDest (s : State) (id : Nat) (typ : PacketType) : Option Packet :=
  s.fab.pkts.find? fun p => p.id == id && p.typ == typ && p.injected && p.pos == p.rt && p.ring.isNone && s.heads p

/-- The core whose interface stands at a position, where it is backed and its field's compute tree runs. -/
def State.servingCore (s : State) (pos : Lcn) : Option Lcn :=
  match s.coreAt pos with
  | some c => if s.backed c && s.computeTree (s.homeField c) then some c else none
  | none => none

/-- A request to this core is answered RSTR: its interface absorbs traffic, or its segment is under darning and the
request comes from outside its cut order (16 R574, R580). -/
def State.inReset (s : State) (c : Lcn) (p : Packet) : Bool :=
  (s.core c).absorbing ||
    match s.darn with
    | some d => d.segment == some (segmentOf c) && (s.slotOf c).map (·.1) != (s.slotOf p.src).map (·.1)
    | none => false

/-- An ERR reply. -/
def State.replyErr (s : State) (p : Packet) (code tile : Nat) : State := s.reply p p.pos .err 0 (errArg code tile) 0 0

/-- An ACK reply. -/
def State.replyAck (s : State) (p : Packet) : State := s.reply p p.pos .ack 0 0 0 0

/-- A packet that fails its check at a core: counted, and a request answered ERR 0x20 (08 R299, 15 R539). -/
def State.badPacket (s : State) (c : Lcn) (p : Packet) : State :=
  let s := (s.addSat F.FAB_NICHK_CHKFAIL F.FAB_NICHK_SAT 1 c.toNat).packetFailed c
  if p.typ.isReply then s else s.replyErr p 0x20 0

/-- A request served by the core that its router backs: taken from the fabric once the interface accepts it, and handed
on after the packet check, the destination check and the reset check. -/
def State.serve (s : State) (id : Nat) (typ : PacketType) (f : Lcn → Packet → State → State) : State :=
  match s.atDest id typ with
  | none => s
  | some p =>
    match if p.toBlock then none else s.servingCore p.pos with
    | none => s
    | some c =>
      if !s.accepts c p then s
      else
        let s := s.dropPacket id
        if !p.good then s.badPacket c p
        else if p.dst ≠ c then (s.addSat F.FAB_NICHK_MISROUTE F.FAB_NICHK_SAT 1 c.toNat).replyErr p 6 0
        else if s.inReset c p then s.reply p p.pos .rstr 0 0 0 0
        else f c p s

/-- A GATED error of an access to a core's memory or window (02 R89, 18 R611). -/
def State.gatedCore (s : State) (c : Lcn) (p : Packet) : State :=
  (s.gatedError (blockOffset .core c.toNat)).replyErr p 8 0

/-- A request to a core's memory, tacks or bobbins: refused outside the partition of its sender's logical device, and
GATED while the core's clocks are off (07 R259, 02 R89). -/
def State.guarded (s : State) (c : Lcn) (p : Packet) (f : State → State) : State :=
  if !s.inPartition p.ld (fieldOf c) then s.replyErr p 2 0
  else if !s.clocked c then s.gatedCore c p
  else f s

/-- A reply received by the core it is for: taken from the fabric, checked, its mark and its window noted. -/
def State.receive (s : State) (id : Nat) (typ : PacketType) (f : Lcn → Packet → State → State) : State :=
  match s.atDest id typ with
  | none => s
  | some p =>
    match s.servingCore p.pos with
    | none => s
    | some c =>
      let s := s.dropPacket id
      if (s.core c).absorbing then s
      else if !p.good then s.badPacket c p
      else f c p ((s.windowReply p).pumpFor p)

/-! ### The end of a tag -/

/-- A late reply: discarded and counted; it frees a tag that a core reset left behind (02 R78, 08 R299, 16 R574). -/
def State.lateReply (s : State) (c : Lcn) (p : Packet) : State :=
  let g := s.tagAt c p.tag
  let s := s.addSat F.CORE_STAT_LATE_RESP F.CORE_STAT_LATE_SAT 1 c.toNat
  if g.st = .orphan ∧ g.gen = (p.gen + 1) % 16 then s.setTag c p.tag { gen := g.gen } else s

/-- A tag's operation went to the core that a reply names as its source (08 R299). -/
def Tag.wentTo (g : Tag) (src : Lcn) : Bool := g.dst == src || g.others.contains src.toNat

/-- The held tag that a reply answers: the number, the generation and the destination match (08 R299). -/
def State.answered (s : State) (c : Lcn) (p : Packet) : Option Tag :=
  let g := s.tagAt c p.tag
  if g.st = .held ∧ g.gen = p.gen ∧ g.wentTo p.src = true ∧ p.dst = c then some g else none

/-- A tag's operation ends: the tag is free, and what waited for it goes on: packets in the interface, and stalled threads. -/
def State.endTag (s : State) (c : Lcn) (n : Nat) : State := ((s.setTag c n (s.tagAt c n).release).pump c).settle c

/-- A reply to a thread's operation: handed on with its tag, or late. -/
def State.answer (s : State) (c : Lcn) (p : Packet) (f : Tag → State → State) : State :=
  match s.answered c p with
  | some g => f g (s.endTag c p.tag)
  | none => s.lateReply c p

end Sys2Proof.Machine
end

