-- ==== Sys2Proof/Machine/Tack.lean ====
section
/-!
DEFINITION. The tack class 0x7: signals, waits and loads, and the tack points of full redundancy
(03 R127 to R129; 09 R366 to R369; 15 R559, R560).
-/

namespace Sys2Proof.Machine

/-- The trap of a signal: its target is a gusset core (03 Table 3.13). A signal names a core and no address, so ADDR of its
traps is 0 (DESIGN CHOICE, log entry 46). -/
def signalTrap (target : Lcn) (pc : Nat) : Option TrapInfo :=
  firstTrap [(isGusset target, { cause := 4, sub := 0, pc, info := target.toNat })]

/-- The argument of a TSIG packet (08 Table 8.3). -/
def tsigArg (tack : Fin 32) (v : BitVec 32) : Nat := tack.val + v.toNat * 2 ^ 32

/-! ### The partner's digest (15 R559) -/

/-- The oldest tack point of a thread that waits for its partner's digest: its tag's number and what it holds. -/
def Core.waitingPoint (k : Core) (t : Fin 4) :
    Option (Nat × Tag × Fin 32 × Bool × BitVec 32 × Lcn × BitVec 64) :=
  (k.heldTags.filterMap fun e => match e.2.op with
    | .tackPoint tack set v target (some d) =>
      if e.2.thread = t then some (e.1, e.2, tack, set, v, target, d) else none
    | _ => none).foldl
      (fun (b : Option (Nat × Tag × Fin 32 × Bool × BitVec 32 × Lcn × BitVec 64)) e => match b with
        | none => some e
        | some f => if e.2.1.pkt < f.2.1.pkt then some e else b) none

/-- The partner's digest meets a tack point. Where the two are equal the signal is applied, the digest returns to zero and the
tag is free; where they differ the thread takes the access-error trap and the core counts a failure with cause 8. -/
def State.meetDigest (s : State) (c : Lcn) (t : Fin 4)
    (w : Nat × Tag × Fin 32 × Bool × BitVec 32 × Lcn × BitVec 64) (body : Nat) : State :=
  let (n, g, tack, set, v, target, ours) := w
  if ours = BitVec.ofNat 64 body then
    let s := s.signal target tack set v 0 (threadId c t)
    (s.setThread c t { s.thread c t with digest := 0 }).endTag c n
  else
    let s := s.addMax F.INT_DUPSTAT_MISMATCH 1 c.toNat
    let s := (s.endTag c n).countFailure c 8 0
    s.trapResponse c t (g.trapInfo 5 0 0x22)

/-- A digest that has waited for its tack point in the interface meets it. -/
def State.meetEarly (s : State) (c : Lcn) (t : Fin 4) : State :=
  match (s.core c).digests.find? fun p => decide (p.sth = t), (s.core c).waitingPoint t with
  | some p, some w =>
    (s.setCore c { s.core c with digests := (s.core c).digests.erase p }).meetDigest c t w p.body
  | _, _ => s

/-- A tack point of full redundancy: the signal joins the digest, which goes to the partner core under a held tag
(15 R559). -/
def State.tackPoint (s : State) (x : Issue) (th : Thread) (tack : Fin 32) (set : Bool) (v : BitVec 32) (target : Lcn)
    (f : Bool) : State :=
  let c := x.core
  let s := s.foldDigest c x.thread 4 target.toNat tack.val v.toNat 4
  let digest := (s.thread c x.thread).digest
  let reached := s.reachedLcn c target
  let partner : Lcn := BitVec.ofNat 20 (s.get F.INT_DUPSTAT_PARTNER c.toNat)
  let (s, tag, gen) :=
    s.takeTag c x.thread th.pc 0 (.tackPoint tack set v reached (some digest)) reached.toNat [] partner
  (s.send { s.coreRequest x .tsig target tag gen with
    rt := s.routeTarget partner, dst := partner, opc := 8, f, arg := tsigArg tack v, flits := 1,
    body := digest.toNat }).meetEarly c x.thread

/-- A signal that a core sends, counted by the ends of its active pattern: the pops of an in end are the signals to the
credit tack of its peer, the pushes of an out end those to the fill tack of its peer (10 R392). -/
def State.countSignal (s : State) (c target : Lcn) (tack : Fin 32) (v : BitVec 32) : State :=
  let u := c.toNat
  let hit (e : Nat) : Bool :=
    s.flag F.CORE_QENDe_A_VALID u e && s.get F.CORE_QENDe_A_PEER u e == target.toNat &&
      (if s.flag F.CORE_QENDe_A_ROLE u e then s.get F.CORE_QENDe_A_FTACK u e else s.get F.CORE_QENDe_A_CTACK u e) ==
        tack.val
  match (List.range 8).filter hit with
  | [] => s
  | l =>
    s.setCore c { s.core c with
      ends := l.foldl (fun m e => mset 0 m e ((mget 0 m e + v.toNat) % 2 ^ 32)) (s.core c).ends }

/-- A signal of a thread: on its own core at once and without a tag, on another core by a TSIG packet, and in a DUP cut
order at a tack point (03 R127, R129; 15 R559). -/
def State.tsig (s : State) (x : Issue) (tack : Fin 32) (set : Bool) (rs1 : Fin 32) (rs2 : Option (Fin 32)) (f : Bool) :
    State :=
  let c := x.core
  let target (th : Thread) : Lcn := match rs2 with
    | none => s.seenLcn c
    | some r => (th.readS r).truncate 20
  let dup := s.flag F.INT_DUPSTAT_DUP c.toNat
  let own (th : Thread) : Bool := target th == s.seenLcn c
  let th := s.thread c x.thread
  let stall := if (signalTrap (target th) th.pc).isSome || (own th && !dup) then none else s.tagStall c x.thread
  let regs : List RegRef := match rs2 with
    | none => [.s rs1]
    | some r => [.s rs1, .s r]
  s.issue x 4 regs stall fun th s =>
    let v : BitVec 32 := (th.readS rs1).truncate 32
    match signalTrap (target th) th.pc with
    | some r => .trap r
    | none =>
      let s := if set then s else s.countSignal c (target th) tack v
      if dup then .done (s.tackPoint x th tack set v (target th) f) (th.pc + 4)
      else if own th then .done (s.signal c tack set v 0 (threadId c x.thread)) (th.pc + 4)
      else
        let (s, tag, gen) := s.takeTag c x.thread th.pc 0 .tsig (s.reachedLcn c (target th)).toNat
        .done (s.send { s.coreRequest x .tsig (target th) tag gen with opc := bit set, f, arg := tsigArg tack v })
          (th.pc + 4)

/-- TSIG_ADD. -/
def execTsigAdd (x : Issue) (tack rs1 : Fin 32) (s : State) : Out := .next (s.tsig x tack false rs1 none false)

/-- TSIG_SET. -/
def execTsigSet (x : Issue) (tack rs1 : Fin 32) (s : State) : Out := .next (s.tsig x tack true rs1 none false)

/-- TSIG_ADD_R. -/
def execTsigAddR (x : Issue) (tack rs1 rs2 : Fin 32) (f : Bool) (s : State) : Out :=
  .next (s.tsig x tack false rs1 (some rs2) f)

/-- TSIG_SET_R. -/
def execTsigSetR (x : Issue) (tack rs1 rs2 : Fin 32) (f : Bool) (s : State) : Out :=
  .next (s.tsig x tack true rs1 (some rs2) f)

/-- A thread has begun to wait on a tack: its count of such cc runs where a valid end names the tack (10 R408). -/
def State.tickWait (s : State) (c : Lcn) (t : Fin 4) (tack : Nat) : State :=
  let u := c.toNat
  if (List.range 8).any fun e => s.flag F.CORE_QENDe_A_VALID u e &&
      (s.get F.CORE_QENDe_A_FTACK u e == tack || s.get F.CORE_QENDe_A_CTACK u e == tack) then
    (s.tick F.CORE_PAT_THSTALLn_QWAIT_CC u t.val).tick F.CORE_PAT_THSTALLn_SAT u t.val
  else s

/-- A wait: it falls through where its condition holds, and otherwise the thread enters WAITING (03 R128). -/
def State.twait (s : State) (x : Issue) (tack rs1 : Fin 32) (eq : Bool) : State :=
  s.issue x 4 [.s rs1] none fun th s =>
    let w : Wait := { tack, operand := (th.readS rs1).truncate 32, eq }
    if w.holds (s.tack x.core tack) then .done s (th.pc + 4)
    else
      .done ((s.setThread x.core x.thread { th with st := .waiting, wait := some w }).tickWait x.core x.thread tack.val)
        (th.pc + 4)

/-- TWAIT_GE. -/
def execTwaitGe (x : Issue) (tack rs1 : Fin 32) (s : State) : Out := .next (s.twait x tack rs1 false)

/-- TWAIT_EQ. -/
def execTwaitEq (x : Issue) (tack rs1 : Fin 32) (s : State) : Out := .next (s.twait x tack rs1 true)

/-- TACK_LD: s[RS1] = tack[T], zero-extended. -/
def execTackLd (x : Issue) (tack rs1 : Fin 32) (s : State) : Out :=
  .next (s.issueLocal x 4 [.s rs1] fun th s => th.writeS rs1 ((s.tack x.core tack).zeroExtend 64))

/-- DUP_DIGEST_ARRIVAL: the partner's digest arrives and meets this copy's tack point; one that comes before its tack point
waits in the interface (15 R559). -/
def execDupDigestArrival (pkt : Nat) (s : State) : Out :=
  match s.atDest pkt .tsig with
  | none => .next s
  | some p =>
    .next (if p.opc ≠ 8 then s
      else s.serve pkt .tsig fun c p s =>
        match (s.core c).waitingPoint p.sth with
        | some w => s.meetDigest c p.sth w p.body
        | none => s.setCore c { s.core c with digests := (s.core c).digests ++ [p] })

end Sys2Proof.Machine
end

