-- ==== Sys2Proof/Machine/Pattern.lean ====
section
/-!
DEFINITION. Patterns: slot loads, switches, and the steering units (10 R383 to R409; 15 R536, R537).
-/

namespace Sys2Proof.Machine

/-! ### Slot images (10 Tables 10.1 to 10.4) -/

/-- The cut order of a core sets FLAGS.PATTERNS. -/
def State.usesPatterns (s : State) (c : Lcn) : Bool :=
  match s.slotOf c with
  | some (_, o) => o.desc.flags.testBit 0
  | none => false

/-- The byte address of a pattern-store slot. -/
def slotBase (c : Lcn) (slot : Nat) : Nat := c.toNat * 0x4000 + slot * 0x1000

/-- An end descriptor as its 16 bytes give it. -/
structure EndDesc where
  qnum : Nat
  out : Bool
  wide : Bool
  valid : Bool
  depth : Nat
  ftack : Nat
  ctack : Nat
  ring : Nat
  peer : Nat
  reservedZero : Bool
deriving DecidableEq, Repr

/-- The end descriptor in the low 128 bits of a number (10 Table 10.3). -/
def endDescOf (v : Nat) : EndDesc :=
  { qnum := bits v 10 0, out := v.testBit 11, wide := v.testBit 12, valid := v.testBit 15, depth := bits v 25 16,
    ftack := bits v 36 32, ctack := bits v 44 40, ring := bits v 55 48, peer := bits v 83 64,
    reservedZero := bits v 14 13 == 0 && bits v 31 26 == 0 && bits v 39 37 == 0 && bits v 47 45 == 0 &&
      bits v 63 56 == 0 && bits v 95 84 == 0 && bits v 127 96 == 0 }

/-- A steering descriptor as its 16 bytes give it (10 Table 10.4). -/
structure SteerDesc where
  ctl : Nat
  data : Nat
  valid : Bool
  out0 : Nat
  drop0 : Bool
  out1 : Nat
  drop1 : Bool
  tokbit : Nat
  reservedZero : Bool
deriving DecidableEq, Repr

/-- The steering descriptor in the low 128 bits of a number. -/
def steerDescOf (v : Nat) : SteerDesc :=
  { ctl := bits v 2 0, data := bits v 6 4, valid := v.testBit 7, out0 := bits v 10 8, drop0 := v.testBit 11,
    out1 := bits v 14 12, drop1 := v.testBit 15, tokbit := bits v 21 16,
    reservedZero := !v.testBit 3 && bits v 23 22 == 0 && bits v 127 24 == 0 }

/-- Tiles of an end's ring. -/
def EndDesc.ringTiles (d : EndDesc) : Nat := if d.wide then d.depth else (8 * d.depth + 255) / 256

/-- A pattern image by its parts: header, ends, steering descriptors, each as a number of 128 bits. -/
structure PatImage where
  header : Nat
  ends : List EndDesc
  steers : List SteerDesc
deriving DecidableEq, Repr

/-- The image that a reader of 16-byte pieces gives. -/
def patImage (read : Nat → Nat) : PatImage :=
  { header := read 0xF00
    ends := (List.range 8).map fun e => endDescOf (read (0xF10 + 16 * e))
    steers := (List.range 2).map fun u => steerDescOf (read (0xF90 + 16 * u)) }

/-- The image in the tiles of a core's SRAM from a first tile on. -/
def State.sramImage (s : State) (c : Lcn) (src : Nat) : PatImage :=
  patImage fun o => s.readSram c (src * 256 + o) 16

/-- The image in a slot of a core's pattern store; unwritten bytes read as ones (02 R69). -/
def State.slotImage (s : State) (c : Lcn) (slot : Nat) : PatImage :=
  patImage fun o => readLE s.patStore 0xFF (slotBase c slot + o) 16

/-- START and ENTRYn of a header (10 Table 10.2). -/
def headerStarts (h : Nat) (n : Nat) : Bool := h.testBit (16 + n)
def headerEntry (h : Nat) (n : Nat) : Nat := bits h (47 + 16 * n) (32 + 16 * n)

/-- The header passes check 4 of 10 Table 10.5. -/
def headerOk (h : Nat) : Bool :=
  bits h 31 24 == 1 && bits h 23 20 == 0 && bits h 127 96 == 0 &&
    (List.range 4).all fun n =>
      let e := headerEntry h n
      if headerStarts h n then decide (0x1000 ≤ e) && decide (e ≤ 0x1EFC) && e % 4 == 0 else true

/-- Every two entries of a list meet a condition. -/
def allPairs {α : Type} (f : α → α → Bool) : List α → Bool
  | [] => true
  | x :: l => l.all (f x) && allPairs f l

/-- Two ends name overlapping rings. The two ends of one queue name one ring (log entry 29). -/
def EndDesc.ringsMeet (a b : EndDesc) : Bool :=
  a.qnum != b.qnum && rangesMeet (a.ring, a.ringTiles) (b.ring, b.ringTiles)

/-- The ends pass check 5 of 10 Table 10.5; `q` is the cut order's core count. -/
def endsOk (q : Nat) (ends : List EndDesc) : Bool :=
  let valid := ends.filter fun d => d.valid
  (valid.all fun d => decide (1 ≤ d.depth) && d.reservedZero && decide (d.peer < q) &&
      decide (d.ring + d.ringTiles ≤ 256)) &&
    allPairs (fun a b => !a.ringsMeet b && (a.qnum != b.qnum || a.out != b.out)) valid

/-- One steering descriptor keeps 10 R386: its ends are valid, CTL and DATA are in ends, CTL has 8-byte entries, and each
output that is not dropped is an in end of its own core, of DATA's entry size, and no other end of the unit. -/
def steerOk (own : Nat) (ends : List EndDesc) (d : SteerDesc) : Bool :=
  let at_ (i : Nat) : EndDesc := (ends[i]?).getD (endDescOf 0)
  let output (o other : Nat) (otherDrop : Bool) : Bool :=
    let e := at_ o
    e.valid && !e.out && e.peer == own && e.wide == (at_ d.data).wide && o != d.ctl && o != d.data &&
      (otherDrop || o != other)
  d.reservedZero && (at_ d.ctl).valid && (at_ d.data).valid && !(at_ d.ctl).out && !(at_ d.data).out &&
    !(at_ d.ctl).wide && (d.drop0 || output d.out0 d.out1 d.drop1) &&
    (d.drop1 || output d.out1 d.out0 d.drop0)

/-- The ends a steering unit uses. -/
def SteerDesc.uses (d : SteerDesc) : List Nat :=
  [d.ctl, d.data] ++ (if d.drop0 then [] else [d.out0]) ++ if d.drop1 then [] else [d.out1]

/-- The steering descriptors pass check 6 of 10 Table 10.5. -/
def steersOk (own : Nat) (i : PatImage) : Bool :=
  let valid := i.steers.filter fun d => d.valid
  (valid.all (steerOk own i.ends)) && allPairs (fun a b => a.uses.all fun e => !b.uses.contains e) valid

/-! ### Slot loads (10 R387) -/

/-- The place of a core among the cores of its cut order. -/
def CutOrder.indexOf (o : CutOrder) (c : Nat) : Nat := o.cores.findIdx fun k => k == c

/-- The core index of a core of a cut order; a shadow has that of its primary. -/
def CutOrder.coreIndex (o : CutOrder) (c : Lcn) : Nat :=
  let i := o.indexOf c.toNat
  if i < o.cores.length then i else o.indexOf (c.toNat ^^^ 0x80000)

/-- The lowest error of a load request (10 Table 10.5). -/
def State.loadError (s : State) (c : Lcn) (src slot : Nat) : Option Nat :=
  let u := c.toNat
  let k := s.core c
  let i := s.sramImage c src
  match s.slotOf c with
  | none => some 1
  | some (_, o) =>
    if !o.desc.flags.testBit 0 then some 1
    else if 255 < src + 15 then some 2
    else if (s.flag F.CORE_PAT_STAT_ACT u && s.get F.CORE_PAT_STAT_ACTIVE u == slot) ||
        (k.loads.any fun l => l.slot == slot) || (match k.switch with | some w => w.slot == slot | none => false) then
      some 3
    else if !headerOk i.header then some 4
    else if !endsOk o.cores.length i.ends then some 5
    else if !steersOk (o.coreIndex c) i then some 6
    else none

/-- A load ends: its error, LDONE, and its tack (10 R387, 09 Table 9.4). -/
def State.endLoad (s : State) (c : Lcn) (tack err : Nat) : State :=
  ((s.put F.CORE_PAT_STAT_LERR err c.toNat).put F.CORE_PAT_STAT_LDONE 1 c.toNat).signal c (Fin.ofNat 32 tack) false 1 1 0

/-- A write of CORE_PAT_LOAD. -/
def State.writePatLoad (s : State) (c : Lcn) (v : Nat) : State :=
  let u := c.toNat
  let s := s.writePlain .CORE_PAT_LOAD u 0 v
  if !v.testBit 63 then s
  else
    let src := s.get F.CORE_PAT_LOAD_SRC u
    let slot := s.get F.CORE_PAT_LOAD_SLOT u
    let tack := s.get F.CORE_PAT_LOAD_TACK u
    match s.loadError c src slot with
    | some e => s.endLoad c tack e
    | none =>
      let s := s.putBit F.CORE_PAT_STAT_VALID slot false u
      s.setCore c { s.core c with loads := (s.core c).loads ++ [{ slot, src, tack }] }

/-- PATTERN_LOAD. -/
def execPatternLoad (c : Lcn) (v : Word) (s : State) : Out :=
  .next (s.ifWindow .CORE_PAT_LOAD c 0 fun s => s.writePatLoad c v.toNat)

/-- Bytes written to the pattern store, with good parity. -/
def State.writePattern (s : State) (a v n : Nat) : State :=
  { s with
    patStore := writeLE s.patStore 0xFF a v n
    patBad := s.patBad.filter fun w => !(decide (a / 4 ≤ w) && decide (w < (a + n + 3) / 4)) }

/-- A slot's tiles copied; a tile whose check fails leaves the slot's bytes as they were (09 R376). -/
def State.copySlot (s : State) (c : Lcn) (l : PatLoad) : State :=
  (List.range 16).foldl (fun s k =>
    if s.tileGood c (l.src + k) then
      s.writePattern (slotBase c l.slot + 256 * k) (s.readTile c (l.src + k)).toNat 256
    else (s.tileFailed c (l.src + k) 2).put F.SPL_STAT_FAIL 1 c.toNat) s

/-- Each valid PEER of a slot rewritten by a function. -/
def State.rewritePeers (s : State) (c : Lcn) (slot : Nat) (f : Nat → Nat) : State :=
  (s.slotImage c slot).ends.zipIdx.foldl (fun s e =>
    if e.1.valid then s.writePattern (slotBase c slot + 0xF10 + 16 * e.2 + 8) (f e.1.peer) 4 else s) s

/-- PATTERN_LOAD_DONE: the oldest load of the core ends: the slot is copied, its PEERs take the logical core numbers of
the rank table, VALID and LDONE are set and the tack is signalled. -/
def execPatternLoadDone (c : Lcn) (s : State) : Out :=
  match (s.core c).loads with
  | [] => .next s
  | l :: rest =>
    let s := s.setCore c { s.core c with loads := rest }
    let s := s.copySlot c l
    let cores := match s.slotOf c with
      | some (_, o) => o.cores
      | none => []
    let s := s.rewritePeers c l.slot fun i => (cores[i]?).getD 0
    .next ((s.putBit F.CORE_PAT_STAT_VALID l.slot true c.toNat).endLoad c l.tack 0)

/-! ### Switches (10 R396 to R404) -/

/-- A switch request (10 R396, R404). -/
def State.requestSwitch (s : State) (c : Lcn) (slot : Nat) (force cued : Bool) : State :=
  let u := c.toNat
  let k := s.core c
  let busy := k.switch.isSome
  if !s.usesPatterns c || !(s.get F.CORE_PAT_STAT_VALID u).testBit slot || (k.loads.any fun l => l.slot == slot) ||
      busy then
    let s := s.put F.CORE_PAT_STAT_REJ 1 u
    if cued && busy then s.addMax F.CORE_PAT_STAT_CUEREJ 1 u else s
  else s.setCore c { k with switch := some { slot, force, cued } }

/-- A write of CORE_PAT_CTL. -/
def State.writePatCtl (s : State) (c : Lcn) (v : Nat) : State :=
  let s := s.writePlain .CORE_PAT_CTL c.toNat 0 v
  if v.testBit 63 then
    s.requestSwitch c (s.get F.CORE_PAT_CTL_SLOT c.toNat) (s.flag F.CORE_PAT_CTL_FORCE c.toNat) false
  else s

/-- SWITCH_REQUEST. -/
def execSwitchRequest (c : Lcn) (v : Word) (s : State) : Out :=
  .next (s.ifWindow .CORE_PAT_CTL c 0 fun s => s.writePatCtl c v.toNat)

/-- A thread is STOPPED and holds no tag. -/
def State.atRest (s : State) (c : Lcn) (t : Fin 4) : Bool :=
  (s.thread c t).st == .stopped && (s.core c).heldBy t == 0

/-- Every condition of 10 R397 holds. -/
def State.drained (s : State) (c : Lcn) (w : PatSwitch) : Bool :=
  let u := c.toNat
  let h := (s.slotImage c w.slot).header
  (allThreads.all fun t =>
      let pc := (s.thread c t).pc
      (!headerStarts h t.val && !(decide (0x1000 ≤ pc) && decide (pc ≤ 0x1FFC))) || s.atRest c t) &&
    (w.force || (((List.range 8).all fun e => !s.flag F.CORE_QENDe_A_VALID u e || s.endCount c e == 0) &&
      (List.range 2).all fun n => !s.flag F.CORE_STEERu_A_BUSY u n))

/-- The slot copied into the pattern window with its parity bits (10 Table 10.6, 15 R537). -/
def State.copyWindow (s : State) (c : Lcn) (slot : Nat) : State :=
  let from_ := slotBase c slot
  let dest := c.toNat * 0x2000 + 0x1000
  { s with
    istore := writeLE s.istore 0xFF dest (readLE s.patStore 0xFF from_ 0x1000) 0x1000
    istoreBad := (s.istoreBad.filter fun w => !(decide (dest / 4 ≤ w) && decide (w < dest / 4 + 0x400))) ++
      ((s.patBad.filter fun w => decide (from_ / 4 ≤ w) && decide (w < from_ / 4 + 0x400)).map fun w =>
        w - from_ / 4 + dest / 4) }

/-- One end set up: its registers, and the tacks it names on this core, which an end of the core's own queue names both
(10 Table 10.6, R398). -/
def State.setUpEnd (s : State) (c : Lcn) (e : Nat) (d : EndDesc) : State :=
  let u := c.toNat
  let s := ((((((((s.put F.CORE_QENDe_A_QNUM d.qnum u e).put F.CORE_QENDe_A_ROLE (bit d.out) u e).put
    F.CORE_QENDe_A_ESIZE (bit d.wide) u e).put F.CORE_QENDe_A_VALID (bit d.valid) u e).put F.CORE_QENDe_A_DEPTH d.depth
    u e).put F.CORE_QENDe_A_FTACK d.ftack u e).put F.CORE_QENDe_A_CTACK d.ctack u e).put F.CORE_QENDe_A_RING d.ring u
    e).put F.CORE_QENDe_A_PEER d.peer u e
  let own := d.peer == (s.seenLcn c).toNat
  if !d.valid then s
  else
    let s := ((s.tick F.CORE_QENDe_B_WAIT_CC u e).tick F.CORE_QENDe_B_HELD_CC u e).tick F.CORE_QENDe_B_SAT u e
    let s := if !d.out || own then s.signal c (Fin.ofNat 32 d.ftack) true 0 2 0 else s
    if d.out || own then s.signal c (Fin.ofNat 32 d.ctack) true (BitVec.ofNat 32 d.depth) 2 0 else s

/-- One steering unit set up. -/
def State.setUpSteer (s : State) (c : Lcn) (n : Nat) (d : SteerDesc) : State :=
  let u := c.toNat
  let s := if d.valid then
      ((s.tick F.CORE_STEERu_B_WAIT_IN u n).tick F.CORE_STEERu_B_WAIT_OUT u n).tick F.CORE_STEERu_B_SAT u n
    else s
  ((((((((((s.put F.CORE_STEERu_A_CTL d.ctl u n).put F.CORE_STEERu_A_DATA d.data u n).put F.CORE_STEERu_A_OUT0 d.out0 u
    n).put F.CORE_STEERu_A_DROP0 (bit d.drop0) u n).put F.CORE_STEERu_A_OUT1 d.out1 u n).put F.CORE_STEERu_A_DROP1
    (bit d.drop1) u n).put F.CORE_STEERu_A_TOKBIT d.tokbit u n).put F.CORE_STEERu_A_VALID (bit d.valid) u n).put
    F.CORE_STEERu_A_BUSY 0 u n).put F.CORE_STEERu_A_PAIRS 0 u n).putBit F.INT_CSUMSTAT_STEER_HALT n false u

/-- The threads of START start at their entries with their registers as they are (10 R398). -/
def State.startPattern (s : State) (c : Lcn) (h : Nat) : State :=
  allThreads.foldl (fun s t =>
    if headerStarts h t.val then
      s.setThread c t { s.thread c t with st := .running, pc := headerEntry h t.val, stall := 0 }
    else s) s

/-- Cycles 0 to 255 of 10 Table 10.6 begin: the slot goes into the pattern window, which cannot be read until they end. -/
def State.beginSwitch (s : State) (c : Lcn) (w : PatSwitch) : State :=
  let s := s.copyWindow c w.slot
  s.setCore c { s.core c with switch := some { w with running := true } }

/-- Cycles 256 to 300: the ends, the steering units and the threads of the new pattern. -/
def State.endSwitch (s : State) (c : Lcn) (w : PatSwitch) (late : Bool) : State :=
  let u := c.toNat
  let i := s.slotImage c w.slot
  let s := s.setCore c { s.core c with switch := none, ends := [], steer := [] }
  let s := i.ends.zipIdx.foldl (fun s e => s.setUpEnd c e.2 e.1) s
  let s := i.steers.zipIdx.foldl (fun s e => s.setUpSteer c e.2 e.1) s
  let s := s.startPattern c i.header
  let s := (s.tick F.CORE_PAT_SWCC_LAST_WAIT u).tick F.CORE_PAT_SWCC_MAX_WAIT u
  let s := ((s.put F.CORE_PAT_STAT_ACTIVE w.slot u).put F.CORE_PAT_STAT_ACT 1 u).addWrap F.CORE_PAT_STAT_SWITCHES 1 u
  let s := if w.force then s.put F.CORE_PAT_STAT_FORCED 1 u else s
  if w.cued && late then s.put F.CORE_PAT_STAT_LATE 1 u else s

/-- SWITCH_RUN: where the drain conditions of the pending switch hold, the switch begins to run; the next SWITCH_RUN finds its
first 256 cycles over and ends it (10 R397, R399, Table 10.6). `late` tells that a cued switch missed the bound of 10 R402. -/
def execSwitchRun (c : Lcn) (late : Bool) (s : State) : Out :=
  match (s.core c).switch with
  | none => .next s
  | some w =>
    if !(s.clocked c && s.backed c) then .next s
    else if w.running then .next (s.endSwitch c w late)
    else .next (if s.drained c w then s.beginSwitch c w else s)

/-! ### Steering units (10 R393 to R395) -/

/-- A signal of an engine of a core: a TSIG packet with thread number 0 and no tag (10 R394). -/
def State.engineSignal (s : State) (c target : Lcn) (tack : Nat) : State :=
  let s := s.countSignal c target (Fin.ofNat 32 tack) 1
  let d := s.reachedLcn c target
  s.send { id := 0, typ := .tsig, rt := s.routeTarget d, dst := d, src := c, pos := s.routeTarget c, ld := s.ldOf c,
           arg := tsigArg (Fin.ofNat 32 tack) 1, sender := .engine, fence := d.toNat }

/-- The own-SRAM offset of entry `n` of an end's ring (10 Table 10.3). -/
def State.endEntry (s : State) (c : Lcn) (e n : Nat) : Nat :=
  let u := c.toNat
  256 * s.get F.CORE_QENDe_A_RING u e +
    (if s.flag F.CORE_QENDe_A_ESIZE u e then 256 else 8) * (n % max 1 (s.get F.CORE_QENDe_A_DEPTH u e))

/-- A steering unit stops at a bad entry (15 R536). -/
def State.haltSteer (s : State) (c : Lcn) (n : Nat) (w : SteerUnit) : State :=
  let s := s.putBit F.INT_CSUMSTAT_STEER_HALT n true c.toNat
  s.setCore c { s.core c with steer := putKey (s.core c).steer n { w with halted := true } }

/-- Step 4 of 10 R393: the credits of CTL and DATA, and the next pair. -/
def State.steerCredits (s : State) (c : Lcn) (n : Nat) (w : SteerUnit) : State :=
  let u := c.toNat
  let credit (s : State) (e : Nat) : State :=
    s.engineSignal c (BitVec.ofNat 20 (s.get F.CORE_QENDe_A_PEER u e)) (s.get F.CORE_QENDe_A_CTACK u e)
  let s := credit (credit s (s.get F.CORE_STEERu_A_CTL u n)) (s.get F.CORE_STEERu_A_DATA u n)
  let s := (s.put F.CORE_STEERu_A_BUSY 0 u n).addWrap F.CORE_STEERu_A_PAIRS 1 u n
  s.setCore c { s.core c with steer := mset {} (s.core c).steer n { w with n := w.n + 1 } }

/-- Step 3 of 10 R393: DATA entry n copied into the output's next place and its fill tack signalled; the unit waits, busy,
while the output has no credit. -/
def State.steerForward (s : State) (c : Lcn) (n : Nat) (w : SteerUnit) (out : Nat) (one : Bool) : State :=
  let u := c.toNat
  let pushes := if one then w.out1 else w.out0
  let credit : Wait :=
    { tack := Fin.ofNat 32 (s.get F.CORE_QENDe_A_CTACK u out), operand := BitVec.ofNat 32 (pushes + 1), eq := false }
  if !credit.holds (s.tack c credit.tack) then s.put F.CORE_STEERu_A_BUSY 1 u n
  else
    let data := s.get F.CORE_STEERu_A_DATA u n
    let off := s.endEntry c data w.n
    let dest := s.endEntry c out pushes
    if !s.tileGood c (off / 256) then (s.tileFailed c (off / 256) 3).haltSteer c n w
    else
      let (ok, s) :=
        if s.flag F.CORE_QENDe_A_ESIZE u data then (true, s.writeTile c (dest / 256 % 256) (s.readTile c (off / 256)))
        else s.writePart c dest (s.readSram c off 8) 8
      if !ok then s.haltSteer c n w
      else
        let s := s.engineSignal c (s.seenLcn c) (s.get F.CORE_QENDe_A_FTACK u out)
        s.steerCredits c n (if one then { w with out1 := pushes + 1 } else { w with out0 := pushes + 1 })

/-- STEER_PAIR: a steering unit joins the next token with the next data entry and forwards or drops the data. -/
def execSteerPair (c : Lcn) (unit : Fin 2) (s : State) : Out :=
  let u := c.toNat
  let n := unit.val
  let w : SteerUnit := mget {} (s.core c).steer n
  let ctl := s.get F.CORE_STEERu_A_CTL u n
  let data := s.get F.CORE_STEERu_A_DATA u n
  if !(s.backed c && s.clocked c && s.flag F.CORE_STEERu_A_VALID u n && !w.halted) || s.darnHeld c || s.draining c then
    .next s
  else if s.endCount c ctl == 0 || s.endCount c data == 0 then .next s
  else
    let off := s.endEntry c ctl w.n
    if !s.tileGood c (off / 256) then .next ((s.tileFailed c (off / 256) 3).haltSteer c n w)
    else
      let token := (s.readSram c off 8).testBit (s.get F.CORE_STEERu_A_TOKBIT u n)
      let drop := if token then s.flag F.CORE_STEERu_A_DROP1 u n else s.flag F.CORE_STEERu_A_DROP0 u n
      let out := if token then s.get F.CORE_STEERu_A_OUT1 u n else s.get F.CORE_STEERu_A_OUT0 u n
      .next (if drop then s.steerCredits c n w else s.steerForward c n w out token)

end Sys2Proof.Machine
end

