-- ==== Sys2Proof/Machine/Sum.lean ====
section
/-!
DEFINITION. In-network sums at their merge and root nodes (08 R319 to R325).
-/

namespace Sys2Proof.Machine

/-- The core's contribution buffers and owed answers replaced. -/
def State.setSums (s : State) (c : Lcn) (sums : PMap Packet) (owed : PMap (List Packet)) : State :=
  s.setCore c { s.core c with sums, owed }

/-- A contribution taken at a node: no entry for its tree, another step, or its side's buffer (08 R321). -/
def State.takeContribution (s : State) (c : Lcn) (p : Packet) : State :=
  match s.treeEntry c (p.arg % 65536) false with
  | none => s.replyErr p 7 0
  | some n =>
    if s.get F.FAB_TREEn_B_STEP c.toNat n ≠ bits p.arg 63 32 then s.replyErr p 3 0
    else
      let k := s.core c
      s.setSums c (putKey k.sums (2 * n + bits p.arg 16 16) p) k.owed

/-- NSUM_PACKET: a contribution arrives at a merge or root node; nothing but full landing slots holds it back (08 R324, 09
R351). -/
def execNsumPacket (pkt : Nat) (s : State) : Out :=
  .next (s.serve pkt .nsum fun c p s => s.takeContribution c p)

/-- The acknowledgement of a contribution (08 R322). -/
def State.replySum (s : State) (c : Lcn) (p : Packet) : State :=
  s.reply p (s.routeTarget c) .nsuma 0 p.arg 0 0

/-- The contributions that a node holds, left first, when they are all there. -/
def State.children (s : State) (c : Lcn) (n : Nat) : Option (List Packet) :=
  let l := findKey (s.core c).sums (2 * n)
  let r := findKey (s.core c).sums (2 * n + 1)
  if s.flag F.FAB_TREEn_A_NCHILD c.toNat n then
    match l, r with
    | some a, some b => some [a, b]
    | _, _ => none
  else match l, r with
    | some a, _ => some [a]
    | none, some b => some [b]
    | none, none => none

/-- Two tiles added elementwise as tadd adds them with RM 0 (04 R164, 08 R323). -/
def addTiles (fmt : Nat) (a b : Tile) : Tile × TFlags :=
  let l := elemPairs fmt a b
  match fpOf fmt with
  | some f =>
    let r := l.map fun e =>
      let x := f.decode e.2.1
      let y := f.decode e.2.2
      let v := f.encode false 0 0 (sumNums [x.1, y.1])
      (v.1, { v.2 with flush := v.2.flush || x.2 || y.2 })
    (packTile fmt (r.map (·.1)), r.foldl (fun f e => f.or e.2) {})
  | none => (packTile fmt (l.map fun e => (e.2.1 + e.2.2) % 2 ^ fmtWidth fmt), {})

/-- The sum of a node: the two tiles elementwise as tadd adds with RM 0, or the single child (08 R321, R323). -/
def sumTiles (fmt : Nat) (l : List Packet) : Tile × TFlags :=
  match l with
  | [a, b] => addTiles fmt (BitVec.ofNat 2048 a.body) (BitVec.ofNat 2048 b.body)
  | a :: _ => (BitVec.ofNat 2048 a.body, {})
  | [] => (0, {})

/-- A root's sum written to its tile, its tack signalled and its children answered; while the core's clocks are off the write
ends GATED, nothing is signalled and the children are answered ERR 0x08 (08 R321, R322; 02 R89; log entry 32). -/
def State.writeSum (s : State) (c : Lcn) (n step : Nat) (t : Tile) (l : List Packet) : State :=
  let u := c.toNat
  if !s.clocked c then
    l.foldl (fun s p => s.replyErr { p with pos := s.routeTarget c } 8 0) (s.gatedError (blockOffset .core u))
  else
    let tile := (s.get F.FAB_TREEn_B_DST_TILE u n + step % max 1 (s.get F.FAB_TREEn_B_TILES u n)) % 256
    let s := s.writeTile c tile t
    let s := s.signal c (Fin.ofNat 32 (s.get F.FAB_TREEn_B_TACK u n)) false 1 1 0
    l.foldl (fun s p => s.replySum c p) s

/-- NSUM_MERGE_SEND: a node that holds every child forms the sum, sends it to its parent or writes it, and goes on to the
next step (08 R321, R322). -/
def execNsumMergeSend (c : Lcn) (n : Fin 16) (s : State) : Out :=
  let u := c.toNat
  match s.children c n.val with
  | none => .next s
  | some l =>
    let kind := s.get F.FAB_TREEn_A_KIND u n.val
    if !(s.backed c && (kind == 2 || kind == 3)) then .next s
    else
      let (t, fl) := sumTiles (s.get F.FAB_TREEn_A_FMT u n.val) l
      let step := s.get F.FAB_TREEn_B_STEP u n.val
      let s := s.setFlags c none fl
      let k := s.core c
      let rest := delKey (delKey k.sums (2 * n.val)) (2 * n.val + 1)
      let s := s.put F.FAB_TREEn_B_STEP (step + 1) u n.val
      if kind = 2 then
        let s := s.setSums c rest (putKey k.owed n.val l)
        let parent : Lcn := BitVec.ofNat 20 (s.get F.FAB_TREEn_A_PARENT u n.val)
        let arg := nsumArg (s.get F.FAB_TREEn_A_TREE u n.val) (s.get F.FAB_TREEn_A_SIDE u n.val) step
        .next (s.send { id := 0, typ := .nsum, rt := s.routeTarget parent, dst := parent, src := c,
                        pos := s.routeTarget c, ld := s.ldOf c, arg, flits := 32, body := t.toNat,
                        sender := .merge n.val, fence := parent.toNat })
      else .next ((s.setSums c rest k.owed).writeSum c n.val step t l)

/-- NSUMA: a sum acknowledgement frees a leaf's tag, or passes on from a merge node to its children (08 R322). -/
def execNsuma (pkt : Nat) (s : State) : Out :=
  .next (s.receive pkt .nsuma fun c p s =>
    match p.sender with
    | .merge n =>
      let k := s.core c
      (mget [] k.owed n).foldl (fun s q => s.replySum c q) (s.setSums c k.sums (delKey k.owed n))
    | _ => s.answer c p fun _ s => s)

end Sys2Proof.Machine
end

