-- ==== Sys2Proof/Machine/Ring.lean ====
section
/-!
DEFINITION. The gradient ring: setup, compression, the reduce and share phases, verdicts, and the comparison of weight
digests (12 R431 to R457; 15 R552 to R554).
-/

namespace Sys2Proof.Machine

/-! ### Places (12 R431 to R435) -/

/-- The ring of a core, with its number. -/
def State.ringOf (s : State) (c : Lcn) : Option (Nat × Ring) :=
  let j := s.get F.CORE_RING_CFG_RING c.toNat
  if s.flag F.CORE_RING_CFG_VALID c.toNat then (findKey s.rings j).map fun r => (j, r) else none

def State.setRing (s : State) (j : Nat) (r : Ring) : State := { s with rings := putKey s.rings j r }

/-- The cut order of a ring. -/
def State.ringOrder (s : State) (r : Ring) : Option CutOrder := findKey s.slots r.slot

/-- The cores of a ring, shadows included. -/
def State.ringCores (s : State) (r : Ring) : List Lcn :=
  match s.ringOrder r with
  | some o => o.allCores.map fun n => BitVec.ofNat 20 n
  | none => []

/-- The core of replica `p` at the position of a core (12 R431). -/
def State.ringPeer (s : State) (c : Lcn) (r : Ring) (p : Nat) : Lcn :=
  match s.ringOrder r with
  | some o =>
    let m := 128 * r.mseg
    s.reachedLcn c (BitVec.ofNat 20 ((o.cores[p * m + o.indexOf (s.seenLcn c).toNat % max 1 m]?).getD 0))
  | none => c

/-- The layout of a core's ring regions (12 Table 12.7). -/
structure RingLayout where
  rep : Nat
  nrep : Nat
  grad : Nat
  s : Nat
  err0 : Nat
  err1 : Nat
  inbox : Nat
  bf16 : Bool
  wts : Nat
  sw : Nat
deriving DecidableEq, Repr

def State.ringLayout (s : State) (c : Lcn) : RingLayout :=
  let u := c.toNat
  { rep := s.get F.CORE_RING_CFG_REP u, nrep := s.get F.CORE_RING_CFG_NREP u, grad := s.get F.CORE_RING_LAYOUT_GRAD u,
    s := s.get F.CORE_RING_LAYOUT_S u, err0 := s.get F.CORE_RING_LAYOUT_ERR0 u, err1 := s.get F.CORE_RING_LAYOUT_ERR1 u,
    inbox := s.get F.CORE_RING_LAYOUT_INBOX u, bf16 := s.flag F.CORE_RING_LAYOUT_EFMT u,
    wts := s.get F.CORE_RING_LAYOUT_WTS u, sw := s.get F.CORE_RING_LAYOUT_SW u }

/-- Tiles of one error buffer. -/
def RingLayout.errTiles (l : RingLayout) : Nat := if l.bf16 then (l.nrep - 1) * l.s / 2 else (l.nrep - 1) * l.s

/-- The regions of 12 Table 12.1, by first tile and count. -/
def RingLayout.regions (l : RingLayout) : List (Nat × Nat) :=
  [(l.grad, l.nrep * l.s), (l.err0, l.errTiles), (l.err1, l.errTiles), (l.inbox, (l.nrep - 1) * (l.s / 16)),
   (l.wts, l.nrep * l.sw)]

/-- The lowest layout error (12 Table 12.3). -/
def State.layoutError (s : State) (c : Lcn) : Option Nat :=
  let l := s.ringLayout c
  if !s.flag F.CORE_RING_CFG_VALID c.toNat then some 1
  else if l.s % 16 ≠ 0 ∨ l.s < 16 ∨ 128 < l.s ∨ l.sw = 0 then some 2
  else if l.regions.any fun r => decide (256 < r.1 + r.2) then some 3
  else if someMeet l.regions then some 4
  else none

/-! ### Setup (12 R431, R447) -/

/-- The deadline cue of a ring placed in the field that holds replica 0's first core, in the place of its last one. -/
def State.placeDeadline (s : State) (j : Nat) : State :=
  match findKey s.rings j with
  | none => s
  | some r =>
    match s.ringCores r with
    | [] => s
    | c :: _ =>
      let f := s.homeField c
      let s := match r.cueField with
        | some g => s.disarm g (deadlineEntry j)
        | none => s
      let arg := j + s.get F.MRK_RINGj_STAT_ATTEMPT j * 2 ^ 32
      (s.placeCue f (deadlineEntry j) 7 arg (s.get F.MRK_RINGj_DEADLINE_DL j)).setRing j { r with cueField := some f }

/-- The next digest mark of a ring: PERIOD after now (15 R552). -/
def State.placeMark (s : State) (j : Nat) : State :=
  match findKey s.rings j with
  | none => s
  | some r =>
    match s.ringCores r with
    | [] => s
    | c :: _ =>
      let f := s.homeField c
      let p := s.get F.INT_DIGEST_CFGj_PERIOD 0 j
      let s := match r.cueField with
        | some g => s.disarm g (markEntry j)
        | none => s
      if p = 0 then s else s.placeCue f (markEntry j) 6 j (s.now + p)

/-- The deadline PERIOD after now. -/
def State.nextDeadline (s : State) (j : Nat) : State :=
  s.put F.MRK_RINGj_DEADLINE_DL ((s.now + s.get F.MRK_RINGj_CFG_PERIOD j) % 2 ^ 48) j

/-- The lowest setup error of 12 Table 12.13, in the order of its codes. -/
def State.setupError (s : State) (j id nrep mseg : Nat) : Option Nat :=
  match findKey s.slots (id % 64) with
  | none => some 1
  | some o =>
    let q := (o.desc.threads + o.desc.tpc - 1) / max 1 o.desc.tpc
    if o.gen ≠ id / 64 ∨ o.st ≠ 1 then some 1
    else if q ≠ nrep * 128 * mseg ∨ nrep < 2 ∨ mseg < 1 ∨ 3840 < mseg then some 2
    else if s.get F.MRK_RINGj_STAT_STATE j ≠ 0 then some 3
    else if !o.desc.pins.isEmpty then some 4
    else if s.get F.MRK_RINGj_CFG_PERIOD j = 0 then some 5
    else none

/-- A GO write of MRK_RINGj_SETUP. -/
def State.setUpRing (s : State) (j id nrep mseg : Nat) : State :=
  match s.setupError j id nrep mseg with
  | some e => s.put F.MRK_RINGj_STAT_SETUP_ERR e j
  | none =>
    let s := (((((s.put F.MRK_RINGj_STAT_STATE 1 j).put F.MRK_RINGj_STAT_SETUP_ERR 0 j).put F.MRK_RINGj_STAT_LAST 0 j).put
      F.MRK_RINGj_STAT_RUN 0 j).put F.MRK_RINGj_STAT_ATTEMPT 0 j)
    (s.nextDeadline j).setRing j { slot := id % 64, nrep, mseg }

/-- RING_SETUP: the controlling host writes MRK_RINGj_SETUP with GO 1. -/
def execRingSetup (j : Fin 4) (id : BitVec 16) (nrep : BitVec 6) (mseg : BitVec 12) (s : State) : Out :=
  .next (if s.flag F.CLK_BLKEN_MRK then s.setUpRing j.val id.toNat nrep.toNat mseg.toNat
    else s.gatedError (regOffset .MRK_RINGj_SETUP j.val 0))

/-- The cores of a ring take their registers once Marker has placed them (12 R431, R432): CORE_RING_CFG, and ATTEMPT 0. -/
def State.placeRing (s : State) (j : Nat) : State :=
  match findKey s.rings j with
  | none => s
  | some r =>
    let m := 128 * r.mseg
    let s := (s.ringCores r).zipIdx.foldl (fun s e =>
      let u := e.1.toNat
      ((((s.put F.CORE_RING_CFG_RING j u).put F.CORE_RING_CFG_VALID 1 u).put F.CORE_RING_CFG_REP
        (e.2 % (m * r.nrep) / max 1 m) u).put F.CORE_RING_CFG_NREP r.nrep u).put F.CORE_RING_STAT_ATTEMPT
        (s.get F.MRK_RINGj_STAT_ATTEMPT j) u) s
    (s.placeDeadline j).placeMark j

/-- A ring is freed with its cut order (12 Table 12.13). -/
def State.freeRing (s : State) (slot : Nat) : State :=
  s.rings.foldl (fun s e =>
    if e.2.slot = slot then
      let s := match e.2.cueField with
        | some f => (s.disarm f (deadlineEntry e.1)).disarm f (markEntry e.1)
        | none => s
      { s.put F.MRK_RINGj_STAT_STATE 0 e.1 with rings := delKey s.rings e.1 }
    else s) s

/-! ### Compression (12 R437 to R439) -/

/-- The format of FP32 and of BF16. -/
def fp32 : Fp := ⟨8, 23, 127, .ieee, true⟩
def bf16 : Fp := ⟨8, 7, 127, .ieee, false⟩

/-- Two FP32 elements added as tadd adds with RM 0 (04 R164). -/
def add32 (a b : Nat) : Nat × TFlags :=
  let x := fp32.decode a
  let y := fp32.decode b
  let v := fp32.encode false 0 0 (sumNums [x.1, y.1])
  (v.1, { v.2 with flush := v.2.flush || x.2 || y.2 })

/-- An exact quotient rounded once into FP32 under RNE: the sum m × 2^e over n. -/
def meanOf (m n : Nat) (e : Int) : Nat × TFlags :=
  if n = 0 then (0, {})
  else
    let q := m * 2 ^ 64 / n
    fp32.round false 0 0 false (2 * q + bit (decide (m * 2 ^ 64 % n ≠ 0))) (e - 65)

/-- A compressed tile: its scale, its signs, its exceptions, its new error memory and the flags it raises. -/
structure CompTile where
  scale : Nat
  signs : List Bool
  /-- Element, infinite, negative. -/
  exceptions : List (Nat × Bool × Bool)
  errors : List Nat
  flags : TFlags
deriving DecidableEq, Repr

/-- An element's value and its flags: the gradient element plus its error memory, rounded once into FP32. -/
def feedback (ef : Fp) (g e : Nat) : Nat × TFlags :=
  let x := fp32.decode g
  let y := ef.decode e
  let v := fp32.encode false 0 0 (sumNums [x.1, y.1])
  (v.1, { v.2 with flush := v.2.flush || x.2 || y.2 })

/-- One gradient tile compressed (12 R437). -/
def compressTile (ef : Fp) (g e : List Nat) : CompTile :=
  let v := List.zipWith (feedback ef) g e
  let nums := v.map fun x => (fp32.decode x.1).1
  let finite := nums.filter Num.isFin
  let mags := finite.map fun x => if x.sign then x.neg else x
  let e0 := minExponent mags
  let scale := meanOf ((mags.map (Num.scaled e0)).sum.toNat) finite.length e0
  let signs := v.map fun x => x.1.testBit 31
  let exceptions := (nums.zipIdx.filter fun x => !x.1.isFin).map fun x => (x.2, !x.1.isNan, x.1.isInf true)
  let dec (neg : Bool) : Num := (fp32.decode (scale.1 % 2 ^ 31 + bit neg * 2 ^ 31)).1.neg
  let err := nums.map fun x => if x.isFin then ef.encode false 0 0 (sumNums [x, dec x.sign]) else (0, {})
  { scale := scale.1, signs, exceptions, errors := err.map (·.1)
    flags := (err.map (·.2)).foldl TFlags.or ((v.map (·.2)).foldl TFlags.or scale.2) }

/-- The quiet NaN that stands for the scale of a tile in an overfull block. -/
def nanScale : Nat := 0x7FC00000

/-- A tile of an overfull block: where it holds an exception, its scale is a NaN and its error memory is zero
(12 R439). -/
def CompTile.overfull (t : CompTile) : CompTile :=
  if t.exceptions.isEmpty then t
  else { t with scale := nanScale, exceptions := [], errors := t.errors.map fun _ => 0 }

/-- The 24 exception entries of a block. -/
def exceptionEntries (tiles : List CompTile) : List (Nat × Bool × Bool) :=
  tiles.zipIdx.flatMap fun t => t.1.exceptions.map fun x => (64 * t.2 + x.1, x.2)

/-- The 256 bytes of a block (12 Table 12.2). -/
def packBlock (attempt rep shard b : Nat) (tiles : List CompTile) (entries : List (Nat × Bool × Bool)) (ovf : Bool) :
    Tile :=
  let scales := packBits 32 (tiles.map (·.scale))
  let signs := packBits 64 (tiles.map fun t => packBits 1 (t.signs.map bit))
  let exc := packBits 16 (entries.map fun x => x.1 + bit x.2.1 * 2 ^ 10 + bit x.2.2 * 2 ^ 11)
  BitVec.ofNat 2048 (attempt % 2 ^ 32 + rep % 64 * 2 ^ 32 + shard % 64 * 2 ^ 40 + b % 2 ^ 16 * 2 ^ 48 +
    entries.length * 2 ^ 64 + bit ovf * 2 ^ 71 + scales * 2 ^ 128 + signs * 2 ^ 640 + exc * 2 ^ 1664)

/-! ### The reduce phase (12 R440 to R442) -/

/-- A tile that an engine of the ring unit reads: its bytes, or its number where its check fails. -/
def State.engineRead (s : State) (c : Lcn) (tile : Nat) : Except Nat Tile :=
  if s.tileGood c tile then .ok (s.readTile c tile) else .error tile

/-- The error memory of gradient tile `t` of distance `k` (12 R435). -/
def State.readError (s : State) (c : Lcn) (l : RingLayout) (base k t : Nat) : Except Nat (List Nat) :=
  let n := (k - 1) * l.s + t
  if l.bf16 then
    (s.engineRead c (base + n / 2)).map fun x => ((tileElems 7 x).drop (64 * (t % 2))).take 64
  else (s.engineRead c (base + n)).map fun x => tileElems 8 x

/-- Block `b` of the shard at distance `k`, compressed; the number of a tile whose check fails. -/
def State.compressBlock (s : State) (c : Lcn) (l : RingLayout) (base k b : Nat) : Except Nat (List CompTile) :=
  let shard := (l.rep + k) % max 1 l.nrep
  (List.range 16).foldlM (fun acc i => do
    let g ← s.engineRead c (l.grad + shard * l.s + 16 * b + i)
    let e ← s.readError c l base k (16 * b + i)
    pure (acc ++ [compressTile (if l.bf16 then bf16 else fp32) (tileElems 8 g) e])) []

/-- The new error memory of a block written to the other buffer. -/
def State.writeErrors (s : State) (c : Lcn) (l : RingLayout) (base k b : Nat) (tiles : List CompTile) : State :=
  let n := (k - 1) * l.s + 16 * b
  if l.bf16 then
    (List.range 8).foldl (fun s i =>
      let e := ((tiles.drop (2 * i)).take 2).flatMap (·.errors)
      s.writeTile c (base + n / 2 + i) (packTile 7 e)) s
  else tiles.zipIdx.foldl (fun s e => s.writeTile c (base + n + e.2) (packTile 8 e.1.errors)) s

/-- An operation of the ring unit sent: it joins the unit's operations in flight. -/
def State.ringSend (s : State) (c : Lcn) (typ : PacketType) (d : Lcn) (opc arg body : Nat) (f share : Bool) : State :=
  let s := s.setCore c { s.core c with ringOps := (s.core c).ringOps ++ [(s.fab.nextId, d.toNat, share)] }
  s.send { id := 0, typ, f, ld := s.ldOf c, rt := s.routeTarget d, dst := d, opc, src := c, arg,
           flits := if typ == .wr then 32 else 0, body, sender := .ringUnit, fence := d.toNat, pos := s.routeTarget c }

/-- A tile sent to a tile of another core. -/
def State.ringWrite (s : State) (c d : Lcn) (tile : Nat) (t : Tile) (share : Bool) : State :=
  s.ringSend c .wr d 4 (d.toNat * 65536 + tile * 256) t.toNat false share

/-- A tack of another core advanced, after every earlier operation to that core (09 R369). -/
def State.ringSignal (s : State) (c d : Lcn) (tack : Nat) (share : Bool) : State :=
  s.ringSend c .tsig d 0 (tsigArg (Fin.ofNat 32 tack) 1) 0 true share

/-- A core's report reaches the step controller. -/
def State.report (s : State) (c : Lcn) (p : RingReport) : State :=
  match s.ringOf c with
  | some (j, r) => s.setRing j { r with reports := putKey r.reports c.toNat p }
  | none => s

/-- The unit meets malformed blocks or failed tiles: it reports BAD and awaits the verdict (12 R444, 15 Table 15.2). -/
def State.reportBad (s : State) (c : Lcn) (tiles : List Nat) : State :=
  let s := tiles.foldl (fun s t => s.tileFailed c t 3) s
  let s := (s.put F.CORE_RING_STAT_BAD 1 c.toNat).put F.CORE_RING_STAT_STATE 2 c.toNat
  s.report c { bad := true, nan := 0, inf := 0 }

/-- The inbox tile of a core for block `b` at distance `d` (12 Table 12.1). -/
def RingLayout.inboxTile (l : RingLayout) (d b : Nat) : Nat := l.inbox + (d - 1) * (l.s / 16) + b

/-- One block of the reduce phase: compressed, its error memory written, sent to the inbox of its shard's owner. It tells
whether the unit goes on. -/
def State.reduceBlock (s : State) (c : Lcn) (r : Ring) (l : RingLayout) (k b : Nat) : Bool × State :=
  let u := c.toNat
  let cur := s.flag F.CORE_RING_STAT_CUR u
  let shard := (l.rep + k) % max 1 l.nrep
  match s.compressBlock c l (if cur then l.err1 else l.err0) k b with
  | .error t => (false, s.reportBad c [t])
  | .ok tiles =>
    let ovf := decide (24 < (exceptionEntries tiles).length)
    let tiles := if ovf then tiles.map CompTile.overfull else tiles
    let s := s.setFlags c none ((tiles.map (·.flags)).foldl TFlags.or {})
    let s := s.writeErrors c l (if cur then l.err0 else l.err1) k b tiles
    let s := if ovf then s.put F.CORE_RING_STAT_EXC_OVF 1 u else s
    let d := (l.rep + l.nrep - shard) % max 1 l.nrep
    let block := packBlock (s.get F.CORE_RING_STAT_ATTEMPT u) l.rep shard b tiles (exceptionEntries tiles) ovf
    let owner := s.ringPeer c r shard
    (true, s.ringWrite c owner ((s.ringLayout owner).inboxTile d b % 256) block false)

/-- The blocks of a shard and its signal. -/
def State.reduceShard (s : State) (c : Lcn) (r : Ring) (l : RingLayout) (k : Nat) : Bool × State :=
  let (ok, s) := (List.range (l.s / 16)).foldl (fun e b => if e.1 then e.2.reduceBlock c r l k b else e) (true, s)
  if ok then
    let owner := s.ringPeer c r ((l.rep + k) % max 1 l.nrep)
    (true, s.ringSignal c owner (s.get F.CORE_RING_TACKS_INBOX_TACK owner.toNat) false)
  else (false, s)

/-- A layout error: the unit stays IDLE and will not report DONE for the attempt. -/
def State.layoutFails (s : State) (c : Lcn) (e : Nat) : State :=
  (s.setCore c { s.core c with ringBarred := some (s.get F.CORE_RING_STAT_ATTEMPT c.toNat) }).put
    F.CORE_RING_STAT_ERRCODE e c.toNat

/-- The reduce phase: every non-owned shard in ascending distance. -/
def State.startReduce (s : State) (c : Lcn) : State :=
  let u := c.toNat
  match s.layoutError c, s.ringOf c with
  | some e, _ => s.layoutFails c e
  | none, none => s.layoutFails c 1
  | none, some (j, r) =>
    let s := if r.started then s else s.setRing j { r with started := true, marked := r.markNext, markNext := false }
    let l := s.ringLayout c
    ((List.range (l.nrep - 1)).foldl (fun e i => if e.1 then e.2.reduceShard c r l (i + 1) else e)
      (true, s.put F.CORE_RING_STAT_STATE 1 u)).2

/-! ### The share phase (12 R452 to R455) -/

/-- A share operation failed: SHFAIL, and the controller issues FAIL (12 R455). -/
def State.shareFailed (s : State) (c : Lcn) : State := (s.put F.CORE_RING_STAT_SHFAIL 1 c.toNat).failRingOf c

/-- The owned weight tiles sent to one peer, and its signal. -/
def State.sharePeer (s : State) (c : Lcn) (r : Ring) (l : RingLayout) (i : Nat) : State :=
  let d := s.ringPeer c r ((l.rep + i) % max 1 l.nrep)
  let s := (List.range l.sw).foldl (fun s k =>
    let t := l.wts + l.rep * l.sw + k
    if s.tileGood c t then s.ringWrite c d t (s.readTile c t) true else (s.tileFailed c t 3).shareFailed c) s
  s.ringSignal c d (s.get F.CORE_RING_TACKS_SHARE_TACK d.toNat) true

/-- The share phase: the owned weights to every other replica, in ring order. -/
def State.startShare (s : State) (c : Lcn) : State :=
  match s.ringOf c with
  | none => s.put F.CORE_RING_STAT_REJ 1 c.toNat
  | some (_, r) =>
    let l := s.ringLayout c
    (List.range (l.nrep - 1)).foldl (fun s i => s.sharePeer c r l (i + 1)) (s.put F.CORE_RING_STAT_STATE 3 c.toNat)

/-- A write of CORE_RING_CMD (12 R440, R452, Table 12.8). -/
def State.writeRingCmd (s : State) (c : Lcn) (v : Nat) : State :=
  let u := c.toNat
  let idle := s.get F.CORE_RING_STAT_STATE u == 0
  let last := s.get F.CORE_RING_STAT_VERDICT u
  if !v.testBit 63 && (bits v 1 0 == 1 || bits v 1 0 == 2) then s.writePlain .CORE_RING_CMD u 0 v
  else if !v.testBit 63 then s.put F.CORE_RING_STAT_REJ 1 u
  else if bits v 1 0 == 1 && idle && bits v 47 16 == s.get F.CORE_RING_STAT_ATTEMPT u then
    (s.writePlain .CORE_RING_CMD u 0 v).startReduce c
  else if bits v 1 0 == 2 && idle && (last == 1 || last == 2) then
    (s.writePlain .CORE_RING_CMD u 0 v).startShare c
  else s.put F.CORE_RING_STAT_REJ 1 u

/-- REDUCE: a CORE_RING_CMD write with OP REDUCE and GO 1. -/
def execReduce (c : Lcn) (attempt : BitVec 32) (s : State) : Out :=
  .next (s.ifWindow .CORE_RING_CMD c 0 fun s => s.writeRingCmd c (1 + attempt.toNat * 2 ^ 16 + 2 ^ 63))

/-- SHARE: a CORE_RING_CMD write with OP SHARE and GO 1. -/
def execShare (c : Lcn) (attempt : BitVec 32) (s : State) : Out :=
  .next (s.ifWindow .CORE_RING_CMD c 0 fun s => s.writeRingCmd c (2 + attempt.toNat * 2 ^ 16 + 2 ^ 63))

/-- An operation of a ring unit is over: a share ends with its last operation, and one that failed fails the ring
(12 R443, R454, R455). -/
def State.ringAnswer (s : State) (c : Lcn) (op : Nat) (ok : Bool) : State :=
  let k := s.core c
  match k.ringOps.find? fun o => o.1 == op with
  | none => s
  | some o =>
    let rest := k.ringOps.filter fun q => q.1 != op
    let s := s.setCore c { k with ringOps := rest }
    let s := if ok || !o.2.2 then s else s.shareFailed c
    let s := if s.get F.CORE_RING_STAT_STATE c.toNat = 3 ∧ (rest.any fun q => q.2.2) = false then
        s.put F.CORE_RING_STAT_STATE 0 c.toNat
      else s
    s.pump c

/-- A packet that belongs to an operation of a ring unit: its request, or the reply. -/
def Packet.ofRingOp (q : Packet) (c : Lcn) (op : Nat) : Bool :=
  q.sender == .ringUnit && (q.id == op && q.src == c || q.typ.isReply && q.req == op && q.dst == c)

/-- A ring unit gives an operation up: neither its packet nor a reply to it is in the fabric any more, nor counted by the unit's
window (12 R449). -/
def State.dropRingOp (s : State) (c : Lcn) (op : Nat) : State :=
  let counted := s.fab.pkts.filter fun q =>
    q.ofRingOp c op && if q.typ.isReply then q.bulk else q.injected && q.windowed
  let k := s.engineWin (512 + c.toNat)
  let s := { s with fab := { s.fab with pkts := s.fab.pkts.filter fun q => !q.ofRingOp c op } }
  if counted.isEmpty then s else s.setEngineWin (512 + c.toNat) { k with out := k.out - counted.length }

/-- RING_OP_TIMEOUT: an operation of a ring unit reaches the timeout of its core; the timer stands still during link
retry (12 R443, 08 R333). -/
def execRingOpTimeout (c : Lcn) (op : Nat) (s : State) : Out :=
  .next (if s.retryIndication || !((s.core c).ringOps.any fun o => o.1 == op) then s
    else (s.dropRingOp c op).ringAnswer c op false)

/-! ### Summing (12 R444 to R446) -/

/-- A block as its 256 bytes give it. -/
structure RingBlock where
  attempt : Nat
  srcrep : Nat
  shard : Nat
  ecount : Nat
  ovf : Bool
  scales : List Nat
  signs : List Nat
  entries : List Nat
deriving DecidableEq, Repr

def blockOf (t : Tile) : RingBlock :=
  let v := t.toNat
  { attempt := v % 2 ^ 32, srcrep := bits v 37 32, shard := bits v 45 40, ecount := bits v 68 64, ovf := v.testBit 71
    scales := (List.range 16).map fun i => v / 2 ^ (128 + 32 * i) % 2 ^ 32
    signs := (List.range 16).map fun i => v / 2 ^ (640 + 64 * i) % 2 ^ 64
    entries := (List.range 24).map fun i => v / 2 ^ (1664 + 16 * i) % 2 ^ 16 }

/-- INDEX of the entries in strictly ascending order. -/
def ascending : List Nat → Bool
  | a :: b :: l => decide (a < b) && ascending (b :: l)
  | _ => true

/-- The block is malformed for its inbox position (12 R444). -/
def RingBlock.malformed (b : RingBlock) (attempt rep shard : Nat) : Bool :=
  let used := b.entries.take b.ecount
  b.attempt != attempt || b.srcrep != rep || b.shard != shard || decide (24 < b.ecount) ||
    (b.ovf && b.ecount != 0) || !ascending (used.map (· % 1024)) || b.entries.any fun e => decide (2 ^ 12 ≤ e)

/-- The addend of an element of a block: an exception's value, or the tile's scale with the element's sign. -/
def RingBlock.addend (b : RingBlock) (i : Nat) : Nat :=
  match (b.entries.take b.ecount).find? fun e => e % 1024 == i with
  | some e => if e.testBit 10 then fp32.infBits + bit (e.testBit 11) * 2 ^ 31 else fp32.nanBits
  | none =>
    let neg := ((b.signs[i / 64]?).getD 0).testBit (i % 64)
    (b.scales[i / 64]?).getD 0 % 2 ^ 31 + bit neg * 2 ^ 31

/-- The inbox blocks of a core, by distance from 1 and by number. -/
def State.inboxBlocks (s : State) (c : Lcn) (l : RingLayout) : List (List RingBlock) :=
  (List.range (l.nrep - 1)).map fun i =>
    (List.range (l.s / 16)).map fun b => blockOf (s.readTile c (l.inboxTile (i + 1) b))

/-- The inbox tiles whose checksum fails. -/
def State.inboxFailed (s : State) (c : Lcn) (l : RingLayout) : List Nat :=
  ((List.range (l.nrep - 1)).flatMap fun i => (List.range (l.s / 16)).map fun b => l.inboxTile (i + 1) b).filter fun t =>
    !s.tileGood c t

/-- Some inbox block is malformed. -/
def State.inboxMalformed (s : State) (c : Lcn) (l : RingLayout) : Bool :=
  (s.inboxBlocks c l).zipIdx.any fun e => e.1.any fun b =>
    b.malformed (s.get F.CORE_RING_STAT_ATTEMPT c.toNat) ((l.rep + e.2 + 1) % max 1 l.nrep) l.rep

/-- The sum of one element: the addends in ring order, the owner's own last (12 R445). -/
def sumElement (addends : List Nat) (own : Nat) : Nat × TFlags :=
  match addends with
  | [] => (own, {})
  | a :: l => (l ++ [own]).foldl (fun e x => let r := add32 e.1 x; (r.1, e.2.or r.2)) (a, {})

/-- The shard's sum: its tiles in order, and the flags raised; or the number of a gradient tile whose check fails. -/
def State.sumShard (s : State) (c : Lcn) (l : RingLayout) (blocks : List (List RingBlock)) :
    Except Nat (List (List Nat) × TFlags) :=
  (List.range l.s).foldlM (fun acc t => do
    let own ← s.engineRead c (l.grad + l.rep * l.s + t)
    let elems := (tileElems 8 own).zipIdx.map fun e =>
      sumElement (blocks.map fun row =>
        match row[t / 16]? with
        | some b => b.addend (64 * (t % 16) + e.2)
        | none => 0) e.1
    pure (acc.1 ++ [elems.map (·.1)], (elems.map (·.2)).foldl TFlags.or acc.2)) ([], {})

/-- The SM3 digest of a core's weight tiles in ascending order (15 R552), or the tile whose check fails. -/
def State.weightDigest (s : State) (c : Lcn) : Except Nat (BitVec 256) :=
  let l := s.ringLayout c
  ((List.range (l.nrep * l.sw)).foldlM (fun acc i => do
    let t ← s.engineRead c (l.wts + i)
    pure (acc ++ (List.range 256).map fun k => BitVec.ofNat 8 (t.toNat / 256 ^ k))) []).map sm3

/-- The unit's sum and its report. -/
def State.sumAndReport (s : State) (c : Lcn) (marked : Bool) : State :=
  let u := c.toNat
  let l := s.ringLayout c
  let failed := s.inboxFailed c l
  if !failed.isEmpty || s.inboxMalformed c l then s.reportBad c failed
  else
    match s.sumShard c l (s.inboxBlocks c l) with
    | .error t => s.reportBad c [t]
    | .ok (tiles, fl) =>
      let nums := tiles.flatten.map fun x => (fp32.decode x).1
      let nan := (nums.filter Num.isNan).length
      let inf := (nums.filter fun x => x.isInf true || x.isInf false).length
      let s := tiles.zipIdx.foldl (fun s e => s.writeTile c (l.grad + l.rep * l.s + e.2) (packTile 8 e.1)) s
      let s := s.setFlags c none fl
      let s := (s.put F.CORE_RING_SUMSTAT_NAN (min nan 65535) u).put F.CORE_RING_SUMSTAT_INF (min inf 65535) u
      let done (s : State) (digest : Option (BitVec 256)) : State :=
        (s.put F.CORE_RING_STAT_STATE 2 u).report c { bad := false, nan, inf, digest }
      if marked then
        match s.weightDigest c with
        | .error t => s.reportBad c [t]
        | .ok d => done s (some d)
      else done s none

/-! ### Weight digests (15 R552 to R554) -/

/-- How often a digest stands in a list. -/
def occurrences (l : List (BitVec 256)) (d : BitVec 256) : Nat := (l.filter fun e => e == d).length

/-- The cores of a position that mismatch: those that differ from a strict majority; without one, those that differ from
replica 0, and replica 0 with them (15 R554). -/
def mismatched (l : List (Lcn × BitVec 256)) : List Lcn :=
  match l.find? fun e => decide (l.length < 2 * occurrences (l.map (·.2)) e.2) with
  | some m => (l.filter fun e => e.2 != m.2).map (·.1)
  | none =>
    match l with
    | [] => []
    | z :: r =>
      match (r.filter fun e => e.2 != z.2).map (·.1) with
      | [] => []
      | bad => z.1 :: bad

/-- The digests of a ring compared position by position. -/
def State.compareDigests (s : State) (j : Nat) (r : Ring) (digests : PMap (BitVec 256)) : State :=
  let m := 128 * r.mseg
  let cores := s.ringCores r
  let (s, _) := (List.range m).foldl (fun (e : State × Bool) i =>
    let group := (List.range r.nrep).filterMap fun p =>
      match cores[p * m + i]? with
      | some c => (findKey digests c.toNat).map fun d => (c, d)
      | none => none
    match mismatched group with
    | [] => e
    | bad =>
      let s := bad.foldl (fun s c => s.countFailure c 7 0) e.1
      let s := s.addMax F.INT_DIGEST_STATj_MISMATCH 1 0 j
      (if e.2 then s else s.put F.INT_DIGEST_STATj_FIRST i 0 j, true)) (s, false)
  s.addWrap F.INT_DIGEST_STATj_DIGESTS 1 0 j

/-- Every core of a ring has reported DONE. -/
def State.allDone (s : State) (r : Ring) : Bool :=
  (s.ringCores r).all fun c => match findKey r.reports c.toNat with
    | some p => !p.bad
    | none => false

/-- The digests that came with the reports of a marked attempt, compared once they are all there. -/
def State.markedCompare (s : State) (j : Nat) : State :=
  match findKey s.rings j with
  | some r =>
    if r.marked && s.allDone r then
      s.compareDigests j r (r.reports.filterMap fun e => e.2.digest.map fun d => (e.1, d))
    else s
  | none => s

/-- RING_INBOX_COMPLETE: INBOX_TACK has reached NREP − 1; the unit checks its inbox, sums and reports, but not for an attempt in
which its layout check has failed (12 R440; a corrected REDUCE of that attempt sends all the same, DESIGN CHOICE, log entry
33). -/
def execRingInboxComplete (c : Lcn) (s : State) : Out :=
  let u := c.toNat
  match s.ringOf c with
  | none => .next s
  | some (j, r) =>
    let tack := s.tack c (Fin.ofNat 32 (s.get F.CORE_RING_TACKS_INBOX_TACK u))
    if s.backed c && s.clocked c && !s.darnHeld c && s.get F.CORE_RING_STAT_STATE u == 1 &&
        decide (r.nrep - 1 ≤ tack.toNat) && (findKey r.reports u).isNone &&
        (s.core c).ringBarred != some (s.get F.CORE_RING_STAT_ATTEMPT u) then
      .next ((s.sumAndReport c r.marked).markedCompare j)
    else .next s

/-- A write of INT_DIGEST_CFGj: the next mark under PERIOD, and with NOW an immediate digest of every unit
(15 R552, Table 15.13). -/
def State.writeDigestCfg (s : State) (j v : Nat) : State :=
  let s := (s.writePlain .INT_DIGEST_CFGj 0 j v).placeMark j
  if !v.testBit 63 then s
  else match findKey s.rings j with
    | none => s
    | some r =>
      let (s, d) := (s.ringCores r).foldl (fun (e : State × PMap (BitVec 256)) c =>
        match e.1.weightDigest c with
        | .error t => (e.1.tileFailed c t 3, e.2)
        | .ok d => (e.1, putKey e.2 c.toNat d)) (s, [])
      (s.put F.INT_DIGEST_STATj_BUSY 1 0 j).setRing j { r with nowDigests := d }

/-- DIGEST_NOW: a write of 1 to INT_DIGEST_CFGj.NOW; PERIOD stays as it is. -/
def execDigestNow (j : Fin 4) (s : State) : Out :=
  .next (if s.flag F.CLK_BLKEN_INT then
      s.writeDigestCfg j.val (s.get F.INT_DIGEST_CFGj_PERIOD 0 j.val + 2 ^ 63)
    else s.gatedError (regOffset .INT_DIGEST_CFGj 0 j.val))

/-- The digest of a core at the end of an immediate comparison: a free value where its weights were written meanwhile
(15 R553). -/
def State.nowDigest (e : State × PMap (BitVec 256)) (k : Nat × BitVec 256) : State × PMap (BitVec 256) :=
  let (s, m) := e
  match s.weightDigest (BitVec.ofNat 20 k.1) with
  | .ok d => if d = k.2 then (s, putKey m k.1 k.2) else let (v, s) := s.free 256; (s, putKey m k.1 v)
  | .error _ => let (v, s) := s.free 256; (s, putKey m k.1 v)

/-- NOW_DIGEST_DONE: the units of a ring have reported their immediate digests. -/
def execNowDigestDone (j : Fin 4) (s : State) : Out :=
  match findKey s.rings j.val with
  | none => .next s
  | some r =>
    if !s.flag F.INT_DIGEST_STATj_BUSY 0 j.val then .next s
    else
      let (s, m) := r.nowDigests.foldl State.nowDigest (s, [])
      let s := s.compareDigests j.val r m
      .next ((s.put F.INT_DIGEST_STATj_BUSY 0 0 j.val).setRing j.val { r with nowDigests := [] })

/-! ### Verdicts (12 R448 to R450) -/

/-- The NaN and infinite elements over the reports of an attempt. -/
def Ring.nans (r : Ring) : Nat := (r.reports.map fun e => e.2.nan).sum
def Ring.infs (r : Ring) : Nat := (r.reports.map fun e => e.2.inf).sum

/-- The verdict that the controller can decide now: 1 COMMIT, 2 SKIP, 3 REPEAT, 4 FAIL (12 Table 12.4). -/
def State.ringDecision (s : State) (j : Nat) (r : Ring) : Option Nat :=
  if r.fail then some 4
  else if r.late || r.reports.any fun e => e.2.bad then
    some (if s.get F.MRK_RINGj_STAT_RUN j < s.get F.MRK_RINGj_CFG_REPEAT_MAX j then 3 else 4)
  else if s.allDone r then
    let skip := (s.flag F.MRK_RINGj_CFG_SKIP_NAN j && r.nans != 0) || (s.flag F.MRK_RINGj_CFG_SKIP_INF j && r.infs != 0)
    some (if skip then 2 else 1)
  else none

/-- The unit of a core still serves a ring. -/
def State.inRing (s : State) (j : Nat) (c : Lcn) : Bool :=
  s.backed c && s.flag F.CORE_RING_CFG_VALID c.toNat && s.get F.CORE_RING_CFG_RING c.toNat == j

/-- A verdict counted in the step controller's registers. -/
def State.countVerdict (s : State) (j v : Nat) : State :=
  let run := s.get F.MRK_RINGj_STAT_RUN j
  match v with
  | 1 => (s.addWrap F.MRK_RINGj_COUNT_COMMITS 1 j).put F.MRK_RINGj_STAT_RUN 0 j
  | 2 => (s.addSat F.MRK_RINGj_COUNT_SKIPS F.MRK_RINGj_COUNT_SAT 1 j).put F.MRK_RINGj_STAT_RUN 0 j
  | 3 => (s.addSat F.MRK_RINGj_COUNT_REPEATS F.MRK_RINGj_COUNT_SAT 1 j).put F.MRK_RINGj_STAT_RUN (run + 1) j
  | _ => s

/-- A verdict on its way to every unit of a ring. -/
def State.sendVerdict (s : State) (j v : Nat) (r : Ring) : State :=
  (s.ringCores r).foldl (fun s c =>
    if s.inRing j c then s.setCore c { s.core c with verdicts := (s.core c).verdicts ++ [v] } else s) s

/-- A verdict issued: LAST, RUN, ATTEMPT and the counters, and the next deadline; FAIL takes the ring out of service and
raises the ring-failure event (12 R447, R448, R455). -/
def State.issueVerdict (s : State) (j v : Nat) (r : Ring) : State :=
  let s := ((s.countVerdict j v).put F.MRK_RINGj_STAT_LAST v j).addWrap F.MRK_RINGj_STAT_ATTEMPT 1 j
  let s := (s.put F.MRK_RINGj_NAN_NAN (min r.nans (2 ^ 32 - 1)) j).put F.MRK_RINGj_NAN_INF (min r.infs (2 ^ 32 - 1)) j
  let s := s.sendVerdict j v r
  let s := s.setRing j { r with reports := [], late := false, halting := false, quiet := [], started := false,
                                marked := false, fail := false }
  if v = 4 then
    let s := s.put F.MRK_RINGj_STAT_STATE 2 j
    let s := match r.cueField with
      | some f => s.disarm f (deadlineEntry j)
      | none => s
    match s.ringOrder r with
    | some o => s.raise 4 o.ld (r.slot + o.gen * 64) j 0
    | none => s
  else (s.nextDeadline j).placeDeadline j

/-- A ring unit halts: nothing that still waits in its interface is issued (12 R449). -/
def State.haltUnit (s : State) (c : Lcn) : State :=
  let waits (q : Packet) : Bool := q.sender == .ringUnit && q.src == c && !q.injected && !q.typ.isReply
  let gone := (s.fab.pkts.filter waits).map (·.id)
  let s := { s with fab := { s.fab with pkts := s.fab.pkts.filter fun q => !waits q } }
  (s.setCore c { s.core c with ringOps := (s.core c).ringOps.filter fun o => !gone.contains o.1 }).put
    F.CORE_RING_STAT_STATE 4 c.toNat

/-- Every ring unit of a ring halted (12 R449). -/
def State.haltRing (s : State) (j : Nat) (r : Ring) : State :=
  let s := (s.ringCores r).foldl (fun s c =>
    if s.inRing j c && s.get F.CORE_RING_STAT_STATE c.toNat != 5 then s.haltUnit c else s) s
  s.setRing j { r with halting := true, quiet := [] }

/-- RING_VERDICT: the step controller issues the verdict it can decide. Before REPEAT or FAIL it halts the ring units, and
issues the verdict once every unit is QUIET. -/
def execRingVerdict (j : Fin 4) (s : State) : Out :=
  match findKey s.rings j.val with
  | none => .next s
  | some r =>
    if s.get F.MRK_RINGj_STAT_STATE j.val ≠ 1 ∨ (s.ringCores r).isEmpty = true then .next s
    else match s.ringDecision j.val r with
      | none => .next s
      | some v =>
        if v ≤ 2 then .next (s.issueVerdict j.val v r)
        else if !r.halting then .next (s.haltRing j.val r)
        else if (s.ringCores r).all fun c => !s.inRing j.val c || r.quiet.contains c.toNat then
          .next (s.issueVerdict j.val v r)
        else .next s

/-- RING_QUIET: every operation of a halting unit is answered or has timed out, and the unit reports QUIET (12 R449). -/
def execRingQuiet (c : Lcn) (s : State) : Out :=
  match s.ringOf c with
  | none => .next s
  | some (j, r) =>
    if s.get F.CORE_RING_STAT_STATE c.toNat == 4 && (s.core c).ringOps.isEmpty && r.halting &&
        !r.quiet.contains c.toNat then
      .next (s.setRing j { r with quiet := r.quiet ++ [c.toNat] })
    else .next s

/-- A verdict applied by a unit, in the order of 12 R450. -/
def State.applyVerdict (s : State) (c : Lcn) (v : Nat) : State :=
  let u := c.toNat
  let s := s.put F.CORE_RING_STAT_VERDICT v u
  let s := if v ≤ 2 then s.put F.CORE_RING_STAT_CUR (1 - s.get F.CORE_RING_STAT_CUR u) u else s
  let s := if v = 4 then s else s.signal c (Fin.ofNat 32 (s.get F.CORE_RING_TACKS_INBOX_TACK u)) true 0 2 0
  let s := (s.addWrap F.CORE_RING_STAT_ATTEMPT 1 u).put F.CORE_RING_STAT_STATE (if v = 4 then 5 else 0) u
  s.signal c (Fin.ofNat 32 (s.get F.CORE_RING_TACKS_VERDICT_TACK u)) false 1 1 (threadId c 0)

/-- RING_VERDICT_APPLY: the oldest verdict on its way reaches a ring unit. -/
def execRingVerdictApply (c : Lcn) (s : State) : Out :=
  match (s.core c).verdicts with
  | [] => .next s
  | v :: l => .next ((s.setCore c { s.core c with verdicts := l }).applyVerdict c v)

/-- A write of CORE_RING_LAYOUT or CORE_RING_TACKS: taken only while the unit is IDLE (12 R456). -/
def State.writeRingRegister (s : State) (c : Lcn) (r : Reg) (v : Nat) : State :=
  if s.get F.CORE_RING_STAT_STATE c.toNat = 0 then s.writePlain r c.toNat 0 v
  else s.put F.CORE_RING_STAT_REJ 1 c.toNat

/-- RING_LAYOUT_WRITE: CORE_RING_TACKS where `tacks`, and otherwise CORE_RING_LAYOUT. -/
def execRingLayoutWrite (c : Lcn) (tacks : Bool) (v : Word) (s : State) : Out :=
  let r : Reg := if tacks then .CORE_RING_TACKS else .CORE_RING_LAYOUT
  .next (s.ifWindow r c 0 fun s => s.writeRingRegister c r v.toNat)

/-- The deadline cue of a ring fires for an attempt: it counts where that attempt still runs and is not complete
(12 R448). -/
def State.deadlineFired (s : State) (j attempt : Nat) : State :=
  match findKey s.rings j with
  | some r =>
    if s.get F.MRK_RINGj_STAT_STATE j = 1 ∧ s.get F.MRK_RINGj_STAT_ATTEMPT j = attempt ∧ s.allDone r = false then
      s.setRing j { r with late := true }
    else s
  | none => s

/-- The digest mark of a ring fires (15 R552). -/
def State.markFired (s : State) (j : Nat) : State :=
  match findKey s.rings j with
  | some r => (s.setRing j { r with markNext := true }).placeMark j
  | none => s

end Sys2Proof.Machine
end

