-- ==== Sys2Proof/Machine/Marker.lean ====
section
/-!
DEFINITION. Marker: ring entries, cut orders and their states, placement, loading, the end of a cut order, migration, the
slot windows and the distance table (01 R33 to R36; 06 R246 to R249; 07 R260 to R282; 12 R432; 15 R555).
-/

namespace Sys2Proof.Machine

/-! ### Small tools -/

/-- An entry put into a list sorted by rising keys, after those of its own key. -/
def insertBy {α : Type} (x : Nat × α) : List (Nat × α) → List (Nat × α)
  | [] => [x]
  | y :: l => if x.1 < y.1 then x :: y :: l else y :: insertBy x l

/-- A list sorted by rising keys. -/
def sortBy {α : Type} (l : List (Nat × α)) : List (Nat × α) := l.foldl (fun acc x => insertBy x acc) []

/-- The 256 bytes of tile `i` of some contents; bytes past their end are zero. -/
def contentTile (l : List Byte) (i : Nat) : Tile :=
  ((l.drop (256 * i)).take 256).foldr (fun b (t : Tile) => (t <<< 8) ||| b.zeroExtend 2048) 0

/-! ### Cut orders -/

/-- The core count Q (07 R262). -/
def Descriptor.cores (d : Descriptor) : Nat := (d.threads + d.tpc - 1) / max 1 d.tpc

/-- FLAGS of a descriptor (07 Table 7.6). -/
def Descriptor.patterns (d : Descriptor) : Bool := d.flags.testBit 0
def Descriptor.panelExcl (d : Descriptor) : Bool := d.flags.testBit 1
def Descriptor.migratable (d : Descriptor) : Bool := d.flags.testBit 2
def Descriptor.dup (d : Descriptor) : Bool := d.flags.testBit 3
def Descriptor.allPin (d : Descriptor) : Bool := d.flags.testBit 4

/-- The rank of thread `t` of core index `q`, where the cut order has it. -/
def Descriptor.rank (d : Descriptor) (q t : Nat) : Option Nat :=
  if t < d.tpc ∧ q * d.tpc + t < d.threads then some (q * d.tpc + t) else none

/-- The cut-order ID: slot and generation (07 Table 7.10). -/
def CutOrder.id (o : CutOrder) (slot : Nat) : Nat := slot + o.gen % 1024 * 64

/-- In service: ACCEPTED through HELD (07 R266). -/
def CutOrder.inService (o : CutOrder) : Bool := decide (1 ≤ o.st) && decide (o.st ≤ 5)

/-- The threads that a cut order runs, shadows included, with their ranks. -/
def CutOrder.threads (o : CutOrder) : List (Lcn × Fin 4 × Nat) :=
  o.allCores.flatMap fun n =>
    let c : Lcn := BitVec.ofNat 20 n
    allThreads.filterMap fun t => (o.desc.rank (o.coreIndex c) t.val).map fun r => (c, t, r)

/-- Threads in TRAPPED, lost ones included (07 Table 7.10). -/
def State.trapped (s : State) (o : CutOrder) : Nat :=
  o.lost + (o.threads.filter fun e => (s.thread e.1 e.2.1).st == .trapped).length

/-- The 64 bytes of a status record (07 Table 7.10). -/
def State.statusRecord (s : State) (id : Nat) (o : CutOrder) : Nat :=
  o.desc.tag.toNat + id * 2 ^ 64 + o.st * 2 ^ 80 + o.reason * 2 ^ 88 + s.trapped o * 2 ^ 96 + o.startTr * 2 ^ 128 +
    o.endTr * 2 ^ 192 + o.desc.cores * 2 ^ 256 + o.pgen % 2 ^ 32 * 2 ^ 288

/-- A write to a host. -/
def State.hostWrite (s : State) (ld addr len data : Nat) : State :=
  { s with hostOut := s.hostOut ++ [{ ld, addr, len, data }] }

/-- Marker notes a change of state: the status record, and the event of HELD, DONE, REJECTED and ABORTED (07 R265,
14 Table 14.7). -/
def State.noteOrder (s : State) (id : Nat) (o : CutOrder) : State :=
  let a := o.desc.status.toNat
  let s := if a % 64 = 0 ∧ a < 2 ^ 48 then s.hostWrite o.ld (2 ^ 49 + a) 64 (s.statusRecord id o) else s
  if o.st == 5 || o.st == 6 || o.st == 7 || o.st == 8 then s.raise 1 o.ld id o.st 0 else s

/-- A slot's cut order replaced after a change of its state. -/
def State.setOrder (s : State) (slot : Nat) (o : CutOrder) : State :=
  { s with slots := putKey s.slots slot o }.noteOrder (o.id slot) o

/-- A cut order kept in its slot without a change of state. -/
def State.keepOrder (s : State) (slot : Nat) (o : CutOrder) : State := { s with slots := putKey s.slots slot o }

/-- A rejection counted (07 Table 7.17). -/
def State.countReject (s : State) (ld reason : Nat) : State :=
  ((s.put F.MRK_REJECT_REASON reason).put F.MRK_REJECT_LD ld).addWrap F.MRK_REJECT_REJECTS 1

/-- A cut order rejected (07 R264): it has no slot, so its ID reads zero. -/
def State.rejectOrder (s : State) (ld : Nat) (d : Descriptor) (reason : Nat) : State :=
  (s.countReject ld reason).noteOrder 0 { st := 7, gen := 0, ld, desc := d, reason, endTr := s.now }

/-! ### Segments (07 R268) -/

/-- The row segments that cut orders hold or that are under test. -/
def State.heldSegments (s : State) : List Nat :=
  (s.slots.flatMap fun e => if e.2.inService then e.2.segments else []) ++ s.tests.map (·.1)

/-- The logical cores of a row segment, in ascending column order. -/
def segmentCores (seg : Nat) : List Lcn := (List.range 128).map fun k => posOf (seg / 8) (seg % 8 * 128 + k)

/-- The field of a row segment. -/
def segmentField (seg : Nat) : Nat := seg / 8 / 128 * 8 + seg % 8

/-- The panel of a row segment, as 8 × field + panel. -/
def segmentPanel (seg : Nat) : Nat := segmentField seg * 8 + seg / 8 % 128 / 16

/-- The place of a row segment in the order of Table 7.11's ties: field, panel, row. -/
def segmentKey (seg : Nat) : Nat := segmentField seg * 128 + seg / 8 % 128

/-- A row segment lies in a gusset. -/
def isGussetSegment (seg : Nat) : Bool := isGusset (posOf (seg / 8) (seg % 8 * 128))

/-- The partner of a row segment under full redundancy (15 R555). -/
def partnerSegment (seg : Nat) : Nat := seg ^^^ 4096

/-- The fields that a cut order may use: those of FIELDS, or all, that its partition holds now (07 R268, 14 R502). -/
def State.permits (s : State) (ld : Nat) (d : Descriptor) (f : Nat) : Bool :=
  s.inPartition ld f && (d.fields == 0 || d.fields.getLsbD f)

/-- A field is ready for work (07 R268, 16 R565). -/
def State.fieldReady (s : State) (f : Nat) : Bool :=
  !s.isParked f && !s.isHole f && ((s.viewedMap F.BRG_FLD_READY_MAP 0 0).getD 0).testBit f

/-- A row segment is eligible, given the segments that are held and, under PANEL_EXCL, the panels they lie in. -/
def State.eligible (s : State) (ld : Nat) (d : Descriptor) (held : List Nat) (seg : Nat) : Bool :=
  let one (seg : Nat) : Bool :=
    s.permits ld d (segmentField seg) && s.fieldReady (segmentField seg) && !isGussetSegment seg && !held.contains seg &&
      (!d.panelExcl || !(held.any fun h => segmentPanel h == segmentPanel seg))
  one seg && (!d.dup || one (partnerSegment seg))

/-- The cores that a row segment gives a cut order: its backed cores; with DUP, those whose partner is backed too. -/
def State.segmentTake (s : State) (d : Descriptor) (seg : Nat) : List Nat :=
  ((segmentCores seg).filter fun c => s.backed c && (!d.dup || s.backed (c ^^^ 0x80000))).map (·.toNat)

/-! ### Placement (07 R269 to R271, 12 R432) -/

/-- The port distance of a row segment (07 R269). -/
def State.portDistance (s : State) (seg p : Nat) : Option Nat :=
  (s.routeCost (s.routeTarget (posOf (seg / 8) (seg % 8 * 128 + 64))) (portAttachment p)).map (·.latency)

/-- The least distance of a row segment over some ports. -/
def State.leastDistance (s : State) (ports : List Nat) (seg : Nat) : Option Nat :=
  (ports.filterMap fun p => s.portDistance seg p).foldl (fun (b : Option Nat) d =>
    some (match b with | some x => min x d | none => d)) none

/-- The ports that serve a range of far memory, given by device address and size. -/
def State.rangePorts (s : State) (a size : Nat) : List Nat :=
  let o := a % 2 ^ 46
  if s.flag F.SEL_MAP_MODE then
    ((List.range (min 32 ((size + 255) / 256))).map fun i => (s.farPort (o + 256 * i)).1)
  else (List.range 32).filter fun p => decide ((s.farPort o).1 ≤ p) && decide (p ≤ (s.farPort (o + size - 1)).1)

/-- A rank lies in the user range of an object. -/
def ObjectEntry.uses (e : ObjectEntry) (r : Nat) : Bool :=
  e.count == 0 || (decide (e.first ≤ r) && decide (r < e.first + e.count))

/-- A core index is a streamer. -/
def Descriptor.streamer (d : Descriptor) (q : Nat) : Bool :=
  (List.range 4).any fun t => match d.rank q t with
    | some r => d.objects.any fun e => e.kind == 2 && e.uses r
    | none => false

/-- The central route from one field to another; none where it meets a hole in excess or a FAILED link, or where a field is a
hole: its distance entry is FENCED (01 Table 1.10, 08 R310). -/
def State.centralRoute (s : State) (a b : Nat) : Option RouteCost :=
  if s.isHole a || s.isHole b then none else s.routeCost (fieldPos a 64 64) (fieldPos b 64 64)

/-- Two fields reach each other: neither distance entry between them is FENCED. -/
def State.fieldsMeet (s : State) (a b : Nat) : Bool := (s.centralRoute a b).isSome && (s.centralRoute b a).isSome

/-- A segment's field, and with DUP its partner's, reaches every field of a list. -/
def State.reaches (s : State) (d : Descriptor) (fields : List Nat) (seg : Nat) : Bool :=
  fields.all fun f => s.fieldsMeet (segmentField seg) f && (!d.dup || s.fieldsMeet (segmentField (partnerSegment seg)) f)

/-- Cores taken from row segments in their order until a count is met: the cores and the segments used. A segment is passed
over whose field does not reach every field in use (08 R310: Marker places no work that depends on a FENCED route; which
segments it leaves out is a DESIGN CHOICE, log entry 48). -/
def State.takeCores (s : State) (d : Descriptor) : List Nat → List Nat → Nat → List Nat × List Nat
  | _, [], _ => ([], [])
  | fields, seg :: l, n =>
    if n = 0 then ([], [])
    else if !s.reaches d fields seg then s.takeCores d fields l n
    else
      let k := s.segmentTake d seg
      let used := segmentField seg :: if d.dup then [segmentField (partnerSegment seg)] else []
      let (cores, segs) := s.takeCores d (used ++ fields).eraseDups l (n - k.length)
      (k.take n ++ cores, seg :: segs)

/-- Where a cut order goes: the core of each core index and the segments held. -/
structure Placement where
  cores : List Nat
  segments : List Nat
deriving DecidableEq, Repr

/-- The row segments that a taken segment holds: with DUP its partner too, and with PANEL_EXCL the whole panels. -/
def Descriptor.holds (d : Descriptor) (seg : Nat) : List Nat :=
  let pair := if d.dup then [seg, partnerSegment seg] else [seg]
  if d.panelExcl then
    pair.flatMap fun x => (List.range 16).map fun i => (x / 8 / 16 * 16 + i) * 8 + x % 8
  else pair

/-- The ring that a slot's cut order has. -/
def State.ringOfSlot (s : State) (slot : Nat) : Option Nat :=
  (s.rings.find? fun e => e.2.slot == slot).map (·.1)

/-- With DUP, the first segment of each pair in a list. -/
def Descriptor.pairFirsts (d : Descriptor) (l : List Nat) : List Nat :=
  if d.dup then l.foldl (fun acc x => if acc.contains (partnerSegment x) then acc else acc ++ [x]) [] else l

/-- Placement over some held segments, for the core indices that are not placed yet: `fixed` names the cores that stay: the
pins, whose segments must be eligible (`check`), or the cores that a migration does not move. None where there are too few
eligible segments. The order of a ring (`whole`) takes whole segments, 128 core indices each, and such a block of core indices
counts as streamers where one of them is (12 R432; DESIGN CHOICE, log entry 48). -/
def State.place (s : State) (ld : Nat) (d : Descriptor) (whole check : Bool) (held : List Nat)
    (fixed : List (Nat × Nat)) : Option Placement :=
  let pinned := (fixed.map fun e => segmentOf (BitVec.ofNat 20 e.2)).eraseDups
  let free := (List.range 8192).filter fun seg =>
    s.eligible ld d held seg && !pinned.contains seg && (!d.dup || !pinned.contains (partnerSegment seg)) &&
      (!whole || (s.segmentTake d seg).length == 128)
  let open_ := (List.range d.cores).filter fun q => !(fixed.any fun e => e.1 == q)
  let streams (q : Nat) : Bool :=
    if whole then (List.range 128).any fun i => d.streamer (q / 128 * 128 + i) else d.streamer q
  let streamers := open_.filter streams
  let others := open_.filter fun q => !streams q
  let base := (pinned.map segmentField).eraseDups
  let ports := (d.objects.filter fun e => e.kind == 2).flatMap fun e => s.rangePorts e.src.toNat e.size
  let near := sortBy (free.map fun seg =>
    ((match s.leastDistance ports seg with | some x => x | none => 2 ^ 20) * 2 ^ 20 + segmentKey seg, seg))
  let (c1, g1) := s.takeCores d base (d.pairFirsts (near.map (·.2))) streamers.length
  let used := (base ++ (g1.flatMap fun seg =>
    segmentField seg :: if d.dup then [segmentField (partnerSegment seg)] else [])).eraseDups
  let left := free.filter fun seg => !g1.contains seg && !(d.dup && g1.contains (partnerSegment seg))
  let far := sortBy (left.map fun seg =>
    ((match s.leastDistance (List.range 32) seg with | some x => 2 ^ 20 - x | none => 0) * 2 ^ 20 + segmentKey seg, seg))
  let (c2, g2) := s.takeCores d used (d.pairFirsts (far.map (·.2))) others.length
  if c1.length < streamers.length ∨ c2.length < others.length ∨
      (check && pinned.any fun seg => !s.eligible ld d held seg || !s.reaches d base seg) = true then none
  else
    let m : PMap Nat := (fixed ++ streamers.zip c1 ++ others.zip c2).foldl (fun m e => putKey m e.1 e.2) []
    some { cores := m.map (·.2), segments := ((pinned ++ g1 ++ g2).flatMap d.holds).eraseDups }

/-- Placement of a cut order in a slot, or of one that has none yet. -/
def State.placeOrder (s : State) (slot : Option Nat) (ld : Nat) (d : Descriptor) : Option Placement :=
  let whole := match slot with
    | some n => (s.ringOfSlot n).isSome
    | none => false
  let others := (s.slots.filter fun e => e.2.inService && slot != some e.1).flatMap fun e => e.2.segments
  s.place ld d whole true (others ++ s.tests.map (·.1)) d.pins

/-! ### Objects (07 R272, R273; 06 R246, R247) -/

/-- A tile-row record of a SPARSE object's source. -/
structure TileRow where
  lead : Tile
  index : Tile
  data : List Tile
deriving DecidableEq, Repr

/-- The records in a sequence of tiles, by count of records at most. -/
def tileRecords (l : List Tile) : Nat → List TileRow
  | 0 => []
  | n + 1 =>
    match l with
    | lead :: index :: rest =>
      let count := bits lead.toNat 23 16
      if bits lead.toNat 15 8 = 0 then []
      else { lead, index, data := rest.take count } :: tileRecords (rest.drop count) n
    | _ => []

/-- The present positions of a record, from the bitmap of its index tile. -/
def TileRow.positions (r : TileRow) : List Nat :=
  (List.range 128).filter fun k => r.index.getLsbD k && decide (k < bits r.lead.toNat 15 8)

/-- How many segments a tile-row splits into (06 R246). -/
def segmentCount (thresh present : Nat) : Nat :=
  if thresh = 0 ∨ present ≤ thresh then 1 else min 16 ((present + thresh - 1) / thresh)

/-- An index tile of some positions (06 Table 6.2). -/
def positionsTile (l : List Nat) : Tile :=
  BitVec.ofNat 2048 ((l.map fun k => 2 ^ k).sum + packBits 8 l * 2 ^ 128)

/-- A placed record: its core index, and its tiles after the lead tile, whose header waits for its place. -/
structure PlacedRow where
  q : Nat
  lead : Nat
  rest : List Tile
deriving DecidableEq, Repr

/-- A lead tile for segment `i` of `n`: COUNT where the row was split, the segment number, n and the tree; BASE waits. -/
def leadTile (r : TileRow) (count : Option Nat) (i n tree : Nat) : Nat :=
  let v := r.lead.toNat
  let header := v % 2 ^ 16 + (count.getD (bits v 23 16)) * 2 ^ 16
  header + bits v 159 128 * 2 ^ 128 + i * 2 ^ 160 + n * 2 ^ 168 + tree * 2 ^ 176

/-- The next `n` users in rotation from `turn` that are not the owner, each with the turn after it (06 R247: each segment on its
own core; where there are fewer users than segments, the rotation goes round again: DESIGN CHOICE, log entry 48). -/
def rotateUsers (users : List Nat) (owner turn n : Nat) : List (Nat × Nat) :=
  ((List.range (2 * n + 1)).filterMap fun i =>
    match users[(turn + i) % max 1 users.length]? with
    | some q => if q = owner then none else some (q, (turn + i + 1) % users.length)
    | none => none).take n

/-- A record split and placed: segment 0 on its owner, the others on the users in rotation from `turn` (07 R273); and the turn
after it. -/
def placeRow (users : List Nat) (thresh : Nat) (r : TileRow) (turn tree : Nat) : List PlacedRow × Nat :=
  let owner := bits r.lead.toNat 159 128
  let p := r.positions
  let n := segmentCount thresh p.length
  if n ≤ 1 then ([{ q := owner, lead := leadTile r none 0 1 0, rest := r.index :: r.data }], turn)
  else
    let others := rotateUsers users owner turn (n - 1)
    ((List.range n).map fun i =>
      let lo := i * p.length / n
      let hi := (i + 1) * p.length / n
      let q := if i = 0 then owner else ((others[i - 1]?).map (·.1)).getD owner
      { q, lead := leadTile r (some (hi - lo)) i n tree,
        rest := positionsTile ((p.drop lo).take (hi - lo)) :: (r.data.drop lo).take (hi - lo) },
      (others.getLast?.map (·.2)).getD turn)

/-- The core indices of an object's users, in ascending order. -/
def Descriptor.userCores (d : Descriptor) (e : ObjectEntry) : List Nat :=
  (List.range d.cores).filter fun q => (List.range 4).any fun t => match d.rank q t with
    | some r => e.uses r
    | none => false

/-- Every record of a SPARSE object placed, with the trees of its split rows: the tree's number and the core indices of
its segments. -/
def Descriptor.placeRows (d : Descriptor) (thresh : Nat) (e : ObjectEntry) (tree : Nat) :
    List PlacedRow × List (Nat × List Nat) :=
  let tiles := (List.range (e.size / 256)).map (contentTile e.content)
  let users := d.userCores e
  let r := (tileRecords tiles tiles.length).foldl (fun (acc : List PlacedRow × List (Nat × List Nat) × Nat) row =>
    let number := tree + acc.2.1.length
    let (rows, turn) := placeRow users thresh row acc.2.2 number
    (acc.1 ++ rows, if rows.length ≤ 1 then acc.2.1 else acc.2.1 ++ [(number, rows.map (·.q))], turn)) ([], [], 0)
  (r.1, r.2.1)

/-- Tiles that a SPARSE object takes on a core index: its records and the lead tile of SPAN 0 that ends them. -/
def rowTiles (rows : List PlacedRow) (q : Nat) : Nat :=
  ((rows.filter fun r => r.q == q).map fun r => r.rest.length + 1).sum + 1

/-- Tiles that an object takes on every core (07 R272). -/
def Descriptor.objectTiles (d : Descriptor) (thresh : Nat) (e : ObjectEntry) : Nat :=
  match e.kind with
  | 0 => (e.size + 256 * d.cores - 1) / max 1 (256 * d.cores)
  | 1 => e.size / 256
  | 3 => ((List.range d.cores).map (rowTiles (d.placeRows thresh e 0).1)).foldl max 1
  | _ => 0

/-- First tile and count of every object, from tile 255 downward in table order; a STREAM object has 0xFFFF. -/
def Descriptor.layout (d : Descriptor) (thresh : Nat) : List (Nat × Nat) :=
  (d.objects.foldl (fun (acc : List (Nat × Nat) × Nat) e =>
    let t := d.objectTiles thresh e
    if e.kind = 2 then (acc.1 ++ [(0xFFFF, 0)], acc.2) else (acc.1 ++ [(acc.2 - t, t)], acc.2 - t)) ([], 256)).1

/-! ### The checks of a CUT entry (07 R264) -/

/-- A device address of host memory or far memory, 256-byte aligned. -/
def sourceOk (a : Nat) : Bool := a % 256 == 0 && (a / 2 ^ 48 == 2 || a / 2 ^ 46 == 4)

/-- An object entry is out of range, misaligned or of undefined KIND (07 Table 7.7). -/
def Descriptor.badObject (d : Descriptor) (e : ObjectEntry) : Bool :=
  let a := e.src.toNat
  e.size == 0 || e.size % 256 != 0 || decide (3 < e.kind) || (e.oflags.testBit 0 && e.kind != 1) ||
    (e.oflags.testBit 1 && decide (1 < e.kind)) || decide (d.threads < e.first + e.count) ||
    decide (d.threads ≤ e.first) ||
    (if e.kind = 2 then !(a % 256 == 0 && a / 2 ^ 46 == 4) || decide (5 * 2 ^ 46 < a + e.size) else a != 0 && !sourceOk a)

/-- The working cores of the permitted fields; with DUP, those of paired segments only. -/
def State.workingCores (s : State) (ld : Nat) (d : Descriptor) : Nat :=
  (((List.range 8192).filter fun seg =>
    let ok (g : Nat) : Bool := s.permits ld d (segmentField g) && !isGussetSegment g
    ok seg && (!d.dup || ok (partnerSegment seg))).map fun seg =>
      ((segmentCores seg).filter s.backed).length).sum

/-- A pin of the descriptor is not allowed (01 R38, 07 Table 7.8). -/
def State.badPins (s : State) (ld : Nat) (d : Descriptor) : Bool :=
  let allowed (n : Nat) : Bool :=
    s.backed (BitVec.ofNat 20 n) && decide (n < 2 ^ 20) && s.permits ld d (fieldOf (BitVec.ofNat 20 n))
  (d.pins.any fun e => !allowed e.2 || decide (d.cores ≤ e.1)) ||
    (d.pins.map (·.2)).eraseDups.length != d.pins.length || (d.pins.map (·.1)).eraseDups.length != d.pins.length ||
    (d.objects.any fun e => e.oflags.testBit 0 && !allowed e.pinLcn) ||
    (d.allPin && decide (d.pins.length < d.cores))

/-- The first failure of a CUT entry, in the order of Table 7.8, with the descriptor where it could be read. A descriptor whose
image, table or pin list lies at a misaligned address counts as one that cannot be read, one with more than 4,096 objects as
one with an object out of range, and one with more than Q pins as one with a bad pin (DESIGN CHOICE, log entry 48). -/
def State.cutReason (s : State) (ld : Nat) (e : RingEntry) : Option (Nat × Option Descriptor) :=
  if e.arg % 128 ≠ 0 then some (1, none)
  else match e.order with
  | none => some (if 2 ≤ e.flags then 2 else 3, none)
  | some d =>
    let q := d.cores
    let reason (r : Nat) : Option (Nat × Option Descriptor) := some (r, some d)
    let fieldBad := (List.range 64).any fun f => d.fields.getLsbD f && !s.inPartition ld f
    if d.format ≠ 1 then reason 1
    else if d.reservedZero = false ∨ 32 ≤ d.flags ∨ 2 ≤ e.flags then reason 2
    else if !d.readOk || !d.aligned then reason 3
    else if d.threads < 1 ∨ 3932160 < d.threads ∨ d.tpc < 1 ∨ 4 < d.tpc ∨ d.imageLen % 4 ≠ 0 ∨ d.imageLen < 4 ∨
        (if d.patterns then 4096 else 8192) < d.imageLen ∨ d.entry % 4 ≠ 0 ∨ d.imageLen ≤ d.entry then reason 4
    else if fieldBad then reason 5
    else if s.workingCores ld d < (if d.dup then 2 * q else q) then reason 6
    else if d.objects.any d.badObject || decide (4096 < d.objCount) then reason 7
    else if 256 < d.localTiles +
        (d.objects.map (d.objectTiles (s.get F.MRK_SPLIT_THRESH_THRESH))).sum then reason 8
    else if s.badPins ld d || decide (q < d.pinCount) then reason 9
    else none

/-- The lowest free slot (DESIGN CHOICE, log entry 17). -/
def State.freeSlot (s : State) : Option Nat :=
  (List.range 64).find? fun n => match findKey s.slots n with
    | some o => !o.inService
    | none => true

/-- Room for a cut order: a free slot and enough eligible segments (07 R266). -/
def State.hasRoom (s : State) (ld : Nat) (d : Descriptor) : Bool :=
  s.freeSlot.isSome && (s.placeOrder none ld d).isSome

/-- A cut order accepted into a slot. -/
def State.acceptOrder (s : State) (ld : Nat) (d : Descriptor) : State :=
  match s.freeSlot with
  | none => s
  | some n =>
    let gen := match findKey s.slots n with
      | some o => (o.gen + 1) % 1024
      | none => 0
    let o : CutOrder := { st := 1, gen, ld, desc := d }
    ((s.setOrder n o).put F.MRK_STAT_LAST_ID (o.id n)).addWrap F.MRK_STAT_ACCEPTED 1

/-- An entry acknowledged: the ring's head moves past it (07 R260). -/
def State.advanceHead (s : State) (ld : Nat) : State :=
  s.put F.CXL_LDk_RINGPTR_HEAD
    ((s.get F.CXL_LDk_RINGPTR_HEAD ld + 1) % 2 ^ s.get F.CXL_LDk_RING_LOG2SIZE ld) ld

/-- The ring of a logical device has an entry that Marker may take. -/
def State.ringWaits (s : State) (ld : Nat) : Bool :=
  s.flag F.CXL_LDk_RING_EN ld && s.get F.CXL_LDk_RINGPTR_HEAD ld != s.get F.CXL_LDk_RINGPTR_TAIL ld &&
    (findKey s.waitingOrders ld).isNone

/-- The ring that Marker serves next, in rotating order after the last (07 R260). -/
def State.nextRing (s : State) : Option Nat :=
  ((List.range 16).map fun i => (s.markerLast + 1 + i) % 16).find? fun ld => s.ringWaits ld

/-- A CUT entry: rejected, accepted, or left waiting at the head of its ring. -/
def State.takeCut (s : State) (ld : Nat) (e : RingEntry) : State :=
  match s.cutReason ld e with
  | some (r, none) => (s.countReject ld r).advanceHead ld
  | some (r, some d) => (s.rejectOrder ld d r).advanceHead ld
  | none =>
    match e.order with
    | none => s
    | some d =>
      if s.hasRoom ld d then (s.acceptOrder ld d).advanceHead ld
      else if e.flags.testBit 0 then (s.rejectOrder ld d 10).advanceHead ld
      else
        let o : CutOrder := { st := 9, gen := 0, ld, desc := d }
        { s with waitingOrders := putKey s.waitingOrders ld o }.noteOrder 0 o

/-- An ABORT or RELEASE entry: the cut order takes it at its next change of state (07 R267). -/
def State.takeEnd (s : State) (ld id : Nat) (release : Bool) : State :=
  match findKey s.slots (id % 64) with
  | none => s
  | some o =>
    if o.inService && o.gen == id / 64 && o.ld == ld && (!release || o.st == 5) && o.ending.isNone then
      s.keepOrder (id % 64) { o with ending := some (if release then 6 else 8, false) }
    else s

/-- RING_ENTRY_TAKE: Marker takes the next entry, which reads as given, of the ring whose turn it is (07 R260, R261). -/
def execRingEntryTake (e : RingEntry) (s : State) : Out :=
  if !(s.flag F.CLK_BLKEN_MRK && s.flag F.MRK_CTL_ENABLE) then .next s
  else match s.nextRing with
    | none => .next s
    | some ld =>
      let s := { s with markerLast := ld }
      if !e.reservedZero || !(e.kind == 1 || ((e.kind == 2 || e.kind == 3) && e.flags == 0)) then
        .next ((s.countReject ld 1).advanceHead ld)
      else if e.kind = 1 then .next (s.takeCut ld e)
      else .next ((s.takeEnd ld (e.arg % 2 ^ 16) (e.kind == 3)).advanceHead ld)

/-- CUT_WAIT_END: room has appeared for the waiting cut order of a logical device (07 R266). -/
def execCutWaitEnd (ld : Fin 16) (s : State) : Out :=
  match findKey s.waitingOrders ld.val with
  | none => .next s
  | some o =>
    .next (if s.hasRoom ld.val o.desc then
        ({ s with waitingOrders := delKey s.waitingOrders ld.val }.acceptOrder ld.val o.desc).advanceHead ld.val
      else s)

/-- A waiting cut order withdrawn (07 R266). -/
def State.withdraw (s : State) (ld : Nat) : State :=
  match findKey s.waitingOrders ld with
  | none => s
  | some o =>
    ({ s with waitingOrders := delKey s.waitingOrders ld }.rejectOrder ld o.desc 10).advanceHead ld

/-- WDRAW: the LD's host writes 1 to CXL_LDk_RINGPTR.WDRAW. -/
def execWdraw (ld : Fin 16) (s : State) : Out :=
  .next (if s.flag F.CLK_BLKEN_CXL then s.withdraw ld.val else s.gatedError (regOffset .CXL_LDk_RINGPTR ld.val 0))

/-! ### Resets that Marker asks for, and the end of a cut order -/

/-- The core resets of an ABORT or a RELEASE begin. -/
def State.resetOrder (s : State) (slot : Nat) (o : CutOrder) (final : Nat) : State :=
  let s := o.allCores.foldl (fun s n => s.coreReset (BitVec.ofNat 20 n)) s
  s.keepOrder slot { o with ending := some (final, true) }

/-- A cut order leaves service: its segments are free, its ring is freed. -/
def State.endOrder (s : State) (slot : Nat) (o : CutOrder) (final : Nat) : State :=
  let s := o.allCores.foldl (fun s n => ((s.put F.INT_DUPSTAT_DUP 0 n).put F.INT_DUPSTAT_SHADOW 0 n).put
    F.CORE_RING_CFG_VALID 0 n) (s.freeRing slot)
  s.setOrder slot { o with st := final, endTr := s.now, cores := [], segments := [], ending := none }

/-- An ABORT or RELEASE on its way goes one step on: the resets begin, or the cut order ends once they are over. -/
def State.stepEnding (s : State) (slot : Nat) (o : CutOrder) : State :=
  if s.orderInReset o then s.keepOrder slot o
  else match o.ending with
  | none => s
  | some (final, false) =>
    if o.cores.isEmpty then s.endOrder slot o final else s.resetOrder slot o final
  | some (final, true) =>
    if o.allCores.any fun n => (s.core (BitVec.ofNat 20 n)).absorbing then s.keepOrder slot o else s.endOrder slot o final

/-- An access of Marker or a cue engine to a core's SRAM, instruction store or window: GATED while the core's clocks are off
(02 R89). -/
def State.onCore (s : State) (c : Lcn) (f : State → State) : State :=
  if s.clocked c then f s else s.gatedError (blockOffset .core c.toNat)

/-- An object's own range of tiles read back from the cores of a cut order (07 R265); a tile of a core whose clocks are off is
not. -/
def State.objectBack (s : State) (o : CutOrder) (e : ObjectEntry) (place : Nat × Nat) : State :=
  let a := e.src.toNat
  let write (s : State) (c : Lcn) (k tile : Nat) : State :=
    if e.size ≤ 256 * k then s
    else s.onCore c fun s => s.hostWrite o.ld (a + 256 * k) (min 256 (e.size - 256 * k)) (s.readTile c tile).toNat
  if !e.oflags.testBit 1 || a == 0 then s
  else if e.kind = 0 then
    o.cores.zipIdx.foldl (fun s c => (List.range place.2).foldl (fun s k =>
      write s (BitVec.ofNat 20 c.1) (place.2 * c.2 + k) (place.1 + k)) s) s
  else
    let home := if e.oflags.testBit 0 then e.pinLcn else (o.cores[e.first / max 1 o.desc.tpc]?).getD 0
    (List.range place.2).foldl (fun s k => write s (BitVec.ofNat 20 home) k (place.1 + k)) s

/-- Every thread of a cut order is STOPPED or TRAPPED and none holds a tag. -/
def State.orderQuiet (s : State) (o : CutOrder) : Bool :=
  (o.threads.all fun e => match (s.thread e.1 e.2.1).st with
    | .stopped | .trapped => true
    | _ => !s.backed e.1) &&
  o.allCores.all fun n => !s.backed (BitVec.ofNat 20 n) || (s.core (BitVec.ofNat 20 n)).heldTags.isEmpty

/-- CUT_ORDER_SETTLE: a cut order reaches HELD, or DONE once its OUT objects are written back; an ABORT or a RELEASE on
its way goes on (07 R265, R267). -/
def execCutOrderSettle (slot : Fin 64) (s : State) : Out :=
  match findKey s.slots slot.val with
  | none => .next s
  | some o =>
    if !o.inService then .next s
    else if o.ending.isSome then .next (s.stepEnding slot.val o)
    else if o.st = 4 ∧ s.orderQuiet o = true then
      if s.trapped o = 0 then
        let s := (o.desc.objects.zip o.objects).foldl (fun s e => s.objectBack o e.1 e.2) s
        .next (s.endOrder slot.val o 6)
      else .next (s.setOrder slot.val { o with st := 5 })
    else .next s

/-! ### Placement and loading -/

/-- The tree entries of a core cleared (08 R336). -/
def State.clearTrees (s : State) (c : Lcn) : State :=
  (List.range 16).foldl (fun s n => s.put F.FAB_TREEn_A_KIND 0 c.toNat n) s

/-- A node of a tree written into the first unused entry of a core (08 R319, Tables 8.7 and 8.8); the manual does not say
where a split row's sum is written, so DST_TILE and TACK of a root are free values (log entry 18). -/
def State.putNode (s : State) (c : Lcn) (tree kind : Nat) (right : Bool) (parent : Nat) : State :=
  let u := c.toNat
  match (List.range 16).find? fun n => s.get F.FAB_TREEn_A_KIND u n == 0 with
  | none => s
  | some n =>
    let s := ((((((s.put F.FAB_TREEn_A_TREE tree u n).put F.FAB_TREEn_A_KIND kind u n).put F.FAB_TREEn_A_SIDE (bit right) u
      n).put F.FAB_TREEn_A_NCHILD (bit (decide (2 ≤ kind))) u n).put F.FAB_TREEn_A_FMT 8 u n).put F.FAB_TREEn_A_PARENT
      (if s.flag F.INT_DUPSTAT_SHADOW u then parent ^^^ 0x80000 else parent) u n).put F.FAB_TREEn_B_STEP 0 u n
    if kind = 3 then
      let (dst, s) := s.free 8
      let (tack, s) := s.free 5
      (s.put F.FAB_TREEn_B_DST_TILE dst.toNat u n).put F.FAB_TREEn_B_TACK tack.toNat u n
    else s

/-- The nodes of a tree over the segments `lo` to `hi` − 1, whose cores `cores` lists: a pair of halves meets at the core of
the second half's first segment, the root at the owner (DESIGN CHOICE, log entry 18). The nodes go to the cores with the bits of
`mask` inverted, and the parents are named by primary numbers, which `putNode` inverts on a shadow (15 R556). -/
def State.putTree (s : State) (cores : List Lcn) (mask : Lcn) (tree : Nat) (parent : Nat) (right : Bool) (root : Bool)
    (lo hi : Nat) : Nat → State
  | 0 => s
  | fuel + 1 =>
    let core (i : Nat) : Lcn := (cores[i]?).getD 0
    if hi ≤ lo + 1 then s.putNode (core lo ^^^ mask) tree 1 right parent
    else
      let mid := (lo + hi) / 2
      let node := if root then core 0 else core mid
      let s := s.putNode (node ^^^ mask) tree (if root then 3 else 2) right parent
      let s := s.putTree cores mask tree node.toNat false false lo mid fuel
      s.putTree cores mask tree node.toNat true false mid hi fuel

/-- The trees of a cut order's split rows written on its cores, and on its shadows. -/
def State.putTrees (s : State) (o : CutOrder) : State :=
  let trees := (o.desc.objects.filter fun e => e.kind == 3).foldl (fun (acc : List (Nat × List Nat)) e =>
    acc ++ (o.desc.placeRows o.thresh e (1 + acc.length)).2) []
  let lcn (q : Nat) : Lcn := BitVec.ofNat 20 ((o.cores[q]?).getD 0)
  let put (mask : Lcn) (s : State) (t : Nat × List Nat) : State :=
    s.putTree (t.2.map lcn) mask t.1 0 false true 0 t.2.length 8
  let s := trees.foldl (put 0) s
  if o.dup then trees.foldl (put 0x80000) s else s

/-- A core joins a cut order: INT_DUPSTAT, and no tree entries yet. -/
def State.joinOrder (s : State) (o : CutOrder) (c : Lcn) : State :=
  let u := c.toNat
  let s := ((s.put F.INT_DUPSTAT_DUP (bit o.dup) u).put F.INT_DUPSTAT_SHADOW
    (bit (o.dup && !o.cores.contains u)) u).put F.INT_DUPSTAT_PARTNER (if o.dup then u ^^^ 0x80000 else 0) u
  s.clearTrees c

/-- A core leaves a cut order before RUNNING: its redundancy marks and its ring membership go, and its tree entries are
cleared. -/
def State.leaveOrder (s : State) (n : Nat) : State :=
  (((s.put F.INT_DUPSTAT_DUP 0 n).put F.INT_DUPSTAT_SHADOW 0 n).put F.CORE_RING_CFG_VALID 0 n).clearTrees (BitVec.ofNat 20 n)

/-- The tables of a slot's window as a placement or a migration leaves them (07 Table 7.12). -/
def CutOrder.tables (o : CutOrder) (slot : Nat) : SlotTables :=
  { id := o.id slot, ld := o.ld, st := o.st, cores := o.desc.cores, tpc := o.desc.tpc, threads := o.desc.threads,
    pgen := o.pgen, objects := (o.desc.objects.zip o.objects).map fun e => (e.2.1, e.2.2, e.1.kind, e.1.src.toNat),
    ranks := o.cores }

/-- A placement takes effect: PLACING, then LOADING, with the tables, trees and ring registers it fixes. Cores of an earlier
placement that it leaves out are no longer the cut order's. -/
def State.takePlacement (s : State) (slot : Nat) (o : CutOrder) (p : Placement) (us : Nat) : State :=
  let s := s.setOrder slot { o with st := 2 }
  let old := o.allCores
  let thresh := s.get F.MRK_SPLIT_THRESH_THRESH
  let o := { o with st := 3, cores := p.cores, segments := p.segments, thresh, objects := o.desc.layout thresh }
  let s := (old.filter fun n => !o.allCores.contains n).foldl State.leaveOrder (s.setOrder slot o)
  let s := { s with slotTables := putKey s.slotTables slot (o.tables slot) }
  let s := o.allCores.foldl (fun s n => s.joinOrder o (BitVec.ofNat 20 n)) s
  let s := s.putTrees o
  let s := (s.put F.MRK_PLACE_US_LAST us).put F.MRK_PLACE_US_MAX (max us (s.get F.MRK_PLACE_US_MAX))
  match s.ringOfSlot slot with
  | some j => s.placeRing j
  | none => s

/-- CUT_PLACEMENT: Marker places a cut order in ACCEPTED; the placement takes `us` µs. -/
def execCutPlacement (slot : Fin 64) (us : Fin 501) (s : State) : Out :=
  match findKey s.slots slot.val with
  | none => .next s
  | some o =>
    if o.st ≠ 1 ∨ s.flag F.MRK_CTL_PAUSE = true ∨ s.flag F.CLK_BLKEN_MRK = false then .next s
    else if o.ending.isSome then .next (s.stepEnding slot.val o)
    else match s.placeOrder (some slot.val) o.ld o.desc with
      | none => .next s
      | some p => .next (s.takePlacement slot.val o p us.val)

/-- CUT_REPLACE: an assigned core became unbacked before RUNNING, so Marker places the cut order again (07 R276). -/
def execCutReplace (slot : Fin 64) (us : Fin 501) (s : State) : Out :=
  match findKey s.slots slot.val with
  | none => .next s
  | some o =>
    if o.st ≠ 3 ∨ (o.allCores.any fun n => !s.backed (BitVec.ofNat 20 n)) = false then .next s
    else match s.placeOrder (some slot.val) o.ld o.desc with
      | none => .next s
      | some p => .next (s.takePlacement slot.val { o with pgen := o.pgen + 1 } p us.val)

/-- A tile of an object written on a core, and for a cut order under full redundancy on the core's shadow. -/
def State.loadTileAt (s : State) (o : CutOrder) (c : Lcn) (tile : Nat) (t : Tile) : State :=
  let s := s.onCore c fun s => s.writeTile c tile t
  if o.dup then s.onCore (c ^^^ 0x80000) fun s => s.writeTile (c ^^^ 0x80000) tile t else s

/-- A tile of an object written on a core index of a cut order. -/
def State.loadTile (s : State) (o : CutOrder) (q tile : Nat) (t : Tile) : State :=
  s.loadTileAt o (BitVec.ofNat 20 ((o.cores[q]?).getD 0)) tile t

/-- The records of a SPARSE object written on their cores, each with its own header (07 R273). -/
def State.loadRows (s : State) (o : CutOrder) (rows : List PlacedRow) (first : Nat) : State :=
  (List.range o.cores.length).foldl (fun s q =>
    let r := (rows.filter fun r => r.q == q).foldl (fun (e : State × Nat) r =>
      let base := if r.lead % 4 = 1 then e.2 + 1 else e.2 + 2
      let s := e.1.loadTile o q e.2 (BitVec.ofNat 2048 (r.lead + base % 256 * 2 ^ 24))
      (r.rest.zipIdx.foldl (fun s t => s.loadTile o q (e.2 + 1 + t.2) t.1) s, e.2 + 1 + r.rest.length)) (s, first)
    r.1.loadTile o q r.2 0) s

/-- An object written to the SRAM of the cores (07 R272); a pinned SINGLE object on its core, which need be none of the cut
order's. -/
def State.loadObject (s : State) (o : CutOrder) (e : ObjectEntry) (place : Nat × Nat) (tree : Nat) : State :=
  match e.kind with
  | 0 => (List.range o.cores.length).foldl (fun s q => (List.range place.2).foldl (fun s k =>
      s.loadTile o q (place.1 + k) (contentTile e.content (place.2 * q + k))) s) s
  | 1 =>
    let home := if e.oflags.testBit 0 then e.pinLcn else (o.cores[e.first / max 1 o.desc.tpc]?).getD 0
    (List.range place.2).foldl (fun s k =>
      s.loadTileAt o (BitVec.ofNat 20 home) (place.1 + k) (contentTile e.content k)) s
  | 3 => s.loadRows o (o.desc.placeRows o.thresh e tree).1 place.1
  | _ => s

/-- Every object of a cut order written. -/
def State.loadObjects (s : State) (o : CutOrder) : State :=
  ((o.desc.objects.zip o.objects).foldl (fun (acc : State × Nat) e =>
    let trees := if e.1.kind = 3 then
        (o.desc.placeRows o.thresh e.1 acc.2).2.length
      else 0
    (acc.1.loadObject o e.1 e.2 acc.2, acc.2 + trees)) (s, 1)).1

/-- The image at instruction-store address 0 with its parity, unless a thread of the core runs, and the seed, which a core that is
not quiet discards with REJ; a core whose clocks are off takes neither (02 R70, R89; 07 R275; 05 R198, R202). -/
def State.loadCore (s : State) (o : CutOrder) (c : Lcn) : State := s.onCore c fun s =>
  let base := c.toNat * 0x2000
  let n := o.desc.imageLen
  let v := (o.desc.image.take n).foldr (fun b acc => b.toNat + 256 * acc) 0
  let s := if allThreads.any fun t => [ThreadState.running, .stalled, .waiting].contains (s.thread c t).st then
      s.put F.CORE_STAT_ISTORE_REJ 1 c.toNat
    else { s with
      istore := writeLE s.istore 0xFF base v n
      istoreBad := s.istoreBad.filter fun w => !(decide (base / 4 ≤ w) && decide (w < (base + n + 3) / 4)) }
  if s.quiet c then (s.put F.CORE_SRSEED_SEED o.desc.seed.toNat c.toNat).seedAll c
  else s.put F.CORE_SRCMD_REJ 1 c.toNat

/-- A thread starts at ENTRY with its start registers, all others zero (07 R275). -/
def State.startThread (s : State) (slot : Nat) (o : CutOrder) (c : Lcn) (t : Fin 4) (rank : Nat) : State :=
  let th := { s.thread c t with s := [], a := [], p := 1, t := [], pc := o.desc.entry, st := .running, stall := 0
                                wait := none, digest := 0 }
  let window := 0x00FF001000000000 + slot * 0x400000
  let th := ((((th.writeS 1 (BitVec.ofNat 64 rank)).writeS 2 (BitVec.ofNat 64 o.desc.threads)).writeS 3 o.desc.arg).writeS 4
    (BitVec.ofNat 64 window)).writeS 5 (BitVec.ofNat 64 (o.coreIndex c))
  s.setThread c t th

/-- Every thread of a cut order on a backed core is STOPPED and holds no tag, so that Marker may start it (03 R120). -/
def State.mayStart (s : State) (o : CutOrder) : Bool :=
  o.threads.all fun e => !s.backed e.1 || ((s.thread e.1 e.2.1).st == .stopped && (s.core e.1).heldBy e.2.1 == 0)

/-- CUT_LOAD_COMPLETE: image, seed and objects are written and every thread starts, once every thread may (07 R275, 03 R120). A
thread whose pinned core is not backed is lost (07 R276, 16 R577). -/
def execCutLoadComplete (slot : Fin 64) (s : State) : Out :=
  match findKey s.slots slot.val with
  | none => .next s
  | some o =>
    let pinned (n : Nat) : Bool := o.desc.pins.any fun e => e.2 == n
    if o.st ≠ 3 ∨ (o.allCores.any fun n => !pinned n && !s.backed (BitVec.ofNat 20 n)) = true then .next s
    else if o.ending.isSome then .next (s.stepEnding slot.val o)
    else if !s.mayStart o then .next s
    else
      let s := o.allCores.foldl (fun s n => s.loadCore o (BitVec.ofNat 20 n)) s
      let s := s.loadObjects o
      let s := o.threads.foldl (fun s e => if s.backed e.1 then s.startThread slot.val o e.1 e.2.1 e.2.2 else s) s
      let lost := (o.threads.filter fun e => !s.backed e.1).length
      .next (s.setOrder slot.val { o with st := 4, startTr := s.now, lost })

/-! ### Migration (07 R278 to R282, 10 R389) -/

/-- A core is pinned: by the pin list, or by a pinned SINGLE object (01 R39, 07 R272, R278). -/
def Descriptor.pinned (d : Descriptor) (n : Nat) : Bool :=
  (d.pins.any fun e => e.2 == n) || d.objects.any fun e => e.kind == 1 && e.oflags.testBit 0 && e.pinLcn == n

/-- The cores of a cut order that a migration out of a field moves: its unpinned cores there. -/
def CutOrder.moves (o : CutOrder) (f : Nat) : List Nat :=
  o.cores.filter fun n =>
    (fieldOf (BitVec.ofNat 20 n) == f || (o.dup && fieldOf (BitVec.ofNat 20 (n ^^^ 0x80000)) == f)) && !o.desc.pinned n

/-- The slots of the cut orders that a migration of a field takes. -/
def State.migrants (s : State) (f : Nat) : List Nat :=
  (s.slots.filter fun e => e.2.inService && decide (3 ≤ e.2.st) && e.2.desc.migratable &&
    !(e.2.moves f).isEmpty).map (·.1)

/-- Every thread of a slot's cut order halted, or resumed. -/
def State.haltOrder (s : State) (slot : Nat) : State :=
  match findKey s.slots slot with
  | some o => o.threads.foldl (fun s e => s.haltThread e.1 e.2.1) s
  | none => s

def State.resumeOrder (s : State) (slot : Nat) : State :=
  match findKey s.slots slot with
  | some o => o.threads.foldl (fun s e => s.resumeThread e.1 e.2.1) s
  | none => s

/-- A migration begins: the first cut order of the field is halted. -/
def State.beginMigration (s : State) (f : Nat) (parks : Bool) : State :=
  let l := s.migrants f
  let s := (s.put F.MRK_MIG_STAT_BUSY 1).put F.MRK_MIG_STAT_FIELD f
  let s := { s with migration := some { field := f, todo := l, parks } }
  match l with
  | n :: _ => s.haltOrder n
  | [] => s

/-- MRK_MIGRATE: a write of MRK_MIGRATE with GO 1. -/
def execMrkMigrate (f : Fin 64) (s : State) : Out :=
  if !s.flag F.CLK_BLKEN_MRK then .next (s.gatedError (regOffset .MRK_MIGRATE 0 0))
  else if s.flag F.MRK_MIG_STAT_BUSY || !s.flag F.MRK_CTL_MIG_EN then .next s
  else .next (s.beginMigration f.val false)

/-- No core of a cut order holds a tag and no spool transfer of it is in flight (07 R279). -/
def State.orderDrained (s : State) (o : CutOrder) : Bool :=
  o.allCores.all fun n =>
    let c : Lcn := BitVec.ofNat 20 n
    (s.core c).heldTags.isEmpty && !(s.spool.any fun r => r.core == c)

/-- Every ring unit of a cut order's ring is IDLE; a cut order without a ring passes. -/
def State.ringIdle (s : State) (slot : Nat) (o : CutOrder) : Bool :=
  (s.ringOfSlot slot).isNone || o.allCores.all fun n => s.get F.CORE_RING_STAT_STATE n == 0

/-- The register fields of one core moved to another. -/
def moveRegs (regs : PMap Nat) (a b : Nat) : PMap Nat :=
  let own (k : Nat) : Bool := decide (k / 2 ^ 32 < coreFieldCount) && k / 2 ^ 12 % 2 ^ 20 == a
  let old (k : Nat) : Bool := decide (k / 2 ^ 32 < coreFieldCount) && k / 2 ^ 12 % 2 ^ 20 == b
  (regs.filter fun e => own e.1).foldl (fun m e => putKey m (e.1 / 2 ^ 32 * 2 ^ 32 + b * 2 ^ 12 + e.1 % 2 ^ 12) e.2)
    (regs.filter fun e => !own e.1 && !old e.1)

/-- The timed counters of one core that have run moved to another. -/
def moveTicked (l : List Nat) (a b : Nat) : List Nat :=
  let of (c k : Nat) : Bool := decide (k / 2 ^ 32 < coreFieldCount) && k / 2 ^ 12 % 2 ^ 20 == c
  (l.filter fun k => !of a k && !of b k) ++ (l.filter (of a)).map fun k => k / 2 ^ 32 * 2 ^ 32 + b * 2 ^ 12 + k % 2 ^ 12

/-- The cells of one range of addresses moved to another of the same length. -/
def moveCells {α : Type} (m : PMap α) (a b n : Nat) : PMap α :=
  let inside (x k : Nat) : Bool := decide (x ≤ k) && decide (k < x + n)
  (m.filter fun e => inside a e.1).foldl (fun m e => putKey m (e.1 - a + b) e.2)
    (m.filter fun e => !inside a e.1 && !inside b e.1)

/-- The numbers of one range moved to another. -/
def moveKeys (l : List Nat) (a b n : Nat) : List Nat :=
  (l.filter fun k => !(decide (a ≤ k) && decide (k < a + n)) && !(decide (b ≤ k) && decide (k < b + n))) ++
    ((l.filter fun k => decide (a ≤ k) && decide (k < a + n)).map fun k => k - a + b)

/-- The whole state of a core copied to another (07 R279, step 4): memories with their checksums and parity, threads,
registers, accumulators, lanes; the old core keeps nothing. -/
def State.moveCore (s : State) (c d : Lcn) : State :=
  let a := c.toNat
  let b := d.toNat
  let lanes := (List.range 256).map fun l => s.lane c l
  let s := { s with
    regs := moveRegs s.regs a b
    threads := moveCells s.threads (4 * a) (4 * b) 4
    cores := moveCells s.cores a b 1
    sram := moveCells s.sram (65536 * a) (65536 * b) 65536
    ticked := moveTicked s.ticked a b
    damaged := moveKeys s.damaged (256 * a) (256 * b) 256
    badTiles := moveKeys s.badTiles (256 * a) (256 * b) 256
    istore := moveCells s.istore (0x2000 * a) (0x2000 * b) 0x2000
    istoreBad := moveKeys s.istoreBad (0x800 * a) (0x800 * b) 0x800
    patStore := moveCells s.patStore (0x4000 * a) (0x4000 * b) 0x4000
    patBad := moveKeys s.patBad (0x1000 * a) (0x1000 * b) 0x1000 }
  let s := lanes.zipIdx.foldl (fun s e => s.setLane d e.2 e.1) s
  { s with lanes := s.lanes.filter fun e => e.1 / 256 != a }.put F.CORE_CTL_CLK_EN 1 a

/-- A core number after a migration's moves. -/
def movedTo (moves : List (Nat × Nat)) (n : Nat) : Nat :=
  match moves.find? fun e => e.1 == n with
  | some e => e.2
  | none => n

/-- The core numbers that Marker keeps in a core of a migrated cut order: tree parents, and the PEERs of its slots and of
its active ends (08 R319, 10 R389). -/
def State.rewriteCore (s : State) (c : Lcn) (moves : List (Nat × Nat)) : State :=
  let u := c.toNat
  let s := (List.range 16).foldl (fun s n =>
    s.put F.FAB_TREEn_A_PARENT (movedTo moves (s.get F.FAB_TREEn_A_PARENT u n)) u n) s
  let s := (List.range 8).foldl (fun s e =>
    s.put F.CORE_QENDe_A_PEER (movedTo moves (s.get F.CORE_QENDe_A_PEER u e)) u e) s
  (List.range 4).foldl (fun s slot => s.rewritePeers c slot (movedTo moves)) s

/-- Steps 4 and 5 of a migration for one cut order. -/
def State.moveOrder (s : State) (slot : Nat) (o : CutOrder) (p : Placement) : State :=
  let pairs := o.cores.zip p.cores
  let pairs := pairs ++ if o.dup then pairs.map fun e => (e.1 ^^^ 0x80000, e.2 ^^^ 0x80000) else []
  let moves := pairs.filter fun e => e.1 != e.2
  let s := moves.foldl (fun s e => s.moveCore (BitVec.ofNat 20 e.1) (BitVec.ofNat 20 e.2)) s
  let s := pairs.foldl (fun s e => s.rewriteCore (BitVec.ofNat 20 e.2) moves) s
  let moved (m : PMap RingReport) : PMap RingReport := m.foldl (fun m r => putKey m (movedTo moves r.1) r.2) []
  let rings := s.rings.map fun e => if e.2.slot = slot then (e.1, { e.2 with reports := moved e.2.reports }) else e
  let s := { s with rings }
  let tables := s.slotTables.map fun e =>
    if e.1 = slot then (e.1, { e.2 with ranks := p.cores, pgen := o.pgen + 1 }) else e
  { s with slotTables := tables }.keepOrder slot { o with cores := p.cores, segments := p.segments, pgen := o.pgen + 1 }

/-- The migration goes on to its next cut order, or ends after `us` µs. -/
def State.nextMigration (s : State) (us : Nat) : State :=
  match s.migration with
  | none => s
  | some m =>
    match m.todo.drop 1 with
    | n :: l => { s with migration := some { m with todo := n :: l } }.haltOrder n
    | [] =>
      let s := ((s.put F.MRK_MIG_STAT_BUSY 0).put F.MRK_MIG_STAT_DONE 1).put F.MRK_MIG_STAT_LAST_US us
      { s with migration := none }

/-- A migration finds too few segments, or its ring stays busy: the cut order resumes unmoved (07 R282). -/
def State.failMigration (s : State) (slot us : Nat) : State :=
  ((s.resumeOrder slot).put F.MRK_MIG_STAT_FAIL 1).nextMigration us

/-- Where the cores of a cut order go when some of them leave a field (07 R279, step 3). -/
def State.migrationPlace (s : State) (slot : Nat) (o : CutOrder) (f : Nat) : Option Placement :=
  let gone := o.moves f
  let stay := (o.cores.zipIdx.filter fun e => !gone.contains e.1).map fun e => (e.2, e.1)
  let others := (s.slots.filter fun e => e.2.inService && slot != e.1).flatMap fun e => e.2.segments
  let keep := o.segments.filter fun seg => stay.any fun e =>
    let g := segmentOf (BitVec.ofNat 20 e.2)
    seg == g || (o.dup && seg == partnerSegment g) || (o.desc.panelExcl && segmentPanel seg == segmentPanel g)
  let away := (List.range 8192).filter fun seg => segmentField seg == f
  (s.place o.ld o.desc (s.ringOfSlot slot).isSome false (others ++ s.tests.map (·.1) ++ away ++ keep) stay).map fun p =>
    { p with segments := (keep ++ p.segments).eraseDups }

/-- Marker's resources for the cut order that a migration moves are free: no tag is held, no spool transfer is in flight,
and a ring's units are all IDLE (07 R279, 12 Table 12.5). -/
def State.mayMove (s : State) (slot : Nat) (o : CutOrder) : Bool := s.orderDrained o && s.ringIdle slot o

/-! ### MRK_SW_RST (07 Table 7.14, 12 R457) -/

/-- The MRK_ fields that a reset of the block returns to their reset values. -/
def isMarkerField (id : Nat) : Bool :=
  (decide (F.MRK_CTL_ENABLE.id ≤ id) && decide (id ≤ F.MRK_PLACE_US_MAX.id) && id != F.MRK_SPLIT_THRESH_THRESH.id) ||
    (decide (F.MRK_RINGj_SETUP_ID.id ≤ id) && decide (id ≤ F.MRK_RINGj_NAN_INF.id))

/-- Every ring fails: each of its units takes FAIL. -/
def State.failRings (s : State) : State :=
  s.rings.foldl (fun s e =>
    let s := match e.2.cueField with
      | some f => (s.disarm f (deadlineEntry e.1)).disarm f (markEntry e.1)
      | none => s
    { s.sendVerdict e.1 4 e.2 with rings := delKey s.rings e.1 }) s

/-- An ABORT of a cut order on its way, also in place of a RELEASE; core resets that have begun go on. -/
def CutOrder.aborting (o : CutOrder) : CutOrder :=
  { o with ending := some (8, match o.ending with | some (_, begun) => begun | none => false) }

/-- The reset of the MRK_ block: every cut order in service is aborted, fetch state is cleared, rings fail, and registers
return to their reset values. -/
def State.resetMarker (s : State) : State :=
  let s := s.slots.foldl (fun s e => if e.2.inService then s.stepEnding e.1 e.2.aborting else s) s
  let s := s.failRings
  { s.resetKeys (fun k => isMarkerField (k / 2 ^ 32)) with
    waitingOrders := []
    markerLast := 15
    migration := none }

/-- MRK_SW_RST: a write of 1 to MRK_CTL.SW_RST. -/
def execMrkSwRst (s : State) : Out :=
  .next (if s.flag F.CLK_BLKEN_MRK then s.resetMarker else s.gatedError (regOffset .MRK_CTL 0 0))

/-! ### The slot windows and the distance table (07 Table 7.12; 01 R33 to R36) -/

/-- The eight bytes at an aligned offset of a slot window: what Marker wrote there at the placement before RUNNING and has
changed only by a migration since, so the header's STATE too stands as it was written (07 R274, R279; DEDUCED, log entry
48). -/
def State.readSlot (s : State) (n off : Nat) : Nat :=
  match findKey s.slotTables n with
  | none => 0
  | some o =>
    if off = 0 then o.id + o.ld * 2 ^ 16 + o.st * 2 ^ 24
    else if off = 8 then o.cores + o.tpc * 2 ^ 32
    else if off = 0x10 then o.threads
    else if off = 0x18 then o.pgen
    else if off < 0x1000 then 0
    else if off < 0x20000 then
      match o.objects[(off - 0x1000) / 16]? with
      | some (first, tiles, kind, src) => if off % 16 = 0 then first + tiles * 2 ^ 16 + kind * 2 ^ 32 else src
      | none => 0
    else
      let q := (off - 0x20000) / 4
      (o.ranks[q]?).getD 0 + (o.ranks[q + 1]?).getD 0 * 2 ^ 32

/-- A distance entry (01 Table 1.10). The route is that of a request; a link of the reply network in FAILED makes no entry
FENCED (DESIGN CHOICE, log entry 46: 01 R34 names one route and no network). -/
def State.distanceEntry (s : State) (a b : Nat) : Nat :=
  let parked := bit (!s.computeOn b) * 2 ^ 22
  let self := bit (decide (a = b)) * 2 ^ 23
  match s.centralRoute a b with
  | none => 0xFFF + 0x1F * 2 ^ 12 + 2 ^ 21 + parked + self
  | some r => r.hops + r.seams * 2 ^ 12 + r.holes.length * 2 ^ 17 + bit r.detour * 2 ^ 20 + parked + self

/-- A relocation-list entry with the hops and seams between the two rows at column 64 (01 Table 1.11); with no route there, the
values of a FENCED distance entry, 0xFFF and 0x1F (DESIGN CHOICE, log entry 46: Table 1.11 is silent). -/
def State.relocationEntry (s : State) (r : Relocation) : Nat :=
  let p := posOf r.lrow (r.fx * 128 + 64)
  let q := posOf (r.gfy * 128 + 112 + r.grow) (r.gfx * 128 + 64)
  let c := (s.routeCost p q).getD { hops := 0xFFF, seams := 0x1F }
  r.lrow + r.fx * 2 ^ 10 + r.gfx * 2 ^ 13 + r.gfy * 2 ^ 16 + r.grow * 2 ^ 19 + c.hops % 2 ^ 12 * 2 ^ 23 +
    c.seams % 2 ^ 5 * 2 ^ 35

/-- The eight bytes at an aligned offset of the distance table. -/
def State.readDistance (s : State) (off : Nat) : Nat :=
  if off = 0 then s.distGen
  else if off = 8 then 1 + 64 * 2 ^ 32
  else if off = 0x10 then s.relocations.length + 0x4040 * 2 ^ 32
  else if off < 0x40 then 0
  else if off < 0x4040 then
    let i := (off - 0x40) / 4
    s.distanceEntry (i / 64) (i % 64) + s.distanceEntry ((i + 1) / 64) ((i + 1) % 64) * 2 ^ 32
  else match s.relocations[(off - 0x4040) / 8]? with
    | some r => s.relocationEntry r
    | none => 0

end Sys2Proof.Machine
end

