-- ==== Sys2Proof/Machine/Wire.lean ====
section
/-!
DEFINITION. What crosses a wire as bits: the header flits and the check of a fabric packet (08 R295 to R297), and the frames
of a Selvedge port with their entries, check and striping (13 R460, R471, R472, R485).
-/

namespace Sys2Proof.Machine

/-! ### Packets (08 Tables 8.2 and 8.3) -/

/-- TYPE of a packet. -/
def PacketType.code : PacketType → Nat
  | .rd => 0
  | .wr => 1
  | .amo => 2
  | .msg => 3
  | .tsig => 4
  | .nsum => 5
  | .ncast => 6
  | .probe => 7
  | .rdr => 8
  | .ack => 9
  | .err => 10
  | .unb => 11
  | .prober => 12
  | .rstr => 13
  | .nsuma => 14
  | .ncasta => 15

/-- The fields of H0 that CHK covers: all but VC, CM, CE and DET. -/
def Packet.h0Checked (p : Packet) : Nat :=
  p.typ.code + bit p.f * 2 ^ 6 + p.flits % 64 * 2 ^ 10 + p.ld % 16 * 2 ^ 16 + p.rt.toNat * 2 ^ 20 +
    p.dst.toNat * 2 ^ 40 + p.opc % 16 * 2 ^ 60

/-- H0. -/
def Packet.h0 (p : Packet) : Word :=
  BitVec.ofNat 64 (p.h0Checked + p.channel * 2 ^ 4 + bit p.cm * 2 ^ 7 + bit p.ce * 2 ^ 8 + bit p.ring.isSome * 2 ^ 9)

/-- The fields of H1 other than CHK. -/
def Packet.h1Checked (p : Packet) : Nat :=
  p.src.toNat + p.sth.val * 2 ^ 20 + p.tag % 64 * 2 ^ 22 + p.gen % 16 * 2 ^ 28

/-- H2: ARG, where a PROBE carries the hops and seams that routers have counted. -/
def Packet.h2 (p : Packet) : Word :=
  BitVec.ofNat 64 (if p.typ = .probe then p.hops % 4096 + p.seams % 32 * 2 ^ 12 else p.arg)

/-- CHK as the sender computes it; H2 of a PROBE counts as zero (08 R296). `Packet.good` says that the bytes which arrive
still have this check. -/
def Packet.check (p : Packet) : BitVec 32 :=
  crc32 crcC (24 + 8 * p.flits) (p.h0Checked + p.h1Checked * 2 ^ 64 +
    (if p.typ = .probe then 0 else p.arg % 2 ^ 64) * 2 ^ 128 + p.body % 2 ^ (64 * p.flits) * 2 ^ 192)

/-- H1. -/
def Packet.h1 (p : Packet) : Word := BitVec.ofNat 64 (p.h1Checked + p.check.toNat * 2 ^ 32)

/-! ### Selvedge frames (13 Tables 13.3 to 13.6) -/

/-- The 272 bytes of a frame. -/
abbrev FrameBits := BitVec 2176

/-- The frame check over bytes 0 to 3, 8 to 15 and 16 to 271. -/
def frameCheck (head e0 slot : Nat) : BitVec 32 := crc32 crcC 268 (head + e0 * 2 ^ 32 + slot * 2 ^ 96)

/-- A frame of its fields. -/
def frameBits (kind dv fseq ackseq rdc wrc e0 slot : Nat) : FrameBits :=
  let head := kind % 8 + dv % 2 * 2 ^ 3 + fseq % 1024 * 2 ^ 4 + ackseq % 1024 * 2 ^ 14 + rdc % 16 * 2 ^ 24 +
    wrc % 16 * 2 ^ 28
  let e0 := e0 % 2 ^ 64
  let slot := slot % 2 ^ 2048
  BitVec.ofNat 2176 (head + (frameCheck head e0 slot).toNat * 2 ^ 32 + e0 * 2 ^ 64 + slot * 2 ^ 128)

/-- The `n` bits of a frame from bit `b`. -/
def frameField (v : FrameBits) (b n : Nat) : Nat := v.toNat / 2 ^ b % 2 ^ n

/-- The frame check holds. -/
def frameGood (v : FrameBits) : Bool :=
  (frameCheck (frameField v 0 32) (frameField v 64 64) (frameField v 128 2048)).toNat == frameField v 32 32

/-- KIND of a frame, and E0 of it. -/
def frameKind (v : FrameBits) : Nat := frameField v 0 3
def frameE0 (v : FrameBits) : Nat := frameField v 64 64

/-- An entry of 64 bits of a frame: E0, or E1 to E32 in the slot. -/
def frameEntry (v : FrameBits) (i : Nat) : Nat := if i = 0 then frameE0 v else frameField v (64 + 64 * i) 64

/-- CMD, TAG and STATUS of an entry from the unit, and whether it holds a reserved value: SIZE 5 to 7, or a bit that is zero
set. -/
def answerEntry (e : Nat) : Fin 16 × Fin 2048 × BitVec 8 × Bool :=
  (Fin.ofNat 16 e, Fin.ofNat 2048 (e / 2 ^ 8), BitVec.ofNat 8 (e / 2 ^ 19),
    decide (4 < e / 2 ^ 4 % 8) || decide (e / 2 ^ 60 % 16 ≠ 0))

/-- The entries of a frame: none in IDLE, E0 in SINGLE, and in a BUNDLE those before its first NOP. -/
def frameEntries (v : FrameBits) : List (Fin 16 × Fin 2048 × BitVec 8 × Bool) :=
  match frameKind v with
  | 1 => [answerEntry (frameE0 v)]
  | 2 => (((List.range 33).map fun i => answerEntry (frameEntry v i)).takeWhile fun e => e.1 != 0)
  | _ => []

/-- A frame as a port reads it. -/
def frameOf (v : FrameBits) : UnitFrame :=
  { kind := Fin.ofNat 8 (frameKind v)
    dv := v.getLsbD 3
    fseq := Fin.ofNat 1024 (frameField v 4 10)
    ackseq := Fin.ofNat 1024 (frameField v 14 10)
    rdc := Fin.ofNat 16 (frameField v 24 4)
    wrc := Fin.ofNat 16 (frameField v 28 4)
    entries := frameEntries v
    data := BitVec.ofNat 2048 (frameField v 128 2048) }

/-- A command entry of a port. -/
def PortCommand.entry (c : PortCommand) : Nat :=
  (if c.write then 2 else 1) + c.size % 8 * 2 ^ 4 + bit c.lk * 2 ^ 7 + c.tag % 2048 * 2 ^ 8 + c.addr % 2 ^ 41 * 2 ^ 19

/-- Bytes of a command's size. -/
def PortCommand.bytes (c : PortCommand) : Nat := if c.size = 4 then 256 else 2 ^ c.size

/-- Entries side by side, the first least significant; zeros, so NOPs, after the last. -/
def joinEntries (l : List Nat) : Nat := l.foldr (fun e v => e + v * 2 ^ 64) 0

/-- A sequenced frame of a port with the ACKSEQ of the moment at which it is sent; a port returns no credits. -/
def PortFrame.bits (f : PortFrame) (ackseq : Nat) : FrameBits :=
  let l := f.commands.map PortCommand.entry
  match f.commands with
  | [] => frameBits 0 0 f.fseq ackseq 0 0 0 0
  | c :: _ =>
    if f.bundle then frameBits 2 0 f.fseq ackseq 0 0 (l.headD 0) (joinEntries l.tail)
    else frameBits 1 (bit c.write) f.fseq ackseq 0 0 (l.headD 0) (if c.write then f.data % 2 ^ (8 * c.bytes) else 0)

/-! ### Link-control entries (13 Table 13.8) -/

/-- Code 1: the active lanes and the width. -/
def lctlLanes (active width : Nat) : Word := BitVec.ofNat 64 (1 + active % 512 * 2 ^ 4 + width % 2 * 2 ^ 13)

/-- Code 2: the port's number and VERSION 1. -/
def lctlPort (p : Nat) : Word := BitVec.ofNat 64 (2 + p % 32 * 2 ^ 4 + 2 ^ 9)

/-- Code 4: ready. -/
def lctlReady : Word := 4

/-- The capabilities of a code 3 entry. -/
def capsOf (e : Word) : Option UnitCaps :=
  if e.toNat % 16 = 3 then
    some { capGib := Fin.ofNat 4096 (e.toNat / 2 ^ 4), rdcred := Fin.ofNat 4096 (e.toNat / 2 ^ 16)
           wrcred := Fin.ofNat 1024 (e.toNat / 2 ^ 28), unitId := BitVec.ofNat 16 (e.toNat / 2 ^ 38) }
  else none

/-! ### Lanes (13 R460) -/

/-- The lane that byte `k` of a frame travels on, among the active lanes in ascending order. -/
def laneOfByte (lanes : List Nat) (k : Nat) : Nat := (lanes[k % lanes.length]?).getD 0

/-- The bytes of a frame that travel on a lane, its lane block, in ascending order. -/
def laneBlock (lanes : List Nat) (v : FrameBits) (lane : Nat) : List Byte :=
  ((List.range 272).filter fun k => laneOfByte lanes k == lane).map fun k => BitVec.ofNat 8 (frameField v (8 * k) 8)

end Sys2Proof.Machine
end

