-- ==== Sys2Proof/Machine/Selvedge.lean ====
section
/-!
DEFINITION. The Selvedge ports: checks of far-memory requests, the arbiter, frames to and from the unit, credits, replay,
retrain, lanes, training, failure and reset (13 R458 to R492).
-/

namespace Sys2Proof.Machine

/-! ### Ports -/

/-- A port's state beside its registers. -/
def State.port (s : State) (p : Nat) : Port := mget {} s.ports p

def State.setPort (s : State) (p : Nat) (q : Port) : State := { s with ports := mset {} s.ports p q }

/-- STATE of a port (13 Table 13.7). -/
def State.portState (s : State) (p : Nat) : Nat := s.get F.SEL_STAT_STATE p

def State.putPortState (s : State) (p v : Nat) : State := s.put F.SEL_STAT_STATE v p

/-- A far-memory request that waits at the attachment of a port. -/
def State.farRequest (s : State) (p : Nat) (id : Nat) : Option Packet :=
  s.fab.pkts.find? fun q => q.id == id && q.injected && q.fence == 2 ^ 23 + p && q.pos == q.rt && q.ring.isNone &&
    (q.typ == .rd || q.typ == .wr)

/-- A far offset lies in the far-memory window of a logical device (14 R504). -/
def State.inFarWindow (s : State) (ld o : Nat) : Bool :=
  let base := s.get F.CXL_LDk_FMWIN_FMBASE ld
  decide (base * 2 ^ 30 ≤ o) && decide (o < (base + s.get F.CXL_LDk_FMWIN_FMSIZE ld) * 2 ^ 30)

/-- The port refuses every request: OFF, TRAINING, FAILED or fused off (13 Table 13.2). -/
def State.portClosed (s : State) (p : Nat) : Bool :=
  s.portState p == 0 || s.portState p == 1 || s.portState p == 5 || s.flag F.SEL_STAT_FUSED p

/-- The first check of 13 Table 13.2 that a request of a logical device for far offset `o` fails. -/
def State.farError (s : State) (p ld o : Nat) : Option Nat :=
  if s.portClosed p then some 0x40
  else if !s.inFarWindow ld o then some 0x41
  else if s.get F.SEL_CAP_CAP_GIB p * 2 ^ 30 ≤ (s.farPort o).2 then some 0x42
  else none

/-- SEL_REQUEST: a far-memory request reaches its port: it waits in the mesh while the ingress buffer is full, and is
otherwise answered with the first check it fails, or accepted (13 R465, R468; 08 R299). -/
def execSelRequest (p : Fin 32) (pkt : Nat) (s : State) : Out :=
  match s.farRequest p.val pkt with
  | none => .next s
  | some q =>
    let port := s.port p.val
    if 256 ≤ port.ingress.length then .next s
    else
      let s := s.dropPacket pkt
      if !q.good then .next (s.replyErr q 0x20 0)
      else match s.farError p.val q.ld (q.arg % 2 ^ 46) with
        | some e => .next (s.replyErr q e 0)
        | none => .next (s.setPort p.val { port with ingress := port.ingress ++ [q] })

/-! ### Failure and reset of a port (13 R484) -/

/-- Every request that a port has accepted and not answered is answered ERR 0x46. -/
def State.answerAccepted (s : State) (p : Nat) : State :=
  let port := s.port p
  let held := (port.tags.filter fun e => !e.2.expired).map fun e => e.2.req
  (held ++ port.ingress).foldl (fun s q => s.replyErr q 0x46 0) s

/-- What a port keeps when it fails: the marker failures of its lanes and the beats of its episodes. -/
def Port.cleared (q : Port) : Port := { starts := q.starts, markers := q.markers }

/-- A port enters FAILED: its requests are answered, EVT is set and the event is raised for LD 0 and every LD that has far
memory (13 R484, 14 Table 14.7). -/
def State.failPort (s : State) (p : Nat) : State :=
  let s := (s.answerAccepted p).setPort p (s.port p).cleared
  let s := (s.putPortState p 5).put F.SEL_STAT_EVT 1 p
  let lds := (List.range 16).filter fun k => k == 0 || decide (0 < s.get F.CXL_LDk_FMWIN_FMSIZE k)
  s.raiseAll 6 lds p

/-- The SEL_ fields that a reset of a port returns to their reset values: all but SEL_MAP. -/
def isPortField (id : Nat) : Bool :=
  decide (F.SEL_ID_PORT.id ≤ id) && decide (id < F.SEL_MAP_MODE.id) && id != F.SEL_STAT_FUSED.id

/-- The reset of a port: its requests are answered, it goes to OFF, and its registers return to their reset values
(13 R484, R492). -/
def State.resetPort (s : State) (p : Nat) : State :=
  let s := (s.answerAccepted p).setPort p {}
  s.resetKeys fun k => isPortField (k / 2 ^ 32) && k / 2 ^ 12 % 2 ^ 20 == p

/-- SEL_SW_RST: a write of 1 to SEL_CTL.SW_RST. -/
def execSelSwRst (p : Fin 32) (s : State) : Out :=
  .next (s.ifClocked .SEL_CTL p.val 0 fun s => s.resetPort p.val)

/-- ATTACHMENT_ROUTER_FAILURE: the attachment router of a port fails in service (13 R463). -/
def execAttachmentRouterFailure (p : Fin 32) (s : State) : Out :=
  .next (if s.portState p.val = 5 then s else s.failPort p.val)

/-! ### The arbiter (13 R486 to R491) -/

/-- The panel that sent a request. -/
def Packet.panel (q : Packet) : Nat := panelOf q.src

/-- Port tags not in use. -/
def Port.freeTags (q : Port) : Nat := 2048 - q.tags.length

/-- A request could be sent now: it finds a free port tag and a credit of its kind (13 R475, R486). -/
def State.sendable (s : State) (p : Nat) (r : Packet) : Bool :=
  decide (0 < (s.port p).freeTags) &&
    decide (0 < if r.typ == .wr then s.get F.SEL_TAGSTAT_WRHELD p else s.get F.SEL_TAGSTAT_RDHELD p)

/-- The oldest request of a panel in the ingress buffer. -/
def Port.oldest (q : Port) (panel : Nat) : Option Packet := q.ingress.find? fun r => r.panel == panel

/-- The panels with requests in the ingress buffer, in rotation order from the arbiter's pointer. -/
def Port.requesters (q : Port) : List Nat :=
  let l := (q.ingress.map Packet.panel).eraseDups
  (List.range 512).filterMap fun i =>
    let panel := (q.pointer + i) % 512
    if l.contains panel then some panel else none

/-- The eligible requesters, in rotation order. -/
def State.portEligible (s : State) (p : Nat) : List Nat :=
  (s.port p).requesters.filter fun panel => match (s.port p).oldest panel with
    | some r => s.sendable p r
    | none => false

/-- The first of a list with the largest value of a measure. -/
def firstMost (l : List Nat) (f : Nat → Nat) : Option Nat :=
  l.foldl (fun b n => match b with
    | none => some n
    | some m => if f m < f n then some n else b) none

/-- The rank of a requester: that of the logical device of its oldest request, 0 the highest. -/
def State.rankOf (s : State) (p panel : Nat) : Nat :=
  match (s.port p).oldest panel with
  | some r => s.get F.SEL_LDRANK_RANKk p r.ld
  | none => 3

/-- The winner of an arbitration, and whether rule 2 forced it (13 R488). -/
def State.winner (s : State) (p : Nat) : Option (Nat × Bool) :=
  let port := s.port p
  let l := s.portEligible p
  let limit := s.get F.SEL_WAIT_LIMIT_LIMIT p
  let waits (panel : Nat) : Nat := mget 0 port.waits panel
  let owner := match port.lock with
    | some k => if l.contains k.panel then some k.panel else none
    | none => none
  match owner with
  | some panel => some (panel, false)
  | none =>
    if l.any fun panel => decide (limit ≤ waits panel) then (firstMost l waits).map fun panel => (panel, true)
    else (firstMost l fun panel => 3 - s.rankOf p panel).map fun panel => (panel, false)

/-- The requests that a grant to a panel carries: its oldest when that is a WR, and otherwise up to 33 of its RDs, as many
as tags and credits allow (13 R487). -/
def State.granted (s : State) (p panel : Nat) : List Packet :=
  let port := s.port p
  match port.oldest panel with
  | none => []
  | some r =>
    if r.typ == .wr then [r]
    else
      let n := min 33 (min port.freeTags (s.get F.SEL_TAGSTAT_RDHELD p))
      (port.ingress.filter fun q => q.panel == panel && q.typ == .rd).take n

/-- The lock mark of a request (13 R464). -/
def Packet.lk (r : Packet) : Bool := decide (r.opc / 8 % 2 = 1)

/-- Two requests belong to one spool request's run in one direction. -/
def Packet.sameRun (a b : Packet) : Bool :=
  match a.sender, b.sender with
  | .spool i _ w, .spool j _ v => i == j && w == v
  | _, _ => false

/-- The command of a request under a port tag; its address is the local address under the current mapping. -/
def State.portCommand (s : State) (r : Packet) (tag : Nat) (lk : Bool) : PortCommand :=
  { write := r.typ == .wr, size := r.opc % 8, lk, tag, addr := (s.farPort (r.arg % 2 ^ 46)).2 }

/-- The lowest port tags not in use (DESIGN CHOICE, log entry 11). -/
def Port.pickTags (q : Port) (n : Nat) : List Nat :=
  ((List.range (q.tags.length + n)).filter fun t => (findKey q.tags t).isNone).take n

/-- The wait counters after a beat with a winner, or without one (13 R489). -/
def waitAfter (waits : PMap Nat) (eligible : List Nat) (winner : Option Nat) : PMap Nat :=
  eligible.foldl (fun w panel => mset 0 w panel (if some panel = winner then 0 else mget 0 w panel + 1)) waits

/-- The last FSEQ sent, and the last one accepted: the ACKSEQ of a frame that is sent now. -/
def Port.lastSent (q : Port) : Nat := (q.next + 1023) % 1024
def Port.ackSeq (q : Port) : Nat := (q.expect + 1023) % 1024

/-- A frame goes out on the lanes of a port. -/
def State.emit (s : State) (p : Nat) (v : FrameBits) : State := { s with portOut := s.portOut ++ [(p, v)] }

/-- A frame that is not sequenced goes out: NAK, LCTL or FILL (13 Table 13.4). -/
def State.sendControl (s : State) (p kind e0 : Nat) : State :=
  s.emit p (frameBits kind 0 (s.port p).lastSent (s.port p).ackSeq 0 0 e0 0)

/-- A sequenced frame goes out, first or again. -/
def State.sendAgain (s : State) (p : Nat) (f : PortFrame) : State := s.emit p (f.bits (s.port p).ackSeq)

/-- A sequenced frame goes out under the next FSEQ and joins the replay buffer. -/
def State.sendFrame (s : State) (p : Nat) (commands : List PortCommand) (bundle : Bool) (data : Nat) : State :=
  let q := s.port p
  let f : PortFrame := { fseq := q.next, commands, bundle, data }
  (s.setPort p { q with next := (q.next + 1) % 1024, replay := q.replay ++ [f] }).sendAgain p f

/-- The end of a lock, if this grant to its owner ends it: none, or whether SEL_LOCK_MAX ended it and whether the frame's
last command loses its mark (13 R490). -/
def State.lockEnds (s : State) (p : Nat) (last : Packet) (grants : Nat) (rest : Port) : Option (Bool × Bool) :=
  if !last.lk then some (false, false)
  else if s.get F.SEL_LOCK_MAX_MAX p ≤ grants then some (true, true)
  else if rest.ingress.any fun r => r.sameRun last && s.sendable p r then none
  else some (false, true)

/-- A grant: its requests take tags and credits and go out in one frame. -/
def State.grant (s : State) (p panel : Nat) (forced : Bool) (reqs : List Packet) (last : Packet) : State :=
  let port := s.port p
  let writes := (reqs.filter fun r => r.typ == .wr).length
  let reads := reqs.length - writes
  let tags := port.pickTags reqs.length
  let rest : Port := { port with
    ingress := port.ingress.filter fun r => !(reqs.any fun q => q.id == r.id)
    tags := (reqs.zip tags).foldl (fun m e => putKey m e.2 { req := e.1 }) port.tags
    waits := waitAfter port.waits (s.portEligible p) (some panel)
    pointer := (panel + 1) % 512 }
  let s := s.put F.SEL_TAGSTAT_RDHELD (s.get F.SEL_TAGSTAT_RDHELD p - reads) p
  let s := s.put F.SEL_TAGSTAT_WRHELD (s.get F.SEL_TAGSTAT_WRHELD p - writes) p
  let s := (s.addWrap F.SEL_TRAFFIC_RD reads p).addWrap F.SEL_TRAFFIC_WR writes p
  let s := if forced then s.addSat F.SEL_ARBSTAT_FORCED F.SEL_ARBSTAT_SAT 1 p else s
  let s := s.setPort p rest
  let opened := reqs.any Packet.lk
  let grants := match port.lock with
    | some k => if k.panel = panel then k.grants + 1 else 1
    | none => 1
  let owner := opened || port.lock.any fun k => decide (k.panel = panel)
  let ends := if owner then s.lockEnds p last grants rest else none
  let lock := if !owner then port.lock else if ends.isSome then none else some { panel, grants }
  let unmarked := ends.any (·.2)
  let commands := (reqs.zip tags).map fun e =>
    s.portCommand e.1 e.2 (e.1.lk && !(unmarked && e.1.id == last.id))
  let s := if ends.any (·.1) then s.addSat F.SEL_ARBSTAT_LOCKMAX F.SEL_ARBSTAT_SAT 1 p else s
  (s.setPort p { rest with lock }).sendFrame p commands (writes == 0) (if writes == 0 then 0 else last.body)

/-- A beat without a grant: every eligible requester waits (13 R489). -/
def State.waitBeat (s : State) (p : Nat) : State :=
  s.setPort p { s.port p with waits := waitAfter (s.port p).waits (s.portEligible p) none }

/-- The frame of a beat in RETRY: the next one of the replay, or FILL once all have gone out again (DEDUCED, log entry 50). -/
def State.replayBeat (s : State) (p : Nat) : State :=
  match (s.port p).resend with
  | f :: l => (s.setPort p { s.port p with resend := l }).sendAgain p f
  | [] => s.sendControl p 5 0

/-- The frame of a beat in UP: FILL while the replay buffer is full, else the winner's grant, or IDLE where nobody is eligible
or EN is 0. -/
def State.frameBeat (s : State) (p : Nat) : State :=
  if 256 ≤ (s.port p).replay.length then (s.waitBeat p).sendControl p 5 0
  else match if s.flag F.SEL_CTL_EN p then s.winner p else none with
    | none => (s.waitBeat p).sendFrame p [] false 0
    | some (panel, forced) =>
      let reqs := s.granted p panel
      match reqs.getLast? with
      | some last => s.grant p panel forced reqs last
      | none => s

/-- SEL_ARBITRATE: one beat of a port's arbiter and of its outgoing lanes: a frame in UP and RETRY, with an alignment marker in
place of every 65,536th, and none in RETRAIN (13 R460, R477, R487 to R490). -/
def execSelArbitrate (p : Fin 32) (s : State) : Out :=
  let u := p.val
  let st := s.portState u
  if st = 4 then .next (s.waitBeat u)
  else if st ≠ 2 ∧ st ≠ 3 then .next s
  else
    let beat := (s.port u).beat
    let t := s.setPort u { s.port u with beat := (beat + 1) % 65536 }
    if beat = 65535 then .next (t.waitBeat u)
    else if st = 3 then .next ((t.waitBeat u).replayBeat u)
    else .next (t.frameBeat u)

/-! ### Episodes, replay and retrain (13 R476 to R480) -/

/-- A retrain begins. -/
def State.retrainPort (s : State) (p : Nat) : State :=
  let port := s.port p
  ((s.setPort p { port with attempts := 0, retrains := port.retrains + 1, replaying := none }).putPortState p 4).addSat
    F.SEL_RETRYSTAT_RETRAINS F.SEL_RETRYSTAT_SAT 1 p

/-- A retry episode starts at a beat, or the port fails in its place: with EPISODE_MAX episodes begun within the last 2^30
beats, or, at a failing frame, with RETRY_EN 0 (13 R478, Table 13.10). -/
def State.startEpisode (s : State) (p now : Nat) (frame : Bool) : State :=
  let port := s.port p
  let recent := port.starts.filter fun t => decide (now < t + 2 ^ 30)
  if (frame && !s.flag F.SEL_CTL_RETRY_EN p) || decide (s.get F.SEL_RETRYCFG_EPISODE_MAX p ≤ recent.length) then
    s.failPort p
  else
    (((s.setPort p { port with starts := now :: recent, attempts := 0, retrains := 0 }).putPortState p 3).addSat
      F.SEL_RETRYSTAT_EPISODES F.SEL_RETRYSTAT_SAT 1 p).tick F.SEL_RETRYSTAT_MAX_US p

/-- A failing frame: the frames that follow are discarded until the expected one, a port that is UP starts an episode, and the
first one is answered with a NAK that names the expected FSEQ (13 R476). -/
def State.failFrame (s : State) (p now : Nat) : State :=
  if s.portState p < 2 ∨ s.portState p = 5 then s
  else
    let first := !(s.port p).discarding
    let s := s.setPort p { s.port p with discarding := true }
    let s := if s.portState p = 2 then s.startEpisode p now true else s
    if first && s.portState p != 5 then s.sendControl p 3 (s.port p).expect else s

/-- A replay begins: the frames of the replay buffer are sent again. -/
def State.startReplay (s : State) (p now : Nat) : State :=
  if (s.port p).replay.isEmpty then s
  else
    let s := if s.portState p = 2 then s.startEpisode p now false else s
    let q := s.port p
    if s.portState p = 3 then s.setPort p { q with replaying := some q.lastSent, resend := q.replay } else s

/-- Frames acknowledged up to ACKSEQ leave the replay buffer; an ACKSEQ that names none of them acknowledges nothing. -/
def Port.acknowledged (q : Port) (ack : Nat) : Port :=
  if q.replay.any fun f => f.fseq == ack then
    let replay := (q.replay.dropWhile fun f => f.fseq != ack).drop 1
    { q with replay
             resend := q.resend.filter fun f => replay.any fun g => g.fseq == f.fseq
             replaying := match q.replaying with
               | some n => if replay.any fun f => f.fseq == n then some n else none
               | none => none }
  else q

/-- The episode of a port in RETRY ends when nothing is replayed and nothing awaited. -/
def State.endEpisode (s : State) (p : Nat) : State :=
  let port := s.port p
  if s.portState p = 3 ∧ port.discarding = false ∧ port.replaying = none then
    (s.setPort p { port with attempts := 0, retrains := 0 }).putPortState p 2
  else s

/-- A discard under 13 R474 and R475 counted. -/
def State.countProto (s : State) (p k : Nat) : State := s.addSat F.SEL_ERRSTAT_PROTO F.SEL_ERRSTAT_SAT k p

/-- Credits returned to a count; the excess over the advertised number is discarded (13 R475). -/
def State.addCredits (s : State) (p : Nat) (held cred : Fld) (n : Nat) : State :=
  let h := s.get held p
  let most := s.get cred p
  (s.put held (min (h + n) most) p).countProto p (h + n - most)

/-- A port tag is free again. -/
def State.freePortTag (s : State) (p tag : Nat) : State :=
  s.setPort p { s.port p with tags := delKey (s.port p).tags tag }

/-- The payload of a read's answer: the bytes of its size. -/
def Packet.answerBody (q : Packet) (data : Tile) : Nat := data.toNat % 2 ^ (8 * (if q.opc % 8 = 4 then 256 else 2 ^ (q.opc % 8)))

/-- Payload flits of a read's answer (08 Table 8.3). -/
def Packet.answerFlits (q : Packet) : Nat := if q.opc % 8 = 4 then 32 else 1

/-- One answer entry of a frame (13 R469, R474, R481). -/
def State.unitAnswer (s : State) (p : Nat) (fr : UnitFrame) (e : Fin 16 × Fin 2048 × BitVec 8 × Bool) : State :=
  let (cmd, tag, status, reserved) := e
  match findKey (s.port p).tags tag.val with
  | none => s.countProto p 1
  | some t =>
    if t.expired then s.addSat F.SEL_ERRSTAT_LATE F.SEL_ERRSTAT_SAT 1 p
    else if reserved then s.countProto p 1
    else
      let q := t.req
      let done := s.freePortTag p tag.val
      if cmd = 8 ∧ q.typ = .rd ∧ fr.kind = 1 ∧ fr.dv = true then
        done.reply q q.pos .rdr (q.opc % 8) 0 q.answerFlits (q.answerBody fr.data)
      else if cmd = 9 ∧ q.typ = .wr then done.replyAck q
      else if cmd = 10 ∧ status = 3 then done.replyErr q 0x43 0
      else if cmd = 10 ∧ (status = 1 ∨ status = 4) then done.replyErr q 0x44 0
      else s.countProto p 1

/-- A sequenced frame accepted in order. -/
def State.acceptFrame (s : State) (p : Nat) (fr : UnitFrame) : State :=
  let port := s.port p
  let s := s.setPort p
    { port.acknowledged fr.ackseq.val with expect := (port.expect + 1) % 1024, discarding := false }
  let s := s.addCredits p F.SEL_TAGSTAT_RDHELD F.SEL_CAP_RDCRED fr.rdc.val
  let s := s.addCredits p F.SEL_TAGSTAT_WRHELD F.SEL_CAP_WRCRED fr.wrc.val
  (fr.entries.foldl (fun s e => s.unitAnswer p fr e) s).endEpisode p

/-- A received frame fails its check at a beat. A frame that is not sequenced is only counted; the first failing sequenced
frame makes the port discard and send a NAK (13 R476, R478). -/
def State.checkFails (s : State) (p : Nat) (sequenced : Bool) (now : Nat) : State :=
  if s.portState p < 2 ∨ s.portState p = 5 then s
  else
    let s := s.addSat F.SEL_ERRSTAT_CRCFAIL F.SEL_ERRSTAT_SAT 1 p
    if sequenced then s.failFrame p now else s

/-- A NAK names the FSEQ that the unit expects; the port replays from it (13 R477). -/
def State.takeNak (s : State) (p fseq now : Nat) : State :=
  if s.portState p ≠ 2 ∧ s.portState p ≠ 3 then s
  else (s.setPort p ((s.port p).acknowledged ((fseq + 1023) % 1024))).startReplay p now

/-- SEL_FRAME_RECEIVE: the 272 bytes of a frame from the unit, at a beat. One whose check does not hold, or of kind 6 or 7,
fails its check; a NAK makes the port replay, and any other frame that is not sequenced only acknowledges; a sequenced frame
out of order is a failing frame (13 R471, R476). -/
def execSelFrameReceive (p : Fin 32) (frame : BitVec 2176) (now : Nat) (s : State) : Out :=
  let u := p.val
  let fr := frameOf frame
  let port := s.port u
  if !frameGood frame || decide (6 ≤ fr.kind.val) then
    .next (s.checkFails u (decide (fr.kind.val < 3) || decide (6 ≤ fr.kind.val)) now)
  else if s.portState u ≠ 2 ∧ s.portState u ≠ 3 then .next s
  else if fr.kind.val = 3 then
    .next ((s.setPort u (port.acknowledged fr.ackseq.val)).takeNak u (frameE0 frame % 1024) now)
  else if 3 < fr.kind.val then .next ((s.setPort u (port.acknowledged fr.ackseq.val)).endEpisode u)
  else if fr.fseq.val = port.expect then .next (s.acceptFrame u fr)
  else if port.discarding then .next s
  else .next (s.failFrame u now)

/-- SEL_FRAME_FAIL: a received frame, sequenced or not, fails its check at a beat. -/
def execSelFrameFail (p : Fin 32) (sequenced : Bool) (now : Nat) (s : State) : Out :=
  .next (s.checkFails p.val sequenced now)

/-- SEL_NAK: a NAK that names the FSEQ which the unit expects. -/
def execSelNak (p : Fin 32) (fseq : Fin 1024) (now : Nat) (s : State) : Out := .next (s.takeNak p.val fseq.val now)

/-- SEL_ACK_STALL: ACKSEQ has stood still for 1 µs with frames unacknowledged; the port replays from the oldest
(13 R477). -/
def execSelAckStall (p : Fin 32) (now : Nat) (s : State) : Out :=
  if s.portState p.val ≠ 2 ∧ s.portState p.val ≠ 3 then .next s else .next (s.startReplay p.val now)

/-- SEL_REPLAY_FAIL: a replay attempt fails; after REPLAY_MAX the port retrains, and after RETRAIN_MAX retrains it enters
FAILED (13 R478). -/
def execSelReplayFail (p : Fin 32) (s : State) : Out :=
  let port := s.port p.val
  if s.portState p.val ≠ 3 then .next s
  else if port.attempts + 1 < s.get F.SEL_RETRYCFG_REPLAY_MAX p.val then
    .next (s.setPort p.val { port with attempts := port.attempts + 1 })
  else if port.retrains < s.get F.SEL_RETRYCFG_RETRAIN_MAX p.val then .next (s.retrainPort p.val)
  else .next (s.failPort p.val)

/-! ### Lanes (13 R459, R460, R482) -/

/-- The lanes of a number's bits. -/
def lanesOf (bad : Nat) : List Nat := (List.range 9).filter fun l => !bad.testBit l

/-- The active lanes that remain, with the width bit: eight of the good lanes, four of lowest number, or none
(13 R482). -/
def activeLanes (bad : Nat) : Option (Nat × Nat) :=
  let good := lanesOf bad
  let mask (l : List Nat) : Nat := (l.map fun i => 2 ^ i).sum
  if 8 ≤ good.length then some (mask (good.take 8), 0)
  else if 4 ≤ good.length then some (mask (good.take 4), 1)
  else none

/-- The lanes of a port set from its bad lanes, those that went bad too late apart, or FAILED with fewer than four good
ones. -/
def State.mapLanes (s : State) (p : Nat) : State :=
  let late := ((s.port p).late.eraseDups.map fun l => 2 ^ l).sum
  let bad := s.get F.SEL_STAT_BAD p
  match activeLanes (bad - (bad &&& late)) with
  | some (mask, width) => (s.put F.SEL_STAT_ACTIVE mask p).put F.SEL_STAT_WIDTH width p
  | none => s.failPort p

/-- A lane goes bad: marked at once, and substituted as the port's state says; `late` is true in TRAINING and RETRAIN once
step 2 has ended. A lane that a running link already holds bad changes nothing. -/
def State.laneBad (s : State) (p l : Nat) (late : Bool) : State :=
  let was := (s.get F.SEL_STAT_BAD p).testBit l
  let s := s.putBit F.SEL_STAT_BAD l true p
  let q := s.port p
  let tooLate := s.setPort p { q with late := l :: q.late }
  match s.portState p with
  | 2 => if was then s else s.retrainPort p
  | 3 => if was then s else s.retrainPort p
  | 4 => if late && !was then tooLate else s
  | 1 => if late then tooLate else s.setPort p { q with down := q.down ||| 2 ^ l }
  | _ => s.setPort p { q with down := q.down ||| 2 ^ l }

/-- The active lanes, in ascending order. -/
def State.runningLanes (s : State) (p : Nat) : List Nat :=
  (List.range 9).filter fun l => (s.get F.SEL_STAT_ACTIVE p).testBit l

/-- Code 1 of the lane map exchanged in step 2 (13 Table 13.8). -/
def State.laneEntry (s : State) (p : Nat) : Word :=
  lctlLanes (s.get F.SEL_STAT_ACTIVE p) (s.get F.SEL_STAT_WIDTH p)

/-- A link-control entry goes out. -/
def State.sendLctl (s : State) (p : Nat) (e : Word) : State := s.sendControl p 4 e.toNat

/-- A loss of lock or a marker failure counted. -/
def State.countLane (s : State) (f : Fld) (p l : Nat) : State := s.addSat f F.SEL_LANEl_SAT 1 p l

/-- SEL_LANE_BAD: lane `l` loses lock. -/
def execSelLaneBad (p : Fin 32) (l : Fin 9) (late : Bool) (s : State) : Out :=
  .next ((s.countLane F.SEL_LANEl_LOCKLOSS p.val l.val).laneBad p.val l.val late)

/-- SEL_ALIGNMENT_MARKER: an alignment marker arrives on a lane at a beat. One whose lane number or CRC-8
differs fails; more than LANE_ERR failures within 2^24 beats make the lane bad. In UP and RETRY markers come on active lanes
alone (13 R460, R482). -/
def execSelAlignmentMarker (p : Fin 32) (l : Fin 9) (marker : LaneMarker) (now : Nat) (late : Bool) (s : State) : Out :=
  let runs := s.portState p.val == 2 || s.portState p.val == 3
  if (marker.number.val = l.val ∧ marker.crc = marker.own) ∨
      (runs = true ∧ (s.runningLanes p.val).contains l.val = false) then .next s
  else
    let port := s.port p.val
    let times := now :: (mget [] port.markers l.val).filter fun t => decide (now < t + 2 ^ 24)
    let s := s.setPort p.val { port with markers := mset [] port.markers l.val times }
    let s := s.countLane F.SEL_LANEl_MARKERR p.val l.val
    .next (if s.get F.SEL_RETRYCFG_LANE_ERR p.val < times.length then s.laneBad p.val l.val late else s)

/-- SEL_RETRAIN_DONE: a retrain ends. `unlocked` are lanes that did not lock in its step 1; with more than FRAMES failing
frames in its window the lane with the most marker errors, `worst`, is bad too. More retrains than RETRAIN_MAX permits, or
fewer than four good lanes, end in FAILED; a lane that went bad too late starts a further retrain. The lane map and code 4 go
out as in a training (13 R478, R482, R485). -/
def execSelRetrainDone (p : Fin 32) (unlocked : BitVec 9) (failing : Nat) (worst : Fin 9) (now : Nat) (s : State) : Out :=
  let u := p.val
  if s.portState u ≠ 4 then .next s
  else
    let s := s.put F.SEL_STAT_BAD (s.get F.SEL_STAT_BAD u ||| unlocked.toNat) u
    let s := if s.get F.BRG_BER_LIMIT_FRAMES < failing then s.putBit F.SEL_STAT_BAD worst.val true u else s
    if s.get F.SEL_RETRYCFG_RETRAIN_MAX u < (s.port u).retrains then .next (s.failPort u)
    else
      let s := s.mapLanes u
      let s := if s.portState u = 5 then s else (s.sendLctl u (s.laneEntry u)).sendLctl u lctlReady
      if s.portState u = 5 then .next s
      else if !(s.port u).late.isEmpty then .next ((s.setPort u { s.port u with late := [] }).retrainPort u)
      else if (s.port u).replay.isEmpty then
        .next ((s.setPort u { s.port u with attempts := 0, retrains := 0, replaying := none }).putPortState u 2)
      else .next ((s.putPortState u 3).startReplay u now)

/-! ### Port tags (13 R481) -/

/-- SEL_RSP_TIMEOUT: a port tag's timer fires; it stands still while the retry indication is raised. -/
def execSelRspTimeout (p : Fin 32) (tag : Fin 2048) (s : State) : Out :=
  let port := s.port p.val
  match findKey port.tags tag.val with
  | none => .next s
  | some t =>
    if t.expired || s.retryIndication then .next s
    else
      let s := s.setPort p.val { port with tags := putKey port.tags tag.val { t with expired := true } }
      .next ((s.replyErr t.req 0x45 0).addSat F.SEL_ERRSTAT_TIMEOUTS F.SEL_ERRSTAT_SAT 1 p.val)

/-- SEL_TAG_RELEASE: a timed-out port tag returns to use. -/
def execSelTagRelease (p : Fin 32) (tag : Fin 2048) (s : State) : Out :=
  match findKey (s.port p.val).tags tag.val with
  | none => .next s
  | some t => .next (if t.expired then s.freePortTag p.val tag.val else s)

/-! ### Training (13 R485) -/

/-- Training starts from OFF or FAILED while EN is 1; a fused port never trains (13 R463, Table 13.7). -/
def State.trainPort (s : State) (p : Nat) : State :=
  if s.flag F.SEL_CTL_EN p && !s.flag F.SEL_STAT_FUSED p && (s.portState p == 0 || s.portState p == 5) then
    (s.setPort p { starts := (s.port p).starts, down := (s.port p).down }).putPortState p 1
  else s

/-- SEL_TRAIN: a write of 1 to SEL_CTL.TRAIN. -/
def execSelTrain (p : Fin 32) (s : State) : Out :=
  .next (s.ifClocked .SEL_CTL p.val 0 fun s => s.trainPort p.val)

/-- The advertised values lie in their ranges (13 Table 13.8). -/
def UnitCaps.ok (c : UnitCaps) : Bool :=
  decide (1 ≤ c.capGib.val) && decide (c.capGib.val ≤ 2048) && decide (16 ≤ c.rdcred.val) &&
    decide (c.rdcred.val ≤ 2048) && decide (16 ≤ c.wrcred.val) && decide (c.wrcred.val ≤ 512)

/-- The capabilities taken, and the credits with them. -/
def State.takeCaps (s : State) (p : Nat) (c : UnitCaps) : State :=
  (((((s.put F.SEL_CAP_CAP_GIB c.capGib.val p).put F.SEL_CAP_RDCRED c.rdcred.val p).put F.SEL_CAP_WRCRED
    c.wrcred.val p).put F.SEL_CAP_UNIT_ID c.unitId.toNat p).put F.SEL_TAGSTAT_RDHELD c.rdcred.val p).put
    F.SEL_TAGSTAT_WRHELD c.wrcred.val p

/-- Step 2: the lanes that did not lock, and those that went bad before, are taken out, and the map goes to the unit. -/
def State.trainLanes (s : State) (p : Nat) (unlocked : Nat) : State :=
  let q := s.port p
  let late := (q.late.eraseDups.map fun l => 2 ^ l).sum
  let s := ((s.put F.SEL_STAT_BAD (unlocked ||| late ||| q.down) p).setPort p { q with down := 0 }).mapLanes p
  if s.portState p = 5 then s else s.sendLctl p (s.laneEntry p)

/-- The entry of code 4 from the unit. -/
def isReady (e : Option Word) : Bool := match e with
  | some w => w.toNat % 16 == 4
  | none => false

/-- SEL_TRAIN_DONE: the steps of a training end. `lanes` tells how step 2 ends; `caps` and `ready` are the unit's entries of
steps 3 and 5, none where none came within the step's bound; `failing` are the failing frames of the window. A lane
that went bad after step 2 starts a retrain at once (13 R482, R485). The IDLE frames of the window leave FSEQ and the expected
FSEQ at 0 (DESIGN CHOICE, log entry 50). -/
def execSelTrainDone (p : Fin 32) (lanes : TrainedLanes) (caps ready : Option Word) (failing : Nat) (s : State) : Out :=
  let u := p.val
  if s.portState u ≠ 1 then .next s
  else
    let late := (s.port u).late
    let s := s.trainLanes u lanes.unlocked.toNat
    if s.portState u = 5 then .next s
    else if lanes.echo ≠ some (s.laneEntry u) then .next (s.failPort u)
    else
      let s := s.sendLctl u (lctlPort u)
      match caps.bind capsOf with
      | none => .next (s.failPort u)
      | some c =>
        if !c.ok || decide (s.get F.BRG_BER_LIMIT_FRAMES < failing) then .next (s.failPort u)
        else
          let s := s.sendLctl u lctlReady
          if !isReady ready then .next (s.failPort u)
          else
            let s := ((s.takeCaps u c).setPort u { starts := (s.port u).starts }).putPortState u 2
            .next (if late.isEmpty then s else s.retrainPort u)

end Sys2Proof.Machine
end

