-- ==== Sys2Proof/Machine/HostAttach.lean ====
section
/-!
DEFINITION. The host port: doorbells, per-LD registers, event queues, CXL.mem and host memory, fibres and beacons, the link,
and the fabric manager's commands (14 R493 to R527).
-/

namespace Sys2Proof.Machine

/-- The host link is in L0. -/
def State.linkUp (s : State) : Bool := s.get F.CXL_LINKSTAT_STATE == 2

/-- An answer given to the outside. -/
def State.answerHost (s : State) (ld kind : Nat) (ok : Bool) (len data : Nat) : State :=
  { s with answers := s.answers ++ [{ ld, kind, ok, len, data }] }

/-! ### Control registers and their discards (14 R500 to R504) -/

/-- A discarded write of a control register counted. -/
def State.ctlError (s : State) (via : Nat) : State :=
  (s.addSat F.CXL_CTLERR_DISCARDS F.CXL_CTLERR_SAT 1).put F.CXL_CTLERR_LAST_LD via

/-- An LD has a cut order in ACCEPTED through HELD (14 R503). -/
def State.ldBusy (s : State) (ld : Nat) : Bool := s.slots.any fun e => e.2.ld == ld && e.2.inService

/-- A write of CXL_LDk_PART: discarded while the LD has cut orders, or where it would give a field to two LDs. -/
def State.writeLdPart (s : State) (ld v : Nat) : State :=
  let taken := (List.range 16).any fun k =>
    k != ld && (s.get F.CXL_LDk_PART_FIELDS k &&& v) != 0
  if s.ldBusy ld || taken then s.ctlError 0 else s.put F.CXL_LDk_PART_FIELDS v ld

/-- A write of CXL_LDk_FMWIN: discarded while the LD has cut orders, or where the window leaves the region. -/
def State.writeFmwin (s : State) (ld v : Nat) : State :=
  if s.ldBusy ld || decide (65536 < F.CXL_LDk_FMWIN_FMBASE.slice 0 v + F.CXL_LDk_FMWIN_FMSIZE.slice 0 v) then
    s.ctlError 0
  else s.writePlain .CXL_LDk_FMWIN ld 0 v

/-- A write of CXL_LDk_MSIX: discarded while the LD has cut orders. -/
def State.writeMsix (s : State) (ld v : Nat) : State :=
  if s.ldBusy ld then s.ctlError 0 else s.writePlain .CXL_LDk_MSIX ld 0 v

/-- A host's write of LD `ld`'s control register of the host-attach block: applied for LD 0's host only. -/
def State.control (s : State) (via : Nat) (r : Reg) (ld v : Nat) (f : State → State) : Out :=
  if !s.blockClocked r .cxl 0 then .next (s.gatedError (regOffset r ld 0))
  else if via ≠ 0 then .next (s.ctlError via)
  else if !r.defines v then .fault .undefinedFieldValue
  else .next (f s)

/-- LD_PART_WRITE: a write of CXL_LDk_PART through the BAR0 of LD `via`. -/
def execLdPartWrite (via ld : Fin 16) (v : Word) (s : State) : Out :=
  s.control via.val .CXL_LDk_PART ld.val v.toNat fun s => s.writeLdPart ld.val v.toNat

/-- LD_FMWIN_WRITE. -/
def execLdFmwinWrite (via ld : Fin 16) (v : Word) (s : State) : Out :=
  s.control via.val .CXL_LDk_FMWIN ld.val v.toNat fun s => s.writeFmwin ld.val v.toNat

/-- LD_MSIX_WRITE. -/
def execLdMsixWrite (via ld : Fin 16) (v : Word) (s : State) : Out :=
  s.control via.val .CXL_LDk_MSIX ld.val v.toNat fun s => s.writeMsix ld.val v.toNat

/-! ### The registers of an LD's own host (14 R514, R516, R521) -/

/-- A write by LD k's own host of one of its registers. -/
def State.ownWrite (s : State) (r : Reg) (ld v : Nat) (f : State → State) : Out :=
  if !s.blockClocked r .cxl 0 then .next (s.gatedError (regOffset r ld 0))
  else if !r.defines v then .fault .undefinedFieldValue
  else .next (f s)

/-- APERTURE_SELECT: LD k's host selects the panel that its aperture shows. -/
def execApertureSelect (ld : Fin 16) (field : Fin 64) (panel : Fin 8) (s : State) : Out :=
  let v := field.val + panel.val * 64
  s.ownWrite .CXL_LDk_APERTURE ld.val v fun s => s.writePlain .CXL_LDk_APERTURE ld.val 0 v

/-- A write of CXL_LDk_RING: HEAD and TAIL become 0 when EN goes from 0 to 1. -/
def State.writeRing (s : State) (ld v : Nat) : State :=
  let rises := !s.flag F.CXL_LDk_RING_EN ld && v.testBit 5
  let s := s.writePlain .CXL_LDk_RING ld 0 v
  if rises then (s.put F.CXL_LDk_RINGPTR_HEAD 0 ld).put F.CXL_LDk_RINGPTR_TAIL 0 ld else s

/-- RING_ENABLE. -/
def execRingEnable (ld : Fin 16) (v : Word) (s : State) : Out :=
  s.ownWrite .CXL_LDk_RING ld.val v.toNat fun s => s.writeRing ld.val v.toNat

/-- A write of CXL_LDk_EVQ: HEAD and TAIL become 0 when EN is set. -/
def State.writeEvq (s : State) (ld v : Nat) : State :=
  let rises := !s.flag F.CXL_LDk_EVQ_EN ld && v.testBit 5
  let s := s.writePlain .CXL_LDk_EVQ ld 0 v
  if rises then (s.put F.CXL_LDk_EVQPTR_HEAD 0 ld).put F.CXL_LDk_EVQPTR_TAIL 0 ld else s

/-- EVQ_ENABLE. -/
def execEvqEnable (ld : Fin 16) (v : Word) (s : State) : Out :=
  s.ownWrite .CXL_LDk_EVQ ld.val v.toNat fun s => s.writeEvq ld.val v.toNat

/-! ### Doorbells (14 R515 to R517, Table 14.11) -/

/-- The way from one index to another, forward in a ring. -/
def ringWay (size a b : Nat) : Nat := (b + size - a % size) % size

/-- DB_RING: a doorbell write takes the new tail, or is ignored with BADDB. -/
def execDbRing (ld : Fin 16) (index : BitVec 16) (s : State) : Out :=
  let k := ld.val
  let size := 2 ^ s.get F.CXL_LDk_RING_LOG2SIZE k
  let head := s.get F.CXL_LDk_RINGPTR_HEAD k
  let tail := s.get F.CXL_LDk_RINGPTR_TAIL k
  let way := ringWay size tail index.toNat
  if !s.flag F.CLK_BLKEN_CXL then .next s
  else if s.flag F.CXL_LDk_RING_EN k ∧ index.toNat < size ∧ 0 < way ∧ way ≤ ringWay size tail (head + size - 1) then
    .next (s.put F.CXL_LDk_RINGPTR_TAIL index.toNat k)
  else .next (s.put F.CXL_LDk_RINGPTR_BADDB 1 k)

/-- DB_EVQ: a doorbell write takes the new head; an index outside the records written is ignored. -/
def execDbEvq (ld : Fin 16) (index : BitVec 16) (s : State) : Out :=
  let k := ld.val
  let size := 2 ^ s.get F.CXL_LDk_EVQ_LOG2SIZE k
  let head := s.get F.CXL_LDk_EVQPTR_HEAD k
  let tail := s.get F.CXL_LDk_EVQPTR_TAIL k
  if s.flag F.CLK_BLKEN_CXL = true ∧ index.toNat < size ∧ ringWay size head index.toNat ≤ ringWay size head tail then
    .next (s.put F.CXL_LDk_EVQPTR_HEAD index.toNat k)
  else .next s

/-! ### Events (14 R518 to R522) -/

/-- The 32 bytes of an event record (14 Table 14.6). -/
def Event.record (e : Event) : Nat :=
  e.kind + e.ld * 2 ^ 8 + e.id % 2 ^ 16 * 2 ^ 16 + e.count % 2 ^ 32 * 2 ^ 32 + e.tr % 2 ^ 48 * 2 ^ 64 +
    e.detail0 % 2 ^ 64 * 2 ^ 128 + e.detail1 % 2 ^ 64 * 2 ^ 192

/-- A host address as a device address of host memory (07 Table 7.1). -/
def hostAddress (a : Nat) : Nat := 2 ^ 49 + a

/-- The MSI-X message of an event's kind: sent, or pending where its vector is masked; none with COUNT 0. -/
def State.sendMessage (s : State) (ld kind : Nat) (masked : Bool) : State :=
  let count := s.get F.CXL_LDk_MSIX_COUNT ld
  if count = 0 then s
  else
    let v := s.get F.CXL_LDk_MSIX_BASE ld + s.get F.CXL_LDk_EVVEC_VECj ld kind % count
    if masked then { s with msixPending := if s.msixPending.contains v then s.msixPending else s.msixPending ++ [v] }
    else { s with messages := s.messages ++ [(ld, v)] }

/-- An event taken to its queue. With EN 0 there is no queue: neither record nor message. -/
def State.postEvent (s : State) (e : Event) (masked : Bool) : State :=
  let size := 2 ^ s.get F.CXL_LDk_EVQ_LOG2SIZE e.ld
  let tail := s.get F.CXL_LDk_EVQPTR_TAIL e.ld
  if !s.flag F.CXL_LDk_EVQ_EN e.ld then s
  else if (tail + 1) % size = s.get F.CXL_LDk_EVQPTR_HEAD e.ld then
    s.loseEvent e.ld
  else
    let at_ := hostAddress (s.get F.CXL_LDk_EVQ_BASE e.ld * 4096 + 32 * tail)
    let s := (s.hostWrite e.ld at_ 32 e.record).put F.CXL_LDk_EVQPTR_TAIL ((tail + 1) % size) e.ld
    s.sendMessage e.ld e.kind masked

/-- EVENT_POST: the oldest event's record is written and its message sent; `masked` tells whether the vector is masked. In
replay or Recovery it waits for the link (14 R520, R521). -/
def execEventPost (masked : Bool) (s : State) : Out :=
  match s.events with
  | [] => .next s
  | e :: rest => .next (if s.linkUp then { s with events := rest }.postEvent e masked else s)

/-- TRAP_WINDOW_END: the 1 ms window of a slot's cut order ends and the traps folded in it are raised as one event
(14 R522). -/
def execTrapWindowEnd (slot : Fin 64) (s : State) : Out :=
  match findKey s.trapWindows slot.val with
  | none => .next s
  | some (k, first, tr) =>
    let s := { s with trapWindows := delKey s.trapWindows slot.val }
    match findKey s.slots slot.val with
    | some o =>
      .next (if k = 0 then s
        else s.raiseEvent { kind := 2, ld := o.ld, id := o.id slot.val, count := k, tr, detail0 := first })
    | none => .next s

/-! ### CXL.mem (14 R505, R506, R693) -/

/-- What stands in the way of a CXL.mem request at HDM offset `x`: it waits (none), it fails (some false), or it goes to the
unit (some true). -/
def State.memRequest (s : State) (ld x : Nat) : Option Bool :=
  let o := s.get F.CXL_LDk_FMWIN_FMBASE ld * 2 ^ 30 + x
  let p := (s.farPort o).1
  if !s.linkUp then none
  else if s.get F.CXL_LDk_FMWIN_FMSIZE ld * 2 ^ 30 ≤ x then some false
  else if s.portState p = 3 ∨ s.portState p = 4 then none
  else some (s.farError p ld o).isNone

/-- A failed CXL.mem request counted. -/
def State.memError (s : State) (ld : Nat) : State :=
  s.addSat F.CXL_LDk_HMSTAT_MEMERR F.CXL_LDk_HMSTAT_SAT 1 ld

/-- The answer kinds of the host port. -/
def answerMemRead : Nat := 1
def answerMemWrite : Nat := 2
def answerSnoop : Nat := 3

/-- The port through which a CXL.mem request goes. -/
def State.memPort (s : State) (ld x : Nat) : Nat := (s.farPort (s.get F.CXL_LDk_FMWIN_FMBASE ld * 2 ^ 30 + x)).1

/-- CXL_MEM_READ: a host reads the line at HDM offset `x`. `result` is the line that the unit returned after `cmds` RD
commands, none where the port could not serve it; a read that fails is answered with poison. -/
def execCxlMemRead (ld : Fin 16) (x : BitVec 46) (result : Option (BitVec 512)) (cmds : Nat) (s : State) : Out :=
  match s.memRequest ld.val x.toNat with
  | none => .next s
  | some false => .next ((s.memError ld.val).answerHost ld.val answerMemRead false 64 0)
  | some true =>
    match result with
    | some d =>
      .next ((s.addWrap F.SEL_TRAFFIC_RD cmds (s.memPort ld.val x.toNat)).answerHost ld.val answerMemRead true 64 d.toNat)
    | none => .next ((s.memError ld.val).answerHost ld.val answerMemRead false 64 0)

/-- CXL_MEM_WRITE: a host writes at HDM offset `x`; `done` tells that the unit acknowledged its `cmds` WR commands. The write
completes in any case. -/
def execCxlMemWrite (ld : Fin 16) (x : BitVec 46) (done : Bool) (cmds : Nat) (s : State) : Out :=
  match s.memRequest ld.val x.toNat with
  | none => .next s
  | some false => .next ((s.memError ld.val).answerHost ld.val answerMemWrite true 0 0)
  | some true =>
    .next ((if done then s.addWrap F.SEL_TRAFFIC_WR cmds (s.memPort ld.val x.toNat) else s.memError ld.val).answerHost
      ld.val answerMemWrite true 0 0)

/-! ### Host memory (14 R507 to R512) -/

/-- A host-memory access that ends with an error of 14 Table 14.4. -/
def State.hostMemFails (s : State) (q : Packet) (code : Nat) : State :=
  (s.addSat F.CXL_LDk_HMSTAT_HMERR F.CXL_LDk_HMSTAT_SAT 1 q.ld).replyErr q code 0

/-- The CXL.cache requests of an access to host memory, line by line: RdCurr for a read, WOWrInvF for a line that a write covers
whole, and WOWrInv with its byte mask otherwise (14 R507). -/
def Packet.cacheRequests (q : Packet) : List CacheRequest :=
  let a := q.arg % 2 ^ 48
  let n := if q.opc % 8 = 4 then 256 else 2 ^ (q.opc % 8)
  (List.range ((a % 64 + n + 63) / 64)).map fun i =>
    let line := a / 64 + i
    let lo := max a (line * 64)
    let hi := min (a + n) (line * 64 + 64)
    { ld := q.ld, line
      op := if q.typ == .rd then .rdCurr else if hi - lo = 64 then .woWrInvF else .woWrInv
      mask := (2 ^ (hi - lo) - 1) * 2 ^ (lo - line * 64) }

/-- A host-memory request that reaches the host-attach block: refused where its LD's host has not enabled CXL.cache or the
link is down, and otherwise on its way to the host. -/
def State.hostMemRequest (s : State) (q : Packet) : State :=
  if !s.flag F.CXL_LDk_CFG_CACHE_EN q.ld then s.hostMemFails q 0x50
  else if s.get F.CXL_LINKSTAT_STATE < 2 then s.hostMemFails q 0x53
  else { s with hostReqs := s.hostReqs ++ [q], cacheOut := s.cacheOut ++ q.cacheRequests }

/-- A host-memory request ends with an answer to its requester. -/
def State.endHostReq (s : State) (q : Packet) : State :=
  { s with hostReqs := s.hostReqs.filter fun r => r.id != q.id }

/-- HOST_MEM_ANSWER: every line of a host-memory access has come back, or every line of a write has received global
observation (14 R507, R510). -/
def execHostMemAnswer (pkt : Nat) (r : HostReply) (s : State) : Out :=
  match s.hostReqs.find? fun q => q.id == pkt with
  | none => .next s
  | some q =>
    if !s.linkUp then .next s
    else
      let s := s.endHostReq q
      match r with
      | .good data =>
        if q.typ = .rd then .next (s.reply q q.pos .rdr (q.opc % 8) 0 q.answerFlits (q.answerBody data))
        else .next (s.replyAck q)
      | .error => .next (s.hostMemFails q 0x51)
      | .ideFail => .next (s.hostMemFails q 0x54)

/-- HOST_MEM_TIMEOUT: the timer of a host-memory request fires; it stands still in replay and Recovery (14 R511). -/
def execHostMemTimeout (pkt : Nat) (s : State) : Out :=
  match s.hostReqs.find? fun q => q.id == pkt with
  | none => .next s
  | some q => .next (if s.linkUp then (s.endHostReq q).hostMemFails q 0x52 else s)

/-- HOST_SNOOP: every snoop is answered RspIHitI (14 R509). -/
def execHostSnoop (ld : Fin 16) (s : State) : Out :=
  .next (if s.linkUp then s.answerHost ld.val answerSnoop true 0 0 else s)

/-! ### Fibres and the link (14 R494 to R498, R511, R524) -/

/-- CRC-8 of polynomial 0x07 from 0, over bytes in ascending order, each most significant bit first (14 Table 14.3). -/
def crc8 (l : List Nat) : Nat :=
  (l.flatMap fun b => (List.range 8).map fun i => b / 2 ^ (7 - i) % 2).foldl
    (fun c b => if (c / 128 + b) % 2 = 1 then (c * 2 % 256) ^^^ 7 else c * 2 % 256) 0

/-- The content of a 40-bit word whose SYNC and CRC are right. -/
def beaconOf (w : Nat) : Option Beacon :=
  if w % 256 = 0xA5 ∧ crc8 ((List.range 4).map fun i => w / 256 ^ i % 256) = w / 2 ^ 32 % 256 then
    some { tx0 := bits w 12 8, tx1 := bits w 17 13, rq0 := bits w 22 18, rq1 := bits w 27 23 }
  else none

/-- The word of a beacon's content. -/
def Beacon.word (b : Beacon) : BitVec 40 :=
  let v := 0xA5 + b.tx0 % 32 * 2 ^ 8 + b.tx1 % 32 * 2 ^ 13 + b.rq0 % 32 * 2 ^ 18 + b.rq1 % 32 * 2 ^ 23
  BitVec.ofNat 40 (v + crc8 ((List.range 4).map fun i => v / 256 ^ i % 256) * 2 ^ 32)

/-- The beacon that the module's unused transmit spares send without a break: the fibres it has retired for transmitting, and
those it asks its peer to retire; none where both spares carry lanes (14 R496). -/
def State.beacon (s : State) : Option Beacon :=
  if s.get F.CXL_FIBRE_TX_RET1 ≠ 31 then none
  else some { tx0 := s.get F.CXL_FIBRE_TX_RET0, tx1 := s.get F.CXL_FIBRE_TX_RET1
              rq0 := (s.fibres.asks[0]?).getD 31, rq1 := (s.fibres.asks[1]?).getD 31 }

/-- BEACON_OK of CXL_FIBRE: a valid peer beacon is received, or both receive spares are in use. -/
def State.showBeacon (s : State) (valid : Bool) : State :=
  s.put F.CXL_FIBRE_BEACON_OK (bit (valid || s.get F.CXL_FIBRE_RX_RET1 != 31))

/-- BEACON_WORD: a word received on an unused spare; two identical words with a correct CRC make a valid beacon
(14 R496, R497). -/
def execBeaconWord (w : BitVec 40) (s : State) : Out :=
  match beaconOf w.toNat with
  | none => .next ({ s with fibres := { s.fibres with last := none } }.showBeacon false)
  | some b =>
    if s.fibres.last = some w then .next ({ s with fibres := { s.fibres with peer := some b } }.showBeacon true)
    else .next { s with fibres := { s.fibres with last := some w } }

/-- The fibre of a lane under the retired fibres of a direction: the first one carries its lane over to F16, and the second
one, which can be F16 itself, to F17 (14 R495). -/
def fibreOf (r0 r1 lane : Nat) : Nat :=
  let f := if lane = r0 then 16 else lane
  if f = r1 then 17 else f

/-- The event of a change of fibres or of the link's width (14 Table 14.7). -/
def State.fibreEvent (s : State) : State := s.raise 0x0D 0 0 (s.readReg .CXL_FIBRE 0 0) 0

/-- The host link goes down: host requests end, rings and queues are disabled, events that wait are lost (14 R524). -/
def State.hostLinkDown (s : State) : State :=
  let s := s.hostReqs.foldl (fun s q => s.hostMemFails q 0x53) s
  let s := s.events.foldl (fun s e => s.loseEvent e.ld) s
  let s := { s with hostReqs := [], events := [] }
  let s := (List.range 16).foldl (fun s k => (s.put F.CXL_LDk_RING_EN 0 k).put F.CXL_LDk_EVQ_EN 0 k) s
  (s.put F.CXL_LINKSTAT_STATE 0).put F.BRG_READY_HOST 0

/-- The fibre that brings a lane in. -/
def State.receiveFibre (s : State) (lane : Nat) : Nat :=
  fibreOf (s.get F.CXL_FIBRE_RX_RET0) (s.get F.CXL_FIBRE_RX_RET1) lane

/-- The link down-trains to ×8: on the eight lanes of lowest number whose fibres are good, or down with fewer. A lane that it
no longer runs on does not come back (14 R498). -/
def State.downTrain (s : State) (dead : Nat → Bool) : State :=
  let good := s.fibres.lanes.filter fun lane => !s.fibres.bad.contains (s.receiveFibre lane) && !dead lane
  if good.length < 8 then s.hostLinkDown
  else ({ s with fibres := { s.fibres with lanes := good.take 8 } }.put F.CXL_LINKSTAT_WIDTH 1).fibreEvent

/-- FIBRE_BAD: the receiver marks a fibre bad that carries one of the link's lanes. It asks its peer to retire the first two of
them and requests Recovery; a third down-trains the link (14 R496, R498). -/
def execFibreBad (f : Fin 18) (s : State) : Out :=
  let fib := s.fibres
  if s.get F.CXL_LINKSTAT_STATE < 2 ∨ fib.bad.contains f.val = true ∨
      fib.lanes.any (fun lane => s.receiveFibre lane == f.val) = false then .next s
  else
    let bad := fib.bad ++ [f.val]
    if bad.length ≤ 2 then .next { s with fibres := { fib with bad, asks := bad, recovery := true } }
    else .next ({ s with fibres := { fib with bad } }.downTrain fun _ => false)

/-- The link leaves L0 for an episode of replay or Recovery. -/
def State.leaveL0 (s : State) : State :=
  ((s.put F.CXL_LINKSTAT_STATE 3).addMax F.CXL_LINKSTAT_EPISODES 1).put F.BRG_READY_HOST 0

/-- LINK_RECOVERY: the link enters Recovery, from L0 or within the episode that runs; the module's transmit map becomes the one
the peer's last valid beacon asked for, and the peer's the one the module asked for (14 R497). -/
def execLinkRecovery (s : State) : Out :=
  if s.get F.CXL_LINKSTAT_STATE < 2 then .next s
  else
    let s := if s.linkUp then s.leaveL0 else s
    let fib := s.fibres
    let before := s.readReg .CXL_FIBRE 0 0
    let s := match fib.peer with
      | some b => (s.put F.CXL_FIBRE_TX_RET0 b.rq0).put F.CXL_FIBRE_TX_RET1 b.rq1
      | none => s
    let s := (s.put F.CXL_FIBRE_RX_RET0 ((fib.asks[0]?).getD 31)).put F.CXL_FIBRE_RX_RET1 ((fib.asks[1]?).getD 31)
    let s := { s with fibres := { fib with recovery := false } }
    let s := if s.get F.CXL_FIBRE_RX_RET1 = 31 then s else s.showBeacon true
    .next (if s.readReg .CXL_FIBRE 0 0 = before then s else s.fibreEvent)

/-- HOST_LINK_REPLAY: the link starts a replay episode. -/
def execHostLinkReplay (s : State) : Out := .next (if s.linkUp then s.leaveL0 else s)

/-- HOST_LINK_EPISODE_LIMIT: an episode has lasted 4 ms and the link is taken down (14 R511). -/
def execHostLinkEpisodeLimit (s : State) : Out :=
  .next (if s.get F.CXL_LINKSTAT_STATE = 3 then s.hostLinkDown else s)

/-- The fibre maps and marks as they are when the link trains from down (14 R498). -/
def State.freshFibres (s : State) : State :=
  { ((((s.put F.CXL_FIBRE_TX_RET0 31).put F.CXL_FIBRE_TX_RET1 31).put F.CXL_FIBRE_RX_RET0 31).put F.CXL_FIBRE_RX_RET1
      31).put F.CXL_FIBRE_BEACON_OK 0 with fibres := {} }

/-- The link runs at ×16 without dead lanes, and down-trained on eight of the others with any. -/
def State.takeWidth (s : State) (dead : BitVec 16) : State := if dead = 0 then s else s.downTrain dead.getLsbD

/-- The link is in L0, unless fewer than eight lanes were left. -/
def State.enterL0 (s : State) (dead : BitVec 16) (slow : Bool) : State :=
  (((s.put F.CXL_LINKSTAT_RATE (bit slow)).put F.CXL_LINKSTAT_STATE 2).put F.BRG_READY_HOST 1).takeWidth dead

/-- HOST_LINK_L0: the link reaches L0 at a rate, from training or at the end of an episode of `us` µs. `dead` are the lanes that
the host does not run with: those whose transmit fibres its receiver finds bad, beyond the two it had retired. -/
def execHostLinkL0 (us : BitVec 32) (dead : BitVec 16) (slow : Bool) (s : State) : Out :=
  if !s.flag F.CLK_BLKEN_CXL then .next s
  else match s.get F.CXL_LINKSTAT_STATE with
    | 2 => .next s
    | 3 =>
      .next ((s.put F.CXL_LINKSTAT_MAX_US (max (s.get F.CXL_LINKSTAT_MAX_US) us.toNat)).enterL0 dead slow)
    | _ => .next ((s.freshFibres.put F.CXL_LINKSTAT_WIDTH 0).enterL0 dead slow)

/-- LINK_DOWN: every lane is lost. -/
def execLinkDown (s : State) : Out :=
  .next (if s.get F.CXL_LINKSTAT_STATE = 0 then s else s.hostLinkDown)

/-- The fields of per-LD registers that a hot reset returns to their reset values (14 R524). -/
def hotResets (id : Nat) : Bool :=
  (decide (F.CXL_LDk_RING_LOG2SIZE.id ≤ id) && decide (id ≤ F.CXL_LDk_HMSTAT_SAT.id)) ||
    id == F.CXL_LDk_CFG_BOUND.id || id == F.CXL_LDk_CFG_CACHE_EN.id || id == F.CXL_LDk_CFG_MEM_EN.id

/-- HOT_RESET: as a link-down, and every per-LD register but PART, FMWIN, MSIX and ENABLED returns to its reset value; the
link trains again. -/
def execHotReset (s : State) : Out :=
  if s.get F.CXL_LINKSTAT_STATE < 2 then .next s
  else
    let s := s.hostLinkDown
    let s := s.resetKeys fun k => hotResets (k / 2 ^ 32)
    .next (s.put F.CXL_LINKSTAT_STATE 1)

/-! ### Logical devices and the fabric manager (14 R493, R499) -/

/-- The features that the capability structures of the host port can name (14 Table 14.1). -/
inductive Feature
  | type2 | cxlIo | cxlCache | cxlMem
  | gt128 | gt64 | x16 | x8 | x4
  | flit256 | flit256Latency | flit68
  | multiLogicalDevice | l0 | l0p | l1 | aspm
  | ideLink | ideSelective | ideContainment | ideSkid
  | hdmD | hdmDb | deviceBias
  | rdCurr | woWrInv | woWrInvF | otherCacheRequest
  | doeSpdm | doeSecuredSpdm | doeIdeKm | doeCdat
  | getLdInfo | getLdAllocations | setLdAllocations | qosControl
deriving DecidableEq, Repr

/-- The host port supports a feature, and so its capability structures may advertise it (14 R493). -/
def Feature.supported : Feature → Bool
  | .x4 | .flit256Latency | .flit68 | .l0p | .l1 | .aspm | .ideSkid | .hdmDb | .deviceBias | .otherCacheRequest
  | .setLdAllocations | .qosControl => false
  | _ => true

/-- The protocols of an LD's DOE mailbox. What CDAT tells is not in the manual, and no command reads it. -/
def doeProtocols : List Feature := [.doeSpdm, .doeSecuredSpdm, .doeIdeKm, .doeCdat]

/-- LD_BIND: the fabric manager binds an enabled logical device to a host, or unbinds it. -/
def execLdBind (ld : Fin 16) (bound : Bool) (s : State) : Out :=
  .next (if bound && !s.flag F.CXL_LDk_CFG_ENABLED ld.val then s else s.put F.CXL_LDk_CFG_BOUND (bit bound) ld.val)

/-- CXL_CACHE_MEM_ENABLE: a host enables or disables CXL.cache and CXL.mem for its logical device (07 R253). -/
def execCxlCacheMemEnable (ld : Fin 16) (cache mem : Bool) (s : State) : Out :=
  .next ((s.put F.CXL_LDk_CFG_CACHE_EN (bit cache) ld.val).put F.CXL_LDk_CFG_MEM_EN (bit mem) ld.val)

def answerLdInfo : Nat := 4
def answerLdAllocations : Nat := 5
def answerUnsupported : Nat := 6

/-- GiB of far memory that an LD reports: none while it is not enabled. -/
def State.ldMemory (s : State) (k : Nat) : Nat :=
  if s.flag F.CXL_LDk_CFG_ENABLED k then s.get F.CXL_LDk_FMWIN_FMSIZE k else 0

/-- A fabric-manager command: answered while the link is up, as unsupported where the port does not support it. -/
def State.fmCommand (s : State) (f : Feature) (kind len data : Nat) : Out :=
  .next (if !s.linkUp then s
    else if f.supported then s.answerHost 0 kind true len data else s.answerHost 0 answerUnsupported false 0 0)

/-- GET_LD_INFO: the number of logical devices, and above it their memory together in GiB. -/
def execGetLdInfo (s : State) : Out :=
  s.fmCommand .getLdInfo answerLdInfo 8 (16 + ((List.range 16).map s.ldMemory).sum * 2 ^ 16)

/-- GET_LD_ALLOCATIONS: the memory of every logical device in GiB, four bytes each. -/
def execGetLdAllocations (s : State) : Out :=
  s.fmCommand .getLdAllocations answerLdAllocations 64 ((List.range 16).map fun k => s.ldMemory k * 2 ^ (32 * k)).sum

/-- SET_LD_ALLOCATIONS: Set LD Allocations and QoS control are answered as unsupported. -/
def execSetLdAllocations (s : State) : Out :=
  s.fmCommand .setLdAllocations answerUnsupported 0 0

end Sys2Proof.Machine
end

