-- ==== Sys2Proof/Machine/Seam.lean ====
section
/-!
DEFINITION. Seam links: check failures, replay, retrain and failure; the reset of a field's fabric registers (08 R329 to
R337).
-/

namespace Sys2Proof.Machine

/-! ### Seam links (08 R329 to R335) -/

/-- DETAIL0 of a seam-link failure (14 Table 14.7). -/
def linkDetail (f side net i : Nat) : Nat := f + side * 2 ^ 8 + net * 2 ^ 12 + i * 2 ^ 16

/-- A link enters FAILED: its field raises the link-failure event (08 R335). -/
def State.enterFailed (s : State) (f side net i : Nat) : State :=
  (s.setLink f side net i { s.link f side net i with st := .failed }).raiseField 5 f (linkDetail f side net i) 0

/-- A link enters FAILED in service, and the routes over it change (08 R335, 01 R36). -/
def State.failLink (s : State) (f side net i : Nat) : State := (s.enterFailed f side net i).updateDistances

/-- A packet stands in the receive FIFO of the gate of field `f` on a side, network and row or column. -/
def Packet.inGate (p : Packet) (f side net i : Nat) : Bool :=
  p.injected && decide (fieldOf p.pos = f) && p.side == side && bit p.typ.isReply == net &&
    (if side % 2 = 1 then rowOf p.pos else colOf p.pos) % 128 == i && (neighbour p.pos side).any fun q => fieldOf q != f

/-- The packet that crossed into a gate last. -/
def State.lastInGate (s : State) (f side net i : Nat) : Option Packet :=
  (s.fab.pkts.filter fun p => p.inGate f side net i).getLast?

/-- A packet that a link failure cuts on its way through one of the link's two gates is completed with zero flits, so its check
fails at its destination; none is cut where none that stands there is named (08 R335). -/
def State.cutPacket (s : State) (f side net i : Nat) (cut : Option Nat) : State :=
  match [s.lastInGate f side net i, s.lastInGate (beyond f side) ((side + 2) % 4) net i].find? fun p =>
      p.isSome && p.map (·.id) == cut with
  | some (some p) => s.setPacket { p with good := false }
  | _ => s

/-- A link that fails with the field beyond its gate, at a time that no flit tells: the packet that crossed last may be cut (08
R335; a free bit decides). -/
def State.cutLast (s : State) (f side net i : Nat) : State :=
  match s.lastInGate f side net i with
  | some p =>
    let (b, s) := s.free 1
    if b = 1 then s.setPacket { p with good := false } else s
  | none => s

/-- A flit that failed its check at a receiving gate of a field counted (08 Table 8.19). -/
def State.countFlit (s : State) (f : Nat) : State := s.addSat F.FAB_LINKERR_FLITS F.FAB_LINKERR_SAT 1 f

/-- Replay attempts on a side of a field counted. -/
def State.countReplay (s : State) (f side : Nat) : State :=
  s.addSat F.FAB_SEAMSTATs_REPLAYS F.FAB_SEAMSTATs_SAT 1 f side

/-- The direction whose flits the gate of a side receives: those that leave over the opposite side. -/
def SeamLink.received (l : SeamLink) (side : Nat) : SeamDir := l.dir ((side + 2) % 4)

/-- A receiving gate has found a flit bad, discards the flits from it on, and sends a NAK with its number (08 R329). -/
def SeamLink.nak (l : SeamLink) (side seq : Nat) : SeamLink :=
  l.setDir ((side + 2) % 4) { l.received side with resend := some seq }

/-- The sending gate sends again from the flit that the NAK names. -/
def SeamLink.resent (l : SeamLink) (side : Nat) : SeamLink :=
  l.setDir ((side + 2) % 4) { l.received side with resend := none }

/-- Nothing is left to send again in either direction. -/
def SeamLink.clean (l : SeamLink) : SeamLink :=
  { l with onward := { l.onward with resend := none }, back := { l.back with resend := none } }

/-- The link is UP, its episode over; the episodes that began within the last 2^20 cc still count (08 R330, R332). -/
def SeamLink.up (l : SeamLink) : SeamLink := { l.clean with st := .up, attempts := 0, retrains := 0 }

/-- SEAM_FLIT_FAIL: a flit with sequence number `seq` fails its check at the gate of field `f` on a side, at cc `now`. A
link that is UP starts an episode, or enters FAILED where replay is off or EPISODE_MAX episodes have started in the last
2^20 cc; on a link in RETRY or RETRAIN the flit belongs to the episode in progress (08 R329, R330, R332). `cut` names the
packet that a failure of the link cuts. -/
def execSeamFlitFail (f : Fin 64) (side : Fin 4) (net : Fin 2) (i : Fin 128) (seq : Fin 64) (now : Nat)
    (cut : Option Nat) (s : State) : Out :=
  let l := s.link f.val side.val net.val i.val
  if !hasSeam f.val side.val then .next s
  else match l.st with
    | .up =>
      let recent := l.starts.filter fun t => decide (now ≤ t + 2 ^ 20)
      if s.flag F.FAB_CTL_RETRY_EN f.val && decide (recent.length < s.get F.FAB_RETRYCFG_EPISODE_MAX f.val) then
        .next (((s.countFlit f.val).setLink f.val side.val net.val i.val
          { l.nak side.val seq.val with st := .retry, attempts := 0, retrains := 0, starts := now :: recent }).tick
            F.FAB_RETRY_STAT_MAX_CC f.val)
      else
        .next (((s.countFlit f.val).failLink f.val side.val net.val i.val).cutPacket f.val side.val net.val i.val cut)
    | .retry | .retrain =>
      .next ((s.countFlit f.val).setLink f.val side.val net.val i.val (l.nak side.val seq.val))
    | _ => .next s

/-- SEAM_NAK: the NAK reaches the sending gate, which sends again from the named flit (08 R329). -/
def execSeamNak (f : Fin 64) (side : Fin 4) (net : Fin 2) (i : Fin 128) (s : State) : Out :=
  let l := s.link f.val side.val net.val i.val
  if l.st = .retry ∧ (l.received side.val).resend.isSome = true ∧ hasSeam f.val side.val = true then
    .next ((s.setLink f.val side.val net.val i.val (l.resent side.val)).countReplay f.val side.val)
  else .next s

/-- SEAM_REPLAY_FAIL: a replay attempt fails at flit `seq`; after REPLAY_MAX consecutive ones the link retrains, and after
RETRAIN_MAX retrains it enters FAILED (08 R330). -/
def execSeamReplayFail (f : Fin 64) (side : Fin 4) (net : Fin 2) (i : Fin 128) (seq : Fin 64) (cut : Option Nat)
    (s : State) : Out :=
  let l := s.link f.val side.val net.val i.val
  let bad := l.nak side.val seq.val
  if l.st ≠ .retry ∨ hasSeam f.val side.val = false then .next s
  else if l.attempts + 1 < s.get F.FAB_RETRYCFG_REPLAY_MAX f.val then
    .next ((s.countFlit f.val).setLink f.val side.val net.val i.val { bad with attempts := l.attempts + 1 })
  else if l.retrains < s.get F.FAB_RETRYCFG_RETRAIN_MAX f.val then
    .next ((s.countFlit f.val).setLink f.val side.val net.val i.val
      { bad with st := .retrain, attempts := 0, retrains := l.retrains + 1 })
  else .next (((s.countFlit f.val).failLink f.val side.val net.val i.val).cutPacket f.val side.val net.val i.val cut)

/-- SEAM_RETRAIN_DONE: the retrain ends and the link replays again; more retrains than RETRAIN_MAX permits end in FAILED
(08 R330, Table 8.6). -/
def execSeamRetrainDone (f : Fin 64) (side : Fin 4) (net : Fin 2) (i : Fin 128) (cut : Option Nat) (s : State) : Out :=
  let l := s.link f.val side.val net.val i.val
  if l.st ≠ .retrain ∨ hasSeam f.val side.val = false then .next s
  else if s.get F.FAB_RETRYCFG_RETRAIN_MAX f.val < l.retrains then
    .next ((s.failLink f.val side.val net.val i.val).cutPacket f.val side.val net.val i.val cut)
  else .next ((s.setLink f.val side.val net.val i.val { l.clean with st := .retry }).countReplay f.val side.val)

/-- SEAM_REPLAY_PASS: the replayed flit passes and the episode ends (08 R330). -/
def execSeamReplayPass (f : Fin 64) (side : Fin 4) (net : Fin 2) (i : Fin 128) (s : State) : Out :=
  let l := s.link f.val side.val net.val i.val
  if l.st = .retry ∧ hasSeam f.val side.val = true then
    .next (s.setLink f.val side.val net.val i.val l.up)
  else .next s

/-! ### FAB_SW_RST (08 Table 8.11, 00 R688) -/

/-- The number of a register key's field, and its unit. -/
def keyField (key : Nat) : Nat := key / 2 ^ 32
def keyUnit (key : Nat) : Nat := key / 2 ^ 12 % 2 ^ 20

/-- The FAB_ fields of a field's block: configuration and counters, the hole map apart. -/
def isFieldFab (id : Nat) : Bool :=
  decide (F.FAB_CTL_MARK_EN.id ≤ id) && decide (id < F.FAB_DL_WINDOW_EXP.id) && id != F.FAB_HOLEMAP_HOLES.id

/-- The field's FAB_ configuration and counters return to their reset values; packets and link states are
untouched. -/
def State.resetFab (s : State) (f : Nat) : State :=
  s.resetKeys fun k => isFieldFab (keyField k) && keyUnit k == f

/-- FAB_SW_RST. -/
def execFabSwRst (f : Fin 64) (s : State) : Out := .next (s.ifClocked .FAB_CTL f.val 0 fun s => s.resetFab f.val)

end Sys2Proof.Machine
end

