-- ==== Sys2Proof/Machine/Failure.lean ====
section
/-!
DEFINITION. Loss of parts of the wafer in service: core failure, parking, holes and their limits (08 R306 to R311; 16 R577;
19 R625, R626, R644).
-/

namespace Sys2Proof.Machine

/-! ### Core failure (16 R577) -/

/-- A key of a map over cores, with `n` keys each, belongs to a lost core. -/
def lostKey (lost : Nat → Bool) (n : Nat) (key : Nat) : Bool := lost (key / n)

/-- What lost cores held is gone: threads, registers, memories, queues, packets still in their interfaces. -/
def State.wipeCores (s : State) (lost : Nat → Bool) : State :=
  { s.resetKeys (fun k => decide (k / 2 ^ 32 < coreFieldCount) && lost (k / 2 ^ 12 % 2 ^ 20)) with
    threads := s.threads.filter fun e => !lostKey lost 4 e.1
    cores := s.cores.filter fun e => !lost e.1
    lanes := s.lanes.filter fun e => !lostKey lost 256 e.1
    sram := s.sram.filter fun e => !lostKey lost 65536 e.1
    damaged := s.damaged.filter fun k => !lostKey lost 256 k
    badTiles := s.badTiles.filter fun k => !lostKey lost 256 k
    istore := s.istore.filter fun e => !lostKey lost 8192 e.1
    istoreBad := s.istoreBad.filter fun k => !lostKey lost 2048 k
    patStore := s.patStore.filter fun e => !lostKey lost 16384 e.1
    patBad := s.patBad.filter fun k => !lostKey lost 4096 k
    spoolWin := s.spoolWin.filter fun e => decide (e.1 < 512) || !lost (e.1 - 512)
    spool := s.spool.filter fun r => !lost r.core.toNat
    fab := { s.fab with
      pkts := s.fab.pkts.filter fun p => p.injected || !lost p.src.toNat
      caches := s.fab.caches.filter fun e => !lost e.1 } }

/-- The threads that one cut order loses: counted in TRAPPED, and one trap event for the first of them. -/
def State.loseThreads (s : State) (e : Nat × CutOrder) (lost : Nat → Bool) : State :=
  match e.2.threads.filter fun r => lost r.1.toNat with
  | [] => s
  | (c, t, _) :: l =>
    (s.keepOrder e.1 { e.2 with lost := e.2.lost + l.length + 1 }).raiseTrap c t

/-- A ring that loses a core fails (12 Table 12.4). -/
def State.failLostRings (s : State) (lost : Nat → Bool) : State :=
  { s with rings := s.rings.map fun e =>
      if (s.ringCores e.2).any fun c => lost c.toNat then (e.1, { e.2 with fail := true }) else e }

/-- Core failure of the cores of a predicate that were backed: the threads of running cut orders are lost, their rings fail,
and what the cores held is gone. -/
def State.loseCores (s : State) (which : Nat → Bool) : State :=
  let lost (n : Nat) : Bool := which n && s.backed (BitVec.ofNat 20 n)
  let running := s.slots.filter fun e => e.2.st == 4 || e.2.st == 5
  let s' := running.foldl (fun s e => s.loseThreads e lost) s
  (s'.failLostRings lost).wipeCores which

/-! ### Parking (19 R626) -/

/-- A bit of a bring-up map cleared or set. -/
def State.readyBit (s : State) (f : Fld) (i : Nat) (b : Bool) : State := s.putBit f i b

/-- The engines of a field stop: its spool requests are dropped. -/
def State.dropEngines (s : State) (f : Nat) : State :=
  { s with spool := s.spool.filter fun r => r.panel / 8 != f
           spoolWin := s.spoolWin.filter fun e => !(decide (e.1 < 512) && e.1 / 8 == f) }

/-- The compute domain of a field is switched off: its cores, and the relocated rows that its gusset holds, meet core
failure. -/
def State.computeOff (s : State) (f : Nat) : State :=
  let s := s.loseCores fun n => s.homeField (BitVec.ofNat 20 n) == f
  let s := (s.dropEngines f).setDomain f false
  (s.put F.CLK_FLDf_CTL_CMP_EN 0 f).readyBit F.BRG_FLD_COMPUTE_MAP f false

/-- A park reason of a field set or cleared: 0 CAP, 1 WARN, 2 CRIT, 3 TRIP, 4 HOST, 5 SHUT (19 Table 19.9). -/
def State.parkReason (s : State) (f r : Nat) (b : Bool) : State := s.putBit F.PWR_FLDf_STAT_REASON r b f

/-- A field is parked for a reason: its compute domain goes off with event 0x07; one that is parked already only notes the
reason. An unparking of it is cancelled (19 R626, R637). -/
def State.parkField (s : State) (f r : Nat) : State :=
  let s := s.parkReason f r true
  let s := { s with power := { s.power with
    due := s.power.due.filter fun g => g != f
    unparking := s.power.unparking.filter fun g => g != f
    asking := s.power.asking.filter fun g => g != f } }
  if s.computeOn f then ((s.computeOff f).raiseField 7 f (f + 256) 0).updateDistances else s

/-- What the power controller notes at the end of a step: an IBI where FAULT_N goes low (21 R678), and the throttling reasons
that are active (19 R645). -/
def State.noteFault (s old : State) : State := (if s.fault && !old.fault then s.pendIbi 1 else s).noteThrottles

/-! ### The end of a migration (07 R279 to R282; 19 R639) -/

/-- A migration that the power controller asked for has ended: its field parks for WARN. -/
def State.parkMigrated (s : State) (m : Migration) : State :=
  if m.parks && s.migration.isNone then s.parkField m.field 1 else s

/-- MIGRATION_QUIESCED: the cut order that migrates is quiet, so its cores are allocated, copied and renumbered and its
threads resume; with too few segments it resumes unmoved. The migration has taken `us` µs. -/
def execMigrationQuiesced (us : BitVec 32) (s : State) : Out :=
  match s.migration with
  | none => .next s
  | some m =>
    match m.todo with
    | [] => .next ((s.nextMigration us.toNat).parkMigrated m)
    | n :: _ =>
      match findKey s.slots n with
      | none => .next ((s.nextMigration us.toNat).parkMigrated m)
      | some o =>
        if !o.inService then .next ((s.nextMigration us.toNat).parkMigrated m)
        else if !s.mayMove n o then .next s
        else match s.migrationPlace n o m.field with
          | none => .next ((s.failMigration n us.toNat).parkMigrated m)
          | some p => .next ((((s.moveOrder n o p).resumeOrder n).nextMigration us.toNat).parkMigrated m)

/-- RING_MIGRATION_TIMEOUT: the ring of a migrating cut order does not come to rest within PERIOD (12 Table 12.5). -/
def execRingMigrationTimeout (us : BitVec 32) (s : State) : Out :=
  match s.migration with
  | none => .next s
  | some m =>
    match m.todo with
    | [] => .next s
    | n :: _ =>
      match findKey s.slots n with
      | none => .next s
      | some o => .next (if s.ringIdle n o then s else (s.failMigration n us.toNat).parkMigrated m)

/-! ### Holes (08 R306, R311) -/

/-- Two fields share an edge or a corner. -/
def nextTo (a b : Nat) : Bool :=
  decide (a % 8 ≤ b % 8 + 1) && decide (b % 8 ≤ a % 8 + 1) && decide (a / 8 ≤ b / 8 + 1) && decide (b / 8 ≤ a / 8 + 1)

/-- The route of a packet meets a hole of the set again after it has left its ring, within a count of hops. -/
def State.meetsTwice (s : State) (p : Packet) (seen : List Nat) : Nat → Bool
  | 0 => false
  | n + 1 =>
    match s.nextSide p with
    | none => false
    | some (side, ring, entered) =>
      let again := entered && match ring with
        | some d => seen.contains d.hole
        | none => false
      if again then true
      else
        let seen := if entered then match ring with
            | some d => d.hole :: seen
            | none => seen
          else seen
        match neighbour p.pos side with
        | none => false
        | some q => s.meetsTwice { p with pos := q, ring } seen n

/-- Positions that stand for every position of a field in a route: its edges and its middle, in rows and in columns. -/
def fieldSamples (f : Nat) : List Lcn := [0, 64, 127].flatMap fun r => [0, 64, 127].map fun c => fieldPos f r c

/-- A set of holes meets the limits of R306: at most four, none sharing an edge or a corner, no route meeting one twice. -/
def withinHoleLimits (holes : List Nat) : Bool :=
  let t : State := { regs := (State.put {} F.FAB_HOLEMAP_HOLES (holes.map fun f => 2 ^ f).sum).regs }
  let free := ((List.range 64).filter fun f => !holes.contains f).flatMap fieldSamples
  decide (holes.length ≤ 4) &&
    (holes.all fun a => holes.all fun b => a == b || !nextTo a b) &&
    free.all fun p => free.all fun q =>
      !t.meetsTwice { id := 0, typ := .rd, rt := q, dst := q, src := p, pos := p } [] 16384

/-- The seam links into a field enter FAILED, each seen from the field beyond it, whose gate completes a packet that is cut
(08 R335). -/
def State.failSeams (s : State) (f : Nat) : State :=
  ((List.range 4).filter fun d => hasSeam f d).foldl (fun s d =>
    (List.range 2).foldl (fun s net => (List.range 128).foldl (fun s i =>
      match (s.link f d net i).st with
      | .failed | .off => s
      | _ => (s.enterFailed (beyond f d) ((d + 2) % 4) net i).cutLast (beyond f d) ((d + 2) % 4) net i) s) s) s

/-- Packets inside a field are lost. -/
def State.dropTransit (s : State) (f : Nat) : State :=
  { s with fab := { s.fab with pkts := s.fab.pkts.filter fun p => !(p.injected && fieldOf p.pos == f) } }

/-- The PLLs of a field whose transit domain goes off lose their lock, and its clock is back on REF. -/
def State.clocksOff (s : State) (f : Nat) : State :=
  let s := (s.put F.CLK_FLDf_STAT_PLLA_RDY 0 f).put F.CLK_FLDf_STAT_PLLB_RDY 0 f
  let s := (s.put F.CLK_FLDf_STAT_ACTIVE 0 f).put F.CLK_FLDf_STAT_CUR 0 f
  { s with
    pllSetting := delKey (delKey s.pllSetting (2 * f)) (2 * f + 1)
    sequences := delKey s.sequences f
    lockHold := s.lockHold.filter fun g => g != f
    stopped := s.stopped.filter fun g => g != f }

/-- The transit domain of a field is switched off, its compute domain first; its cue table is emptied (18 R622, 19 R625). -/
def State.transitOff (s : State) (f : Nat) : State :=
  let s := if s.computeOn f then s.computeOff f else s
  let s := (((s.dropTransit f).emptyCues f).clocksOff f).setDomain (64 + f) false
  let s := ((s.put F.CLK_FLDf_CTL_TRN_EN 0 f).put F.CLK_FLDf_CTL_BLK_EN 0 f)
  ((s.readyBit F.BRG_FLD_TRANSIT_MAP f false).readyBit F.BRG_FLD_SEAMOK_MAP f false).readyBit F.BRG_FLD_TOPO_MAP f false

/-- A hole declared: the hole map with the excess, which a hole also joins that touches one of the excess, since its ring would
then contain a hole, the event to every bound LD, and the distance table (08 R306, R311). -/
def State.markHole (s : State) (f : Nat) : State :=
  let kept := (List.range 64).filter s.detoured
  let s := s.putBit F.FAB_HOLEMAP_HOLES f true
  let s := if withinHoleLimits (kept ++ [f]) && !(s.fab.excess.any fun g => nextTo f g) then s
    else { s with fab := { s.fab with excess := s.fab.excess ++ [f] } }
  (s.raiseAll 8 ((List.range 16).filter fun k => s.flag F.CXL_LDk_CFG_BOUND k) f).updateDistances

/-- Ports whose attachment lies in a field fail, whatever state they are in (13 R463). -/
def State.failPortsOf (s : State) (f : Nat) : State :=
  ((List.range 32).filter fun p => portField p == f && s.portState p != 5).foldl State.failPort s

/-- A field becomes a hole: its links fail, its packets and cores are lost, its ports fail, its domains are off. -/
def State.declareHole (s : State) (f : Nat) : State :=
  if s.isHole f then s else (((s.failSeams f).transitOff f).failPortsOf f).markHole f

/-- TRANSIT_FAIL: the transit domain of a field fails (08 R311). -/
def execTransitFail (f : Fin 64) (s : State) : Out :=
  .next (if s.transitOn f.val then s.declareHole f.val else s)

end Sys2Proof.Machine
end

