-- ==== Sys2Proof/Machine/Integrity.lean ====
section
/-!
DEFINITION. The integrity block: random-operand tests, their cues, the life of watch-list entries, the save of the list, and
the block's reset (15 R542, R545, R547 to R551, R562).
-/

namespace Sys2Proof.Machine

/-! ### Sweeps (15 R547, R548) -/

/-- The next count of a series from `c0` in steps of `period` that lies ahead of now. -/
def nextInSeries (c0 period now : Nat) : Nat := if now < c0 then c0 else c0 + ((now - c0) / period + 1) * period

/-- The row segment that a physical position lies in; none in a gusset row that holds none. -/
def State.segmentAt (s : State) (p : Position) : Option Nat :=
  let row := p.field * 128 + p.panel * 16 + p.row
  match s.relocations.find? fun r => (r.gfy * 8 + r.gfx) * 128 + 112 + r.grow == row with
  | some r => some (r.lrow * 8 + r.fx)
  | none =>
    let seg := (p.field / 8 * 128 + p.panel * 16 + p.row) * 8 + p.field % 8
    if (s.relocationOf seg).isSome || isGusset (posOf (seg / 8) (seg % 8 * 128)) then none else some seg

/-- A segment is free: no cut order in service holds it, it is not under test, and some of its cores are backed. -/
def State.testable (s : State) (seg : Nat) : Bool :=
  !(s.slots.any fun e => e.2.inService && e.2.segments.contains seg) && (findKey s.tests seg).isNone &&
    (segmentCores seg).any s.backed

/-- Groups of three of the backed cores of a segment in ascending order; the first cores complete the last one
(15 R549). -/
def groupsOf (cores : List Nat) : Nat → List (List Nat)
  | 0 => []
  | n + 1 =>
    match cores with
    | [] => []
    | a :: b :: c :: l => [a, b, c] :: groupsOf l n
    | l => [l]

/-- The groups of a segment under test. -/
def State.testGroups (s : State) (seg : Nat) : List (List Nat) :=
  let cores := ((segmentCores seg).filter s.backed).map (·.toNat)
  (groupsOf cores 64).map fun g => g ++ cores.take (3 - g.length)

/-- A test of a segment begins. -/
def State.startTest (s : State) (seg : Nat) : State :=
  { s with tests := putKey s.tests seg (s.testGroups seg) }

/-- A test sweep fires in a field: every free segment is tested; a suspect sweep, every free segment with a listed
position. -/
def State.sweepFired (s : State) (f : Nat) (suspect : Bool) : State :=
  let segs := (List.range 128).map fun r => (f / 8 * 128 + r) * 8 + f % 8
  let listed := s.watch.filterMap fun e => s.segmentAt e.at_
  let l := segs.filter fun seg => s.testable seg && (!suspect || listed.contains seg)
  (l.foldl State.startTest s).addWrap F.INT_TESTSTAT_SWEEPS 1

/-- SWEEP_CUE_PLACE: the integrity block places a field's test-sweep or suspect-sweep cue, unless one is armed
(15 R547). -/
def execSweepCuePlace (f : Fin 64) (suspect : Bool) (s : State) : Out :=
  let sweep := s.get F.INT_SWEEP_PERIOD_TR
  let watch := s.get F.INT_WATCH_PERIOD_TR
  if !s.flag F.INT_CTL_TEST_EN then .next s
  else if suspect then
    if watch = 0 ∨ s.flag F.FLD_CUEn_B_VALID f.val suspectEntry ∨
        (s.watch.any fun e => !e.condemned && e.at_.field == f.val) = false then .next s
    else .next (s.placeCue f.val suspectEntry 5 0 (s.now + watch))
  else if sweep = 0 ∨ s.flag F.FLD_CUEn_B_VALID f.val sweepEntry then .next s
  else .next (s.placeCue f.val sweepEntry 4 0 (nextInSeries (s.testsFrom + f.val * (sweep / 64)) sweep s.now))

/-! ### Test results (15 R550, R551) -/

/-- A failure with cause 6. -/
def State.testFails (s : State) (n : Nat) : State :=
  (s.countFailure (BitVec.ofNat 20 n) 6 0).addMax F.INT_TESTSTAT_MISMATCH 1

/-- A position has passed a test since its newest failure. -/
def State.testPasses (s : State) (n : Nat) : State :=
  let p := s.positionOf (BitVec.ofNat 20 n)
  { s with watch := s.watch.map fun e => if e.at_ = p then { e with passed := true } else e }

/-- What a test leaves of the cores of a predicate: CLK_EN and the memories outside the SRAM stay. -/
def State.wipeTested (s : State) (tested : Nat → Bool) : State :=
  { s.resetKeys (fun k => decide (k / 2 ^ 32 < coreFieldCount) && tested (k / 2 ^ 12 % 2 ^ 20) &&
        k / 2 ^ 32 != F.CORE_CTL_CLK_EN.id) with
    threads := s.threads.filter fun e => !tested (e.1 / 4)
    lanes := s.lanes.filter fun e => !tested (e.1 / 256)
    cores := s.cores.filter fun e => !tested e.1
    sram := s.sram.filter fun e => !tested (e.1 / 65536)
    damaged := s.damaged.filter fun k => !tested (k / 256)
    badTiles := s.badTiles.filter fun k => !tested (k / 256) }

/-- The tested cores are left with zero tiles, clear BAD bits and registers at their reset values. -/
def State.cleanTested (s : State) (seg : Nat) : State :=
  let cores := (segmentCores seg).filter s.backed
  (s.wipeTested fun n => cores.contains (BitVec.ofNat 20 n)).resetWindows cores

/-- A group of a segment ends; after the last one the segment is free again. -/
def State.endGroup (s : State) (seg i : Nat) : State :=
  match findKey s.tests seg with
  | none => s
  | some l =>
    let rest := l.eraseIdx i
    let s := s.addWrap F.INT_TESTSTAT_GROUPS 1
    if rest.isEmpty then { s.cleanTested seg with tests := delKey s.tests seg }
    else { s with tests := putKey s.tests seg rest }

/-- A segment under test has a group at a place of its list of groups still to end. -/
def State.testGroup (s : State) (seg i : Nat) : Option (List Nat) :=
  match findKey s.tests seg with
  | some l => l[i]?
  | none => none

/-- TEST_GROUP_DONE: the runs of group `i` of a segment end with their digests. A core that differs from the other two, or
every core when all three differ, counts one failure. -/
def execTestGroupDone (seg : Fin 8192) (i : Fin 43) (d0 d1 d2 : BitVec 64) (s : State) : Out :=
  match s.testGroup seg.val i.val with
  | none => .next s
  | some g =>
    let digests := g.zip [d0, d1, d2]
    let differs (d : BitVec 64) : Bool := decide ((digests.filter fun e => e.2 == d).length = 1)
    let s := digests.foldl (fun s e => if differs e.2 then s.testFails e.1 else s.testPasses e.1) s
    .next (s.endGroup seg.val i.val)

/-- TEST_RUN_TIMEOUT: core `k` of group `i` does not finish a run in time and counts a failure; its group ends without a
comparison. -/
def execTestRunTimeout (seg : Fin 8192) (i : Fin 43) (k : Fin 3) (s : State) : Out :=
  match s.testGroup seg.val i.val with
  | none => .next s
  | some g =>
    match g[k.val]? with
    | some n => .next ((s.testFails n).endGroup seg.val i.val)
    | none => .next s

/-! ### The watch list (15 R542, R545) -/

/-- WATCH_ENTRY_EXPIRE: an entry that is old enough, has passed a test since, and is not condemned leaves the list. -/
def execWatchEntryExpire (p : Position) (s : State) : Out :=
  match s.watch.find? fun e => e.at_ = p with
  | none => .next s
  | some e =>
    if e.passed && !e.condemned && !withinWindow s.now (e.times.headD 0) (s.get F.INT_FENCE_WINDOW_TR) then
      .next { s with watch := s.watch.filter fun q => !decide (q.at_ = p) }
    else .next s

/-- WATCH_LIST_SAVE: a changed list is queued for the store. -/
def execWatchListSave (s : State) : Out := .next (if s.isDirty sectWatch then s.queueSection sectWatch else s)

/-! ### The block's reset (15 R562) -/

/-- The INT_ fields of the wafer-level block. -/
def isIntField (id : Nat) : Bool := decide (F.INT_CTL_TEST_EN.id ≤ id) && decide (id ≤ F.INT_WL_Bn_LAST_CAUSE.id)

/-- A write of INT_CTL: TEST_EN going to 1 sets the count from which sweeps are placed. -/
def State.writeIntCtl (s : State) (v : Nat) : State :=
  let rises := !s.flag F.INT_CTL_TEST_EN && v.testBit 0
  let s := s.writePlain .INT_CTL 0 0 v
  if rises then { s with testsFrom := s.now } else s

/-- The reset of the INT_ block: its registers but the watch list, and the cues it has placed. -/
def State.resetIntegrity (s : State) : State :=
  let s := (List.range 64).foldl (fun s f =>
    let s := [sweepEntry, suspectEntry].foldl (fun s n =>
      if s.flag F.FLD_CUEn_B_VALID f n then s.disarm f n else s) s
    (List.range 4).foldl (fun s j => if s.flag F.FLD_CUEn_B_VALID f (markEntry j) then s.disarm f (markEntry j) else s) s) s
  { s.resetKeys (fun k => isIntField (k / 2 ^ 32)) with testsFrom := s.now }

/-- INT_SW_RST: a write of 1 to INT_CTL.SW_RST. -/
def execIntSwRst (s : State) : Out := .next (s.ifClocked .INT_CTL 0 0 State.resetIntegrity)

end Sys2Proof.Machine
end

