-- ==== Sys2Proof/Machine/Clock.lean ====
section
/-!
DEFINITION. Field clocks and their sources, the stitch sequencer, the observation pin, the treadle count and its copies, cue
tables (18 R597 to R623).
-/

namespace Sys2Proof.Machine

/-! ### Sources (18 R597 to R604) -/

/-- The ready flag of a PLL: 0 for PLL A, 1 for PLL B. -/
def pllReady (pll : Nat) : Fld := if pll = 0 then F.CLK_FLDf_STAT_PLLA_RDY else F.CLK_FLDf_STAT_PLLB_RDY

/-- A source of a field's clock is ready: 0 REF, 1 PLL A, 2 PLL B. -/
def State.sourceReady (s : State) (f src : Nat) : Bool :=
  if src = 0 then s.flag F.CLK_STAT_REFOK else s.flag (pllReady (src - 1)) f

/-- The setting at which a source runs; 0 for REF. -/
def State.sourceSetting (s : State) (f src : Nat) : Nat := if src = 0 then 0 else mget 0 s.pllSetting (2 * f + (src - 1))

/-- The field clock runs from another source; going back to a ready PLL ends the hold of a loss of lock (18 R604, R607). -/
def State.useSource (s : State) (f src : Nat) : State :=
  let s := (s.put F.CLK_FLDf_STAT_ACTIVE src f).put F.CLK_FLDf_STAT_CUR (s.sourceSetting f src) f
  if src ≠ 0 ∧ s.sourceReady f src = true then { s with lockHold := s.lockHold.filter fun g => g != f } else s

/-- A stop-switch-restart: the trees stand still until the new source is ready (18 R603). -/
def State.stopSwitch (s : State) (f src : Nat) : State :=
  let ready := s.sourceReady f src
  let s := s.useSource f src
  let rest := s.stopped.filter fun g => g != f
  { s with stopped := if ready then rest else rest ++ [f] }

/-- The trees of a field start again once its active source is ready. -/
def State.restart (s : State) (f : Nat) : State :=
  if s.stopped.contains f && s.sourceReady f (s.get F.CLK_FLDf_STAT_ACTIVE f) then
    { s with stopped := s.stopped.filter fun g => g != f }
  else s

/-- No cut order in service holds a row segment of a field. -/
def State.fieldUnheld (s : State) (f : Nat) : Bool :=
  !(s.slots.any fun e => e.2.inService && e.2.segments.any fun seg => seg / 8 / 128 * 8 + seg % 8 == f)

/-- A MODE 1 switch is permitted (18 R603). -/
def State.mayStop (s : State) (f : Nat) : Bool :=
  !(s.get F.BRG_FLD_SEAMOK_MAP).testBit f && (!(s.get F.BRG_FLD_COMPUTE_MAP).testBit f || s.fieldUnheld f)

/-- A request to switch the source of a field's clock (18 R601). -/
def State.switchSource (s : State) (f src mode : Nat) : State :=
  let busy := (findKey s.sequences f).isSome
  if busy || s.get F.CLK_FLDf_STAT_ACTIVE f == src || (mode == 0 && !s.sourceReady f src) ||
      (mode == 1 && !s.mayStop f) then
    s.put F.CLK_FLDf_STAT_REJ 1 f
  else if mode = 0 then s.useSource f src
  else s.stopSwitch f src

/-- A write of CLK_FLDf_CTL. -/
def State.writeClkCtl (s : State) (f v : Nat) : State :=
  let s := s.writePlain .CLK_FLDf_CTL f 0 v
  if v.testBit 3 then s.switchSource f (s.get F.CLK_FLDf_CTL_SRC f) (s.get F.CLK_FLDf_CTL_MODE f) else s

/-- The value of a CLK_FLDf_CTL write that requests a switch and leaves the enables as they are. -/
def State.switchWord (s : State) (f src mode : Nat) : Nat :=
  src + mode * 4 + 8 + s.get F.CLK_FLDf_CTL_TRN_EN f * 16 + s.get F.CLK_FLDf_CTL_CMP_EN f * 32 +
    s.get F.CLK_FLDf_CTL_BLK_EN f * 64

/-- CLOCK_SWITCH: a MODE 0 request with GO 1 (18 R602). -/
def execClockSwitch (f : Fin 64) (src : Fin 3) (s : State) : Out :=
  .next (s.writeClkCtl f.val (s.switchWord f.val src.val 0))

/-- STOP_SWITCH_RESTART: a MODE 1 request with GO 1 (18 R603). -/
def execStopSwitchRestart (f : Fin 64) (src : Fin 3) (s : State) : Out :=
  .next (s.writeClkCtl f.val (s.switchWord f.val src.val 1))

/-- PLL_LOCK: a PLL of a powered field locks at its programmed frequency (18 R600). -/
def execPllLock (f : Fin 64) (pll : Fin 2) (s : State) : Out :=
  if !s.transitOn f.val || mget 0 s.pllSetting (2 * f.val + pll.val) == 0 || !s.flag F.CLK_STAT_REFOK then .next s
  else .next ((s.put (pllReady pll.val) 1 f.val).restart f.val)

/-- PLL_LOCK_LOSS: a PLL loses lock; when it is the active one the field goes to REF at once and its sequencer holds
(18 R604). -/
def execPllLockLoss (f : Fin 64) (pll : Fin 2) (s : State) : Out :=
  let s' := s.put (pllReady pll.val) 0 f.val
  if s.get F.CLK_FLDf_STAT_ACTIVE f.val = pll.val + 1 then
    let s' := (s'.stopSwitch f.val 0).put F.CLK_FLDf_STAT_LOCKLOSS 1 f.val
    .next { s' with
      lockHold := if s'.lockHold.contains f.val then s'.lockHold else s'.lockHold ++ [f.val]
      sequences := delKey s'.sequences f.val }
  else .next s'

/-- REF_LOST: no reference edge for 200 ns (18 R597). -/
def execRefLost (s : State) : Out :=
  .next (if s.flag F.CLK_STAT_REFOK then
      ((s.put F.CLK_STAT_REFOK 0).put F.CLK_STAT_REFLOST 1).put F.BRG_READY_CLKREF 0
    else s)

/-- The reference is present: the trees that waited for it start again. -/
def State.refPresent (s : State) : State :=
  (List.range 64).foldl State.restart ((s.put F.CLK_STAT_REFOK 1).put F.BRG_READY_CLKREF 1)

/-- The management domain is out of reset: release step 1 is over and it is not held again (17 Tables 17.2, 17.3). -/
def State.mgmtOn (s : State) : Bool :=
  match s.resetRun with
  | some r => !r.reach.mgmt || (decide (1 < r.release) && r.assertStep.isNone)
  | none => true

/-- REF_DETECT: reference edges within tolerance have returned (17 Table 17.3, 18 R597). -/
def execRefDetect (s : State) : Out := .next (if s.mgmtOn then s.refPresent else s)

/-! ### The stitch sequencer (18 R605 to R609) -/

/-- The sequencer starts toward the effective setting, when it may and must: the idle PLL is programmed and unlocks. -/
def State.startSequence (s : State) (f : Nat) : State :=
  let cur := s.get F.CLK_FLDf_STAT_CUR f
  let eff := s.effSetting f
  if s.seqHolds f || (findKey s.sequences f).isSome || decide (cur = eff) then s
  else
    let idle := 2 - s.get F.CLK_FLDf_STAT_ACTIVE f
    let s := { s with sequences := putKey s.sequences f { setting := eff, raises := decide (cur < eff), switched := false }
                      pllSetting := mset 0 s.pllSetting (2 * f + idle) eff }
    s.put (pllReady idle) 0 f

/-- STITCH_TARGET_WRITE: the host writes TARGET. -/
def execStitchTargetWrite (f : Fin 64) (v : Fin 16) (s : State) : Out :=
  if !Reg.defines .CLK_FLDf_STITCH v.val then .fault .undefinedFieldValue
  else .next (s.put F.CLK_FLDf_STITCH_TARGET v.val f.val)

/-- STITCH_SEQUENCE_START. -/
def execStitchSequenceStart (f : Fin 64) (s : State) : Out := .next (s.startSequence f.val)

/-- STITCH_RAIL_GOOD: the rail is good and the idle PLL ready, so the sequencer makes its MODE 0 switch. -/
def execStitchRailGood (f : Fin 64) (s : State) : Out :=
  match findKey s.sequences f.val with
  | none => .next s
  | some q =>
    let idle := 2 - s.get F.CLK_FLDf_STAT_ACTIVE f.val
    if q.switched || s.seqHolds f.val || !s.flag (pllReady idle) f.val then .next s
    else .next { s.useSource f.val (idle + 1) with sequences := putKey s.sequences f.val { q with switched := true } }

/-- STITCH_SEQUENCE_END: a sequence of `us` µs ends and the sequencer starts toward the effective setting of the moment
(18 R608). -/
def execStitchSequenceEnd (f : Fin 64) (us : BitVec 32) (s : State) : Out :=
  match findKey s.sequences f.val with
  | none => .next s
  | some q =>
    if !q.switched then .next s
    else
      let s := { s with sequences := delKey s.sequences f.val }
      let s := (s.addWrap F.CLK_FLDf_SEQ_CHANGES 1 f.val).put F.CLK_FLDf_SEQ_LAST_US (min us.toNat 65535) f.val
      .next (s.startSequence f.val)

/-- CLKOBS_SELECT: a write of CLK_OBS; SRC 7 is reserved (18 R612). -/
def execClkobsSelect (v : Word) (s : State) : Out :=
  if !Reg.defines .CLK_OBS v.toNat then .fault .undefinedFieldValue else .next (s.writePlain .CLK_OBS 0 0 v.toNat)

/-- What stands on the CLKOBS pin: the selected clock with its divider, or none while EN is 0 (18 R612). -/
def State.clkobs (s : State) : Option (Nat × Nat × Nat × Nat) :=
  if s.flag F.CLK_OBS_EN then
    some (s.get F.CLK_OBS_SRC, s.get F.CLK_OBS_FIELD, s.get F.CLK_OBS_PORT, 2 ^ s.get F.CLK_OBS_DIV)
  else none

/-! ### The treadle (18 R613 to R616) -/

/-- Ticks added to the treadle count; the first ones set BRG_READY.TREADLE (18 R614). -/
def State.addTicks (s : State) (k ns : Nat) : State :=
  if k = 0 then s
  else ((s.addWrap F.TRD_COUNT_COUNT k).put F.TRD_INTERVAL_NS (min ns (2 ^ 32 - 1))).put F.BRG_READY_TREADLE 1

/-- TREADLE_TICK: a rising edge on TREADLE, `ns` after the last; `short` tells that its pulse is too short and is ignored.
The pin counts while SRC is 0, the reference is there and the block is clocked. -/
def execTreadleTick (ns : BitVec 32) (short : Bool) (s : State) : Out :=
  if s.flag F.TRD_CTL_SRC || !s.flag F.CLK_STAT_REFOK || !s.flag F.CLK_BLKEN_TRD then .next s
  else if short then .next (s.addSat F.TRD_STAT_IGN F.TRD_STAT_SAT 1)
  else .next (s.addTicks 1 ns.toNat)

/-- A write of TRD_PUSH. -/
def State.pushTicks (s : State) (add ns : Nat) : State :=
  if s.flag F.TRD_CTL_SRC then s.addTicks add ns else s.put F.TRD_STAT_PUSH_REJ 1

/-- TRD_PUSH: a write of TRD_PUSH, `ns` after the last tick. -/
def execTrdPush (add : BitVec 16) (ns : BitVec 32) (s : State) : Out :=
  .next (s.ifClocked .TRD_PUSH 0 0 fun s => s.pushTicks add.toNat ns.toNat)

/-- TREADLE_STALL: no tick for STALL_US once counting has begun. -/
def execTreadleStall (s : State) : Out :=
  .next (if !s.flag F.TRD_CTL_SRC && s.flag F.BRG_READY_TREADLE then s.put F.TRD_STAT_STALLED 1 else s)

/-- The armed entries of a field's table that a count has reached. -/
def State.reached (s : State) (f count : Nat) : List Nat :=
  (List.range 256).filter fun n =>
    s.flag F.FLD_CUEn_B_VALID f n &&
      decide ((count + 2 ^ 48 - s.get F.FLD_CUEn_B_COUNT f n) % 2 ^ 48 < 2 ^ 47)

/-- TREADLE_COPY_ADVANCE: a field's copy takes the count, and every entry whose COUNT it has reached comes due
(18 R615, R620, R621). -/
def execTreadleCopyAdvance (f : Fin 64) (s : State) : Out :=
  if !s.transitOn f.val || s.fieldCount f.val == s.now then .next s
  else
    let s := { s with trdCopy := mset 0 s.trdCopy f.val s.now
                      trdAdvances := mset 0 s.trdAdvances f.val (min 2 (mget 0 s.trdAdvances f.val + 1)) }
    .next ((s.reached f.val s.now).foldl (fun s n => s.makeDue f.val n) s)

/-! ### Cues (18 R618 to R622) -/

/-- A discarded cue write. -/
def State.rejectCue (s : State) (f : Nat) : State := s.put F.FLD_CUESTAT_REJ 1 f

/-- The argument of an entry does not suit its kind (18 R619). -/
def badCueArg (f kind arg : Nat) : Bool :=
  (kind == 2 && fieldOf (BitVec.ofNat 20 arg) != f) || (kind == 3 && (arg % 16 == 0 || decide (8 < arg % 16)))

/-- A host's write of word A or word B of an entry. -/
def State.writeCue (s : State) (f n : Nat) (wordB : Bool) (v : Nat) : Out :=
  if 224 ≤ n then .next (s.rejectCue f)
  else if !wordB then
    .next (if s.flag F.FLD_CUEn_B_VALID f n then s.rejectCue f else s.put F.FLD_CUEn_A_CUE v f n)
  else
    let kind := F.FLD_CUEn_B_KIND.slice 0 v
    let count := F.FLD_CUEn_B_COUNT.slice 0 v
    if 4 ≤ kind ∧ kind ≤ 7 then .next (s.rejectCue f)
    else if !v.testBit 63 then
      .next (((s.put F.FLD_CUEn_B_COUNT count f n).put F.FLD_CUEn_B_KIND kind f n).disarm f n)
    else if kind = 0 ∨ 8 ≤ kind then .fault .undefinedFieldValue
    else if badCueArg f kind (s.get F.FLD_CUEn_A_CUE f n) then .next (s.rejectCue f)
    else .next (s.arm f n count kind)

/-- CUE_WRITE: the controlling host writes a word of a cue entry. -/
def execCueWrite (f : Fin 64) (n : Fin 256) (wordB : Bool) (v : Word) (s : State) : Out :=
  if s.flag F.CLK_FLDf_CTL_BLK_EN f.val then s.writeCue f.val n.val wordB v.toNat
  else .next (s.gatedError (regOffset (if wordB then .FLD_CUEn_B else .FLD_CUEn_A) f.val n.val))

/-- A cue that finds nothing to act on. -/
def State.staleCue (s : State) (f : Nat) : State := s.addSat F.FLD_CUESTAT_STALE F.FLD_CUESTAT_SAT 1 f

/-- The effect of a cue of some kind (18 Table 18.3). A core whose clocks are off takes none (02 R89). -/
def State.cueEffect (s : State) (f kind arg : Nat) : State :=
  match kind with
  | 1 =>
    match s.slots.find? fun e => e.2.inService && e.2.id e.1 == arg % 65536 with
    | none => s.staleCue f
    | some (_, o) =>
      (o.allCores.filter fun n => fieldOf (BitVec.ofNat 20 n) == f && s.backed (BitVec.ofNat 20 n)).foldl
        (fun s n =>
          let c : Lcn := BitVec.ofNat 20 n
          s.onCore c fun s => ((s.put F.CORE_PAT_CTL_SLOT (arg / 65536 % 4) n).put F.CORE_PAT_CTL_FORCE 0 n).requestSwitch c
            (arg / 65536 % 4) false true) s
  | 2 =>
    let c : Lcn := BitVec.ofNat 20 arg
    if s.backed c then
      s.onCore c fun s => s.signal c (Fin.ofNat 32 (arg / 2 ^ 20)) false (BitVec.ofNat 32 (arg / 2 ^ 32)) 1 0
    else s.staleCue f
  | 3 => s.put F.CLK_FLDf_STITCH_TARGET (arg % 16) f
  | 4 => s.sweepFired f false
  | 5 => s.sweepFired f true
  | 6 => s.markFired (arg % 4)
  | 7 => s.deadlineFired (arg % 4) (arg / 2 ^ 32 % 2 ^ 32)
  | _ => s

/-- The lowest due entry of a field. -/
def State.nextDue (s : State) (f : Nat) : Option Nat :=
  (List.range 256).find? fun n => s.cueDue.contains (256 * f + n)

/-- CUE_FIRE: the lowest due entry of a field fires: its VALID then reads 0, and its effect is applied (18 R621). -/
def execCueFire (f : Fin 64) (s : State) : Out :=
  match s.nextDue f.val with
  | none => .next s
  | some n =>
    let kind := s.get F.FLD_CUEn_B_KIND f.val n
    let arg := s.get F.FLD_CUEn_A_CUE f.val n
    .next (((s.disarm f.val n).addWrap F.FLD_CUESTAT_FIRED 1 f.val).cueEffect f.val kind arg)

end Sys2Proof.Machine
end

