-- ==== Sys2Proof/Machine/BringUp.lean ====
section
/-!
DEFINITION. Bring-up commands, topology, the start-up test and repair, partial resets, and darning (16 R563 to R583).
-/

namespace Sys2Proof.Machine

/-! ### Bring-up commands (16 R564) -/

/-- The error flag and code of BRG_CMDSTAT. -/
def State.cmdError (s : State) (code : Nat) : State := (s.put F.BRG_CMDSTAT_ERR 1).put F.BRG_CMDSTAT_ERRCODE code

/-- A write of BRG_CMD: with GO it starts the command that OP names, or is refused. -/
def State.writeBrgCmd (s : State) (v : Nat) : State :=
  let op := F.BRG_CMD_OP.slice 0 v
  if !v.testBit 63 then s.writePlain .BRG_CMD 0 0 v
  else if s.brgCmd.isSome then s.cmdError 1
  else
    let s := s.writePlain .BRG_CMD 0 0 v
    if op = 0 ∨ 6 < op ∨ (op = 6 ∧ v.testBit 4 = true) then s.cmdError 1
    else { s.put F.BRG_CMDSTAT_OP op with brgCmd := some (v % 2 ^ 21) }

/-- A GO write of BRG_CMD by the controlling host. -/
def State.brgGo (s : State) (v : Nat) : Out :=
  .next (if s.flag F.CLK_BLKEN_BRG then s.writeBrgCmd (v + 2 ^ 63) else s.gatedError (regOffset .BRG_CMD 0 0))

/-- TRANSIT_ON. -/
def execTransitOn (all : Bool) (f : Fin 64) (s : State) : Out := s.brgGo (1 + bit all * 16 + f.val * 32)

/-- SEAM_TRAIN. -/
def execSeamTrain (all : Bool) (f : Fin 64) (s : State) : Out := s.brgGo (2 + bit all * 16 + f.val * 32)

/-- TOPO_CHECK. -/
def execTopoCheck (all : Bool) (f : Fin 64) (s : State) : Out := s.brgGo (3 + bit all * 16 + f.val * 32)

/-- COMPUTE_ON. -/
def execComputeOn (all : Bool) (f : Fin 64) (s : State) : Out := s.brgGo (4 + bit all * 16 + f.val * 32)

/-- TOPO_ACCEPT. -/
def execTopoAccept (all : Bool) (f : Fin 64) (s : State) : Out := s.brgGo (5 + bit all * 16 + f.val * 32)

/-- SEAM_RETRAIN. -/
def execSeamRetrain (f : Fin 64) (side : Fin 4) (net : Fin 2) (row : Fin 128) (s : State) : Out :=
  s.brgGo (6 + f.val * 32 + side.val * 2 ^ 11 + net.val * 2 ^ 13 + row.val * 2 ^ 14)

/-! ### Transit (16 Table 16.2; 18 R603, R615, R622) -/

/-- A bit of a 64-bit map. -/
def State.mapBit (s : State) (m : Fld) (f : Nat) : Bool := (s.get m).testBit f

/-- The physical row of a port's attachment position; a relocation does not move it (13 R461, R462). -/
def portRow (p : Nat) : Nat := portField p * 128 + rowOf (portAttachment p) % 128

/-- The physical position at which a port's attachment position sits in its row, by the placement of 01 R8 that a later
relocation of the row keeps (01 R18): one of three. -/
def State.portPosition (s : State) (p : Nat) : Nat :=
  nthFree ((mget [] s.badPositions (portRow p)).take 2) (colOf (portAttachment p) % 128)

/-- Port steering stages set from the repair map (13 R462). -/
def State.steerPorts (s : State) (which : Nat → Bool) : State :=
  { s with portSteer := ((List.range 32).filter which).foldl (fun m p => mset 0 m p (s.portPosition p)) s.portSteer }

/-- The stages of the ports at a row set with that row's bypass and steering stages. -/
def State.steerRow (s : State) (row : Nat) : State := s.steerPorts fun p => portRow p == row

/-- The transit domain of a field comes up: its trees run from PLL A at Stitch 1, its copy of the count is loaded, its cue
table is empty. -/
def State.transitUp (s : State) (f : Nat) : State :=
  let s := (s.setDomain (64 + f) true).emptyCues f
  let s := ((s.put F.CLK_FLDf_CTL_TRN_EN 1 f).put F.CLK_FLDf_CTL_BLK_EN 1 f).steerPorts fun p => portField p == f
  let s := { s with pllSetting := mset 0 s.pllSetting (2 * f) 1 }
  let s := (s.put F.CLK_FLDf_STAT_PLLA_RDY 1 f).stopSwitch f 1
  let s := { s with trdCopy := mset 0 s.trdCopy f s.now, trdAdvances := mset 0 s.trdAdvances f 0 }
  (s.readyBit F.BRG_FLD_TRANSIT_MAP f true).updateDistances

/-- TRANSIT_ON on one field, with its error code. -/
def State.runTransitOn (s : State) (f : Nat) (o : BringUpOutcome) : State × Option Nat :=
  if !(s.flag F.BRG_READY_MGMT && s.flag F.BRG_READY_NVS && s.flag F.BRG_READY_CLKREF) then (s, some 2)
  else if s.isHole f then (s, some 3)
  else if s.transitOn f then (s, none)
  else if o.dead.any fun g => g.val == f then (s.declareHole f, some 3)
  else (s.transitUp f, none)

/-! ### Seam links (16 R566, R572) -/

/-- A link passes its window: it reaches UP, and no more of its flits fail than BRG_BER_LIMIT allows. -/
def State.linkPasses (s : State) (o : BringUpOutcome) (key : Nat) : Bool :=
  match o.links.find? fun e => e.1.val == key with
  | some (_, some n) => decide (n ≤ s.get F.BRG_BER_LIMIT_FLITS)
  | some (_, none) => false
  | none => true

/-- A link joins the discovered topology, or leaves it. -/
def State.discover (s : State) (key : Nat) (b : Bool) : State :=
  let rest := s.discovered.filter fun k => k != key
  { s with discovered := if b then rest ++ [key] else rest }

/-- A link put in FAILED, with the event of its entry; a packet that crosses it then is cut (08 R335). -/
def State.closeLink (s : State) (f side net i : Nat) : State :=
  match (s.link f side net i).st with
  | .failed => s
  | _ => ((s.enterFailed f side net i).cutLast f side net i).cutLast (beyond f side) ((side + 2) % 4) net i

/-- A link put in UP. -/
def State.openLink (s : State) (f side net i : Nat) : State := s.setLink f side net i (s.link f side net i).up

/-- The distance table after a command that may have changed link states (01 R36). -/
def State.linksChanged (s old : State) : State := if s.fab.links = old.fab.links then s else s.updateDistances

/-- One link trained and measured. -/
def State.trainLink (s : State) (f side net i : Nat) (o : BringUpOutcome) : State :=
  let key := linkKey f side net i
  if !s.mapBit F.BRG_FLD_TRANSIT_MAP (beyond f side) then s.discover key false
  else if s.linkPasses o key then (s.openLink f side net i).discover key true
  else (s.closeLink f side net i).discover key false

/-- Every link of a field, by side, network and row or column. -/
def fieldLinks (f : Nat) : List (Nat × Nat × Nat) :=
  ((List.range 4).filter fun d => hasSeam f d).flatMap fun d =>
    (List.range 2).flatMap fun n => (List.range 128).map fun i => (d, n, i)

/-- SEAM_TRAIN on one field. -/
def State.runSeamTrain (s : State) (f : Nat) (o : BringUpOutcome) : State × Option Nat :=
  if !s.mapBit F.BRG_FLD_TRANSIT_MAP f then (s, some 2)
  else
    let t := (fieldLinks f).foldl (fun s l => s.trainLink f l.1 l.2.1 l.2.2 o) s
    ((t.linksChanged s).readyBit F.BRG_FLD_SEAMOK_MAP f true, none)

/-- SEAM_RETRAIN of one link. -/
def State.runSeamRetrain (s : State) (f side net i : Nat) (o : BringUpOutcome) : State × Option Nat :=
  let ready := s.mapBit F.BRG_FLD_TRANSIT_MAP f && s.mapBit F.BRG_FLD_SEAMOK_MAP f && s.mapBit F.BRG_FLD_TOPO_MAP f &&
    s.mapBit F.BRG_FLD_COMPUTE_MAP f
  let key := linkKey f side net i
  if !ready then (s, some 2)
  else if !hasSeam f side || (s.link f side net i).st != .failed || !s.linkPasses o key then (s, some 6)
  else (((s.openLink f side net i).discover key true).updateDistances, none)

/-! ### Topology (16 R567, R568) -/

/-- A link of a field disagrees: some true where it is extra, some false where it is missing. -/
def State.linkDiff (s : State) (f : Nat) (l : Nat × Nat × Nat) : Option Bool :=
  let key := linkKey f l.1 l.2.1 l.2.2
  let found := s.discovered.contains key
  if found = s.unexpected.contains key then some found else none

/-- BRG_TOPO_DIFF after a disagreement. -/
def State.noteDiff (s : State) (f : Nat) (diff : List ((Nat × Nat × Nat) × Bool)) : State :=
  match diff with
  | [] => s
  | ((d, n, i), extra) :: _ =>
    let count (b : Bool) : Nat := (diff.filter fun e => e.2 == b).length
    ((((((s.put F.BRG_TOPO_DIFF_FIELD f).put F.BRG_TOPO_DIFF_MISSING (count false)).put F.BRG_TOPO_DIFF_EXTRA
      (count true)).put F.BRG_TOPO_DIFF_FSIDE d).put F.BRG_TOPO_DIFF_FNET n).put F.BRG_TOPO_DIFF_FROW i).put
      F.BRG_TOPO_DIFF_FEXTRA (bit extra)

/-- TOPO_CHECK on one field. -/
def State.runTopoCheck (s : State) (f : Nat) : State × Option Nat :=
  if !s.mapBit F.BRG_FLD_SEAMOK_MAP f then (s, some 2)
  else
    let diff := (fieldLinks f).filterMap fun l => (s.linkDiff f l).map fun b => (l, b)
    if diff.isEmpty then (s.readyBit F.BRG_FLD_TOPO_MAP f true, none)
    else
      let t := diff.foldl (fun s e => if e.2 then s.closeLink f e.1.1 e.1.2.1 e.1.2.2 else s) s
      (((t.linksChanged s).noteDiff f diff).readyBit F.BRG_FLD_TOPO_MAP f false, some 4)

/-- TOPO_ACCEPT on one field: the discovered links become the expected ones, and the extra links, in FAILED until now, return
to UP. -/
def State.runTopoAccept (s : State) (f : Nat) : State × Option Nat :=
  if !s.mapBit F.BRG_FLD_SEAMOK_MAP f then (s, some 2)
  else
    let keys := (fieldLinks f).map fun l => linkKey f l.1 l.2.1 l.2.2
    let absent := keys.filter fun k => !s.discovered.contains k
    let s := (fieldLinks f).foldl (fun s l =>
      if s.linkDiff f l == some true && (s.link f l.1 l.2.1 l.2.2).st == .failed then
        s.openLink f l.1 l.2.1 l.2.2
      else s) s
    let s := { s with unexpected := (s.unexpected.filter fun k => !keys.contains k) ++ absent }
    (((s.queueSection sectTopo).readyBit F.BRG_FLD_TOPO_MAP f true).updateDistances, none)

/-! ### Repair (16 R579) -/

/-- The number of a physical row. -/
def Position.rowKey (p : Position) : Nat := p.field * 128 + p.panel * 16 + p.row

/-- A position is bad in the repair map. -/
def State.isBad (s : State) (p : Position) : Bool := (s.rowBad p.rowKey).contains p.pos || s.heldBad.contains p

/-- The logical column that sits on a position of a row that holds a segment; 128 where none does (01 R8). -/
def State.columnAt (s : State) (p : Position) : Nat :=
  let bad := s.rowBad p.rowKey
  if bad.contains p.pos then 128 else min 128 (p.pos - (bad.filter fun q => decide (q < p.pos)).length)

/-- A bad position that no column uses entered in the repair map. -/
def State.addBad (s : State) (p : Position) : State :=
  { s with badPositions := mset [] s.badPositions p.rowKey (s.rowBad p.rowKey ++ [p.pos]) }

/-- The gusset row that a segment moves to: its own field's rows first, then those of its edge neighbours north, east, south
and west. -/
def State.relocationTarget (s : State) (seg : Nat) : Option Relocation :=
  let f := segmentField seg
  let fields := f :: ((List.range 4).filter fun d => hasSeam f d).map (beyond f)
  let rows := (fields.filter fun g => decide ((g % 8 + g / 8) % 2 = 1)).flatMap fun g =>
    (List.range 16).map fun r => (g, r)
  (rows.find? fun e => s.freeGussetRow (e.1 * 128 + 112 + e.2)).map fun e =>
    { lrow := seg / 8, fx := seg % 8, gfx := e.1 % 8, gfy := e.1 / 8, grow := e.2 }

/-- Which action darning takes for a bad position of a segment: 1 spare shift, 2 relocation, 3 fence. -/
def State.repairKind (s : State) (p : Position) (seg : Nat) : Nat × Option Relocation :=
  if s.badCount p.rowKey < 2 then (1, none)
  else match s.relocationTarget seg with
    | some r => (2, some r)
    | none => (3, none)

/-- An entry in the relocation list, which is sorted by logical row and then by fx. -/
def insertRelocation (r : Relocation) : List Relocation → List Relocation
  | [] => [r]
  | q :: l => if r.lrow * 8 + r.fx < q.lrow * 8 + q.fx then r :: q :: l else q :: insertRelocation r l

/-- The bad positions that hold fenced columns of a row lose them: its segment has left. -/
def State.releaseHeld (s : State) (row : Nat) : State :=
  let (here, rest) := s.heldBad.partition fun p => p.rowKey == row
  here.foldl State.addBad { s with heldBad := rest }

/-- A saturating count of BRG_DARN_COUNT. -/
def State.countRepair (s : State) (kind : Nat) : State :=
  let f := if kind = 1 then F.BRG_DARN_COUNT_SPARES else if kind = 2 then F.BRG_DARN_COUNT_RELOCS else
    F.BRG_DARN_COUNT_FENCES
  s.addSat f F.BRG_DARN_COUNT_SAT 1

/-- The translation caches of the fields drop a segment whose place has changed (07 R287). -/
def State.dropCached (s : State) (seg : Nat) : State :=
  { s with fab := { s.fab with caches := s.fab.caches.map fun e => (e.1, e.2.filter fun k => k != seg) } }

/-- The tables after an action on a position of a segment: the numbering within the row, the relocation list, or the fence,
with the distance table (16 R579, R580). A fenced core stays fenced where its row moves later, though a good position then
takes its column (DESIGN CHOICE, log entry 46: 01 R16 is silent). -/
def State.applyRepair (s : State) (p : Position) (seg kind : Nat) (dest : Option Relocation) : State :=
  let s := (s.countRepair kind).put F.BRG_DARN_STAT_LAST_KIND kind
  match kind, dest with
  | 1, _ => (s.addBad p).steerRow p.rowKey
  | 2, some r =>
    let s := (s.addBad p).releaseHeld p.rowKey
    let rest := s.relocations.filter fun q => q.lrow * 8 + q.fx != seg
    ({ s with relocations := insertRelocation r rest }.dropCached seg).updateDistances
  | _, _ =>
    let c := s.columnAt p
    if c = 128 then s.addBad p
    else
      { s with
        fenced := s.fenced ++ [(posOf (seg / 8) (seg % 8 * 128 + c)).toNat]
        heldBad := s.heldBad ++ [p] }.updateDistances

/-- The event of a darning action: the logical row, and fx above it as in a relocation-list entry. -/
def State.darnEvent (s : State) (seg : Nat) : State := s.raiseField 9 (segmentField seg) (seg / 8 + seg % 8 * 2 ^ 10) 0

/-- A position that the start-up test finds bad, put in the repair map as darning would, with no state to copy. -/
def State.repairAtStart (s : State) (p : Position) : State :=
  if s.isBad p then s
  else match s.segmentAt p with
    | none => s.addBad p
    | some seg =>
      let k := s.repairKind p seg
      (s.applyRepair p seg k.1 k.2).darnEvent seg

/-! ### The start-up test and COMPUTE_ON (16 R569 to R571; 15 R530; 19 R627) -/

/-- A position on which the test and the fuse map disagree: counted and recorded. -/
def State.disagree (s : State) (f : Fld) (p : Position) : State :=
  let s := (s.addSat f F.BRG_DISAGREE_SAT 1).put F.BRG_DISAGREE_FIELD p.field
  { s with disagreements := s.disagreements ++ [p] }

/-- Ports whose attachment row is relocated at first bring-up are fused off, and the store marks them (13 R463). -/
def State.fusePorts (s : State) (f : Nat) : State :=
  ((List.range 32).filter fun p =>
    portField p == f && (s.relocationOf (segmentOf (portAttachment p))).isSome).foldl
    (fun s p => { s.put F.SEL_STAT_FUSED 1 p with fusedPorts := s.fusedPorts.erase p ++ [p] }) s

/-- The bad set of a field, from the positions that failed its test, taken into the repair map and the store. -/
def State.takeTest (s : State) (f : Nat) (failing : List Position) : State :=
  let failed := (failing.filter fun p => p.field == f).eraseDups
  let fused := s.fuseMap.filter fun p => p.field == f
  let s' := failed.foldl (fun s p => if fused.contains p then s else s.disagree F.BRG_DISAGREE_TEST_ONLY p) s
  let s' := fused.foldl (fun s p => if failed.contains p then s else s.disagree F.BRG_DISAGREE_FUSE_ONLY p) s'
  let s' := (fused ++ failed).foldl State.repairAtStart s'
  let s' := if s'.firstBringUp then s'.fusePorts f else s'
  if s'.isDirty sectRepair || s'.firstBringUp then s'.commitSection sectRepair else s'

/-- The row segments that the silicon of a field holds. -/
def State.segmentsIn (s : State) (f : Nat) : List Nat :=
  (List.range 8192).filter fun seg => s.rowOfSegment seg / 128 == f && !isGussetSegment seg

/-- The compute domain of a field comes up: its SRAM is zeroed, its bad set repaired, and CLK_EN is 1 on its backed cores. -/
def State.computeUp (s : State) (f : Nat) (failing : List Position) : State :=
  let s := (s.setDomain f true).put F.CLK_FLDf_CTL_CMP_EN 1 f
  let s := s.wipeCores fun n => s.homeField (BitVec.ofNat 20 n) == f
  let s := s.takeTest f failing
  let cores := ((s.segmentsIn f).flatMap segmentCores).filter s.backed
  let s := (cores.foldl (fun s c => s.put F.CORE_CTL_CLK_EN 1 c.toNat) s).resetWindows cores
  (s.readyBit F.BRG_FLD_COMPUTE_MAP f true).updateDistances

/-- A trip of a field's compute domain is counted, with its lifetime count; at TRIP_MAX the field is locked (19 R643). -/
def State.countTrip (s : State) (f : Nat) : State :=
  let s := s.addMax F.PWR_FLDf_STAT_TRIPS 1 f
  let s := { s with life := { s.life with trips := mset 0 s.life.trips f (mget 0 s.life.trips f + 1) } }
  let s := s.queueSection sectLife
  if s.get F.PWR_CTL_TRIP_MAX ≤ s.get F.PWR_FLDf_STAT_TRIPS f then s.put F.PWR_FLDf_STAT_LOCKED 1 f else s

/-- COMPUTE_ON on one field. A field that is parked for a reason stays parked. -/
def State.runComputeOn (s : State) (f : Nat) (o : BringUpOutcome) : State × Option Nat :=
  let reason := s.get F.PWR_FLDf_STAT_REASON f
  if !s.mapBit F.BRG_FLD_TOPO_MAP f then (s, some 2)
  else if s.computeOn f then (s, none)
  else if s.flag F.PWR_FLDf_STAT_LOCKED f then (s, some 5)
  else if reason ≠ 0 then (s, some (if reason.testBit 3 then 5 else 2))
  else if o.tripped.any fun g => g.val == f then ((s.countTrip f).parkReason f 3 true, some 5)
  else (s.computeUp f o.failing, none)

/-! ### The end of a command -/

/-- A command's effect on one field. -/
def State.runCommand (s : State) (v f : Nat) (o : BringUpOutcome) : State × Option Nat :=
  match F.BRG_CMD_OP.slice 0 v with
  | 1 => s.runTransitOn f o
  | 2 => s.runSeamTrain f o
  | 3 => s.runTopoCheck f
  | 4 => s.runComputeOn f o
  | 5 => s.runTopoAccept f
  | _ => s.runSeamRetrain f (F.BRG_CMD_SIDE.slice 0 v) (F.BRG_CMD_NET.slice 0 v) (F.BRG_CMD_ROW.slice 0 v) o

/-- A command run on a list of fields in ascending order, with the lowest failing one and its error code. A field that the
same COMPUTE_ON has yet to power is still off when an earlier one looks for gusset rows (DESIGN CHOICE, log entry 46: 01 R19
is silent). -/
def State.runFields (v : Nat) (o : BringUpOutcome) : List Nat → State → Option (Nat × Nat) → State × Option (Nat × Nat)
  | [], s, bad => (s, bad)
  | f :: l, s, bad =>
    let r := s.runCommand v f o
    State.runFields v o l r.1 (match bad, r.2 with | none, some e => some (f, e) | _, _ => bad)

/-- BRG_COMMAND_COMPLETE: the command that runs ends for all its fields, with what happened to them. -/
def execBrgCommandComplete (o : BringUpOutcome) (before : State) : Out :=
  let s := before
  match s.brgCmd with
  | none => .next s
  | some v =>
    let fields := if v.testBit 4 then List.range 64 else [F.BRG_CMD_FIELD.slice 0 v]
    let r := State.runFields v o fields { s with brgCmd := none } none
    let s := match r.2 with
      | some (f, e) => (r.1.cmdError e).put F.BRG_CMDSTAT_FIELD f
      | none => r.1
    .next ((s.put F.BRG_CMDSTAT_DONE 1).noteFault before)

/-- DISTANCE_TABLE_BUILT: the first field is ready and Marker has built the distance table. -/
def execDistanceTableBuilt (s : State) : Out :=
  .next (if (List.range 64).any s.fieldReady && !s.flag F.BRG_READY_MARKER then s.updateDistances.put F.BRG_READY_MARKER 1
    else s)

/-! ### Partial resets (16 R573 to R576) -/

/-- The panels of a scope. -/
def State.scopePanels (s : State) (r : PartialReset) : List Nat :=
  match r.scope with
  | 0 => []
  | 1 => [r.target]
  | 2 => (List.range 512).filter fun p => s.inPartition r.target (p / 8)
  | _ => List.range 512

/-- The cores of a scope. -/
def State.scopeCores (s : State) (r : PartialReset) : List Lcn :=
  if r.scope = 0 then [BitVec.ofNat 20 r.target]
  else (s.scopePanels r).flatMap fun p =>
    (List.range 16).flatMap fun row => segmentCores ((p / 64 * 128 + p % 8 * 16 + row) * 8 + p / 8 % 8)

/-- A scope holds the segment under darning. -/
def State.scopeDarned (s : State) (r : PartialReset) : Bool :=
  match s.darn with
  | some d =>
    match d.segment with
    | some seg => (segmentCores seg).any fun c => s.inScope r c
    | none => false
  | none => false

/-- The cores of a scope take their core resets. -/
def State.resetScope (s : State) (r : PartialReset) : State :=
  let s := ((s.scopeCores r).filter s.backed).foldl State.coreReset s
  { s with partialReset := some { r with phase := 2 } }

/-- Every cut order that holds a core of a scope is on its way to ABORTED; it ends once the reset is over. -/
def State.abortScope (s : State) (r : PartialReset) : State :=
  s.slots.foldl (fun s e =>
    if e.2.inService && (e.2.allCores.any fun n => s.inScope r (BitVec.ofNat 20 n)) then
      s.keepOrder e.1 e.2.aborting
    else s) s

/-- Every thread of a scope halted. -/
def State.haltScope (s : State) (r : PartialReset) : State :=
  s.threads.foldl (fun s e =>
    let c : Lcn := BitVec.ofNat 20 (e.1 / 4)
    if s.inScope r c then s.haltThread c (Fin.ofNat 4 e.1) else s) s

/-- The drain of a scope begins: its posted spool requests that have not started are dropped. -/
def State.startDrain (s : State) (r : PartialReset) : State :=
  let s := (s.abortScope r).haltScope r
  { s with
    partialReset := some { r with phase := 1 }
    spool := s.spool.filter fun q => q.taken || !s.inScope r q.core }

/-- A reset begins, or waits for the darning action that its scope meets. -/
def State.beginReset (s : State) (r : PartialReset) : State :=
  if s.scopeDarned r then { s with partialReset := some { r with phase := 0 } }
  else if r.scope = 0 then s.resetScope r
  else s.startDrain r

/-- A write of BRG_RST: with GO it starts the reset, or is discarded while one runs. -/
def State.writeBrgRst (s : State) (v : Nat) : State :=
  if !v.testBit 63 then s.writePlain .BRG_RST 0 0 v
  else if s.partialReset.isSome then s.put F.BRG_RSTSTAT_REJ 1
  else
    let target := F.BRG_RST_TARGET.slice 0 v
    let scope := F.BRG_RST_SCOPE.slice 0 v
    let target := if scope = 1 then target % 512 else if scope = 2 then target % 16 else target
    (s.writePlain .BRG_RST 0 0 v).beginReset { scope, target, phase := 0 }

/-- A GO write of BRG_RST by the controlling host. -/
def State.rstGo (s : State) (scope target : Nat) : Out :=
  .next (if s.flag F.CLK_BLKEN_BRG then s.writeBrgRst (scope + target * 2 ^ 8 + 2 ^ 63)
    else s.gatedError (regOffset .BRG_RST 0 0))

/-- BRG_RST_CORE. -/
def execBrgRstCore (c : Lcn) (s : State) : Out := s.rstGo 0 c.toNat

/-- BRG_RST_PANEL. -/
def execBrgRstPanel (panel : Fin 512) (s : State) : Out := s.rstGo 1 panel.val

/-- BRG_RST_PARTITION. -/
def execBrgRstPartition (ld : Fin 16) (s : State) : Out := s.rstGo 2 ld.val

/-- BRG_RST_WAFER. -/
def execBrgRstWafer (s : State) : Out := s.rstGo 3 0

/-- No core of a scope holds a tag and no engine of it has an operation in flight. -/
def State.scopeQuiet (s : State) (r : PartialReset) : Bool :=
  (s.cores.all fun e =>
    !s.inScope r (BitVec.ofNat 20 e.1) ||
      (e.2.heldTags.isEmpty && e.2.ringOps.isEmpty && e.2.sel.isNone && e.2.loads.isEmpty)) &&
  !(s.spool.any fun q => s.inScope r q.core)

/-- DRAIN_END. -/
def execDrainEnd (s : State) : Out :=
  match s.partialReset with
  | some r => .next (if r.phase = 1 ∧ s.scopeQuiet r = true then s.resetScope r else s)
  | none => .next s

/-- DRAIN_LIMIT_EXPIRE. -/
def execDrainLimitExpire (s : State) : Out :=
  match s.partialReset with
  | some r => .next (if r.phase = 1 then (s.addMax F.BRG_RSTSTAT_DRAIN_TO 1).resetScope r else s)
  | none => .next s

/-- The end of a core's reset phase: it serves accesses again. -/
def State.endAbsorb (s : State) (c : Lcn) : State :=
  if (s.core c).absorbing then (s.setCore c { s.core c with absorbing := false }).put F.CORE_CTL_CLK_EN 1 c.toNat else s

/-- The FAB_DL_ fields of a panel's deadlock detector. -/
def isDetectorField (id : Nat) : Bool :=
  decide (F.FAB_DL_WINDOW_EXP.id ≤ id) && decide (id ≤ F.FAB_DL_SNAPn_VALID.id)

/-- The engines and agents of a scope's panels return to their reset state. -/
def State.resetPanels (s : State) (r : PartialReset) : State :=
  let panels := s.scopePanels r
  { s with
    spool := s.spool.filter fun q => !panels.contains q.panel
    spoolWin := s.spoolWin.filter fun e => !(decide (e.1 < 512) && panels.contains e.1)
  }.resetKeys fun k => isDetectorField (k / 2 ^ 32) && panels.contains (k / 2 ^ 12 % 2 ^ 20)

/-- The next Function Level Reset that waits begins. -/
def State.nextReset (s : State) : State :=
  match s.waitingResets with
  | r :: l => { s with waitingResets := l }.beginReset r
  | [] => s

/-- The reset in progress ends after `us` µs. -/
def State.endReset (s : State) (r : PartialReset) (us : Nat) : State :=
  let s := (s.put F.BRG_RSTSTAT_LAST_SCOPE r.scope).put F.BRG_RSTSTAT_LAST_US us
  { s with partialReset := none }.nextReset

/-- RESET_PHASE_END: the absorb period of one core's reset ends, or that of the reset in progress, which then releases its
scope. -/
def execResetPhaseEnd (core : Option Lcn) (us : BitVec 32) (s : State) : Out :=
  match core, s.partialReset with
  | some c, some r =>
    if r.scope = 0 ∧ r.target = c.toNat ∧ r.phase = 2 then .next ((s.endAbsorb c).endReset r us.toNat)
    else .next (if r.phase = 2 && s.inScope r c then s else s.endAbsorb c)
  | some c, none => .next (s.endAbsorb c)
  | none, some r =>
    if r.phase ≠ 2 then .next s
    else .next ((((s.scopeCores r).foldl State.endAbsorb s).resetPanels r).endReset r us.toNat)
  | none, none => .next s

/-! ### Function Level Reset (14 R525) -/

/-- The registers of an LD's ring, event queue and aperture. -/
def isLdHostField (id : Nat) : Bool :=
  decide (F.CXL_LDk_RING_LOG2SIZE.id ≤ id) && decide (id ≤ F.CXL_LDk_APERTURE_PANEL.id)

/-- What a Function Level Reset clears of its LD's host side. -/
def State.clearLdHost (s : State) (ld : Nat) : State :=
  let base := s.get F.CXL_LDk_MSIX_BASE ld
  let count := s.get F.CXL_LDk_MSIX_COUNT ld
  { s.resetKeys (fun k => isLdHostField (k / 2 ^ 32) && k / 2 ^ 12 % 2 ^ 20 == ld) with
    msixPending := s.msixPending.filter fun v => !(decide (base ≤ v) && decide (v < base + count)) }

/-- FUNCTION_LEVEL_RESET: the partition reset of an LD, after the partial reset that runs, and its host side cleared. -/
def execFunctionLevelReset (ld : Fin 16) (s : State) : Out :=
  let r : PartialReset := { scope := 2, target := ld.val, phase := 0, flr := true }
  let s := s.clearLdHost ld.val
  .next (if s.partialReset.isSome then { s with waitingResets := s.waitingResets ++ [r] } else s.beginReset r)

/-! ### Darning (16 R578 to R582) -/

/-- Condemned positions of the watch list that found the queue full join it while it has room. -/
def State.refillDarn (s : State) : State :=
  s.watch.foldl (fun s e =>
    let busy := match s.darn with
      | some d => d.at_ == e.at_
      | none => false
    if e.condemned && !busy && !s.darnQueue.contains e.at_ && decide (s.darnQueue.length < 64) then
      { s with darnQueue := s.darnQueue ++ [e.at_] }
    else s) s

/-- A write of BRG_DARN_CMD: with GO it queues the position as condemned. -/
def State.writeDarnCmd (s : State) (v : Nat) : State :=
  let s := s.writePlain .BRG_DARN_CMD 0 0 v
  if !v.testBit 63 then s
  else
    let p : Position := { field := F.BRG_DARN_CMD_FIELD.slice 0 v, panel := F.BRG_DARN_CMD_PANEL.slice 0 v,
                          row := F.BRG_DARN_CMD_PROW.slice 0 v, pos := F.BRG_DARN_CMD_POS.slice 0 v }
    let s : State := { s with watch := s.watch.map fun e => if e.at_ = p then { e with condemned := true } else e }
    if s.darnQueue.length < 64 then { s with darnQueue := s.darnQueue ++ [p] } else s

/-- DARN_REQUEST: a BRG_DARN_CMD write with GO 1. -/
def execDarnRequest (field : Fin 64) (panel : Fin 8) (row : Fin 16) (pos : Fin 130) (s : State) : Out :=
  .next (if s.flag F.CLK_BLKEN_BRG then
      s.writeDarnCmd (field.val + panel.val * 2 ^ 6 + row.val * 2 ^ 9 + pos.val * 2 ^ 13 + 2 ^ 63)
    else s.gatedError (regOffset .BRG_DARN_CMD 0 0))

/-- The slot whose cut order holds a segment. -/
def State.segmentSlot (s : State) (seg : Nat) : Option Nat :=
  (s.slots.find? fun e => e.2.inService && e.2.segments.contains seg).map (·.1)

/-- A request can be taken now: its field is neither parked nor a hole, and its segment is in no reset, no test and no
migration. -/
def State.darnable (s : State) (p : Position) : Bool :=
  s.computeOn p.field && !s.isHole p.field &&
  match s.segmentAt p with
  | none => true
  | some seg =>
    (findKey s.tests seg).isNone &&
    (match s.partialReset with
      | some r => !((segmentCores seg).any fun c => s.inScope r c)
      | none => true) &&
    (match s.migration, s.segmentSlot seg with
      | some m, some n => !m.todo.contains n
      | _, _ => true)

/-- A position leaves the watch list. -/
def State.unwatch (s : State) (p : Position) : State := { s with watch := s.watch.filter fun e => !decide (e.at_ = p) }

/-- Darning starts on a position: only recorded where its row holds no segment, and otherwise an action that begins with the
quiesce of the cut order that holds the segment. -/
def State.startDarn (s : State) (p : Position) : State :=
  if s.isBad p then (s.unwatch p).refillDarn
  else match s.segmentAt p with
    | none => (((s.addBad p).queueSection sectRepair).unwatch p).refillDarn
    | some seg =>
      let k := s.repairKind p seg
      let slot := s.segmentSlot seg
      let s := { s with darn := some { at_ := p, kind := k.1, segment := some seg, column := s.columnAt p, dest := k.2,
                                       slot } }
      (match slot with
        | some n => s.haltOrder n
        | none => s).refillDarn

/-- DARN_ACTION: darning is idle and takes the oldest request that can be taken now. -/
def execDarnAction (s : State) : Out :=
  if s.darn.isSome then .next s
  else match s.darnQueue.find? s.darnable with
    | none => .next s
    | some p => .next ({ s with darnQueue := s.darnQueue.erase p }.startDarn p)

/-- The cores that an action moves. -/
def DarnAction.moved (d : DarnAction) : List Lcn :=
  match d.segment with
  | none => []
  | some seg =>
    match d.kind with
    | 1 => (segmentCores seg).drop d.column
    | 2 => segmentCores seg
    | _ => []

/-- Nothing of the cut order under darning is in flight, and the row of a spare shift is empty. -/
def State.darnQuiet (s : State) (d : DarnAction) : Bool :=
  (match d.slot.bind fun n => findKey s.slots n with
    | some o => s.orderDrained o && o.allCores.all fun n =>
        let k := s.core (BitVec.ofNat 20 n)
        k.ringOps.isEmpty && k.loads.isEmpty && !(s.spool.any fun q => q.core.toNat == n && !q.live.isEmpty)
    | none => true) &&
  (d.kind != 1 || s.fab.pkts.all fun p =>
    !(p.injected && rowOf p.pos == d.at_.field / 8 * 128 + d.at_.panel * 16 + d.at_.row &&
      colOf p.pos / 128 == d.at_.field % 8))

/-- DARN_COPY_TIMEOUT: a position does not answer a copy read in time: its core's state is uncopyable. -/
def execDarnCopyTimeout (c : Lcn) (s : State) : Out :=
  match s.darn with
  | none => .next s
  | some d =>
    if d.recorded || !d.moved.contains c || d.lost.contains c.toNat || !s.darnQuiet d then .next s
    else .next ({ s with darn := some { d with lost := d.lost ++ [c.toNat] } }.put F.BRG_DARN_STAT_LOST 1)

/-- The cores whose state could not be copied start empty, their clocks on and every thread TRAPPED (16 R580). -/
def State.loseCopies (s : State) (lost : List Nat) : State :=
  let s := if lost.isEmpty then s else s.loseCores fun n => lost.contains n
  lost.foldl (fun s n =>
    let c : Lcn := BitVec.ofNat 20 n
    let s := (s.put F.CORE_CTL_CLK_EN 1 n).resetWindows [c]
    allThreads.foldl (fun s t =>
      (s.recordTrap c t { cause := 4, sub := 1, pc := 0 }).setThread c t { s.thread c t with st := .trapped }) s) s

/-- DARN_QUIESCED: the copy is done and the tables are written; the record is queued for the store. -/
def execDarnQuiesced (s : State) : Out :=
  match s.darn with
  | none => .next s
  | some d =>
    match d.segment with
    | none => .next s
    | some seg =>
      if d.recorded || !s.darnQuiet d then .next s
      else
        let s := s.loseCopies d.lost
        let s := (s.applyRepair d.at_ seg d.kind d.dest).queueSection sectRepair
        .next { s with darn := some { d with recorded := true } }

/-- The REPAIR section is durable as it stands. -/
def State.repairDurable (s : State) : Bool :=
  !s.isDirty sectRepair && !s.nvsQueue.contains sectRepair &&
    match s.nvsWrite with
    | some w => w.id != sectRepair
    | none => true

/-- What a cut order under darning held back goes on: its threads and its spool requests. -/
def State.releaseDarn (s : State) (d : DarnAction) : State :=
  let s := { s with darn := none }
  match d.slot with
  | none => s
  | some n => (s.spool.map (·.id)).foldl (fun s id => s.spoolIssue id 256) (s.resumeOrder n)

/-- A fenced core's threads are lost with what it held (16 R577, R580). -/
def State.loseFenced (s : State) (d : DarnAction) : State :=
  match d.kind, d.segment with
  | 3, some seg =>
    if d.column = 128 then s
    else
      let n := (posOf (seg / 8) (seg % 8 * 128 + d.column)).toNat
      let lost (k : Nat) : Bool := k == n
      let running := s.slots.filter fun e => e.2.st == 4 || e.2.st == 5
      ((running.foldl (fun s e => s.loseThreads e lost) s).failLostRings lost).wipeCores lost
  | _, _ => s

/-- A reset that waits for darning begins. -/
def State.wakeReset (s : State) : State :=
  match s.partialReset with
  | some r => if r.phase = 0 then s.beginReset r else s
  | none => s

/-- DARN_RESUME: the record is durable, and the row, the engines and the threads are released; the pause was `us` µs. -/
def execDarnResume (us : BitVec 32) (s : State) : Out :=
  match s.darn with
  | none => .next s
  | some d =>
    match d.segment with
    | none => .next s
    | some seg =>
      if !d.recorded || !s.repairDurable then .next s
      else
        let s := ((s.loseFenced d).releaseDarn d).put F.BRG_DARN_STAT_LAST_US us.toNat
        let s := { s with life := { s.life with darns := s.life.darns + 1 } }
        .next ((((s.darnEvent seg).unwatch d.at_).refillDarn).wakeReset)

/-- A field of an action has been lost: the segment's, or the one of the gusset row that it goes to. -/
def State.darnLost (s : State) (d : DarnAction) : Bool :=
  let gone (f : Nat) : Bool := !s.computeOn f || s.isHole f
  gone d.at_.field || match d.dest with
    | some r => gone (r.gfy * 8 + r.gfx)
    | none => false

/-- The logical core on a position of a hole field is fenced. -/
def State.fenceInHole (s : State) (d : DarnAction) : State :=
  match d.segment with
  | some seg =>
    if s.isHole d.at_.field && !s.isBad d.at_ then (s.applyRepair d.at_ seg 3 none).queueSection sectRepair else s
  | none => s

/-- DARN_ABANDON: a field of the action parks or becomes a hole: the action is abandoned, its moved cores meet core failure,
and its request returns to the queue (16 R582). -/
def execDarnAbandon (s : State) : Out :=
  match s.darn with
  | none => .next s
  | some d =>
    if !s.darnLost d then .next s
    else
      let s := s.addSat F.BRG_DARN_COUNT_ABANDONED F.BRG_DARN_COUNT_SAT 1
      let s := if d.recorded then s.loseCores fun n => d.moved.contains (BitVec.ofNat 20 n) else s
      let s := (s.fenceInHole d).releaseDarn d
      .next ({ s with darnQueue := s.darnQueue ++ [d.at_] }.wakeReset)

end Sys2Proof.Machine
end

