-- ==== Sys2Proof/Machine/Control.lean ====
section
/-!
DEFINITION. The control class 0x5 and the instruction-fetch trap: branches and their targets, end, trap, and which words
of the instruction store are illegal encodings (02 R68, R69; 03 R92 to R97, R109, R118, R119, R122, R141, R691;
04 R143, R176, R177; 15 R537).
-/

namespace Sys2Proof.Machine

/-! ### Branches (03 R118) -/

/-- The trap of a branch target: outside the instruction store, or misaligned. -/
def branchTrap (pc : Nat) (target : Word) : Option TrapInfo :=
  firstTrap [
    (decide (0x1FFC < target.toNat), { cause := 1, sub := 0, pc, addr := target.toNat }),
    (decide (target.toNat % 4 ≠ 0), { cause := 1, sub := 1, pc, addr := target.toNat })]

/-- A taken branch: its link and its target. -/
def State.branch (s : State) (x : Issue) (regs : List RegRef) (link : Option (Fin 32)) (target : Thread → Word) : State :=
  s.issue x 4 regs none fun th s =>
    match branchTrap th.pc (target th) with
    | some r => .trap r
    | none =>
      let th' := match link with
        | some rd => th.writeS rd (BitVec.ofNat 64 (th.pc + 4))
        | none => th
      .done (s.setThread x.core x.thread th') (target th).toNat

/-- The target of a PC-relative branch: the program counter plus four times the signed offset. -/
def relative (pc : Nat) {w : Nat} (off : BitVec w) : Word := BitVec.ofNat 64 pc + off.signExtend 64 * 4

/-- NOP. -/
def execNop (x : Issue) (s : State) : Out := .next (s.issue x 4 [] none fun th s => .done s (th.pc + 4))

/-- BR. -/
def execBr (x : Issue) (off : BitVec 17) (s : State) : Out :=
  .next (s.branch x [] none fun th => relative th.pc off)

/-- JAL. -/
def execJal (x : Issue) (rd : Fin 32) (off : BitVec 12) (s : State) : Out :=
  .next (s.branch x [.s rd] (some rd) fun th => relative th.pc off)

/-- JALR: the target is read before the link is written. -/
def execJalr (x : Issue) (rd rs1 : Fin 32) (s : State) : Out :=
  .next (s.branch x [.s rd, .s rs1] (some rd) fun th => th.readS rs1)

/-- END: the thread is STOPPED once it retires (03 R119). -/
def execEnd (x : Issue) (s : State) : Out :=
  .next (s.issue x 4 [] none fun th s =>
    .done (s.setThread x.core x.thread { th with st := .stopped }) (th.pc + 4))

/-- TRAP: the software trap with CODE (03 Table 3.13). -/
def execTrap (x : Issue) (code : BitVec 16) (s : State) : Out :=
  .next (s.issue x 4 [] none fun th _ => .trap { cause := 0xA, sub := 0, pc := th.pc, info := code.toNat })

/-! ### Legal words (03 R93 to R97; 04 Table 4.9) -/

/-- A word of a core's instruction store; an erased word, and one of the window that a switch writes, reads as all ones (02
R69, 10 R399). -/
def State.fetch (s : State) (c : Lcn) (pc : Nat) : Nat :=
  if s.windowShut c pc then 0xFFFFFFFF else readLE s.istore 0xFF (c.toNat * 0x2000 + pc) 4

/-- A number lies between two others. -/
def within (v lo hi : Nat) : Bool := decide (lo ≤ v) && decide (v ≤ hi)

/-- A scalar word, register or immediate form (03 Tables 3.3 and 3.4, R102, R103, R106). -/
def legalScalar (w : Nat) (imm long : Bool) : Bool :=
  let op := bits w 22 17
  let both := within op 0 8 || within op 0xA 0x12
  if imm then (both || (op == 0x16 && long)) && (!long || bits w 6 0 == 0)
  else
    !long && decide (bits w 1 0 ≤ 1) &&
      (both || (within op 0x13 0x14 && bits w 6 2 == 0) ||
        (op == 0x3F && bits w 6 0 == 0 && decide (bits w 11 7 ≤ 7)))

/-- A memory word (03 Table 3.7, R109). -/
def legalMemory (w : Nat) (long : Bool) : Bool :=
  let op := bits w 22 17
  (within op 0 6 || within op 8 0xB || within op 0x10 0x1F) && (!long || bits w 5 0 == 0) &&
    !((op == 0x17 || op == 0x1F) && bits w 12 12 == 1)

/-- An address word (03 Table 3.6). -/
def legalAddress (w : Nat) (long : Bool) : Bool :=
  let op := bits w 22 17
  let ad := bits w 16 13
  let as_ := bits w 12 9
  let sh := bits w 3 0
  match op with
  | 0 | 1 => !long
  | 2 | 5 => !long && as_ == 0 && sh == 0
  | 3 => !long && ad == 0 && sh == 0
  | 4 => !long || bits w 8 0 == 0
  | 6 => !long && sh == 0
  | _ => false

/-- A predicate word (03 R685, Table 3.17). -/
def legalPredicate (w : Nat) (long : Bool) : Bool :=
  let op := bits w 22 17
  if within op 0 5 then !long && bits w 3 0 == 0
  else if within op 8 0x11 then !long || bits w 8 0 == 0
  else if within op 0x20 0x24 then !long && bits w 7 0 == 0 && (op != 0x24 || bits w 10 8 == 0)
  else false

/-- A control word (03 Table 3.9). -/
def legalControl (w : Nat) : Bool :=
  match bits w 22 17 with
  | 0 | 4 => bits w 16 0 == 0
  | 1 | 2 => true
  | 3 => bits w 6 0 == 0
  | 5 => bits w 16 16 == 0
  | _ => false

/-- A message word (03 Table 3.10, R122). -/
def legalMessage (w : Nat) : Bool :=
  match bits w 22 17 with
  | 0 => bits w 0 0 == 0 && bits w 6 6 == 0
  | 1 => bits w 13 6 == 0 && bits w 1 0 == 0
  | 2 => bits w 16 6 == 0 && bits w 1 0 == 0
  | _ => false

/-- A tack word (03 Table 3.11). -/
def legalTack (w : Nat) : Bool :=
  let op := bits w 22 17
  bits w 1 1 == 0 && if op == 2 || op == 3 then true
    else within op 0 6 && bits w 6 2 == 0 && bits w 0 0 == 0

/-- A fabric word (03 Table 3.12). -/
def legalFabric (w : Nat) : Bool :=
  let op := bits w 22 17
  decide (op ≤ 2) && bits w 1 0 == 0 && (op != 2 || bits w 16 13 == 0)

/-- A tile word (04 Tables 4.9 and 4.10, R143). -/
def legalTile (w imm : Nat) (long : Bool) : Bool :=
  let op := bits w 22 17
  let compare := within op 0xF 0x11
  let unary := within op 0x14 0x1C
  if op ≤ 1 then !long || bits w 7 0 == 0
  else if within op 8 0x11 || within op 0x14 0x1E then
    !long && decide (bits w 7 4 ≤ 0xC) && bits w 1 0 == 0 && (compare || decide (bits w 3 2 ≤ 2)) &&
      (!unary || bits w 10 8 == 0)
  else if op == 0x20 then
    long && decide (bits w 10 7 ≤ 0xC) && decide (bits w 6 3 ≤ 0xC) && decide (bits w 2 1 ≤ 2) && bits w 0 0 == 0 &&
      bits imm 31 3 == 0
  else if within op 0x28 0x2A then !long && decide (bits w 3 0 ≤ 0xC)
  else false

/-- A tensor word (04 Tables 4.9 and 4.10, R143). -/
def legalTensor (w imm : Nat) (long : Bool) : Bool :=
  let op := bits w 22 17
  let fmtRm := decide (bits w 8 5 ≤ 0xC) && decide (bits w 4 3 ≤ 2)
  if op == 0 then fmtRm && bits w 0 0 == 0 && (!long || bits imm 15 4 == 0)
  else if within op 1 3 then !long && fmtRm && bits w 2 0 == 0 && (op != 3 || bits w 14 3 == 0)
  else false

/-- A first word with its immediate word is a legal encoding (03 R93, R94, R141). -/
def legalWord (w imm : Nat) : Bool :=
  let long := bits w 27 27 == 1
  match bits w 31 28 with
  | 0 => legalScalar w false long
  | 1 => legalScalar w true long
  | 2 => legalMemory w long
  | 3 => legalAddress w long
  | 4 => legalPredicate w long
  | 5 => !long && legalControl w
  | 6 => !long && legalMessage w
  | 7 => !long && legalTack w
  | 8 => !long && legalFabric w
  | 9 => legalTile w imm long
  | 10 => legalTensor w imm long
  | _ => false

/-- The parity of a word of a core's instruction store fails. -/
def State.parityBad (s : State) (c : Lcn) (pc : Nat) : Bool :=
  !s.windowShut c pc && s.istoreBad.contains ((c.toNat * 0x2000 + pc) / 4)

/-- The instruction-fetch trap that a thread's next word meets, and whether it is a parity failure (02 R68; 03 R96, R97;
15 R537). The 13-bit CORE_TRAPn.PC of a program counter that has run past the store shows its low bits, so 0 for 0x2000 (DESIGN
CHOICE, log entry 46). -/
def State.fetchTrap (s : State) (c : Lcn) (pc : Nat) : Option (TrapInfo × Bool) :=
  let w := s.fetch c pc
  let imm := s.fetch c (pc + 4)
  let long := bits w 27 27 == 1
  let info (v : Nat) : TrapInfo := { cause := 1, sub := 2, pc := pc % 8192, info := v, addr := pc }
  if 0x1FFC < pc then some ({ cause := 1, sub := 0, pc := pc % 8192, addr := pc }, false)
  else if s.parityBad c pc then some (info w, true)
  else if !legalWord w (if pc = 0x1FFC then 0 else imm) then some (info w, false)
  else if long && pc == 0x1FFC then some ({ cause := 1, sub := 0, pc, addr := pc }, false)
  else if long && s.parityBad c (pc + 4) then some (info imm, true)
  else none

/-- INSTRUCTION_FETCH_TRAP: the word at a thread's program counter issues as an instruction-fetch trap; a legal word is
left to its own command (log entry 3). -/
def execInstructionFetchTrap (c : Lcn) (t : Fin 4) (s : State) : Out :=
  let th := s.thread c t
  if !((th.st == .running || th.st == .stalled) && s.clocked c && s.backed c) then .next s
  else match s.fetchTrap c th.pc with
    | none => .next s
    | some (r, parity) =>
      let s := if parity then (s.addSat F.INT_CSUMSTAT_PARITY F.INT_CSUMSTAT_SAT 1 c.toNat).countFailure c 9 0 else s
      .next (s.trap c t r)

end Sys2Proof.Machine
end

