-- ==== Sys2Proof/Machine/Deadlock.lean ====
section
/-!
DEFINITION. The deadlock detector of a panel: the queues of its groups, their blocked states, the snapshot and the event
(09 R377 to R382; 10 R406, R407).
-/

namespace Sys2Proof.Machine

/-- A queue of a group: its core, its number, the blocked state that holds, none where it is not blocked, and its entries
(09 Table 9.17). -/
structure WatchedQueue where
  core : Lcn
  qid : Nat
  state : Option Nat
  occ : Nat
deriving DecidableEq, Repr

/-- The cores of a cut order on a panel, in ascending order. -/
def State.groupCores (s : State) (panel : Nat) (o : CutOrder) : List Lcn :=
  (List.range 2048).filterMap fun i =>
    let c : Lcn := posOf (panel / 8 / 8 * 128 + panel % 8 * 16 + i / 128) (panel / 8 % 8 * 128 + i % 128)
    if o.allCores.contains c.toNat && s.backed c then some c else none

/-! ### Bobbins -/

/-- The bobbins that the interface of a core knows, in ascending order: descriptors that a message or an mpoll has named, enabled
and well formed (log entry 28). -/
def State.knownBobbins (s : State) (c : Lcn) : List Nat :=
  ((s.core c).bobbins.map (·.1)).filter fun k => (s.bobbin c (32 * k)).enable && (s.bobbin c (32 * k)).formed

/-- A message for a bobbin waits in a landing slot, or at the local port (09 Table 9.6). -/
def State.messageWaits (s : State) (c : Lcn) (off : Nat) : Bool :=
  !(s.heldFor c off).isEmpty || s.fab.pkts.any fun p =>
    p.typ == .msg && p.injected && p.pos == p.rt && p.dst == c && p.arg % 65536 == off && !s.accepts c p

/-- A bobbin as the detector sees it. -/
def State.bobbinQueue (s : State) (c : Lcn) (k : Nat) : WatchedQueue :=
  let b := s.bobbin c (32 * k)
  { core := c, qid := k, occ := b.ready
    state :=
      if s.messageWaits c (32 * k) then some 0
      else if 0 < b.ready then some 1
      else if (findKey (s.core c).bobbins k) = some true then some 2 else none }

/-! ### Pattern ends -/

/-- A thread of a core waits on a tack. -/
def State.waitsOn (s : State) (c : Lcn) (tack : Nat) : Bool :=
  allThreads.any fun t => (s.thread c t).st == .waiting &&
    match (s.thread c t).wait with
    | some w => w.tack.val == tack
    | none => false

/-- A steering unit of a core waits for an entry of an in end (10 R393, step 1). -/
def State.unitStarves (s : State) (c : Lcn) (e : Nat) : Bool :=
  (List.range 2).any fun n =>
    s.flag F.CORE_STEERu_A_VALID c.toNat n && !(mget {} (s.core c).steer n : SteerUnit).halted && s.endCount c e == 0 &&
      (s.get F.CORE_STEERu_A_CTL c.toNat n == e || s.get F.CORE_STEERu_A_DATA c.toNat n == e)

/-- An end of the active pattern as the detector sees it (10 Table 10.8). -/
def State.endQueue (s : State) (c : Lcn) (e : Nat) : WatchedQueue :=
  let u := c.toNat
  let occ := s.endCount c e
  { core := c, qid := s.get F.CORE_QENDe_A_QNUM u e, occ
    state :=
      if s.flag F.CORE_QENDe_A_ROLE u e then
        (if s.waitsOn c (s.get F.CORE_QENDe_A_CTACK u e) then some 0 else none)
      else if s.waitsOn c (s.get F.CORE_QENDe_A_FTACK u e) || s.unitStarves c e then
        (if occ = 0 then some 2 else none)
      else if occ = 0 then none else some 1 }

/-! ### The group, the snapshot and the event -/

/-- Insertion in ascending order of core and then of queue number. -/
def insertQueue (q : WatchedQueue) : List WatchedQueue → List WatchedQueue
  | [] => [q]
  | d :: l =>
    if q.core.toNat < d.core.toNat ∨ (q.core = d.core ∧ q.qid ≤ d.qid) then q :: d :: l else d :: insertQueue q l

/-- The queues of a group of a panel, in ascending order of core and then of number: the bobbins of a cut order, or the valid
ends of its active patterns (09 R378, 10 R407). -/
def State.groupQueues (s : State) (panel : Nat) (bobbins : Bool) (o : CutOrder) : List WatchedQueue :=
  ((s.groupCores panel o).flatMap fun c =>
    if bobbins then (s.knownBobbins c).map fun k => s.bobbinQueue c k
    else if s.flag F.CORE_PAT_STAT_ACT c.toNat then
      ((List.range 8).filter fun e => s.flag F.CORE_QENDe_A_VALID c.toNat e).map fun e => s.endQueue c e
    else []).foldl (fun l q => insertQueue q l) []

/-- A snapshot entry written (09 Table 9.17). -/
def State.putSnap (s : State) (panel n : Nat) (q : WatchedQueue) (kind : Nat) : State :=
  ((((((s.put F.FAB_DL_SNAPn_LCN q.core.toNat panel n).put F.FAB_DL_SNAPn_KIND kind panel n).put F.FAB_DL_SNAPn_QID q.qid
    panel n).put F.FAB_DL_SNAPn_STATE (q.state.getD 0) panel n).put F.FAB_DL_SNAPn_OCC (min q.occ 1023) panel n).put
    F.FAB_DL_SNAPn_VALID 1 panel n)

/-- Every snapshot entry's VALID bit cleared, and with them their count (09 Table 9.16). -/
def State.clearSnap (s : State) (panel : Nat) : State :=
  ((List.range 64).foldl (fun s n => s.put F.FAB_DL_SNAPn_VALID 0 panel n) s).put F.FAB_DL_STAT_ENTRIES 0 panel

/-- The snapshot of a group written, with its event (09 R379). -/
def State.reportDeadlock (s : State) (panel : Nat) (bobbins : Bool) (o : CutOrder) (id : Nat) (l : List WatchedQueue) :
    State :=
  let s := (l.take 64).zipIdx.foldl (fun s e => s.putSnap panel e.2 e.1 (bit bobbins)) (s.clearSnap panel)
  let s := (((s.put F.FAB_DL_STAT_EVENT 1 panel).put F.FAB_DL_STAT_KIND (bit bobbins) panel).put F.FAB_DL_STAT_ENTRIES
    (min l.length 64) panel).put F.FAB_DL_STAT_OVERFLOW (bit (decide (64 < l.length))) panel
  (s.put F.FAB_DL_STAT_GROUP_ID id panel).raise 3 o.ld id panel 0

/-- DEADLOCK_DETECT: the window of a panel's detector ends; it raises the event where every queue of a group is blocked and was
in every cc of the window. `bobbins` tells a bobbin group from a pattern, `slot` is the slot of the cut order, and `moved` tells
that some queue of the group was not blocked in some cc of the window. Nothing is raised
while the detector is off, the retry indication is raised or a darning action holds the cut order; while EVENT is 1 the detection
only counts (09 R377 to R380; 16 R580). -/
def execDeadlockDetect (panel : Fin 512) (bobbins : Bool) (slot : Fin 64) (moved : Bool) (s : State) : Out :=
  let u := panel.val
  if moved || !s.flag F.FAB_DL_WINDOW_EN u || s.retryIndication ||
      (match s.darn with | some d => d.slot == some slot.val | none => false) then .next s
  else match findKey s.slots slot.val with
    | none => .next s
    | some o =>
      let l := s.groupQueues u bobbins o
      if l.isEmpty || l.any fun q => q.state.isNone then .next s
      else
        let s := s.addWrap F.FAB_DL_STAT_EVENTS 1 u
        if s.flag F.FAB_DL_STAT_EVENT u then .next s
        else .next (s.reportDeadlock u bobbins o (slot.val + o.gen * 64) l)

/-- The snapshot released (09 R380). -/
def State.releaseSnapshot (s : State) (panel : Nat) : State :=
  if s.flag F.FAB_DL_STAT_EVENT panel then (s.put F.FAB_DL_STAT_EVENT 0 panel).clearSnap panel else s

/-- DL_SNAPSHOT_RELEASE: a write of 1 to FAB_DL_STAT.EVENT. -/
def execDlSnapshotRelease (panel : Fin 512) (s : State) : Out :=
  .next (s.ifClocked .FAB_DL_STAT panel.val 0 fun s => s.releaseSnapshot panel.val)

end Sys2Proof.Machine
end

