-- ==== Sys2Proof/Machine/Reset.lean ====
section
/-!
DEFINITION. The reset controller: sources and reach, assertion and release, block software resets, and the reset states of
the pins (17 R584 to R596; 20 R651, R652).
-/

namespace Sys2Proof.Machine

/-- A field number belongs to a register of a block. -/
def Block.holds (b : Block) (id : Nat) : Bool := b.regs.any fun r => r.fields.any fun f => f.id == id

/-- The registers of a block at their reset values, but for those of a predicate on field numbers. -/
def State.resetBlock (s : State) (b : Block) (keep : Nat → Bool) : State :=
  s.resetKeys fun k => !keep (k / 2 ^ 32) && b.holds (k / 2 ^ 32)

/-! ### Sources (17 Table 17.1, R590, R591) -/

/-- The reach of a source, by its code. -/
def reachOf (code : Nat) : Reach :=
  match code with
  | 2 | 7 => ⟨false, false, true, true⟩
  | 5 => ⟨false, true, false, false⟩
  | 8 => ⟨false, false, false, true⟩
  | _ => ⟨true, true, true, true⟩

/-- The step that a source's release starts from. -/
def startOf (code : Nat) : Nat :=
  match code with
  | 2 | 7 => 5
  | 8 => 7
  | _ => 1

def Reach.union (a b : Reach) : Reach := ⟨a.mgmt || b.mgmt, a.i3c || b.i3c, a.host || b.host, a.fields || b.fields⟩

/-- What the I3C target loses in its reset: its dynamic address, its enables and what it holds (17 Table 17.1, 21 R677). -/
def State.resetI3c (s : State) : State :=
  { ((s.put F.MGT_STAT_DA_VALID 0).put F.MGT_STAT_DA 0).put F.MGT_STAT_IBI_EN 0 with
    mgt := { s.mgt with rstact := none, ibis := [], response := none } }

/-- RST_CAUSE of a new cause. -/
def State.noteCause (s : State) (code detail : Nat) (delayed merged : Bool) : State :=
  (((s.put F.RST_CAUSE_CODE code).put F.RST_CAUSE_DELAYED (bit delayed)).put F.RST_CAUSE_MERGED (bit merged)).put
    F.RST_CAUSE_DETAIL detail

/-- The treadle count that RST_CAUSE records: zero after POWER_ON and while the treadle does not count. -/
def State.causeTime (s : State) : Nat :=
  if s.get F.RST_CAUSE_CODE = 1 ∨ s.flag F.BRG_READY_TREADLE = false then 0 else s.now

/-- The run of a reset that a source starts, or that it joins: assertion goes on from the step reached, or from A4 where the
wider reach takes in a domain whose step is past, and starts anew once release has begun. -/
def State.joinRun (s : State) (code : Nat) (held : Bool) : ResetRun :=
  let reach := reachOf code
  let sources := if held then [code] else []
  match s.resetRun with
  | none =>
    { reach, assertStep := some 1, start := startOf code, release := startOf code, sources,
      delayed := reach.mgmt && s.writing }
  | some r =>
    let wide := r.reach.union reach
    let start := min r.start (startOf code)
    { r with
      reach := wide
      assertStep := match r.assertStep with
        | some k => if wide = r.reach then some k else some (min k 4)
        | none => some 1
      start, release := start, group := 0
      sources := r.sources ++ sources.filter fun c => !r.sources.contains c
      delayed := r.delayed || (reach.mgmt && s.writing) }

/-- A source asserts: `held` tells that it stays asserted until it is withdrawn; `merged` that another asserted with it. -/
def State.assertSource (s : State) (code detail : Nat) (held merged : Bool) : State :=
  let s := if code = 1 then (s.put F.RST_STAT_RESETS 0).put F.RST_STAT_NVS_WAIT_US 0
    else s.addWrap F.RST_STAT_RESETS 1
  let merged := merged || s.resetRun.isSome
  if code = 5 then
    let s := s.noteCause 5 detail false merged
    (s.put F.RST_CAUSE_TR s.causeTime).resetI3c
  else
    let run := s.joinRun code held
    let s := if run.reach.mgmt then s else { s with life := { s.life with resets := s.life.resets + 1 } }
    { (s.noteCause code detail run.delayed merged).put F.RST_STAT_STEP 0 with resetRun := some run }

/-- POWER_ON: the management rail crosses its threshold, rising, or falling until it recovers. What a power-on clears of the
history of trips goes with it (19 R643). -/
def execPowerOn (falling : Bool) (s : State) : Out :=
  .next ((s.resetKeys fun k => k / 2 ^ 32 == F.PWR_FLDf_STAT_TRIPS.id || k / 2 ^ 32 == F.PWR_FLDf_STAT_LOCKED.id).assertSource
    1 0 falling false)

/-- SUPPLY: the 54 V input leaves its range. -/
def execSupply (s : State) : Out := .next (s.assertSource 2 0 true false)

/-- PIN_RESET: RESET_N is low for at least 1 µs. -/
def execPinReset (s : State) : Out := .next (s.assertSource 3 0 true false)

/-- I3C_TARGET_RESET: the target reset pattern after RSTACT with 0x02. -/
def execI3cTargetReset (s : State) : Out :=
  .next (if s.mgt.rstact = some 2 then s.assertSource 4 2 false false else s)

/-- I3C_PERIPH_RESET: the target reset pattern after RSTACT with 0x01. -/
def execI3cPeriphReset (s : State) : Out :=
  .next (if s.mgt.rstact = some 1 then s.assertSource 5 1 false false else s)

/-- WATCHDOG: the firmware leaves its watchdog unserviced. -/
def execWatchdog (s : State) : Out :=
  .next (if s.flag F.THM_STAT_VERIFIED then s.assertSource 6 0 false false else s)

/-- The key of RST_CTL. -/
def resetKey : Nat := 0xA5C3

/-- A write of RST_CTL: with MODULE and FABRIC together, one reset of both; with SW_RST, nothing else
(17 R590, R596; 00 R688). -/
def State.writeRstCtl (s : State) (v : Nat) : State :=
  let module := v.testBit 0
  let fabric := v.testBit 1
  if v.testBit 2 then (s.put F.RST_STAT_KEYERR 0).put F.RST_STAT_RESETS 0
  else if (module || fabric) && F.RST_CTL_KEY.slice 0 v != resetKey then s.put F.RST_STAT_KEYERR 1
  else
    if module then s.assertSource 7 0 false fabric
    else if fabric then s.assertSource 8 0 false false
    else s

/-- HOST_MODULE. -/
def execHostModule (key : BitVec 16) (s : State) : Out := .next (s.writeRstCtl (1 + key.toNat * 2 ^ 16))

/-- HOST_FABRIC. -/
def execHostFabric (key : BitVec 16) (s : State) : Out := .next (s.writeRstCtl (2 + key.toNat * 2 ^ 16))

/-- RST_SW_RST. -/
def execRstSwRst (s : State) : Out := .next (s.writeRstCtl 4)

/-- RESET_SOURCE_WITHDRAWN: a source is no longer asserted. -/
def execResetSourceWithdrawn (code : Fin 9) (s : State) : Out :=
  match s.resetRun with
  | none => .next s
  | some r => .next { s with resetRun := some { r with sources := r.sources.filter fun c => c != code.val } }

/-! ### Write pulses (17 R591, R592) -/

/-- The registers that a software reset of the store's block returns to their reset values: its counters. -/
def State.resetStoreBlock (s : State) : State :=
  { s.resetBlock .nvs (fun id => !(id == F.NVS_STAT_EQSEQ.id || id == F.NVS_STAT_WRITES.id)) with nvsResetWaits := false }.put
    F.RST_BLOCK_NVS 0

/-- WRITE_PULSE_END: the write pulse in progress ends after `us` µs of waiting; `header` tells that it programmed the header
page, so that the new copy is valid. A delayed reset starts, and the write is cut. -/
def execWritePulseEnd (us : BitVec 8) (header : Bool) (s : State) : Out :=
  let s := if s.nvsResetWaits then s.resetStoreBlock else s
  match s.resetRun with
  | none => .next s
  | some r =>
    if !r.delayed then .next s
    else
      let s := match header, s.nvsWrite with
        | true, some w =>
          let x := s.sect w.id
          let next := match x.winner with
            | some (_, i, _) => (i + 1) % 2 ^ 32
            | none => 1
          s.setSect w.id (x.setLoser (.valid next w.content))
        | _, _ => s
      let s := s.put F.RST_STAT_NVS_WAIT_US (max (s.get F.RST_STAT_NVS_WAIT_US) us.toNat)
      .next { s.cutWrite with resetRun := some { r with delayed := false } }

/-! ### Assertion (17 Table 17.2, R585 to R587) -/

/-- Every cut order in service ends in ABORTED and every ring fails. -/
def State.abortAll (s : State) : State :=
  let s := s.slots.foldl (fun s e => if e.2.inService then s.endOrder e.1 e.2 8 else s) s.failRings
  { s with rings := [], migration := none, tests := [], trapWindows := [], partialReset := none, waitingResets := [] }

/-- A1: every compute domain is off. A darning action ends with its request back in the queue. -/
def State.allComputeOff (s : State) : State :=
  let s := s.abortAll.wipeCores fun _ => true
  let s := (List.range 64).foldl (fun s f => (s.put F.CLK_FLDf_CTL_CMP_EN 0 f).setDomain f false) s
  let s : State := { s with spool := [], spoolWin := [] }
  let s := (s.put F.BRG_FLD_COMPUTE_MAP 0).put F.MRK_MIG_STAT_BUSY 0
  match s.darn with
  | some d => { s with darn := none, darnQueue := s.darnQueue ++ [d.at_] }
  | none => s

/-- A2: every transit domain is off, seam links are in OFF, and field and panel blocks are at their reset values; a field that
SHUT had switched off may come up again (19 R644). -/
def State.allTransitOff (s : State) : State :=
  let s := (List.range 64).foldl (fun s f => (s.transitOff f).parkReason f 5 false) s
  let s := (s.resetBlock .fld fun _ => false).resetBlock .pnl fun _ => false
  { s.updateDistances with
    fab := { s.fab with pkts := [], links := [], excess := [] }
    discovered := []
    cueDue := [] }

/-- A3: the optics groups are off and every port is in OFF. -/
def State.allOpticsOff (s : State) : State :=
  let s := (List.range 8).foldl (fun s g => s.setDomain (128 + g) false) s
  { s.resetKeys (fun k => isPortField (k / 2 ^ 32) || k / 2 ^ 32 == F.CLK_PORTEN_PORTS.id || k / 2 ^ 32 == F.SEL_MAP_MODE.id) with
    ports := [] }

/-- A4, first part: host-attach domain 1 is off: the link is down, its logical devices are at their reset values, and every
key and session is gone (20 R658). -/
def State.hostLogicOff (s : State) : State :=
  let s := (s.hostLinkDown.resetBlock .cxl fun _ => false).setDomain 137 false
  { s.put F.CLK_BLKEN_CXL 0 with spdm := [], ideKeys := [], msixPending := [] }

/-- A4, second part: host-attach domain 0 is off. -/
def State.hostOpticsOff (s : State) : State := { s.setDomain 136 false with fibres := {} }

/-- Fields that a reset of the management domain keeps: the cause and the pin fuse copy, what counts from power-on, straps and
fuses (17 R585, R596, R598). -/
def keptFields : List Fld :=
  [F.RST_CAUSE_CODE, F.RST_CAUSE_DELAYED, F.RST_CAUSE_MERGED, F.RST_CAUSE_DETAIL, F.RST_CAUSE_TR,
   F.RST_PINFUSE_RESET_N, F.RST_PINFUSE_TREADLE, F.RST_PINFUSE_CLKOBS, F.RST_PINFUSE_FAULT_N, F.RST_PINFUSE_MOD_RDY,
   F.RST_STAT_NVS_WAIT_US, F.RST_STAT_RESETS, F.PWR_FLDf_STAT_TRIPS, F.PWR_FLDf_STAT_LOCKED, F.SEL_STAT_FUSED,
   F.CLK_STAT_OSC_DLY, F.THM_MINVER_MIN, F.MGT_PID_PID]

/-- A5: the management domain is held in reset. The store, the fuses and what the module has already sent stay. -/
def State.managementHeld (s : State) : State :=
  let cut := s.cutWrite
  { State.reset with
    pending := s.pending
    freeCtr := s.freeCtr
    regs := s.regs.filter fun e => keptFields.any fun f => f.id == e.1 / 2 ^ 32
    fuseMap := s.fuseMap
    fusedPorts := s.fusedPorts
    store := cut.store
    firmware := s.firmware
    fwRuns := s.fwRuns
    hostOut := s.hostOut
    messages := s.messages
    answers := s.answers
    resetRun := s.resetRun }

/-- The action of an assertion step, on the domains in reach: 1 to 3 for A1 to A3, 4 and 5 for the parts of A4, 6 for A5. -/
def State.assertAction (s : State) (r : Reach) (k : Nat) : State :=
  match k with
  | 1 => if r.fields then s.allComputeOff else s
  | 2 => if r.fields then s.allTransitOff else s
  | 3 => if r.fields then s.allOpticsOff else s
  | 4 => if r.host then s.hostLogicOff else s
  | 5 => if r.host then s.hostOpticsOff else s
  | _ => if r.mgmt then s.managementHeld else s

/-- RESET_ASSERT_STEP. -/
def execResetAssertStep (s : State) : Out :=
  match s.resetRun with
  | none => .next s
  | some r =>
    match r.assertStep with
    | none => .next s
    | some k =>
      if r.delayed then .next s
      else
        let s := if k = 1 then s.put F.RST_CAUSE_TR s.causeTime else s
        let s := s.assertAction r.reach k
        .next { s with resetRun := some { r with assertStep := if k < 6 then some (k + 1) else none } }

/-! ### Release (17 Table 17.3, R588, R589) -/

/-- The optics group of a port (13 R458). -/
def opticsGroup (p : Nat) : Nat := 2 * (p / 8) + p % 8 / 4

/-- Step 1: the management domain is out of reset, with the enables of its blocks; the rack's cap is lost with it (18 R610,
21 R681). -/
def State.managementUp (s : State) : State :=
  let s := [F.CLK_BLKEN_WAF, F.CLK_BLKEN_PWR, F.CLK_BLKEN_TRD, F.CLK_BLKEN_INT, F.CLK_BLKEN_NVS, F.CLK_BLKEN_THM,
    F.CLK_BLKEN_MRK, F.CLK_BLKEN_BRG].foldl (fun s f => s.put f 1) s
  (s.put F.BRG_READY_MGMT 1).put F.MGT_STAT_CAP_LOST 1

/-- Step 2: the store is loaded, and with it the watch list and the marks of ports that are fused off; without an IDENT section the fused copy of the provisioned ID
serves (20 R665). -/
def State.storeUp (s : State) : State :=
  let s := s.loadStore
  let s := { s with life := { s.life with resets := s.life.resets + 1 } }
  let s := s.put F.MGT_STAT_PID_FUSED (bit (s.sect 6).winner.isNone)
  let s := s.fusedPorts.foldl (fun s p => s.put F.SEL_STAT_FUSED 1 p) s
  if s.flag F.NVS_STAT_LOSS then s else s.put F.BRG_READY_INT 1

/-- Updates have written `n` bytes of a firmware slot from an offset. -/
def State.slotWritten (s : State) (slot off n : Nat) : Bool :=
  (List.range n).all fun i =>
    s.fwRuns.any fun r => decide (r.1 ≤ slot * 2 ^ 22 + off + i) && decide (slot * 2 ^ 22 + off + i < r.1 + r.2)

/-- Bytes of a firmware slot. -/
def State.slotBytes (s : State) (slot off n : Nat) : List Byte :=
  (List.range n).map fun i => BitVec.ofNat 8 (readLE s.firmware 0 (slot * 2 ^ 22 + off + i) 1)

/-- A number of the image header (20 Table 20.2). -/
def State.slotField (s : State) (slot off n : Nat) : Nat := ofBytes (s.slotBytes slot off n)

/-- MAGIC, LEN and the zero fields of an image header are right: check 1. -/
def State.headerOk (s : State) (slot : Nat) : Bool :=
  let len := s.slotField slot 8 4
  s.slotField slot 0 4 == 0x4B4E4754 && decide (1 ≤ len) && decide (len ≤ 4193792) && s.slotField slot 12 4 == 0 &&
    s.slotField slot 0xB0 336 == 0

/-- PUBKEY is the key fused at the factory, check 2, and SIG verifies under it, check 3. -/
def State.keyOk (s : State) (slot : Nat) : Bool := sm3 (s.slotBytes slot 0x30 64) == Config.keyDigest
def State.signatureOk (s : State) (slot : Nat) : Bool :=
  Config.sm2Verify (s.slotBytes slot 0x30 64) (s.slotBytes slot 0x70 64) (s.slotBytes slot 0 0x70)

/-- The digest of the body is DIGEST: check 4. -/
def State.bodyOk (s : State) (slot : Nat) : Bool :=
  (sm3 (s.slotBytes slot 512 (s.slotField slot 8 4))).toNat == ofBigBytes (s.slotBytes slot 0x10 32)

/-- What the boot ROM finds in a slot: by the bytes of its header and its body where updates have written them, and for bytes
that came from the factory by `k` (20 R650, R651). -/
def State.slotFound (s : State) (slot : Nat) (k : SlotCheck) : SlotCheck :=
  if !s.slotWritten slot 0 512 then k
  else
    { version := BitVec.ofNat 32 (s.slotField slot 4 4)
      failed :=
        if !s.headerOk slot then some 0
        else if !s.keyOk slot then some 1
        else if !s.signatureOk slot then some 2
        else if (if s.slotWritten slot 512 (s.slotField slot 8 4) then s.bodyOk slot else k.failed.isNone) then none
        else some 3 }

/-- The first check of 20 R651 that a slot fails: those before the version, and the version itself. -/
def State.slotError (s : State) (slot : Nat) (k : SlotCheck) : Option Nat :=
  let k := s.slotFound slot k
  match k.failed with
  | some n => some (n.val + 1)
  | none => if k.version.toNat < s.get F.THM_MINVER_MIN then some 5 else none

/-- Step 3: Thimble checks the slot of the higher version first and runs it, or the other; with neither, release stops
(20 R652, 17 R589). -/
def State.verifyFirmware (s : State) (k0 k1 : SlotCheck) : State :=
  let ok0 := (s.slotError 0 k0).isNone
  let ok1 := (s.slotError 1 k1).isNone
  let k0 := s.slotFound 0 k0
  let k1 := s.slotFound 1 k1
  let s := (s.put F.THM_FWSLOTn_VALID (bit ok0) 0 0).put F.THM_FWSLOTn_VALID (bit ok1) 0 1
  let s := (s.put F.THM_FWSLOTn_VERSION k0.version.toNat 0 0).put F.THM_FWSLOTn_VERSION k1.version.toNat 0 1
  let first := if k0.version.toNat < k1.version.toNat then 1 else 0
  let ok (n : Nat) : Bool := if n = 0 then ok0 else ok1
  let run := if ok first then some first else if ok (1 - first) then some (1 - first) else none
  match run with
  | none => s.put F.RST_STAT_THIMBLE_FAIL 1
  | some n =>
    let s := ((s.put F.THM_FWSLOTn_RUNNING 1 0 n).put F.THM_STAT_VERIFIED 1).put F.THM_STAT_SLOT n
    let s := (s.put F.THM_STAT_FALLBACK (bit (n != first))).put F.THM_STAT_ALIAS 1
    (s.put F.THM_STAT_VERSION (if n = 0 then k0.version.toNat else k1.version.toNat)).put F.BRG_READY_THIMBLE 1

/-- Step 7, one group: its ports are in OFF with their blocks clocked. -/
def State.opticsUp (s : State) (g : Nat) : State :=
  let s := s.setDomain (128 + g) true
  ((List.range 32).filter fun p => opticsGroup p == g).foldl (fun s p => s.putBit F.CLK_PORTEN_PORTS p true) s

/-- The action of a release step. -/
def State.releaseAction (s : State) (r : ResetRun) (k0 k1 : SlotCheck) : State :=
  match r.release with
  | 1 => s.managementUp
  | 2 => s.storeUp
  | 3 => s.verifyFirmware k0 k1
  | 4 => s
  | 5 => s.setDomain 136 true
  | 6 => ((s.setDomain 137 true).put F.CLK_BLKEN_CXL 1).put F.CXL_LINKSTAT_STATE 1
  | _ => s.opticsUp r.group

/-- A release step may be taken: assertion is over, every source is withdrawn, step 3 has the store, and step 5 the firmware
where release has passed step 3. -/
def State.mayRelease (s : State) (r : ResetRun) : Bool :=
  r.assertStep.isNone && r.sources.isEmpty && !(r.release == 3 && !s.flag F.BRG_READY_NVS) &&
    !(r.release == 5 && s.flag F.RST_STAT_THIMBLE_FAIL)

/-- RESET_RELEASE_STEP: the next step of release, with what step 3 finds in the firmware slots; an IBI tells of a stop
(21 R678). -/
def execResetReleaseStep (k0 k1 : SlotCheck) (s : State) : Out :=
  match s.resetRun with
  | none => .next s
  | some r =>
    if !s.mayRelease r then .next s
    else
      let s := (s.put F.RST_STAT_STEP r.release).releaseAction r k0 k1
      let s := if r.release = 3 ∧ s.flag F.RST_STAT_THIMBLE_FAIL = true then s.pendIbi 4 else s
      if r.release < 7 then .next { s with resetRun := some { r with release := r.release + 1 } }
      else if r.group < 7 then .next { s with resetRun := some { r with group := r.group + 1 } }
      else .next { s.put F.RST_STAT_STEP 15 with resetRun := none }

/-! ### Block software resets (17 R593, R594) -/

/-- A block's software reset has an effect: no reset of the module reaches the management domain. -/
def State.mayResetBlock (s : State) : Bool :=
  match s.resetRun with
  | some r => !r.reach.mgmt
  | none => true

/-- The MGT_ fields that a software reset keeps (21 R684). -/
def keepsMgt (id : Nat) : Bool :=
  id == F.MGT_STAT_DA_VALID.id || id == F.MGT_STAT_DA.id || id == F.MGT_PID_PID.id || id == F.MGT_PID_BCR.id ||
    id == F.MGT_PID_DCR.id

/-- The WAF_ block's registers at their reset values, those of the management interface among them. -/
def State.resetWaf (s : State) : State := s.resetBlock .waf keepsMgt

/-- The CLK_ fields that a software reset keeps: every field's source, setting and enables, the block enables, the straps and
the state of the reference (18 R623, 17 R593). -/
def keepsClk (id : Nat) : Bool :=
  [F.CLK_STAT_REFOK, F.CLK_STAT_OSC_DLY, F.CLK_BLKEN_WAF, F.CLK_BLKEN_PWR, F.CLK_BLKEN_TRD, F.CLK_BLKEN_INT,
   F.CLK_BLKEN_NVS, F.CLK_BLKEN_THM, F.CLK_BLKEN_MRK, F.CLK_BLKEN_BRG, F.CLK_BLKEN_CXL, F.CLK_PORTEN_PORTS,
   F.CLK_FLDf_CTL_SRC, F.CLK_FLDf_CTL_MODE, F.CLK_FLDf_CTL_TRN_EN, F.CLK_FLDf_CTL_CMP_EN, F.CLK_FLDf_CTL_BLK_EN,
   F.CLK_FLDf_STITCH_TARGET, F.CLK_FLDf_STAT_ACTIVE, F.CLK_FLDf_STAT_CUR, F.CLK_FLDf_STAT_PLLA_RDY,
   F.CLK_FLDf_STAT_PLLB_RDY].any fun f => f.id == id

def State.resetClk (s : State) : State := s.resetBlock .clk keepsClk

/-- The TRD_ block but its count (18 R623). -/
def State.resetTrd (s : State) : State := s.resetBlock .trd fun id => id == F.TRD_COUNT_COUNT.id

/-- The BRG_ fields that a software reset keeps: the functions as they are, and the counts that the store keeps. -/
def keepsBrg (id : Nat) : Bool :=
  (decide (F.BRG_READY_MGMT.id ≤ id) && decide (id ≤ F.BRG_PORTS_MAP.id)) ||
    repairCounts.any fun f => f.id == id

def State.resetBrg (s : State) : State := s.resetBlock .brg keepsBrg

/-- The PWR_ fields that a software reset keeps: trips and locks, and the domains as they are (19 R647). -/
def keepsPwr (id : Nat) : Bool :=
  id == F.PWR_FLDf_STAT_TRIPS.id || id == F.PWR_FLDf_STAT_LOCKED.id || id == F.PWR_DOMSTATn_ON.id

/-- The reset of the PWR_ block: the rack's cap returns to 40,000 W and is lost (19 R647, 21 R681). -/
def State.resetPwr (s : State) : State :=
  ({ s.resetBlock .pwr keepsPwr with power := { s.power with offset := 0 } }.put F.MGT_STAT_CAP_LOST 1).pendIbi 3

/-- A write of 1 to a bit of RST_BLOCK: done within the step. -/
def State.resetByBlock (s : State) (f : State → State) : Out := .next (if s.mayResetBlock then f s else s)

def execRstBlockWaf (s : State) : Out := s.resetByBlock State.resetWaf
def execRstBlockClk (s : State) : Out := s.resetByBlock State.resetClk
def execRstBlockPwr (s : State) : Out := s.resetByBlock State.resetPwr
def execRstBlockTrd (s : State) : Out := s.resetByBlock State.resetTrd
def execRstBlockInt (s : State) : Out := s.resetByBlock State.resetIntegrity
def execRstBlockMrk (s : State) : Out := s.resetByBlock State.resetMarker
def execRstBlockBrg (s : State) : Out := s.resetByBlock State.resetBrg

/-- A reset of the store's block: delayed by a write pulse, when its bit of RST_BLOCK reads 1 until it is done. -/
def State.resetNvs (s : State) : State :=
  if s.writing then { s.put F.RST_BLOCK_NVS 1 with nvsResetWaits := true } else s.resetStoreBlock

def execRstBlockNvs (s : State) : Out := s.resetByBlock State.resetNvs

/-- A write of RST_BLOCK. -/
def State.writeRstBlock (s : State) (v : Nat) : State :=
  if !s.mayResetBlock then s
  else
    ([State.resetWaf, State.resetClk, State.resetPwr, State.resetTrd, State.resetIntegrity, State.resetNvs,
      State.resetMarker, State.resetBrg].zipIdx).foldl (fun s e => if v.testBit e.2 then e.1 s else s) s

/-! ### Pins (17 R595, Table 17.4) -/

/-- What stands on a pin of the module. -/
inductive PinLevel | highZ | pulledDown | pulledUp | low | high
deriving DecidableEq, Repr

/-- The state that a pin's fuse code sets. -/
def pinOfCode (code : Nat) : PinLevel :=
  match code with
  | 0 => .highZ
  | 1 => .pulledDown
  | 2 => .pulledUp
  | _ => .low

/-- A reset that reaches a pin's owner is past step A1 of its assertion. -/
def State.pinHeld (s : State) (owner : Reach → Bool) : Bool :=
  match s.resetRun with
  | some r => owner r.reach && match r.assertStep with
    | some k => decide (1 < k)
    | none => false
  | none => false

/-- A pin of the management domain is not its owner's: from step A1 to release step 1. -/
def State.mgmtPinHeld (s : State) : Bool :=
  s.pinHeld (·.mgmt) || match s.resetRun with
    | some r => r.reach.mgmt && r.assertStep.isNone && decide (r.release ≤ 1)
    | none => false

/-- MOD_RDY: taken at step 6, then high while Thimble and the host link are ready. -/
def State.pinModRdy (s : State) : PinLevel :=
  if !s.domainOn 137 || s.pinHeld (·.host) then pinOfCode (s.get F.RST_PINFUSE_MOD_RDY)
  else if s.flag F.BRG_READY_THIMBLE && s.flag F.BRG_READY_HOST then .high else .low

/-- FAULT_N: taken at step 1, then low while a fault is present (19 R646). -/
def State.pinFaultN (s : State) : PinLevel :=
  if s.mgmtPinHeld then pinOfCode (s.get F.RST_PINFUSE_FAULT_N) else if s.fault then .low else .highZ

/-- TREADLE, an input: its fused state until the treadle block takes it at step 1; none after. -/
def State.pinTreadle (s : State) : Option PinLevel :=
  if s.mgmtPinHeld then some (pinOfCode (s.get F.RST_PINFUSE_TREADLE)) else none

/-- RESET_N, an input always, with its fused pull. -/
def State.pinResetN (s : State) : PinLevel := pinOfCode (s.get F.RST_PINFUSE_RESET_N)

/-- CLKOBS while the clock block does not drive it. -/
def State.pinClkobs (s : State) : Option PinLevel :=
  if s.clkobs.isSome && !s.mgmtPinHeld then none else some (pinOfCode (s.get F.RST_PINFUSE_CLKOBS))

end Sys2Proof.Machine
end

