-- ==== Sys2Proof/Machine/Power.lean ====
section
/-!
DEFINITION. The power controller: samples, the cap and its levels, parking and unparking, heat, and trips
(19 R624 to R647).
-/

namespace Sys2Proof.Machine

/-! ### The cap (19 R631 to R636) -/

/-- POWER_SAMPLE: input voltage in mV and current in A; AVG_W is the mean of the samples of the latest 200 µs, in whole
watts. -/
def execPowerSample (vin : BitVec 16) (iin : BitVec 10) (s : State) : Out :=
  let samples := (vin.toNat * iin.toNat :: s.power.samples).take 20
  let s := (s.noteThrottles.put F.PWR_MEAS_VIN_MV vin.toNat).put F.PWR_MEAS_IIN_A iin.toNat
  .next { s.put F.PWR_MEAS_AVG_W (samples.sum / (1000 * samples.length)) with power := { s.power with samples } }

/-- The effective cap (19 R631). -/
def State.effectiveCap (s : State) : Nat :=
  min (s.get F.PWR_CAP_RACK) (min (s.get F.PWR_CAP_HOST) (800 * s.get F.PWR_MEAS_VIN_MV / 1000))

/-- The fields of the park order, up to the first entry that is not valid. -/
def State.parkOrder (s : State) : List Nat :=
  ((List.range 64).takeWhile fun i => s.flag F.PWR_PARK_ORDERn_VALIDb 0 i).map fun i => s.get F.PWR_PARK_ORDERn_FIELDb 0 i

/-- The wafer ceiling of a level. -/
def levelCeiling (l : Nat) : Nat := if l ≤ 7 then 8 - l else 1

/-- The fields that a level parks. -/
def State.levelParks (s : State) (l : Nat) : List Nat := s.parkOrder.take (l - 7)

/-- Model power of a field at a level: its compute and transit power at the setting that the level gives it. -/
def State.fieldPower (s : State) (l f : Nat) : Nat :=
  let setting := min (s.get F.CLK_FLDf_STITCH_TARGET f) (min (levelCeiling l) (s.get F.PWR_FLDf_STAT_TCEIL f))
  let transit := if s.transitOn f then (Config.transitWatts f setting).toNat else 0
  let compute := if s.computeOn f && !(s.levelParks l).contains f || (!s.computeOn f && s.power.unparking.contains f)
    then (Config.computeWatts f setting).toNat else 0
  transit + compute

/-- model(L): every field, and the fixed loads. -/
def State.model (s : State) (l : Nat) : Nat := ((List.range 64).map (s.fieldPower l)).sum + 1370

/-- The floor. -/
def State.floor (s : State) : Nat := 7 + s.parkOrder.length

/-- A field's unparking is decided: it is parked with no reason left, not locked, and its topology agrees. -/
def State.decideUnpark (s : State) (f : Nat) : State :=
  if s.isParked f && s.get F.PWR_FLDf_STAT_REASON f == 0 && !s.flag F.PWR_FLDf_STAT_LOCKED f &&
      s.mapBit F.BRG_FLD_TOPO_MAP f && !s.power.due.contains f && !s.power.unparking.contains f then
    { s with power := { s.power with due := s.power.due ++ [f] } }
  else s

/-- A field's cap reason goes and it unparks unless another reason holds. -/
def State.endCapPark (s : State) (f : Nat) : State :=
  if (s.get F.PWR_FLDf_STAT_REASON f).testBit 0 then (s.parkReason f 0 false).decideUnpark f else s

/-- The controller goes to a level: the ceiling, and the fields parked for the cap. -/
def State.goLevel (s : State) (l : Nat) : State :=
  let parks := s.levelParks l
  let s := (s.put F.PWR_STAT_LEVEL l).put F.PWR_STAT_W (levelCeiling l)
  let s := ((List.range 64).filter fun f => !parks.contains f).foldl State.endCapPark s
  parks.foldl (fun s f => if (s.get F.PWR_FLDf_STAT_REASON f).testBit 0 then s else s.parkField f 0) s

/-- The least level that the model fits under a cap, or the floor. -/
def State.fittingLevel (s : State) (cap : Nat) : Nat :=
  ((List.range (s.floor + 1)).find? fun l => decide ((s.model l : Int) + s.power.offset ≤ cap)).getD s.floor

/-- The level after an evaluation; with EN 0 the ceiling stays at 8 and nothing is parked for the cap. -/
def State.nextLevel (s : State) (cap : Nat) (below : Bool) : Nat :=
  let level := s.get F.PWR_STAT_LEVEL
  let t := s.fittingLevel cap
  if !s.flag F.PWR_CTL_EN then 0
  else if level < t then t
  else if t < level ∧ below = true ∧ s.get F.PWR_MEAS_AVG_W + s.get F.PWR_HYST_W ≤ cap then level - 1
  else level

/-- UNATTAIN is set, with its event and its IBI, or cleared once the power has kept the cap (19 R636); EN 0 does not end these
reports (19 R637). -/
def State.showUnattain (s : State) (cap : Nat) (met : Bool) : State :=
  let holds := decide ((cap : Int) < (s.model s.floor : Int) + s.power.offset) ||
    (s.get F.PWR_STAT_LEVEL == s.floor && decide (cap < s.get F.PWR_MEAS_AVG_W))
  if s.flag F.PWR_STAT_UNATTAIN then
    (if met && decide (s.get F.PWR_MEAS_AVG_W ≤ cap) then s.put F.PWR_STAT_UNATTAIN 0 else s)
  else if holds then ((s.put F.PWR_STAT_UNATTAIN 1).raise 0x0A 0 0 cap 0).pendIbi 2
  else s

/-- POWER_EVALUATION. `clean` tells that the window of AVG_W holds no change of level, `below` that the power has stayed at
or below the cap less the hysteresis for 10 ms since the last lowering, `met` that it has stayed at or below the cap for
10 ms; neither can be while AVG_W is above. -/
def execPowerEvaluation (clean below met : Bool) (s : State) : Out :=
  let old := s
  let cap := s.effectiveCap
  let s := s.put F.PWR_CAP_EFF cap
  let s := if clean then
      { s with power := { s.power with
          offset := (s.get F.PWR_MEAS_AVG_W : Int) - (s.model (s.get F.PWR_STAT_LEVEL) : Int) } }
    else s
  let level := s.nextLevel cap below
  let s := if level = s.get F.PWR_STAT_LEVEL then s else s.goLevel level
  let s := s.put F.PWR_STAT_MODEL_W ((s.model (s.get F.PWR_STAT_LEVEL) : Int) + s.power.offset).toNat
  .next ((s.showUnattain cap met).noteFault old)

/-! ### Unparking (19 R627, R637, R642) -/

/-- UNPARK: the unparking of a field that has been decided begins. -/
def execUnpark (f : Fin 64) (s : State) : Out :=
  .next (if s.power.due.contains f.val && s.isParked f.val && s.get F.PWR_FLDf_STAT_REASON f.val == 0 then
      { s with power := { s.power with
          due := s.power.due.filter fun g => g != f.val
          unparking := s.power.unparking ++ [f.val] } }
    else s)

/-- UNPARK_DONE: the steps of COMPUTE_ON end, with the positions that failed the start-up test. -/
def execUnparkDone (f : Fin 64) (failing : List Position) (s : State) : Out :=
  if !s.power.unparking.contains f.val || !s.isParked f.val then .next s
  else
    let s := { s with power := { s.power with unparking := s.power.unparking.filter fun g => g != f.val } }
    .next ((s.computeUp f.val failing).raiseField 7 f.val f.val 0)

/-! ### Heat (19 R638 to R642) -/

/-- The power controller asks Marker to migrate a field at WARN, or parks it where nothing there migrates; while another
migration runs, it waits. -/
def State.warnField (s : State) (f : Nat) : State :=
  if !s.flag F.MRK_CTL_MIG_EN || (s.migrants f).isEmpty then s.parkField f 1
  else
    let s := { s with power := { s.power with
      asking := if s.power.asking.contains f then s.power.asking else s.power.asking ++ [f] } }
    if s.migration.isNone then s.beginMigration f true else s

/-- A migration out of a field is abandoned: its cut order goes on where it is. -/
def State.abandonMigration (s : State) (f : Nat) : State :=
  match s.migration with
  | some m =>
    if m.field = f then
      let s := { s with migration := none }.put F.MRK_MIG_STAT_BUSY 0
      match m.todo with
      | n :: _ => s.resumeOrder n
      | [] => s
    else s
  | none => s

/-- THERMAL_SAMPLE: the four sensors of a field; what the field does when its temperature reaches a threshold. -/
def execThermalSample (f : Fin 64) (t0 t1 t2 t3 : BitVec 8) (s : State) : Out :=
  let old := s.get F.PWR_FLDf_STAT_TEMP f.val
  let new := max (max t0.toNat t1.toNat) (max t2.toNat t3.toNat)
  let s' := s.put F.PWR_FLDf_STAT_TEMP new f.val
  let reaches (g : Fld) : Bool := decide (old < s.get g) && decide (s.get g ≤ new)
  if !s.transitOn f.val then .next (s'.noteFault s)
  else
    let s' := if reaches F.PWR_THERM_WARN then
        ((s'.put F.PWR_FLDf_STAT_TCEIL 1 f.val).raiseField 0x0B f.val f.val 0).warnField f.val
      else if s'.power.asking.contains f.val && s'.migration.isNone then s'.warnField f.val
      else s'
    let s' := if reaches F.PWR_THERM_CRIT then
        ((s'.abandonMigration f.val).parkField f.val 2).raiseField 0x0B f.val (f.val + 256) 0
      else s'
    let s' := if reaches F.PWR_THERM_SHUT then (s'.parkReason f.val 5 true).declareHole f.val else s'
    .next (s'.noteFault s)

/-- THERMAL_CLEAR: a field that is parked for WARN or CRIT has stayed below WARN − HYST for 100 ms. -/
def execThermalClear (f : Fin 64) (s : State) : Out :=
  let reason := s.get F.PWR_FLDf_STAT_REASON f.val
  if (reason.testBit 1 || reason.testBit 2) &&
      decide (s.get F.PWR_FLDf_STAT_TEMP f.val + s.get F.PWR_THERM_HYST < s.get F.PWR_THERM_WARN) then
    let s := ((s.parkReason f.val 1 false).parkReason f.val 2 false).put F.PWR_FLDf_STAT_TCEIL 8 f.val
    .next (if s.flag F.PWR_CTL_AUTO_UNPARK then s.decideUnpark f.val else s)
  else .next s

/-! ### Trips (19 R624, R643, R644) -/

/-- COMPUTE_TRIP: a compute domain trips; the field parks with reason TRIP. -/
def execComputeTrip (f : Fin 64) (s : State) : Out :=
  .next (if s.computeOn f.val || s.power.unparking.contains f.val then
      ((s.countTrip f.val).parkField f.val 3).noteFault s
    else s)

/-- TRANSIT_TRIP: the compute domain goes off first and the field becomes a hole. -/
def execTransitTrip (f : Fin 64) (s : State) : Out :=
  .next (if s.transitOn f.val then s.declareHole f.val else s)

/-- OPTICS_TRIP: every port of the group enters FAILED. -/
def execOpticsTrip (g : Fin 8) (s : State) : Out :=
  .next (if s.domainOn (128 + g.val) then
      ((List.range 32).filter fun p => opticsGroup p == g.val && s.portState p != 5).foldl State.failPort
        (s.setDomain (128 + g.val) false)
    else s)

/-- HOST_ATTACH_TRIP: the host link goes down. -/
def execHostAttachTrip (d : Fin 2) (s : State) : Out :=
  .next (if s.domainOn (136 + d.val) then
      let s := s.setDomain (136 + d.val) false
      if s.get F.CXL_LINKSTAT_STATE = 0 then s else s.hostLinkDown
    else s)

/-! ### Registers (19 R637, R642, R643, R647) -/

/-- A write of PWR_FLDf_CTL: PARK parks the field or clears the HOST reason, CLR_TRIP clears TRIP below TRIP_MAX, UNPARK
unparks a field with no reason set. -/
def State.writePwrField (s : State) (f v : Nat) : State :=
  let s := s.put F.PWR_FLDf_CTL_PARK (v % 2) f
  let s := if v.testBit 0 then s.parkField f 4 else s.parkReason f 4 false
  let s := if v.testBit 1 && (s.get F.PWR_FLDf_STAT_REASON f).testBit 3 && !s.flag F.PWR_FLDf_STAT_LOCKED f &&
      decide (s.get F.PWR_FLDf_STAT_TRIPS f < s.get F.PWR_CTL_TRIP_MAX) then
      let s := s.parkReason f 3 false
      if s.flag F.PWR_CTL_AUTO_UNPARK then s.decideUnpark f else s
    else s
  if v.testBit 2 then s.decideUnpark f else s

/-- A write of a register of PWR_FLDf_CTL by the controlling host. -/
def State.pwrFieldGo (s : State) (f v : Nat) : Out :=
  .next (if s.flag F.CLK_BLKEN_PWR then (s.writePwrField f v).noteFault s else s.gatedError (regOffset .PWR_FLDf_CTL f 0))

/-- PWR_PARK. -/
def execPwrPark (f : Fin 64) (park : Bool) (s : State) : Out := s.pwrFieldGo f.val (bit park)

/-- CLR_TRIP: with PARK as it stands. -/
def execClrTrip (f : Fin 64) (s : State) : Out := s.pwrFieldGo f.val (s.get F.PWR_FLDf_CTL_PARK f.val + 2)

/-- PWR_UNPARK: with PARK as it stands. -/
def execPwrUnpark (f : Fin 64) (s : State) : Out := s.pwrFieldGo f.val (s.get F.PWR_FLDf_CTL_PARK f.val + 4)

/-- PWR_SW_RST. -/
def execPwrSwRst (s : State) : Out :=
  .next (if s.flag F.CLK_BLKEN_PWR then s.resetPwr else s.gatedError (regOffset .PWR_CTL 0 0))

/-- A write of PWR_THERM: discarded unless WARN < CRIT < SHUT. -/
def State.writeTherm (s : State) (v : Nat) : State :=
  if F.PWR_THERM_CRIT.slice 0 v ≤ F.PWR_THERM_WARN.slice 0 v ∨ F.PWR_THERM_SHUT.slice 0 v ≤ F.PWR_THERM_CRIT.slice 0 v then s
  else (s.writePlain .PWR_THERM 0 0 v).noteFault s

/-- A write of PWR_PARK_ORDERn: discarded where it repeats a field, of its own or of another register's valid entries. -/
def State.writeParkOrder (s : State) (n v : Nat) : State :=
  let mine := (List.range 8).filterMap fun b =>
    if F.PWR_PARK_ORDERn_VALIDb.slice b v = 1 then some (F.PWR_PARK_ORDERn_FIELDb.slice b v) else none
  let others := (List.range 64).filterMap fun i =>
    if i / 8 ≠ n ∧ s.flag F.PWR_PARK_ORDERn_VALIDb 0 i = true then some (s.get F.PWR_PARK_ORDERn_FIELDb 0 i) else none
  if mine.eraseDups.length ≠ mine.length ∨ mine.any others.contains = true then s
  else s.writePlain .PWR_PARK_ORDERn 0 n v

end Sys2Proof.Machine
end

