-- ==== Sys2Proof/Machine/Trust.lean ====
section
/-!
DEFINITION. Thimble and the store's registers: firmware updates, attestation over SPDM, IDE keys, LIFE and flushes
(20 R648 to R666).
-/

namespace Sys2Proof.Machine

/-! ### Firmware updates (20 R653, R654, Table 20.12) -/

/-- An operation of THM_UPD_CMD ends: DONE, and ERR with its code where it failed. -/
def State.endUpdate (s : State) (code : Nat) : State :=
  let s := s.put F.THM_UPD_STAT_DONE 1
  if code = 0 then s else (s.put F.THM_UPD_STAT_ERR 1).put F.THM_UPD_STAT_ERRCODE code

/-- The slot that is not running. -/
def State.idleSlot (s : State) : Nat := 1 - s.get F.THM_STAT_SLOT

/-- Bytes programmed in a firmware slot; the slot is not valid until it is checked again. -/
def State.programSlot (s : State) (slot off v n : Nat) : State :=
  { s.put F.THM_FWSLOTn_VALID 0 0 slot with
    firmware := writeLE s.firmware 0 (slot * 2 ^ 22 + off) v n
    fwRuns := s.fwRuns ++ [(slot * 2 ^ 22 + off, n)] }

/-- A slot checked: VERSION in its header, and VALID where every check of 20 R651 passes. -/
def State.checkSlot (s : State) (slot : Nat) (k : SlotCheck) : State :=
  (s.put F.THM_FWSLOTn_VALID (bit (s.slotError slot k).isNone) 0 slot).put F.THM_FWSLOTn_VERSION
    (s.slotFound slot k).version.toNat 0 slot

/-- An operation that GO starts, with what a FINISH finds in the slot. -/
def State.updateOp (s : State) (op off : Nat) (k : SlotCheck) : State :=
  match op with
  | 1 =>
    if 1024 ≤ off then s.endUpdate 2
    else (s.programSlot s.idleSlot (off * 4096) (readLE s.updBuf 0 0 4096) 4096).endUpdate 0
  | 2 => (s.checkSlot s.idleSlot k).endUpdate (match s.slotError s.idleSlot k with | some n => n + 2 | none => 0)
  | 3 => (s.put F.THM_MINVER_MIN (max (s.get F.THM_MINVER_MIN) (s.get F.THM_STAT_VERSION))).endUpdate 0
  | _ => s.endUpdate 1

/-- A write of THM_UPD_CMD; `k` is what a FINISH finds in the slot. -/
def State.writeUpdCmd (s : State) (v : Nat) (k : SlotCheck) : State :=
  let s := s.writePlain .THM_UPD_CMD 0 0 v
  if v.testBit 63 && s.flag F.THM_STAT_VERIFIED then
    s.updateOp (s.get F.THM_UPD_CMD_OP) (s.get F.THM_UPD_CMD_OFFSET) k
  else s

/-- What a command other than FINISH finds in a slot: nothing. -/
def noCheck : SlotCheck := { version := 0, failed := some 0 }

/-- CHUNK. -/
def execChunk (offset : BitVec 10) (s : State) : Out :=
  .next (s.writeUpdCmd (2 ^ 63 + offset.toNat * 2 ^ 12 + 1) noCheck)

/-- FW_UPDATE_FINISH, with what the check of the slot finds. -/
def execFwUpdateFinish (check : SlotCheck) (s : State) : Out := .next (s.writeUpdCmd (2 ^ 63 + 2) check)

/-- RAISE_MINVER. -/
def execRaiseMinver (s : State) : Out := .next (s.writeUpdCmd (2 ^ 63 + 3) noCheck)

/-- A write of THM_UPD_BUF: eight bytes at an offset. -/
def State.writeUpdBuf (s : State) (off v : Nat) : State := { s with updBuf := writeLE s.updBuf 0 off v 8 }

/-! ### The store's registers (20 R659, R666) -/

/-- LIFE_UPDATE: another hour of power; the LIFE section waits to be written. -/
def execLifeUpdate (s : State) : Out :=
  .next (if s.flag F.NVS_STAT_LOADED then
      { s with life := { s.life with hours := s.life.hours + 1 } }.queueSection sectLife
    else s)

/-- Every section that changes, in the order of 20 R663. -/
def writtenSections : List Nat := [sectRepair, sectTopo, sectLife, sectWatch]

/-- Every dirty section waits to be written. -/
def State.flushStore (s : State) : State :=
  writtenSections.foldl (fun s k => if s.isDirty k then s.queueSection k else s) s

/-- A write of NVS_CTL. -/
def State.writeNvsCtl (s : State) (v : Nat) : State :=
  if v.testBit 0 then s.resetNvs else if v.testBit 1 then s.flushStore else s

/-- FLUSH. -/
def execFlush (s : State) : Out := .next (s.writeNvsCtl 2)

/-- NVS_SW_RST. -/
def execNvsSwRst (s : State) : Out := .next (s.writeNvsCtl 1)

/-! ### Attestation over SPDM (20 R656 to R658) -/

/-- The kinds of answers on a DOE mailbox, in the order of 20 Table 20.3, and IDE_KM. -/
def answerSpdm (n : Nat) : Nat := 16 + n

def State.spdmOf (s : State) (ld : Nat) : Spdm := mget {} s.spdm ld

def State.setSpdm (s : State) (ld : Nat) (x : Spdm) : State := { s with spdm := mset {} s.spdm ld x }

/-- A request on an LD's mailbox: answered while the link is up and the firmware runs, with an error where the state of the
connection does not allow it. -/
def State.spdmRequest (s : State) (ld n : Nat) (ok : Spdm → Bool) (f : Spdm → Spdm) (len data : Nat) : State :=
  let x := s.spdmOf ld
  if !s.linkUp || !s.flag F.THM_STAT_VERIFIED then s
  else if ok x then (s.setSpdm ld (f x)).answerHost ld (answerSpdm n) true len data
  else s.answerHost ld (answerSpdm n) false 0 0

/-- GET_VERSION: 1.2 and 1.3. -/
def execGetVersion (ld : Fin 16) (s : State) : Out :=
  .next (s.spdmRequest ld.val 0 (fun _ => true) (fun x => { x with stage := 1 }) 2 0x1312)

/-- GET_CAPABILITIES. -/
def execGetCapabilities (ld : Fin 16) (s : State) : Out :=
  .next (s.spdmRequest ld.val 1 (fun x => decide (1 ≤ x.stage)) (fun x => { x with stage := 2 }) 0 0)

/-- NEGOTIATE_ALGORITHMS: which of the supported signature, hash, key exchange and AEAD algorithms the requester offers. -/
def execNegotiateAlgorithms (ld : Fin 16) (offered : BitVec 4) (s : State) : Out :=
  .next (s.spdmRequest ld.val 2 (fun x => decide (2 ≤ x.stage) && offered != 0) (fun x => { x with stage := 3 }) 1
    offered.toNat)

/-- The algorithms have been negotiated. -/
def Spdm.ready (x : Spdm) : Bool := decide (x.stage = 3)

/-- GET_DIGESTS. -/
def execGetDigests (ld : Fin 16) (s : State) : Out := .next (s.spdmRequest ld.val 3 Spdm.ready id 0 0)

/-- GET_CERTIFICATE: slot 0 only. -/
def execGetCertificate (ld : Fin 16) (slot : Fin 8) (s : State) : Out :=
  .next (s.spdmRequest ld.val 4 (fun x => x.ready && slot == 0) id 0 0)

/-- CHALLENGE: signed by the alias key of slot 0. -/
def execChallenge (ld : Fin 16) (slot : Fin 8) (s : State) : Out :=
  .next (s.spdmRequest ld.val 5 (fun x => x.ready && slot == 0 && s.flag F.THM_STAT_ALIAS) id 0 0)

/-- The digest of a section as last written, by the bytes of its winning copy's payload. -/
def State.sectionDigest (s : State) (k : Nat) : Option (BitVec 256) :=
  (s.sect k).winner.map fun w => sm3 (Config.storeBytes k w.2.2)

/-- The digest of the running image, header included, where updates have written all of it. -/
def State.imageDigest (s : State) : Option (BitVec 256) :=
  let slot := s.get F.THM_STAT_SLOT
  let n := 512 + s.slotField slot 8 4
  if s.slotWritten slot 0 512 && s.slotWritten slot 0 n then some (sm3 (s.slotBytes slot 0 n)) else none

/-- A measurement: the SM3 digest of what its index measures, as it stands (20 Table 20.4). The bytes of the boot ROM, of the
fuse map and of an image from the factory are not held: their digests are values of Config. -/
def State.measure (s : State) (i : Nat) : Nat :=
  let held := match i with
    | 2 => s.imageDigest
    | 4 => s.sectionDigest sectRepair
    | 5 => s.sectionDigest 2
    | _ => none
  (held.getD (Config.measurement i (if i = 2 then s.get F.THM_STAT_VERSION else 0))).toNat

/-- GET_MEASUREMENTS: index 0 asks for the number of measurements, 255 for all of them. -/
def execGetMeasurements (ld : Fin 16) (index : BitVec 8) (s : State) : Out :=
  let i := index.toNat
  let all := ((List.range 5).map fun j => s.measure (j + 1) * 2 ^ (256 * j)).sum
  let (len, data) := if i = 0 then (1, 5) else if i = 255 then (160, all) else (32, s.measure i)
  .next (s.spdmRequest ld.val 6
    (fun x => x.ready && s.flag F.THM_STAT_ALIAS && (i ≤ 5 || i == 255)) id len data)

/-- KEY_EXCHANGE: opens the LD's session; at most one. -/
def execKeyExchange (ld : Fin 16) (s : State) : Out :=
  .next (s.spdmRequest ld.val 7 (fun x => x.ready && x.session.isNone) (fun x => { x with session := some false }) 0 0)

/-- FINISH: completes the session. -/
def execFinish (ld : Fin 16) (s : State) : Out :=
  .next (s.spdmRequest ld.val 8 (fun x => x.session == some false) (fun x => { x with session := some true }) 0 0)

/-- END_SESSION. -/
def execEndSession (ld : Fin 16) (s : State) : Out :=
  .next (s.spdmRequest ld.val 9 (fun x => x.session == some true) (fun x => { x with session := none }) 0 0)

/-- HEARTBEAT: keeps the session open. -/
def execHeartbeat (ld : Fin 16) (s : State) : Out :=
  .next (s.spdmRequest ld.val 10 (fun x => x.session == some true) id 0 0)

/-- A stream takes keys from this LD's session: the link stream, 16, from LD 0's, a selective stream from its own LD's. -/
def streamOf (ld stream : Nat) : Bool := if stream = 16 then ld == 0 else stream == ld

/-- IDE_KM: a key of a stream, delivered in the LD's session. -/
def execIdeKm (ld : Fin 16) (stream : Fin 17) (s : State) : Out :=
  let ok (x : Spdm) : Bool := x.session == some true && streamOf ld.val stream.val
  let t := s.spdmRequest ld.val 11 ok id 0 0
  .next (if s.linkUp && s.flag F.THM_STAT_VERIFIED && ok (s.spdmOf ld.val) then
      { t with ideKeys := if t.ideKeys.contains stream.val then t.ideKeys else t.ideKeys ++ [stream.val] }
    else t)

end Sys2Proof.Machine
end

