-- ==== Sys2Proof/Machine/RegWrite.lean ====
section
/-!
DEFINITION. Reads and writes of register space: what a write of each register does beside its access codes, the rights of
threads and of hosts, and the GATED error (00 R3, R6, R688; 02 R87 to R90, R689; 07 R254 to R258; 14 R500, R513; 18 R611).
-/

namespace Sys2Proof.Machine

/-! ### The effect of a write -/

/-- A write of CORE_CTL: with SW_RST the core reset and nothing else; otherwise the enables, then the resumes, then the halts
(00 R688, 02 R689). -/
def State.writeCoreCtl (s : State) (c : Lcn) (v : Nat) : State :=
  if F.CORE_CTL_SW_RST.slice 0 v = 1 then s.softReset c
  else
    let s := s.writePlain .CORE_CTL c.toNat 0 v
    let s := allThreads.foldl (fun s t => if v.testBit (8 + t.val) then s.resumeThread c t else s) s
    allThreads.foldl (fun s t => if v.testBit (4 + t.val) then s.haltThread c t else s) s

/-- A write of CORE_SRCMD (05 R202). -/
def State.writeSrCmd (s : State) (c : Lcn) (v : Nat) : State :=
  if !s.quiet c then s.put F.CORE_SRCMD_REJ 1 c.toNat
  else
    let s := s.writePlain .CORE_SRCMD c.toNat 0 v
    if F.CORE_SRCMD_RESEED.slice 0 v = 1 then s.reseed c else s

/-- What stands behind a register of a core's window; `t` is the thread that writes, 0 for a host. -/
def State.writeCoreReg (s : State) (r : Reg) (c : Lcn) (n : Nat) (t : Fin 4) (v : Nat) : State :=
  match r with
  | .CORE_CTL => s.writeCoreCtl c v
  | .CORE_ACC_OWN => s.writeAccOwn c v
  | .CORE_SRSEED => s.writeSeed c (BitVec.ofNat 64 v)
  | .CORE_SRCMD => s.writeSrCmd c v
  | .CORE_SRLANEl => s.writeLane c n (BitVec.ofNat 64 v)
  | .SPX_CMP_CMD => s.writeCmpCmd c v
  | .SPX_SEL_CMD => s.writeSelCmd c v
  | .SPL_CMD => s.writeSplCmd c t v
  | .TACK_STATEn => s.signal c (Fin.ofNat 32 n) true (BitVec.ofNat 32 (F.TACK_STATEn_VALUE.slice 0 v)) 2 0
  | .CORE_PAT_CTL => s.writePatCtl c v
  | .CORE_PAT_LOAD => s.writePatLoad c v
  | .CORE_RING_LAYOUT => s.writeRingRegister c .CORE_RING_LAYOUT v
  | .CORE_RING_TACKS => s.writeRingRegister c .CORE_RING_TACKS v
  | .CORE_RING_CMD => s.writeRingCmd c v
  | _ => s.writePlain r c.toNat n v

/-- A write of MRK_CTL; ENABLE is accepted once the distance table is built (16 Table 16.1). -/
def State.writeMrkCtl (s : State) (v : Nat) : State :=
  if F.MRK_CTL_SW_RST.slice 0 v = 1 then s.resetMarker
  else
    let enable := s.get F.MRK_CTL_ENABLE
    let s := s.writePlain .MRK_CTL 0 0 v
    if s.flag F.BRG_READY_MARKER then s else s.put F.MRK_CTL_ENABLE (enable * F.MRK_CTL_ENABLE.slice 0 v)

/-- A write of MRK_MIGRATE (07 R278). -/
def State.writeMigrate (s : State) (v : Nat) : State :=
  if F.MRK_MIGRATE_GO.slice 0 v = 0 || s.flag F.MRK_MIG_STAT_BUSY || !s.flag F.MRK_CTL_MIG_EN then s
  else s.beginMigration (F.MRK_MIGRATE_FIELD.slice 0 v) false

/-- A write of MRK_RINGj_SETUP (12 R431). -/
def State.writeRingSetup (s : State) (j v : Nat) : State :=
  if F.MRK_RINGj_SETUP_GO.slice 0 v = 0 then s
  else s.setUpRing j (F.MRK_RINGj_SETUP_ID.slice 0 v) (F.MRK_RINGj_SETUP_NREP.slice 0 v) (F.MRK_RINGj_SETUP_MSEG.slice 0 v)

/-- A write of SEL_CTL (13 Table 13.10). -/
def State.writeSelCtl (s : State) (p v : Nat) : State :=
  if F.SEL_CTL_SW_RST.slice 0 v = 1 then s.resetPort p
  else
    let s := s.writePlain .SEL_CTL p 0 v
    if F.SEL_CTL_TRAIN.slice 0 v = 1 then s.trainPort p else s

/-- A write of CLK_BLKEN: a 0 written to the NVS, THM or CXL bit is ignored (18 R610). -/
def State.writeBlken (s : State) (v : Nat) : State :=
  let keep := [F.CLK_BLKEN_NVS, F.CLK_BLKEN_THM, F.CLK_BLKEN_CXL]
  keep.foldl (fun t f => if s.flag f then t.put f 1 else t) (s.writePlain .CLK_BLKEN 0 0 v)

/-- A write of FAB_CTL. -/
def State.writeFabCtl (s : State) (f v : Nat) : State :=
  if F.FAB_CTL_SW_RST.slice 0 v = 1 then s.resetFab f else s.writePlain .FAB_CTL f 0 v

/-- The MGT_ registers at their reset values, but for the module's dynamic address and its provisioned ID (21 R684). -/
def State.resetMgt (s : State) : State :=
  { s with regs := s.regs.filter fun e =>
      keepsMgt (e.1 / 2 ^ 32) ||
        !(decide (F.MGT_CTL_SW_RST.id ≤ e.1 / 2 ^ 32) && decide (e.1 / 2 ^ 32 ≤ F.MGT_COOLANT_OUTLET.id)) }

/-- What a FINISH finds in the slot, where no command says it: free values (log entry 6). -/
def State.freeCheck (s : State) : SlotCheck × State :=
  let (version, s) := s.free 32
  let (failed, s) := s.free 3
  ({ version, failed := if failed.toNat < 4 then some (Fin.ofNat 4 failed.toNat) else none }, s)

/-- A write of a register of CXL_LDk_RINGPTR: BADDB, and WDRAW with its withdrawal. -/
def State.writeRingPtr (s : State) (ld v : Nat) : State :=
  let s := s.writeFldAll F.CXL_LDk_RINGPTR_BADDB ld 0 v
  if F.CXL_LDk_RINGPTR_WDRAW.slice 0 v = 1 then s.withdraw ld else s

/-- A write of CXL_LDk_CFG: ENABLED is always 1 for LD 0. -/
def State.writeLdCfg (s : State) (ld v : Nat) : State := if ld = 0 then s else s.writePlain .CXL_LDk_CFG ld 0 v

/-- What stands behind a register of the host-attach block. -/
def State.writeCxlReg (s : State) (r : Reg) (u n v : Nat) : State :=
  match r with
  | .CXL_LDk_CFG => s.writeLdCfg u v
  | .CXL_LDk_PART => s.writeLdPart u v
  | .CXL_LDk_FMWIN => s.writeFmwin u v
  | .CXL_LDk_MSIX => s.writeMsix u v
  | .CXL_LDk_RING => s.writeRing u v
  | .CXL_LDk_RINGPTR => s.writeRingPtr u v
  | .CXL_LDk_EVQ => s.writeEvq u v
  | _ => s.writePlain r u n v

/-- What stands behind a register of the other blocks. -/
def State.writeBlockReg (s : State) (r : Reg) (u n v : Nat) : State :=
  match r with
  | .MRK_CTL => s.writeMrkCtl v
  | .MRK_MIGRATE => s.writeMigrate v
  | .MRK_RINGj_SETUP => s.writeRingSetup u v
  | .FAB_CTL => s.writeFabCtl u v
  | .FAB_DL_STAT => if F.FAB_DL_STAT_EVENT.slice 0 v = 1 then s.releaseSnapshot u else s
  | .SEL_CTL => s.writeSelCtl u v
  | .INT_CTL => if F.INT_CTL_SW_RST.slice 0 v = 1 then s.resetIntegrity else s.writeIntCtl v
  | .INT_DIGEST_CFGj => s.writeDigestCfg n v
  | .BRG_CMD => s.writeBrgCmd v
  | .BRG_RST => s.writeBrgRst v
  | .BRG_DARN_CMD => s.writeDarnCmd v
  | .RST_CTL => s.writeRstCtl v
  | .RST_BLOCK => s.writeRstBlock v
  | .CLK_BLKEN => s.writeBlken v
  | .CLK_FLDf_CTL => s.writeClkCtl u v
  | .TRD_PUSH =>
    let (ns, s) := s.free 32
    s.pushTicks (F.TRD_PUSH_ADD.slice 0 v) ns.toNat
  | .PWR_CTL => if F.PWR_CTL_SW_RST.slice 0 v = 1 then s.resetPwr else s.writePlain .PWR_CTL 0 0 v
  | .PWR_THERM => s.writeTherm v
  | .PWR_PARK_ORDERn => s.writeParkOrder n v
  | .PWR_FLDf_CTL => s.writePwrField u v
  | .NVS_CTL => s.writeNvsCtl v
  | .THM_UPD_CMD =>
    let (k, s) := s.freeCheck
    s.writeUpdCmd v k
  | .MGT_CTL => if F.MGT_CTL_SW_RST.slice 0 v = 1 then s.resetMgt else s
  | _ => s.writePlain r u n v

/-- Where the SW_RST bit of a control register is written 1, no other field of the write counts (00 R688). -/
def Reg.resets (r : Reg) (v : Nat) : Bool :=
  ([F.CORE_CTL_SW_RST, F.MRK_CTL_SW_RST, F.FAB_CTL_SW_RST, F.SEL_CTL_SW_RST, F.INT_CTL_SW_RST, F.RST_CTL_SW_RST,
    F.PWR_CTL_SW_RST, F.NVS_CTL_SW_RST, F.MGT_CTL_SW_RST].filter fun f => r.fields.any fun g => g.id == f.id).any
      fun f => f.slice 0 v == 1

/-- A write of a register, by its unit and the number of its copy: a value that a Meaning column does not define faults
(00 R6). -/
def State.writeReg (s : State) (r : Reg) (u n : Nat) (t : Fin 4) (v : Nat) : Out :=
  if r == .FLD_CUEn_A then s.writeCue u n false v
  else if r == .FLD_CUEn_B then s.writeCue u n true v
  else if !r.resets v && !r.defines v then .fault .undefinedFieldValue
  else .next (match r.place.block with
    | .core => s.writeCoreReg r (BitVec.ofNat 20 u) n t v
    | .cxl => s.writeCxlReg r u n v
    | _ => (s.writeBlockReg r u n v).noteFault s)

/-! ### Places -/

/-- What an LD's BAR0 shows at an offset: below the aperture what register space holds there, and in it the windows of the
panel that the LD's host has selected (02 R87, 07 R256, 14 R514). -/
def State.bar0 (s : State) (ld o : Nat) : RegSpace :=
  if o < 0x2000000 then bar0At o
  else
    let k := (o - 0x2000000) / 0x4000
    let f := s.get F.CXL_LDk_APERTURE_FIELD ld
    windowAt (fieldPos f (s.get F.CXL_LDk_APERTURE_PANEL ld * 16 + k / 128 % 16) (k % 128)) (o % 0x4000)

/-- The core whose window a place lies in. -/
def RegSpace.windowCore (p : RegSpace) : Option Lcn :=
  match p with
  | .reg r u _ => if r.place.block == .core then some (BitVec.ofNat 20 u) else none
  | .window c _ => some c
  | .empty (some (.core, u)) => some (BitVec.ofNat 20 u)
  | _ => none

/-- The field whose own block, or a panel block of which, a place lies in. -/
def RegSpace.blockField (p : RegSpace) : Option Nat :=
  let at_ (b : Block) (u : Nat) : Option Nat :=
    match b with
    | .fld => some u
    | .pnl => some (u / 8)
    | _ => none
  match p with
  | .reg r u _ => at_ r.place.block u
  | .empty (some (b, u)) => at_ b u
  | _ => none

/-- The clocks behind a place run (18 R610, R611; 02 R89). -/
def State.placeClocked (s : State) (p : RegSpace) : Bool :=
  match p with
  | .reg r u _ => s.blockClocked r r.place.block u
  | .window c _ => s.clocked c
  | .empty (some (b, u)) => s.blockClocked .CORE_ID b u
  | _ => true

/-- A place in the window of a core that is not backed: it reads as zero and ignores writes (02 R88). -/
def State.placeUnbacked (s : State) (p : RegSpace) : Bool :=
  match p.windowCore with
  | some c => !s.backed c
  | none => false

/-- The value read at a place; a value the manual leaves open is free. -/
def State.readSpace (s : State) (p : RegSpace) : Nat × State :=
  if s.placeUnbacked p then (0, s)
  else
    let (free, t) := s.free 64
    (match p with
      | .reg r u n => s.readReg r u n
      | .window c off => (s.readWindow c off).getD free.toNat
      | .slot n off => s.readSlot n off
      | .distance off => s.readDistance off
      | .empty _ => 0
      | .outside => 0, t)

/-- An offset of BAR0 lies in THM_UPD_BUF (20 Table 20.13). -/
def inUpdBuf (o : Nat) : Bool := decide (0x71000 ≤ o) && decide (o < 0x72000)

/-- A write at an offset of register space whose place is known; THM_UPD_BUF stands from 0x1000 in Thimble's block. -/
def State.writeSpace (s : State) (o : Nat) (p : RegSpace) (t : Fin 4) (v : Nat) : Out :=
  if s.placeUnbacked p then .next s
  else match p with
    | .reg r u n => s.writeReg r u n t v
    | .window c off => .next (s.writeWindow c off v)
    | _ => .next (if inUpdBuf o then s.writeUpdBuf (o - 0x71000) v else s)

/-! ### Rights (07 Table 7.4, 14 Table 14.5) -/

/-- Two cores belong to one cut order. -/
def State.sameOrder (s : State) (c d : Lcn) : Bool :=
  match s.slotOf c, s.slotOf d with
  | some (i, _), some (j, _) => i == j
  | _, _ => false

/-- A thread of a core, whose cut order belongs to an LD, may read a place. -/
def State.threadReads (s : State) (c : Lcn) (ld : Nat) (p : RegSpace) : Bool :=
  match p.windowCore, p.blockField, p with
  | some d, _, _ => decide (d = c) || s.sameOrder c d || s.inPartition ld (fieldOf d)
  | _, some f, _ => s.inPartition ld f
  | _, _, .slot n _ => match findKey s.slots n with
    | some o => o.ld == ld
    | none => true
  | _, _, .outside => false
  | _, _, _ => true

/-- A thread may write a place. -/
def State.threadWrites (s : State) (c : Lcn) (p : RegSpace) : Bool :=
  match p.windowCore, p with
  | some d, _ => decide (d = c) || s.sameOrder c d
  | none, .empty none => true
  | none, _ => false

/-- The registers of an LD that its own host writes (14 R527). -/
def ownLdRegs : List Reg :=
  [.CXL_LDk_RING, .CXL_LDk_RINGPTR, .CXL_LDk_EVQ, .CXL_LDk_EVQPTR, .CXL_LDk_EVVEC, .CXL_LDk_APERTURE]

/-- The host of an LD may write a place. -/
def State.hostWrites (s : State) (ld : Nat) (p : RegSpace) : Bool :=
  ld == 0 ||
    match p.windowCore, p with
    | some d, _ => s.inPartition ld (fieldOf d)
    | none, .reg r u _ => ownLdRegs.contains r && u == ld
    | none, _ => false

/-- A place at an offset is a control register, so that a refused write of it is counted (14 R500). -/
def RegSpace.isControl (p : RegSpace) (o : Nat) : Bool :=
  p.windowCore.isNone && match p with
    | .reg _ _ _ => true
    | _ => inUpdBuf o

/-- The host of an LD may read a place. -/
def State.hostReads (s : State) (ld : Nat) (p : RegSpace) : Bool :=
  ld == 0 ||
    match p.windowCore, p.blockField with
    | some d, _ => s.inPartition ld (fieldOf d)
    | none, some f => s.inPartition ld f
    | none, none => true

/-! ### Accesses of hosts -/

/-- A host's write through its LD's BAR0: refused in a window outside its partition, discarded and counted for a control
register, GATED, or done. -/
def State.hostWriteAt (s : State) (ld o v : Nat) : Out :=
  let p := s.bar0 ld o
  if !s.hostWrites ld p then .next (if p.isControl o then s.ctlError ld else s)
  else if !s.placeUnbacked p && !s.placeClocked p then .next (s.gatedError o)
  else s.writeSpace o p 0 v

/-- A host's read through its LD's BAR0: zero where it is refused, all ones where it is GATED. -/
def State.hostReadAt (s : State) (ld o : Nat) : Nat × State :=
  let p := s.bar0 ld o
  if !s.hostReads ld p then (0, s)
  else if !s.placeUnbacked p && !s.placeClocked p then (2 ^ 64 - 1, s.gatedError o)
  else s.readSpace p

/-- REGISTER_WRITE: the host of an LD writes eight bytes at an offset of its BAR0. -/
def execRegisterWrite (ld : Fin 16) (o : BitVec 26) (v : Word) (s : State) : Out :=
  s.hostWriteAt ld.val o.toNat v.toNat

end Sys2Proof.Machine
end

