-- ==== Sys2Proof/Machine/Module.lean ====
section
/-!
DEFINITION. The management connector: dynamic addresses, common command codes and in-band interrupts of the I3C bus, the MGT
commands, and the arbiter of the management register bus (21 R675 to R684).
-/

namespace Sys2Proof.Machine

/-- The kinds of answers on the management bus: responses of MGT commands, answers to common command codes, in-band
interrupts. -/
def answerMgt : Nat := 32
def answerCcc : Nat := 33
def answerIbi : Nat := 34

/-! ### Dynamic addresses and common command codes (21 R676 to R678) -/

/-- The I3C target answers at a dynamic address. -/
def State.hasAddress (s : State) : Bool := s.mgmtOn && s.flag F.MGT_STAT_DA_VALID

/-- The 64 bits that the module sends in ENTDAA: provisioned ID, BCR and DCR, most significant first. -/
def State.daaValue (s : State) : Nat :=
  s.get F.MGT_PID_PID * 2 ^ 16 + s.get F.MGT_PID_BCR * 2 ^ 8 + s.get F.MGT_PID_DCR

/-- The module takes a dynamic address. -/
def State.takeAddress (s : State) (a : Nat) : State := (s.put F.MGT_STAT_DA a).put F.MGT_STAT_DA_VALID 1

/-- ENTDAA: one round against the 64-bit values of other modules. The lowest value wins the address; where another module has
the same provisioned ID, the address that both receive is free. -/
def execEntdaa (addr : BitVec 7) (others : List Word) (s : State) : Out :=
  let own := s.daaValue
  if !s.mgmtOn || s.flag F.MGT_STAT_DA_VALID || others.any fun o => decide (o.toNat < own) then .next s
  else if others.any fun o => decide (o.toNat / 2 ^ 16 = own / 2 ^ 16) then
    let (a, s) := s.free 7
    .next (s.takeAddress a.toNat)
  else .next (s.takeAddress addr.toNat)

/-- RSTDAA: the module's dynamic address is cleared. -/
def execRstdaa (s : State) : Out :=
  .next (if s.hasAddress then (s.put F.MGT_STAT_DA_VALID 0).put F.MGT_STAT_DA 0 else s)

/-- A common command code that the module answers while it has an address, and that it does not acknowledge otherwise. -/
def State.ccc (s : State) (len data : Nat) (f : State → State := id) : Out :=
  .next (if s.hasAddress then (f s).answerHost 0 answerCcc true len data
    else if s.mgmtOn then s.answerHost 0 answerCcc false 0 0 else s)

/-- ENEC: in-band interrupts are enabled. -/
def execEnec (s : State) : Out := s.ccc 0 0 fun s => s.put F.MGT_STAT_IBI_EN 1

/-- DISEC: in-band interrupts are disabled, and one that waits is given up. -/
def execDisec (s : State) : Out :=
  s.ccc 0 0 fun s => { s.put F.MGT_STAT_IBI_EN 0 with mgt := { s.mgt with ibis := [] } }

/-- GETPID. -/
def execGetpid (s : State) : Out := s.ccc 6 (s.get F.MGT_PID_PID)

/-- GETBCR. -/
def execGetbcr (s : State) : Out := s.ccc 1 (s.get F.MGT_PID_BCR)

/-- GETDCR. -/
def execGetdcr (s : State) : Out := s.ccc 1 (s.get F.MGT_PID_DCR)

/-- GETSTATUS: 16 bits whose layout the manual leaves to MIPI I3C, a free value. -/
def execGetstatus (s : State) : Out :=
  if s.hasAddress then
    let (v, t) := s.free 16
    t.ccc 2 v.toNat
  else s.ccc 2 0

/-- GETMWL: 256 B. -/
def execGetmwl (s : State) : Out := s.ccc 2 256

/-- GETMRL: 64 B. -/
def execGetmrl (s : State) : Out := s.ccc 2 64

/-- RSTACT: what the next target reset pattern does (17 Table 17.1). -/
def execRstact (byte : BitVec 8) (s : State) : Out :=
  s.ccc 0 0 fun s => { s with mgt := { s.mgt with rstact := some byte.toNat } }

/-- UNSUPPORTED_CCC: any other directed common command code is not acknowledged. -/
def execUnsupportedCcc (s : State) : Out := .next (if s.mgmtOn then s.answerHost 0 answerCcc false 0 0 else s)

/-- IBI: the oldest pending in-band interrupt is raised; it goes when it wins the bus, and is tried again otherwise. -/
def execIbi (wins : Bool) (s : State) : Out :=
  match s.mgt.ibis with
  | [] => .next s
  | code :: rest =>
    if wins && s.hasAddress && s.flag F.MGT_STAT_IBI_EN then
      .next ({ s with mgt := { s.mgt with ibis := rest } }.answerHost 0 answerIbi true 1 code)
    else .next s

/-! ### MGT commands (21 R679 to R681) -/

/-- Bytes of a number, least significant first. -/
def bytesOf (n v : Nat) : List Nat := (List.range n).map fun i => v / 256 ^ i % 256

/-- The response of a command. -/
def State.respond (s : State) (seq : BitVec 8) (status : Nat) (data : List Nat) : State :=
  { s with mgt := { s.mgt with response := some (status, seq.toNat, data) } }

/-- An MGT command: counted, refused where the module's state does not allow it (0x05), where its arguments have a wrong
length (0x03) or lie out of range (0x04), and otherwise served. -/
def State.mgtCommand (s : State) (seq : BitVec 8) (refused badLength badRange : Bool) (f : State → State × List Nat) : Out :=
  if !s.hasAddress then .next s
  else
    let s := s.addWrap F.MGT_STAT_CMDS 1
    if refused then .next (s.respond seq 5 [])
    else if badLength then .next (s.respond seq 3 [])
    else if badRange then .next (s.respond seq 4 [])
    else
      let (s, data) := f s
      .next (s.respond seq 0 data)

/-- Release has stopped for want of valid firmware (17 R589). -/
def State.thimbleFail (s : State) : Bool := s.flag F.RST_STAT_THIMBLE_FAIL

/-- GET_STATUS: 24 bytes. -/
def execGetStatus (seq : BitVec 8) (args : List (BitVec 8)) (s : State) : Out :=
  s.mgtCommand seq false (args.length != 0) false fun s => (s,
    bytesOf 1 (s.readReg .BRG_READY 0 0) ++ [s.get F.RST_STAT_STEP] ++ bytesOf 2 (s.readReg .RST_CAUSE 0 0) ++
      [s.get F.PWR_STAT_LEVEL,
        s.get F.PWR_STAT_UNATTAIN + bit s.fault * 2 + bit s.thimbleFail * 4 + s.get F.MGT_STAT_CAP_LOST * 8, 0, 0] ++
      bytesOf 8 s.now ++ bytesOf 4 (s.get F.THM_STAT_VERSION) ++ bytesOf 4 (s.get F.PWR_MEAS_AVG_W))

/-- SET_CAP: the rack's cap, 1,000 to 40,000 W; CAP_LOST is cleared. -/
def execSetCap (seq : BitVec 8) (args : List (BitVec 8)) (s : State) : Out :=
  let cap := ofBytes args
  s.mgtCommand seq s.thimbleFail (args.length != 4) (decide (cap < 1000) || decide (40000 < cap)) fun s =>
    ((s.put F.PWR_CAP_RACK cap).put F.MGT_STAT_CAP_LOST 0, [])

/-- GET_POWER: 16 bytes. -/
def execGetPower (seq : BitVec 8) (args : List (BitVec 8)) (s : State) : Out :=
  s.mgtCommand seq s.thimbleFail (args.length != 0) false fun s => (s,
    bytesOf 4 (s.get F.PWR_MEAS_AVG_W) ++ bytesOf 2 (s.get F.PWR_MEAS_VIN_MV) ++ bytesOf 2 (s.get F.PWR_MEAS_IIN_A) ++
      bytesOf 4 (s.get F.PWR_CAP_EFF) ++
      [s.get F.PWR_STAT_LEVEL, s.get F.PWR_STAT_W, s.readFld F.PWR_STAT_PARKED 0 0, 0])

/-- GET_THERM: a field's temperature, ceiling and reasons. -/
def execGetTherm (seq : BitVec 8) (args : List (BitVec 8)) (s : State) : Out :=
  let f := ofBytes args
  s.mgtCommand seq s.thimbleFail (args.length != 1) (decide (64 ≤ f)) fun s =>
    (s, [s.get F.PWR_FLDf_STAT_TEMP f, s.get F.PWR_FLDf_STAT_TCEIL f, s.get F.PWR_FLDf_STAT_REASON f, 0])

/-- GET_COOLANT: the temperatures at the coolant ports, as their sensors show them (21 R669). -/
def execGetCoolant (seq : BitVec 8) (args : List (BitVec 8)) (inlet outlet : BitVec 16) (s : State) : Out :=
  let s := if s.hasAddress then (s.put F.MGT_COOLANT_INLET inlet.toNat).put F.MGT_COOLANT_OUTLET outlet.toNat else s
  s.mgtCommand seq s.thimbleFail (args.length != 0) false fun s =>
    (s, bytesOf 2 (s.get F.MGT_COOLANT_INLET) ++ bytesOf 2 (s.get F.MGT_COOLANT_OUTLET))

/-- READ_REG: a register of the wafer-level blocks; 0x06 where its block is gated. -/
def execReadReg (seq : BitVec 8) (args : List (BitVec 8)) (s : State) : Out :=
  let o := ofBytes args
  let range := decide (o % 8 ≠ 0) || decide (0x100000 ≤ o)
  if s.hasAddress && !s.thimbleFail && args.length == 4 && !range && !s.placeClocked (bar0At o) then
    .next (((s.addWrap F.MGT_STAT_CMDS 1).gatedError o).respond seq 6 [])
  else
    s.mgtCommand seq s.thimbleFail (args.length != 4) range fun s =>
      let (v, s) := s.readSpace (bar0At o)
      (s, bytesOf 8 v)

/-- FW_BEGIN: under THIMBLE_FAIL, the slot that the following chunks load; it is not valid any more. -/
def execFwBegin (seq : BitVec 8) (args : List (BitVec 8)) (s : State) : Out :=
  let slot := ofBytes args
  s.mgtCommand seq (!s.thimbleFail) (args.length != 1) (decide (2 ≤ slot)) fun s =>
    ({ s.put F.THM_FWSLOTn_VALID 0 0 slot with mgt := { s.mgt with slot := some slot } }, [])

/-- FW_CHUNK: bytes of an image at an offset of the slot. -/
def execFwChunk (seq : BitVec 8) (args : List (BitVec 8)) (s : State) : Out :=
  let off := ofBytes (args.take 4)
  let data := args.drop 4
  let length := decide (args.length < 5) || decide (252 < args.length)
  let range := decide (off % 4 ≠ 0) || decide (2 ^ 22 < off + data.length)
  match s.mgt.slot with
  | none => s.mgtCommand seq true false false fun s => (s, [])
  | some slot =>
    s.mgtCommand seq (!s.thimbleFail) length range fun s => (s.programSlot slot off (ofBytes data) data.length, [])

/-- FW_FINISH: what the check of the loaded slot finds. -/
def execFwFinish (seq : BitVec 8) (args : List (BitVec 8)) (check : SlotCheck) (s : State) : Out :=
  match s.mgt.slot with
  | none => s.mgtCommand seq true false false fun s => (s, [])
  | some slot =>
    s.mgtCommand seq (!s.thimbleFail) (args.length != 0) false fun s =>
      (s.checkSlot slot check, [(s.slotError slot check).getD 0])

/-- "YT-GNK1" in ASCII with one zero byte. -/
def partName : List Nat := [0x59, 0x54, 0x2D, 0x47, 0x4E, 0x4B, 0x31, 0]

/-- GET_ID: 16 bytes. -/
def execGetId (seq : BitVec 8) (args : List (BitVec 8)) (s : State) : Out :=
  s.mgtCommand seq false (args.length != 0) false fun s =>
    (s, bytesOf 6 (s.get F.MGT_PID_PID) ++ [s.get F.MGT_PID_BCR, s.get F.MGT_PID_DCR] ++ partName)

/-- MGT_RESPONSE_READ: STATUS, SEQ, LEN and the data of the last command, as often as it is read; not acknowledged before
there is a response. -/
def execMgtResponseRead (s : State) : Out :=
  match s.mgt.response with
  | none => .next (if s.mgmtOn then s.answerHost 0 answerMgt false 0 0 else s)
  | some (status, seq, data) =>
    .next (if s.hasAddress then
        s.answerHost 0 answerMgt true (3 + data.length)
          (status + seq * 2 ^ 8 + data.length * 2 ^ 16 + packBits 8 data * 2 ^ 24)
      else s)

/-! ### The management register bus (21 R682) -/

/-- Rules 2 and 3: the requester that has waited longest once one has reached WAIT_LIMIT, or the one of highest rank. -/
def State.mgtFree (s : State) (l : List Nat) (waits : Nat → Nat) : Option (Nat × Bool) :=
  if l.any fun q => decide (s.get F.MGT_ARBCFG_WAIT_LIMIT ≤ waits q) then (firstMost l waits).map fun q => (q, true)
  else (firstMost l fun q => 3 - s.get F.MGT_RANK_RANKq 0 q).map fun q => (q, false)

/-- The winner of an arbitration among eligible requesters, and whether rule 2 forced it: a lock owner that is eligible, and
otherwise rules 2 and 3. -/
def State.mgtWinner (s : State) (eligible : List Nat) : Option (Nat × Bool) :=
  let order := (List.range 8).map fun i => (s.mgt.pointer + i) % 8
  let l := order.filter eligible.contains
  let free := s.mgtFree l fun q => mget 0 s.mgt.waits q
  match s.mgt.lock with
  | some k => if l.contains k.panel then some (k.panel, false) else free
  | none => free

/-- The requesters that use locks (21 Table 21.8). -/
def usesLocks (q : Nat) : Bool := q == 1 || q == 4

/-- MGT_BUS_ARBITRATE: one beat of the bus: the requesters with a beat to send, those whose beat carries the lock mark, and
those that have another beat behind it. -/
def execMgtBusArbitrate (eligible lk more : BitVec 8) (s : State) : Out :=
  let l := (List.range 8).filter fun q => eligible.getLsbD q
  match s.mgtWinner l with
  | none => .next s
  | some (q, forced) =>
    let marked := usesLocks q && lk.getLsbD q
    let owned := s.mgt.lock.any fun k => k.panel == q
    let grants := match s.mgt.lock with
      | some k => if k.panel = q then k.grants + 1 else 1
      | none => 1
    let last := decide (s.get F.MGT_ARBCFG_LOCK_MAX ≤ grants)
    let lock := if marked || owned then
        (if !marked || last || !more.getLsbD q then none else some { panel := q, grants })
      else s.mgt.lock
    let s := if forced then s.addSat F.MGT_ARBSTAT_FORCED F.MGT_ARBSTAT_SAT 1 else s
    let s := if marked && last then s.addSat F.MGT_ARBSTAT_LOCKMAX F.MGT_ARBSTAT_SAT 1 else s
    .next { s with mgt := { s.mgt with waits := waitAfter s.mgt.waits l q, pointer := (q + 1) % 8, lock } }

/-- MGT_SW_RST: a write of 1 to MGT_CTL.SW_RST. -/
def execMgtSwRst (s : State) : Out := .next (s.ifClocked .MGT_CTL 0 0 State.resetMgt)

end Sys2Proof.Machine
end

