-- ==== Sys2Proof/Machine/Memory.lean ====
section
/-!
DEFINITION. The memory class 0x2 and the tile accesses of class 0x9: scalar loads and stores, atomics, tld and tst
(02 R63, R64; 03 R108 to R117; 04 R173, R174; 15 R533, R556 to R558).
-/

namespace Sys2Proof.Machine

/-! ### Checks at issue (03 R111) -/

/-- The core whose window an offset of register space lies in. -/
def registerCore (o : Nat) : Option Lcn :=
  if 0x100000000 ≤ o ∧ o < 0x100000000 + 0x4000 * 0x100000 then some (BitVec.ofNat 20 ((o - 0x100000000) / 0x4000))
  else none

/-- The core that a target outside the issuing core names. -/
def Target.core (g : Target) (a : Word) : Option Lcn :=
  match g with
  | .remote d => some d
  | .registers => registerCore (a.toNat % 2 ^ 48)
  | _ => none

/-- A target refuses the size of an access, or that it is an atomic (03 Table 3.8, 04 R173). -/
def Target.refuses (g : Target) (bytes : Nat) (atomic : Bool) : Bool :=
  match g with
  | .own _ | .remote _ | .nowhere => false
  | .far | .host => atomic
  | .ownWindow _ | .registers => atomic || bytes != 8

/-- The issue traps of an access, of which the lowest is taken (03 R111, R136). -/
def State.accessTrap (s : State) (c : Lcn) (pc : Nat) (a : Word) (bytes : Nat) (atomic : Bool) : Option TrapInfo :=
  let g := s.target c a
  let gusset := match g.core a with
    | some d => if isGusset d then some d else none
    | none => none
  firstTrap [
    (a.toNat % bytes != 0, { cause := 2, sub := 0, pc, info := bytes, addr := a.toNat }),
    (g == .nowhere, { cause := 3, sub := 0, pc, addr := a.toNat }),
    (g.refuses bytes atomic, { cause := 3, sub := 1, pc, addr := a.toNat }),
    (gusset.isSome, { cause := 4, sub := 0, pc, info := (gusset.getD 0).toNat, addr := a.toNat })]

/-- A target that the issuing core serves itself, without a tag. -/
def Target.isOwn (g : Target) : Bool :=
  match g with
  | .own _ | .ownWindow _ => true
  | _ => false

/-- The stall of an access that needs a tag; one that traps needs none. -/
def State.accessStall (s : State) (x : Issue) (a : Word) (bytes : Nat) (atomic : Bool) : Option Nat :=
  let c := x.core
  if (s.accessTrap c (s.thread c x.thread).pc a bytes atomic).isSome || (s.target c a).isOwn then none
  else s.tagStall c x.thread

/-- What an access takes from its instruction: its length, the registers it reads or writes beside its address register,
that register, PI, the byte offset, the bytes it covers, and whether it is an atomic. -/
structure MemAccess where
  len : Nat
  regs : List RegRef
  a : Fin 16
  pi : Bool
  off : Word
  bytes : Nat
  atomic : Bool := false
  /-- It writes memory, and it is an instruction of the T pipe. -/
  writes : Bool := false
  tPipe : Bool := false

/-- The port that an access takes at the banks of its own core: a load and an atomic the read port, a store the write port (02
R60). -/
def State.accessNeeds (s : State) (x : Issue) (q : MemAccess) (a : Word) : Needs :=
  match s.target x.core a with
  | .own _ => if q.writes then .write else .read q.tPipe
  | _ => .none

/-- The address that an access of a thread uses. -/
def MemAccess.address (q : MemAccess) (th : Thread) : Word := th.address q.a q.pi q.off

/-- An access offered by a thread: its issue traps, the address register with PI, and then what it does at its target. -/
def State.access (s : State) (x : Issue) (q : MemAccess) (act : Thread → Target → Word → State → Act) : State :=
  let c := x.core
  s.issue x q.len q.regs (s.accessStall x (q.address (s.thread c x.thread)) q.bytes q.atomic) (fun th s =>
    let a := q.address th
    match s.accessTrap c th.pc a q.bytes q.atomic with
    | some r => .trap r
    | none => act th (s.target c a) a (s.setThread c x.thread (th.postIncrement q.a q.pi q.off)))
    false (s.accessNeeds x q (q.address (s.thread c x.thread)))

/-! ### Packets of accesses -/

/-- Destination, route target and fence destination of an access that leaves the core. -/
def State.accessRoute (s : State) (c : Lcn) (a : Nat) : Lcn × Lcn × Nat :=
  match s.memoryRoute c a with
  | some r => r
  | none =>
    let r := s.registerRoute c (a % 2 ^ 48)
    (r.1, if 2 ^ 22 ≤ r.2 then s.routeTarget r.1 else r.1, r.2)

/-- The address that an access's packet carries: a shadow's SRAM address names the core it reaches (15 R556). -/
def accessArg (d : Lcn) (a : Nat) : Nat := if a < 2 ^ 36 then d.toNat * 65536 + a % 65536 else a

/-- An access sent as a packet under a tag. -/
def State.sendAccess (s : State) (x : Issue) (pc : Nat) (a : Word) (op : TagOp) (typ : PacketType)
    (opc flits body : Nat) (f : Bool) (w4 : Bool := false) : State :=
  let (d, rt, fence) := s.accessRoute x.core a.toNat
  let (s, tag, gen) := s.takeTag x.core x.thread pc a op fence [] d
  s.send { s.requestTo x typ d tag gen with
    rt, fence, f, opc, arg := accessArg d a.toNat + bit w4 * 2 ^ 63, flits, body }

/-- The size code of a packet (08 Table 8.3). -/
def sizeCode (bytes : Nat) : Nat :=
  match bytes with
  | 1 => 0
  | 2 => 1
  | 4 => 2
  | 8 => 3
  | _ => 4

/-- The core that a store's or an atomic's digest names: that of its SRAM target, as the program names it. -/
def digestCore (a : Word) : Nat := if a.toNat < 2 ^ 36 then a.toNat / 65536 else 0

/-- A shadow's network interface answers the write itself (15 R557). -/
def State.shadowAnswers (s : State) (c : Lcn) (g : Target) : Bool :=
  s.flag F.INT_DUPSTAT_SHADOW c.toNat && (g == .far || g == .host)

/-! ### Loads -/

/-- A load of the scalar class. -/
def State.loadOp (s : State) (x : Issue) (size : Size) (signed : Bool) (rd : Fin 32) (a : Fin 16) (pi f : Bool)
    (off : Off) : State :=
  let c := x.core
  let n := size.bytes
  s.access x { len := off.len, regs := [.s rd], a, pi, off := off.value n, bytes := n } fun th g ad s =>
    let next := th.pc + off.len
    let write (s : State) (v : Word) : State := s.setThread c x.thread ((s.thread c x.thread).writeS rd v)
    match g with
    | .own o =>
      if !s.tileGood c (o / 256) then
        .late (s.tileFailed c (o / 256) 1) next (checkTrap th.pc (o / 256) ad)
      else .done (write s (extendLoad n signed (s.readSram c o n))) next
    | .ownWindow o =>
      let (v, s) := s.readSpace (windowAt c o)
      .done (write s (BitVec.ofNat 64 v)) next
    | _ => .done (s.sendAccess x th.pc ad (.load rd n signed) .rd (sizeCode n) 0 0 f) next

/-- LD: a sign-extending load. -/
def execLd (x : Issue) (size : Size) (rd : Fin 32) (a : Fin 16) (pi f : Bool) (off : Off) (s : State) : Out :=
  .next (s.loadOp x size true rd a pi f off)

/-- LDU: a zero-extending load. -/
def execLdu (x : Issue) (size : Size) (rd : Fin 32) (a : Fin 16) (pi f : Bool) (off : Off) (s : State) : Out :=
  .next (s.loadOp x size false rd a pi f off)

/-! ### Stores -/

/-- A store to the issuing core's own window: a write of CORE_CTL with SW_RST leaves nothing of it; where the written value
is not defined the store answers the fault of `storeFaults` instead. -/
def State.storeWindow (s : State) (c : Lcn) (t : Fin 4) (o v next : Nat) : Act :=
  let p := windowAt c o
  match s.writeSpace (0x10000000 + o) p t v with
  | .next s' =>
    match p with
    | .reg .CORE_CTL _ _ => if F.CORE_CTL_SW_RST.slice 0 v = 1 then .gone s' else .done s' next
    | _ => .done s' next
  | _ => .done s next

/-- What a store writes at its target. -/
def State.storeAt (s : State) (x : Issue) (pc next n : Nat) (f : Bool) (g : Target) (a v : Word) : Act :=
  let c := x.core
  let data := v.toNat % 2 ^ (8 * n)
  let fold (s : State) : State := s.foldDigest c x.thread 1 (digestCore a) a.toNat data n
  match g with
  | .own o =>
    if !s.tileGood c (o / 256) then
      .late (s.tileFailed c (o / 256) 4) next (checkTrap pc (o / 256) a)
    else .done (((fold s).writeSram c o data n).stored c x.thread o n) next
  | .ownWindow o => (fold s).storeWindow c x.thread o v.toNat next
  | _ =>
    let s := fold s
    if s.shadowAnswers c g then .done s next
    else .done (s.sendAccess x pc a .store .wr (sizeCode n) 1 data f) next

/-- A store of a thread. -/
def storeAccess (size : Size) (rd : Fin 32) (a : Fin 16) (pi : Bool) (off : Off) : MemAccess :=
  { len := off.len, regs := [.s rd], a, pi, off := off.value size.bytes, bytes := size.bytes, writes := true }

/-- A store that writes a value the register's Meaning column does not define to a register of its own window
(00 R6). -/
def State.storeFaults (s : State) (x : Issue) (q : MemAccess) (rd : Fin 32) : Bool :=
  let c := x.core
  let th := s.thread c x.thread
  let a := q.address th
  s.canIssue c x.thread && decide (th.pc + q.len ≤ 0x2000) && (s.holdUp x q.regs none .none).isNone && th.guard x &&
    (s.accessTrap c th.pc a q.bytes false).isNone &&
    match s.target c a with
    | .ownWindow o =>
      match s.writeSpace (0x10000000 + o) (windowAt c o) x.thread (th.readS rd).toNat with
      | .fault _ => true
      | _ => false
    | _ => false

/-- ST: stores the low bytes of s[RD]. -/
def execSt (x : Issue) (size : Size) (rd : Fin 32) (a : Fin 16) (pi f : Bool) (off : Off) (s : State) : Out :=
  let q := storeAccess size rd a pi off
  if s.storeFaults x q rd then .fault .undefinedFieldValue
  else .next (s.access x q fun th g ad s => s.storeAt x th.pc (th.pc + q.len) q.bytes f g ad (th.readS rd))

/-! ### Atomics (03 R113) -/

/-- The value an atomic leaves in memory, by its operation in the order of 03 Table 3.7. -/
def amoApply {w : Nat} (op : Nat) (old x y : BitVec w) : BitVec w :=
  match op with
  | 0 => old + x
  | 1 => x
  | 2 => old &&& x
  | 3 => old ||| x
  | 4 => old ^^^ x
  | 5 => if old.slt x then old else x
  | 6 => if x.slt old then old else x
  | _ => if old = x then y else old

/-- An atomic on a tile that passes its check: the old value, and the state with the new one written. -/
def State.atomicAt (s : State) (c : Lcn) (off bytes op x y : Nat) : Nat × State :=
  let old := s.readSram c off bytes
  let v := amoApply op (BitVec.ofNat (8 * bytes) old) (BitVec.ofNat (8 * bytes) x) (BitVec.ofNat (8 * bytes) y)
  (old, s.writeSram c off v.toNat bytes)

/-- Bytes of an atomic. -/
def amoBytes (w4 : Bool) : Nat := if w4 then 4 else 8

/-- An atomic of a thread; amocas (operation 7) also reads s[RD + 1]. -/
def State.amo (s : State) (op : Nat) (x : Issue) (w4 : Bool) (rd : Fin 32) (a : Fin 16) (pi f : Bool) (off : Off) :
    State :=
  let c := x.core
  let n := amoBytes w4
  let r1 : Fin 32 := Fin.ofNat 32 (rd.val + 1)
  let regs : List RegRef := if op = 7 then [.s rd, .s r1] else [.s rd]
  s.access x { len := off.len, regs, a, pi, off := off.value n, bytes := n, atomic := true } fun th g ad s =>
    let next := th.pc + off.len
    let v := (th.readS rd).toNat % 2 ^ (8 * n)
    let y := if op = 7 then (th.readS r1).toNat % 2 ^ (8 * n) else 0
    let data := v + y * 2 ^ 64
    let len := if op = 7 then 8 + n else n
    let fold (s : State) : State := s.foldDigest c x.thread 2 (digestCore ad) ad.toNat data len
    match g with
    | .own o =>
      if !s.tileGood c (o / 256) then
        .late (s.tileFailed c (o / 256) 1) next (checkTrap th.pc (o / 256) ad)
      else
        let (old, s) := (fold s).atomicAt c o n op v y
        let s := s.stored c x.thread o n
        .done (s.setThread c x.thread ((s.thread c x.thread).writeS rd (extendLoad n true old))) next
    | _ => .done ((fold s).sendAccess x th.pc ad (.amo rd w4) .amo op (if op = 7 then 2 else 1) data f w4) next

/-- AMOADD. -/
def execAmoadd (x : Issue) (w4 : Bool) (rd : Fin 32) (a : Fin 16) (pi f : Bool) (off : Off) (s : State) : Out :=
  .next (s.amo 0 x w4 rd a pi f off)

/-- AMOSWAP. -/
def execAmoswap (x : Issue) (w4 : Bool) (rd : Fin 32) (a : Fin 16) (pi f : Bool) (off : Off) (s : State) : Out :=
  .next (s.amo 1 x w4 rd a pi f off)

/-- AMOAND. -/
def execAmoand (x : Issue) (w4 : Bool) (rd : Fin 32) (a : Fin 16) (pi f : Bool) (off : Off) (s : State) : Out :=
  .next (s.amo 2 x w4 rd a pi f off)

/-- AMOOR. -/
def execAmoor (x : Issue) (w4 : Bool) (rd : Fin 32) (a : Fin 16) (pi f : Bool) (off : Off) (s : State) : Out :=
  .next (s.amo 3 x w4 rd a pi f off)

/-- AMOXOR. -/
def execAmoxor (x : Issue) (w4 : Bool) (rd : Fin 32) (a : Fin 16) (pi f : Bool) (off : Off) (s : State) : Out :=
  .next (s.amo 4 x w4 rd a pi f off)

/-- AMOMIN, signed. -/
def execAmomin (x : Issue) (w4 : Bool) (rd : Fin 32) (a : Fin 16) (pi f : Bool) (off : Off) (s : State) : Out :=
  .next (s.amo 5 x w4 rd a pi f off)

/-- AMOMAX, signed. -/
def execAmomax (x : Issue) (w4 : Bool) (rd : Fin 32) (a : Fin 16) (pi f : Bool) (off : Off) (s : State) : Out :=
  .next (s.amo 6 x w4 rd a pi f off)

/-- AMOCAS: s[RD] is compared and s[RD + 1] is written; RD is even (03 R109). -/
def execAmocas (x : Issue) (w4 : Bool) (rd : Fin 32) (a : Fin 16) (pi f : Bool) (off : Off) (s : State) : Out :=
  .next (s.amo 7 x w4 rd a pi f off)

/-! ### Tile accesses (04 R173, R174) -/

/-- TILE_LD: t[TD] from 256 bytes. -/
def execTileLd (x : Issue) (td : Fin 8) (a : Fin 16) (pi f : Bool) (off : TileOff) (s : State) : Out :=
  let c := x.core
  .next (s.access x { len := off.len, regs := [.t td], a, pi, off := off.value, bytes := 256, tPipe := true }
    fun th g ad s =>
    let next := th.pc + off.len
    match g with
    | .own o =>
      if !s.tileGood c (o / 256) then
        .late (s.tileFailed c (o / 256) 1) next (checkTrap th.pc (o / 256) ad)
      else .done (s.setThread c x.thread ((s.thread c x.thread).writeT td (s.readTile c (o / 256)))) next
    | _ => .done (s.sendAccess x th.pc ad (.tileLoad td) .rd 4 0 0 f) next)

/-- TILE_ST: t[TD] to 256 bytes; a whole-tile write needs no check. -/
def execTileSt (x : Issue) (td : Fin 8) (a : Fin 16) (pi f : Bool) (off : TileOff) (s : State) : Out :=
  let c := x.core
  .next (s.access x { len := off.len, regs := [.t td], a, pi, off := off.value, bytes := 256, writes := true, tPipe := true }
    fun th g ad s =>
    let next := th.pc + off.len
    let data := th.readT td
    let s := s.foldDigest c x.thread 1 (digestCore ad) ad.toNat data.toNat 256
    match g with
    | .own o => .done ((s.writeTile c (o / 256) data).stored c x.thread o 256) next
    | _ =>
      if s.shadowAnswers c g then .done s next
      else .done (s.sendAccess x th.pc ad .tileStore .wr 4 32 data.toNat f) next)

end Sys2Proof.Machine
end

