-- ==== Sys2Proof/Machine/Packet.lean ====
section
/-!
DEFINITION. The arrival of each packet type: requests served at cores, blocks and the host port, and replies taken by
threads and engines (02 R72 to R79; 03 R112, R115, R119; 08 R297 to R303, R326 to R328; 09 R346, R366, R369;
15 R533, R534, R539; 18 R611).
-/

namespace Sys2Proof.Machine

/-! ### Requests to blocks of register space and to host memory -/

/-- A request that reaches the attachment of a block: host-memory requests go on to the host port, register requests are
served by `f`; far-memory requests are served by SEL_REQUEST. -/
def State.serveBlock (s : State) (p : Packet) (f : Packet → State → Out) : Out :=
  if (decide (2 ^ 23 ≤ p.fence) && p.fence != 2 ^ 23 + 100) || !s.replyRoom p.pos then .next s
  else
    let s := s.dropPacket p.id
    if !p.good then .next (s.replyErr p 0x20 0)
    else if p.fence = 2 ^ 23 + 100 then .next (s.hostMemRequest p)
    else f p s

/-- The offset of register space that a request names. -/
def Packet.offset (p : Packet) : Nat := p.arg % 2 ^ 48

/-- The offset that a GATED access records: within BAR0, a window at its place in the aperture. -/
def gatedOffset (o : Nat) : Nat :=
  match registerCore o with
  | some c => blockOffset .core c.toNat + o % 0x4000
  | none => o

/-- A read of register space by a thread: refused with 0x01, GATED, or answered (07 R258, 18 R611). -/
def State.readRegisters (s : State) (p : Packet) : State :=
  let place := regSpaceAt p.offset
  if !s.threadReads p.src p.ld place then s.replyErr p 1 0
  else if !s.placeClocked place then (s.gatedError (gatedOffset p.offset)).replyErr p 8 0
  else
    let (v, s) := s.readSpace place
    s.reply p p.pos .rdr 3 0 1 v

/-- A write of register space by a thread. -/
def State.writeRegisters (s : State) (p : Packet) : Out :=
  let place := regSpaceAt p.offset
  if !s.threadWrites p.src place then .next (s.replyErr p 1 0)
  else if !s.placeClocked place then .next ((s.gatedError (gatedOffset p.offset)).replyErr p 8 0)
  else match s.writeSpace p.offset place p.sth p.body with
    | .next s' => .next (s'.replyAck p)
    | o => o

/-- The request names a core's window. -/
def Packet.toWindow (p : Packet) : Bool := decide (2 ^ 22 ≤ p.fence) && decide (p.fence < 2 ^ 23)

/-! ### Requests to a core's SRAM -/

/-- Bytes of a size code (08 Table 8.3). -/
def sizeOf (opc : Nat) : Nat :=
  match opc % 8 with
  | 0 => 1
  | 1 => 2
  | 2 => 4
  | 3 => 8
  | _ => 256

/-- A tile that fails its check at the target of a remote access (15 Table 15.2). -/
def State.badTarget (s : State) (c : Lcn) (p : Packet) (tile : Nat) : State :=
  (s.tileFailed c tile 2).replyErr p 0x21 tile

/-- A read of SRAM served. -/
def State.serveRead (s : State) (c : Lcn) (p : Packet) : State :=
  let off := p.arg % 65536
  let n := sizeOf p.opc
  if !s.tileGood c (off / 256) then s.badTarget c p (off / 256)
  else if n = 256 then s.reply p p.pos .rdr (p.opc % 8) 0 32 (s.readTile c (off / 256)).toNat
  else s.reply p p.pos .rdr (p.opc % 8) 0 1 (s.readSram c off n)

/-- A write of SRAM served; a whole tile needs no check. -/
def State.serveWrite (s : State) (c : Lcn) (p : Packet) : State :=
  let off := p.arg % 65536
  let n := sizeOf p.opc
  if n = 256 then ((s.spoolSave p c (off / 256)).writeTile c (off / 256) (BitVec.ofNat 2048 p.body)).replyAck p
  else if !s.tileGood c (off / 256) then s.badTarget c p (off / 256)
  else (s.writeSram c off (p.body % 2 ^ (8 * n)) n).replyAck p

/-- An atomic of SRAM served: its acknowledgement carries the old value. -/
def State.serveAtomic (s : State) (c : Lcn) (p : Packet) : State :=
  let off := p.arg % 65536
  if !s.tileGood c (off / 256) then s.badTarget c p (off / 256)
  else
    let (old, s) := s.atomicAt c off (amoBytes (p.arg.testBit 63)) p.opc (p.body % 2 ^ 64) (p.body / 2 ^ 64)
    s.reply p p.pos .ack 0 0 1 old

/-! ### The request packets -/

/-- RD: a read arrives. -/
def execRd (pkt : Nat) (s : State) : Out :=
  match s.atDest pkt .rd with
  | none => .next s
  | some p =>
    if p.toBlock then s.serveBlock p fun p s => .next (s.readRegisters p)
    else .next (s.serve pkt .rd fun c p s =>
      if p.toWindow then s.readRegisters p else s.guarded c p fun s => s.serveRead c p)

/-- WR: a write arrives; one that writes an undefined value to a register faults (00 R6). -/
def execWr (pkt : Nat) (s : State) : Out :=
  match s.atDest pkt .wr with
  | none => .next s
  | some p =>
    if p.toBlock then s.serveBlock p fun p s => s.writeRegisters p
    else if p.toWindow then
      -- `serve` answers a state; the fault of the write is found beside it
      let served := s.serve pkt .wr fun _ p s => match s.writeRegisters p with
        | .next s' => s'
        | _ => s
      let faults := match s.servingCore p.pos with
        | some c => s.accepts c p && p.good && p.dst == c && !s.inReset c p &&
            (match s.writeRegisters p with | .fault _ => true | _ => false)
        | none => false
      if faults then .fault .undefinedFieldValue else .next served
    else .next (s.serve pkt .wr fun c p s => s.guarded c p fun s => s.serveWrite c p)

/-- AMO: an atomic arrives (03 R113). -/
def execAmo (pkt : Nat) (s : State) : Out :=
  .next (s.serve pkt .amo fun c p s => s.guarded c p fun s => s.serveAtomic c p)

/-- MSG: a message arrives (09 R345 to R350). -/
def execMsg (pkt : Nat) (s : State) : Out :=
  .next (s.serve pkt .msg fun c p s => s.guarded c p fun s => s.takeMessage c p)

/-- A tack signal of a packet, with its last signaller by 09 Table 9.4. -/
def State.packetSignal (s : State) (c : Lcn) (p : Packet) : State :=
  let engine := match p.sender with
    | .engine | .ringUnit => true
    | _ => false
  s.signal c (Fin.ofNat 32 p.arg) (p.opc == 1) (BitVec.ofNat 32 (p.arg / 2 ^ 32)) (bit engine) (threadId p.src p.sth)

/-- TSIG_PACKET: a signal arrives, is applied and is then acknowledged (09 R369). -/
def execTsigPacket (pkt : Nat) (s : State) : Out :=
  match s.atDest pkt .tsig with
  | none => .next s
  | some p =>
    .next (if p.opc = 8 then s
      else s.serve pkt .tsig fun c p s => s.guarded c p fun s => (s.packetSignal c p).replyAck p)

/-- PROBE: answered with its counts (08 R328). -/
def execProbe (pkt : Nat) (s : State) : Out :=
  .next (s.serve pkt .probe fun _ p s =>
    s.reply p p.pos .prober 0 (p.hops % 4096 + p.seams % 32 * 4096) 0 0)

/-! ### Broadcasts (08 R326) -/

/-- The place of a broadcast in its span. -/
def Span.place (r : Span) (d : Lcn) : Nat :=
  if r.column then rowOf d - rowOf r.first else colOf d - colOf r.first

/-- The acknowledgement of a broadcast after a core that has written the tile. -/
def castWritten (arg : Nat) : Nat := arg / 256 * 256 + (arg % 256 + 1) % 256

/-- The acknowledgement after an unbacked position or a refusing core; the first of the span stays described. -/
def castBad (arg : Nat) (refused : Bool) (code : Nat) (d : Lcn) : Nat :=
  let b := if refused then 9 else 8
  let v := if arg.testBit b then arg else arg + 2 ^ b
  if arg.testBit 8 || arg.testBit 9 then v
  else v + bit refused * 2 ^ 10 + code % 256 * 2 ^ 12 + d.toNat * 2 ^ 20

/-- A broadcast goes on to the next core of its span, or the last core's acknowledgement starts back and the first core
sends it to the sender. -/
def State.castOn (s : State) (p : Packet) (arg : Nat) : State :=
  let r := spanOf (p.arg / 65536)
  let i := r.place p.dst + 1
  if i < r.count then
    s.setPacket { p with dst := r.at_ i, rt := s.routeTarget (r.at_ i), req := arg }
  else
    (s.dropPacket p.id).reply { p with dst := r.first, req := 0 } (s.routeTarget r.first) .ncasta 0 arg 0 0

/-- Why a backed core refuses a broadcast. -/
def State.castRefusal (s : State) (c : Lcn) (p : Packet) : Option Nat :=
  if s.inReset c p then some 4
  else if !s.inPartition p.ld (fieldOf c) then some 2
  else if !s.clocked c then some 8
  else none

/-- A broadcast at a backed core of its span. -/
def State.castAt (s : State) (c : Lcn) (p : Packet) : State :=
  match s.castRefusal c p with
  | some 8 => (s.gatedError (blockOffset .core c.toNat)).castOn p (castBad p.req true 8 c)
  | some code => s.castOn p (castBad p.req true code c)
  | none => (s.writeTile c (p.arg % 65536 / 256) (BitVec.ofNat 2048 p.body)).castOn p (castWritten p.req)

/-- Why a position of a span holds no backed core. -/
def State.castAbsent (s : State) (p : Packet) : Option Nat :=
  if isGusset p.dst then some 0 else s.absentAt p.pos

/-- NCAST_PACKET: a broadcast arrives at a core of its span, is written there and passed on. -/
def execNcastPacket (pkt : Nat) (s : State) : Out :=
  match s.atDest pkt .ncast with
  | none => .next s
  | some p =>
    .next (match s.castAbsent p with
      | some sub => s.castOn p (castBad p.req false sub p.pos)
      | none => match s.servingCore p.pos with
        | none => s
        | some c =>
          if !s.accepts c p then s
          else if !p.good then (s.dropPacket pkt).badPacket c p
          else s.castAt c p)

/-! ### Replies -/

/-- The trap of an error code (08 R298; 13 R468; 14 R511; 15 R534; 18 R611): cause, subcode, detail. A packet-check failure
names no tile, so its detail is 0 (DESIGN CHOICE, log entry 46). -/
def errTrap (arg : Nat) : Nat × Nat × Nat :=
  let code := arg % 256
  if code = 0x20 then (6, 2, 0)
  else if code = 0x21 then (6, 1, arg / 256 % 256)
  else if code = 8 then (5, 1, code)
  else if 0x40 ≤ code ∧ code ≤ 0x46 then (5, 2, code)
  else if 0x50 ≤ code ∧ code ≤ 0x54 then (5, 3, code)
  else (5, 0, code)

/-- The trap of a failed reply. -/
def Packet.failure (p : Packet) : Nat × Nat × Nat :=
  match p.typ with
  | .unb => (4, p.arg % 4, p.src.toNat)
  | .rstr => (5, 0, 4)
  | _ => errTrap p.arg

/-- A response trap of a thread's operation. -/
def State.failTag (s : State) (c : Lcn) (g : Tag) (e : Nat × Nat × Nat) : State :=
  s.trapResponse c g.thread (g.trapInfo e.1 e.2.1 e.2.2)

/-- The first bad core of a column broadcast, by place in the span. -/
def earlier (a b : Option (Nat × Nat × Nat × Nat)) : Option (Nat × Nat × Nat × Nat) :=
  match a, b with
  | some x, some y => if x.1 ≤ y.1 then a else b
  | some _, none => a
  | none, _ => b

/-- An answer to one write of a column broadcast: the tag ends with the last of them, and the thread traps for the first bad
core of the span (08 R327). -/
def State.legAnswer (s : State) (c : Lcn) (p : Packet) (place : Nat) (bad : Option (Nat × Nat × Nat)) : State :=
  match s.answered c p with
  | none => s.lateReply c p
  | some g =>
    match g.op with
    | .ncastWrites left first =>
      let new : Option (Nat × Nat × Nat × Nat) := bad.map fun e => (place, e.1, e.2.1, e.2.2)
      let first := earlier first new
      if left ≤ 1 then
        let s := s.endTag c p.tag
        match first with
        | some e => s.failTag c g (e.2.1, e.2.2.1, e.2.2.2)
        | none => s
      else s.setTag c p.tag { g with op := .ncastWrites (left - 1) first }
    | _ => s

/-- A reply handed to who sent its request: a thread's tag, a leg of a column broadcast, a spool engine or a ring unit;
`bad` is the trap that a failed reply brings. -/
def State.deliverReply (s : State) (c : Lcn) (p : Packet) (bad : Option (Nat × Nat × Nat)) (f : Tag → State → State) :
    State :=
  match p.sender with
  | .thread => s.answer c p fun g s => match bad with
    | some e => s.failTag c g e
    | none => f g s
  | .ncastLeg i => s.legAnswer c p i bad
  | .spool id k w => s.spoolAnswer id k w bad.isNone p.body
  | .ringUnit => s.ringAnswer c p.req bad.isNone
  | .engine | .spoolDone | .merge _ => s

/-- What a reply's value writes (03 R115). -/
def Thread.writeAnswer (th : Thread) (op : TagOp) (v : Nat) : Thread :=
  match op with
  | .load rd bytes signed => th.writeS rd (extendLoad bytes signed v)
  | .tileLoad td => th.writeT td (BitVec.ofNat 2048 v)
  | .amo rd w4 => th.writeS rd (extendLoad (amoBytes w4) true v)
  | _ => th

/-- A value written by a reply: even a STOPPED thread's registers take it (02 R79). -/
def State.writeAnswer (s : State) (c : Lcn) (g : Tag) (v : Nat) : State :=
  s.setThread c g.thread ((s.thread c g.thread).writeAnswer g.op v)

/-- RDR. -/
def execRdr (pkt : Nat) (s : State) : Out :=
  .next (s.receive pkt .rdr fun c p s => s.deliverReply c p none fun g s => s.writeAnswer c g p.body)

/-- ACK. -/
def execAck (pkt : Nat) (s : State) : Out :=
  .next (s.receive pkt .ack fun c p s => s.deliverReply c p none fun g s => s.writeAnswer c g p.body)

/-- ERR. -/
def execErr (pkt : Nat) (s : State) : Out :=
  .next (s.receive pkt .err fun c p s => s.deliverReply c p (some p.failure) fun _ s => s)

/-- UNB. -/
def execUnb (pkt : Nat) (s : State) : Out :=
  .next (s.receive pkt .unb fun c p s => s.deliverReply c p (some p.failure) fun _ s => s)

/-- RSTR. -/
def execRstr (pkt : Nat) (s : State) : Out :=
  .next (s.receive pkt .rstr fun c p s => s.deliverReply c p (some p.failure) fun _ s => s)

/-- PROBER: the round trip in [63:32] is a count of cycles, so it is free (08 R328; log entry 7). -/
def execProber (pkt : Nat) (s : State) : Out :=
  .next (s.receive pkt .prober fun c p s => s.deliverReply c p none fun g s =>
    match g.op with
    | .nprobe rd =>
      let (cc, s) := s.free 32
      let v := BitVec.ofNat 64 (cc.toNat * 2 ^ 32 + p.arg % 2 ^ 17)
      s.setThread c g.thread ((s.thread c g.thread).writeS rd v)
    | _ => s)

/-- The trap of a broadcast's acknowledgement: none where every core of the span wrote the tile. -/
def castTrap (arg : Nat) : Option (Nat × Nat × Nat) :=
  if !(arg.testBit 8 || arg.testBit 9) then none
  else if arg.testBit 10 then
    let code := bits arg 19 12
    some (5, bit (decide (code = 8)), code)
  else some (4, bits arg 19 12 % 4, bits arg 39 20)

/-- NCASTA: the acknowledgement of a broadcast, with one trap for the first bad core (08 R326). -/
def execNcasta (pkt : Nat) (s : State) : Out :=
  .next (s.receive pkt .ncasta fun c p s => s.deliverReply c p (castTrap p.arg) fun _ s => s)

end Sys2Proof.Machine
end

