-- ==== Sys2Proof/Machine/Predicate.lean ====
section
/-!
DEFINITION. The predicate class 0x4 (03 R685, Table 3.17).
-/

namespace Sys2Proof.Machine

/-- Shared form of the register compares: PD = condition of s[RS1] and s[RS2]. -/
def State.compare (s : State) (x : Issue) (pd : Fin 8) (rs1 rs2 : Fin 32) (k : Cond) : State :=
  s.issueLocal x 4 [.s rs1, .s rs2] fun th _ => th.writeP pd (k.holds (th.readS rs1) (th.readS rs2))

/-- Shared form of the immediate compares: PD = condition of s[RS1] and the sign-extended immediate. -/
def State.compareImm (s : State) (x : Issue) (pd : Fin 8) (rs1 : Fin 32) (i : CmpImm) (k : Cond) : State :=
  s.issueLocal x i.len [.s rs1] fun th _ => th.writeP pd (k.holds (th.readS rs1) i.value)

/-- Shared form of the logic operations: PD = f(PA, PB). -/
def State.logic (s : State) (x : Issue) (pd pa pb : Fin 8) (f : Bool → Bool → Bool) : State :=
  s.issueLocal x 4 [] fun th _ => th.writeP pd (f (th.readP pa) (th.readP pb))

/-- CMP_EQ. -/
def execCmpEq (x : Issue) (pd : Fin 8) (rs1 rs2 : Fin 32) (s : State) : Out :=
  .next (s.compare x pd rs1 rs2 .eq)

/-- CMP_NE. -/
def execCmpNe (x : Issue) (pd : Fin 8) (rs1 rs2 : Fin 32) (s : State) : Out :=
  .next (s.compare x pd rs1 rs2 .ne)

/-- CMP_LT. -/
def execCmpLt (x : Issue) (pd : Fin 8) (rs1 rs2 : Fin 32) (s : State) : Out :=
  .next (s.compare x pd rs1 rs2 .lt)

/-- CMP_GE. -/
def execCmpGe (x : Issue) (pd : Fin 8) (rs1 rs2 : Fin 32) (s : State) : Out :=
  .next (s.compare x pd rs1 rs2 .ge)

/-- CMP_LTU. -/
def execCmpLtu (x : Issue) (pd : Fin 8) (rs1 rs2 : Fin 32) (s : State) : Out :=
  .next (s.compare x pd rs1 rs2 .ltu)

/-- CMP_GEU. -/
def execCmpGeu (x : Issue) (pd : Fin 8) (rs1 rs2 : Fin 32) (s : State) : Out :=
  .next (s.compare x pd rs1 rs2 .geu)

/-- CMPI_EQ. -/
def execCmpiEq (x : Issue) (pd : Fin 8) (rs1 : Fin 32) (i : CmpImm) (s : State) : Out :=
  .next (s.compareImm x pd rs1 i .eq)

/-- CMPI_NE. -/
def execCmpiNe (x : Issue) (pd : Fin 8) (rs1 : Fin 32) (i : CmpImm) (s : State) : Out :=
  .next (s.compareImm x pd rs1 i .ne)

/-- CMPI_LT. -/
def execCmpiLt (x : Issue) (pd : Fin 8) (rs1 : Fin 32) (i : CmpImm) (s : State) : Out :=
  .next (s.compareImm x pd rs1 i .lt)

/-- CMPI_GE. -/
def execCmpiGe (x : Issue) (pd : Fin 8) (rs1 : Fin 32) (i : CmpImm) (s : State) : Out :=
  .next (s.compareImm x pd rs1 i .ge)

/-- CMPI_LTU. -/
def execCmpiLtu (x : Issue) (pd : Fin 8) (rs1 : Fin 32) (i : CmpImm) (s : State) : Out :=
  .next (s.compareImm x pd rs1 i .ltu)

/-- CMPI_GEU. -/
def execCmpiGeu (x : Issue) (pd : Fin 8) (rs1 : Fin 32) (i : CmpImm) (s : State) : Out :=
  .next (s.compareImm x pd rs1 i .geu)

/-- CMPI_GT. -/
def execCmpiGt (x : Issue) (pd : Fin 8) (rs1 : Fin 32) (i : CmpImm) (s : State) : Out :=
  .next (s.compareImm x pd rs1 i .gt)

/-- CMPI_LE. -/
def execCmpiLe (x : Issue) (pd : Fin 8) (rs1 : Fin 32) (i : CmpImm) (s : State) : Out :=
  .next (s.compareImm x pd rs1 i .le)

/-- CMPI_GTU. -/
def execCmpiGtu (x : Issue) (pd : Fin 8) (rs1 : Fin 32) (i : CmpImm) (s : State) : Out :=
  .next (s.compareImm x pd rs1 i .gtu)

/-- CMPI_LEU. -/
def execCmpiLeu (x : Issue) (pd : Fin 8) (rs1 : Fin 32) (i : CmpImm) (s : State) : Out :=
  .next (s.compareImm x pd rs1 i .leu)

/-- PAND. -/
def execPand (x : Issue) (pd pa pb : Fin 8) (s : State) : Out :=
  .next (s.logic x pd pa pb fun a b => a && b)

/-- POR. -/
def execPor (x : Issue) (pd pa pb : Fin 8) (s : State) : Out :=
  .next (s.logic x pd pa pb fun a b => a || b)

/-- PXOR. -/
def execPxor (x : Issue) (pd pa pb : Fin 8) (s : State) : Out :=
  .next (s.logic x pd pa pb fun a b => a != b)

/-- PANDN. -/
def execPandn (x : Issue) (pd pa pb : Fin 8) (s : State) : Out :=
  .next (s.logic x pd pa pb fun a b => a && !b)

/-- PNOT; PB is zero. -/
def execPnot (x : Issue) (pd pa : Fin 8) (s : State) : Out :=
  .next (s.logic x pd pa 0 fun a _ => !a)

end Sys2Proof.Machine
end

