-- ==== Sys2Proof/Machine/Scalar.lean ====
section
/-!
DEFINITION. The scalar classes 0x0 and 0x1 (03 R102 to R106, Tables 3.4 and 3.5).
-/

namespace Sys2Proof.Machine

/-- A scalar operation at 64 bits, or at 32 bits with its result sign-extended (03 R103). -/
def alu (f : (w : Nat) → BitVec w → BitVec w → BitVec w) (w32 : Bool) (a b : Word) : Word :=
  if w32 then (f 32 (a.truncate 32) (b.truncate 32)).signExtend 64 else f 64 a b

/-- Shared form of the two-operand scalar operations: s[RD] = f(s[RS1], second operand). -/
def State.scalar (s : State) (x : Issue) (rd rs1 : Fin 32) (w32 : Bool) (b : Src2)
    (f : (w : Nat) → BitVec w → BitVec w → BitVec w) (needs : Needs := .none) : State :=
  let regs := match b with
    | .reg r => [.s rd, .s rs1, .s r]
    | _ => [.s rd, .s rs1]
  s.issueLocal x b.len regs (fun th _ => th.writeS rd (alu f w32 (th.readS rs1) (th.src2 b)))
    (needs := needs)

/-- Signed division toward zero: all ones for a zero divisor (03 R104). -/
def divOp (w : Nat) (a b : BitVec w) : BitVec w := if b = 0 then BitVec.allOnes w else a.sdiv b

/-- Unsigned division: all ones for a zero divisor (03 R104). -/
def divuOp (w : Nat) (a b : BitVec w) : BitVec w := if b = 0 then BitVec.allOnes w else a / b

/-- Signed remainder with the sign of the dividend; the dividend for a zero divisor (03 R104). -/
def remOp (w : Nat) (a b : BitVec w) : BitVec w := if b = 0 then a else a.srem b

/-- Unsigned remainder; the dividend for a zero divisor (03 R104). -/
def remuOp (w : Nat) (a b : BitVec w) : BitVec w := if b = 0 then a else a % b

/-- Leading zeros of the low `w` bits of a number, counted from bit w − 1. -/
def leadingZeros (w : Nat) (v : Nat) : Nat := w - (if v % 2 ^ w = 0 then 0 else Nat.log2 (v % 2 ^ w) + 1)

/-- Set bits among the low `w` bits of a number. -/
def popCount : Nat → Nat → Nat
  | 0, _ => 0
  | w + 1, v => v % 2 + popCount w (v / 2)

/-- ADD (03 Table 3.4). -/
def execAdd (x : Issue) (rd rs1 : Fin 32) (w32 : Bool) (b : Src2) (s : State) : Out :=
  .next (s.scalar x rd rs1 w32 b fun _ a b => a + b)

/-- SUB. -/
def execSub (x : Issue) (rd rs1 : Fin 32) (w32 : Bool) (b : Src2) (s : State) : Out :=
  .next (s.scalar x rd rs1 w32 b fun _ a b => a - b)

/-- AND. -/
def execAnd (x : Issue) (rd rs1 : Fin 32) (w32 : Bool) (b : Src2) (s : State) : Out :=
  .next (s.scalar x rd rs1 w32 b fun _ a b => a &&& b)

/-- OR. -/
def execOr (x : Issue) (rd rs1 : Fin 32) (w32 : Bool) (b : Src2) (s : State) : Out :=
  .next (s.scalar x rd rs1 w32 b fun _ a b => a ||| b)

/-- XOR. -/
def execXor (x : Issue) (rd rs1 : Fin 32) (w32 : Bool) (b : Src2) (s : State) : Out :=
  .next (s.scalar x rd rs1 w32 b fun _ a b => a ^^^ b)

/-- SLL: shift left by b mod w. -/
def execSll (x : Issue) (rd rs1 : Fin 32) (w32 : Bool) (b : Src2) (s : State) : Out :=
  .next (s.scalar x rd rs1 w32 b fun w a b => a <<< (b.toNat % w))

/-- SRL: logical shift right by b mod w. -/
def execSrl (x : Issue) (rd rs1 : Fin 32) (w32 : Bool) (b : Src2) (s : State) : Out :=
  .next (s.scalar x rd rs1 w32 b fun w a b => a >>> (b.toNat % w))

/-- SRA: arithmetic shift right by b mod w. -/
def execSra (x : Issue) (rd rs1 : Fin 32) (w32 : Bool) (b : Src2) (s : State) : Out :=
  .next (s.scalar x rd rs1 w32 b fun w a b => a.sshiftRight (b.toNat % w))

/-- MUL: the low w bits of the product. -/
def execMul (x : Issue) (rd rs1 : Fin 32) (w32 : Bool) (b : Src2) (s : State) : Out :=
  .next (s.scalar x rd rs1 w32 b fun _ a b => a * b)

/-- DIV. -/
def execDiv (x : Issue) (rd rs1 : Fin 32) (w32 : Bool) (b : Src2) (s : State) : Out :=
  .next (s.scalar x rd rs1 w32 b divOp .divider)

/-- DIVU. -/
def execDivu (x : Issue) (rd rs1 : Fin 32) (w32 : Bool) (b : Src2) (s : State) : Out :=
  .next (s.scalar x rd rs1 w32 b divuOp .divider)

/-- REM. -/
def execRem (x : Issue) (rd rs1 : Fin 32) (w32 : Bool) (b : Src2) (s : State) : Out :=
  .next (s.scalar x rd rs1 w32 b remOp .divider)

/-- REMU. -/
def execRemu (x : Issue) (rd rs1 : Fin 32) (w32 : Bool) (b : Src2) (s : State) : Out :=
  .next (s.scalar x rd rs1 w32 b remuOp .divider)

/-- MIN: signed minimum. -/
def execMin (x : Issue) (rd rs1 : Fin 32) (w32 : Bool) (b : Src2) (s : State) : Out :=
  .next (s.scalar x rd rs1 w32 b fun _ a b => if a.slt b then a else b)

/-- MAX: signed maximum. -/
def execMax (x : Issue) (rd rs1 : Fin 32) (w32 : Bool) (b : Src2) (s : State) : Out :=
  .next (s.scalar x rd rs1 w32 b fun _ a b => if a.slt b then b else a)

/-- MINU: unsigned minimum. -/
def execMinu (x : Issue) (rd rs1 : Fin 32) (w32 : Bool) (b : Src2) (s : State) : Out :=
  .next (s.scalar x rd rs1 w32 b fun _ a b => if a.ult b then a else b)

/-- MAXU: unsigned maximum. -/
def execMaxu (x : Issue) (rd rs1 : Fin 32) (w32 : Bool) (b : Src2) (s : State) : Out :=
  .next (s.scalar x rd rs1 w32 b fun _ a b => if a.ult b then b else a)

/-- SEL: its guard chooses the result and does not suppress it (03 R101). -/
def execSel (x : Issue) (rd rs1 : Fin 32) (w32 : Bool) (b : Src2) (s : State) : Out :=
  let regs := match b with
    | .reg r => [.s rd, .s rs1, .s r]
    | _ => [.s rd, .s rs1]
  .next (s.issueLocal x b.len regs
    (fun th _ => th.writeS rd (alu (fun _ a b => if th.guard x then a else b) w32 (th.readS rs1) (th.src2 b))) true)

/-- CLZ: leading zeros of a, w when a is zero. -/
def execClz (x : Issue) (rd rs1 : Fin 32) (w32 : Bool) (s : State) : Out :=
  .next (s.scalar x rd rs1 w32 (.imm7 0) fun w a _ => BitVec.ofNat w (leadingZeros w a.toNat))

/-- POPC: set bits of a. -/
def execPopc (x : Issue) (rd rs1 : Fin 32) (w32 : Bool) (s : State) : Out :=
  .next (s.scalar x rd rs1 w32 (.imm7 0) fun w a _ => BitVec.ofNat w (popCount w a.toNat))

/-- LHI: (IMM32 << 32) | (a & 0xFFFF_FFFF). -/
def execLhi (x : Issue) (rd rs1 : Fin 32) (imm : BitVec 32) (s : State) : Out :=
  .next (s.issueLocal x 8 [.s rd, .s rs1] fun th _ =>
    th.writeS rd ((imm.zeroExtend 64 <<< 32) ||| ((th.readS rs1).truncate 32).zeroExtend 64))

/-- The value a selector of rdsys names (03 Table 3.5), and the state that has taken any free value: CORE_CYCLES and a
running treadle phase are time, which the model leaves free (log entry 7). -/
def State.sysValue (s : State) (c : Lcn) (t : Fin 4) (sel : Fin 8) : Word × State :=
  let seen := s.seenLcn c
  let f := fieldOf c
  match sel with
  | 0 => (BitVec.ofNat 64 (threadId seen t), s)
  | 1 => (BitVec.ofNat 64 seen.toNat, s)
  | 2 => (BitVec.ofNat 64 t.val, s)
  | 3 => s.free 64
  | 4 =>
    let count := BitVec.ofNat 64 (mget 0 s.trdCopy f * 2 ^ 16)
    if mget 0 s.trdAdvances f < 2 then (count, s)
    else ((s.free 16).1.zeroExtend 64 ||| count, (s.free 16).2)
  | 5 => (BitVec.ofNat 64 ((s.core c).heldBy t), s)
  | 6 => (BitVec.ofNat 64 (s.core c).freeTags, s)
  | 7 => (BitVec.ofNat 64 (s.get F.CLK_FLDf_STAT_CUR f), s)

/-- RDSYS (03 R106). -/
def execRdsys (x : Issue) (rd : Fin 32) (sel : Fin 8) (s : State) : Out :=
  .next (s.issue x 4 [.s rd] none fun th s =>
    let v := s.sysValue x.core x.thread sel
    .done (v.2.setThread x.core x.thread (th.writeS rd v.1)) (th.pc + 4))

end Sys2Proof.Machine
end

