-- ==== Sys2Proof/Machine/Dispatch.lean ====
section
/-!
DEFINITION. The dispatch of a command to its meaning: one arm for each constructor.
-/

namespace Sys2Proof.Machine

/-- The effect of a command on everything but the queue. -/
def exec (i : Instr) (s : State) : Host.Outcome State Fault Refusal :=
  match i with
  | .add x rd rs1 w32 b => Sys2Proof.Machine.execAdd x rd rs1 w32 b s
  | .sub x rd rs1 w32 b => Sys2Proof.Machine.execSub x rd rs1 w32 b s
  | .and x rd rs1 w32 b => Sys2Proof.Machine.execAnd x rd rs1 w32 b s
  | .or x rd rs1 w32 b => Sys2Proof.Machine.execOr x rd rs1 w32 b s
  | .xor x rd rs1 w32 b => Sys2Proof.Machine.execXor x rd rs1 w32 b s
  | .sll x rd rs1 w32 b => Sys2Proof.Machine.execSll x rd rs1 w32 b s
  | .srl x rd rs1 w32 b => Sys2Proof.Machine.execSrl x rd rs1 w32 b s
  | .sra x rd rs1 w32 b => Sys2Proof.Machine.execSra x rd rs1 w32 b s
  | .mul x rd rs1 w32 b => Sys2Proof.Machine.execMul x rd rs1 w32 b s
  | .div x rd rs1 w32 b => Sys2Proof.Machine.execDiv x rd rs1 w32 b s
  | .divu x rd rs1 w32 b => Sys2Proof.Machine.execDivu x rd rs1 w32 b s
  | .rem x rd rs1 w32 b => Sys2Proof.Machine.execRem x rd rs1 w32 b s
  | .remu x rd rs1 w32 b => Sys2Proof.Machine.execRemu x rd rs1 w32 b s
  | .min x rd rs1 w32 b => Sys2Proof.Machine.execMin x rd rs1 w32 b s
  | .max x rd rs1 w32 b => Sys2Proof.Machine.execMax x rd rs1 w32 b s
  | .minu x rd rs1 w32 b => Sys2Proof.Machine.execMinu x rd rs1 w32 b s
  | .maxu x rd rs1 w32 b => Sys2Proof.Machine.execMaxu x rd rs1 w32 b s
  | .sel x rd rs1 w32 b => Sys2Proof.Machine.execSel x rd rs1 w32 b s
  | .clz x rd rs1 w32 => Sys2Proof.Machine.execClz x rd rs1 w32 s
  | .popc x rd rs1 w32 => Sys2Proof.Machine.execPopc x rd rs1 w32 s
  | .lhi x rd rs1 imm => Sys2Proof.Machine.execLhi x rd rs1 imm s
  | .rdsys x rd sel => Sys2Proof.Machine.execRdsys x rd sel s
  | .cmpEq x pd rs1 rs2 => Sys2Proof.Machine.execCmpEq x pd rs1 rs2 s
  | .cmpNe x pd rs1 rs2 => Sys2Proof.Machine.execCmpNe x pd rs1 rs2 s
  | .cmpLt x pd rs1 rs2 => Sys2Proof.Machine.execCmpLt x pd rs1 rs2 s
  | .cmpGe x pd rs1 rs2 => Sys2Proof.Machine.execCmpGe x pd rs1 rs2 s
  | .cmpLtu x pd rs1 rs2 => Sys2Proof.Machine.execCmpLtu x pd rs1 rs2 s
  | .cmpGeu x pd rs1 rs2 => Sys2Proof.Machine.execCmpGeu x pd rs1 rs2 s
  | .cmpiEq x pd rs1 imm => Sys2Proof.Machine.execCmpiEq x pd rs1 imm s
  | .cmpiNe x pd rs1 imm => Sys2Proof.Machine.execCmpiNe x pd rs1 imm s
  | .cmpiLt x pd rs1 imm => Sys2Proof.Machine.execCmpiLt x pd rs1 imm s
  | .cmpiGe x pd rs1 imm => Sys2Proof.Machine.execCmpiGe x pd rs1 imm s
  | .cmpiLtu x pd rs1 imm => Sys2Proof.Machine.execCmpiLtu x pd rs1 imm s
  | .cmpiGeu x pd rs1 imm => Sys2Proof.Machine.execCmpiGeu x pd rs1 imm s
  | .cmpiGt x pd rs1 imm => Sys2Proof.Machine.execCmpiGt x pd rs1 imm s
  | .cmpiLe x pd rs1 imm => Sys2Proof.Machine.execCmpiLe x pd rs1 imm s
  | .cmpiGtu x pd rs1 imm => Sys2Proof.Machine.execCmpiGtu x pd rs1 imm s
  | .cmpiLeu x pd rs1 imm => Sys2Proof.Machine.execCmpiLeu x pd rs1 imm s
  | .pand x pd pa pb => Sys2Proof.Machine.execPand x pd pa pb s
  | .por x pd pa pb => Sys2Proof.Machine.execPor x pd pa pb s
  | .pxor x pd pa pb => Sys2Proof.Machine.execPxor x pd pa pb s
  | .pandn x pd pa pb => Sys2Proof.Machine.execPandn x pd pa pb s
  | .pnot x pd pa => Sys2Proof.Machine.execPnot x pd pa s
  | .aadd x ad as_ sr sh => Sys2Proof.Machine.execAadd x ad as_ sr sh s
  | .asub x ad as_ sr sh => Sys2Proof.Machine.execAsub x ad as_ sr sh s
  | .aset x ad sr => Sys2Proof.Machine.execAset x ad sr s
  | .aget x sr as_ => Sys2Proof.Machine.execAget x sr as_ s
  | .aaddi x ad as_ imm => Sys2Proof.Machine.execAaddi x ad as_ imm s
  | .alocal x ad sr => Sys2Proof.Machine.execAlocal x ad sr s
  | .acore x ad as_ sr => Sys2Proof.Machine.execAcore x ad as_ sr s
  | .ld x size rd a pi f off => Sys2Proof.Machine.execLd x size rd a pi f off s
  | .ldu x size rd a pi f off => Sys2Proof.Machine.execLdu x size rd a pi f off s
  | .st x size rd a pi f off => Sys2Proof.Machine.execSt x size rd a pi f off s
  | .amoadd x w4 rd a pi f off => Sys2Proof.Machine.execAmoadd x w4 rd a pi f off s
  | .amoswap x w4 rd a pi f off => Sys2Proof.Machine.execAmoswap x w4 rd a pi f off s
  | .amoand x w4 rd a pi f off => Sys2Proof.Machine.execAmoand x w4 rd a pi f off s
  | .amoor x w4 rd a pi f off => Sys2Proof.Machine.execAmoor x w4 rd a pi f off s
  | .amoxor x w4 rd a pi f off => Sys2Proof.Machine.execAmoxor x w4 rd a pi f off s
  | .amomin x w4 rd a pi f off => Sys2Proof.Machine.execAmomin x w4 rd a pi f off s
  | .amomax x w4 rd a pi f off => Sys2Proof.Machine.execAmomax x w4 rd a pi f off s
  | .amocas x w4 rd a pi f off => Sys2Proof.Machine.execAmocas x w4 rd a pi f off s
  | .nop x => Sys2Proof.Machine.execNop x s
  | .br x off => Sys2Proof.Machine.execBr x off s
  | .jal x rd off => Sys2Proof.Machine.execJal x rd off s
  | .jalr x rd rs1 => Sys2Proof.Machine.execJalr x rd rs1 s
  | .end_ x => Sys2Proof.Machine.execEnd x s
  | .trap x code => Sys2Proof.Machine.execTrap x code s
  | .instructionFetchTrap c t => Sys2Proof.Machine.execInstructionFetchTrap c t s
  | .msend x h rs a f => Sys2Proof.Machine.execMsend x h rs a f s
  | .mpoll x pd a => Sys2Proof.Machine.execMpoll x pd a s
  | .mfree x a => Sys2Proof.Machine.execMfree x a s
  | .tsigAdd x tack rs1 => Sys2Proof.Machine.execTsigAdd x tack rs1 s
  | .tsigSet x tack rs1 => Sys2Proof.Machine.execTsigSet x tack rs1 s
  | .tsigAddR x tack rs1 rs2 f => Sys2Proof.Machine.execTsigAddR x tack rs1 rs2 f s
  | .tsigSetR x tack rs1 rs2 f => Sys2Proof.Machine.execTsigSetR x tack rs1 rs2 f s
  | .twaitGe x tack rs1 => Sys2Proof.Machine.execTwaitGe x tack rs1 s
  | .twaitEq x tack rs1 => Sys2Proof.Machine.execTwaitEq x tack rs1 s
  | .tackLd x tack rs1 => Sys2Proof.Machine.execTackLd x tack rs1 s
  | .nsum x a rs1 rs2 f => Sys2Proof.Machine.execNsum x a rs1 rs2 f s
  | .ncast x a rs1 rs2 f => Sys2Proof.Machine.execNcast x a rs1 rs2 f s
  | .nprobe x rs1 rs2 => Sys2Proof.Machine.execNprobe x rs1 rs2 s
  | .tileLd x td a pi f off => Sys2Proof.Machine.execTileLd x td a pi f off s
  | .tileSt x td a pi f off => Sys2Proof.Machine.execTileSt x td a pi f off s
  | .tadd x td ta tb fmt rm => Sys2Proof.Machine.execTadd x td ta tb fmt rm s
  | .tsub x td ta tb fmt rm => Sys2Proof.Machine.execTsub x td ta tb fmt rm s
  | .tmul x td ta tb fmt rm => Sys2Proof.Machine.execTmul x td ta tb fmt rm s
  | .tfma x td ta tb fmt rm => Sys2Proof.Machine.execTfma x td ta tb fmt rm s
  | .tmin x td ta tb fmt rm => Sys2Proof.Machine.execTmin x td ta tb fmt rm s
  | .tmax x td ta tb fmt rm => Sys2Proof.Machine.execTmax x td ta tb fmt rm s
  | .tsel x td ta tb fmt rm => Sys2Proof.Machine.execTsel x td ta tb fmt rm s
  | .tcmpm x td ta tb fmt cond => Sys2Proof.Machine.execTcmpm x td ta tb fmt cond s
  | .tcmpAny x pd ta tb fmt cond => Sys2Proof.Machine.execTcmpAny x pd ta tb fmt cond s
  | .tcmpAll x pd ta tb fmt cond => Sys2Proof.Machine.execTcmpAll x pd ta tb fmt cond s
  | .tabs x td ta fmt rm => Sys2Proof.Machine.execTabs x td ta fmt rm s
  | .tneg x td ta fmt rm => Sys2Proof.Machine.execTneg x td ta fmt rm s
  | .tmov x td ta fmt rm => Sys2Proof.Machine.execTmov x td ta fmt rm s
  | .tredSum x td ta fmt rm => Sys2Proof.Machine.execTredSum x td ta fmt rm s
  | .tredMax x td ta fmt rm => Sys2Proof.Machine.execTredMax x td ta fmt rm s
  | .texp2 x td ta fmt rm => Sys2Proof.Machine.execTexp2 x td ta fmt rm s
  | .trcp x td ta fmt rm => Sys2Proof.Machine.execTrcp x td ta fmt rm s
  | .trsqrt x td ta fmt rm => Sys2Proof.Machine.execTrsqrt x td ta fmt rm s
  | .ttr x td ta fmt rm => Sys2Proof.Machine.execTtr x td ta fmt rm s
  | .ttwosum x td ta tb fmt rm => Sys2Proof.Machine.execTtwosum x td ta tb fmt rm s
  | .ttwoprod x td ta tb fmt rm => Sys2Proof.Machine.execTtwoprod x td ta tb fmt rm s
  | .tcvt x td ta fmts fmtd rm part => Sys2Proof.Machine.execTcvt x td ta fmts fmtd rm part s
  | .tins x td rs1 rs2 fmt => Sys2Proof.Machine.execTins x td rs1 rs2 fmt s
  | .text x td rd rs2 fmt => Sys2Proof.Machine.execText x td rd rs2 fmt s
  | .tsplat x td rs1 fmt => Sys2Proof.Machine.execTsplat x td rs1 fmt s
  | .tmma x cd ta tb fmt rm z ng long => Sys2Proof.Machine.execTmma x cd ta tb fmt rm z ng long s
  | .cread x cd tr part fmt rm => Sys2Proof.Machine.execCread x cd tr part fmt rm s
  | .cwrite x cd tr part fmt rm => Sys2Proof.Machine.execCwrite x cd tr part fmt rm s
  | .czero x cd => Sys2Proof.Machine.execCzero x cd s
  | .tensorArrayStart c => Sys2Proof.Machine.execTensorArrayStart c s
  | .tensorArrayComplete c => Sys2Proof.Machine.execTensorArrayComplete c s
  | .walkerLeadIn c => Sys2Proof.Machine.execWalkerLeadIn c s
  | .walkerPassRead c head => Sys2Proof.Machine.execWalkerPassRead c head s
  | .tagTimeout c tag => Sys2Proof.Machine.execTagTimeout c tag s
  | .tagQuarantineEnd c tag => Sys2Proof.Machine.execTagQuarantineEnd c tag s
  | .coreSwRst c => Sys2Proof.Machine.execCoreSwRst c s
  | .threadHalt c t => Sys2Proof.Machine.execThreadHalt c t s
  | .threadResume c t => Sys2Proof.Machine.execThreadResume c t s
  | .accOwnWrite c v => Sys2Proof.Machine.execAccOwnWrite c v s
  | .reseed c => Sys2Proof.Machine.execReseed c s
  | .srseedWrite c lane v => Sys2Proof.Machine.execSrseedWrite c lane v s
  | .tackValueWrite c n v => Sys2Proof.Machine.execTackValueWrite c n v s
  | .registerWrite ld o v => Sys2Proof.Machine.execRegisterWrite ld o v s
  | .compressorStart c v => Sys2Proof.Machine.execCompressorStart c v s
  | .compressorDone c => Sys2Proof.Machine.execCompressorDone c s
  | .selectionStart c v => Sys2Proof.Machine.execSelectionStart c v s
  | .selectionDone c => Sys2Proof.Machine.execSelectionDone c s
  | .dbRing ld index => Sys2Proof.Machine.execDbRing ld index s
  | .dbEvq ld index => Sys2Proof.Machine.execDbEvq ld index s
  | .ringEntryTake e => Sys2Proof.Machine.execRingEntryTake e s
  | .cutWaitEnd ld => Sys2Proof.Machine.execCutWaitEnd ld s
  | .wdraw ld => Sys2Proof.Machine.execWdraw ld s
  | .cutPlacement slot us => Sys2Proof.Machine.execCutPlacement slot us s
  | .cutLoadComplete slot => Sys2Proof.Machine.execCutLoadComplete slot s
  | .cutReplace slot us => Sys2Proof.Machine.execCutReplace slot us s
  | .cutOrderSettle slot => Sys2Proof.Machine.execCutOrderSettle slot s
  | .mrkMigrate f => Sys2Proof.Machine.execMrkMigrate f s
  | .migrationQuiesced us => Sys2Proof.Machine.execMigrationQuiesced us s
  | .mrkSwRst => Sys2Proof.Machine.execMrkSwRst s
  | .translationMiss c seg => Sys2Proof.Machine.execTranslationMiss c seg s
  | .routerForward pkt => Sys2Proof.Machine.execRouterForward pkt s
  | .rd pkt => Sys2Proof.Machine.execRd pkt s
  | .wr pkt => Sys2Proof.Machine.execWr pkt s
  | .amo pkt => Sys2Proof.Machine.execAmo pkt s
  | .msg pkt => Sys2Proof.Machine.execMsg pkt s
  | .tsigPacket pkt => Sys2Proof.Machine.execTsigPacket pkt s
  | .nsumPacket pkt => Sys2Proof.Machine.execNsumPacket pkt s
  | .ncastPacket pkt => Sys2Proof.Machine.execNcastPacket pkt s
  | .probe pkt => Sys2Proof.Machine.execProbe pkt s
  | .rdr pkt => Sys2Proof.Machine.execRdr pkt s
  | .ack pkt => Sys2Proof.Machine.execAck pkt s
  | .err pkt => Sys2Proof.Machine.execErr pkt s
  | .unb pkt => Sys2Proof.Machine.execUnb pkt s
  | .prober pkt => Sys2Proof.Machine.execProber pkt s
  | .rstr pkt => Sys2Proof.Machine.execRstr pkt s
  | .nsuma pkt => Sys2Proof.Machine.execNsuma pkt s
  | .ncasta pkt => Sys2Proof.Machine.execNcasta pkt s
  | .nsumMergeSend c n => Sys2Proof.Machine.execNsumMergeSend c n s
  | .seamFlitFail f side net link seq now cut => Sys2Proof.Machine.execSeamFlitFail f side net link seq now cut s
  | .seamNak f side net link => Sys2Proof.Machine.execSeamNak f side net link s
  | .seamReplayFail f side net link seq cut => Sys2Proof.Machine.execSeamReplayFail f side net link seq cut s
  | .seamRetrainDone f side net link cut => Sys2Proof.Machine.execSeamRetrainDone f side net link cut s
  | .seamReplayPass f side net link => Sys2Proof.Machine.execSeamReplayPass f side net link s
  | .transitFail f => Sys2Proof.Machine.execTransitFail f s
  | .fabSwRst f => Sys2Proof.Machine.execFabSwRst f s
  | .heldMsgPlace c off => Sys2Proof.Machine.execHeldMsgPlace c off s
  | .spoolPost c t v => Sys2Proof.Machine.execSpoolPost c t v s
  | .spoolTake panel => Sys2Proof.Machine.execSpoolTake panel s
  | .spoolComplete id => Sys2Proof.Machine.execSpoolComplete id s
  | .spoolOpTimeout id k => Sys2Proof.Machine.execSpoolOpTimeout id k s
  | .deadlockDetect panel bobbins slot moved => Sys2Proof.Machine.execDeadlockDetect panel bobbins slot moved s
  | .dlSnapshotRelease panel => Sys2Proof.Machine.execDlSnapshotRelease panel s
  | .patternLoad c v => Sys2Proof.Machine.execPatternLoad c v s
  | .patternLoadDone c => Sys2Proof.Machine.execPatternLoadDone c s
  | .switchRequest c v => Sys2Proof.Machine.execSwitchRequest c v s
  | .switchRun c late => Sys2Proof.Machine.execSwitchRun c late s
  | .steerPair c unit => Sys2Proof.Machine.execSteerPair c unit s
  | .ringSetup j id nrep mseg => Sys2Proof.Machine.execRingSetup j id nrep mseg s
  | .reduce c attempt => Sys2Proof.Machine.execReduce c attempt s
  | .share c attempt => Sys2Proof.Machine.execShare c attempt s
  | .ringInboxComplete c => Sys2Proof.Machine.execRingInboxComplete c s
  | .ringVerdict j => Sys2Proof.Machine.execRingVerdict j s
  | .ringQuiet c => Sys2Proof.Machine.execRingQuiet c s
  | .ringVerdictApply c => Sys2Proof.Machine.execRingVerdictApply c s
  | .ringLayoutWrite c tacks v => Sys2Proof.Machine.execRingLayoutWrite c tacks v s
  | .selRequest p pkt => Sys2Proof.Machine.execSelRequest p pkt s
  | .selArbitrate p => Sys2Proof.Machine.execSelArbitrate p s
  | .selFrameReceive p fr now => Sys2Proof.Machine.execSelFrameReceive p fr now s
  | .selFrameFail p sequenced now => Sys2Proof.Machine.execSelFrameFail p sequenced now s
  | .selNak p fseq now => Sys2Proof.Machine.execSelNak p fseq now s
  | .selAckStall p now => Sys2Proof.Machine.execSelAckStall p now s
  | .selReplayFail p => Sys2Proof.Machine.execSelReplayFail p s
  | .selRetrainDone p unlocked failing worst now => Sys2Proof.Machine.execSelRetrainDone p unlocked failing worst now s
  | .selLaneBad p l late => Sys2Proof.Machine.execSelLaneBad p l late s
  | .selAlignmentMarker p l marker now late => Sys2Proof.Machine.execSelAlignmentMarker p l marker now late s
  | .selRspTimeout p tag => Sys2Proof.Machine.execSelRspTimeout p tag s
  | .selTagRelease p tag => Sys2Proof.Machine.execSelTagRelease p tag s
  | .selTrain p => Sys2Proof.Machine.execSelTrain p s
  | .selTrainDone p lanes caps ready failing => Sys2Proof.Machine.execSelTrainDone p lanes caps ready failing s
  | .selSwRst p => Sys2Proof.Machine.execSelSwRst p s
  | .cxlMemRead ld x result cmds => Sys2Proof.Machine.execCxlMemRead ld x result cmds s
  | .cxlMemWrite ld x done cmds => Sys2Proof.Machine.execCxlMemWrite ld x done cmds s
  | .hostMemAnswer pkt r => Sys2Proof.Machine.execHostMemAnswer pkt r s
  | .hostMemTimeout pkt => Sys2Proof.Machine.execHostMemTimeout pkt s
  | .hostSnoop ld => Sys2Proof.Machine.execHostSnoop ld s
  | .beaconWord w => Sys2Proof.Machine.execBeaconWord w s
  | .fibreBad f => Sys2Proof.Machine.execFibreBad f s
  | .linkRecovery => Sys2Proof.Machine.execLinkRecovery s
  | .hostLinkEpisodeLimit => Sys2Proof.Machine.execHostLinkEpisodeLimit s
  | .linkDown => Sys2Proof.Machine.execLinkDown s
  | .hotReset => Sys2Proof.Machine.execHotReset s
  | .functionLevelReset ld => Sys2Proof.Machine.execFunctionLevelReset ld s
  | .ldPartWrite via ld v => Sys2Proof.Machine.execLdPartWrite via ld v s
  | .ldFmwinWrite via ld v => Sys2Proof.Machine.execLdFmwinWrite via ld v s
  | .ldMsixWrite via ld v => Sys2Proof.Machine.execLdMsixWrite via ld v s
  | .apertureSelect ld field panel => Sys2Proof.Machine.execApertureSelect ld field panel s
  | .ringEnable ld v => Sys2Proof.Machine.execRingEnable ld v s
  | .evqEnable ld v => Sys2Proof.Machine.execEvqEnable ld v s
  | .eventPost masked => Sys2Proof.Machine.execEventPost masked s
  | .trapWindowEnd slot => Sys2Proof.Machine.execTrapWindowEnd slot s
  | .getVersion ld => Sys2Proof.Machine.execGetVersion ld s
  | .getCapabilities ld => Sys2Proof.Machine.execGetCapabilities ld s
  | .negotiateAlgorithms ld offered => Sys2Proof.Machine.execNegotiateAlgorithms ld offered s
  | .getDigests ld => Sys2Proof.Machine.execGetDigests ld s
  | .getCertificate ld slot => Sys2Proof.Machine.execGetCertificate ld slot s
  | .challenge ld slot => Sys2Proof.Machine.execChallenge ld slot s
  | .getMeasurements ld index => Sys2Proof.Machine.execGetMeasurements ld index s
  | .keyExchange ld => Sys2Proof.Machine.execKeyExchange ld s
  | .finish ld => Sys2Proof.Machine.execFinish ld s
  | .endSession ld => Sys2Proof.Machine.execEndSession ld s
  | .heartbeat ld => Sys2Proof.Machine.execHeartbeat ld s
  | .ideKm ld stream => Sys2Proof.Machine.execIdeKm ld stream s
  | .getLdInfo => Sys2Proof.Machine.execGetLdInfo s
  | .getLdAllocations => Sys2Proof.Machine.execGetLdAllocations s
  | .setLdAllocations => Sys2Proof.Machine.execSetLdAllocations s
  | .watchEntryExpire p => Sys2Proof.Machine.execWatchEntryExpire p s
  | .watchListSave => Sys2Proof.Machine.execWatchListSave s
  | .sweepCuePlace f suspect => Sys2Proof.Machine.execSweepCuePlace f suspect s
  | .testGroupDone seg group d0 d1 d2 => Sys2Proof.Machine.execTestGroupDone seg group d0 d1 d2 s
  | .testRunTimeout seg group k => Sys2Proof.Machine.execTestRunTimeout seg group k s
  | .digestNow j => Sys2Proof.Machine.execDigestNow j s
  | .dupDigestArrival pkt => Sys2Proof.Machine.execDupDigestArrival pkt s
  | .intSwRst => Sys2Proof.Machine.execIntSwRst s
  | .transitOn all f => Sys2Proof.Machine.execTransitOn all f s
  | .seamTrain all f => Sys2Proof.Machine.execSeamTrain all f s
  | .topoCheck all f => Sys2Proof.Machine.execTopoCheck all f s
  | .computeOn all f => Sys2Proof.Machine.execComputeOn all f s
  | .topoAccept all f => Sys2Proof.Machine.execTopoAccept all f s
  | .seamRetrain f side net row => Sys2Proof.Machine.execSeamRetrain f side net row s
  | .brgCommandComplete o => Sys2Proof.Machine.execBrgCommandComplete o s
  | .brgRstCore c => Sys2Proof.Machine.execBrgRstCore c s
  | .brgRstPanel panel => Sys2Proof.Machine.execBrgRstPanel panel s
  | .brgRstPartition ld => Sys2Proof.Machine.execBrgRstPartition ld s
  | .brgRstWafer => Sys2Proof.Machine.execBrgRstWafer s
  | .drainEnd => Sys2Proof.Machine.execDrainEnd s
  | .drainLimitExpire => Sys2Proof.Machine.execDrainLimitExpire s
  | .resetPhaseEnd core us => Sys2Proof.Machine.execResetPhaseEnd core us s
  | .darnRequest field panel row pos => Sys2Proof.Machine.execDarnRequest field panel row pos s
  | .darnAction => Sys2Proof.Machine.execDarnAction s
  | .darnQuiesced => Sys2Proof.Machine.execDarnQuiesced s
  | .darnCopyTimeout c => Sys2Proof.Machine.execDarnCopyTimeout c s
  | .darnResume us => Sys2Proof.Machine.execDarnResume us s
  | .darnAbandon => Sys2Proof.Machine.execDarnAbandon s
  | .powerOn falling => Sys2Proof.Machine.execPowerOn falling s
  | .supply => Sys2Proof.Machine.execSupply s
  | .pinReset => Sys2Proof.Machine.execPinReset s
  | .i3cTargetReset => Sys2Proof.Machine.execI3cTargetReset s
  | .i3cPeriphReset => Sys2Proof.Machine.execI3cPeriphReset s
  | .watchdog => Sys2Proof.Machine.execWatchdog s
  | .hostModule key => Sys2Proof.Machine.execHostModule key s
  | .hostFabric key => Sys2Proof.Machine.execHostFabric key s
  | .rstSwRst => Sys2Proof.Machine.execRstSwRst s
  | .resetAssertStep => Sys2Proof.Machine.execResetAssertStep s
  | .resetReleaseStep k0 k1 => Sys2Proof.Machine.execResetReleaseStep k0 k1 s
  | .writePulseEnd us header => Sys2Proof.Machine.execWritePulseEnd us header s
  | .rstBlockWaf => Sys2Proof.Machine.execRstBlockWaf s
  | .rstBlockClk => Sys2Proof.Machine.execRstBlockClk s
  | .rstBlockPwr => Sys2Proof.Machine.execRstBlockPwr s
  | .rstBlockTrd => Sys2Proof.Machine.execRstBlockTrd s
  | .rstBlockInt => Sys2Proof.Machine.execRstBlockInt s
  | .rstBlockNvs => Sys2Proof.Machine.execRstBlockNvs s
  | .rstBlockMrk => Sys2Proof.Machine.execRstBlockMrk s
  | .rstBlockBrg => Sys2Proof.Machine.execRstBlockBrg s
  | .clockSwitch f src => Sys2Proof.Machine.execClockSwitch f src s
  | .stopSwitchRestart f src => Sys2Proof.Machine.execStopSwitchRestart f src s
  | .pllLock f pll => Sys2Proof.Machine.execPllLock f pll s
  | .pllLockLoss f pll => Sys2Proof.Machine.execPllLockLoss f pll s
  | .refLost => Sys2Proof.Machine.execRefLost s
  | .refDetect => Sys2Proof.Machine.execRefDetect s
  | .stitchTargetWrite f v => Sys2Proof.Machine.execStitchTargetWrite f v s
  | .stitchSequenceStart f => Sys2Proof.Machine.execStitchSequenceStart f s
  | .stitchRailGood f => Sys2Proof.Machine.execStitchRailGood f s
  | .stitchSequenceEnd f us => Sys2Proof.Machine.execStitchSequenceEnd f us s
  | .clkobsSelect v => Sys2Proof.Machine.execClkobsSelect v s
  | .treadleTick ns short => Sys2Proof.Machine.execTreadleTick ns short s
  | .trdPush add ns => Sys2Proof.Machine.execTrdPush add ns s
  | .treadleStall => Sys2Proof.Machine.execTreadleStall s
  | .treadleCopyAdvance f => Sys2Proof.Machine.execTreadleCopyAdvance f s
  | .cueWrite f n wordB v => Sys2Proof.Machine.execCueWrite f n wordB v s
  | .cueFire f => Sys2Proof.Machine.execCueFire f s
  | .powerSample vin iin => Sys2Proof.Machine.execPowerSample vin iin s
  | .powerEvaluation clean below met => Sys2Proof.Machine.execPowerEvaluation clean below met s
  | .unpark f => Sys2Proof.Machine.execUnpark f s
  | .unparkDone f failing => Sys2Proof.Machine.execUnparkDone f failing s
  | .thermalSample f t0 t1 t2 t3 => Sys2Proof.Machine.execThermalSample f t0 t1 t2 t3 s
  | .thermalClear f => Sys2Proof.Machine.execThermalClear f s
  | .computeTrip f => Sys2Proof.Machine.execComputeTrip f s
  | .transitTrip f => Sys2Proof.Machine.execTransitTrip f s
  | .opticsTrip g => Sys2Proof.Machine.execOpticsTrip g s
  | .hostAttachTrip d => Sys2Proof.Machine.execHostAttachTrip d s
  | .pwrPark f park => Sys2Proof.Machine.execPwrPark f park s
  | .clrTrip f => Sys2Proof.Machine.execClrTrip f s
  | .pwrUnpark f => Sys2Proof.Machine.execPwrUnpark f s
  | .pwrSwRst => Sys2Proof.Machine.execPwrSwRst s
  | .chunk offset => Sys2Proof.Machine.execChunk offset s
  | .fwUpdateFinish check => Sys2Proof.Machine.execFwUpdateFinish check s
  | .raiseMinver => Sys2Proof.Machine.execRaiseMinver s
  | .nvsSectionWrite => Sys2Proof.Machine.execNvsSectionWrite s
  | .nvsWriteDurable => Sys2Proof.Machine.execNvsWriteDurable s
  | .lifeUpdate => Sys2Proof.Machine.execLifeUpdate s
  | .flush => Sys2Proof.Machine.execFlush s
  | .nvsSwRst => Sys2Proof.Machine.execNvsSwRst s
  | .entdaa addr others => Sys2Proof.Machine.execEntdaa addr others s
  | .rstdaa => Sys2Proof.Machine.execRstdaa s
  | .enec => Sys2Proof.Machine.execEnec s
  | .disec => Sys2Proof.Machine.execDisec s
  | .getpid => Sys2Proof.Machine.execGetpid s
  | .getbcr => Sys2Proof.Machine.execGetbcr s
  | .getdcr => Sys2Proof.Machine.execGetdcr s
  | .getstatus => Sys2Proof.Machine.execGetstatus s
  | .getmwl => Sys2Proof.Machine.execGetmwl s
  | .getmrl => Sys2Proof.Machine.execGetmrl s
  | .rstact byte => Sys2Proof.Machine.execRstact byte s
  | .unsupportedCcc => Sys2Proof.Machine.execUnsupportedCcc s
  | .ibi wins => Sys2Proof.Machine.execIbi wins s
  | .getStatus seq args => Sys2Proof.Machine.execGetStatus seq args s
  | .setCap seq args => Sys2Proof.Machine.execSetCap seq args s
  | .getPower seq args => Sys2Proof.Machine.execGetPower seq args s
  | .getTherm seq args => Sys2Proof.Machine.execGetTherm seq args s
  | .getCoolant seq args inlet outlet => Sys2Proof.Machine.execGetCoolant seq args inlet outlet s
  | .readReg seq args => Sys2Proof.Machine.execReadReg seq args s
  | .fwBegin seq args => Sys2Proof.Machine.execFwBegin seq args s
  | .fwChunk seq args => Sys2Proof.Machine.execFwChunk seq args s
  | .fwFinish seq args check => Sys2Proof.Machine.execFwFinish seq args check s
  | .getId seq args => Sys2Proof.Machine.execGetId seq args s
  | .mgtResponseRead => Sys2Proof.Machine.execMgtResponseRead s
  | .mgtBusArbitrate eligible lk more => Sys2Proof.Machine.execMgtBusArbitrate eligible lk more s
  | .mgtSwRst => Sys2Proof.Machine.execMgtSwRst s
  | .ringOpTimeout c op => Sys2Proof.Machine.execRingOpTimeout c op s
  | .ringMigrationTimeout us => Sys2Proof.Machine.execRingMigrationTimeout us s
  | .reseedComplete c => Sys2Proof.Machine.execReseedComplete c s
  | .nowDigestDone j => Sys2Proof.Machine.execNowDigestDone j s
  | .distanceTableBuilt => Sys2Proof.Machine.execDistanceTableBuilt s
  | .hostLinkL0 us dead slow => Sys2Proof.Machine.execHostLinkL0 us dead slow s
  | .hostLinkReplay => Sys2Proof.Machine.execHostLinkReplay s
  | .resetSourceWithdrawn code => Sys2Proof.Machine.execResetSourceWithdrawn code s
  | .ldBind ld bound => Sys2Proof.Machine.execLdBind ld bound s
  | .cxlCacheMemEnable ld cache mem => Sys2Proof.Machine.execCxlCacheMemEnable ld cache mem s
  | .attachmentRouterFailure p => Sys2Proof.Machine.execAttachmentRouterFailure p s

end Sys2Proof.Machine
end

