-- ==== Sys2Proof/Safety.lean ====
section
/-!
DEFINITION. The terms that the claims use: well-formed memories, a thread that is ready to issue, the state after an instruction
that only changes its thread, and a safe step.
-/

namespace Sys2Proof.Machine

/-- A byte memory is in canonical form: addresses strictly rising, and no entry equal to what an unlisted address reads as. -/
def Memory.wf (unlisted : Byte) (m : List Host.Cell) : Bool := canonical unlisted m

/-- Every byte memory of the module is in canonical form: the SRAMs, the instruction and pattern stores, the firmware slots and
the update buffer. -/
def State.memoriesWf (s : State) : Prop :=
  Memory.wf 0 s.sram = true ∧ Memory.wf 0xFF s.istore = true ∧ Memory.wf 0xFF s.patStore = true ∧
    Memory.wf 0 s.firmware = true ∧ Memory.wf 0 s.updBuf = true

/-- Every packet of the fabric carries a number given out before the next one. -/
def State.numbered (s : State) : Prop := ∀ p ∈ s.fab.pkts, p.id < s.fab.nextId

/-- What the partial resets in progress and waiting name exists: a core's number has 20 bits, and there are 512 panels. -/
def State.resetTargets (s : State) : Prop :=
  ∀ r, s.partialReset = some r ∨ r ∈ s.waitingResets →
    (r.scope = 0 → r.target < 2 ^ 20) ∧ (r.scope = 1 → r.target < 512)

/-- Every request that a Selvedge port has accepted is a read or a write. -/
def State.ingressReads (s : State) : Prop := ∀ p q, q ∈ (s.port p).ingress → q.typ = .rd ∨ q.typ = .wr

/-- The firmware slot that the management bus loads is one of the two. -/
def State.slotNamed (s : State) : Prop := ∀ n, s.mgt.slot = some n → n < 2

/-- What holds of every state that the module can reach besides the form of its memories. -/
def State.sound (s : State) : Prop := s.numbered ∧ s.resetTargets ∧ s.ingressReads ∧ s.slotNamed

/-- The issuing thread of an instruction. -/
def State.issuer (s : State) (x : Issue) : Thread := s.thread x.core x.thread

/-- A thread offers an instruction of `len` bytes that nothing holds back: it is RUNNING or STALLED on a backed core whose clocks
run, the instruction lies in the store and in no window that is being written, no contention holds it (02 R61, R62), and no
answer still to come writes one of the registers that it reads or writes. -/
def State.offers (s : State) (x : Issue) (regs : List RegRef) (len : Nat := 4) : Prop :=
  s.canIssue x.core x.thread = true ∧ (s.issuer x).pc + len ≤ 0x2000 ∧ s.windowShut x.core (s.issuer x).pc = false ∧
    x.held = [] ∧ ∀ r ∈ regs, (s.core x.core).isPending x.thread r = false

/-- The instruction's guard is true as well. -/
def State.ready (s : State) (x : Issue) (regs : List RegRef) (len : Nat := 4) : Prop :=
  s.offers x regs len ∧ (s.issuer x).guard x = true

/-- What waits in a core's interface can still reach its destination: neither that nor its route target lies in a hole. -/
def State.interfaceClear (s : State) (c : Lcn) : Prop :=
  ∀ q ∈ s.fab.pkts, q.injected = false → q.src = c →
    s.isHole (fieldOf q.dst) = false ∧ s.isHole (fieldOf q.rt) = false

/-- A thread after an instruction has retired: RUNNING at a program counter. -/
def Thread.retiredAt (th : Thread) (pc : Nat) : Thread :=
  { th with st := .running, stall := 0, pc := pc, retired := th.retired + 1 }

/-- The state after an instruction that changes nothing but its own thread. -/
def State.after (s : State) (x : Issue) (th : Thread) (pc : Nat) : State := s.setThread x.core x.thread (th.retiredAt pc)

/-- Every register field outside a list reads as before. -/
def State.fieldsKept (s t : State) (l : List Fld) : Prop :=
  ∀ (f : Fld) (u n : Nat), f.id ∉ l.map Fld.id → u < 2 ^ 20 → n < 2 ^ 12 → t.get f u n = s.get f u n

/-- Every thread but one is as before. -/
def State.otherThreadsKept (s t : State) (c : Lcn) (n : Fin 4) : Prop :=
  ∀ d m, ¬(d = c ∧ m = n) → t.thread d m = s.thread d m

/-- Every thread is as before, but that stalled threads of a core may have gone on (02 Table 2.3). -/
def State.threadsSettled (s t : State) (c : Lcn) : Prop :=
  ∀ d m, t.thread d m = s.thread d m ∨
    (d = c ∧ (s.thread d m).st = .stalled ∧ t.thread d m = { s.thread d m with st := .running })

/-- The fields that hold the sticky flags of tile and tensor arithmetic. -/
def flagFields : List Fld :=
  [F.CORE_TSTAT_NV, F.CORE_TSTAT_OF, F.CORE_TSTAT_FLUSH, F.CORE_TSTAT_LOWINEX, F.CORE_TSTAT_INTWRAP,
   F.CORE_TSTAT_CVTSAT, F.CORE_TSTAT_SRC, F.CORE_FMTCTL_CLAMP, F.CORE_FMTCTL_NANLOST, F.CORE_FMTCTL_SRC]

/-- An instruction of a thread has raised these flags and no other: each raised one reads 1, the others as before, and the
SRC bits of the thread follow. -/
def State.raisedBy (s t : State) (c : Lcn) (n : Fin 4) (g : TFlags) : Prop :=
  let u := c.toNat
  let sticky (f : Fld) (b : Bool) : Prop := t.get f u = if b then 1 else s.get f u
  sticky F.CORE_TSTAT_NV g.nv ∧ sticky F.CORE_TSTAT_OF g.ovf ∧ sticky F.CORE_TSTAT_FLUSH g.flush ∧
    sticky F.CORE_TSTAT_LOWINEX g.lowinex ∧ sticky F.CORE_TSTAT_INTWRAP g.intwrap ∧
    sticky F.CORE_TSTAT_CVTSAT g.cvtsat ∧ sticky F.CORE_FMTCTL_CLAMP g.clamp ∧
    sticky F.CORE_FMTCTL_NANLOST g.nanlost ∧
    (∀ m : Fin 4, (t.get F.CORE_TSTAT_SRC u).testBit m =
      ((s.get F.CORE_TSTAT_SRC u).testBit m || (decide (m = n) && g.any))) ∧
    (∀ m : Fin 4, (t.get F.CORE_FMTCTL_SRC u).testBit m =
      ((s.get F.CORE_FMTCTL_SRC u).testBit m || (decide (m = n) && (g.clamp || g.nanlost))))

/-- The next state of a lane generator (05 R196). -/
def laneStep (v : Word) : Word := v * 0x5851f42d4c957f2d + 0x14057b7ef767814f

/-- Exact elements, each with its lane, have been rounded in order into a format: under RM = 2 each finite one takes the top
16 bits of its lane's next state; no other lane moves, and the draws are counted (04 R175, 05 R195, R196). -/
def State.roundedIn (s t : State) (c : Lcn) (f : Fp) (rm : Nat) (l : List (Nat × Num)) (out : List (Nat × TFlags)) :
    Prop :=
  let sat := decide (s.get F.CORE_FMTCTL_FP8_SAT c.toNat = 1)
  let draws (e : Nat × Num) : Bool := decide (rm = 2) && e.2.isFin
  let taken (lane n : Nat) : Nat := ((l.take n).filter fun e => draws e && decide (e.1 % 256 = lane)).length
  out.length = l.length ∧
    (∀ i e, l[i]? = some e → out[i]? = some (f.encode sat rm
      (if draws e then (laneStep^[taken (e.1 % 256) i + 1] (s.lane c (e.1 % 256))).toNat / 2 ^ 48 else 0) e.2)) ∧
    (∀ lane, lane < 256 → t.lane c lane = laneStep^[taken lane l.length] (s.lane c lane)) ∧
    (∀ d lane, d ≠ c → lane < 256 → t.lane d lane = s.lane d lane) ∧
    (let n := (l.filter draws).length
     t.get F.CORE_SRDRAWS_DRAWS c.toNat =
       if n = 0 then s.get F.CORE_SRDRAWS_DRAWS c.toNat else (s.get F.CORE_SRDRAWS_DRAWS c.toNat + n) % 2 ^ 64)

/-- The value (−1)^neg × m × 2^e. -/
def valueOf (neg : Bool) (m : Nat) (e : Int) : ℚ := (if neg then -1 else 1) * (m : ℚ) * (2 : ℚ) ^ e

/-- A request stands whole where it leaves the network, at the backed core that it is for; the core's clocks run, it lies in
the partition of the sender's logical device and in no reset, and its interface accepts the request. -/
def State.serves (s : State) (c : Lcn) (p : Packet) : Prop :=
  s.atDest p.id p.typ = some p ∧ p.toBlock = false ∧ s.servingCore p.pos = some c ∧ p.dst = c ∧ p.good = true ∧
    s.accepts c p = true ∧ s.inReset c p = false ∧ s.inPartition p.ld (fieldOf c) = true ∧ s.clocked c = true

/-- A request taken from the fabric, and its reply in the interface of the position that serves it or in the local input
buffer of that position's router. -/
def State.answeredBy (s : State) (p : Packet) (typ : PacketType) (opc arg flits body : Nat) : State :=
  (s.dropPacket p.id).putReply
    { id := 0, typ, ld := p.ld, rt := s.routeTarget p.src, dst := p.src, opc, src := p.dst, sth := p.sth, tag := p.tag,
      gen := p.gen, arg, flits, body, sender := p.sender, pos := p.pos, ce := p.cm, req := p.id, bulk := p.windowed,
      reqInj := p.inj }

/-- A reply can be sent from a position to a core: its route target is in no hole and the position's transit domain is on. -/
def State.repliesTo (s : State) (c pos : Lcn) : Prop :=
  s.isHole (fieldOf (s.routeTarget c)) = false ∧ s.transitOn (fieldOf pos) = true

/-- A reply stands whole at the backed core whose thread holds the tag that it answers, comes from the core that the tag's
operation went to, and passes its checks (08 R299). -/
def State.replyFor (s : State) (c : Lcn) (p : Packet) : Prop :=
  s.atDest p.id p.typ = some p ∧ s.servingCore p.pos = some c ∧ (s.core c).absorbing = false ∧ p.good = true ∧
    p.sender = .thread ∧ p.dst = c ∧ (s.tagAt c p.tag).st = .held ∧ (s.tagAt c p.tag).gen = p.gen ∧
    (s.tagAt c p.tag).wentTo p.src = true

/-- A step that ends in a next state. -/
def State.safeStep (s : State) : Prop := ∃ t, step s = .next t

end Sys2Proof.Machine
end

