-- ==== Sys2Proof/Certificates/Slice0/Obligations.lean ====
section
/-!
DEFINITION. The obligations of this row: what the module's rules say of each family of commands, stated over the model.
-/

open Sys2Proof Sys2Proof.Machine

/-- 03 Table 3.4, R103: the scalar operations that cannot meet a zero divisor. `op` is the operation at w bits. -/
def Obligations.ScalarArithmetic : Prop :=
  ∀ (x : Issue) (rd rs1 : Fin 32) (w32 : Bool) (b : Src2) (s : State),
    s.ready x ([.s rd, .s rs1] ++ match b with | .reg r => [RegRef.s r] | _ => []) b.len →
    let th := s.issuer x
    let a := th.readS rs1
    let v := th.src2 b
    let result (op : (w : Nat) → BitVec w → BitVec w → BitVec w) : Host.Outcome State Fault Refusal :=
      .next (s.after x (th.writeS rd
        (if w32 then (op 32 (a.truncate 32) (v.truncate 32)).signExtend 64 else op 64 a v)) (th.pc + b.len))
    exec (.add x rd rs1 w32 b) s = result (fun w a b => BitVec.ofNat w (a.toNat + b.toNat)) ∧
    exec (.sub x rd rs1 w32 b) s = result (fun w a b => BitVec.ofInt w (a.toInt - b.toInt)) ∧
    exec (.and x rd rs1 w32 b) s = result (fun _ a b => a &&& b) ∧
    exec (.or x rd rs1 w32 b) s = result (fun _ a b => a ||| b) ∧
    exec (.xor x rd rs1 w32 b) s = result (fun _ a b => a ^^^ b) ∧
    exec (.mul x rd rs1 w32 b) s = result (fun w a b => BitVec.ofNat w (a.toNat * b.toNat)) ∧
    exec (.sll x rd rs1 w32 b) s = result (fun w a b => BitVec.ofNat w (a.toNat * 2 ^ (b.toNat % w))) ∧
    exec (.srl x rd rs1 w32 b) s = result (fun w a b => BitVec.ofNat w (a.toNat / 2 ^ (b.toNat % w))) ∧
    exec (.sra x rd rs1 w32 b) s = result (fun w a b => BitVec.ofInt w (a.toInt / 2 ^ (b.toNat % w))) ∧
    exec (.min x rd rs1 w32 b) s = result (fun _ a b => if a.toInt ≤ b.toInt then a else b) ∧
    exec (.max x rd rs1 w32 b) s = result (fun _ a b => if a.toInt ≤ b.toInt then b else a) ∧
    exec (.minu x rd rs1 w32 b) s = result (fun _ a b => if a.toNat ≤ b.toNat then a else b) ∧
    exec (.maxu x rd rs1 w32 b) s = result (fun _ a b => if a.toNat ≤ b.toNat then b else a)

/-- 03 R104. -/
def Obligations.DivisionAndRemainder : Prop :=
  ∀ (x : Issue) (rd rs1 : Fin 32) (w32 : Bool) (b : Src2) (s : State),
    s.ready x ([.s rd, .s rs1] ++ match b with | .reg r => [RegRef.s r] | _ => []) b.len →
    let th := s.issuer x
    let a := th.readS rs1
    let v := th.src2 b
    let result (op : (w : Nat) → BitVec w → BitVec w → BitVec w) : Host.Outcome State Fault Refusal :=
      .next (s.after x (th.writeS rd
        (if w32 then (op 32 (a.truncate 32) (v.truncate 32)).signExtend 64 else op 64 a v)) (th.pc + b.len))
    exec (.div x rd rs1 w32 b) s = result (fun w a b =>
      if b = 0 then BitVec.allOnes w
      else if a = BitVec.intMin w ∧ b = BitVec.allOnes w then BitVec.intMin w
      else BitVec.ofInt w (a.toInt.tdiv b.toInt)) ∧
    exec (.rem x rd rs1 w32 b) s = result (fun w a b =>
      if b = 0 then a
      else if a = BitVec.intMin w ∧ b = BitVec.allOnes w then 0
      else BitVec.ofInt w (a.toInt.tmod b.toInt)) ∧
    exec (.divu x rd rs1 w32 b) s = result (fun w a b =>
      if b = 0 then BitVec.allOnes w else BitVec.ofNat w (a.toNat / b.toNat)) ∧
    exec (.remu x rd rs1 w32 b) s = result (fun w a b =>
      if b = 0 then a else BitVec.ofNat w (a.toNat % b.toNat))

/-- 03 R101, and the one-operand rows of Table 3.4. -/
def Obligations.SelectAndBitCounts : Prop :=
  (∀ (x : Issue) (rd rs1 : Fin 32) (w32 : Bool) (b : Src2) (s : State),
    s.offers x ([.s rd, .s rs1] ++ match b with | .reg r => [RegRef.s r] | _ => []) b.len →
    let th := s.issuer x
    let v := if th.guard x then th.readS rs1 else th.src2 b
    exec (.sel x rd rs1 w32 b) s =
      .next (s.after x (th.writeS rd (if w32 then sext32 v else v)) (th.pc + b.len))) ∧
  (∀ (x : Issue) (rd rs1 : Fin 32) (w32 : Bool) (s : State), s.ready x [.s rd, .s rs1] →
    let th := s.issuer x
    let w := if w32 then 32 else 64
    let a := (th.readS rs1).toNat % 2 ^ w
    exec (.clz x rd rs1 w32) s =
        .next (s.after x (th.writeS rd (BitVec.ofNat 64 (if a = 0 then w else w - 1 - Nat.log2 a))) (th.pc + 4)) ∧
      exec (.popc x rd rs1 w32) s =
        .next (s.after x (th.writeS rd (BitVec.ofNat 64 ((List.range w).filter fun i => a.testBit i).length))
          (th.pc + 4))) ∧
  (∀ (x : Issue) (rd rs1 : Fin 32) (imm : BitVec 32) (s : State), s.ready x [.s rd, .s rs1] 8 →
    let th := s.issuer x
    exec (.lhi x rd rs1 imm) s =
      .next (s.after x (th.writeS rd (imm ++ (th.readS rs1).truncate 32)) (th.pc + 8)))

/-- 02 R46, 02 Table 2.1; 03 R106, Table 3.5. The free values are the model's (log entry 7). -/
def Obligations.RegisterFilesAndSystemValues : Prop :=
  ((∀ (th : Thread) (v : Word) (b : Bool),
     th.readS 0 = 0 ∧ th.readP 0 = true ∧ th.writeS 0 v = th ∧ th.writeP 0 b = th) ∧
   (∀ (th : Thread) (r q : Fin 32) (v : Word), r ≠ 0 →
     let n := th.writeS r v
     n.readS q = (if q = r then v else th.readS q) ∧ (∀ k, n.readA k = th.readA k) ∧ (∀ k, n.readP k = th.readP k) ∧
       (∀ k, n.readT k = th.readT k) ∧ n.pc = th.pc ∧ n.st = th.st) ∧
   (∀ (th : Thread) (r q : Fin 16) (v : Word),
     let n := th.writeA r v
     n.readA q = (if q = r then v else th.readA q) ∧ (∀ k, n.readS k = th.readS k) ∧ (∀ k, n.readP k = th.readP k) ∧
       (∀ k, n.readT k = th.readT k) ∧ n.pc = th.pc ∧ n.st = th.st) ∧
   (∀ (th : Thread) (r q : Fin 8) (v : Bool), r ≠ 0 →
     let n := th.writeP r v
     n.readP q = (if q = r then v else th.readP q) ∧ (∀ k, n.readS k = th.readS k) ∧ (∀ k, n.readA k = th.readA k) ∧
       (∀ k, n.readT k = th.readT k) ∧ n.pc = th.pc ∧ n.st = th.st) ∧
   (∀ (th : Thread) (r q : Fin 8) (v : Tile),
     let n := th.writeT r v
     n.readT q = (if q = r then v else th.readT q) ∧ (∀ k, n.readS k = th.readS k) ∧ (∀ k, n.readA k = th.readA k) ∧
       (∀ k, n.readP k = th.readP k) ∧ n.pc = th.pc ∧ n.st = th.st)) ∧
  (∀ (x : Issue) (rd : Fin 32) (s : State), s.ready x [.s rd] →
     let th := s.issuer x
     let seen : Lcn := if s.get F.INT_DUPSTAT_SHADOW x.core.toNat = 1 then x.core ^^^ 0x80000 else x.core
     let gives (sel : Fin 8) (v : Word) : Prop :=
       exec (.rdsys x rd sel) s = .next (s.after x (th.writeS rd v) (th.pc + 4))
     let givesFree (sel : Fin 8) (v : Word) : Prop :=
       exec (.rdsys x rd sel) s =
         .next ({ s with freeCtr := s.freeCtr + 1 }.after x (th.writeS rd v) (th.pc + 4))
     let copy := mget 0 s.trdCopy (fieldOf x.core)
     gives 0 (BitVec.ofNat 64 (4 * seen.toNat + x.thread.val)) ∧
     gives 1 (seen.zeroExtend 64) ∧
     gives 2 (BitVec.ofNat 64 x.thread.val) ∧
     (∃ v, givesFree 3 v) ∧
     (mget 0 s.trdAdvances (fieldOf x.core) < 2 → gives 4 (BitVec.ofNat 64 (copy * 2 ^ 16))) ∧
     (2 ≤ mget 0 s.trdAdvances (fieldOf x.core) →
       ∃ phase : BitVec 16, givesFree 4 (BitVec.ofNat 48 copy ++ phase)) ∧
     gives 5 (BitVec.ofNat 64 ((s.core x.core).heldBy x.thread)) ∧
     gives 6 (BitVec.ofNat 64 (64 - ((s.core x.core).tags.filter fun e => e.2.st != .free).length)) ∧
     gives 7 (BitVec.ofNat 64 (s.get F.CLK_FLDf_STAT_CUR (fieldOf x.core))))

/-- 03 R107 and R685, Tables 3.6 and 3.17. -/
def Obligations.PredicatesAndAddresses : Prop :=
  ((∀ (x : Issue) (pd : Fin 8) (rs1 rs2 : Fin 32) (s : State), s.ready x [.s rs1, .s rs2] →
     let th := s.issuer x
     let a := th.readS rs1
     let b := th.readS rs2
     let sets (v : Bool) : Host.Outcome State Fault Refusal := .next (s.after x (th.writeP pd v) (th.pc + 4))
     exec (.cmpEq x pd rs1 rs2) s = sets (decide (a.toNat = b.toNat)) ∧
     exec (.cmpNe x pd rs1 rs2) s = sets (decide (a.toNat ≠ b.toNat)) ∧
     exec (.cmpLt x pd rs1 rs2) s = sets (decide (a.toInt < b.toInt)) ∧
     exec (.cmpGe x pd rs1 rs2) s = sets (decide (b.toInt ≤ a.toInt)) ∧
     exec (.cmpLtu x pd rs1 rs2) s = sets (decide (a.toNat < b.toNat)) ∧
     exec (.cmpGeu x pd rs1 rs2) s = sets (decide (b.toNat ≤ a.toNat))) ∧
   (∀ (x : Issue) (pd : Fin 8) (rs1 : Fin 32) (i : CmpImm) (s : State), s.ready x [.s rs1] i.len →
     let th := s.issuer x
     let a := th.readS rs1
     let b : Word := match i with
       | .imm9 v => v.signExtend 64
       | .imm32 v => v.signExtend 64
     let sets (v : Bool) : Host.Outcome State Fault Refusal :=
       .next (s.after x (th.writeP pd v) (th.pc + match i with | .imm9 _ => 4 | .imm32 _ => 8))
     exec (.cmpiEq x pd rs1 i) s = sets (decide (a.toNat = b.toNat)) ∧
     exec (.cmpiNe x pd rs1 i) s = sets (decide (a.toNat ≠ b.toNat)) ∧
     exec (.cmpiLt x pd rs1 i) s = sets (decide (a.toInt < b.toInt)) ∧
     exec (.cmpiGe x pd rs1 i) s = sets (decide (b.toInt ≤ a.toInt)) ∧
     exec (.cmpiLtu x pd rs1 i) s = sets (decide (a.toNat < b.toNat)) ∧
     exec (.cmpiGeu x pd rs1 i) s = sets (decide (b.toNat ≤ a.toNat)) ∧
     exec (.cmpiGt x pd rs1 i) s = sets (decide (b.toInt < a.toInt)) ∧
     exec (.cmpiLe x pd rs1 i) s = sets (decide (a.toInt ≤ b.toInt)) ∧
     exec (.cmpiGtu x pd rs1 i) s = sets (decide (b.toNat < a.toNat)) ∧
     exec (.cmpiLeu x pd rs1 i) s = sets (decide (a.toNat ≤ b.toNat)))) ∧
  ((∀ (x : Issue) (pd pa pb : Fin 8) (s : State), s.ready x [] →
     let th := s.issuer x
     let sets (v : Bool) : Host.Outcome State Fault Refusal := .next (s.after x (th.writeP pd v) (th.pc + 4))
     exec (.pand x pd pa pb) s = sets (th.readP pa && th.readP pb) ∧
     exec (.por x pd pa pb) s = sets (th.readP pa || th.readP pb) ∧
     exec (.pxor x pd pa pb) s = sets (decide (th.readP pa ≠ th.readP pb)) ∧
     exec (.pandn x pd pa pb) s = sets (th.readP pa && !th.readP pb) ∧
     exec (.pnot x pd pa) s = sets (!th.readP pa)) ∧
   (∀ (x : Issue) (ad as_ : Fin 16) (sr : Fin 32) (sh : Fin 16) (s : State), s.ready x [.s sr] →
     let th := s.issuer x
     let v := (th.readS sr).toNat
     let a := (th.readA as_).toNat
     let seen : Lcn := if s.get F.INT_DUPSTAT_SHADOW x.core.toNat = 1 then x.core ^^^ 0x80000 else x.core
     let writes (w : Word) : Host.Outcome State Fault Refusal := .next (s.after x (th.writeA ad w) (th.pc + 4))
     exec (.aadd x ad as_ sr sh) s = writes (BitVec.ofNat 64 (a + v * 2 ^ sh.val)) ∧
     exec (.asub x ad as_ sr sh) s = writes (BitVec.ofInt 64 (a - v * 2 ^ sh.val)) ∧
     exec (.aset x ad sr) s = writes (th.readS sr) ∧
     exec (.aget x sr as_) s = .next (s.after x (th.writeS sr (th.readA as_)) (th.pc + 4)) ∧
     exec (.alocal x ad sr) s = writes (BitVec.ofNat 64 (seen.toNat * 2 ^ 16 + v % 2 ^ 16)) ∧
     exec (.acore x ad as_ sr) s =
       writes (BitVec.ofNat 64 (a / 2 ^ 36 * 2 ^ 36 + v % 2 ^ 20 * 2 ^ 16 + a % 2 ^ 16))) ∧
   (∀ (x : Issue) (ad as_ : Fin 16) (i : CmpImm) (s : State), s.ready x [] i.len →
     let th := s.issuer x
     exec (.aaddi x ad as_ i) s = match i with
       | .imm9 v => .next (s.after x (th.writeA ad (th.readA as_ + v.signExtend 64)) (th.pc + 4))
       | .imm32 v => .next (s.after x (th.writeA ad (th.readA as_ + v.signExtend 64)) (th.pc + 8))))

/-- 03 R108, R110, R124, Tables 3.7 and 3.8; 04 R173; 15 R528, R531. -/
def Obligations.OwnSramLoadsAndStores : Prop :=
  (∀ (x : Issue) (a : Fin 16) (pi f : Bool) (s : State) (o : Word) (k : Nat),
     let th := s.issuer x
     let seen : Lcn := if s.get F.INT_DUPSTAT_SHADOW x.core.toNat = 1 then x.core ^^^ 0x80000 else x.core
     (if pi then th.readA a else th.readA a + o).toNat = seen.toNat * 2 ^ 16 + k → k < 2 ^ 16 →
     x.core.toNat * 256 + k / 256 ∉ s.damaged →
     let moved := if pi then th.writeA a (th.readA a + o) else th
     let bytes (n : Nat) : Nat := readLE s.sram 0 (x.core.toNat * 2 ^ 16 + k) n
     (∀ (size : Size) (rd : Fin 32) (off : Off), s.ready x [.s rd] off.len → k % size.bytes = 0 →
       o = (match off with
         | .off6 v => v.signExtend 64 * BitVec.ofNat 64 size.bytes
         | .off32 v => v.signExtend 64) →
       let next := th.pc + match off with | .off6 _ => 4 | .off32 _ => 8
       let v := bytes size.bytes
       exec (.ld x size rd a pi f off) s =
         .next (s.after x (moved.writeS rd (BitVec.ofInt 64 (toSigned (8 * size.bytes) v))) next) ∧
       exec (.ldu x size rd a pi f off) s = .next (s.after x (moved.writeS rd (BitVec.ofNat 64 v)) next)) ∧
     (∀ (td : Fin 8) (off : TileOff), s.ready x [.t td] off.len → k % 256 = 0 →
       o = (match off with
         | .off8 v => v.signExtend 64 * 256
         | .off32 v => v.signExtend 64) →
       exec (.tileLd x td a pi f off) s =
         .next (s.after x (moved.writeT td (BitVec.ofNat 2048 (bytes 256)))
           (th.pc + match off with | .off8 _ => 4 | .off32 _ => 8)))) ∧
  (∀ (x : Issue) (a : Fin 16) (pi f : Bool) (s : State) (o : Word) (k : Nat),
     let th := s.issuer x
     let seen : Lcn := if s.get F.INT_DUPSTAT_SHADOW x.core.toNat = 1 then x.core ^^^ 0x80000 else x.core
     (if pi then th.readA a else th.readA a + o).toNat = seen.toNat * 2 ^ 16 + k → k < 2 ^ 16 →
     let tile := x.core.toNat * 256 + k / 256
     let moved := if pi then th.writeA a (th.readA a + o) else th
     let stored (n v pc : Nat) (t : State) : Prop :=
       (∀ b, mget 0 t.sram b =
         if x.core.toNat * 2 ^ 16 + k ≤ b ∧ b < x.core.toNat * 2 ^ 16 + k + n then
           BitVec.ofNat 8 (v / 256 ^ (b - (x.core.toNat * 2 ^ 16 + k)))
         else mget 0 s.sram b) ∧
       (∃ d, t.issuer x = ({ moved with digest := d }).retiredAt pc ∧
         (s.get F.INT_DUPSTAT_DUP x.core.toNat ≠ 1 → d = th.digest)) ∧
       (∀ c u, ¬(c = x.core ∧ u = x.thread) → t.thread c u = s.thread c u) ∧
       (∀ c, c ≠ x.core ∨ (s.core c).queue = [] ∧ (s.core c).array = none → t.core c = s.core c) ∧
       (s.sentUnder x.core x.thread k n = none → t.fab = s.fab ∧ t.freeCtr = s.freeCtr)
     (∀ (size : Size) (rd : Fin 32) (off : Off), s.ready x [.s rd] off.len → k % size.bytes = 0 → tile ∉ s.damaged →
       o = (match off with
         | .off6 v => v.signExtend 64 * BitVec.ofNat 64 size.bytes
         | .off32 v => v.signExtend 64) →
       ∃ t, exec (.st x size rd a pi f off) s = .next t ∧
         stored size.bytes (th.readS rd).toNat (th.pc + match off with | .off6 _ => 4 | .off32 _ => 8) t ∧
         { t with threads := s.threads, cores := s.cores, sram := s.sram, fab := s.fab, freeCtr := s.freeCtr } = s) ∧
     (∀ (td : Fin 8) (off : TileOff), s.ready x [.t td] off.len → k % 256 = 0 →
       o = (match off with
         | .off8 v => v.signExtend 64 * 256
         | .off32 v => v.signExtend 64) →
       ∃ t, exec (.tileSt x td a pi f off) s = .next t ∧
         stored 256 (th.readT td).toNat (th.pc + match off with | .off8 _ => 4 | .off32 _ => 8) t ∧
         t.damaged = s.damaged.erase tile ∧ t.badTiles = s.badTiles.erase tile ∧
         { t with threads := s.threads, cores := s.cores, sram := s.sram, damaged := s.damaged,
                  badTiles := s.badTiles, fab := s.fab, freeCtr := s.freeCtr } = s))

/-- 03 R108, R109, R113, Table 3.7. -/
def Obligations.OwnSramAtomics : Prop :=
  ∀ (x : Issue) (w4 : Bool) (rd : Fin 32) (a : Fin 16) (pi f : Bool) (off : Off) (s : State) (k : Nat),
    let th := s.issuer x
    let n := if w4 then 4 else 8
    let o : Word := match off with
      | .off6 v => v.signExtend 64 * BitVec.ofNat 64 n
      | .off32 v => v.signExtend 64
    let seen : Lcn := if s.get F.INT_DUPSTAT_SHADOW x.core.toNat = 1 then x.core ^^^ 0x80000 else x.core
    (if pi then th.readA a else th.readA a + o).toNat = seen.toNat * 2 ^ 16 + k → k < 2 ^ 16 → k % n = 0 →
    x.core.toNat * 256 + k / 256 ∉ s.damaged →
    let moved := if pi then th.writeA a (th.readA a + o) else th
    let w := 8 * n
    let old := BitVec.ofNat w (readLE s.sram 0 (x.core.toNat * 2 ^ 16 + k) n)
    let v := (th.readS rd).truncate w
    let leaves (i : Instr) (new : BitVec w) : Prop :=
      ∃ t, exec i s = .next t ∧
        (∀ b, mget 0 t.sram b =
          if x.core.toNat * 2 ^ 16 + k ≤ b ∧ b < x.core.toNat * 2 ^ 16 + k + n then
            BitVec.ofNat 8 (new.toNat / 256 ^ (b - (x.core.toNat * 2 ^ 16 + k)))
          else mget 0 s.sram b) ∧
        (∃ d, t.issuer x = (({ moved with digest := d }).writeS rd (BitVec.ofInt 64 old.toInt)).retiredAt
            (th.pc + match off with | .off6 _ => 4 | .off32 _ => 8) ∧
          (s.get F.INT_DUPSTAT_DUP x.core.toNat ≠ 1 → d = th.digest)) ∧
        (∀ c u, ¬(c = x.core ∧ u = x.thread) → t.thread c u = s.thread c u) ∧
        (∀ c, c ≠ x.core ∨ (s.core c).queue = [] ∧ (s.core c).array = none → t.core c = s.core c) ∧
        (s.sentUnder x.core x.thread k n = none → t.fab = s.fab ∧ t.freeCtr = s.freeCtr) ∧
        { t with threads := s.threads, cores := s.cores, sram := s.sram, fab := s.fab, freeCtr := s.freeCtr } = s
    (s.ready x [.s rd] off.len →
      leaves (.amoadd x w4 rd a pi f off) (BitVec.ofNat w (old.toNat + v.toNat)) ∧
      leaves (.amoswap x w4 rd a pi f off) v ∧
      leaves (.amoand x w4 rd a pi f off) (old &&& v) ∧
      leaves (.amoor x w4 rd a pi f off) (old ||| v) ∧
      leaves (.amoxor x w4 rd a pi f off) (old ^^^ v) ∧
      leaves (.amomin x w4 rd a pi f off) (if old.toInt ≤ v.toInt then old else v) ∧
      leaves (.amomax x w4 rd a pi f off) (if old.toInt ≤ v.toInt then v else old)) ∧
    (∀ r1 : Fin 32, rd.val % 2 = 0 → r1.val = rd.val + 1 → s.ready x [.s rd, .s r1] off.len →
      leaves (.amocas x w4 rd a pi f off) (if old = v then (th.readS r1).truncate w else old))

/-- 02 R71, R72; 03 R108, R110, R115; 08 Table 8.3. That the tag taken is the lowest is the model's choice (log entry 11). -/
def Obligations.RemoteAccesses : Prop :=
  ∀ (x : Issue) (a : Fin 16) (pi f : Bool) (s : State) (o : Word) (d seen : Lcn) (k : Nat),
    let th := s.issuer x
    let ea := if pi then th.readA a else th.readA a + o
    seen = (if s.get F.INT_DUPSTAT_SHADOW x.core.toNat = 1 then x.core ^^^ 0x80000 else x.core) →
    ea.toNat = d.toNat * 2 ^ 16 + k → k < 2 ^ 16 → d ≠ seen → isGusset d = false →
    (let target : Lcn := if s.get F.INT_DUPSTAT_SHADOW x.core.toNat = 1 then d ^^^ 0x80000 else d
     s.isHole (fieldOf target) = false → s.isHole (fieldOf (s.routeTarget target)) = false → s.numbered →
     s.interfaceClear x.core → s.tagStall x.core x.thread = none →
     let moved := if pi then th.writeA a (th.readA a + o) else th
     let n := (s.core x.core).nextTag
     let sent (i : Instr) (len : Nat) (op : TagOp) (typ : PacketType) (opc flits body top : Nat) : Prop :=
       ∃ t, exec i s = .next t ∧ t.sram = s.sram ∧
         (t.tagAt x.core n).st = .held ∧ (t.tagAt x.core n).thread = x.thread ∧ (t.tagAt x.core n).op = op ∧
         (t.tagAt x.core n).pc = th.pc ∧ (t.tagAt x.core n).addr = ea ∧ (t.tagAt x.core n).dst = target ∧
         (∀ m, m ≠ n → t.tagAt x.core m = s.tagAt x.core m) ∧ (∀ c, c ≠ x.core → t.core c = s.core c) ∧
         (∃ p, p ∈ t.fab.pkts ∧ p.id = s.fab.nextId ∧ p.typ = typ ∧ p.dst = target ∧ p.src = x.core ∧
           p.sth = x.thread ∧ p.tag = n ∧ p.gen = (s.tagAt x.core n).gen ∧ p.f = f ∧ p.opc = opc ∧
           p.arg = target.toNat * 2 ^ 16 + k + top ∧ p.flits = flits ∧ p.body = body) ∧
         t.fab.pkts.length = s.fab.pkts.length + 1 ∧
         (∃ dg, t.issuer x = ({ moved with digest := dg }).retiredAt (th.pc + len) ∧
           (s.get F.INT_DUPSTAT_DUP x.core.toNat ≠ 1 → dg = th.digest)) ∧
         (∀ c u, ¬(c = x.core ∧ u = x.thread) → t.thread c u = s.thread c u)
     (∀ (size : Size) (rd : Fin 32) (off : Off), s.ready x [.s rd] off.len → k % size.bytes = 0 →
       o = (match off with
         | .off6 v => v.signExtend 64 * BitVec.ofNat 64 size.bytes
         | .off32 v => v.signExtend 64) →
       let len := match off with | .off6 _ => 4 | .off32 _ => 8
       let code := match size with | .b => 0 | .h => 1 | .w => 2 | .d => 3
       sent (.ld x size rd a pi f off) len (.load rd size.bytes true) .rd code 0 0 0 ∧
       sent (.ldu x size rd a pi f off) len (.load rd size.bytes false) .rd code 0 0 0 ∧
       sent (.st x size rd a pi f off) len .store .wr code 1 ((th.readS rd).toNat % 2 ^ (8 * size.bytes)) 0) ∧
     (∀ (td : Fin 8) (off : TileOff), s.ready x [.t td] off.len → k % 256 = 0 →
       o = (match off with
         | .off8 v => v.signExtend 64 * 256
         | .off32 v => v.signExtend 64) →
       let len := match off with | .off8 _ => 4 | .off32 _ => 8
       sent (.tileLd x td a pi f off) len (.tileLoad td) .rd 4 0 0 0 ∧
       sent (.tileSt x td a pi f off) len .tileStore .wr 4 32 (th.readT td).toNat 0) ∧
     (∀ (w4 : Bool) (rd r1 : Fin 32) (off : Off), s.ready x [.s rd, .s r1] off.len →
       k % (if w4 then 4 else 8) = 0 →
       o = (match off with
         | .off6 v => v.signExtend 64 * BitVec.ofNat 64 (if w4 then 4 else 8)
         | .off32 v => v.signExtend 64) →
       let len := match off with | .off6 _ => 4 | .off32 _ => 8
       let w := if w4 then 32 else 64
       let v := (th.readS rd).toNat % 2 ^ w
       let top := if w4 then 2 ^ 63 else 0
       sent (.amoadd x w4 rd a pi f off) len (.amo rd w4) .amo 0 1 v top ∧
       sent (.amoswap x w4 rd a pi f off) len (.amo rd w4) .amo 1 1 v top ∧
       sent (.amoand x w4 rd a pi f off) len (.amo rd w4) .amo 2 1 v top ∧
       sent (.amoor x w4 rd a pi f off) len (.amo rd w4) .amo 3 1 v top ∧
       sent (.amoxor x w4 rd a pi f off) len (.amo rd w4) .amo 4 1 v top ∧
       sent (.amomin x w4 rd a pi f off) len (.amo rd w4) .amo 5 1 v top ∧
       sent (.amomax x w4 rd a pi f off) len (.amo rd w4) .amo 6 1 v top ∧
       (r1.val = rd.val + 1 → rd.val % 2 = 0 →
         sent (.amocas x w4 rd a pi f off) len (.amo rd w4) .amo 7 2
           (v + (th.readS r1).toNat % 2 ^ w * 2 ^ 64) top)))

/-- 03 R110, R111, R136, Tables 3.8 and 3.13. -/
def Obligations.AccessTraps : Prop :=
  ∀ (x : Issue) (a : Fin 16) (pi f : Bool) (s : State) (o : Word),
    let th := s.issuer x
    let ea := (if pi then th.readA a else th.readA a + o).toNat
    let top := ea / 2 ^ 48
    let window (c : Nat) : Prop :=
      top = 0xFF ∧ 0x100000000 + c * 0x4000 ≤ ea % 2 ^ 48 ∧ ea % 2 ^ 48 < 0x100000000 + (c + 1) * 0x4000
    let mapped := (top = 0 ∧ ea < 2 ^ 36) ∨ (top = 1 ∧ ea % 2 ^ 48 < 2 ^ 46) ∨ top = 2 ∨ top = 0xFF
    let excluded (n : Nat) (atomic : Bool) : Prop :=
      (atomic = true ∧ top ≠ 0) ∨ (top = 0xFF ∧ n ≠ 8)
    let gusset (d : Lcn) : Prop :=
      isGusset d = true ∧ (top = 0 ∧ ea / 2 ^ 16 = d.toNat ∨ window d.toNat) ∧
        d ≠ (if s.get F.INT_DUPSTAT_SHADOW x.core.toNat = 1 then x.core ^^^ 0x80000 else x.core)
    let traps (i : Instr) (cause sub info : Nat) : Prop :=
      ∃ multi, exec i s = .next (s.trap x.core x.thread { cause, sub, pc := th.pc, info, addr := ea, multi })
    let rules (i : Instr) (n : Nat) (atomic : Bool) : Prop :=
      (ea % n ≠ 0 → traps i 2 0 n) ∧
      (ea % n = 0 → ¬mapped → traps i 3 0 0) ∧
      (ea % n = 0 → mapped → excluded n atomic → traps i 3 1 0) ∧
      (∀ d, ea % n = 0 → mapped → ¬excluded n atomic → gusset d → traps i 4 0 d.toNat)
    (∀ (size : Size) (rd : Fin 32) (off : Off), s.ready x [.s rd] off.len →
      o = (match off with
        | .off6 v => v.signExtend 64 * BitVec.ofNat 64 size.bytes
        | .off32 v => v.signExtend 64) →
      rules (.ld x size rd a pi f off) size.bytes false ∧ rules (.ldu x size rd a pi f off) size.bytes false ∧
        rules (.st x size rd a pi f off) size.bytes false) ∧
    (∀ (td : Fin 8) (off : TileOff), s.ready x [.t td] off.len →
      o = (match off with
        | .off8 v => v.signExtend 64 * 256
        | .off32 v => v.signExtend 64) →
      rules (.tileLd x td a pi f off) 256 false ∧ rules (.tileSt x td a pi f off) 256 false) ∧
    (∀ (w4 : Bool) (rd r1 : Fin 32) (off : Off), s.ready x [.s rd, .s r1] off.len →
      let n := if w4 then 4 else 8
      o = (match off with
        | .off6 v => v.signExtend 64 * BitVec.ofNat 64 n
        | .off32 v => v.signExtend 64) →
      rules (.amoadd x w4 rd a pi f off) n true ∧ rules (.amoswap x w4 rd a pi f off) n true ∧
      rules (.amoand x w4 rd a pi f off) n true ∧ rules (.amoor x w4 rd a pi f off) n true ∧
      rules (.amoxor x w4 rd a pi f off) n true ∧ rules (.amomin x w4 rd a pi f off) n true ∧
      rules (.amomax x w4 rd a pi f off) n true ∧
      (r1.val = rd.val + 1 → rd.val % 2 = 0 → rules (.amocas x w4 rd a pi f off) n true))

/-- 03 R96, R97, R118, R119, R691, Tables 3.9 and 3.13; 02 R68; 10 R399; 15 R537. -/
def Obligations.ControlFlow : Prop :=
  (∀ (x : Issue) (s : State),
     let th := s.issuer x
     let branches (i : Instr) (target : Word) (linked : Thread) : Prop :=
       (target.toNat ≤ 0x1FFC → target.toNat % 4 = 0 → exec i s = .next (s.after x linked target.toNat)) ∧
       (0x1FFC < target.toNat → ∃ multi, exec i s = .next (s.trap x.core x.thread
         { cause := 1, sub := 0, pc := th.pc, addr := target.toNat, multi })) ∧
       (target.toNat ≤ 0x1FFC → target.toNat % 4 ≠ 0 → exec i s = .next (s.trap x.core x.thread
         { cause := 1, sub := 1, pc := th.pc, addr := target.toNat }))
     let link := BitVec.ofNat 64 (th.pc + 4)
     (s.ready x [] → exec (.nop x) s = .next (s.after x th (th.pc + 4))) ∧
     (∀ off : BitVec 17, s.ready x [] →
       branches (.br x off) (BitVec.ofInt 64 (th.pc + 4 * off.toInt)) th) ∧
     (∀ (rd : Fin 32) (off : BitVec 12), s.ready x [.s rd] →
       branches (.jal x rd off) (BitVec.ofInt 64 (th.pc + 4 * off.toInt)) (th.writeS rd link)) ∧
     (∀ rd rs1 : Fin 32, s.ready x [.s rd, .s rs1] →
       branches (.jalr x rd rs1) (th.readS rs1) (th.writeS rd link))) ∧
  ((∀ (x : Issue) (s : State), s.ready x [] →
     let th := s.issuer x
     ∃ t, exec (.end_ x) s = .next t ∧
       t.issuer x = { th with st := .stopped, stall := 0, pc := th.pc + 4, retired := th.retired + 1 } ∧
       (∀ c u, ¬(c = x.core ∧ u = x.thread) → t.thread c u = s.thread c u) ∧ { t with threads := s.threads } = s) ∧
   (∀ (x : Issue) (code : BitVec 16) (s : State), s.ready x [] →
     exec (.trap x code) s =
       .next (s.trap x.core x.thread { cause := 10, sub := 0, pc := (s.issuer x).pc, info := code.toNat })) ∧
   (∀ (c : Lcn) (t : Fin 4) (s : State),
     let th := s.thread c t
     let shut := s.windowShut c th.pc = true
     let word (o : Nat) := if s.windowShut c th.pc then 0xFFFFFFFF else readLE s.istore 0xFF (c.toNat * 0x2000 + o) 4
     th.st = .running ∨ th.st = .stalled → s.clocked c = true → s.backed c = true →
     (0x1FFC < th.pc → exec (.instructionFetchTrap c t) s =
       .next (s.trap c t { cause := 1, sub := 0, pc := th.pc % 8192, addr := th.pc })) ∧
     (th.pc ≤ 0x1FFC → shut ∨ (c.toNat * 0x2000 + th.pc) / 4 ∉ s.istoreBad → word th.pc / 2 ^ 28 ∈ [11, 12, 13, 14, 15] →
       exec (.instructionFetchTrap c t) s =
         .next (s.trap c t { cause := 1, sub := 2, pc := th.pc, info := word th.pc, addr := th.pc })) ∧
     (th.pc ≤ 0x1FFC → ¬shut → (c.toNat * 0x2000 + th.pc) / 4 ∈ s.istoreBad →
       exec (.instructionFetchTrap c t) s =
         .next (((s.addSat F.INT_CSUMSTAT_PARITY F.INT_CSUMSTAT_SAT 1 c.toNat).countFailure c 9 0).trap c t
           { cause := 1, sub := 2, pc := th.pc, info := word th.pc, addr := th.pc }))))

/-- 03 R119, R134, R136, R138, Tables 3.14 to 3.16. -/
def Obligations.TrapEntry : Prop :=
  ∀ (s : State) (c : Lcn) (n : Fin 4) (r : TrapInfo),
    let th := s.thread c n
    let u := c.toNat
    (th.st ≠ .trapped → r.cause < 2 ^ 8 → r.sub < 2 ^ 4 → r.pc < 2 ^ 13 → r.info < 2 ^ 32 → r.addr < 2 ^ 64 →
      let t := s.trap c n r
      t.get F.CORE_TRAPn_CAUSE u n = r.cause ∧ t.get F.CORE_TRAPn_SUB u n = r.sub ∧
      t.get F.CORE_TRAPn_RESP u n = (if r.resp then 1 else 0) ∧
      t.get F.CORE_TRAPn_MULTI u n = (if r.multi then 1 else 0) ∧ t.get F.CORE_TRAPn_VALID u n = 1 ∧
      t.get F.CORE_TRAPn_PC u n = r.pc ∧ t.get F.CORE_TRAPn_INFO u n = r.info ∧
      t.get F.CORE_TRAP_ADDRn_ADDR u n = r.addr ∧
      t.thread c n = { th with st := .trapped, wait := none, stall := 0 } ∧
      (∀ m : Fin 4, m ≠ n →
        t.thread c m =
          if s.get F.CORE_TRAPCTL_STOP_CORE u = 1 ∧
              ((s.thread c m).st = .running ∨ (s.thread c m).st = .stalled ∨ (s.thread c m).st = .waiting) then
            { s.thread c m with st := .halted, former := (s.thread c m).st }
          else s.thread c m) ∧
      (∀ d m, d ≠ c → t.thread d m = s.thread d m) ∧
      (∀ m : Fin 4, m ≠ n → t.get F.CORE_TRAPn_CAUSE u m = s.get F.CORE_TRAPn_CAUSE u m ∧
        t.get F.CORE_TRAP_ADDRn_ADDR u m = s.get F.CORE_TRAP_ADDRn_ADDR u m) ∧
      { t with regs := s.regs, threads := s.threads, events := s.events, trapWindows := s.trapWindows } = s) ∧
    (th.st = .trapped → s.trap c n r = s.put F.CORE_TRAPn_MULTI 1 u n) ∧
    (th.st = .stopped → s.trapResponse c n r = s.put F.CORE_STAT_STOPPED_ERR 1 u) ∧
    (th.st ≠ .stopped → s.trapResponse c n r = s.trap c n { r with resp := true })

/-- 02 R54, R61, R62, Table 2.7; 03 R100, R115; 06 R225. -/
def Obligations.GuardsAndPendingRegisters : Prop :=
  ∀ (x : Issue) (s : State) (rd rs1 rs2 : Fin 32) (a : Fin 16) (td ta tb pd : Fin 8),
    let th := s.issuer x
    let skips (i : Instr) (len : Nat) : Prop := exec i s = .next (s.after x th (th.pc + len))
    (s.offers x [.s rd, .s rs1, .s rs2, .t td, .t ta, .t tb] 8 → s.tagStall x.core x.thread = none → th.guard x = false →
      skips (.add x rd rs1 false (.reg rs2)) 4 ∧ skips (.div x rd rs1 true (.reg rs2)) 4 ∧
      skips (.lhi x rd rs1 0) 8 ∧ skips (.rdsys x rd 0) 4 ∧
      skips (.cmpEq x pd rs1 rs2) 4 ∧ skips (.pand x pd td ta) 4 ∧ skips (.aadd x a a rs1 3) 4 ∧
      skips (.ld x .d rd a true false (.off32 1)) 8 ∧ skips (.st x .d rd a true true (.off6 1)) 4 ∧
      skips (.amoadd x true rd a false false (.off6 0)) 4 ∧ skips (.nop x) 4 ∧
      (∀ off, skips (.br x off) 4) ∧ (∀ off, skips (.jal x rd off) 4) ∧ skips (.jalr x rd rs1) 4 ∧
      skips (.end_ x) 4 ∧ (∀ code, skips (.trap x code) 4) ∧
      skips (.tileLd x td a true false (.off8 1)) 4 ∧ skips (.tileSt x td a false false (.off32 256)) 8 ∧
      skips (.tmov x td ta 0 0) 4 ∧ skips (.tsigAdd x rd rs1) 4 ∧ skips (.twaitGe x rd rs1) 4 ∧
      skips (.nprobe x rd rs1) 4 ∧ skips (.mfree x a) 4) ∧
    (s.canIssue x.core x.thread = true → s.windowShut x.core th.pc = false → x.held = [] →
      (s.core x.core).isPending x.thread (.s rs1) = true →
      let stalls (i : Instr) : Prop := ∃ t wants, exec i s = .next t ∧
        t.issuer x = { th with st := .stalled, stall := 1, wants } ∧ .s rs1 ∈ wants ∧
        (∀ r ∈ wants, (s.core x.core).isPending x.thread r = true) ∧ s.otherThreadsKept t x.core x.thread ∧
        { t with threads := s.threads, ticked := s.ticked } = s
      stalls (.add x rd rs1 false (.reg rs2)) ∧ stalls (.sel x rd rs1 false (.imm7 0)) ∧
      stalls (.cmpEq x pd rs1 rs2) ∧ stalls (.aset x a rs1) ∧ stalls (.ld x .d rs1 a false false (.off6 0)) ∧
      stalls (.st x .b rs1 a false false (.off6 0)) ∧ stalls (.amoadd x false rs1 a false false (.off6 0)) ∧
      stalls (.jalr x rd rs1) ∧ stalls (.tsigAdd x rd rs1) ∧ stalls (.tsplat x td rs1 0)) ∧
    (∀ (size : Size) (f : Bool) (off : Off) (k : Nat), s.offers x [.s rd] off.len →
      (th.address a false (off.value size.bytes)).toNat = (s.seenLcn x.core).toNat * 2 ^ 16 + k → k < 2 ^ 16 →
      let held (l : List Contention) : Instr := .ld { x with held := l } size rd a false f off
      let lost (i : Instr) (k : Core) : Prop := ∃ t, exec i s = .next t ∧
        t.issuer x = { th with st := .stalled, stall := 4, wants := [] } ∧ t.core x.core = k ∧
        s.otherThreadsKept t x.core x.thread ∧ t.sram = s.sram ∧ t.regs = s.regs ∧ t.fab = s.fab
      let k := s.core x.core
      lost (held [.walker]) k ∧
      (k.tPipeLost = true → lost (held [.pipe]) { k with tPipeLost := false }) ∧
      (k.tPipeLost = false → exec (held [.pipe]) s = exec (held []) (s.setCore x.core { k with tPipeLost := true })) ∧
      (∀ other : Fin 3, k.losesBank 0 other = true → other ≠ 0 → ∃ n, lost (held [.bank other]) { k with portLost := n } ∧
        mget 0 n 0 = mget 0 k.portLost 0 + 1 ∧ mget 0 n other.val = 0))

/-- 04 R164, R165, R175; 05 R191, R195, R196, R206. -/
def Obligations.TileArithmetic : Prop :=
  ∀ (x : Issue) (td ta tb : Fin 8) (fmt : Fin 13) (rm : Fin 3) (s : State),
    s.ready x [.t td, .t ta, .t tb] → s.drawHold x.core rm.val = none →
    let th := s.issuer x
    let w := fmtWidth fmt.val
    let a (e : Nat) := tileElem fmt.val (th.readT ta) e
    let b (e : Nat) := tileElem fmt.val (th.readT tb) e
    let d (e : Nat) := tileElem fmt.val (th.readT td) e
    let elems (g : Nat → Nat) : Tile := packTile fmt.val ((List.range (fmtCount fmt.val)).map g)
    let int (i : Instr) (g : Nat → Int) : Prop :=
      fmt.val = 0x2 ∨ fmt.val = 0xA →
      (rm.val ≠ 2 → exec i s = .next (s.after x
        (th.writeT td (elems fun e => (g e % 2 ^ w).toNat)) (th.pc + 4)))
    let rounds (i : Instr) (f : Fp) (exact : Nat → Machine.Num) (flushed : Nat → Bool) : Prop :=
      ∃ t out, exec i s = .next t ∧
        s.roundedIn t x.core f rm.val ((List.range (fmtCount fmt.val)).map fun e => (e, exact e)) out ∧
        t.issuer x = (th.writeT td (packTile fmt.val (out.map (·.1)))).retiredAt (th.pc + 4) ∧
        s.raisedBy t x.core x.thread ((out.map (·.2)).foldr TFlags.or
          { flush := (List.range (fmtCount fmt.val)).any flushed }) ∧
        s.otherThreadsKept t x.core x.thread ∧ s.fieldsKept t (F.CORE_SRDRAWS_DRAWS :: flagFields) ∧
        { t with threads := s.threads, regs := s.regs, lanes := s.lanes } = s
    int (.tadd x td ta tb fmt rm) (fun e => a e + b e) ∧
    int (.tsub x td ta tb fmt rm) (fun e => a e - b e) ∧
    int (.tmul x td ta tb fmt rm) (fun e => a e * b e) ∧
    (∀ f, fmt.val ∈ [0x6, 0x7, 0x8, 0x9] → fpOf fmt.val = some f →
      let va (e : Nat) := (f.decode (a e)).1
      let vb (e : Nat) := (f.decode (b e)).1
      let vd (e : Nat) := (f.decode (d e)).1
      let fl (e : Nat) := (f.decode (a e)).2 || (f.decode (b e)).2
      rounds (.tadd x td ta tb fmt rm) f (fun e => sumNums [va e, vb e]) fl ∧
      rounds (.tsub x td ta tb fmt rm) f (fun e => sumNums [va e, (vb e).neg]) fl ∧
      rounds (.tmul x td ta tb fmt rm) f (fun e => (va e).mul (vb e)) fl ∧
      rounds (.tfma x td ta tb fmt rm) f (fun e => sumNums [(va e).mul (vb e), vd e])
        (fun e => fl e || (f.decode (d e)).2))

/-- 05 R190 to R192, Table 5.3. -/
def Obligations.RoundingIsNearest : Prop :=
  ∀ (code : Nat) (f : Fp) (sat neg : Bool) (m : Nat) (e : Int), fpOf code = some f → 0 < m →
    let magnitude (y : Nat) (v : ℚ) : Prop := ∃ n k q, (f.decode y).1 = .fin n k q ∧ v = valueOf false k q
    (let r := f.round sat 1 0 neg m e
     r.2.any = false →
      ∃ k q, (f.decode r.1).1 = .fin neg k q ∧ valueOf false k q ≤ valueOf false m e ∧
        ∀ y v, magnitude y v → v ≤ valueOf false m e → v ≤ valueOf false k q) ∧
    (let r := f.round sat 0 0 neg m e
     r.2.any = false →
      ∃ k q, (f.decode r.1).1 = .fin neg k q ∧
        ∀ y v, magnitude y v → |valueOf false m e - valueOf false k q| ≤ |valueOf false m e - v|)

/-- 04 R142, R145, R165, R171, R172, R183, Tables 4.5, 4.7 and 4.8. -/
def Obligations.TileMoves : Prop :=
  (∀ (x : Issue) (td ta tb : Fin 8) (fmt : Fin 13) (rm : Fin 3) (s : State), fmt.val ≤ 0xA →
     let th := s.issuer x
     let w := fmtWidth fmt.val
     let integer := fmt.val = 0x2 ∨ fmt.val = 0xA
     let a (e : Nat) := tileElem fmt.val (th.readT ta) e
     let b (e : Nat) := tileElem fmt.val (th.readT tb) e
     let d (e : Nat) := tileElem fmt.val (th.readT td) e
     let gives (i : Instr) (g : Nat → Nat) : Prop := ∃ v : Tile,
       exec i s = .next (s.after x (th.writeT td v) (th.pc + 4)) ∧
       (∀ e, e < fmtCount fmt.val → tileElem fmt.val v e = g e % 2 ^ w) ∧ v.toNat < 2 ^ (w * fmtCount fmt.val)
     (s.ready x [.t td, .t ta, .t tb] → s.drawHold x.core rm.val = none → ¬(rm.val = 2 ∧ integer) →
       gives (.tmov x td ta fmt rm) a ∧
       gives (.tsel x td ta tb fmt rm) (fun e => if d e = 0 then b e else a e) ∧
       (¬integer → gives (.tabs x td ta fmt rm) (fun e => a e % 2 ^ (w - 1)) ∧
         gives (.tneg x td ta fmt rm) (fun e => a e + 2 ^ (w - 1))) ∧
       (integer → gives (.tabs x td ta fmt rm) (fun e => (toSigned w (a e)).natAbs) ∧
         gives (.tneg x td ta fmt rm) (fun e => 2 ^ w - a e))) ∧
     (∀ rs1 rs2 rd : Fin 32, s.ready x [.t td, .s rs1, .s rs2, .s rd] →
       let at_ := (th.readS rs2).toNat % fmtCount fmt.val
       let low := (th.readS rs1).toNat
       gives (.tins x td rs1 rs2 fmt) (fun e => if e = at_ then low else d e) ∧
       gives (.tsplat x td rs1 fmt) (fun _ => low) ∧
       exec (.text x td rd rs2 fmt) s = .next (s.after x
         (th.writeS rd (if fmt.val = 0x2 ∨ fmt.val = 0xA then BitVec.ofInt 64 (toSigned w (d at_))
           else BitVec.ofNat 64 (d at_))) (th.pc + 4)))) ∧
  ((∀ (x : Issue) (td ta : Fin 8) (fmt : Fin 13) (rm : Fin 3) (s : State),
     ¬(rm.val = 2 ∧ (fmt.val = 0x2 ∨ fmt.val = 0xA)) → fmt.val ∈ [0x0, 0x1, 0x2, 0x3, 0x4, 0x5, 0x6, 0x7, 0x8, 0xA] →
     let g := if fmt.val = 0x8 ∨ fmt.val = 0xA then 4 else if fmt.val = 0x5 ∨ fmt.val = 0x6 ∨ fmt.val = 0x7 then 2 else 1
     let side := if fmt.val = 0x5 then 32 else 16
     let cols := side / g
     ta.val % g = 0 → td.val % g = 0 →
     let group (t : Fin 8) : List RegRef := (List.range g).map fun i => .t (Fin.ofNat 8 (t.val + i))
     s.ready x (group ta ++ group td) → s.drawHold x.core rm.val = none →
     let th := s.issuer x
     let square (th : Thread) (t : Fin 8) (i j : Nat) : Nat :=
       if fmt.val = 0x5 then tileElem fmt.val (th.readT (Fin.ofNat 8 (t.val + i / 16))) (i % 16 * 32 + j)
       else tileElem fmt.val (th.readT (Fin.ofNat 8 (t.val + j / cols))) (i * cols + j % cols)
     ∃ t, exec (.ttr x td ta fmt rm) s = .next t ∧
       (∀ i j, i < side → j < side → square (t.issuer x) td i j = square th ta j i) ∧
       (∀ r : Fin 8, (∀ k, k < g → r ≠ Fin.ofNat 8 (td.val + k)) → (t.issuer x).readT r = th.readT r) ∧
       (t.issuer x).s = th.s ∧ (t.issuer x).a = th.a ∧ (t.issuer x).p = th.p ∧ (t.issuer x).pc = th.pc + 4 ∧
       s.otherThreadsKept t x.core x.thread ∧ { t with threads := s.threads } = s) ∧
   (∀ (x : Issue) (td td1 ta tb : Fin 8) (fmt : Fin 13) (f : Fp) (s : State), fmt.val = 0x8 ∨ fmt.val = 0x9 →
     fpOf fmt.val = some f → td.val % 2 = 0 → td1.val = td.val + 1 →
     s.ready x [.t td, .t td1, .t ta, .t tb] →
     let th := s.issuer x
     let va (e : Nat) := (f.decode (tileElem fmt.val (th.readT ta) e)).1
     let vb (e : Nat) := (f.decode (tileElem fmt.val (th.readT tb) e)).1
     let pair (i : Instr) (exact : Nat → Machine.Num) : Prop :=
       ∃ t hi lo, exec i s = .next t ∧ t.issuer x = ((th.writeT td hi).writeT td1 lo).retiredAt (th.pc + 4) ∧
         s.otherThreadsKept t x.core x.thread ∧ s.fieldsKept t flagFields ∧
         { t with threads := s.threads, regs := s.regs } = s ∧
         ∀ e, e < fmtCount fmt.val →
           let h := tileElem fmt.val hi e
           let l := tileElem fmt.val lo e
           h = (f.encode false 0 0 (exact e)).1 ∧
           ((f.decode h).1 = .nan → l = h) ∧
           (∀ neg, (f.decode h).1 = .inf neg → l = 0) ∧
           (∀ neg m q, (f.decode h).1 = .fin neg m q →
             let rest := sumNums [exact e, .fin (!neg) m q]
             (∀ n' q', rest = .fin n' 0 q' → l = 0) ∧
             (∀ n' m' q', rest = .fin n' m' q' → m' ≠ 0 → l = (f.encode false 0 0 rest).1))
     pair (.ttwosum x td ta tb fmt 0) (fun e => sumNums [va e, vb e]) ∧
     pair (.ttwoprod x td ta tb fmt 0) (fun e => (va e).mul (vb e))))

/-- 04 R167; 05 R182, R184, R185. -/
def Obligations.TileComparesAndExtremes : Prop :=
  ∀ (x : Issue) (td ta tb pd : Fin 8) (fmt : Fin 13) (s : State), fmt.val ∈ [0x2, 0x6, 0x7, 0x8, 0x9, 0xA] →
    let th := s.issuer x
    let w := fmtWidth fmt.val
    let n := fmtCount fmt.val
    let va (e : Nat) := decodeElem fmt.val (tileElem fmt.val (th.readT ta) e)
    let vb (e : Nat) := decodeElem fmt.val (tileElem fmt.val (th.readT tb) e)
    let value (v : Machine.Num) : ℚ := match v with
      | .fin neg m q => valueOf neg m q
      | _ => 0
    let flushed (raw : Nat) : Nat := if (decodeElem fmt.val raw).2 then raw / 2 ^ (w - 1) * 2 ^ (w - 1) else raw
    let canonicalNan : Nat := match fmt.val with
      | 0x6 => 0x7E00
      | 0x7 => 0x7FC0
      | 0x8 => 0x7FC0_0000
      | _ => 0x7FF8_0000_0000_0000
    let lt (u v : Machine.Num) : Prop := match u, v with
      | .fin _ _ _, .fin _ _ _ => value u < value v
      | .inf true, .inf false | .inf true, .fin _ _ _ | .fin _ _ _, .inf false => True
      | _, _ => False
    let holds (cond e : Nat) : Prop :=
      let nan := (va e).1 = .nan ∨ (vb e).1 = .nan
      match cond with
      | 0 => ¬nan ∧ ¬lt (va e).1 (vb e).1 ∧ ¬lt (vb e).1 (va e).1
      | 1 => ¬nan ∧ lt (va e).1 (vb e).1
      | 2 => ¬nan ∧ ¬lt (vb e).1 (va e).1
      | _ => nan
    let flush : TFlags := { flush := (List.range n).any fun e => (va e).2 || (vb e).2 }
    let raises (t : State) (g : TFlags) : Prop :=
      s.otherThreadsKept t x.core x.thread ∧ s.raisedBy t x.core x.thread g ∧ s.fieldsKept t flagFields ∧
        { t with threads := s.threads, regs := s.regs } = s
    (∀ cond : Fin 4, s.ready x [.t td, .t ta, .t tb] →
      (∃ t v, exec (.tcmpm x td ta tb fmt cond) s = .next t ∧ raises t flush ∧
        t.issuer x = (th.writeT td v).retiredAt (th.pc + 4) ∧
        ∀ e, e < n → (holds cond.val e → tileElem fmt.val v e = 2 ^ w - 1) ∧
          (¬holds cond.val e → tileElem fmt.val v e = 0)) ∧
      (∃ t p, exec (.tcmpAny x pd ta tb fmt cond) s = .next t ∧ raises t flush ∧
        t.issuer x = (th.writeP pd p).retiredAt (th.pc + 4) ∧ (p = true ↔ ∃ e, e < n ∧ holds cond.val e)) ∧
      (∃ t p, exec (.tcmpAll x pd ta tb fmt cond) s = .next t ∧ raises t flush ∧
        t.issuer x = (th.writeP pd p).retiredAt (th.pc + 4) ∧ (p = true ↔ ∀ e, e < n → holds cond.val e))) ∧
    (∀ rm : Fin 3, s.ready x [.t td, .t ta, .t tb] → s.drawHold x.core rm.val = none →
      ¬(rm.val = 2 ∧ (fmt.val = 0x2 ∨ fmt.val = 0xA)) →
      let picks (i : Instr) (smaller : Bool) : Prop :=
        ∃ t v, exec i s = .next t ∧ raises t flush ∧ t.issuer x = (th.writeT td v).retiredAt (th.pc + 4) ∧
          ∀ e, e < n →
            let out := tileElem fmt.val v e
            let r := (decodeElem fmt.val out).1
            ((va e).1 = .nan ∨ (vb e).1 = .nan → out = canonicalNan) ∧
            ((va e).1 ≠ .nan → (vb e).1 ≠ .nan →
              (out = flushed (tileElem fmt.val (th.readT ta) e) ∨ out = flushed (tileElem fmt.val (th.readT tb) e)) ∧
              (if smaller then ¬lt (va e).1 r ∧ ¬lt (vb e).1 r else ¬lt r (va e).1 ∧ ¬lt r (vb e).1) ∧
              ((va e).1.isFin = true ∧ value (va e).1 = 0 → (vb e).1.isFin = true ∧ value (vb e).1 = 0 →
                r.sign = if smaller then (va e).1.sign || (vb e).1.sign else (va e).1.sign && (vb e).1.sign))
      picks (.tmin x td ta tb fmt rm) true ∧ picks (.tmax x td ta tb fmt rm) false)

/-- 04 R168, R175, Table 4.1. -/
def Obligations.TileReductions : Prop :=
  ∀ (x : Issue) (td ta : Fin 8) (fmt : Fin 13) (rm : Fin 3) (s : State),
    s.ready x [.t td, .t ta] → s.drawHold x.core rm.val = none →
    let th := s.issuer x
    let k := fmtCount fmt.val / 16
    let row (i : Nat) : List Nat := (List.range k).map fun j => tileElem fmt.val (th.readT ta) (k * i + j)
    (fmt.val = 0xA → rm.val ≠ 2 →
      let every (v : Tile) (g : Nat → Nat) : Prop :=
        ∀ i j, i < 16 → j < k → tileElem fmt.val v (k * i + j) = g i
      (∃ v, exec (.tredSum x td ta fmt rm) s = .next (s.after x (th.writeT td v) (th.pc + 4)) ∧
        every v fun i => (row i).sum % 2 ^ 32) ∧
      (∃ v, exec (.tredMax x td ta fmt rm) s = .next (s.after x (th.writeT td v) (th.pc + 4)) ∧
        ∀ i, i < 16 → ∃ m, m ∈ row i ∧ (∀ y, y ∈ row i → toSigned 32 y ≤ toSigned 32 m) ∧
          ∀ j, j < k → tileElem fmt.val v (k * i + j) = m)) ∧
    (∀ f, fmt.val ∈ [0x6, 0x7, 0x8, 0x9] → fpOf fmt.val = some f →
      let nums (i : Nat) : List Machine.Num := (row i).map fun y => (f.decode y).1
      let flushed := (List.range 16).any fun i => (row i).any fun y => (f.decode y).2
      let gives (i : Instr) (mode : Nat) (g : Nat → Machine.Num) : Prop :=
        ∃ t out, exec i s = .next t ∧
          s.roundedIn t x.core f mode ((List.range 16).map fun i => (i * k, g i)) out ∧
          t.issuer x = (th.writeT td (packTile fmt.val (out.flatMap fun r => List.replicate k r.1))).retiredAt
            (th.pc + 4) ∧
          s.raisedBy t x.core x.thread ((out.map (·.2)).foldr TFlags.or { flush := flushed }) ∧
          s.otherThreadsKept t x.core x.thread ∧ s.fieldsKept t (F.CORE_SRDRAWS_DRAWS :: flagFields) ∧
          { t with threads := s.threads, regs := s.regs, lanes := s.lanes } = s
      gives (.tredSum x td ta fmt rm) rm.val (fun i => sumNums (nums i)) ∧
      gives (.tredMax x td ta fmt rm) 0 (fun i => (nums i).tail.foldl Machine.Num.max ((nums i).headD .nan)))

/-- 04 R169, Tables 4.6 and 4.11. -/
def Obligations.SpecialFunctions : Prop :=
  ∀ (x : Issue) (td ta : Fin 8) (fmt : Fin 13) (s : State), fmt.val ∈ [0x6, 0x7, 0x8] → s.ready x [.t td, .t ta] →
    let th := s.issuer x
    let u := x.core.toNat
    let val (e : Nat) : Machine.Num := (decodeElem fmt.val (tileElem fmt.val (th.readT ta) e)).1
    let sign : Nat := 2 ^ (fmtWidth fmt.val - 1)
    let infinity : Nat := match fmt.val with | 0x6 => 0x7C00 | 0x7 => 0x7F80 | _ => 0x7F80_0000
    let canonicalNan : Nat := match fmt.val with | 0x6 => 0x7E00 | 0x7 => 0x7FC0 | _ => 0x7FC0_0000
    let one : Nat := match fmt.val with | 0x6 => 0x3C00 | 0x7 => 0x3F80 | _ => 0x3F80_0000
    let signed (neg : Bool) (v : Nat) : Nat := if neg then sign + v else v
    let special (i : Instr) (table : Machine.Num → Option Nat) (invalid : Machine.Num → Bool) : Prop :=
      ∃ t v, exec i s = .next t ∧ t.issuer x = (th.writeT td v).retiredAt (th.pc + 4) ∧
        (∀ e r, e < fmtCount fmt.val → table (val e) = some r → tileElem fmt.val v e = r) ∧
        ((∃ e, e < fmtCount fmt.val ∧ invalid (val e) = true) → t.get F.CORE_TSTAT_NV u = 1) ∧
        ((∀ e, e < fmtCount fmt.val → invalid (val e) = false) →
          t.get F.CORE_TSTAT_NV u = s.get F.CORE_TSTAT_NV u) ∧
        ((∃ e, e < fmtCount fmt.val ∧ (decodeElem fmt.val (tileElem fmt.val (th.readT ta) e)).2 = true) →
          t.get F.CORE_TSTAT_FLUSH u = 1) ∧
        s.otherThreadsKept t x.core x.thread ∧ s.fieldsKept t flagFields ∧
        { t with threads := s.threads, regs := s.regs } = s
    special (.texp2 x td ta fmt 0)
      (fun v => match v with
        | .nan | .invalid => some canonicalNan
        | .inf neg => some (if neg then 0 else infinity)
        | .fin _ m _ => if m = 0 then some one else none)
      (fun _ => false) ∧
    special (.trcp x td ta fmt 0)
      (fun v => match v with
        | .nan | .invalid => some canonicalNan
        | .inf neg => some (signed neg 0)
        | .fin neg m _ => if m = 0 then some (signed neg infinity) else none)
      (fun _ => false) ∧
    special (.trsqrt x td ta fmt 0)
      (fun v => match v with
        | .nan | .invalid => some canonicalNan
        | .inf neg => some (if neg then canonicalNan else 0)
        | .fin neg m _ => if m = 0 then some (signed neg infinity) else if neg then some canonicalNan else none)
      (fun v => match v with
        | .inf neg => neg
        | .fin neg m _ => neg && decide (m ≠ 0)
        | _ => false)

/-- 04 R170, R175; 05 R203 to R206. -/
def Obligations.Conversion : Prop :=
  ∀ (x : Issue) (td ta : Fin 8) (fmts fmtd : Fin 13) (rm : Fin 3) (part : Fin 8) (s : State),
    fmts.val ≤ 0xA → fmtd.val ≤ 0xA → s.ready x [.t td, .t ta] 8 → s.drawHold x.core rm.val = none →
    ¬(rm.val = 2 ∧ (fmtd.val = 0x2 ∨ fmtd.val = 0xA)) →
    let ns := fmtCount fmts.val
    let nd := fmtCount fmtd.val
    let ratio := max ns nd / min ns nd
    ratio ≤ 8 → part.val < ratio →
    let th := s.issuer x
    let n := min ns nd
    let srcAt := if nd ≤ ns then part.val * nd else 0
    let dstAt := if nd ≤ ns then 0 else part.val * ns
    let src (e : Nat) := decodeElem fmts.val (tileElem fmts.val (th.readT ta) (srcAt + e))
    ∃ (t : State) (v : Tile) (out : List (Nat × TFlags)), exec (.tcvt x td ta fmts fmtd rm part) s = .next t ∧
      (∀ f, fpOf fmtd.val = some f →
        s.roundedIn t x.core f rm.val ((List.range n).map fun e => (dstAt + e, (src e).1)) out) ∧
      (fpOf fmtd.val = none → out = (List.range n).map (fun e => toInteger (fmtWidth fmtd.val) rm.val (src e).1) ∧
        t.lanes = s.lanes) ∧
      t.issuer x = (th.writeT td v).retiredAt (th.pc + 8) ∧
      (∀ e, e < nd → tileElem fmtd.val v e =
        if dstAt ≤ e ∧ e < dstAt + n then ((out.map (·.1))[e - dstAt]?.getD 0) % 2 ^ fmtWidth fmtd.val
        else tileElem fmtd.val (th.readT td) e) ∧
      s.raisedBy t x.core x.thread ((out.map (·.2)).foldr TFlags.or
        { flush := (List.range n).any fun e => (src e).2 }) ∧
      s.otherThreadsKept t x.core x.thread ∧ s.fieldsKept t (F.CORE_SRDRAWS_DRAWS :: flagFields) ∧
      { t with threads := s.threads, regs := s.regs, lanes := s.lanes } = s

/-- 04 R165, R170 to R172, R175, R178, Table 4.11. -/
def Obligations.TileFormatTraps : Prop :=
  ∀ (x : Issue) (td ta tb : Fin 8) (s : State),
    s.ready x (((List.range 8).map fun i => RegRef.t (Fin.ofNat 8 i)) ++ [.t td, .t ta, .t tb]) 8 →
    s.drawHold x.core 2 = none →
    let traps (i : Instr) (sub : Nat) : Prop := ∃ multi, exec i s =
      .next (s.trap x.core x.thread { cause := 0x10, sub, pc := (s.issuer x).pc, multi })
    (∀ fmt : Fin 13, fmt.val ∈ [0x0, 0x1, 0x3, 0x4, 0x5, 0xB, 0xC] → ∀ rm : Fin 3,
      traps (.tadd x td ta tb fmt rm) 0 ∧ traps (.tsub x td ta tb fmt rm) 0 ∧ traps (.tmul x td ta tb fmt rm) 0 ∧
      traps (.tmin x td ta tb fmt rm) 0 ∧ traps (.tmax x td ta tb fmt rm) 0 ∧
      (∀ cond, traps (.tcmpm x td ta tb fmt cond) 0 ∧ traps (.tcmpAny x td ta tb fmt cond) 0 ∧
        traps (.tcmpAll x td ta tb fmt cond) 0)) ∧
    (∀ rm : Fin 3, traps (.tfma x td ta tb 0x2 rm) 0 ∧ traps (.tfma x td ta tb 0xA rm) 0 ∧
      traps (.tredSum x td ta 0x2 rm) 0 ∧ traps (.texp2 x td ta 0x9 rm) 0 ∧ traps (.ttwosum x td ta tb 0x6 rm) 0 ∧
      traps (.ttr x td ta 0x9 rm) 0 ∧ traps (.tmov x td ta 0xB rm) 0) ∧
    (td.val % 2 = 1 → traps (.ttwosum x td ta tb 0x8 0) 1 ∧ traps (.ttwoprod x td ta tb 0x9 0) 1 ∧
      traps (.ttr x td ta 0x6 0) 1) ∧
    traps (.tadd x td ta tb 0x2 2) 4 ∧ traps (.tabs x td ta 0xA 2) 4 ∧ traps (.trcp x td ta 0x8 1) 4 ∧
    traps (.trsqrt x td ta 0x6 2) 4 ∧
    traps (.tcvt x td ta 0x8 0x6 0 2) 5 ∧ traps (.tcvt x td ta 0x9 0x5 0 7) 6

/-- 02 R56, R85; 04 R149, R156, R157, Table 4.11. -/
def Obligations.TensorQueue : Prop :=
  (∀ (x : Issue) (cd : Fin 4) (ta tb ts : Fin 8) (fmt : Fin 13) (rm : Fin 3) (z ng mx long : Bool) (s : State),
    s.ready x [.t ta, .t tb, .t ts] 8 → (rm.val = 2 → (s.core x.core).reseeding = false) →
    let form : Option (Bool × Fin 8 × BitVec 16) := if long then some (mx, ts, 0) else none
    (long = false → mx = false ∧ ts = 0) →
    let th := s.issuer x
    let i : Instr := .tmma x cd ta tb fmt rm z ng form
    let pair := fmt.val = 9 ∧ cd.val % 2 = 0
    let owns := s.owner x.core cd.val = x.thread ∧ (pair → s.owner x.core (cd.val + 1) = x.thread)
    (2 ≤ (s.core x.core).queue.length →
      ∃ t, exec i s = .next t ∧ t.issuer x = { th with st := .stalled, stall := 5, wants := [] } ∧
        s.otherThreadsKept t x.core x.thread ∧ { t with threads := s.threads, ticked := s.ticked } = s) ∧
    ((s.core x.core).queue.length < 2 → owns → fmt.val ≠ 0xA → ¬(fmt.val = 9 ∧ cd.val % 2 = 1) →
      (mx = true → fmt.val ≤ 5 ∨ 0xB ≤ fmt.val) → ¬(fmt.val = 2 ∧ mx = false ∧ rm.val ≠ 0) →
      ∃ t, exec i s = .next t ∧ t.issuer x = th.retiredAt (th.pc + if long then 8 else 4) ∧
        t.core x.core = { s.core x.core with
          queue := (s.core x.core).queue ++
            [{ thread := x.thread, pc := th.pc, cd, a := th.readT ta, b := th.readT tb, scales := th.readT ts,
               fmt := fmt.val, rm := rm.val, z, ng, mx, sparse := 0 }] } ∧
        s.otherThreadsKept t x.core x.thread ∧ (∀ d, d ≠ x.core → t.core d = s.core d) ∧
        { t with threads := s.threads, cores := s.cores } = s) ∧
    ((s.core x.core).queue.length < 2 → s.owner x.core cd.val ≠ x.thread →
      ∃ multi, exec i s =
        .next (s.trap x.core x.thread { cause := 8, sub := 0, pc := th.pc, info := cd.val, multi })) ∧
    (∀ desc : BitVec 16, long = true → desc ≠ 0 → (s.core x.core).queue.length < 2 → owns → fmt.val ≠ 0xA →
      ¬(fmt.val = 9 ∧ cd.val % 2 = 1) → (mx = true → fmt.val ≤ 5 ∨ 0xB ≤ fmt.val) →
      ¬(fmt.val = 2 ∧ mx = false ∧ rm.val ≠ 0) →
      let d := desc.toNat
      let ha := stripeOf (th.readT ta) (d / 2 % 16)
      let hb := stripeOf (th.readT tb) (d / 32 % 16)
      let fits (h : Stripe) : Prop := h.form < 2 ∧ h.reservedZero = true ∧ 1 ≤ h.span ∧ h.span ≤ 128 ∧
        (h.form = 0 → h.count = 0 ∧ h.base + h.span ≤ 256) ∧
        (h.form = 1 → h.count ≤ h.span ∧ h.base + h.count ≤ 255) ∧ (mx = false → h.xbase = 0) ∧
        (let n := if h.form = 0 then h.span else h.count
         mx = true → 0 < n → h.xbase + (n - 1) / 16 ≤ 255)
      let ok := d % 2 = 1 ∧ d < 512 ∧ fits ha ∧ fits hb ∧ ha.span = hb.span ∧ ¬(ha.s24 = true ∧ hb.s24 = true) ∧
        (ha.s24 = true ∨ hb.s24 = true → fmt.val ≤ 7 ∨ 0xB ≤ fmt.val) ∧ (mx = true → ts = 0)
      let j : Instr := .tmma x cd ta tb fmt rm z ng (some (mx, ts, desc))
      (ok → ∃ t, exec j s = .next t ∧ t.issuer x = th.retiredAt (th.pc + 8) ∧
        t.core x.core = { s.core x.core with
          queue := (s.core x.core).queue ++
            [{ thread := x.thread, pc := th.pc, cd, a := th.readT ta, b := th.readT tb, scales := th.readT ts,
               fmt := fmt.val, rm := rm.val, z, ng, mx, sparse := d }] } ∧
        s.otherThreadsKept t x.core x.thread ∧ (∀ d, d ≠ x.core → t.core d = s.core d) ∧
        { t with threads := s.threads, cores := s.cores } = s) ∧
      (¬ok → exec j s = .next (s.trap x.core x.thread { cause := 0x10, sub := 7, pc := th.pc })))) ∧
  (∀ (c : Lcn) (s : State) (q : Product) (rest : List Product),
    (s.core c).array = none → (s.core c).queue = q :: rest →
    q.sparse = 0 ∨ (∃ w, q.walk = some w ∧ (w.bad ≠ none ∨ w.pairs = [] ∨ w.reads ≠ [])) →
    ∃ t, exec (.tensorArrayStart c) s = .next t ∧ t.core c = { s.core c with array := some q, queue := rest } ∧
      (∀ d, d ≠ c → t.core d = s.core d) ∧ s.threadsSettled t c ∧
      (∀ m, (s.thread c m).st = .stalled → (s.thread c m).stall = 5 → rest.length < 2 → (t.thread c m).st = .running) ∧
      { t with cores := s.cores, threads := s.threads } = s)

/-- 04 R149, R150, R154, R158, R175, Table 4.2. -/
def Obligations.DenseProducts : Prop :=
  ∀ (c : Lcn) (s : State) (q : Product), (s.core c).array = some q → q.sparse = 0 →
    let kept (t : State) : Prop :=
      (t.core c).array = none ∧ (t.core c).queue = (s.core c).queue ∧ (∀ d, d ≠ c → t.core d = s.core d) ∧
        s.threadsSettled t c ∧
        s.fieldsKept t ([F.CORE_TBUSY_BUSY, F.CORE_TBUSY_SAT, F.CORE_ACC_OWN_OWNER_k, F.CORE_SRDRAWS_DRAWS] ++
          flagFields) ∧
        { t with cores := s.cores, regs := s.regs, lanes := s.lanes, threads := s.threads } = s
    (q.fmt = 2 → q.mx = false →
      let a (i k : Nat) := toSigned 8 (tileElem 2 q.a (16 * i + k))
      let b (j k : Nat) := toSigned 8 (tileElem 2 q.b (16 * j + k))
      let old (e : Nat) : Int := if q.z then 0 else toSigned 32 ((s.acc c q.cd.val).toNat / 2 ^ (32 * e) % 2 ^ 32)
      let sum (i j : Nat) : Int := ((List.range 16).map fun k => a i k * b j k).sum
      let exact (e : Nat) : Int := old e + (if q.ng then -sum (e / 16) (e % 16) else sum (e / 16) (e % 16))
      ∃ t, exec (.tensorArrayComplete c) s = .next t ∧ kept t ∧ t.lanes = s.lanes ∧
        (∀ e, e < 256 → ((t.acc c q.cd.val).toNat / 2 ^ (32 * e) % 2 ^ 32 : Nat) = (exact e % 2 ^ 32).toNat) ∧
        (∀ k, k ≠ q.cd.val → k < 4 → t.acc c k = s.acc c k) ∧
        (let wraps (e : Nat) : Bool := decide (exact e < -2 ^ 31) || decide (2 ^ 31 ≤ exact e)
         s.raisedBy t c q.thread { intwrap := (List.range 256).any wraps })) ∧
    (q.fmt ≤ 0xC → (q.fmt = 2 → q.mx = true) → q.fmt ≠ 0xA → (q.fmt = 9 → q.cd.val % 2 = 0) →
      let fa := if q.fmt = 0xB then 0 else if q.fmt = 0xC then 1 else q.fmt
      let fb := if q.fmt = 0xB then 1 else if q.fmt = 0xC then 0 else q.fmt
      let cols := fmtCount fa / 16
      let a (i k : Nat) := decodeElem fa (tileElem fa q.a (cols * i + k))
      let b (j k : Nat) := decodeElem fb (tileElem fb q.b (cols * j + k))
      let code := if q.fmt = 9 then 9 else 8
      let w := if q.fmt = 9 then 64 else 32
      let per := if q.fmt = 9 then 128 else 256
      let old (u : State) (e : Nat) : Nat :=
        (u.acc c (q.cd.val + e / per)).toNat / 2 ^ (w * (e % per)) % 2 ^ w
      let scale (n : Nat) : Machine.Num :=
        let v := q.scales.toNat / 2 ^ (8 * n) % 256
        if v = 0xFF then .nan else .fin false 1 ((v : Int) - 127)
      let scaled (n : Nat) (v : Machine.Num) : Machine.Num :=
        if q.mx then (scale n).mul (match v with
          | .fin neg m e => .fin neg m (if q.fmt = 2 then e - 6 else e)
          | v => v)
        else v
      let terms (e : Nat) : List Machine.Num := (List.range cols).map fun k =>
        let v := (scaled (e / 16) (a (e / 16) k).1).mul (scaled (16 + e % 16) (b (e % 16) k).1)
        if q.ng then v.neg else v
      let exact (e : Nat) : Machine.Num :=
        sumNums (if q.z then terms e else (decodeElem code (old s e)).1 :: terms e)
      ∀ f, fpOf code = some f →
        ∃ t out, exec (.tensorArrayComplete c) s = .next t ∧ kept t ∧
          s.roundedIn t c f q.rm ((List.range 256).map fun e => (e, exact e)) out ∧
          (∀ e r, out[e]? = some r → old t e = r.1 % 2 ^ w) ∧
          s.raisedBy t c q.thread ((out.map (·.2)).foldr TFlags.or { flush :=
            ((List.range 16).any fun i => (List.range cols).any fun k => (a i k).2 || (b i k).2) ||
              (!q.z && (List.range 256).any fun e => (decodeElem code (old s e)).2) }) ∧
          (∀ k, k < 4 → k ≠ q.cd.val → (q.fmt = 9 → k ≠ q.cd.val + 1) → t.acc c k = s.acc c k))

/-- 04 R146, R147, R161, R162, Table 4.4. -/
def Obligations.AccumulatorMoves : Prop :=
  ∀ (x : Issue) (cd : Fin 4) (tr : Fin 8) (part : Fin 8) (fmt : Fin 13) (rm : Fin 3) (s : State),
    let th := s.issuer x
    let c := x.core
    let pair := fmt.val = 9
    (pair → cd.val % 2 = 0) →
    (∀ k, k = cd.val ∨ (pair ∧ k = cd.val + 1) → s.owner c k = x.thread ∧ (s.core c).accInUse k = false) →
    let elem (w per e : Nat) : Nat := (s.acc c (cd.val + e / per)).toNat / 2 ^ (w * (e % per)) % 2 ^ w
    let only (t : State) (fields : List Fld) : Prop :=
      s.otherThreadsKept t c x.thread ∧ s.fieldsKept t fields ∧
        { t with threads := s.threads, regs := s.regs, lanes := s.lanes } = s
    (s.ready x [.t tr] → s.drawHold c rm.val = none →
      (fmt.val = 0xA → part.val < 4 → rm.val ≠ 2 → ∃ v,
        exec (.cread x cd tr part fmt rm) s = .next (s.after x (th.writeT tr v) (th.pc + 4)) ∧
        ∀ e, e < 64 → tileElem 0xA v e = elem 32 256 (64 * part.val + e)) ∧
      (fmt.val = 2 → part.val = 0 → rm.val ≠ 2 → ∃ t v,
        exec (.cread x cd tr part fmt rm) s = .next t ∧ t.issuer x = (th.writeT tr v).retiredAt (th.pc + 4) ∧
        only t flagFields ∧
        (∀ e, e < 256 → toSigned 8 (tileElem 2 v e) = max (-128) (min 127 (toSigned 32 (elem 32 256 e)))) ∧
        (let clamps (e : Nat) : Bool :=
           decide (toSigned 32 (elem 32 256 e) < -128) || decide (127 < toSigned 32 (elem 32 256 e))
         s.raisedBy t c x.thread { cvtsat := (List.range 256).any clamps })) ∧
      (∀ f, fpOf fmt.val = some f → part.val < (match fmt.val with | 8 => 4 | 5 | 6 | 7 => 2 | 9 => 8 | _ => 1) →
        let n := match fmt.val with | 8 => 64 | 6 | 7 => 128 | 9 => 32 | _ => 256
        let code := if pair then 9 else 8
        let w := if fmt.val = 9 then 64 else 32
        let per := if fmt.val = 9 then 128 else 256
        let first := if n = 256 then 0 else n * part.val
        ∃ (t : State) (v : Tile) (out : List (Nat × TFlags)),
          exec (.cread x cd tr part fmt rm) s = .next t ∧ t.issuer x = (th.writeT tr v).retiredAt (th.pc + 4) ∧
          s.roundedIn t c f rm.val
            ((List.range n).map fun e => (first + e, (decodeElem code (elem w per (first + e))).1)) out ∧
          only t (F.CORE_SRDRAWS_DRAWS :: flagFields) ∧
          s.raisedBy t c x.thread ((out.map (·.2)).foldr TFlags.or
            { flush := (List.range n).any fun e => (decodeElem code (elem w per (first + e))).2 }) ∧
          (fmt.val ≠ 5 → ∀ e r, out[e]? = some r → tileElem fmt.val v e = r.1 % 2 ^ fmtWidth fmt.val) ∧
          (fmt.val = 5 → ∀ i j, i < 16 → j < 32 → tileElem 5 v (32 * i + j) =
            if j / 16 = part.val then ((out.map (·.1))[16 * i + j % 16]?.getD 0) % 16
            else tileElem 5 (th.readT tr) (32 * i + j)))) ∧
    (s.ready x [.t tr] → s.drawHold c rm.val = none → fmt.val = 8 ∨ fmt.val = 0xA ∨ fmt.val = 9 →
      (fmt.val ≠ 9 → part.val < 4) →
      ∃ t, exec (.cwrite x cd tr part fmt rm) s = .next t ∧ t.issuer x = th.retiredAt (th.pc + 4) ∧
        s.otherThreadsKept t c x.thread ∧ { t with threads := s.threads, cores := s.cores } = s ∧
        (∀ d, d ≠ c → t.core d = s.core d) ∧ { t.core c with accs := (s.core c).accs } = s.core c ∧
        (∀ k p, k < 4 → p < 4 → (t.acc c k).toNat / 2 ^ (2048 * p) % 2 ^ 2048 =
          if k = cd.val + part.val / 4 ∧ p = part.val % 4 then (th.readT tr).toNat
          else (s.acc c k).toNat / 2 ^ (2048 * p) % 2 ^ 2048)) ∧
    (s.ready x [] → fmt.val = 0 →
      ∃ t, exec (.czero x cd) s = .next t ∧ t.issuer x = th.retiredAt (th.pc + 4) ∧
        s.otherThreadsKept t c x.thread ∧ { t with threads := s.threads, cores := s.cores } = s ∧
        (∀ d, d ≠ c → t.core d = s.core d) ∧ { t.core c with accs := (s.core c).accs } = s.core c ∧
        t.acc c cd.val = 0 ∧ ∀ k, k < 4 → k ≠ cd.val → t.acc c k = s.acc c k)

/-- 06 R218, R227, R230, R692, Tables 6.1, 6.2 and 6.5. -/
def Obligations.Walker : Prop :=
  (∀ (c : Lcn) (s : State) (q : Product) (rest : List Product), (s.core c).queue = q :: rest →
    q.sparse ≠ 0 → q.walk = none →
    let u := c.toNat
    let ha := stripeOf q.a (bits q.sparse 4 1)
    let hb := stripeOf q.b (bits q.sparse 8 5)
    let good (h : Stripe) : Prop := h.form ≠ 0 → s.tileGood c h.base = true
    let value (h : Stripe) (n : Nat) : Nat := (s.readTile c h.base).toNat / 2 ^ (8 * (16 + n)) % 256
    let takes (h : Stripe) (k : Nat → Bool) : Prop := ∀ n, k n = true ↔
      if h.form = 0 then n < h.span
      else n < h.count ∧ value h n < h.span ∧ ∀ m, m < n → k m = true → value h m < value h n
    let dropped (h : Stripe) (k : Nat → Bool) : Nat :=
      if h.form = 0 then 0 else ((List.range h.count).filter fun n => !k n).length
    let position (h : Stripe) (n : Nat) : Nat := if h.form = 0 then n else value h n
    let tile (h : Stripe) (n : Nat) : Nat := if h.form = 0 then h.base + n else h.base + 1 + n
    let counts (t : State) (n : Nat) : Prop :=
      (s.get F.SPX_DROP_IDX u + n < 2 ^ 32 →
        t.get F.SPX_DROP_IDX u = s.get F.SPX_DROP_IDX u + n ∧ t.get F.SPX_DROP_SAT u = s.get F.SPX_DROP_SAT u) ∧
      (2 ^ 32 ≤ s.get F.SPX_DROP_IDX u + n → 0 < n →
        t.get F.SPX_DROP_IDX u = 2 ^ 32 - 1 ∧ t.get F.SPX_DROP_SAT u = 1) ∧
      (∀ m : Fin 4, (t.get F.SPX_DROP_SRC u).testBit m =
        ((s.get F.SPX_DROP_SRC u).testBit m || (decide (m = q.thread) && decide (0 < n))))
    let walks (t : State) (w : Walk) : Prop := exec (.walkerLeadIn c) s = .next t ∧
      t.core c = { s.core c with queue := { q with walk := some w } :: rest } ∧ (∀ d, d ≠ c → t.core d = s.core d) ∧
      t.sram = s.sram ∧ t.threads = s.threads
    (good ha → good hb → ∃ (t : State) (pairs : List (Nat × Nat × Nat × Nat)) (ka kb : Nat → Bool),
      walks t { pairs := pairs } ∧ takes ha ka ∧ takes hb kb ∧ counts t (dropped ha ka + dropped hb kb) ∧
      (∀ p, p ∈ pairs ↔ ∃ m n, ka m = true ∧ kb n = true ∧ position ha m = position hb n ∧
        p = (tile ha m, tile hb n, m, n)) ∧
      pairs.Pairwise (fun p r => p.2.2.1 < r.2.2.1) ∧
      s.fieldsKept t [F.SPX_DROP_IDX, F.SPX_DROP_SAT, F.SPX_DROP_SRC] ∧
      { t with regs := s.regs, cores := s.cores, ticked := s.ticked } = s) ∧
    (¬good ha → ∃ t, walks t { pairs := [], bad := some ha.base } ∧ counts t 0) ∧
    (good ha → ¬good hb → ∃ t ka, walks t { pairs := [], bad := some hb.base } ∧ takes ha ka ∧ counts t (dropped ha ka))) ∧
  (∀ (c : Lcn) (s : State) (head : Bool) (q : Product) (w : Walk) (p : Nat × Nat × Nat × Nat),
    (if head then (s.core c).queue.head? else (s.core c).array) = some q → q.walk = some w → w.bad = none →
    (head = true → w.reads = []) → w.pairs[w.reads.length]? = some p →
    let ha := stripeOf q.a (bits q.sparse 4 1)
    let hb := stripeOf q.b (bits q.sparse 8 5)
    let scale (h : Stripe) (d : Nat) : Nat := h.xbase + d / 16
    let before := if w.reads.length = 0 then none else w.pairs[w.reads.length - 1]?
    let fresh (h : Stripe) (d : Nat) (old : Option Nat) : List Nat := if old = some (scale h d) then [] else [scale h d]
    let read := [p.1, p.2.1] ++ if q.mx then
      fresh ha p.2.2.1 (before.map fun b => scale ha b.2.2.1) ++ fresh hb p.2.2.2 (before.map fun b => scale hb b.2.2.2)
      else []
    let slot (h : Stripe) (d : Nat) : Nat := (s.readTile c (scale h d)).toNat / 2 ^ (128 * (d % 16)) % 2 ^ 128
    let scales : Tile := if q.mx then BitVec.ofNat 2048 (slot ha p.2.2.1 + 2 ^ 128 * slot hb p.2.2.2) else 0
    let done := if head then w.counted else max w.counted (w.reads.length - 1)
    let reads (t : State) (v : Walk) : Prop := exec (.walkerPassRead c head) s = .next t ∧
      t.core c = (if head then { s.core c with queue := { q with walk := some v } :: (s.core c).queue.drop 1 }
        else { s.core c with array := some { q with walk := some v } }) ∧
      (∀ d, d ≠ c → t.core d = s.core d) ∧ t.sram = s.sram ∧ t.threads = s.threads ∧
      (s.get F.SPX_PASSES_PASSES c.toNat + (done - w.counted) < 2 ^ 48 →
        t.get F.SPX_PASSES_PASSES c.toNat = s.get F.SPX_PASSES_PASSES c.toNat + (done - w.counted))
    ((∀ k, k ∈ read → s.tileGood c k = true) → ∃ t,
      reads t { w with counted := done, reads := w.reads ++ [(s.readTile c p.1, s.readTile c p.2.1, scales)] } ∧
      s.fieldsKept t [F.SPX_PASSES_PASSES, F.SPX_PASSES_SAT] ∧
      { t with regs := s.regs, cores := s.cores, ticked := s.ticked } = s) ∧
    (∀ pre k post, read = pre ++ k :: post → (∀ m, m ∈ pre → s.tileGood c m = true) → s.tileGood c k = false →
      ∃ t, reads t { w with counted := done, bad := some k }))

/-- 06 R219, R220, R223. -/
def Obligations.SparseEqualsDense : Prop :=
  ∀ (c : Lcn) (s : State) (q : Product) (w : Walk), (s.core c).array = some q → q.sparse ≠ 0 → q.walk = some w →
    w.bad = none → w.reads.length = w.pairs.length → q.touched = [] →
    (stripeOf q.a (bits q.sparse 4 1)).s24 = false → (stripeOf q.b (bits q.sparse 8 5)).s24 = false →
    let dense (u : State) (e : (Tile × Tile × Tile) × Nat) : State :=
      let p : Product := { q with a := e.1.1, b := e.1.2.1, scales := e.1.2.2, z := q.z && decide (e.2 = 0), sparse := 0 }
      match exec (.tensorArrayComplete c) (u.setCore c { u.core c with array := some p }) with
      | .next v => v
      | _ => u
    let run := w.reads.zipIdx.foldl dense s
    ∃ t, exec (.tensorArrayComplete c) s = .next t ∧ (t.core c).array = none ∧
      (w.pairs ≠ [] → (∀ k, k < 4 → t.acc c k = run.acc c k) ∧ ∀ l, l < 256 → t.lane c l = run.lane c l) ∧
      (w.pairs = [] → (∀ k, k < 4 → t.acc c k =
          if q.z ∧ (k = q.cd.val ∧ q.fmt ≠ 9 ∨ q.fmt = 9 ∧ k / 2 = q.cd.val / 2) then 0 else s.acc c k) ∧
        ∀ l, l < 256 → t.lane c l = s.lane c l)

/-- 03 R127, R128; 09 R366 to R368. -/
def Obligations.LocalTacks : Prop :=
  ∀ (x : Issue) (tack rs1 rs2 : Fin 32) (f : Bool) (s : State), s.ready x [.s rs1, .s rs2] →
    let th := s.issuer x
    let c := x.core
    let u := c.toNat
    let v : BitVec 32 := (th.readS rs1).truncate 32
    let old := BitVec.ofNat 32 (s.get F.TACK_STATEn_VALUE u tack)
    let met (w : Wait) (n : BitVec 32) : Prop :=
      w.tack = tack ∧ (if w.eq then n = w.operand else 0 ≤ (n - w.operand).toInt)
    let signals (i : Instr) (new : BitVec 32) : Prop := ∃ t, exec i s = .next t ∧
      t.get F.TACK_STATEn_VALUE u tack = new.toNat ∧ t.get F.TACK_STATEn_SIGNALLED u tack = 1 ∧
      t.get F.TACK_STATEn_LKIND u tack = 0 ∧ t.get F.TACK_STATEn_LTID u tack = 4 * u + x.thread.val ∧
      (∀ n : Fin 32, n ≠ tack → t.get F.TACK_STATEn_VALUE u n = s.get F.TACK_STATEn_VALUE u n) ∧
      t.issuer x = th.retiredAt (th.pc + 4) ∧
      (∀ m, m ≠ x.thread → ∀ w, (s.thread c m).wait = some w → (s.thread c m).st = .waiting → met w new →
        t.thread c m = { s.thread c m with st := .running, wait := none }) ∧
      (∀ m, m ≠ x.thread → (∀ w, (s.thread c m).wait = some w → (s.thread c m).st = .waiting → ¬met w new) →
        t.thread c m = s.thread c m) ∧
      (∀ d m, d ≠ c → t.thread d m = s.thread d m) ∧
      s.fieldsKept t [F.TACK_STATEn_VALUE, F.TACK_STATEn_SIGNALLED, F.TACK_STATEn_LKIND, F.TACK_STATEn_LTID] ∧
      (∀ d, { t.core d with ends := (s.core d).ends } = s.core d) ∧
      { t with threads := s.threads, regs := s.regs, cores := s.cores } = s
    let waits (i : Instr) (eq : Bool) : Prop :=
      let holds := if eq then old = v else 0 ≤ (old - v).toInt
      (holds → exec i s = .next (s.after x th (th.pc + 4))) ∧
      (¬holds → ∃ t, exec i s = .next t ∧ { t with ticked := s.ticked } = s.setThread c x.thread { th with
        st := .waiting, wait := some { tack, operand := v, eq }, pc := th.pc + 4, retired := th.retired + 1,
        stall := 0 })
    (s.get F.INT_DUPSTAT_DUP u ≠ 1 →
      let seen : Lcn := if s.get F.INT_DUPSTAT_SHADOW u = 1 then c ^^^ 0x80000 else c
      isGusset seen = false →
      signals (.tsigAdd x tack rs1) (old + v) ∧ signals (.tsigSet x tack rs1) v ∧
      ((th.readS rs2).truncate 20 = seen →
        signals (.tsigAddR x tack rs1 rs2 f) (old + v) ∧ signals (.tsigSetR x tack rs1 rs2 f) v)) ∧
    waits (.twaitGe x tack rs1) false ∧ waits (.twaitEq x tack rs1) true ∧
    exec (.tackLd x tack rs1) s = .next (s.after x (th.writeS rs1 (old.zeroExtend 64)) (th.pc + 4))

/-- 03 R123, R127, R129; 09 R338, R339; 15 R559. -/
def Obligations.RemoteSignalsAndMessages : Prop :=
  (∀ (x : Issue) (f : Bool) (rs : Fin 32) (r1 : Fin 32) (s : State), s.ready x [.s rs, .s r1] → s.numbered →
    s.interfaceClear x.core → s.tagStall x.core x.thread = none →
    let th := s.issuer x
    let c := x.core
    let n := (s.core c).nextTag
    let shadow := s.get F.INT_DUPSTAT_SHADOW c.toNat = 1
    let seen : Lcn := if shadow then c ^^^ 0x80000 else c
    let reached (d : Lcn) : Lcn := if shadow then d ^^^ 0x80000 else d
    let sent (i : Instr) (d : Lcn) (op : TagOp) (p : Packet → Prop) (seq : BitVec 32) : Prop :=
      ∃ t, exec i s = .next t ∧ t.sram = s.sram ∧ (t.tagAt c n).st = .held ∧ (t.tagAt c n).thread = x.thread ∧
        (t.tagAt c n).op = op ∧ (t.tagAt c n).pc = th.pc ∧
        (∃ q, q ∈ t.fab.pkts ∧ q.id = s.fab.nextId ∧ q.dst = reached d ∧ q.src = c ∧ q.sth = x.thread ∧ q.tag = n ∧
          q.f = f ∧ p q) ∧
        t.fab.pkts.length = s.fab.pkts.length + 1 ∧
        (∀ m, t.get F.TACK_STATEn_VALUE c.toNat m = s.get F.TACK_STATEn_VALUE c.toNat m) ∧
        (∃ dg, t.issuer x = ({ th with digest := dg, seq := seq }).retiredAt (th.pc + 4)) ∧
        s.otherThreadsKept t c x.thread
    (∀ tack rs1 : Fin 32, s.get F.INT_DUPSTAT_DUP c.toNat ≠ 1 → rs1 = r1 →
      let d : Lcn := (th.readS rs).truncate 20
      let v : BitVec 32 := (th.readS rs1).truncate 32
      d ≠ seen → isGusset d = false → s.isHole (fieldOf (reached d)) = false →
      s.isHole (fieldOf (s.routeTarget (reached d))) = false →
      sent (.tsigAddR x tack rs1 rs f) d .tsig
        (fun q => q.typ = .tsig ∧ q.opc = 0 ∧ q.arg = tack.val + v.toNat * 2 ^ 32) th.seq ∧
      sent (.tsigSetR x tack rs1 rs f) d .tsig
        (fun q => q.typ = .tsig ∧ q.opc = 1 ∧ q.arg = tack.val + v.toNat * 2 ^ 32) th.seq) ∧
    (∀ (h : Fin 64) (a : Fin 16) (d : Lcn) (bo k : Nat), r1.val = rs.val + 1 →
      let len := (th.readS r1).toNat
      (th.readS rs).toNat = d.toNat * 2 ^ 16 + bo → bo < 2 ^ 16 → bo % 32 = 0 → len ≤ 240 → len % 8 = 0 →
      (th.readA a).toNat = seen.toNat * 2 ^ 16 + k → k % 8 = 0 → k + len ≤ 2 ^ 16 →
      (∀ j, k ≤ j → j < k + len → c.toNat * 256 + j / 256 ∉ s.damaged) →
      isGusset d = false → s.isHole (fieldOf (reached d)) = false →
      s.isHole (fieldOf (s.routeTarget (reached d))) = false →
      let header := (16 + len) + h.val * 2 ^ 16 + (if f then 2 ^ 25 else 0) +
        (seen.toNat + x.thread.val * 2 ^ 20 + s.ldOf c * 2 ^ 22) * 2 ^ 32 + th.seq.toNat * 2 ^ 64
      sent (.msend x h rs a f) d .msend
        (fun q => q.typ = .msg ∧ q.arg = (th.readS rs).toNat ∧ q.flits = 2 + len / 8 ∧
          q.body = header + readLE s.sram 0 (c.toNat * 2 ^ 16 + k) len * 2 ^ 128) (th.seq + 1)) ∧
    (∀ tack rs1 : Fin 32, s.get F.INT_DUPSTAT_DUP c.toNat = 1 → rs1 = r1 → isGusset seen = false →
      (∀ q, q ∈ (s.core c).digests → q.sth ≠ x.thread) →
      ∃ t dg, exec (.tsigSet x tack rs1) s = .next t ∧ (t.tagAt c n).st = .held ∧
        (t.tagAt c n).op = .tackPoint tack true ((th.readS rs1).truncate 32) (reached seen) (some dg) ∧
        (∀ m, t.get F.TACK_STATEn_VALUE c.toNat m = s.get F.TACK_STATEn_VALUE c.toNat m))) ∧
  (∀ (s : State) (c : Lcn) (p : Packet), s.serves c p → p.typ = .tsig → p.opc = 8 →
    (∀ (n : Nat) (g : Tag) (tack : Fin 32) (set : Bool) (v : BitVec 32) (target : Lcn),
      (s.core c).waitingPoint p.sth = some (n, g, tack, set, v, target, BitVec.ofNat 64 p.body) →
      ∃ t, exec (.dupDigestArrival p.id) s = .next t ∧
        t.get F.TACK_STATEn_VALUE target.toNat tack =
          (if set then v else BitVec.ofNat 32 (s.get F.TACK_STATEn_VALUE target.toNat tack) + v).toNat ∧
        (t.thread c p.sth).digest = 0 ∧ (t.tagAt c n).st = .free ∧
        (∀ m, m ≠ n → t.tagAt c m = s.tagAt c m)) ∧
    ((s.core c).waitingPoint p.sth = none →
      exec (.dupDigestArrival p.id) s = .next ((s.dropPacket p.id).setCore c { s.core c with
        digests := (s.core c).digests ++ [p] })))

/-- 03 R125, R126; 09 R341, R342, R357 to R361. -/
def Obligations.PollAndFree : Prop :=
  ∀ (x : Issue) (pd : Fin 8) (a : Fin 16) (k : Nat) (s : State), s.ready x [.s 31] →
    let th := s.issuer x
    let c := x.core
    let seen : Lcn := if s.get F.INT_DUPSTAT_SHADOW c.toNat = 1 then c ^^^ 0x80000 else c
    (th.readA a).toNat = seen.toNat * 2 ^ 16 + k → k < 2 ^ 16 → k % 32 = 0 → s.tileGood c (k / 256) = true →
    let b := s.bobbin c k
    let record := b.base * 256 + b.head
    let handler := readLE s.sram 0 (c.toNat * 2 ^ 16 + record + 2) 1 % 64
    (b.enable = true → b.formed = true →
      (b.ready = 0 →
        exec (.mpoll x pd a) s = .next ((s.noteBobbin c k (some true)).after x (th.writeP pd false) (th.pc + 4)) ∧
        exec (.mfree x a) s = .next ((s.put F.BOB_STAT_FREE_EMPTY 1 c.toNat).after x th (th.pc + 4))) ∧
      (b.ready ≠ 0 → s.tileGood c (record / 256) = true →
        (s.get F.BOB_HANDLERn_VALID c.toNat handler = 1 →
          exec (.mpoll x pd a) s = .next ((s.noteBobbin c k (some false)).after x
            (((th.writeP pd true).writeS 31 (BitVec.ofNat 64 (th.pc + 4))).writeA 15
              (BitVec.ofNat 64 (seen.toNat * 2 ^ 16 + record + 16)))
            (s.get F.BOB_HANDLERn_ADDR c.toNat handler * 4))) ∧
        (s.get F.BOB_HANDLERn_VALID c.toNat handler ≠ 1 →
          exec (.mpoll x pd a) s = .next ((s.after x th (th.pc + 4)).trap c x.thread
            { cause := 9, sub := 2, resp := true, pc := th.pc, info := handler, addr := (th.readA a).toNat })) ∧
        ((∀ j, record ≤ j → j < record + 8 → s.tileGood c (j / 256) = true) →
          let after := b.head + readLE s.sram 0 (c.toNat * 2 ^ 16 + record) 2
          let wrapped := if 256 * b.tiles ≤ after then 0 else after
          let marker := readLE s.sram 0 (c.toNat * 2 ^ 16 + b.base * 256 + wrapped) 8 = 2 ^ 24
          let head := if wrapped ≠ b.tail ∧ marker then 0 else wrapped
          exec (.mfree x a) s =
            .next ((s.writeStatus c k { b with head, ready := b.ready - 1 }).after x th (th.pc + 4))))) ∧
    (b.enable = false ∨ b.formed = false →
      exec (.mpoll x pd a) s = .next (s.trap c x.thread
        { cause := 9, sub := 1, pc := th.pc, addr := (th.readA a).toNat }) ∧
      exec (.mfree x a) s = .next (s.trap c x.thread
        { cause := 9, sub := 1, pc := th.pc, addr := (th.readA a).toNat }))

/-- 02 R89; 03 R113; 07 R259; 08 Table 8.3, R328; 09 R369; 15 R534. -/
def Obligations.RequestsAtACore : Prop :=
  ∀ (s : State) (c : Lcn) (p : Packet), s.repliesTo p.src p.pos →
    let off := p.arg % 65536
    let tile := c.toNat * 256 + off / 256
    let bytes (n : Nat) := readLE s.sram 0 (c.toNat * 65536 + off) n
    let size := match p.opc with | 0 => 1 | 1 => 2 | 2 => 4 | 3 => 8 | _ => 256
    let flits := if size = 256 then 32 else 1
    (s.serves c p → p.toWindow = false →
      (p.typ = .rd → p.opc ≤ 4 →
        (tile ∉ s.damaged → size ≠ 256 ∨ off % 256 = 0 →
          exec (.rd p.id) s = .next (s.answeredBy p .rdr p.opc 0 flits (bytes size))) ∧
        (tile ∈ s.damaged →
          exec (.rd p.id) s = .next ((s.tileFailed c (off / 256) 2).answeredBy p .err 0
            (0x21 + off / 256 * 256) 0 0))) ∧
      (p.typ = .wr → p.opc ≤ 3 → tile ∉ s.damaged →
        exec (.wr p.id) s = .next ((s.writeSram c off (p.body % 2 ^ (8 * size)) size).answeredBy p .ack 0 0 0 0)) ∧
      (p.typ = .wr → p.opc = 4 → off % 256 = 0 →
        exec (.wr p.id) s = .next (((s.spoolSave p c (off / 256)).writeTile c (off / 256) (BitVec.ofNat 2048 p.body)).answeredBy p .ack 0 0 0 0)) ∧
      (p.typ = .amo → p.opc ≤ 7 → tile ∉ s.damaged →
        let n := if p.arg.testBit 63 then 4 else 8
        let old := BitVec.ofNat (8 * n) (bytes n)
        let x := BitVec.ofNat (8 * n) (p.body % 2 ^ 64)
        let y := BitVec.ofNat (8 * n) (p.body / 2 ^ 64)
        let new := match p.opc with
          | 0 => old + x
          | 1 => x
          | 2 => old &&& x
          | 3 => old ||| x
          | 4 => old ^^^ x
          | 5 => if old.toInt < x.toInt then old else x
          | 6 => if x.toInt < old.toInt then old else x
          | _ => if old = x then y else old
        exec (.amo p.id) s = .next ((s.writeSram c off new.toNat n).answeredBy p .ack 0 0 1 old.toNat)) ∧
      (p.typ = .tsig → p.opc ≤ 1 → p.sender = .thread →
        exec (.tsigPacket p.id) s = .next ((s.signal c (Fin.ofNat 32 p.arg) (decide (p.opc = 1))
          (BitVec.ofNat 32 (p.arg / 2 ^ 32)) 0 (4 * p.src.toNat + p.sth.val)).answeredBy p .ack 0 0 0 0)) ∧
      (p.typ = .probe →
        exec (.probe p.id) s = .next (s.answeredBy p .prober 0 (p.hops % 4096 + p.seams % 32 * 4096) 0 0))) ∧
    (p.toBlock = false → p.toWindow = false → s.atDest p.id p.typ = some p → s.servingCore p.pos = some c → p.dst = c →
      p.good = true → s.accepts c p = true → s.inReset c p = false → p.typ = .wr →
      (s.inPartition p.ld (fieldOf c) = false →
        exec (.wr p.id) s = .next (s.answeredBy p .err 0 2 0 0)) ∧
      (s.inPartition p.ld (fieldOf c) = true → s.clocked c = false →
        exec (.wr p.id) s =
          .next ((s.gatedError (blockOffset .core c.toNat)).answeredBy p .err 0 8 0 0)))

/-- 02 R78, R79; 03 R115, R119, Table 3.13; 08 R298, R326, R328. -/
def Obligations.RepliesAtAThread : Prop :=
  ∀ (s : State) (c : Lcn) (p : Packet), s.replyFor c p → s.numbered →
    let g := s.tagAt c p.tag
    let freed (u : State) : Prop :=
      u.tagAt c p.tag = { gen := (g.gen + 1) % 16 } ∧ (∀ n, n ≠ p.tag → u.tagAt c n = s.tagAt c n) ∧
        (∀ q, q ∈ u.fab.pkts → q.id ≠ p.id) ∧ u.sram = s.sram
    let writes (i : Instr) (th : Thread) : Prop := ∃ t, exec i s = .next t ∧ freed t ∧
      (s.setThread c g.thread th).threadsSettled t c ∧
      (th.st = .stalled → th.stall = 1 → th.wants ≠ [] → (∀ r ∈ th.wants, (t.core c).isPending g.thread r = false) →
        (t.thread c g.thread).st = .running)
    let traps (i : Instr) (cause sub info : Nat) : Prop := ∃ u, exec i s =
        .next (u.trapResponse c g.thread { cause, sub, resp := true, pc := g.pc, info, addr := g.addr.toNat }) ∧
      freed u ∧ s.threadsSettled u c
    let th := s.thread c g.thread
    (p.typ = .rdr →
      (∀ rd n signed, g.op = .load rd n signed → n = 1 ∨ n = 2 ∨ n = 4 ∨ n = 8 →
        writes (.rdr p.id) (th.writeS rd (if signed then BitVec.ofInt 64 (toSigned (8 * n) p.body)
          else BitVec.ofNat 64 (p.body % 2 ^ (8 * n))))) ∧
      (∀ td, g.op = .tileLoad td → writes (.rdr p.id) (th.writeT td (BitVec.ofNat 2048 p.body)))) ∧
    (p.typ = .ack →
      (g.op = .store ∨ g.op = .tileStore ∨ g.op = .msend ∨ g.op = .tsig → writes (.ack p.id) th) ∧
      (∀ rd w4, g.op = .amo rd w4 →
        writes (.ack p.id) (th.writeS rd (BitVec.ofInt 64 (toSigned (if w4 then 32 else 64) p.body))))) ∧
    (∀ rd, p.typ = .prober → g.op = .nprobe rd →
      ∃ cc : BitVec 32, writes (.prober p.id) (th.writeS rd (BitVec.ofNat 64 (cc.toNat * 2 ^ 32 + p.arg % 2 ^ 17)))) ∧
    (p.typ = .err →
      let code := p.arg % 256
      (code = 0x20 → traps (.err p.id) 6 2 0) ∧
      (code = 0x21 → traps (.err p.id) 6 1 (p.arg / 256 % 256)) ∧
      (code = 8 → traps (.err p.id) 5 1 8) ∧
      (0x40 ≤ code → code ≤ 0x46 → traps (.err p.id) 5 2 code) ∧
      (0x50 ≤ code → code ≤ 0x54 → traps (.err p.id) 5 3 code) ∧
      (code ∉ [8, 0x20, 0x21] → ¬(0x40 ≤ code ∧ code ≤ 0x46) → ¬(0x50 ≤ code ∧ code ≤ 0x54) →
        traps (.err p.id) 5 0 code)) ∧
    (p.typ = .unb → traps (.unb p.id) 4 (p.arg % 4) p.src.toNat) ∧
    (p.typ = .rstr → traps (.rstr p.id) 5 0 4) ∧
    (p.typ = .ncasta →
      let bad := p.arg.testBit 8 ∨ p.arg.testBit 9
      (¬bad → writes (.ncasta p.id) th) ∧
      (bad → p.arg.testBit 10 = true →
        let code := p.arg / 2 ^ 12 % 256
        traps (.ncasta p.id) 5 (if code = 8 then 1 else 0) code) ∧
      (bad → p.arg.testBit 10 = false → traps (.ncasta p.id) 4 (p.arg / 2 ^ 12 % 4) (p.arg / 2 ^ 20 % 2 ^ 20)))

/-- 07 R285; 08 R292, R301, R303, R312, Table 8.1. -/
def Obligations.Routing : Prop :=
  (∀ (s : State) (p : Packet), s.fab.pkts.find? (fun q => q.id == p.id) = some p → p.injected = true →
    s.transitTree (fieldOf p.pos) = true → p.ring = none → s.get F.FAB_HOLEMAP_HOLES = 0 → s.fab.excess = [] →
    s.darn = none → p.side < 5 →
    (∀ r, r ∈ s.fab.pkts → r.injected = true → r.pos = p.pos → r.typ.isReply = p.typ.isReply → r = p) →
    let east := colOf p.pos < colOf p.rt
    let west := colOf p.rt < colOf p.pos
    let north := rowOf p.rt < rowOf p.pos
    let side := if east then 1 else if west then 3 else if north then 0 else 2
    let q := if east then posOf (rowOf p.pos) (colOf p.pos + 1) else if west then posOf (rowOf p.pos) (colOf p.pos - 1)
      else if north then posOf (rowOf p.pos - 1) (colOf p.pos) else posOf (rowOf p.pos + 1) (colOf p.pos)
    let crosses := fieldOf p.pos ≠ fieldOf q
    let reply := p.typ.isReply
    (p.pos ≠ p.rt →
      (crosses → (s.link (fieldOf p.pos) side (if reply then 1 else 0)
        (if side % 2 = 1 then rowOf p.pos % 128 else colOf p.pos % 128)).st = .up) →
      s.occupancy q reply ((side + 2) % 4) p.typ.vc + (3 + p.flits) ≤ bufferDepth p.typ.vc (decide crosses) →
      ∃ t cm, exec (.routerForward p.id) s = .next t ∧
        { p with pos := q, side := (side + 2) % 4, hops := p.hops + 1, seams := p.seams + (if crosses then 1 else 0),
                 cm } ∈ t.fab.pkts ∧
        (∀ r, r ∈ s.fab.pkts → r.id ≠ p.id → r ∈ t.fab.pkts) ∧ (p.cm = true → cm = true) ∧
        s.fieldsKept t [F.FAB_MARKS_MARKS, F.FAB_MARKS_SAT] ∧ { t with fab := s.fab, regs := s.regs } = s) ∧
    (∀ sub, p.pos = p.rt → p.typ.isReply = false → p.typ ≠ .ncast → p.toBlock = false →
      s.absentAt p.pos = some sub → s.repliesTo p.src p.pos →
      exec (.routerForward p.id) s = .next (s.answeredBy p .unb 0 sub 0 0))) ∧
  (∀ (s : State) (c : Lcn) (seg : Fin 8192), (∃ r, r ∈ s.relocations ∧ r.lrow * 8 + r.fx = seg.val) →
    let old := mget [] s.fab.caches c.toNat
    seg.val ∉ old →
    ∃ t, exec (.translationMiss c seg) s = .next t ∧ seg.val ∈ mget [] t.fab.caches c.toNat ∧
      ((∀ q, q ∈ s.fab.pkts → q.injected = true ∨ q.src ≠ c) →
        mget [] t.fab.caches c.toNat = (seg.val :: old).take 8 ∧ t.fab.pkts = s.fab.pkts ∧ t.regs = s.regs ∧
        ∀ d, d ≠ c → mget [] t.fab.caches d.toNat = mget [] s.fab.caches d.toNat) ∧ t.threads = s.threads ∧
      t.cores = s.cores ∧ t.sram = s.sram)

/-- 03 R130 to R132; 08 R320, R326, R328. -/
def Obligations.FabricInstructions : Prop :=
  ∀ (x : Issue) (a : Fin 16) (rs1 rs2 : Fin 32) (f : Bool) (k : Nat) (s : State), s.ready x [.s rs1, .s rs2] →
    s.numbered → s.interfaceClear x.core →
    let th := s.issuer x
    let c := x.core
    let n := (s.core c).nextTag
    let shadow := s.get F.INT_DUPSTAT_SHADOW c.toNat = 1
    let seen : Lcn := if shadow then c ^^^ 0x80000 else c
    let reached (d : Lcn) : Lcn := if shadow then d ^^^ 0x80000 else d
    let sent (i : Instr) (op : TagOp) (p : Packet → Prop) : Prop :=
      ∃ t, exec i s = .next t ∧ t.sram = s.sram ∧ (t.tagAt c n).st = .held ∧ (t.tagAt c n).thread = x.thread ∧
        (t.tagAt c n).op = op ∧ (t.tagAt c n).pc = th.pc ∧
        (∃ q, q ∈ t.fab.pkts ∧ q.id = s.fab.nextId ∧ q.src = c ∧ q.sth = x.thread ∧ q.tag = n ∧ p q) ∧
        (∃ dg, t.issuer x = ({ th with digest := dg }).retiredAt (th.pc + 4)) ∧ s.otherThreadsKept t c x.thread
    let tile := (th.readA a).toNat = seen.toNat * 2 ^ 16 + k * 256 ∧ k < 256
    let good := c.toNat * 256 + k ∉ s.damaged
    let body := readLE s.sram 0 (c.toNat * 2 ^ 16 + k * 256) 256
    let word := (th.readS rs1).toNat % 2 ^ 29
    let first : Lcn := (th.readS rs1).truncate 20
    let count := word / 2 ^ 20 % 256
    let column := word / 2 ^ 28 = 1
    let fits := 1 ≤ count ∧ count ≤ 128 ∧ (if column then rowOf first else colOf first) % 128 + count ≤ 128
    (s.tagStall c x.thread = none → tile → good →
      (∀ m, s.treeEntry c ((th.readS rs1).toNat % 2 ^ 16) true = some m →
        let parent : Lcn := BitVec.ofNat 20 (s.get F.FAB_TREEn_A_PARENT c.toNat m)
        s.isHole (fieldOf parent) = false → s.isHole (fieldOf (s.routeTarget parent)) = false →
        sent (.nsum x a rs1 rs2 f) (.nsum ((th.readS rs1).toNat % 2 ^ 16)) fun q =>
          q.typ = .nsum ∧ q.dst = parent ∧ q.flits = 32 ∧ q.body = body ∧ q.f = f ∧
            q.arg = (th.readS rs1).toNat % 2 ^ 16 + s.get F.FAB_TREEn_A_SIDE c.toNat m * 2 ^ 16 +
              (th.readS rs2).toNat % 2 ^ 32 * 2 ^ 32) ∧
      (fits → (th.readS rs2).toNat % 256 = 0 → s.spanAsWrites (spanOf word) = false →
        s.isHole (fieldOf (reached first)) = false → s.isHole (fieldOf (s.routeTarget (reached first))) = false →
        sent (.ncast x a rs1 rs2 f) .ncast fun q =>
          q.typ = .ncast ∧ q.dst = reached first ∧ q.flits = 32 ∧ q.body = body ∧ q.f = f ∧
            q.arg = (th.readS rs2).toNat % 2 ^ 16 +
              ((reached first).toNat + (word - first.toNat)) * 2 ^ 16) ∧
      (fits → (th.readS rs2).toNat % 256 = 0 → s.spanAsWrites (spanOf word) = true →
        let target (i : Nat) : Lcn := reached ((spanOf word).at_ i)
        (∀ i, i < count → s.isHole (fieldOf (target i)) = false ∧ s.isHole (fieldOf (s.routeTarget (target i))) = false) →
        ∃ t, exec (.ncast x a rs1 rs2 f) s = .next t ∧ (t.tagAt c n).st = .held ∧
          (t.tagAt c n).op = .ncastWrites count none ∧ t.sram = s.sram ∧
          (∃ dg, t.issuer x = ({ th with digest := dg }).retiredAt (th.pc + 4)) ∧ s.otherThreadsKept t c x.thread ∧
          ∀ i, i < count → ∃ q, q ∈ t.fab.pkts ∧ q.typ = .wr ∧ q.opc = 4 ∧ q.dst = target i ∧ q.src = c ∧
            q.sth = x.thread ∧ q.tag = n ∧ q.flits = 32 ∧ q.body = body ∧ q.f = f ∧
            q.arg = (target i).toNat * 2 ^ 16 + (th.readS rs2).toNat % 2 ^ 16)) ∧
    (let d : Lcn := (th.readS rs2).truncate 20
     (s.tagStall c x.thread = none → isGusset d = false → s.isHole (fieldOf d) = false →
       s.isHole (fieldOf (s.routeTarget d)) = false →
       sent (.nprobe x rs1 rs2) (.nprobe rs1) fun q => q.typ = .probe ∧ q.dst = d) ∧
     (isGusset d = true → exec (.nprobe x rs1 rs2) s = .next (s.trap c x.thread
       { cause := 4, sub := 0, pc := th.pc, info := d.toNat }))) ∧
    (let operand (i : Instr) : Prop := exec i s = .next (s.trap c x.thread
       { cause := 3, sub := 2, pc := th.pc, addr := (th.readA a).toNat })
     ((th.readA a).toNat % 256 ≠ 0 ∨ (th.readA a).toNat / 2 ^ 16 ≠ seen.toNat →
       operand (.nsum x a rs1 rs2 f) ∧ operand (.ncast x a rs1 rs2 f)) ∧
     (¬fits ∨ (th.readS rs2).toNat % 256 ≠ 0 → operand (.ncast x a rs1 rs2 f)) ∧
     (s.treeEntry c ((th.readS rs1).toNat % 2 ^ 16) true = none → operand (.nsum x a rs1 rs2 f)))

/-- 08 R319 to R324. -/
def Obligations.SumTrees : Prop :=
  (∀ (s : State) (c : Lcn) (p : Packet), s.atDest p.id .nsum = some p → p.toBlock = false →
    s.servingCore p.pos = some c → p.dst = c → p.good = true → s.inReset c p = false → s.repliesTo p.src p.pos →
    (s.core c).landing.length < 4 →
    (s.treeEntry c (p.arg % 2 ^ 16) false = none → exec (.nsumPacket p.id) s = .next (s.answeredBy p .err 0 7 0 0)) ∧
    (∀ n, s.treeEntry c (p.arg % 2 ^ 16) false = some n →
      (s.get F.FAB_TREEn_B_STEP c.toNat n ≠ p.arg / 2 ^ 32 % 2 ^ 32 →
        exec (.nsumPacket p.id) s = .next (s.answeredBy p .err 0 3 0 0)) ∧
      (s.get F.FAB_TREEn_B_STEP c.toNat n = p.arg / 2 ^ 32 % 2 ^ 32 →
        ∃ t, exec (.nsumPacket p.id) s = .next t ∧
          findKey (t.core c).sums (2 * n + p.arg / 2 ^ 16 % 2) = some p ∧ (∀ q, q ∈ t.fab.pkts → q.id ≠ p.id) ∧
          (∀ d, d ≠ c → t.core d = s.core d) ∧ { t with cores := s.cores, fab := s.fab } = s))) ∧
  (∀ (s : State) (c : Lcn) (n : Fin 16) (l : List Packet),
    let left := findKey (s.core c).sums (2 * n.val)
    let right := findKey (s.core c).sums (2 * n.val + 1)
    let holds := if s.get F.FAB_TREEn_A_NCHILD c.toNat n = 1 then ∃ a b, left = some a ∧ right = some b ∧ l = [a, b]
      else ∃ a, (left = some a ∨ (left = none ∧ right = some a)) ∧ l = [a]
    let missing := if s.get F.FAB_TREEn_A_NCHILD c.toNat n = 1 then left = none ∨ right = none
      else left = none ∧ right = none
    (missing → exec (.nsumMergeSend c n) s = .next s) ∧
    (holds → s.backed c = true →
    let u := c.toNat
    let fmt := s.get F.FAB_TREEn_A_FMT u n
    let step := s.get F.FAB_TREEn_B_STEP u n
    let isSum (v : Tile) : Prop := match l with
      | [a, b] =>
        let x (e : Nat) := tileElem fmt (BitVec.ofNat 2048 a.body) e
        let y (e : Nat) := tileElem fmt (BitVec.ofNat 2048 b.body) e
        ∀ e, e < fmtCount fmt → tileElem fmt v e = match fpOf fmt with
          | some f => (f.encode false 0 0 (sumNums [(f.decode (x e)).1, (f.decode (y e)).1])).1 % 2 ^ fmtWidth fmt
          | none => (x e + y e) % 2 ^ fmtWidth fmt
      | a :: _ => v = BitVec.ofNat 2048 a.body
      | [] => True
    let parent : Lcn := BitVec.ofNat 20 (s.get F.FAB_TREEn_A_PARENT u n)
    (s.get F.FAB_TREEn_A_KIND u n = 2 → s.isHole (fieldOf parent) = false →
      s.isHole (fieldOf (s.routeTarget parent)) = false → s.numbered → s.interfaceClear c →
      ∃ t v, exec (.nsumMergeSend c n) s = .next t ∧ isSum v ∧ t.sram = s.sram ∧ t.threads = s.threads ∧
        (∃ q, q ∈ t.fab.pkts ∧ q.id = s.fab.nextId ∧ q.typ = .nsum ∧ q.dst = parent ∧ q.src = c ∧ q.body = v.toNat ∧
          q.arg = s.get F.FAB_TREEn_A_TREE u n + s.get F.FAB_TREEn_A_SIDE u n * 2 ^ 16 + step * 2 ^ 32) ∧
        (mget [] (t.core c).owed n) = l ∧
        findKey (t.core c).sums (2 * n.val) = none ∧ findKey (t.core c).sums (2 * n.val + 1) = none ∧
        t.get F.FAB_TREEn_B_STEP u n = (step + 1) % 2 ^ 32) ∧
    (s.get F.FAB_TREEn_A_KIND u n = 3 → s.clocked c = true →
      ∃ t v, exec (.nsumMergeSend c n) s = .next t ∧ isSum v ∧
        (let tile := (s.get F.FAB_TREEn_B_DST_TILE u n + step % max 1 (s.get F.FAB_TREEn_B_TILES u n)) % 256
         let tack := s.get F.FAB_TREEn_B_TACK u n % 32
         t.readTile c tile = v ∧
         (∀ o, ¬(u * 65536 + tile * 256 ≤ o ∧ o < u * 65536 + tile * 256 + 256) → mget 0 t.sram o = mget 0 s.sram o) ∧
         t.get F.TACK_STATEn_VALUE u tack = (s.get F.TACK_STATEn_VALUE u tack + 1) % 2 ^ 32 ∧
         t.get F.TACK_STATEn_LKIND u tack = 1) ∧
        findKey (t.core c).sums (2 * n.val) = none ∧ findKey (t.core c).sums (2 * n.val + 1) = none ∧
        t.get F.FAB_TREEn_B_STEP u n = (step + 1) % 2 ^ 32) ∧
    (s.get F.FAB_TREEn_A_KIND u n = 3 → s.clocked c = false →
      ∃ t, exec (.nsumMergeSend c n) s = .next t ∧ t.sram = s.sram ∧ t.threads = s.threads ∧
        (∀ m, m < 32 → t.get F.TACK_STATEn_VALUE u m = s.get F.TACK_STATEn_VALUE u m) ∧
        (∀ p, p ∈ l → s.repliesTo p.src (s.routeTarget c) → ∃ r, r ∈ t.fab.pkts ∧ r.typ = .err ∧ r.arg = 8 ∧
          r.dst = p.src ∧ r.tag = p.tag ∧ r.gen = p.gen) ∧
        findKey (t.core c).sums (2 * n.val) = none ∧ findKey (t.core c).sums (2 * n.val + 1) = none ∧
        t.get F.FAB_TREEn_B_STEP u n = (step + 1) % 2 ^ 32))) ∧
  (∀ (s : State) (c : Lcn) (p : Packet) (m : Nat), s.atDest p.id .nsuma = some p → s.servingCore p.pos = some c →
    (s.core c).absorbing = false → p.good = true → p.sender = .merge m →
    ∃ t, exec (.nsuma p.id) s = .next t ∧ mget [] (t.core c).owed m = [] ∧ (t.core c).sums = (s.core c).sums ∧
      ∀ q, q ∈ mget [] (s.core c).owed m → s.repliesTo q.src (s.routeTarget c) → ∃ r, r ∈ t.fab.pkts ∧ r.typ = .nsuma ∧
        r.dst = q.src ∧ r.tag = q.tag ∧ r.gen = q.gen) ∧
  (∀ (s : State) (c : Lcn) (p : Packet), s.replyFor c p → p.typ = .nsuma →
    ∃ t, exec (.nsuma p.id) s = .next t ∧ s.threadsSettled t c ∧
      t.tagAt c p.tag = { gen := ((s.tagAt c p.tag).gen + 1) % 16 } ∧
      ∀ n, n ≠ p.tag → t.tagAt c n = s.tagAt c n)

/-- 08 R329 to R335 and R378 to R380, Tables 8.6 and 8.11. -/
def Obligations.SeamLinksAndDetector : Prop :=
  (∀ (f : Fin 64) (side : Fin 4) (net : Fin 2) (i : Fin 128) (s : State),
     let l := s.link f side net i
     let becomes (m : SeamLink) : State := s.setLink f side net i m
     let noted : State := s.addSat F.FAB_LINKERR_FLITS F.FAB_LINKERR_SAT 1 f
     let goes (m : SeamLink) : State := noted.setLink f side net i m
     let fails (m : State) : State :=
       (m.raiseField 5 f (f.val + side.val * 2 ^ 8 + net.val * 2 ^ 12 + i.val * 2 ^ 16) 0).updateDistances
     let failed : State := fails (goes { l with st := .failed })
     let replayed (m : SeamLink) : State := (becomes m).addSat F.FAB_SEAMSTATs_REPLAYS F.FAB_SEAMSTATs_SAT 1 f side
     let resend (m : SeamLink) (r : Option Nat) : SeamLink :=
       if side.val = 0 ∨ side.val = 3 then { m with onward := { m.onward with resend := r } }
       else { m with back := { m.back with resend := r } }
     let asked := if side.val = 0 ∨ side.val = 3 then l.onward.resend else l.back.resend
     let clean : SeamLink :=
       { l with onward := { l.onward with resend := none }, back := { l.back with resend := none } }
     let stops (cmd : Option Nat → Instr) (u : State) : Prop :=
       exec (cmd none) s = .next u ∧
         ∀ p, s.lastInGate f side net i = some p → exec (cmd (some p.id)) s = .next (u.setPacket { p with good := false })
     let edge := match side with | 0 => 8 ≤ f.val | 1 => f.val % 8 < 7 | 2 => f.val < 56 | _ => 0 < f.val % 8
     edge →
     (∀ (seq : Fin 64) (now : Nat),
       (l.st = .up →
         let recent := l.starts.filter fun t => decide (now ≤ t + 2 ^ 20)
         (s.get F.FAB_CTL_RETRY_EN f = 1 → recent.length < s.get F.FAB_RETRYCFG_EPISODE_MAX f → ∀ cut,
           ∃ t, exec (.seamFlitFail f side net i seq now cut) s = .next t ∧ { t with ticked := s.ticked } =
             goes { resend l (some seq) with st := .retry, attempts := 0, retrains := 0, starts := now :: recent }) ∧
         (s.get F.FAB_CTL_RETRY_EN f ≠ 1 ∨ s.get F.FAB_RETRYCFG_EPISODE_MAX f ≤ recent.length →
           stops (.seamFlitFail f side net i seq now) failed)) ∧
       (l.st = .retry ∨ l.st = .retrain → ∀ cut,
         exec (.seamFlitFail f side net i seq now cut) s = .next (goes (resend l (some seq))))) ∧
     (l.st = .retry →
       (∀ n, asked = some n → exec (.seamNak f side net i) s = .next (replayed (resend l none))) ∧
       (∀ seq : Fin 64,
         (l.attempts + 1 < s.get F.FAB_RETRYCFG_REPLAY_MAX f → ∀ cut, exec (.seamReplayFail f side net i seq cut) s =
           .next (goes { resend l (some seq) with attempts := l.attempts + 1 })) ∧
         (s.get F.FAB_RETRYCFG_REPLAY_MAX f ≤ l.attempts + 1 → l.retrains < s.get F.FAB_RETRYCFG_RETRAIN_MAX f →
           ∀ cut, exec (.seamReplayFail f side net i seq cut) s =
             .next (goes { resend l (some seq) with st := .retrain, attempts := 0, retrains := l.retrains + 1 })) ∧
         (s.get F.FAB_RETRYCFG_REPLAY_MAX f ≤ l.attempts + 1 → s.get F.FAB_RETRYCFG_RETRAIN_MAX f ≤ l.retrains →
           stops (.seamReplayFail f side net i seq) failed)) ∧
       exec (.seamReplayPass f side net i) s = .next (becomes { clean with st := .up, attempts := 0, retrains := 0 })) ∧
     (l.st = .retrain →
       (l.retrains ≤ s.get F.FAB_RETRYCFG_RETRAIN_MAX f → ∀ cut,
         exec (.seamRetrainDone f side net i cut) s = .next (replayed { clean with st := .retry })) ∧
       (s.get F.FAB_RETRYCFG_RETRAIN_MAX f < l.retrains →
         stops (.seamRetrainDone f side net i) (fails (becomes { l with st := .failed }))))) ∧
  ((∀ (s : State) (panel : Fin 512) (bobbins : Bool) (slot : Fin 64) (o : CutOrder),
     s.get F.FAB_DL_WINDOW_EN panel = 1 → s.retryIndication = false → s.darn = none →
     findKey s.slots slot = some o → 2 ≤ s.get F.CXL_LINKSTAT_STATE → o.gen < 2 ^ 10 → o.ld < 16 →
     let l := s.groupQueues panel bobbins o
     let count := (s.get F.FAB_DL_STAT_EVENTS panel + 1) % 2 ^ F.FAB_DL_STAT_EVENTS.width
     let i : Instr := .deadlockDetect panel bobbins slot false
     exec (.deadlockDetect panel bobbins slot true) s = .next s ∧
     l.Pairwise (fun a b => a.core.toNat < b.core.toNat ∨ (a.core = b.core ∧ a.qid ≤ b.qid)) ∧
     (∀ q, q ∈ l → q.core.toNat ∈ o.allCores ∧ s.backed q.core = true ∧ panelOf q.core = panel) ∧
     (l = [] ∨ (∃ q, q ∈ l ∧ q.state = none) → exec i s = .next s) ∧
     (l ≠ [] → (∀ q, q ∈ l → q.state ≠ none) →
       (s.get F.FAB_DL_STAT_EVENT panel = 1 → exec i s = .next (s.put F.FAB_DL_STAT_EVENTS count panel)) ∧
       (s.get F.FAB_DL_STAT_EVENT panel = 0 → ∃ t, exec i s = .next t ∧
         t.get F.FAB_DL_STAT_EVENTS panel = count ∧ t.get F.FAB_DL_STAT_EVENT panel = 1 ∧
         t.get F.FAB_DL_STAT_KIND panel = (if bobbins then 1 else 0) ∧
         t.get F.FAB_DL_STAT_ENTRIES panel = min l.length 64 ∧
         t.get F.FAB_DL_STAT_OVERFLOW panel = (if 64 < l.length then 1 else 0) ∧
         t.get F.FAB_DL_STAT_GROUP_ID panel = slot.val + o.gen * 64 ∧
         (∀ n q, n < 64 → l[n]? = some q → t.get F.FAB_DL_SNAPn_VALID panel n = 1 ∧
           t.get F.FAB_DL_SNAPn_LCN panel n = q.core.toNat ∧
           t.get F.FAB_DL_SNAPn_KIND panel n = (if bobbins then 1 else 0) ∧
           t.get F.FAB_DL_SNAPn_QID panel n = q.qid % 2 ^ 11 ∧
           t.get F.FAB_DL_SNAPn_STATE panel n = q.state.getD 0 % 4 ∧
           t.get F.FAB_DL_SNAPn_OCC panel n = min q.occ 1023) ∧
         (∀ n, n < 64 → l.length ≤ n → t.get F.FAB_DL_SNAPn_VALID panel n = 0) ∧
         (∃ e, t.events = s.events ++ [e] ∧ e.kind = 3 ∧ e.ld = o.ld) ∧ t.threads = s.threads ∧ t.cores = s.cores ∧
         t.fab = s.fab ∧ t.sram = s.sram))) ∧
   (∀ (s : State) (panel : Fin 512), s.get F.CLK_FLDf_CTL_BLK_EN (panel.val / 8) = 1 →
     (s.get F.FAB_DL_STAT_EVENT panel = 1 →
       ∃ t, exec (.dlSnapshotRelease panel) s = .next t ∧ t.get F.FAB_DL_STAT_EVENT panel = 0 ∧
         t.get F.FAB_DL_STAT_ENTRIES panel = 0 ∧ (∀ n, n < 64 → t.get F.FAB_DL_SNAPn_VALID panel n = 0) ∧
         s.fieldsKept t [F.FAB_DL_STAT_EVENT, F.FAB_DL_STAT_ENTRIES, F.FAB_DL_SNAPn_VALID] ∧
         { t with regs := s.regs } = s) ∧
     (s.get F.FAB_DL_STAT_EVENT panel = 0 → exec (.dlSnapshotRelease panel) s = .next s)) ∧
   (∀ (s : State) (f : Fin 64), s.get F.CLK_FLDf_CTL_BLK_EN f = 1 →
     ∃ t, exec (.fabSwRst f) s = .next t ∧ t.get F.FAB_CTL_RETRY_EN f = F.FAB_CTL_RETRY_EN.rst f 0 ∧
       t.get F.FAB_WINCFG_W_MAX f = F.FAB_WINCFG_W_MAX.rst f 0 ∧ t.get F.FAB_MARKS_MARKS f = 0 ∧
       t.get F.FAB_HOLEMAP_HOLES f = s.get F.FAB_HOLEMAP_HOLES f ∧
       (∀ g : Fin 64, g ≠ f → t.get F.FAB_CTL_RETRY_EN g = s.get F.FAB_CTL_RETRY_EN g) ∧
       { t with regs := s.regs, ticked := s.ticked } = s))

/-- 02 R49, R50, R76, R78; 03 R119; 06 R239; 16 R574; 00 R688. -/
def Obligations.TagTimersHaltsAndCoreReset : Prop :=
  ((∀ (s : State) (c : Lcn) (n : Fin 64), s.retryIndication = false →
     let g := s.tagAt c n
     let out (h : Tag) : State := s.setTag c n h
     (g.st = .held →
       let u := (out { g with st := .quarantine }).put F.CORE_STAT_TIMEOUT 1 c.toNat
       ((s.thread c g.thread).st = .stopped → exec (.tagTimeout c n) s = .next u) ∧
       ((s.thread c g.thread).st ≠ .stopped → exec (.tagTimeout c n) s = .next (u.trap c g.thread
         { cause := 7, sub := 0, resp := true, pc := g.pc, info := n.val + g.gen * 64, addr := g.addr.toNat }))) ∧
     (g.st = .orphan → exec (.tagTimeout c n) s = .next (out { gen := g.gen })) ∧
     (g.st = .quarantine → ∃ t, exec (.tagQuarantineEnd c n) s = .next t ∧
       t.tagAt c n = { gen := (g.gen + 1) % 16 } ∧ (∀ m, m ≠ n.val → t.tagAt c m = s.tagAt c m) ∧
       s.threadsSettled t c ∧ t.sram = s.sram)) ∧
   (∀ (s : State) (c : Lcn) (n : Fin 4), s.backed c = true →
     let th := s.thread c n
     let becomes (h : Thread) : Host.Outcome State Fault Refusal := .next (s.setThread c n h)
     (th.st = .running ∨ th.st = .stalled ∨ th.st = .waiting →
       exec (.threadHalt c n) s = becomes { th with st := .halted, former := th.st }) ∧
     (th.st = .stopped ∨ th.st = .halted ∨ th.st = .trapped → exec (.threadHalt c n) s = .next s) ∧
     (th.st = .halted → th.wait = none →
       let back : State := s.setThread c n { th with st := th.former }
       (th.former ≠ .stalled ∨ back.stallClears c n = false → exec (.threadResume c n) s = .next back) ∧
       (th.former = .stalled → back.stallClears c n = true →
         exec (.threadResume c n) s = becomes { th with st := .running })) ∧
     (∀ w, th.st = .halted → th.wait = some w →
       let v := BitVec.ofNat 32 (s.get F.TACK_STATEn_VALUE c.toNat w.tack)
       let met := if w.eq then v = w.operand else 0 ≤ (v - w.operand).toInt
       (met → exec (.threadResume c n) s = becomes { th with st := .running, wait := none }) ∧
       (¬met → exec (.threadResume c n) s = becomes { th with st := .waiting })) ∧
     (th.st ≠ .halted → exec (.threadResume c n) s = .next s))) ∧
  (∀ (s : State) (c : Lcn),
     (s.backed c = false → exec (.coreSwRst c) s = .next s) ∧
     (∀ r, s.partialReset = some r → r.phase ≠ 0 → s.inScope r c = true → exec (.coreSwRst c) s = .next s) ∧
     (s.backed c = true → (∀ r, s.partialReset = some r → r.phase = 0 ∨ s.inScope r c = false) → ∃ t, exec (.coreSwRst c) s = .next t ∧
       (∀ n, t.thread c n = Thread.reset) ∧ (∀ l, l < 256 → t.lane c l = seedLane 0 (c.toNat * 256 + l)) ∧
       (∀ k, t.acc c k = 0) ∧ (t.core c).queue = [] ∧ (t.core c).array = none ∧ (t.core c).landing = [] ∧
       (t.core c).absorbing = true ∧
       (∀ n, (s.tagAt c n).st = .held →
         t.tagAt c n = { s.tagAt c n with st := .orphan, gen := ((s.tagAt c n).gen + 1) % 16 }) ∧
       (∀ (f : Fld) (n : Nat), f.id < coreFieldCount →
         ¬(F.FAB_TREEn_A_TREE.id ≤ f.id ∧ f.id ≤ F.FAB_TREEn_B_TACK.id) → f.id ≠ F.FAB_WIN_W.id → n < 2 ^ 12 →
         t.get f c.toNat n = f.rst c.toNat n) ∧
       t.get F.FAB_WIN_W c.toNat = s.get F.FAB_WINCFG_W_MAX (fieldOf c) % 2 ^ F.FAB_WIN_W.width ∧
       (∀ (f : Fld) (n : Nat), F.FAB_TREEn_A_TREE.id ≤ f.id → f.id ≤ F.FAB_TREEn_B_TACK.id → n < 2 ^ 12 →
         t.get f c.toNat n = s.get f c.toNat n) ∧
       (∀ d, d ≠ c → t.core d = s.core d ∧ (∀ n, t.thread d n = s.thread d n) ∧
         ∀ l, l < 256 → t.lane d l = s.lane d l) ∧
       (let u := c.toNat
        let dst := s.get F.SPX_CMP_CMD_DST u
        let undone (n : Nat) : Prop :=
          (s.get F.SPX_CMP_STAT_BUSY u = 1 ∧ dst ≤ n ∧ n < dst + s.get F.SPX_CMP_CMD_SPAN u) ∨
            ((s.core c).sel ≠ none ∧ n = s.get F.SPX_SEL_CMD_IDX u) ∨
            (∃ r, r ∈ s.spool ∧ r.isGather = true ∧ r.core = c ∧ ∃ e, e ∈ r.gather ∧ e.2 % 65536 / 256 = n)
        ∀ a, a / 65536 ≠ u ∨ ¬undone (a % 65536 / 256) → mget 0 t.sram a = mget 0 s.sram a) ∧
       t.damaged = s.damaged ∧ t.badTiles = s.badTiles ∧ t.istore = s.istore ∧
       t.istoreBad = s.istoreBad ∧ t.patStore = s.patStore))

/-- 02 R86, R89; 05 R197, R198, R202; 09 R366. -/
def Obligations.SeedsAndOwners : Prop :=
  ∀ (s : State) (c : Lcn), s.backed c = true →
    let u := c.toNat
    let isQuiet := (∀ n, (s.thread c n).st = .stopped ∨ (s.thread c n).st = .halted ∨ (s.thread c n).st = .trapped) ∧
      (s.core c).queue = [] ∧ (s.core c).array = none
    let rejected (i : Instr) : Prop := exec i s = .next (s.put F.CORE_SRCMD_REJ 1 u)
    let seen : Lcn := if s.get F.INT_DUPSTAT_SHADOW u = 1 then c ^^^ 0x80000 else c
    let mixed (n : Nat) : Word :=
      let z := BitVec.ofNat 64 (s.get F.CORE_SRSEED_SEED u) + BitVec.ofNat 64 (n + 1) * 0x9e3779b97f4a7c15
      let z := (z ^^^ (z >>> 30)) * 0xbf58476d1ce4e5b9
      let z := (z ^^^ (z >>> 27)) * 0x94d049bb133111eb
      z ^^^ (z >>> 31)
    (s.clocked c = true →
      (isQuiet →
        (∃ t, exec (.reseed c) s = .next t ∧ (∀ l, l < 256 → t.lane c l = mixed (seen.toNat * 256 + l)) ∧
          (∀ d l, d ≠ c → l < 256 → t.lane d l = s.lane d l) ∧ (t.core c).reseeding = true ∧
          { t with lanes := s.lanes, cores := s.cores } = s) ∧
        (∀ v, exec (.srseedWrite c none v) s = .next (s.put F.CORE_SRSEED_SEED v.toNat u)) ∧
        (∀ (l : Fin 256) v, ∃ t, exec (.srseedWrite c (some l) v) s = .next t ∧ t.lane c l = v ∧
          (∀ m, m < 256 → m ≠ l.val → t.lane c m = s.lane c m) ∧ { t with lanes := s.lanes } = s)) ∧
      (¬isQuiet → rejected (.reseed c) ∧ (∀ v, rejected (.srseedWrite c none v)) ∧
        ∀ l v, rejected (.srseedWrite c (some l) v)) ∧
      (∀ v : BitVec 8, (s.core c).queue = [] → (s.core c).array = none → (s.core c).accNext = [] →
        ∃ t, exec (.accOwnWrite c v) s = .next t ∧
          (∀ k, k < 4 → t.get F.CORE_ACC_OWN_OWNER_k u k = v.toNat / 4 ^ k % 4) ∧
          s.fieldsKept t [F.CORE_ACC_OWN_OWNER_k] ∧ (∀ d, t.core d = s.core d) ∧
          { t with regs := s.regs, cores := s.cores } = s) ∧
      (∀ (n : Fin 32) (v : BitVec 32), exec (.tackValueWrite c n v) s = .next (s.signal c n true v 2 0))) ∧
    (s.clocked c = false →
      let gated (i : Instr) : Prop := ∃ off, exec i s = .next (s.gatedError off)
      gated (.reseed c) ∧ (∀ l v, gated (.srseedWrite c l v)) ∧ (∀ v, gated (.accOwnWrite c v)) ∧
        ∀ n v, gated (.tackValueWrite c n v)) ∧
    (∃ t, exec (.reseedComplete c) s = .next t ∧ t.core c = { s.core c with reseeding := false } ∧
      (∀ d, d ≠ c → t.core d = s.core d) ∧ s.threadsSettled t c ∧
      (∀ m, (s.thread c m).st = .stalled → (s.thread c m).stall = 8 → (t.core c).drawsHeld = false →
        (t.thread c m).st = .running) ∧
      { t with cores := s.cores, threads := s.threads } = s)

/-- 09 R345 to R350; 08 R326. -/
def Obligations.MessagesAndBroadcasts : Prop :=
  (∀ (s : State) (c : Lcn) (off l : Nat), off < 2 ^ 16 → off % 32 = 0 → 16 ≤ l → s.tileGood c (off / 256) = true →
    let b := s.bobbin c off
    let ring := 256 * b.base
    let usable := b.enable = true ∧ b.formed = true
    let fits := usable ∧ l ≤ 256 * b.tiles - 8 ∧ b.head ≤ b.tail ∧ b.tail + l + (if b.head = 0 then 7 else 0) < 256 * b.tiles ∧
      b.ready + 1 < 2 ^ 11 ∧ ∀ j, ring + b.tail ≤ j → j < ring + b.tail + l → s.tileGood c (j / 256) = true
    let blocked := usable ∧ l ≤ 256 * b.tiles - 8 ∧
      ((b.tail < b.head ∧ b.head < b.tail + l + 8) ∨
        (b.head < b.tail ∧ 256 * b.tiles < b.tail + l + (if b.head = 0 then 8 else 0) ∧ b.head < l + 8))
    let placed (t : State) (body : Nat) (held : Bool) : Prop :=
      t.bobbin c off = { b with tail := b.tail + l, ready := b.ready + 1, held } ∧
        t.readSram c (ring + b.tail) l = body % 2 ^ (8 * l) ∧
        t.readSram c (off + 16) 8 = (s.readSram c (off + 16) 8 + 1) % 2 ^ 64 ∧
        (∀ d j, ¬(d = c ∧ (ring + b.tail ≤ j ∧ j < ring + b.tail + l ∨ off ≤ j ∧ j < off + 24)) → j < 2 ^ 16 →
          t.readSram d j 1 = s.readSram d j 1) ∧
        t.get F.BOB_STAT_PLACED c.toNat = (s.get F.BOB_STAT_PLACED c.toNat + 1) % 2 ^ F.BOB_STAT_PLACED.width ∧
        t.threads = s.threads ∧ s.fieldsKept t [F.BOB_STAT_PLACED]
    (∀ p : Packet, s.serves c p → s.repliesTo p.src p.pos → p.typ = .msg → p.toWindow = false →
      p.arg % 2 ^ 16 = off → 8 * p.flits = l → p.flits ≤ 32 →
      (fits → s.heldFor c off = [] → ∃ t, exec (.msg p.id) s = .next t ∧ placed t p.body b.held ∧
        t.fab = (s.answeredBy p .ack 0 0 0 0).fab ∧ (t.core c).landing = (s.core c).landing) ∧
      (usable → l ≤ 256 * b.tiles - 8 → s.heldFor c off ≠ [] ∨ blocked → ∃ t, exec (.msg p.id) s = .next t ∧
        t.bobbin c off = { b with held := true } ∧ (t.core c).landing = (s.core c).landing ++ [p] ∧
        t.fab = (s.dropPacket p.id).fab ∧ t.threads = s.threads ∧ t.regs = s.regs) ∧
      (b.enable = false → exec (.msg p.id) s = .next (s.answeredBy p .err 0 0x10 0 0)) ∧
      (b.enable = true → b.formed = false → exec (.msg p.id) s = .next (s.answeredBy p .err 0 0x11 0 0)) ∧
      (usable → 256 * b.tiles - 8 < l → exec (.msg p.id) s = .next (s.answeredBy p .err 0 0x12 0 0))) ∧
    (∀ (q : Packet) (rest : List Packet), s.heldFor c off = q :: rest → (∀ r, r ∈ rest → r.id ≠ q.id) →
      8 * q.flits = l → q.flits ≤ 32 → s.repliesTo q.src q.pos →
      let leaves (t : State) (answer : Packet → Prop) : Prop := exec (.heldMsgPlace c (Fin.ofNat 65536 off)) s = .next t ∧
        (t.core c).landing = (s.core c).landing.filter (fun p => p.id != q.id) ∧
        ∃ r, t.fab.pkts = s.fab.pkts ++ [r] ∧ answer r ∧ r.dst = q.src ∧ r.sth = q.sth ∧ r.tag = q.tag ∧ r.gen = q.gen
      (s.clocked c = true → fits →
        ∃ t, leaves t (fun r => r.typ = .ack) ∧ placed t q.body (!rest.isEmpty)) ∧
      (s.clocked c = false → ∃ t, leaves t (fun r => r.typ = .err ∧ r.arg = 8) ∧ t.sram = s.sram))) ∧
  (∀ (s : State) (c : Lcn) (p : Packet), s.atDest p.id .ncast = some p → s.servingCore p.pos = some c → p.good = true →
    p.dst = c → s.accepts c p = true → s.inReset c p = false → s.inPartition p.ld (fieldOf c) = true →
    s.clocked c = true → s.castAbsent p = none →
    let first : Lcn := BitVec.ofNat 20 (p.arg / 2 ^ 16)
    let count := p.arg / 2 ^ 36 % 2 ^ 8
    let column := p.arg.testBit 44
    let place := if column then rowOf c - rowOf first else colOf c - colOf first
    let next : Lcn := if column then posOf (rowOf first + (place + 1)) (colOf first)
      else posOf (rowOf first) (colOf first + (place + 1))
    let written := p.req / 2 ^ 8 * 2 ^ 8 + (p.req % 2 ^ 8 + 1) % 2 ^ 8
    let tile := p.arg % 2 ^ 16 / 2 ^ 8
    let wrote (t : State) : Prop := t.readTile c tile = BitVec.ofNat 2048 p.body ∧ t.damaged = s.damaged.erase (c.toNat * 256 + tile) ∧
      (∀ d j, ¬(d = c ∧ tile * 256 ≤ j ∧ j < tile * 256 + 256) → j < 2 ^ 16 → t.readSram d j 1 = s.readSram d j 1) ∧
      t.threads = s.threads ∧ t.regs = s.regs
    (place + 1 < count → ∃ t, exec (.ncastPacket p.id) s = .next t ∧ wrote t ∧
      t.fab = (s.setPacket { p with dst := next, rt := s.routeTarget next, req := written }).fab) ∧
    (count ≤ place + 1 → s.repliesTo p.src (s.routeTarget first) → ∃ t q, exec (.ncastPacket p.id) s = .next t ∧ wrote t ∧
      t.fab.pkts = s.fab.pkts.filter (fun r => !decide (r.id = p.id)) ++ [q] ∧ q.typ = .ncasta ∧ q.dst = p.src ∧
        q.sth = p.sth ∧ q.tag = p.tag ∧ q.gen = p.gen ∧ q.arg = written ∧ q.pos = s.routeTarget first))

/-- 06 R232 to R243, Table 6.7. -/
def Obligations.CompressorAndSelection : Prop :=
  ∀ (s : State) (c : Lcn), s.backed c = true → s.clocked c = true →
    let u := c.toNat
    let go (v : Word) := v.msb
    let meet (a m b n : Nat) := a < b + n ∧ b < a + m
    let signalled (t : State) (k : Nat) : Prop :=
      t.get F.TACK_STATEn_VALUE u k = (s.get F.TACK_STATEn_VALUE u k + 1) % 2 ^ 32 ∧
        t.get F.TACK_STATEn_LKIND u k = 1
    (∀ v : Word,
      (s.get F.SPX_CMP_STAT_BUSY u = 1 → exec (.compressorStart c v) s = .next (s.put F.SPX_CMP_STAT_REJ 1 u)) ∧
      (s.get F.SPX_SEL_STAT_BUSY u = 1 → exec (.selectionStart c v) s = .next (s.put F.SPX_SEL_STAT_REJ 1 u)) ∧
      (s.get F.SPX_CMP_STAT_BUSY u ≠ 1 →
        let src := v.toNat % 2 ^ 8
        let dst := v.toNat / 2 ^ 8 % 2 ^ 8
        let span := v.toNat / 2 ^ 16 % 2 ^ 8
        let fmt := v.toNat / 2 ^ 24 % 2 ^ 4
        let hdr := v.toNat / 2 ^ 40 % 2 ^ 12 / 16
        let code := if span = 0 ∨ 128 < span then 1 else if 256 < src + span then 2 else if 256 < dst + span then 3
          else if 10 < fmt ∨ (v.toNat.testBit 28 = true ∧ 7 < fmt) then 4
          else if meet src span dst span ∨ meet src span hdr 1 ∨ meet dst span hdr 1 then 5 else 0
        ∃ t, exec (.compressorStart c v) s = .next t ∧
          t.get F.SPX_CMP_CMD_SRC u = src ∧ t.get F.SPX_CMP_CMD_DST u = dst ∧ t.get F.SPX_CMP_CMD_SPAN u = span ∧
          t.get F.SPX_CMP_CMD_FMT u = fmt ∧ t.get F.SPX_CMP_CMD_PRUNE24 u = v.toNat / 2 ^ 28 % 2 ∧
          t.get F.SPX_CMP_CMD_TACK u = v.toNat / 2 ^ 32 % 2 ^ 5 ∧
          t.get F.SPX_CMP_CMD_HDR16 u = v.toNat / 2 ^ 40 % 2 ^ 12 ∧ t.sram = s.sram ∧
          (go v = false → t.threads = s.threads ∧ t.get F.SPX_CMP_STAT_BUSY u = s.get F.SPX_CMP_STAT_BUSY u) ∧
          (go v = true → code = 0 → t.get F.SPX_CMP_STAT_BUSY u = 1 ∧ t.threads = s.threads) ∧
          (go v = true → code ≠ 0 →
            t.get F.SPX_CMP_STAT_ERR u = 1 ∧ t.get F.SPX_CMP_STAT_ERRCODE u = code ∧ t.get F.SPX_CMP_STAT_DONE u = 1 ∧
            t.get F.SPX_CMP_STAT_BUSY u = 0 ∧ signalled t (v.toNat / 2 ^ 32 % 32))) ∧
      (s.get F.SPX_SEL_STAT_BUSY u ≠ 1 →
        let score := v.toNat % 2 ^ 8
        let idx := v.toNat / 2 ^ 8 % 2 ^ 8
        let groups := v.toNat / 2 ^ 16 % 2 ^ 8
        let n := v.toNat / 2 ^ 24 % 2 ^ 8
        let gather := v.toNat.testBit 34 = true
        let hdr := v.toNat / 2 ^ 40 % 2 ^ 12 / 16
        let tpg := s.get F.SPX_GATHER_CFG_TPG u
        let dst := s.get F.SPX_GATHER_CFG_DST u
        let addr := s.get F.SPX_GATHER_SRC_ADDR u
        let met (k : Nat) : Prop := dst < k + 1 ∧ k < dst + groups * tpg
        let code := if groups = 0 ∨ 128 < groups ∨ (v.toNat.testBit 33 = true ∧ (n = 0 ∨ groups < n)) ∨ tpg = 0 ∨ 16 < tpg then 1
          else if gather ∧ 256 < dst + groups * tpg then 3
          else if score = idx ∨ score = hdr ∨ idx = hdr ∨ (gather ∧ (met score ∨ met idx ∨ met hdr)) then 5
          else if gather ∧ (addr % 256 ≠ 0 ∨ s.memoryRoute c addr = none) then 6 else 0
        ∃ t, exec (.selectionStart c v) s = .next t ∧ t.sram = s.sram ∧
          t.get F.SPX_SEL_CMD_SCORE u = score ∧ t.get F.SPX_SEL_CMD_IDX u = idx ∧
          t.get F.SPX_SEL_CMD_GROUPS u = groups ∧ t.get F.SPX_SEL_CMD_N u = n ∧
          (go v = false → t.threads = s.threads ∧ t.get F.SPX_SEL_STAT_BUSY u = s.get F.SPX_SEL_STAT_BUSY u) ∧
          (go v = true → code = 0 → t.get F.SPX_SEL_STAT_BUSY u = 1 ∧ t.threads = s.threads ∧
            (t.core c).sel = some { thr := s.get F.SPX_SEL_THR_THR u, addr, stride := s.get F.SPX_GATHER_CFG_GSTRIDE u, tpg, dst }) ∧
          (go v = true → code ≠ 0 → t.get F.SPX_SEL_STAT_ERR u = 1 ∧ t.get F.SPX_SEL_STAT_ERRCODE u = code ∧
            t.get F.SPX_SEL_STAT_DONE u = 1 ∧ t.get F.SPX_SEL_STAT_BUSY u = 0 ∧ (t.core c).sel = none ∧
            signalled t (v.toNat / 2 ^ 35 % 32)))) ∧
    (s.get F.SPX_CMP_STAT_BUSY u = 1 →
      let src := s.get F.SPX_CMP_CMD_SRC u
      let dst := s.get F.SPX_CMP_CMD_DST u
      let span := s.get F.SPX_CMP_CMD_SPAN u
      let fmt := s.get F.SPX_CMP_CMD_FMT u
      let prune := s.get F.SPX_CMP_CMD_PRUNE24 u = 1
      let hdr := 16 * s.get F.SPX_CMP_CMD_HDR16 u
      let present (k : Nat) : Bool := (tileElems fmt (s.readTile c (src + k))).any fun x => !elemIsZero fmt x
      let l := (List.range span).filter present
      let sparse := l.length + 1 ≤ span
      let elem (k i : Nat) := tileElem fmt (s.readTile c (src + k)) i
      let groups := fmtCount fmt / 4
      let keeps (k g p q : Nat) : Prop := p < q ∧ q < 4 ∧ ∀ r, r < 4 → r ≠ p → r ≠ q → ∀ m, m = p ∨ m = q →
        magnitudeLess fmt (elem k (4 * g + m)) (elem k (4 * g + r)) = false ∧
          (magnitudeLess fmt (elem k (4 * g + r)) (elem k (4 * g + m)) = true ∨ m < r)
      let drops (k : Nat) : Prop := ∃ g p q r, g < groups ∧ keeps k g p q ∧ r < 4 ∧ r ≠ p ∧ r ≠ q ∧
        elemIsZero fmt (elem k (4 * g + r)) = false
      let holds (t : State) (d k : Nat) : Prop :=
        (¬prune → t.readTile c d = s.readTile c (src + k)) ∧
        (prune → ∀ g p q, g < groups → keeps k g p q →
          let at_ (i : Nat) := (t.readTile c d).toNat / 2 ^ (fmtWidth fmt * i) % 2 ^ fmtWidth fmt
          let code (i : Nat) := (t.readTile c d).toNat / 2 ^ (1024 + 2 * i) % 4
          at_ (2 * g) = elem k (4 * g + p) ∧ at_ (2 * g + 1) = elem k (4 * g + q) ∧ code (2 * g) = p ∧ code (2 * g + 1) = q)
      let s24 := if prune then 4 else 0
      let stopped (t : State) : Prop := t.get F.SPX_CMP_STAT_ERR u = 1 ∧ t.get F.SPX_CMP_STAT_ERRCODE u = 7 ∧
        t.get F.SPX_CMP_STAT_DONE u = 1 ∧ t.get F.SPX_CMP_STAT_BUSY u = 0 ∧ signalled t (s.get F.SPX_CMP_CMD_TACK u % 32)
      span ≤ 128 → src + span ≤ 256 → dst + span ≤ 256 → fmt ≤ 10 → (prune → fmt ≤ 7) → hdr < 2 ^ 16 →
      ¬(dst ≤ hdr / 256 ∧ hdr / 256 < dst + span) →
      ((∃ k, k < span ∧ s.tileGood c (src + k) = false) →
        ∃ t, exec (.compressorDone c) s = .next t ∧ stopped t ∧ t.sram = s.sram) ∧
      ((∀ k, k < span → s.tileGood c (src + k) = true) →
        ∃ t, exec (.compressorDone c) s = .next t ∧
          t.get F.SPX_CMP_STAT_PRESENT u = l.length % 2 ^ F.SPX_CMP_STAT_PRESENT.width ∧
          t.get F.SPX_CMP_STAT_DENSE u = (if sparse then 0 else 1) ∧
          (prune → (∃ k, k < span ∧ (sparse → k ∈ l) ∧ drops k) → t.get F.SPX_CMP_STAT_PRUNED u = 1) ∧
          (¬prune ∨ (∀ k, k < span → (sparse → k ∈ l) → ¬drops k) →
            t.get F.SPX_CMP_STAT_PRUNED u = s.get F.SPX_CMP_STAT_PRUNED u) ∧
          (s.tileGood c (hdr / 256) = false → stopped t ∧ t.readSram c hdr 16 = s.readSram c hdr 16) ∧
          (s.tileGood c (hdr / 256) = true →
            t.get F.SPX_CMP_STAT_DONE u = 1 ∧ t.get F.SPX_CMP_STAT_BUSY u = 0 ∧
            t.get F.SPX_CMP_STAT_ERR u = s.get F.SPX_CMP_STAT_ERR u ∧ signalled t (s.get F.SPX_CMP_CMD_TACK u % 32) ∧
            (¬sparse → t.readSram c hdr 16 = s24 + span * 2 ^ 8 + dst * 2 ^ 24) ∧
            (sparse → t.readSram c hdr 16 = 1 + s24 + span * 2 ^ 8 + l.length * 2 ^ 16 + dst * 2 ^ 24)) ∧
          (¬sparse → ∀ k, k < span → holds t (dst + k) k) ∧
          (sparse → (∀ i k, l[i]? = some k → holds t (dst + 1 + i) k) ∧
            (∀ k, k < 128 → (t.readTile c dst).getLsbD k = decide (k ∈ l)) ∧
            (∀ i k, l[i]? = some k → (t.readTile c dst).toNat / 2 ^ (128 + 8 * i) % 2 ^ 8 = k)) ∧
          ∀ d j, ¬(d = c ∧ (dst * 256 ≤ j ∧ j < (dst + span) * 256 ∨ hdr ≤ j ∧ j < hdr + 16)) → j < 2 ^ 16 →
            t.readSram d j 1 = s.readSram d j 1)) ∧
    (∀ latch, (s.core c).sel = some latch → s.darnHeld c = false →
      let score := s.get F.SPX_SEL_CMD_SCORE u
      let groups := s.get F.SPX_SEL_CMD_GROUPS u
      let idx := s.get F.SPX_SEL_CMD_IDX u
      let hdr := 16 * s.get F.SPX_SEL_CMD_HDR16 u
      let gather := s.get F.SPX_SEL_CMD_GATHER u = 1
      let own := (if s.get F.INT_DUPSTAT_SHADOW u = 1 then c ^^^ 0x80000 else c).toNat * 65536
      let f : Fp := if s.get F.SPX_SEL_CMD_SFMT u = 1 then ⟨8, 7, 127, .ieee, false⟩ else ⟨5, 10, 15, .ieee, false⟩
      let value (g : Nat) : Machine.Num := (f.decode (tileElem 6 (s.readTile c score) g)).1
      let beats (g k : Nat) : Prop := (value g).isNan = false ∧
        ((value k).less (value g) = true ∨ ((value g).less (value k) = false ∧ g < k))
      let chosen (l : List Nat) : Prop := l.Pairwise (· < ·) ∧ ∀ k, k ∈ l ↔ k < groups ∧ (value k).isNan = false ∧
        if s.get F.SPX_SEL_CMD_TOPN u = 1 then
          ∀ r : List Nat, r.Nodup → (∀ g, g ∈ r → g < groups ∧ g ≠ k ∧ beats g k) → r.length < s.get F.SPX_SEL_CMD_N u
        else (f.decode latch.thr).1.isNan = false ∧ (value k).less (f.decode latch.thr).1 = false
      let ended (t : State) (err : Bool) : Prop := t.get F.SPX_SEL_STAT_DONE u = 1 ∧ t.get F.SPX_SEL_STAT_BUSY u = 0 ∧
        (t.core c).sel = none ∧ signalled t (s.get F.SPX_SEL_CMD_TACK u % 32) ∧
        (err = true → t.get F.SPX_SEL_STAT_ERR u = 1 ∧ t.get F.SPX_SEL_STAT_ERRCODE u = 7) ∧
        (err = false → t.get F.SPX_SEL_STAT_ERR u = s.get F.SPX_SEL_STAT_ERR u)
      score < 256 → idx < 256 → groups ≤ 128 → hdr < 2 ^ 16 → hdr / 256 ≠ idx →
      (s.tileGood c score = false → ∃ t, exec (.selectionDone c) s = .next t ∧ ended t true ∧ t.sram = s.sram) ∧
      (s.tileGood c score = true → ∃ t l, exec (.selectionDone c) s = .next t ∧ chosen l ∧
        (∀ k, k < 128 → (t.readTile c idx).getLsbD k = decide (k ∈ l)) ∧
        (∀ i k, l[i]? = some k → (t.readTile c idx).toNat / 2 ^ (128 + 8 * i) % 2 ^ 8 = k) ∧
        (s.tileGood c (hdr / 256) = false → ended t true ∧ t.readSram c hdr 16 = s.readSram c hdr 16) ∧
        (s.tileGood c (hdr / 256) = true →
          t.readSram c hdr 16 = 1 + groups * 2 ^ 8 + l.length * 2 ^ 16 + idx * 2 ^ 24 ∧
          t.get F.SPX_SEL_STAT_SELECTED u = l.length % 2 ^ F.SPX_SEL_STAT_SELECTED.width ∧
          (¬gather → ended t false ∧ t.spool = s.spool) ∧
          (gather → t.get F.SPX_SEL_STAT_BUSY u = s.get F.SPX_SEL_STAT_BUSY u ∧ (t.core c).sel = none ∧ t.threads = s.threads ∧
            ∃ r, t.spool = s.spool ++ [r] ∧ r.core = c ∧ r.panel = panelOf c ∧ r.isGather = true ∧ r.taken = false ∧
              r.tack = s.get F.SPX_SEL_CMD_TACK u ∧ r.gather.length = l.length * latch.tpg ∧
              ∀ i g k, l[i]? = some g → k < latch.tpg → r.gather[i * latch.tpg + k]? =
                some (latch.addr + g * latch.stride + 256 * k, own + (latch.dst + i * latch.tpg + k) * 256))) ∧
        ∀ d j, ¬(d = c ∧ (idx * 256 ≤ j ∧ j < idx * 256 + 256 ∨ hdr ≤ j ∧ j < hdr + 16)) → j < 2 ^ 16 →
          t.readSram d j 1 = s.readSram d j 1))

/-- 14 R500 to R504, R514 to R522, Tables 14.6 and 14.11. -/
def Obligations.HostRegistersAndQueues : Prop :=
  (∀ (s : State) (ld : Fin 16), s.get F.CLK_BLKEN_CXL = 1 →
    let k := ld.val
    let only (t : State) (l : List Fld) : Prop := s.fieldsKept t l ∧ { t with regs := s.regs } = s
    let discarded (i : Instr) (via : Nat) : Prop := ∃ t, exec i s = .next t ∧
      t.get F.CXL_CTLERR_LAST_LD = via ∧ only t [F.CXL_CTLERR_DISCARDS, F.CXL_CTLERR_SAT, F.CXL_CTLERR_LAST_LD] ∧
      (s.get F.CXL_CTLERR_DISCARDS + 1 < 2 ^ F.CXL_CTLERR_DISCARDS.width →
        t.get F.CXL_CTLERR_DISCARDS = s.get F.CXL_CTLERR_DISCARDS + 1)
    let idle := ∀ e, e ∈ s.slots → e.2.ld = k → e.2.inService = false
    (∀ (via : Fin 16) (v : Word), via ≠ 0 → discarded (.ldPartWrite via ld v) via ∧
      discarded (.ldFmwinWrite via ld v) via ∧ discarded (.ldMsixWrite via ld v) via) ∧
    (∀ v : Word,
      let alone := ∀ j, j < 16 → j ≠ k → s.get F.CXL_LDk_PART_FIELDS j &&& v.toNat = 0
      let size := v.toNat / 2 ^ 32 % 2 ^ 17
      let inside := v.toNat % 2 ^ 16 + size ≤ 2 ^ 16
      (idle → alone → exec (.ldPartWrite 0 ld v) s = .next (s.put F.CXL_LDk_PART_FIELDS v.toNat k)) ∧
      (¬idle ∨ ¬alone → discarded (.ldPartWrite 0 ld v) 0) ∧
      (idle → inside → ∃ t, exec (.ldFmwinWrite 0 ld v) s = .next t ∧
        t.get F.CXL_LDk_FMWIN_FMBASE k = v.toNat % 2 ^ 16 ∧ t.get F.CXL_LDk_FMWIN_FMSIZE k = size ∧
        only t [F.CXL_LDk_FMWIN_FMBASE, F.CXL_LDk_FMWIN_FMSIZE]) ∧
      (¬idle ∨ ¬inside → discarded (.ldFmwinWrite 0 ld v) 0) ∧
      (v.toNat / 2 ^ 16 % 2 ^ 12 ≤ 2048 →
        (idle → ∃ t, exec (.ldMsixWrite 0 ld v) s = .next t ∧ t.get F.CXL_LDk_MSIX_BASE k = v.toNat % 2 ^ 11 ∧
          t.get F.CXL_LDk_MSIX_COUNT k = v.toNat / 2 ^ 16 % 2 ^ 12 ∧
          only t [F.CXL_LDk_MSIX_BASE, F.CXL_LDk_MSIX_COUNT]) ∧
        (¬idle → discarded (.ldMsixWrite 0 ld v) 0)) ∧
      (6 ≤ v.toNat % 2 ^ 5 → v.toNat % 2 ^ 5 ≤ 16 →
        let en := v.toNat / 2 ^ 5 % 2
        (∃ t, exec (.ringEnable ld v) s = .next t ∧ t.get F.CXL_LDk_RING_LOG2SIZE k = v.toNat % 2 ^ 5 ∧
          t.get F.CXL_LDk_RING_EN k = en ∧ t.get F.CXL_LDk_RING_BASE k = v.toNat / 2 ^ 12 ∧
          (s.get F.CXL_LDk_RING_EN k ≠ 1 → en = 1 →
            t.get F.CXL_LDk_RINGPTR_HEAD k = 0 ∧ t.get F.CXL_LDk_RINGPTR_TAIL k = 0) ∧
          (s.get F.CXL_LDk_RING_EN k = 1 ∨ en = 0 →
            t.get F.CXL_LDk_RINGPTR_HEAD k = s.get F.CXL_LDk_RINGPTR_HEAD k ∧
              t.get F.CXL_LDk_RINGPTR_TAIL k = s.get F.CXL_LDk_RINGPTR_TAIL k) ∧
          only t [F.CXL_LDk_RING_LOG2SIZE, F.CXL_LDk_RING_EN, F.CXL_LDk_RING_BASE, F.CXL_LDk_RINGPTR_HEAD,
            F.CXL_LDk_RINGPTR_TAIL]) ∧
        (∃ t, exec (.evqEnable ld v) s = .next t ∧ t.get F.CXL_LDk_EVQ_LOG2SIZE k = v.toNat % 2 ^ 5 ∧
          t.get F.CXL_LDk_EVQ_EN k = en ∧ t.get F.CXL_LDk_EVQ_BASE k = v.toNat / 2 ^ 12 ∧
          (s.get F.CXL_LDk_EVQ_EN k ≠ 1 → en = 1 →
            t.get F.CXL_LDk_EVQPTR_HEAD k = 0 ∧ t.get F.CXL_LDk_EVQPTR_TAIL k = 0) ∧
          only t [F.CXL_LDk_EVQ_LOG2SIZE, F.CXL_LDk_EVQ_EN, F.CXL_LDk_EVQ_BASE, F.CXL_LDk_EVQPTR_HEAD,
            F.CXL_LDk_EVQPTR_TAIL]))) ∧
    (∀ v : Word,
      (v.toNat % 2 ^ 5 < 6 ∨ 16 < v.toNat % 2 ^ 5 → exec (.ringEnable ld v) s = .fault .undefinedFieldValue ∧
        exec (.evqEnable ld v) s = .fault .undefinedFieldValue) ∧
      (2048 < v.toNat / 2 ^ 16 % 2 ^ 12 → exec (.ldMsixWrite 0 ld v) s = .fault .undefinedFieldValue)) ∧
    (∀ (f : Fin 64) (p : Fin 8), ∃ t, exec (.apertureSelect ld f p) s = .next t ∧
      t.get F.CXL_LDk_APERTURE_FIELD k = f.val ∧ t.get F.CXL_LDk_APERTURE_PANEL k = p.val ∧
      only t [F.CXL_LDk_APERTURE_FIELD, F.CXL_LDk_APERTURE_PANEL]) ∧
    (∀ index : BitVec 16,
      let size := 2 ^ s.get F.CXL_LDk_RING_LOG2SIZE k
      let head := s.get F.CXL_LDk_RINGPTR_HEAD k
      let tail := s.get F.CXL_LDk_RINGPTR_TAIL k
      let way (a b : Nat) := (b + size - a) % size
      head < size → tail < size →
      (s.get F.CXL_LDk_RING_EN k = 1 → index.toNat < size → 0 < way tail index.toNat →
        way tail index.toNat ≤ way tail ((head + size - 1) % size) →
        exec (.dbRing ld index) s = .next (s.put F.CXL_LDk_RINGPTR_TAIL index.toNat k)) ∧
      (s.get F.CXL_LDk_RING_EN k ≠ 1 ∨ size ≤ index.toNat ∨ index.toNat = tail ∨
          way tail ((head + size - 1) % size) < way tail index.toNat →
        exec (.dbRing ld index) s = .next (s.put F.CXL_LDk_RINGPTR_BADDB 1 k))) ∧
    (∀ index : BitVec 16,
      let size := 2 ^ s.get F.CXL_LDk_EVQ_LOG2SIZE k
      let head := s.get F.CXL_LDk_EVQPTR_HEAD k
      let tail := s.get F.CXL_LDk_EVQPTR_TAIL k
      let way (a b : Nat) := (b + size - a) % size
      let written := index.toNat < size ∧ way head index.toNat ≤ way head tail
      head < size → tail < size →
      (written → exec (.dbEvq ld index) s = .next (s.put F.CXL_LDk_EVQPTR_HEAD index.toNat k)) ∧
      (¬written → exec (.dbEvq ld index) s = .next s))) ∧
  (∀ (s : State) (masked : Bool) (e : Event) (rest : List Event), s.get F.CXL_LINKSTAT_STATE = 2 →
    s.events = e :: rest → e.ld < 16 →
    let k := e.ld
    let size := 2 ^ s.get F.CXL_LDk_EVQ_LOG2SIZE k
    let tail := s.get F.CXL_LDk_EVQPTR_TAIL k
    let on := s.get F.CXL_LDk_EVQ_EN k = 1
    let full := (tail + 1) % size = s.get F.CXL_LDk_EVQPTR_HEAD k
    let count := s.get F.CXL_LDk_MSIX_COUNT k
    let vector := s.get F.CXL_LDk_MSIX_BASE k + s.get F.CXL_LDk_EVVEC_VECj k e.kind % count
    (¬on → exec (.eventPost masked) s = .next { s with events := rest }) ∧
    (on → full → ∃ t, exec (.eventPost masked) s = .next t ∧ t.events = rest ∧ t.get F.CXL_LDk_EVQPTR_OVF k = 1 ∧
      t.get F.CXL_LDk_EVQPTR_LOST k = min (s.get F.CXL_LDk_EVQPTR_LOST k + 1) 255 ∧
      t.messages = s.messages ∧ t.hostOut = s.hostOut ∧ s.fieldsKept t [F.CXL_LDk_EVQPTR_OVF, F.CXL_LDk_EVQPTR_LOST]) ∧
    (on → ¬full → e.kind < 2 ^ 8 → e.id < 2 ^ 16 → e.count < 2 ^ 32 → e.tr < 2 ^ 48 →
      e.detail0 < 2 ^ 64 → e.detail1 < 2 ^ 64 → ∃ t, exec (.eventPost masked) s = .next t ∧ t.events = rest ∧
      t.hostOut = s.hostOut ++ [HostWrite.mk k (2 ^ 49 + (s.get F.CXL_LDk_EVQ_BASE k * 2 ^ 12 + 32 * tail)) 32
        (e.kind + k * 2 ^ 8 + e.id * 2 ^ 16 + e.count * 2 ^ 32 + e.tr * 2 ^ 64 + e.detail0 * 2 ^ 128 +
          e.detail1 * 2 ^ 192)] ∧
      t.get F.CXL_LDk_EVQPTR_TAIL k = (tail + 1) % size % 2 ^ 16 ∧ s.fieldsKept t [F.CXL_LDk_EVQPTR_TAIL] ∧
      (count = 0 → t.messages = s.messages ∧ t.msixPending = s.msixPending) ∧
      (count ≠ 0 → masked = false → t.messages = s.messages ++ [(k, vector)]) ∧
      (count ≠ 0 → masked = true → t.messages = s.messages ∧ vector ∈ t.msixPending))) ∧
  (∀ (s : State) (slot : Fin 64) (n first tr : Nat) (o : CutOrder), findKey s.trapWindows slot.val = some (n, first, tr) →
    findKey s.slots slot.val = some o → 2 ≤ s.get F.CXL_LINKSTAT_STATE →
    exec (.trapWindowEnd slot) s = .next { s with
      trapWindows := delKey s.trapWindows slot.val
      events := s.events ++ if n = 0 then []
        else [{ kind := 2, ld := o.ld, id := slot.val + o.gen * 64, count := n, tr, detail0 := first }] })

/-- 14 R493, R499, R505 to R511, R693, Table 14.4. -/
def Obligations.HostMemory : Prop :=
  (∀ (s : State) (ld : Fin 16) (x : BitVec 46) (n : Nat), s.get F.CXL_LINKSTAT_STATE = 2 →
    let k := ld.val
    let o := s.get F.CXL_LDk_FMWIN_FMBASE k * 2 ^ 30 + x.toNat
    let port := (s.farPort o).1
    let inside := x.toNat < s.get F.CXL_LDk_FMWIN_FMSIZE k * 2 ^ 30
    let serves := s.portClosed port = false ∧ (s.farPort o).2 < s.get F.SEL_CAP_CAP_GIB port * 2 ^ 30
    let waits := s.get F.SEL_STAT_STATE port = 3 ∨ s.get F.SEL_STAT_STATE port = 4
    let tells (t : State) (kind len data : Nat) (ok : Bool) : State :=
      { t with answers := t.answers ++ [{ ld := k, kind, ok, len, data }] }
    let counted := s.addSat F.CXL_LDk_HMSTAT_MEMERR F.CXL_LDk_HMSTAT_SAT 1 k
    (inside → ¬waits → serves →
      (∀ d : BitVec 512, exec (.cxlMemRead ld x (some d) n) s =
        .next (tells (s.addWrap F.SEL_TRAFFIC_RD n port) 1 64 d.toNat true)) ∧
      exec (.cxlMemRead ld x none n) s = .next (tells counted 1 64 0 false) ∧
      exec (.cxlMemWrite ld x true n) s = .next (tells (s.addWrap F.SEL_TRAFFIC_WR n port) 2 0 0 true) ∧
      exec (.cxlMemWrite ld x false n) s = .next (tells counted 2 0 0 true)) ∧
    (inside → waits → (∀ d, exec (.cxlMemRead ld x d n) s = .next s) ∧ ∀ d, exec (.cxlMemWrite ld x d n) s = .next s) ∧
    (¬inside ∨ (¬waits ∧ ¬serves) →
      (∀ d, exec (.cxlMemRead ld x d n) s = .next (tells counted 1 64 0 false)) ∧
      (∀ d, exec (.cxlMemWrite ld x d n) s = .next (tells counted 2 0 0 true)))) ∧
  (∀ (s : State) (q : Packet), s.hostReqs.find? (fun r => r.id == q.id) = some q → s.get F.CXL_LINKSTAT_STATE = 2 →
    s.repliesTo q.src q.pos → q.ld < 16 →
    let replied (t : State) (typ : PacketType) (opc arg flits body : Nat) : Prop := ∃ r,
      t.fab.pkts = s.fab.pkts ++ [r] ∧ r.typ = typ ∧ r.dst = q.src ∧ r.sth = q.sth ∧ r.tag = q.tag ∧ r.gen = q.gen ∧
        r.opc = opc ∧ r.arg = arg ∧ r.flits = flits ∧ r.body = body
    let ended (t : State) : Prop := t.hostReqs = s.hostReqs.filter (fun r => r.id != q.id) ∧ t.threads = s.threads ∧
      t.sram = s.sram
    let fails (i : Instr) (code : Nat) : Prop := ∃ t, exec i s = .next t ∧ ended t ∧ replied t .err 0 code 0 0 ∧
      s.fieldsKept t [F.CXL_LDk_HMSTAT_HMERR, F.CXL_LDk_HMSTAT_SAT] ∧
      t.get F.CXL_LDk_HMSTAT_HMERR q.ld = min (s.get F.CXL_LDk_HMSTAT_HMERR q.ld + 1) (2 ^ 24 - 1)
    (∀ data : Tile, q.opc ≤ 4 →
      let n := if q.opc = 4 then 256 else 2 ^ q.opc
      (q.typ = .rd → ∃ t, exec (.hostMemAnswer q.id (.good data)) s = .next t ∧ ended t ∧
        s.fieldsKept t [F.FAB_MARKS_MARKS, F.FAB_MARKS_SAT] ∧
        replied t .rdr q.opc 0 (if q.opc = 4 then 32 else 1) (data.toNat % 2 ^ (8 * n))) ∧
      (q.typ = .wr → ∃ t, exec (.hostMemAnswer q.id (.good data)) s = .next t ∧ ended t ∧ t.regs = s.regs ∧
        replied t .ack 0 0 0 0)) ∧
    fails (.hostMemAnswer q.id .error) 0x51 ∧ fails (.hostMemAnswer q.id .ideFail) 0x54 ∧
    fails (.hostMemTimeout q.id) 0x52) ∧
  (∀ (s : State) (ld : Fin 16), s.get F.CXL_LINKSTAT_STATE = 2 →
    let tells (k kind len data : Nat) (ok : Bool) : Host.Outcome State Fault Refusal :=
      .next { s with answers := s.answers ++ [{ ld := k, kind, ok, len, data }] }
    let memory (k : Nat) := if s.get F.CXL_LDk_CFG_ENABLED k = 1 then s.get F.CXL_LDk_FMWIN_FMSIZE k else 0
    exec (.hostSnoop ld) s = tells ld 3 0 0 true ∧
      exec .getLdInfo s = tells 0 4 8 (16 + ((List.range 16).map memory).sum * 2 ^ 16) true ∧
      exec .getLdAllocations s = tells 0 5 64 (((List.range 16).map fun k => memory k * 2 ^ (32 * k)).sum) true ∧
      exec .setLdAllocations s = tells 0 6 0 0 false) ∧
  (∀ (s : State) (ld : Fin 16),
    (s.get F.CXL_LDk_CFG_ENABLED ld = 1 → exec (.ldBind ld true) s = .next (s.put F.CXL_LDk_CFG_BOUND 1 ld)) ∧
    (s.get F.CXL_LDk_CFG_ENABLED ld ≠ 1 → exec (.ldBind ld true) s = .next s) ∧
    exec (.ldBind ld false) s = .next (s.put F.CXL_LDk_CFG_BOUND 0 ld) ∧
    ∀ cache mem, ∃ t, exec (.cxlCacheMemEnable ld cache mem) s = .next t ∧
      t.get F.CXL_LDk_CFG_CACHE_EN ld = (if cache then 1 else 0) ∧ t.get F.CXL_LDk_CFG_MEM_EN ld = (if mem then 1 else 0) ∧
      s.fieldsKept t [F.CXL_LDk_CFG_CACHE_EN, F.CXL_LDk_CFG_MEM_EN] ∧ { t with regs := s.regs } = s)

/-- 14 R494 to R498, R511, R524, Table 14.3. -/
def Obligations.HostLink : Prop :=
  ∀ s : State,
    let up := s.get F.CXL_LINKSTAT_STATE = 2
    let wentDown (t : State) (state : Nat) : Prop := t.get F.CXL_LINKSTAT_STATE = state ∧ t.get F.BRG_READY_HOST = 0 ∧
      t.hostReqs = [] ∧ t.events = [] ∧
      (∀ k, k < 16 → t.get F.CXL_LDk_RING_EN k = 0 ∧ t.get F.CXL_LDk_EVQ_EN k = 0) ∧
      t.threads = s.threads ∧ t.sram = s.sram ∧ t.slots = s.slots
    let left (t : State) : Prop := t.get F.CXL_LINKSTAT_STATE = 3 ∧ t.get F.BRG_READY_HOST = 0 ∧
      t.get F.CXL_LINKSTAT_EPISODES = min (s.get F.CXL_LINKSTAT_EPISODES + 1) (2 ^ 24 - 1)
    let maps := [F.CXL_FIBRE_TX_RET0, F.CXL_FIBRE_TX_RET1, F.CXL_FIBRE_RX_RET0, F.CXL_FIBRE_RX_RET1,
      F.CXL_FIBRE_BEACON_OK]
    let states := [F.CXL_LINKSTAT_STATE, F.BRG_READY_HOST]
    let live (lanes : List Nat) (dead : BitVec 16) (gone : Nat → Prop) (l : List Nat) : Prop :=
      l.Pairwise (· < ·) ∧ ∀ k, k ∈ l ↔ k ∈ lanes ∧ dead.getLsbD k = false ∧ ¬gone k
    let event (t : State) : Prop := ∃ e, t.events = s.events ++ [e] ∧ e.kind = 0x0D ∧ e.ld = 0
    (∀ (us : BitVec 32) (dead : BitVec 16) (slow : Bool), s.get F.CLK_BLKEN_CXL = 1 →
      (s.get F.CXL_LINKSTAT_STATE < 2 →
        (dead = 0 → ∃ t, exec (.hostLinkL0 us dead slow) s = .next t ∧
          t.get F.CXL_LINKSTAT_STATE = 2 ∧ t.get F.BRG_READY_HOST = 1 ∧
          t.get F.CXL_LINKSTAT_WIDTH = 0 ∧ t.get F.CXL_LINKSTAT_RATE = (if slow then 1 else 0) ∧
          t.get F.CXL_FIBRE_TX_RET0 = 31 ∧ t.get F.CXL_FIBRE_RX_RET0 = 31 ∧ t.fibres = {} ∧
          s.fieldsKept t (maps ++ states ++ [F.CXL_LINKSTAT_WIDTH, F.CXL_LINKSTAT_RATE]) ∧
          { t with regs := s.regs, fibres := s.fibres } = s) ∧
        (∀ l, dead ≠ 0 → live (List.range 16) dead (fun _ => False) l →
          (8 ≤ l.length → ∃ t, exec (.hostLinkL0 us dead slow) s = .next t ∧ t.get F.CXL_LINKSTAT_STATE = 2 ∧
            t.get F.CXL_LINKSTAT_WIDTH = 1 ∧ t.fibres = { lanes := l.take 8 } ∧ event t) ∧
          (l.length < 8 → ∃ t, exec (.hostLinkL0 us dead slow) s = .next t ∧ wentDown t 0))) ∧
      (s.get F.CXL_LINKSTAT_STATE = 3 → dead = 0 → ∃ t, exec (.hostLinkL0 us dead slow) s = .next t ∧
        t.get F.CXL_LINKSTAT_STATE = 2 ∧ t.get F.BRG_READY_HOST = 1 ∧
        t.get F.CXL_LINKSTAT_RATE = (if slow then 1 else 0) ∧
        (s.get F.CXL_LINKSTAT_MAX_US < 2 ^ 32 →
          t.get F.CXL_LINKSTAT_MAX_US = max (s.get F.CXL_LINKSTAT_MAX_US) us.toNat) ∧
        s.fieldsKept t (F.CXL_LINKSTAT_MAX_US :: F.CXL_LINKSTAT_RATE :: states) ∧ { t with regs := s.regs } = s) ∧
      (∀ l, s.get F.CXL_LINKSTAT_STATE = 3 → dead ≠ 0 → s.fibres.lanes.Pairwise (· < ·) →
        live s.fibres.lanes dead (fun k => s.receiveFibre k ∈ s.fibres.bad) l →
        (8 ≤ l.length → ∃ t, exec (.hostLinkL0 us dead slow) s = .next t ∧ t.get F.CXL_LINKSTAT_STATE = 2 ∧
          t.get F.CXL_LINKSTAT_WIDTH = 1 ∧ t.fibres = { s.fibres with lanes := l.take 8 } ∧ event t) ∧
        (l.length < 8 → ∃ t, exec (.hostLinkL0 us dead slow) s = .next t ∧ wentDown t 0))) ∧
    (up → ∃ t, exec .hostLinkReplay s = .next t ∧ left t ∧ s.fieldsKept t (F.CXL_LINKSTAT_EPISODES :: states) ∧
      { t with regs := s.regs } = s) ∧
    (2 ≤ s.get F.CXL_LINKSTAT_STATE → ∃ t, exec .linkRecovery s = .next t ∧ (up → left t) ∧
      (s.get F.CXL_LINKSTAT_STATE = 3 → t.get F.CXL_LINKSTAT_STATE = 3 ∧
        t.get F.CXL_LINKSTAT_EPISODES = s.get F.CXL_LINKSTAT_EPISODES) ∧
      t.fibres = { s.fibres with recovery := false } ∧
      (∀ b, s.fibres.peer = some b → t.get F.CXL_FIBRE_TX_RET0 = b.rq0 % 32 ∧ t.get F.CXL_FIBRE_TX_RET1 = b.rq1 % 32) ∧
      t.get F.CXL_FIBRE_RX_RET0 = (s.fibres.asks[0]?.getD 31) % 32 ∧
      t.get F.CXL_FIBRE_RX_RET1 = (s.fibres.asks[1]?.getD 31) % 32 ∧
      s.fieldsKept t (maps ++ F.CXL_LINKSTAT_EPISODES :: states) ∧ t.hostReqs = s.hostReqs ∧ t.threads = s.threads) ∧
    (∀ w : BitVec 40,
      let shows (valid : Bool) (fibres : Fibres) : Prop := ∃ t, exec (.beaconWord w) s = .next t ∧ t.fibres = fibres ∧
        t.get F.CXL_FIBRE_BEACON_OK = (if valid = true ∨ s.get F.CXL_FIBRE_RX_RET1 ≠ 31 then 1 else 0) ∧
        s.fieldsKept t [F.CXL_FIBRE_BEACON_OK] ∧ { t with regs := s.regs, fibres := s.fibres } = s
      (∀ b, beaconOf w.toNat = some b →
        (s.fibres.last = some w → shows true { s.fibres with peer := some b }) ∧
        (s.fibres.last ≠ some w →
          exec (.beaconWord w) s = .next { s with fibres := { s.fibres with last := some w } })) ∧
      (beaconOf w.toNat = none → shows false { s.fibres with last := none })) ∧
    (∀ b : Beacon, b.tx0 < 32 → b.tx1 < 32 → b.rq0 < 32 → b.rq1 < 32 → beaconOf b.word.toNat = some b) ∧
    (∀ (f : Fin 18) (lane : Nat), 2 ≤ s.get F.CXL_LINKSTAT_STATE → f.val ∉ s.fibres.bad → lane ∈ s.fibres.lanes →
      s.receiveFibre lane = f.val →
      let bad := s.fibres.bad ++ [f.val]
      (bad.length ≤ 2 → exec (.fibreBad f) s =
        .next { s with fibres := { s.fibres with bad, asks := bad, recovery := true } }) ∧
      (∀ l, 3 ≤ bad.length → s.fibres.lanes.Pairwise (· < ·) →
        live s.fibres.lanes 0 (fun k => s.receiveFibre k ∈ bad) l →
        (8 ≤ l.length → ∃ t, exec (.fibreBad f) s = .next t ∧ t.get F.CXL_LINKSTAT_WIDTH = 1 ∧
          t.fibres = { s.fibres with bad, lanes := l.take 8 } ∧ event t ∧ s.fieldsKept t [F.CXL_LINKSTAT_WIDTH] ∧
          t.hostReqs = s.hostReqs) ∧
        (l.length < 8 → ∃ t, exec (.fibreBad f) s = .next t ∧ wentDown t 0))) ∧
    (s.get F.CXL_LINKSTAT_STATE ≠ 0 → ∃ t, exec .linkDown s = .next t ∧ wentDown t 0) ∧
    (s.get F.CXL_LINKSTAT_STATE = 3 → ∃ t, exec .hostLinkEpisodeLimit s = .next t ∧ wentDown t 0) ∧
    (2 ≤ s.get F.CXL_LINKSTAT_STATE → ∃ t, exec .hotReset s = .next t ∧ wentDown t 1 ∧
      ∀ k : Fin 16,
        (∀ f, f ∈ [F.CXL_LDk_CFG_BOUND, F.CXL_LDk_CFG_CACHE_EN, F.CXL_LDk_CFG_MEM_EN, F.CXL_LDk_RING_LOG2SIZE,
            F.CXL_LDk_RING_BASE, F.CXL_LDk_RINGPTR_HEAD, F.CXL_LDk_RINGPTR_TAIL, F.CXL_LDk_EVQ_LOG2SIZE,
            F.CXL_LDk_EVQ_BASE, F.CXL_LDk_APERTURE_FIELD, F.CXL_LDk_HMSTAT_HMERR] → t.get f k = f.rst k 0) ∧
        (∀ f, f ∈ [F.CXL_LDk_PART_FIELDS, F.CXL_LDk_FMWIN_FMBASE, F.CXL_LDk_FMWIN_FMSIZE, F.CXL_LDk_MSIX_BASE,
            F.CXL_LDk_MSIX_COUNT, F.CXL_LDk_CFG_ENABLED] → t.get f k = s.get f k))

/-- 07 R260 to R267, Tables 7.5, 7.8 and 7.17. The lowest free slot is the model's choice (log entry 17). -/
def Obligations.RingEntries : Prop :=
  ∀ (s : State) (ld : Fin 16),
    let k := ld.val
    let waits (j : Nat) := s.get F.CXL_LDk_RING_EN j = 1 ∧
      s.get F.CXL_LDk_RINGPTR_HEAD j ≠ s.get F.CXL_LDk_RINGPTR_TAIL j ∧ findKey s.waitingOrders j = none
    let kept (t : State) : Prop := t.threads = s.threads ∧ t.cores = s.cores ∧ t.sram = s.sram
    let moved (t : State) : Prop := t.get F.CXL_LDk_RINGPTR_HEAD k =
      (s.get F.CXL_LDk_RINGPTR_HEAD k + 1) % 2 ^ s.get F.CXL_LDk_RING_LOG2SIZE k % 2 ^ 16
    let rejects (i : Instr) (r : Nat) : Prop := ∃ t, exec i s = .next t ∧ moved t ∧ kept t ∧ t.slots = s.slots ∧
      t.get F.MRK_REJECT_REASON = r % 2 ^ 8 ∧ t.get F.MRK_REJECT_LD = k ∧
      t.get F.MRK_REJECT_REJECTS = (s.get F.MRK_REJECT_REJECTS + 1) % 2 ^ 32
    let accepts (i : Instr) (d : Descriptor) : Prop := ∀ n, s.freeSlot = some n → ∃ t, exec i s = .next t ∧ moved t ∧
      kept t ∧ (let gen := match findKey s.slots n with | some o => (o.gen + 1) % 1024 | none => 0
        findKey t.slots n = some { st := 1, gen, ld := k, desc := d } ∧
          t.get F.MRK_STAT_LAST_ID = n + gen * 64) ∧
      (∀ m, m ≠ n → findKey t.slots m = findKey s.slots m) ∧
      t.get F.MRK_STAT_ACCEPTED = (s.get F.MRK_STAT_ACCEPTED + 1) % 2 ^ 32
    (∀ e : RingEntry, s.get F.CLK_BLKEN_MRK = 1 → s.get F.MRK_CTL_ENABLE = 1 → waits k →
      (∃ n, n < 16 ∧ (s.markerLast + 1 + n) % 16 = k ∧ ∀ m, m < n → ¬waits ((s.markerLast + 1 + m) % 16)) →
      let i : Instr := .ringEntryTake e
      let defined := e.reservedZero = true ∧ (e.kind = 1 ∨ ((e.kind = 2 ∨ e.kind = 3) ∧ e.flags = 0))
      (¬defined → rejects i 1) ∧
      (defined → e.kind = 1 →
        (∀ r od, s.cutReason k e = some (r, od) → rejects i r) ∧
        (e.arg % 128 ≠ 0 → rejects i 1) ∧
        (e.arg % 128 = 0 → e.cut = none → e.flags < 2 → rejects i 3) ∧
        (∀ d, e.order = some d →
          (e.arg % 128 = 0 → d.format ≠ 1 → rejects i 1) ∧
          (s.cutReason k e = none →
            (s.hasRoom k d = true → accepts i d) ∧
            (s.hasRoom k d = false → e.flags % 2 = 1 → rejects i 10) ∧
            (s.hasRoom k d = false → e.flags % 2 = 0 → ∃ t, exec i s = .next t ∧ kept t ∧ t.slots = s.slots ∧
              findKey t.waitingOrders k = some { st := 9, gen := 0, ld := k, desc := d } ∧
              t.get F.CXL_LDk_RINGPTR_HEAD k = s.get F.CXL_LDk_RINGPTR_HEAD k)))) ∧
      (defined → e.kind ≠ 1 → findKey s.slots (e.arg % 64) = none → ∃ t, exec i s = .next t ∧ moved t ∧ kept t ∧
        t.slots = s.slots) ∧
      (defined → e.kind ≠ 1 → ∀ o, findKey s.slots (e.arg % 64) = some o →
        let named := o.inService = true ∧ o.gen = e.arg % 2 ^ 16 / 64 ∧ o.ld = k ∧ o.ending = none
        (named → e.kind = 2 → ∃ t, exec i s = .next t ∧ moved t ∧ kept t ∧
          findKey t.slots (e.arg % 64) = some { o with ending := some (8, false) }) ∧
        (named → e.kind = 3 → o.st = 5 → ∃ t, exec i s = .next t ∧ moved t ∧ kept t ∧
          findKey t.slots (e.arg % 64) = some { o with ending := some (6, false) }) ∧
        (¬named ∨ (e.kind = 3 ∧ o.st ≠ 5) → ∃ t, exec i s = .next t ∧ moved t ∧ kept t ∧ t.slots = s.slots))) ∧
    (∀ o, findKey s.waitingOrders k = some o →
      (s.hasRoom k o.desc = true → accepts (.cutWaitEnd ld) o.desc) ∧
      (s.get F.CLK_BLKEN_CXL = 1 → rejects (.wdraw ld) 10))

/-- 07 R265, R267, R269 to R282, Table 7.14; 12 Table 12.5. -/
def Obligations.CutOrders : Prop :=
  (∀ (s : State) (slot : Fin 64) (o : CutOrder), findKey s.slots slot.val = some o → o.ld < 16 →
    (∀ n, n ∈ o.cores → n < 2 ^ 20) → (∀ e, e ∈ s.rings → e.1 < 4 ∧ ∀ f, e.2.cueField = some f → f < 64) →
    let becomes (t : State) (p : CutOrder) : Prop := findKey t.slots slot.val = some p ∧
      ∀ m, m ≠ slot.val → findKey t.slots m = findKey s.slots m
    let laidOut (i : Instr) (q : Nat) (p : Placement) (us : Fin 501) : Prop := ∃ t, exec i s = .next t ∧
      becomes t { o with st := 3, pgen := q, cores := p.cores, segments := p.segments,
                         thresh := s.get F.MRK_SPLIT_THRESH_THRESH
                         objects := o.desc.layout (s.get F.MRK_SPLIT_THRESH_THRESH) } ∧
      t.get F.MRK_PLACE_US_LAST = us.val ∧ us.val ≤ t.get F.MRK_PLACE_US_MAX ∧ t.threads = s.threads ∧ t.sram = s.sram
    (∀ (us : Fin 501) (p : Placement), s.placeOrder (some slot.val) o.ld o.desc = some p →
      s.get F.MRK_PLACE_US_MAX < 2 ^ 32 →
      (o.st = 1 → o.ending = none → s.get F.MRK_CTL_PAUSE ≠ 1 → s.get F.CLK_BLKEN_MRK = 1 →
        laidOut (.cutPlacement slot us) o.pgen p us) ∧
      (o.st = 3 → (∃ n, n ∈ o.allCores ∧ s.backed (BitVec.ofNat 20 n) = false) →
        laidOut (.cutReplace slot us) (o.pgen + 1) p us)) ∧
    (o.st = 3 → o.ending = none → o.desc.imageLen ≤ 2 ^ 13 → s.mayStart o = true →
      (∀ n, n ∈ o.allCores → s.backed (BitVec.ofNat 20 n) = true ∨ ∃ e, e ∈ o.desc.pins ∧ e.2 = n) →
      ∃ t, exec (.cutLoadComplete slot) s = .next t ∧
        becomes t { o with st := 4, startTr := s.now,
                           lost := (o.threads.filter fun e => !s.backed e.1).length } ∧
        (∀ c m r, (c, m, r) ∈ o.threads → s.backed c = true →
          let th := t.thread c m
          th.st = .running ∧ th.pc = o.desc.entry ∧ th.wait = none ∧ th.a = [] ∧ th.t = [] ∧ th.p = 1 ∧
            th.readS 1 = BitVec.ofNat 64 r ∧ th.readS 2 = BitVec.ofNat 64 o.desc.threads ∧ th.readS 3 = o.desc.arg ∧
            th.readS 4 = BitVec.ofNat 64 (0x00FF001000000000 + slot.val * 2 ^ 22) ∧
            th.readS 5 = BitVec.ofNat 64 (o.coreIndex c) ∧
            ∀ n : Fin 32, n = 0 ∨ 6 ≤ n.val → th.readS n = 0) ∧
        (∀ n, n ∈ o.allCores → s.clocked (BitVec.ofNat 20 n) = true →
          let c : Lcn := BitVec.ofNat 20 n
          (s.quiet c = true → t.get F.CORE_SRSEED_SEED c.toNat = o.desc.seed.toNat) ∧
          (s.quiet c = false → t.get F.CORE_SRCMD_REJ c.toNat = 1) ∧
          ((∀ m, (s.thread c m).st ≠ .running ∧ (s.thread c m).st ≠ .stalled ∧ (s.thread c m).st ≠ .waiting) →
            ∀ i b, i < o.desc.imageLen → o.desc.image[i]? = some b →
              mget 0xFF t.istore (c.toNat * 2 ^ 13 + i) = b))) ∧
    (o.st = 4 → o.ending = none → s.orderQuiet o = true →
      (s.trapped o = 0 → ∃ t, exec (.cutOrderSettle slot) s = .next t ∧ t.threads = s.threads ∧ t.sram = s.sram ∧
        becomes t { o with st := 6, endTr := s.now, cores := [], segments := [] }) ∧
      (s.trapped o ≠ 0 → ∃ t, exec (.cutOrderSettle slot) s = .next t ∧ t.threads = s.threads ∧
        t.sram = s.sram ∧ becomes t { o with st := 5 })) ∧
    (∀ final, o.inService = true → s.partialReset = none →
      (o.ending = some (final, false) → o.cores ≠ [] → ∃ t, exec (.cutOrderSettle slot) s = .next t ∧
        becomes t { o with ending := some (final, true) } ∧
        ((∀ n, n ∈ o.allCores → s.undoneTiles (BitVec.ofNat 20 n) = []) → t.sram = s.sram) ∧
        ∀ n, n ∈ o.allCores → (t.core (BitVec.ofNat 20 n)).absorbing = true ∧
          ∀ m, t.thread (BitVec.ofNat 20 n) m = Thread.reset) ∧
      (o.ending = some (final, true) → (∀ n, n ∈ o.allCores → (s.core (BitVec.ofNat 20 n)).absorbing = false) →
        ∃ t, exec (.cutOrderSettle slot) s = .next t ∧ t.sram = s.sram ∧
          becomes t { o with st := final, endTr := s.now, cores := [], segments := [], ending := none }))) ∧
  (∀ (s : State) (f : Fin 64), s.get F.CLK_BLKEN_MRK = 1 →
    (s.get F.MRK_MIG_STAT_BUSY = 1 ∨ s.get F.MRK_CTL_MIG_EN ≠ 1 → exec (.mrkMigrate f) s = .next s) ∧
    (s.get F.MRK_MIG_STAT_BUSY ≠ 1 → s.get F.MRK_CTL_MIG_EN = 1 → ∃ t, exec (.mrkMigrate f) s = .next t ∧
      t.get F.MRK_MIG_STAT_BUSY = 1 ∧ t.get F.MRK_MIG_STAT_FIELD = f ∧ t.slots = s.slots ∧
      (∃ l, t.migration = some { field := f, todo := l } ∧
        (∀ n, n ∈ l ↔ ∃ o, (n, o) ∈ s.slots ∧ 3 ≤ o.st ∧ o.st ≤ 5 ∧ o.desc.migratable = true ∧ o.moves f ≠ []) ∧
        ∀ n o, l.head? = some n → findKey s.slots n = some o → ∀ e, e ∈ o.threads →
          (t.thread e.1 e.2.1).st ≠ .running ∧ (t.thread e.1 e.2.1).st ≠ .stalled ∧
            (t.thread e.1 e.2.1).st ≠ .waiting)) ∧
    (∃ t, exec .mrkSwRst s = .next t ∧ t.waitingOrders = [] ∧ t.migration = none ∧ t.rings = [] ∧
      t.get F.MRK_CTL_ENABLE = 0 ∧ t.get F.MRK_MIG_STAT_BUSY = 0 ∧
      ((∀ c, s.undoneTiles c = []) → t.sram = s.sram) ∧
      (s.slots.Pairwise (fun a b => a.1 ≠ b.1) → s.partialReset = none → ∀ n o, findKey s.slots n = some o →
        o.inService = true → o.cores ≠ [] → (o.ending = none ∨ ∃ final, o.ending = some (final, false)) →
          findKey t.slots n = some { o with ending := some (8, true) }))) ∧
  (∀ (s : State) (us : BitVec 32) (m : Migration), s.migration = some m → m.parks = false →
    let ended (t : State) : Prop := t.migration = none ∧ t.get F.MRK_MIG_STAT_BUSY = 0 ∧
      t.get F.MRK_MIG_STAT_DONE = 1 ∧ t.get F.MRK_MIG_STAT_LAST_US = us.toNat
    (m.todo = [] → ∃ t, exec (.migrationQuiesced us) s = .next t ∧ ended t ∧ t.slots = s.slots) ∧
    (∀ n o, m.todo = [n] → findKey s.slots n = some o →
      (o.inService = true → s.mayMove n o = true →
        (∀ p, s.migrationPlace n o m.field = some p → ∃ t, exec (.migrationQuiesced us) s = .next t ∧ ended t ∧
          findKey t.slots n = some { o with cores := p.cores, segments := p.segments, pgen := o.pgen + 1 } ∧
          (Memory.wf 0 s.sram = true → risingKeys s.threads = true → o.dup = false → o.cores.Nodup → p.cores.Nodup →
            (∀ x, x ∈ o.cores ∨ x ∈ p.cores → x < 2 ^ 20) →
            (∀ k x : Nat, p.cores[k]? = some x → x ∈ o.cores → o.cores[k]? = some x) →
            ∀ (i : Nat) (a b : Lcn), o.cores[i]? = some a.toNat → p.cores[i]? = some b.toNat →
              (∀ j, j < 2 ^ 16 → t.readSram b j 1 = s.readSram a j 1) ∧
              ∀ m, (t.thread b m).pc = (s.thread a m).pc ∧ ∀ r, (t.thread b m).readS r = (s.thread a m).readS r)) ∧
        (s.migrationPlace n o m.field = none → ∃ t, exec (.migrationQuiesced us) s = .next t ∧ ended t ∧
          t.get F.MRK_MIG_STAT_FAIL = 1 ∧ t.slots = s.slots)) ∧
      (s.ringIdle n o = false → ∃ t, exec (.ringMigrationTimeout us) s = .next t ∧ ended t ∧
        t.get F.MRK_MIG_STAT_FAIL = 1 ∧ t.slots = s.slots)))

/-- 10 R386 to R398, Tables 10.2 to 10.6. -/
def Obligations.Patterns : Prop :=
  ∀ (s : State) (c : Lcn), s.backed c = true → s.clocked c = true →
    let u := c.toNat
    let signalled (t : State) (k : Nat) : Prop :=
      t.get F.TACK_STATEn_VALUE u k = (s.get F.TACK_STATEn_VALUE u k + 1) % 2 ^ 32 ∧ t.get F.TACK_STATEn_LKIND u k = 1
    (∀ v : Word,
      let src := v.toNat % 2 ^ 8
      let slot := v.toNat / 2 ^ 8 % 2 ^ 2
      let tack := v.toNat / 2 ^ 16 % 2 ^ 5
      ∃ t, exec (.patternLoad c v) s = .next t ∧ t.get F.CORE_PAT_LOAD_SRC u = src ∧
        t.get F.CORE_PAT_LOAD_SLOT u = slot ∧ t.get F.CORE_PAT_LOAD_TACK u = tack ∧ t.patStore = s.patStore ∧
        t.sram = s.sram ∧
        (v.msb = false → t.core c = s.core c ∧ t.threads = s.threads) ∧
        (v.msb = true → s.usesPatterns c = false → s.loadError c src slot = some 1) ∧
        (∀ e, v.msb = true → s.loadError c src slot = some e → t.core c = s.core c ∧
          t.get F.CORE_PAT_STAT_LERR u = e % 2 ^ F.CORE_PAT_STAT_LERR.width ∧ t.get F.CORE_PAT_STAT_LDONE u = 1 ∧
          signalled t tack) ∧
        (v.msb = true → s.loadError c src slot = none → t.threads = s.threads ∧
          (t.core c).loads = (s.core c).loads ++ [PatLoad.mk slot src tack] ∧
          (t.get F.CORE_PAT_STAT_VALID u).testBit slot = false)) ∧
    (∀ (l : PatLoad) (rest : List PatLoad), (s.core c).loads = l :: rest → l.slot < 4 → l.src + 16 ≤ 256 → l.tack < 32 →
      (∀ k, k < 16 → s.tileGood c (l.src + k) = true) →
      let base := u * 2 ^ 14 + l.slot * 2 ^ 12
      let byte (i : Nat) : Byte := BitVec.ofNat 8 (s.readSram c (l.src * 256 + i) 1)
      let valid (e : Nat) := (s.readSram c (l.src * 256 + 0xF11 + 16 * e) 1).testBit 7
      let index (e : Nat) := s.readSram c (l.src * 256 + 0xF18 + 16 * e) 4 % 2 ^ 20
      let cores := match s.slotOf c with
        | some (_, o) => o.cores
        | none => []
      ∃ t, exec (.patternLoadDone c) s = .next t ∧ (t.core c).loads = rest ∧ t.sram = s.sram ∧
        (t.get F.CORE_PAT_STAT_VALID u).testBit l.slot = true ∧ t.get F.CORE_PAT_STAT_LDONE u = 1 ∧
        t.get F.CORE_PAT_STAT_LERR u = 0 ∧ signalled t l.tack ∧
        (∀ i, i < 2 ^ 12 → (∀ e, e < 8 → valid e = true → ¬(0xF18 + 16 * e ≤ i ∧ i < 0xF1C + 16 * e)) →
          mget 0xFF t.patStore (base + i) = byte i) ∧
        (∀ e, e < 8 → valid e = true → readLE t.patStore 0xFF (base + 0xF18 + 16 * e) 4 =
          ((cores[index e]?).getD 0) % 2 ^ 32)) ∧
    (∀ v : Word,
      let slot := v.toNat % 4
      let force := v.toNat.testBit 2
      let may := s.usesPatterns c = true ∧ (s.get F.CORE_PAT_STAT_VALID u).testBit slot = true ∧
        (∀ l, l ∈ (s.core c).loads → l.slot ≠ slot) ∧ (s.core c).switch = none
      ∃ t, exec (.switchRequest c v) s = .next t ∧ t.threads = s.threads ∧ t.istore = s.istore ∧
        t.get F.CORE_PAT_CTL_SLOT u = slot ∧
        (v.msb = false → t.core c = s.core c) ∧
        (v.msb = true → may → (t.core c).switch = some { slot, force, cued := false, running := false } ∧
          t.get F.CORE_PAT_STAT_REJ u = s.get F.CORE_PAT_STAT_REJ u) ∧
        (v.msb = true → ¬may → t.core c = s.core c ∧ t.get F.CORE_PAT_STAT_REJ u = 1)) ∧
    (∀ (w : PatSwitch) (late : Bool), (s.core c).switch = some w → w.running = false → w.slot < 4 →
      let base := u * 2 ^ 14 + w.slot * 2 ^ 12
      (s.drained c w = false → exec (.switchRun c late) s = .next s) ∧
      (s.drained c w = true → ∃ t, exec (.switchRun c late) s = .next t ∧ t.sram = s.sram ∧ t.threads = s.threads ∧
        t.regs = s.regs ∧ t.core c = { s.core c with switch := some { w with running := true } } ∧
        (∀ i, i < 2 ^ 12 → mget 0xFF t.istore (u * 2 ^ 13 + 2 ^ 12 + i) = mget 0xFF s.patStore (base + i)) ∧
        (∀ a, ¬(u * 2 ^ 13 + 2 ^ 12 ≤ a ∧ a < u * 2 ^ 13 + 2 ^ 13) →
          mget 0xFF t.istore a = mget 0xFF s.istore a))) ∧
    (∀ (w : PatSwitch) (late : Bool), (s.core c).switch = some w → w.running = true → w.slot < 4 →
      let header := readLE s.patStore 0xFF (u * 2 ^ 14 + w.slot * 2 ^ 12 + 0xF00) 16
      ∃ t, exec (.switchRun c late) s = .next t ∧ (t.core c).switch = none ∧ t.sram = s.sram ∧ t.istore = s.istore ∧
        t.get F.CORE_PAT_STAT_ACTIVE u = w.slot ∧ t.get F.CORE_PAT_STAT_ACT u = 1 ∧
        t.get F.CORE_PAT_STAT_SWITCHES u = (s.get F.CORE_PAT_STAT_SWITCHES u + 1) % 2 ^ 32 ∧
        (w.force = true → t.get F.CORE_PAT_STAT_FORCED u = 1) ∧
        (w.cued = true → late = true → t.get F.CORE_PAT_STAT_LATE u = 1) ∧
        (∀ n : Fin 4, header.testBit (16 + n.val) = true →
          (t.thread c n).st = .running ∧ (t.thread c n).pc = header / 2 ^ (32 + 16 * n.val) % 2 ^ 16 ∧
            (t.thread c n).s = (s.thread c n).s) ∧
        (∀ n : Fin 4, header.testBit (16 + n.val) = false → (t.thread c n).pc = (s.thread c n).pc)) ∧
    (∀ unit : Fin 2,
      let w : SteerUnit := mget {} (s.core c).steer unit.val
      let ctl := s.get F.CORE_STEERu_A_CTL u unit
      let data := s.get F.CORE_STEERu_A_DATA u unit
      let entry (e n : Nat) := 256 * s.get F.CORE_QENDe_A_RING u e +
        (if s.get F.CORE_QENDe_A_ESIZE u e = 1 then 256 else 8) * (n % max 1 (s.get F.CORE_QENDe_A_DEPTH u e))
      let good (o : Nat) := s.tileGood c (o / 256) = true
      let token := (s.readSram c (entry ctl w.n) 8).testBit (s.get F.CORE_STEERu_A_TOKBIT u unit)
      let drop := (if token then s.get F.CORE_STEERu_A_DROP1 u unit else s.get F.CORE_STEERu_A_DROP0 u unit) = 1
      let out := if token then s.get F.CORE_STEERu_A_OUT1 u unit else s.get F.CORE_STEERu_A_OUT0 u unit
      let pushes := if token then w.out1 else w.out0
      let credit := BitVec.ofNat 32 (s.get F.TACK_STATEn_VALUE u (s.get F.CORE_QENDe_A_CTACK u out % 32))
      let has := 0 ≤ (credit - BitVec.ofNat 32 (pushes + 1)).toInt
      let joined (t : State) (w' : SteerUnit) : Prop := mget {} (t.core c).steer unit.val = w' ∧
        t.get F.CORE_STEERu_A_PAIRS u unit = (s.get F.CORE_STEERu_A_PAIRS u unit + 1) % 2 ^ 32 ∧
        t.get F.CORE_STEERu_A_BUSY u unit = 0 ∧ t.threads = s.threads
      s.get F.CORE_STEERu_A_VALID u unit = 1 → w.halted = false → s.darnHeld c = false → s.draining c = false →
      (s.endCount c ctl = 0 ∨ s.endCount c data = 0 → exec (.steerPair c unit) s = .next s) ∧
      (s.endCount c ctl ≠ 0 → s.endCount c data ≠ 0 → ¬good (entry ctl w.n) →
        ∃ t, exec (.steerPair c unit) s = .next t ∧ mget {} (t.core c).steer unit.val = { w with halted := true } ∧
          (t.get F.INT_CSUMSTAT_STEER_HALT u).testBit unit.val = true ∧ t.sram = s.sram ∧ t.threads = s.threads) ∧
      (s.endCount c ctl ≠ 0 → s.endCount c data ≠ 0 → good (entry ctl w.n) →
      (drop → ∃ t, exec (.steerPair c unit) s = .next t ∧ joined t { w with n := w.n + 1 } ∧ t.sram = s.sram) ∧
      (¬drop → ¬has → exec (.steerPair c unit) s = .next (s.put F.CORE_STEERu_A_BUSY 1 u unit)) ∧
      (¬drop → has → s.get F.CORE_QENDe_A_ESIZE u data ≠ 1 → entry data w.n % 256 + 8 ≤ 256 →
        entry out pushes % 256 + 8 ≤ 256 → good (entry data w.n) → good (entry out pushes) →
        ∃ t, exec (.steerPair c unit) s = .next t ∧
          joined t (if token then { w with n := w.n + 1, out1 := pushes + 1 }
            else { w with n := w.n + 1, out0 := pushes + 1 }) ∧
          t.readSram c (entry out pushes) 8 = s.readSram c (entry data w.n) 8 ∧
          ∀ a, ¬(u * 2 ^ 16 + entry out pushes ≤ a ∧ a < u * 2 ^ 16 + entry out pushes + 8) →
            mget 0 t.sram a = mget 0 s.sram a) ∧
      (¬drop → has → s.get F.CORE_QENDe_A_ESIZE u data = 1 → s.get F.CORE_QENDe_A_ESIZE u out = 1 →
        entry out pushes < 2 ^ 16 → good (entry data w.n) →
        let tile := entry out pushes / 256
        ∃ t, exec (.steerPair c unit) s = .next t ∧
          joined t (if token then { w with n := w.n + 1, out1 := pushes + 1 }
            else { w with n := w.n + 1, out0 := pushes + 1 }) ∧
          t.readTile c tile = s.readTile c (entry data w.n / 256) ∧ t.damaged = s.damaged.erase (c.toNat * 256 + tile) ∧
          ∀ a, ¬(u * 2 ^ 16 + tile * 256 ≤ a ∧ a < u * 2 ^ 16 + tile * 256 + 256) →
            mget 0 t.sram a = mget 0 s.sram a)))

/-- 09 R371 to R376, Tables 9.5 and 9.10. -/
def Obligations.SpoolEngine : Prop :=
  (∀ (s : State) (c : Lcn) (n : Fin 4) (v : Word), s.backed c = true → s.clocked c = true →
    let u := c.toNat
    let tiles := v.toNat % 2 ^ 17
    let tack := v.toNat / 2 ^ 32 % 2 ^ 5
    let posted := (s.spool.filter fun r => r.core == c && !r.isGather).length
    (v.msb = true → 2 ≤ posted → exec (.spoolPost c n v) s = .next (s.put F.SPL_STAT_REJ 1 u)) ∧
    (v.msb = false ∨ posted < 2 → ∃ t, exec (.spoolPost c n v) s = .next t ∧ t.get F.SPL_CMD_TILES u = tiles ∧
      t.get F.SPL_CMD_TACK u = tack ∧ t.threads = s.threads ∧ t.sram = s.sram ∧
      (v.msb = false → t.spool = s.spool) ∧
      (v.msb = true → posted < 2 → t.get F.SPL_STAT_POSTED u = posted + 1 ∧
        t.spool = s.spool ++ [SpoolReq.mk s.nextSpool (panelOf c) c n (s.ldOf c) (s.get F.SPL_SRC_ADDR u)
          (s.get F.SPL_DST_ADDR u) tiles tack [] false false 0 [] []]))) ∧
  (∀ (s : State) (r : SpoolReq), s.spool.find? (fun q => q.id == r.id) = some r →
    (s.spool.map fun q => q.id).Nodup → s.numbered →
    let u := r.core.toNat
    let signalled (t : State) : Prop := s.isHole (fieldOf r.core) = false →
      s.isHole (fieldOf (s.routeTarget r.core)) = false → ∃ p ∈ t.fab.pkts, p.typ = .tsig ∧ p.dst = r.core ∧
        p.rt = s.routeTarget r.core ∧ p.src = r.core ∧ p.sth = r.thread ∧ p.ld = r.ld ∧ p.arg = r.tack % 32 + 2 ^ 32 ∧
        p.sender = if r.isGather then .engine else .spoolDone
    let gone (t : State) : Prop := t.spool = s.spool.filter (fun q => q.id != r.id) ∧ t.sram = s.sram ∧
      t.threads = s.threads ∧ signalled t
    let allIssued (panel : Nat) : Prop := ∀ q, q ∈ s.spool → q.panel = panel → q.taken = true → q.count ≤ q.issued
    let code := if r.tiles = 0 ∨ 65536 < r.tiles then 1 else if r.src % 256 ≠ 0 ∨ r.dst % 256 ≠ 0 then 2
      else if s.memoryRoute r.core r.src = none ∨ s.memoryRoute r.core r.dst = none then 3
      else if regionEnd r.src < r.src + 256 * r.tiles ∨ regionEnd r.dst < r.dst + 256 * r.tiles then 4 else 0
    (∀ panel : Fin 512, s.spoolNext panel = some r → r.panel = panel.val → s.darnHeld r.core = false →
      s.draining r.core = false → allIssued panel.val →
      r.issued = 0 → r.live = [] →
      (r.isGather = false → code ≠ 0 → ∃ t, exec (.spoolTake panel) s = .next t ∧ gone t ∧
        t.get F.SPL_STAT_ERR u = 1 ∧ t.get F.SPL_STAT_ERRCODE u = code) ∧
      (r.isGather = true ∨ code = 0 →
        (∀ k, k < r.count → s.memoryRoute r.core (r.move k).1 ≠ none) → ∃ t q, exec (.spoolTake panel) s = .next t ∧ t.sram = s.sram ∧
        t.spool.find? (fun p => p.id == r.id) = some q ∧ q.taken = true ∧
        q.issued = min r.count (256 - s.panelFlight panel) ∧ q.live = (List.range q.issued).map fun k => (k, false))) ∧
    (r.taken = true → r.issued = r.count → r.live = [] → ∃ t, exec (.spoolComplete r.id) s = .next t ∧ gone t) ∧
    (∀ k w, (k, w) ∈ r.live → allIssued r.panel → s.retryIndication = false →
      ∃ t, exec (.spoolOpTimeout r.id k) s = .next t ∧ t.threads = s.threads ∧
        (findKey r.saved k = none → t.sram = s.sram) ∧
        (∀ (d : Lcn) (tile : Fin 256) old, Memory.wf 0 s.sram = true →
          findKey r.saved k = some (d.toNat * 65536 + tile.val * 256, old) → t.readTile d tile.val = old) ∧
        (∀ p ∈ t.fab.pkts, ∀ w', p.sender ≠ .spool r.id k w') ∧
        t.spool.find? (fun p => p.id == r.id) =
          some { r with live := r.live.filter (fun e => e.1 != k), saved := delKey r.saved k } ∧
        (r.isGather = false → t.get F.SPL_STAT_FAIL u = 1) ∧
        (r.isGather = true → t.get F.SPX_SEL_STAT_GFAIL u = 1)))

/-- 12 R431 to R457, Tables 12.3, 12.4 and 12.13; 15 R552 to R554. -/
def Obligations.GradientRing : Prop :=
  (∀ (s : State) (j : Fin 4) (id : BitVec 16) (nrep : BitVec 6) (mseg : BitVec 12), s.get F.CLK_BLKEN_MRK = 1 →
    let slot := id.toNat % 64
    let i : Instr := .ringSetup j id nrep mseg
    let fails (e : Nat) : Prop := exec i s = .next (s.put F.MRK_RINGj_STAT_SETUP_ERR e j)
    ((∀ o, findKey s.slots slot = some o → o.gen ≠ id.toNat / 64 ∨ o.st ≠ 1) → fails 1) ∧
    ∀ o, findKey s.slots slot = some o → o.gen = id.toNat / 64 → o.st = 1 →
      let q := (o.desc.threads + o.desc.tpc - 1) / max 1 o.desc.tpc
      let shape := q = nrep.toNat * 128 * mseg.toNat ∧ 2 ≤ nrep.toNat ∧ 1 ≤ mseg.toNat ∧ mseg.toNat ≤ 3840
      let free := s.get F.MRK_RINGj_STAT_STATE j = 0
      let period := s.get F.MRK_RINGj_CFG_PERIOD j
      (¬shape → fails 2) ∧ (shape → ¬free → fails 3) ∧ (shape → free → o.desc.pins ≠ [] → fails 4) ∧
      (shape → free → o.desc.pins = [] → period = 0 → fails 5) ∧
      (shape → free → o.desc.pins = [] → period ≠ 0 → ∃ t, exec i s = .next t ∧
        findKey t.rings j.val = some (Machine.Ring.mk slot nrep.toNat mseg.toNat [] false false false [] none false false false []) ∧
        t.get F.MRK_RINGj_STAT_STATE j = 1 ∧ t.get F.MRK_RINGj_STAT_SETUP_ERR j = 0 ∧
        t.get F.MRK_RINGj_STAT_ATTEMPT j = 0 ∧ t.get F.MRK_RINGj_STAT_RUN j = 0 ∧
        t.get F.MRK_RINGj_DEADLINE_DL j = (s.get F.TRD_COUNT_COUNT + period) % 2 ^ 48)) ∧
  (∀ (s : State) (c : Lcn) (attempt : BitVec 32), s.backed c = true → s.clocked c = true →
    let u := c.toNat
    let l := s.ringLayout c
    let idle := s.get F.CORE_RING_STAT_STATE u = 0
    let current := attempt.toNat = s.get F.CORE_RING_STAT_ATTEMPT u
    let shared := s.get F.CORE_RING_STAT_VERDICT u = 1 ∨ s.get F.CORE_RING_STAT_VERDICT u = 2
    let peer (r : Ring) (i : Nat) : Lcn := s.ringPeer c r ((l.rep + i) % max 1 l.nrep)
    let signals (t : State) (d : Lcn) (tack : Nat) : Prop := ∃ q, q ∈ t.fab.pkts ∧ q.typ = .tsig ∧ q.src = c ∧ q.dst = d ∧
      q.f = true ∧ q.sender = .ringUnit ∧ q.arg = tack % 32 + 2 ^ 32
    let stored (t : State) (d : Lcn) (tile : Nat) (p : Nat → Prop) : Prop := ∃ q, q ∈ t.fab.pkts ∧ q.typ = .wr ∧
      q.src = c ∧ q.dst = d ∧ q.sender = .ringUnit ∧ q.arg = d.toNat * 2 ^ 16 + tile * 2 ^ 8 ∧ p q.body
    (¬idle ∨ ¬current → exec (.reduce c attempt) s = .next (s.put F.CORE_RING_STAT_REJ 1 u)) ∧
    (¬idle ∨ ¬shared → exec (.share c attempt) s = .next (s.put F.CORE_RING_STAT_REJ 1 u)) ∧
    (idle → current → ∀ e, s.layoutError c = some e → ∃ t, exec (.reduce c attempt) s = .next t ∧
      t.get F.CORE_RING_STAT_ERRCODE u = e % 2 ^ 4 ∧ t.get F.CORE_RING_STAT_STATE u = 0 ∧
      (t.core c).ringBarred = some (s.get F.CORE_RING_STAT_ATTEMPT u) ∧
      { t with regs := s.regs, cores := s.cores } = s) ∧
    (∀ j r, s.ringOf c = some (j, r) → (∀ k, k < 256 → s.tileGood c k = true) → s.get F.FAB_HOLEMAP_HOLES = 0 →
      s.numbered →
      (idle → current → s.layoutError c = none → l.nrep < 64 →
        let spare := if s.get F.CORE_RING_STAT_CUR u = 1 then l.err0 else l.err1
        ∃ t, exec (.reduce c attempt) s = .next t ∧ t.get F.CORE_RING_STAT_STATE u = 1 ∧
          (t.core c).ringOps.length = (s.core c).ringOps.length + (l.nrep - 1) * (l.s / 16 + 1) ∧
          (∀ i, 1 ≤ i → i < l.nrep →
            let shard := (l.rep + i) % l.nrep
            let d := (l.rep + l.nrep - shard) % l.nrep
            signals t (peer r i) (s.get F.CORE_RING_TACKS_INBOX_TACK (peer r i).toNat) ∧
            ∀ b, b < l.s / 16 → stored t (peer r i) ((s.ringLayout (peer r i)).inboxTile d b % 256) fun body =>
              body % 2 ^ 64 = attempt.toNat + l.rep % 64 * 2 ^ 32 + shard * 2 ^ 40 + b * 2 ^ 48) ∧
          ∀ a, ¬(u * 2 ^ 16 + spare * 2 ^ 8 ≤ a ∧ a < u * 2 ^ 16 + (spare + l.errTiles) * 2 ^ 8) →
            mget 0 t.sram a = mget 0 s.sram a) ∧
      (idle → shared → l.wts + (l.rep + 1) * l.sw ≤ 256 → ∃ t, exec (.share c attempt) s = .next t ∧
        t.get F.CORE_RING_STAT_STATE u = 3 ∧ t.sram = s.sram ∧
        (t.core c).ringOps.length = (s.core c).ringOps.length + (l.nrep - 1) * (l.sw + 1) ∧
        ∀ i, 1 ≤ i → i < l.nrep → signals t (peer r i) (s.get F.CORE_RING_TACKS_SHARE_TACK (peer r i).toNat) ∧
          ∀ k, k < l.sw → stored t (peer r i) (l.wts + l.rep * l.sw + k) fun body =>
            body = (s.readTile c (l.wts + l.rep * l.sw + k)).toNat)) ∧
    (idle → ∀ v : Word, ∃ t, exec (.ringLayoutWrite c false v) s = .next t ∧
      t.get F.CORE_RING_LAYOUT_GRAD u = v.toNat % 2 ^ 8 ∧ t.get F.CORE_RING_LAYOUT_S u = v.toNat / 2 ^ 8 % 2 ^ 8 ∧
      t.get F.CORE_RING_LAYOUT_WTS u = v.toNat / 2 ^ 48 % 2 ^ 8 ∧
      (∀ f, f ∈ Reg.fields .CORE_RING_LAYOUT → t.get f u = v.toNat / 2 ^ f.lo % 2 ^ f.width) ∧ { t with regs := s.regs } = s) ∧
    (idle → ∀ v : Word, ∃ t, exec (.ringLayoutWrite c true v) s = .next t ∧
      t.get F.CORE_RING_TACKS_INBOX_TACK u = v.toNat % 2 ^ 5 ∧
      t.get F.CORE_RING_TACKS_VERDICT_TACK u = v.toNat / 2 ^ 8 % 2 ^ 5 ∧
      (∀ f, f ∈ Reg.fields .CORE_RING_TACKS → t.get f u = v.toNat / 2 ^ f.lo % 2 ^ f.width) ∧ { t with regs := s.regs } = s) ∧
    (¬idle → ∀ tacks v, exec (.ringLayoutWrite c tacks v) s = .next (s.put F.CORE_RING_STAT_REJ 1 u)) ∧
    (∀ j r, s.ringOf c = some (j, r) → s.darnHeld c = false → s.get F.CORE_RING_STAT_STATE u = 1 →
      r.nrep - 1 ≤ s.get F.TACK_STATEn_VALUE u (s.get F.CORE_RING_TACKS_INBOX_TACK u % 32) % 2 ^ 32 →
      findKey r.reports u = none →
      let barred := (s.core c).ringBarred = some (s.get F.CORE_RING_STAT_ATTEMPT u)
      (barred → exec (.ringInboxComplete c) s = .next s) ∧
      (¬barred → s.inboxFailed c l ≠ [] ∨ s.inboxMalformed c l = true →
        ∃ t r', exec (.ringInboxComplete c) s = .next t ∧ (s.inboxFailed c l = [] → t.sram = s.sram) ∧
          t.get F.CORE_RING_STAT_BAD u = 1 ∧ t.get F.CORE_RING_STAT_STATE u = 2 ∧
          findKey t.rings j = some r' ∧ findKey r'.reports u = some { bad := true, nan := 0, inf := 0 }) ∧
      (¬barred → s.inboxFailed c l = [] → s.inboxMalformed c l = false → (∀ k, k < 256 → s.tileGood c k = true) →
        l.grad + (l.rep + 1) * l.s ≤ 256 → l.wts + l.nrep * l.sw ≤ 256 →
        let blocks := s.inboxBlocks c l
        let value (i e : Nat) : Nat := (sumElement (blocks.map fun row => match row[i / 16]? with
          | some b => b.addend (64 * (i % 16) + e)
          | none => 0) (tileElem 8 (s.readTile c (l.grad + l.rep * l.s + i)) e)).1
        ∃ t r' p, exec (.ringInboxComplete c) s = .next t ∧ t.get F.CORE_RING_STAT_STATE u = 2 ∧
          findKey t.rings j = some r' ∧ findKey r'.reports u = some p ∧ p.bad = false ∧
          (p.digest.isSome = true ↔ r.marked = true) ∧
          (∀ i e, i < l.s → e < 64 →
            tileElem 8 (t.readTile c (l.grad + l.rep * l.s + i)) e = value i e % 2 ^ 32) ∧
          ∀ a, ¬(u * 2 ^ 16 + (l.grad + l.rep * l.s) * 2 ^ 8 ≤ a ∧ a < u * 2 ^ 16 + (l.grad + (l.rep + 1) * l.s) * 2 ^ 8) →
            mget 0 t.sram a = mget 0 s.sram a))) ∧
  (∀ (s : State) (j : Fin 4) (r : Ring), findKey s.rings j.val = some r → s.get F.MRK_RINGj_STAT_STATE j = 1 →
    s.ringCores r ≠ [] → (s.ringCores r).Nodup →
    let i : Instr := .ringVerdict j
    let bad := r.late = true ∨ ∃ e, e ∈ r.reports ∧ e.2.bad = true
    let run := s.get F.MRK_RINGj_STAT_RUN j
    let again := run < s.get F.MRK_RINGj_CFG_REPEAT_MAX j
    let skips := (s.get F.MRK_RINGj_CFG_SKIP_NAN j = 1 ∧ r.nans ≠ 0) ∨ (s.get F.MRK_RINGj_CFG_SKIP_INF j = 1 ∧ r.infs ≠ 0)
    let issued (v : Nat) (p : State → Prop) : Prop := ∃ t r', exec i s = .next t ∧ t.sram = s.sram ∧
      t.threads = s.threads ∧ t.get F.MRK_RINGj_STAT_LAST j = v ∧
      t.get F.MRK_RINGj_STAT_ATTEMPT j = (s.get F.MRK_RINGj_STAT_ATTEMPT j + 1) % 2 ^ 32 ∧
      findKey t.rings j.val = some r' ∧ r'.reports = [] ∧ r'.late = false ∧ r'.fail = false ∧ r'.halting = false ∧
      (∀ c, c ∈ s.ringCores r → s.inRing j c = true → (t.core c).verdicts = (s.core c).verdicts ++ [v]) ∧ p t
    let decided (v : Nat) (p : State → Prop) : Prop :=
      (r.halting = false → ∃ t, exec i s = .next t ∧ t.sram = s.sram ∧ t.threads = s.threads ∧
        findKey t.rings j.val = some { r with halting := true, quiet := [] } ∧
        ∀ c, c ∈ s.ringCores r → s.inRing j c = true → s.get F.CORE_RING_STAT_STATE c.toNat ≠ 5 →
          t.get F.CORE_RING_STAT_STATE c.toNat = 4) ∧
      (r.halting = true → (∀ c, c ∈ s.ringCores r → s.inRing j c = true → c.toNat ∈ r.quiet) → issued v p) ∧
      (r.halting = true → (∃ c, c ∈ s.ringCores r ∧ s.inRing j c = true ∧ c.toNat ∉ r.quiet) → exec i s = .next s)
    (r.fail = true → decided 4 fun t => t.get F.MRK_RINGj_STAT_STATE j = 2) ∧
    (r.fail = false → bad → ¬again → decided 4 fun t => t.get F.MRK_RINGj_STAT_STATE j = 2) ∧
    (r.fail = false → bad → again → run < 2 ^ 8 - 1 → decided 3 fun t => t.get F.MRK_RINGj_STAT_RUN j = run + 1) ∧
    (r.fail = false → ¬bad → s.allDone r = true → skips → issued 2 fun t => t.get F.MRK_RINGj_STAT_RUN j = 0) ∧
    (r.fail = false → ¬bad → s.allDone r = true → ¬skips → issued 1 fun t => t.get F.MRK_RINGj_STAT_RUN j = 0 ∧
      t.get F.MRK_RINGj_COUNT_COMMITS j = (s.get F.MRK_RINGj_COUNT_COMMITS j + 1) % 2 ^ 32) ∧
    (r.fail = false → ¬bad → s.allDone r = false → exec i s = .next s)) ∧
  (∀ (s : State) (c : Lcn),
    let u := c.toNat
    (∀ j r, s.ringOf c = some (j, r) → s.get F.CORE_RING_STAT_STATE u = 4 → (s.core c).ringOps = [] → r.halting = true →
      u ∉ r.quiet → exec (.ringQuiet c) s = .next { s with rings := putKey s.rings j { r with quiet := r.quiet ++ [u] } }) ∧
    (∀ v l, (s.core c).verdicts = v :: l → v < 8 → ∃ t, exec (.ringVerdictApply c) s = .next t ∧ t.sram = s.sram ∧
      (t.core c).verdicts = l ∧ t.get F.CORE_RING_STAT_VERDICT u = v ∧
      t.get F.CORE_RING_STAT_STATE u = (if v = 4 then 5 else 0) ∧
      t.get F.CORE_RING_STAT_ATTEMPT u = (s.get F.CORE_RING_STAT_ATTEMPT u + 1) % 2 ^ 32 ∧
      (let cur := s.get F.CORE_RING_STAT_CUR u
       t.get F.CORE_RING_STAT_CUR u = if v ≤ 2 then (1 - cur) % 2 else cur) ∧
      (let inbox := s.get F.CORE_RING_TACKS_INBOX_TACK u % 32
       let verdict := s.get F.CORE_RING_TACKS_VERDICT_TACK u % 32
       inbox ≠ verdict →
        t.get F.TACK_STATEn_VALUE u verdict = (s.get F.TACK_STATEn_VALUE u verdict + 1) % 2 ^ 32 ∧
          t.get F.TACK_STATEn_VALUE u inbox = if v = 4 then s.get F.TACK_STATEn_VALUE u inbox else 0)) ∧
    (∀ op : Nat × Nat × Bool, (s.core c).ringOps.find? (fun o => o.1 == op.1) = some op → s.retryIndication = false →
      ∃ t, exec (.ringOpTimeout c op.1) s = .next t ∧ t.sram = s.sram ∧ t.threads = s.threads ∧
        (t.core c).ringOps = (s.core c).ringOps.filter (fun o => o.1 != op.1) ∧
        (op.2.2 = true → t.get F.CORE_RING_STAT_SHFAIL u = 1 ∧ ∀ j r, s.ringOf c = some (j, r) →
          ∃ r', findKey t.rings j = some r' ∧ r'.fail = true))) ∧
  (∀ (s : State) (j : Fin 4) (r : Ring), findKey s.rings j.val = some r →
    (s.get F.CLK_BLKEN_INT = 1 → s.get F.INT_DIGEST_CFGj_PERIOD 0 j < 2 ^ 32 → (∀ c k, c ∈ s.ringCores r → k < 512 → s.tileGood c k = true) →
      (∀ c, c ∈ s.ringCores r → (s.ringLayout c).wts + (s.ringLayout c).nrep * (s.ringLayout c).sw ≤ 512) →
      ∃ t r', exec (.digestNow j) s = .next t ∧ t.get F.INT_DIGEST_STATj_BUSY 0 j = 1 ∧ t.sram = s.sram ∧
        findKey t.rings j.val = some r' ∧
        ∀ c, c ∈ s.ringCores r → ∃ d, s.weightDigest c = .ok d ∧ findKey r'.nowDigests c.toNat = some d) ∧
    (s.get F.INT_DIGEST_STATj_BUSY 0 j = 1 → ∃ t, exec (.nowDigestDone j) s = .next t ∧
      t.get F.INT_DIGEST_STATj_BUSY 0 j = 0 ∧ findKey t.rings j.val = some { r with nowDigests := [] } ∧
      t.get F.INT_DIGEST_STATj_DIGESTS 0 j = (s.get F.INT_DIGEST_STATj_DIGESTS 0 j + 1) % 2 ^ 24 ∧ t.sram = s.sram ∧
      ((∀ e, e ∈ r.nowDigests → s.weightDigest (BitVec.ofNat 20 e.1) = .ok e.2) →
        (∀ e f, e ∈ r.nowDigests → f ∈ r.nowDigests → e.2 = f.2) →
        t.get F.INT_DIGEST_STATj_MISMATCH 0 j = s.get F.INT_DIGEST_STATj_MISMATCH 0 j)))

/-- 13 R458 to R492. -/
def Obligations.SelvedgePorts : Prop :=
  ∀ (s : State) (p : Fin 32),
    let u := p.val
    let port := s.port u
    let st := s.get F.SEL_STAT_STATE u
    let up := st = 2
    let retry := st = 3
    let kept (t : State) : Prop := t.threads = s.threads ∧ t.cores = s.cores ∧ t.sram = s.sram
    let failed (t : State) : Prop := t.get F.SEL_STAT_STATE u = 5 ∧ t.get F.SEL_STAT_EVT u = 1 ∧
      (t.port u).tags = [] ∧ (t.port u).ingress = [] ∧ (t.port u).replay = [] ∧ kept t
    let retrains (t : State) : Prop := t.get F.SEL_STAT_STATE u = 4 ∧ (t.port u).attempts = 0 ∧
      (t.port u).retrains = port.retrains + 1 ∧ (t.port u).replaying = none ∧ kept t
    let counts (t : State) (f : Fld) : Prop := t.get f u = min (s.get f u + 1) (2 ^ f.width - 1)
    let sends (t : State) (l : List FrameBits) : Prop := t.portOut = s.portOut ++ l.map fun v => (u, v)
    let control (kind e0 : Nat) : FrameBits := frameBits kind 0 port.lastSent port.ackSeq 0 0 e0 0
    let replays (t : State) (q : Port) : Prop := (t.port u).replaying = some port.lastSent ∧ (t.port u).resend = q.replay ∧
      (t.port u).replay = q.replay
    (∀ q : Packet, s.farRequest u q.id = some q → port.ingress.length < 256 → s.repliesTo q.src q.pos →
      let o := q.arg % 2 ^ 46
      let closed := st = 0 ∨ st = 1 ∨ st = 5 ∨ s.get F.SEL_STAT_FUSED u = 1
      let base := s.get F.CXL_LDk_FMWIN_FMBASE q.ld
      let inside := base * 2 ^ 30 ≤ o ∧ o < (base + s.get F.CXL_LDk_FMWIN_FMSIZE q.ld) * 2 ^ 30
      let holds := (s.farPort o).2 < s.get F.SEL_CAP_CAP_GIB u * 2 ^ 30
      let refused (code : Nat) : Prop := exec (.selRequest p q.id) s = .next (s.answeredBy q .err 0 code 0 0)
      (q.good = false → refused 0x20) ∧ (q.good = true → closed → refused 0x40) ∧
        (q.good = true → ¬closed → ¬inside → refused 0x41) ∧
        (q.good = true → ¬closed → inside → ¬holds → refused 0x42) ∧
        (q.good = true → ¬closed → inside → holds → exec (.selRequest p q.id) s =
          .next ((s.dropPacket q.id).setPort u { port with ingress := port.ingress ++ [q] }))) ∧
    (let beat := (port.beat + 1) % 65536
     let waits := waitAfter port.waits (s.portEligible u) none
     let beats (q : Port) (l : List FrameBits) : Prop := ∃ t, exec (.selArbitrate p) s = .next t ∧ t.port u = q ∧
       sends t l ∧ { t with ports := s.ports, portOut := s.portOut } = s
     (st = 0 ∨ st = 1 ∨ st = 5 → exec (.selArbitrate p) s = .next s) ∧ (st = 4 → beats { port with waits } []) ∧
      (port.beat = 65535 → up ∨ retry → beats { port with beat, waits } []) ∧
      (port.beat ≠ 65535 → retry →
        (∀ f l, port.resend = f :: l → beats { port with beat, waits, resend := l } [f.bits port.ackSeq]) ∧
        (port.resend = [] → beats { port with beat, waits } [control 5 0])) ∧
      (port.beat ≠ 65535 → up → 256 ≤ port.replay.length → beats { port with beat, waits } [control 5 0]) ∧
      (port.beat ≠ 65535 → up → port.replay.length < 256 → s.get F.SEL_CTL_EN u ≠ 1 ∨ s.portEligible u = [] →
        beats { port with beat, waits, next := (port.next + 1) % 1024, replay := port.replay ++ [{ fseq := port.next }] }
          [frameBits 0 0 port.next port.ackSeq 0 0 0 0])) ∧
    (up → s.get F.SEL_CTL_EN u = 1 → port.replay.length < 256 → port.beat ≠ 65535 →
      (s.portEligible u ≠ [] → (∀ q, q ∈ port.ingress → q.typ = .rd ∨ q.typ = .wr) → ∃ panel, panel ∈ s.portEligible u ∧
        (let waits (n : Nat) := mget 0 port.waits n
         let long (n : Nat) := s.get F.SEL_WAIT_LIMIT_LIMIT u ≤ waits n
         let free := ∀ k, port.lock = some k → k.panel ∉ s.portEligible u
         (∀ k, port.lock = some k → k.panel ∈ s.portEligible u → panel = k.panel) ∧
           (free → (∃ n, n ∈ s.portEligible u ∧ long n) → ∀ n, n ∈ s.portEligible u → waits n ≤ waits panel) ∧
           (free → (∀ n, n ∈ s.portEligible u → ¬long n) → ∀ n, n ∈ s.portEligible u →
             min 3 (s.rankOf u panel) ≤ min 3 (s.rankOf u n))) ∧
        ∃ t frame, exec (.selArbitrate p) s = .next t ∧ kept t ∧ (t.port u).replay = port.replay ++ [frame] ∧
          frame.fseq = port.next ∧ (t.port u).next = (port.next + 1) % 1024 ∧ (t.port u).pointer = (panel + 1) % 512 ∧
          frame.commands.length = (s.granted u panel).length ∧ sends t [frame.bits port.ackSeq] ∧
          (t.port u).ingress = port.ingress.filter (fun r => !((s.granted u panel).any fun q => q.id == r.id)) ∧
          (∀ k t', findKey port.tags k = some t' → findKey (t.port u).tags k = some t') ∧
          (let writes := ((s.granted u panel).filter fun r => r.typ == .wr).length
           let reads := (s.granted u panel).length - writes
           s.get F.SEL_TAGSTAT_RDHELD u < 2 ^ 12 → s.get F.SEL_TAGSTAT_WRHELD u < 2 ^ 10 →
             t.get F.SEL_TAGSTAT_RDHELD u = s.get F.SEL_TAGSTAT_RDHELD u - reads ∧
             t.get F.SEL_TAGSTAT_WRHELD u = s.get F.SEL_TAGSTAT_WRHELD u - writes))) ∧
    (∀ (bits : FrameBits) (now : Nat), frameGood bits = false ∨ 6 ≤ frameKind bits →
      exec (.selFrameReceive p bits now) s =
        exec (.selFrameFail p (decide (frameKind bits < 3 ∨ 6 ≤ frameKind bits)) now) s) ∧
    (∀ (bits : FrameBits) (now : Nat), let fr := frameOf bits
      let recent := port.starts.filter fun b => decide (now < b + 2 ^ 30)
      let receives := exec (.selFrameReceive p bits now) s
      frameGood bits = true →
      (¬(up ∨ retry) → fr.kind.val < 6 → receives = .next s) ∧
      (up ∨ retry → fr.kind = 3 → receives =
        exec (.selNak p (Fin.ofNat 1024 (frameE0 bits)) now) (s.setPort u (port.acknowledged fr.ackseq.val))) ∧
      (up ∨ (retry ∧ port.discarding = true) → fr.kind = 4 ∨ fr.kind = 5 →
        receives = .next (s.setPort u (port.acknowledged fr.ackseq.val))) ∧
      (up ∨ retry → fr.kind.val < 3 → fr.fseq.val ≠ port.expect →
        (port.discarding = true → receives = .next s) ∧
        (port.discarding = false → up → s.get F.SEL_CTL_RETRY_EN u = 1 →
          recent.length < s.get F.SEL_RETRYCFG_EPISODE_MAX u → ∃ t, receives = .next t ∧ kept t ∧
          t.get F.SEL_STAT_STATE u = 3 ∧ counts t F.SEL_RETRYSTAT_EPISODES ∧
          t.port u = { port with discarding := true, starts := now :: recent, attempts := 0, retrains := 0 } ∧
          sends t [control 3 port.expect]))) ∧
    (∀ (bits : FrameBits) (now : Nat), let fr := frameOf bits
      let credited (t : State) : Prop :=
        t.get F.SEL_TAGSTAT_RDHELD u = min (s.get F.SEL_TAGSTAT_RDHELD u + fr.rdc) (s.get F.SEL_CAP_RDCRED u) % 2 ^ 12 ∧
        t.get F.SEL_TAGSTAT_WRHELD u = min (s.get F.SEL_TAGSTAT_WRHELD u + fr.wrc) (s.get F.SEL_CAP_WRCRED u) % 2 ^ 10
      up ∨ retry → frameGood bits = true → fr.kind.val < 3 → fr.fseq.val = port.expect →
      (fr.entries = [] → ∃ t, exec (.selFrameReceive p bits now) s = .next t ∧ kept t ∧ credited t ∧
        (t.port u).expect = (port.expect + 1) % 1024 ∧ (t.port u).discarding = false ∧ (t.port u).tags = port.tags) ∧
      (∀ (cmd : Fin 16) (tag : Fin 2048) (status : BitVec 8) (q : Packet), fr.entries = [(cmd, tag, status, false)] →
        findKey port.tags tag.val = some { req := q } → s.repliesTo q.src q.pos →
        let ends (typ : PacketType) (arg : Nat) : Prop := ∃ t r, exec (.selFrameReceive p bits now) s = .next t ∧ kept t ∧ credited t ∧
          (t.port u).expect = (port.expect + 1) % 1024 ∧ (t.port u).tags = delKey port.tags tag.val ∧
          t.fab.pkts = s.fab.pkts ++ [r] ∧ r.typ = typ ∧ r.arg = arg ∧ r.dst = q.src ∧ r.tag = q.tag ∧ r.gen = q.gen
        (cmd = 8 → q.typ = .rd → fr.kind = 1 → fr.dv = true → ends .rdr 0) ∧ (cmd = 9 → q.typ = .wr → ends .ack 0) ∧
          (cmd = 10 → status = 3 → ends .err 0x43) ∧ (cmd = 10 → status = 1 ∨ status = 4 → ends .err 0x44))) ∧
    (∀ now : Nat,
      let recent := port.starts.filter fun b => decide (now < b + 2 ^ 30)
      let few := recent.length < s.get F.SEL_RETRYCFG_EPISODE_MAX u
      (2 ≤ st → st ≠ 5 → ∃ t, exec (.selFrameFail p false now) s = .next t ∧ counts t F.SEL_ERRSTAT_CRCFAIL ∧
        s.fieldsKept t [F.SEL_ERRSTAT_CRCFAIL, F.SEL_ERRSTAT_SAT] ∧ { t with regs := s.regs } = s) ∧
      (up → s.get F.SEL_CTL_RETRY_EN u = 1 → few → ∃ t, exec (.selFrameFail p true now) s = .next t ∧ kept t ∧
        counts t F.SEL_ERRSTAT_CRCFAIL ∧ counts t F.SEL_RETRYSTAT_EPISODES ∧ t.get F.SEL_STAT_STATE u = 3 ∧
        t.port u = { port with discarding := true, starts := now :: recent, attempts := 0, retrains := 0 } ∧
        sends t (if port.discarding then [] else [control 3 port.expect])) ∧
      (up → s.get F.SEL_CTL_RETRY_EN u ≠ 1 ∨ ¬few → ∃ t, exec (.selFrameFail p true now) s = .next t ∧ failed t) ∧
      (retry → ∃ t, exec (.selFrameFail p true now) s = .next t ∧ kept t ∧ counts t F.SEL_ERRSTAT_CRCFAIL ∧
        t.get F.SEL_STAT_STATE u = 3 ∧ t.port u = { port with discarding := true } ∧
        sends t (if port.discarding then [] else [control 3 port.expect])) ∧
      (∀ fseq : Fin 1024,
        let left := port.acknowledged ((fseq.val + 1023) % 1024)
        (left.replay = [] → up ∨ retry → exec (.selNak p fseq now) s = .next (s.setPort u left)) ∧
        (left.replay ≠ [] → retry → ∃ t, exec (.selNak p fseq now) s = .next t ∧ replays t left ∧
          { t with ports := s.ports } = s) ∧
        (left.replay ≠ [] → up → few → ∃ t, exec (.selNak p fseq now) s = .next t ∧ kept t ∧
          t.get F.SEL_STAT_STATE u = 3 ∧ counts t F.SEL_RETRYSTAT_EPISODES ∧
          replays t left)) ∧
      (port.replay ≠ [] → retry → exec (.selAckStall p now) s =
        .next (s.setPort u { port with replaying := some port.lastSent, resend := port.replay })) ∧
      (port.replay ≠ [] → up → few → ∃ t, exec (.selAckStall p now) s = .next t ∧ kept t ∧
        t.get F.SEL_STAT_STATE u = 3 ∧ replays t port) ∧
      (port.replay ≠ [] → up → ¬few → ∃ t, exec (.selAckStall p now) s = .next t ∧ failed t)) ∧
    (retry →
      (port.attempts + 1 < s.get F.SEL_RETRYCFG_REPLAY_MAX u → exec (.selReplayFail p) s =
        .next (s.setPort u { port with attempts := port.attempts + 1 })) ∧
      (s.get F.SEL_RETRYCFG_REPLAY_MAX u ≤ port.attempts + 1 → port.retrains < s.get F.SEL_RETRYCFG_RETRAIN_MAX u →
        ∃ t, exec (.selReplayFail p) s = .next t ∧ retrains t) ∧
      (s.get F.SEL_RETRYCFG_REPLAY_MAX u ≤ port.attempts + 1 → s.get F.SEL_RETRYCFG_RETRAIN_MAX u ≤ port.retrains →
        ∃ t, exec (.selReplayFail p) s = .next t ∧ failed t)) ∧
    (∀ (l : Fin 9) (late : Bool),
      let marked (t : State) : Prop := (t.get F.SEL_STAT_BAD u).testBit l = true ∧
        ∀ m : Fin 9, m ≠ l → (t.get F.SEL_STAT_BAD u).testBit m = (s.get F.SEL_STAT_BAD u).testBit m
      let was := (s.get F.SEL_STAT_BAD u).testBit l = true
      (∃ t, exec (.selLaneBad p l late) s = .next t ∧ marked t ∧ kept t ∧ (up ∨ retry → ¬was → retrains t) ∧
        (up ∨ retry → was → t.get F.SEL_STAT_STATE u = st ∧ t.port u = port) ∧
        (st = 1 ∨ (st = 4 ∧ ¬was) → late = true → (t.port u).late = l.val :: port.late) ∧
        (st = 0 ∨ st = 5 ∨ (st = 1 ∧ late = false) → (t.port u).down = port.down ||| 2 ^ l.val) ∧
        t.get F.SEL_LANEl_LOCKLOSS u l = min (s.get F.SEL_LANEl_LOCKLOSS u l + 1) (2 ^ F.SEL_LANEl_LOCKLOSS.width - 1)) ∧
      (∀ (number : Fin 16) (crc own : BitVec 8) (now : Nat),
        let times := now :: (mget [] port.markers l.val).filter fun b => decide (now < b + 2 ^ 24)
        let many := s.get F.SEL_RETRYCFG_LANE_ERR u < times.length
        let ignored := (number.val = l.val ∧ crc = own) ∨ ((up ∨ retry) ∧ (s.get F.SEL_STAT_ACTIVE u).testBit l = false)
        (ignored → exec (.selAlignmentMarker p l ⟨number, crc, own⟩ now late) s = .next s) ∧
        (¬ignored → ∃ t, exec (.selAlignmentMarker p l ⟨number, crc, own⟩ now late) s = .next t ∧ kept t ∧
          mget [] (t.port u).markers l.val = times ∧
          t.get F.SEL_LANEl_MARKERR u l = min (s.get F.SEL_LANEl_MARKERR u l + 1) (2 ^ F.SEL_LANEl_MARKERR.width - 1) ∧
          (¬many → t.get F.SEL_STAT_STATE u = st ∧ t.get F.SEL_STAT_BAD u = s.get F.SEL_STAT_BAD u) ∧
          (many → marked t ∧ (up ∨ retry → ¬was → retrains t))))) ∧
    (∀ (tag : Fin 2048) (q : Packet),
      (findKey port.tags tag.val = some { req := q } → s.retryIndication = false → s.repliesTo q.src q.pos →
        ∃ t r, exec (.selRspTimeout p tag) s = .next t ∧ kept t ∧ counts t F.SEL_ERRSTAT_TIMEOUTS ∧
          findKey (t.port u).tags tag.val = some { req := q, expired := true } ∧ t.fab.pkts = s.fab.pkts ++ [r] ∧
          r.typ = .err ∧ r.arg = 0x45 ∧ r.dst = q.src ∧ r.tag = q.tag) ∧
      (findKey port.tags tag.val = some { req := q, expired := true } → exec (.selTagRelease p tag) s =
        .next (s.setPort u { port with tags := delKey port.tags tag.val }))) ∧
    (s.get F.CLK_PORTEN_PORTS / 2 ^ u % 2 = 1 →
      (s.get F.SEL_CTL_EN u = 1 → s.get F.SEL_STAT_FUSED u ≠ 1 → st = 0 ∨ st = 5 →
        ∃ t, exec (.selTrain p) s = .next t ∧ kept t ∧ t.get F.SEL_STAT_STATE u = 1 ∧
          t.port u = { starts := port.starts, down := port.down } ∧
          s.fieldsKept t [F.SEL_STAT_STATE]) ∧
      (s.get F.SEL_CTL_EN u ≠ 1 ∨ s.get F.SEL_STAT_FUSED u = 1 ∨ (1 ≤ st ∧ st ≤ 4) → exec (.selTrain p) s = .next s) ∧
      (∃ t, exec (.selSwRst p) s = .next t ∧ kept t ∧ t.port u = {} ∧ t.get F.SEL_STAT_STATE u = 0 ∧
        t.get F.SEL_TAGSTAT_RDHELD u = 0 ∧ t.get F.SEL_MAP_MODE u = s.get F.SEL_MAP_MODE u ∧
        ∀ v : Fin 32, v ≠ p → t.get F.SEL_STAT_STATE v = s.get F.SEL_STAT_STATE v)) ∧
    (st = 5 → exec (.attachmentRouterFailure p) s = .next s) ∧
    (st ≠ 5 → ∃ t, exec (.attachmentRouterFailure p) s = .next t ∧ failed t) ∧
    (∀ (unlocked : BitVec 9) (echo caps ready : Option Word) (failing : Nat),
      let late := (port.late.eraseDups.map fun l => 2 ^ l).sum
      let bad := unlocked.toNat ||| late ||| port.down
      let map := activeLanes (bad - (bad &&& late))
      let trains := exec (.selTrainDone p ⟨unlocked, echo⟩ caps ready failing) s
      let answered := ∃ e, ready = some e ∧ e.toNat % 16 = 4
      st = 1 → (∀ l, l ∈ port.late → l < 9) → port.down < 2 ^ 9 →
      (∀ m w c, map = some (m, w) → echo = some (lctlLanes m w) → caps.bind capsOf = some c → c.ok = true →
        failing ≤ s.get F.BRG_BER_LIMIT_FRAMES → answered → ∃ t, trains = .next t ∧
          kept t ∧ t.get F.SEL_STAT_STATE u = (if port.late = [] then 2 else 4) ∧
          (t.port u).retrains = (if port.late = [] then 0 else 1) ∧
          t.get F.SEL_STAT_BAD u = bad ∧ t.get F.SEL_STAT_ACTIVE u = m ∧
          t.get F.SEL_STAT_WIDTH u = w ∧ t.get F.SEL_CAP_CAP_GIB u = c.capGib ∧
          t.get F.SEL_TAGSTAT_RDHELD u = c.rdcred ∧ t.get F.SEL_TAGSTAT_WRHELD u = c.wrcred ∧
          sends t [control 4 (lctlLanes m w).toNat, control 4 (lctlPort u).toNat, control 4 lctlReady.toNat]) ∧
      ((∀ m w, map = some (m, w) → echo ≠ some (lctlLanes m w) ∨ caps.bind capsOf = none ∨
          (∃ c, caps.bind capsOf = some c ∧ c.ok = false) ∨ s.get F.BRG_BER_LIMIT_FRAMES < failing ∨ ¬answered) →
        ∃ t, trains = .next t ∧ t.get F.SEL_STAT_STATE u = 5 ∧ kept t)) ∧
    (∀ (unlocked : BitVec 9) (failing : Nat) (worst : Fin 9) (now : Nat), st = 4 → s.get F.SEL_STAT_BAD u < 2 ^ 9 →
      let bad := s.get F.SEL_STAT_BAD u ||| unlocked.toNat |||
        if s.get F.BRG_BER_LIMIT_FRAMES < failing then 2 ^ worst.val else 0
      let good := ((List.range 9).filter fun l => !bad.testBit l || port.late.contains l).length
      (s.get F.SEL_RETRYCFG_RETRAIN_MAX u < port.retrains ∨ good < 4 →
        ∃ t, exec (.selRetrainDone p unlocked failing worst now) s = .next t ∧ failed t) ∧
      (port.retrains ≤ s.get F.SEL_RETRYCFG_RETRAIN_MAX u → 4 ≤ good → port.late ≠ [] →
        ∃ t, exec (.selRetrainDone p unlocked failing worst now) s = .next t ∧ retrains t ∧ (t.port u).late = [] ∧
          t.get F.SEL_STAT_BAD u = bad) ∧
      (port.retrains ≤ s.get F.SEL_RETRYCFG_RETRAIN_MAX u → 4 ≤ good → port.late = [] →
        (port.replay = [] → ∃ t, exec (.selRetrainDone p unlocked failing worst now) s = .next t ∧ kept t ∧
          t.get F.SEL_STAT_STATE u = 2 ∧ t.get F.SEL_STAT_BAD u = bad ∧
          t.get F.SEL_STAT_ACTIVE u = (match activeLanes bad with | some e => e.1 | none => 0) ∧
          t.port u = { port with attempts := 0, retrains := 0, replaying := none }) ∧
        (port.replay ≠ [] → ∃ t, exec (.selRetrainDone p unlocked failing worst now) s = .next t ∧ kept t ∧
          t.get F.SEL_STAT_STATE u = 3 ∧
          t.port u = { port with replaying := some port.lastSent, resend := port.replay })))

/-- 00 R3, R6, R688; 02 R88 to R90; 07 Table 7.4; 14 R500, R513; 18 R611. A write of an undefined value faults: the model's
stop, log entry 3. -/
def Obligations.RegisterWrites : Prop :=
  (∀ (s : State) (c : Lcn) (n : Fin 4) (p : Fin 32) (f : Fin 64) (ld : Fin 16) (v : Word),
    let gated (on : Prop) (i : Instr) (off : Nat) : Prop := ¬on → ∃ t, exec i s = .next t ∧
      t.get F.CLK_GATEDERR_LAST = off ∧
      (s.get F.CLK_GATEDERR_COUNT + 1 < 2 ^ 24 → t.get F.CLK_GATEDERR_COUNT = s.get F.CLK_GATEDERR_COUNT + 1) ∧
      s.fieldsKept t [F.CLK_GATEDERR_COUNT, F.CLK_GATEDERR_SAT, F.CLK_GATEDERR_LAST] ∧ { t with regs := s.regs } = s
    let window (i : Instr) (off : Nat) : Prop := (s.backed c = false → exec i s = .next s) ∧
      (s.backed c = true →
        gated (s.clocked c = true) i (0x2000000 + (c.toNat / 1024 % 16 * 128 + c.toNat % 128) * 0x4000 + off))
    let on (b : Fld) : Prop := s.get b = 1
    window (.compressorStart c v) 0x158 ∧ window (.selectionStart c v) 0x168 ∧ window (.spoolPost c n v) 0x350 ∧
      window (.patternLoad c v) 0x5C8 ∧ window (.switchRequest c v) 0x5C0 ∧
      (∀ k, window (.reduce c k) 0x1A8 ∧ window (.share c k) 0x1A8) ∧
      window (.ringLayoutWrite c false v) 0x198 ∧ window (.ringLayoutWrite c true v) 0x1A0 ∧
      (∀ w, gated (on F.CLK_BLKEN_CXL) (.ldPartWrite w ld v) (0x101008 + 256 * ld.val) ∧
        gated (on F.CLK_BLKEN_CXL) (.ldFmwinWrite w ld v) (0x101010 + 256 * ld.val) ∧
        gated (on F.CLK_BLKEN_CXL) (.ldMsixWrite w ld v) (0x101018 + 256 * ld.val)) ∧
      (∀ l : Fin 8, gated (on F.CLK_BLKEN_CXL) (.apertureSelect ld f l) (0x101048 + 256 * ld.val)) ∧
      gated (on F.CLK_BLKEN_CXL) (.ringEnable ld v) (0x101020 + 256 * ld.val) ∧
      gated (on F.CLK_BLKEN_CXL) (.evqEnable ld v) (0x101030 + 256 * ld.val) ∧
      gated (on F.CLK_BLKEN_CXL) (.wdraw ld) (0x101028 + 256 * ld.val) ∧
      gated (on F.CLK_BLKEN_MRK) (.mrkMigrate f) 0x80020 ∧ gated (on F.CLK_BLKEN_MRK) .mrkSwRst 0x80000 ∧
      (∀ (j : Fin 4) (id : BitVec 16) (k : BitVec 6) (m : BitVec 12),
        gated (on F.CLK_BLKEN_MRK) (.ringSetup j id k m) (0x80100 + 64 * j.val) ∧
        gated (on F.CLK_BLKEN_INT) (.digestNow j) (0x50100 + 32 * j.val)) ∧
      gated (on F.CLK_BLKEN_INT) .intSwRst 0x50000 ∧ gated (on F.CLK_BLKEN_WAF) .mgtSwRst 0x8000 ∧
      gated ((s.get F.CLK_PORTEN_PORTS).testBit p = true) (.selTrain p) (0x200008 + 0x8000 * p.val) ∧
      gated ((s.get F.CLK_PORTEN_PORTS).testBit p = true) (.selSwRst p) (0x200008 + 0x8000 * p.val) ∧
      gated (s.get F.CLK_FLDf_CTL_BLK_EN f = 1) (.fabSwRst f) (0x1000000 + 0x40000 * f.val + 0x800) ∧
      (∀ l : Fin 512, gated (s.get F.CLK_FLDf_CTL_BLK_EN (l.val / 8) = 1) (.dlSnapshotRelease l)
        (0x1010808 + 0x40000 * (l.val / 8) + 0x4000 * (l.val % 8)))) ∧
  ∀ (s : State) (ld : Fin 16) (o : BitVec 26) (v : Word),
    let p := s.bar0 ld o.toNat
    let i := Instr.registerWrite ld o v
    let may := s.hostWrites ld p = true
    let reaches := may ∧ s.placeUnbacked p = false ∧ s.placeClocked p = true
    let only (t : State) (l : List Fld) : Prop := s.fieldsKept t l ∧ { t with regs := s.regs, ticked := s.ticked } = s
    let control := p.windowCore = none ∧ ((∃ r u n, p = .reg r u n) ∨ (0x71000 ≤ o.toNat ∧ o.toNat < 0x72000))
    let special : List Reg :=
      [.CORE_CTL, .CORE_ACC_OWN, .CORE_SRSEED, .CORE_SRCMD, .CORE_SRLANEl, .SPX_CMP_CMD, .SPX_SEL_CMD, .SPL_CMD,
       .TACK_STATEn, .CORE_PAT_CTL, .CORE_PAT_LOAD, .CORE_RING_LAYOUT, .CORE_RING_TACKS, .CORE_RING_CMD, .MRK_CTL,
       .MRK_MIGRATE, .MRK_RINGj_SETUP, .FAB_CTL, .FAB_DL_STAT, .SEL_CTL, .INT_CTL, .INT_DIGEST_CFGj, .BRG_CMD, .BRG_RST,
       .BRG_DARN_CMD, .RST_CTL, .RST_BLOCK, .CLK_BLKEN, .CLK_FLDf_CTL, .TRD_PUSH, .PWR_CTL, .PWR_THERM,
       .PWR_PARK_ORDERn, .PWR_FLDf_CTL, .NVS_CTL, .THM_UPD_CMD, .MGT_CTL, .CXL_LDk_CFG, .CXL_LDk_PART, .CXL_LDk_FMWIN,
       .CXL_LDk_MSIX, .CXL_LDk_RING, .CXL_LDk_RINGPTR, .CXL_LDk_EVQ]
    (¬may → ¬control → exec i s = .next s) ∧
    (¬may → control → ∃ t, exec i s = .next t ∧ t.get F.CXL_CTLERR_LAST_LD = ld ∧
      (s.get F.CXL_CTLERR_DISCARDS + 1 < 2 ^ 24 → t.get F.CXL_CTLERR_DISCARDS = s.get F.CXL_CTLERR_DISCARDS + 1) ∧
      only t [F.CXL_CTLERR_DISCARDS, F.CXL_CTLERR_SAT, F.CXL_CTLERR_LAST_LD]) ∧
    (may → s.placeUnbacked p = true → exec i s = .next s) ∧
    (may → s.placeUnbacked p = false → s.placeClocked p = false → ∃ t, exec i s = .next t ∧
      t.get F.CLK_GATEDERR_LAST = o.toNat ∧
      (s.get F.CLK_GATEDERR_COUNT + 1 < 2 ^ 24 → t.get F.CLK_GATEDERR_COUNT = s.get F.CLK_GATEDERR_COUNT + 1) ∧
      only t [F.CLK_GATEDERR_COUNT, F.CLK_GATEDERR_SAT, F.CLK_GATEDERR_LAST]) ∧
    (∀ r u n, p = .reg r u n → reaches → r ≠ .FLD_CUEn_A → r ≠ .FLD_CUEn_B →
      let runs := r.resets v.toNat = true ∨ r.defines v.toNat = true
      (¬runs → exec i s = .fault .undefinedFieldValue) ∧ (runs → ∃ t, exec i s = .next t) ∧
      (runs → r ∉ special → ∃ t, exec i s = .next t ∧ only t r.fields ∧
        ∀ f, f ∈ r.fields → ∀ j, j < f.rep →
          let new := v.toNat / 2 ^ (f.lo + j * f.stride) % 2 ^ f.width
          let old := s.get f u (n * f.rep + j)
          t.get f u (n * f.rep + j) = match f.acc with
            | .rw => new
            | .w1c => (old - (old &&& new)) % 2 ^ f.width
            | .w1s => (old ||| new) % 2 ^ f.width
            | _ => old)) ∧
    (∀ c off, p = .window c off → 0x1000 ≤ off → reaches →
      let n : Fin 4 := Fin.ofNat 4 (if off < 0x2000 then (off - 0x1000) / 0x400 else (off - 0x2000) / 0x800)
      let th := s.thread c n
      let at_ := off % 0x400
      let open_ (n : Fin 4) : Prop := (s.thread c n).st = .stopped ∨ (s.thread c n).st = .halted
      let view := s.get F.CORE_DBG_VIEW c.toNat = 1
      let refused : Prop := exec i s = .next (s.put F.CORE_STAT_DBG_REJ 1 c.toNat)
      (off < 0x2000 → open_ n →
        (at_ < 0x100 → exec i s = .next (s.setThread c n (th.writeS (Fin.ofNat 32 (at_ / 8)) v))) ∧
        (0x100 ≤ at_ → at_ < 0x180 →
          exec i s = .next (s.setThread c n (th.writeA (Fin.ofNat 16 ((at_ - 0x100) / 8)) v))) ∧
        (0x180 ≤ at_ → at_ < 0x188 → ∃ h : Thread, exec i s = .next (s.setThread c n h) ∧ { h with p := th.p } = th ∧
          ∀ k : Fin 8, k ≠ 0 → h.readP k = v.getLsbD (8 * k.val))) ∧
      (off < 0x2000 → 0x188 ≤ at_ → exec i s = .next s) ∧
      (off < 0x2000 → at_ < 0x188 → ¬open_ n → refused) ∧
      (0x2000 ≤ off → off < 0x4000 → ¬view →
        (¬open_ n → refused) ∧
        (open_ n → ∃ w : Tile,
          exec i s = .next (s.setThread c n (th.writeT (Fin.ofNat 8 (off % 0x800 / 0x100)) w)) ∧
          ∀ j, j < 2048 → w.getLsbD j =
            if off % 0x100 * 8 ≤ j ∧ j < off % 0x100 * 8 + 64 then v.getLsbD (j - off % 0x100 * 8)
            else (th.readT (Fin.ofNat 8 (off % 0x800 / 0x100))).getLsbD j)) ∧
      (0x2000 ≤ off → off < 0x3000 → view →
        let k := (off - 0x2000) / 0x400
        let owner : Fin 4 := Fin.ofNat 4 (s.get F.CORE_ACC_OWN_OWNER_k c.toNat k)
        (¬open_ owner → refused) ∧
        (open_ owner → ∃ w : Acc, exec i s = .next (s.setAcc c k w) ∧
          ∀ j, j < 8192 → w.getLsbD j =
            if off % 0x400 * 8 ≤ j ∧ j < off % 0x400 * 8 + 64 then v.getLsbD (j - off % 0x400 * 8)
            else (s.acc c k).getLsbD j)) ∧
      (0x3000 ≤ off → off < 0x4000 → view → exec i s = .next s))

/-- 15 R542, R545, R547 to R551, R562; 08 R306, R311. -/
def Obligations.TestsAndTransitFailure : Prop :=
  ∀ s : State,
    let kept (t : State) : Prop := t.threads = s.threads ∧ t.cores = s.cores ∧ t.sram = s.sram ∧ t.fab = s.fab
    let now := s.get F.TRD_COUNT_COUNT
    (∀ p : Position,
      ((∀ e, e ∈ s.watch → e.at_ ≠ p) → exec (.watchEntryExpire p) s = .next s) ∧
      (∀ e l r, s.watch = l ++ e :: r → e.at_ = p → (∀ q, q ∈ l ∨ q ∈ r → q.at_ ≠ p) →
        let age := (now + 2 ^ 48 - e.times.headD 0 % 2 ^ 48) % 2 ^ 48
        let young := age ≤ s.get F.INT_FENCE_WINDOW_TR ∧ age ≤ 2 ^ 47
        (e.passed = true → e.condemned = false → ¬young →
          exec (.watchEntryExpire p) s = .next { s with watch := l ++ r }) ∧
        (e.passed = false ∨ e.condemned = true ∨ young → exec (.watchEntryExpire p) s = .next s))) ∧
    (s.isDirty 4 = false → exec .watchListSave s = .next s) ∧
    (s.isDirty 4 = true → ∃ t, exec .watchListSave s = .next t ∧ 4 ∈ t.nvsQueue ∧
      { t with nvsQueue := s.nvsQueue } = s ∧ ∀ k, k ≠ 4 → (k ∈ t.nvsQueue ↔ k ∈ s.nvsQueue)) ∧
    (∀ (f : Fin 64) (suspect : Bool),
      let entry := if suspect then 233 else 232
      let period := if suspect then s.get F.INT_WATCH_PERIOD_TR else s.get F.INT_SWEEP_PERIOD_TR
      let wanted := s.get F.INT_CTL_TEST_EN = 1 ∧ period ≠ 0 ∧ s.get F.FLD_CUEn_B_VALID f entry ≠ 1 ∧
        (suspect = true → ∃ e, e ∈ s.watch ∧ e.condemned = false ∧ e.at_.field = f)
      (¬wanted → exec (.sweepCuePlace f suspect) s = .next s) ∧
      (wanted → s.get F.CLK_FLDf_CTL_TRN_EN f ≠ 1 → exec (.sweepCuePlace f suspect) s = .next s) ∧
      (wanted → s.get F.CLK_FLDf_CTL_TRN_EN f = 1 → ∃ t c, exec (.sweepCuePlace f suspect) s = .next t ∧ kept t ∧
        t.get F.FLD_CUEn_B_VALID f entry = 1 ∧ t.get F.FLD_CUEn_B_KIND f entry = (if suspect then 5 else 4) ∧
        t.get F.FLD_CUEn_B_COUNT f entry = c % 2 ^ 48 ∧
        (suspect = true → c = now + period) ∧
        (suspect = false → let first := s.testsFrom + f * (period / 64)
          first ≤ c ∧ (c - first) % period = 0 ∧ now < c ∧ (c = first ∨ c ≤ now + period)))) ∧
    (∀ (seg : Fin 8192) (i : Fin 43) (l : List (List Nat)) (a b c : Nat),
      findKey s.tests seg.val = some l → l[i.val]? = some [a, b, c] →
      let rest := l.eraseIdx i.val
      let gone (t : State) : Prop :=
        t.get F.INT_TESTSTAT_GROUPS = (s.get F.INT_TESTSTAT_GROUPS + 1) % 2 ^ F.INT_TESTSTAT_GROUPS.width ∧
          (rest ≠ [] → findKey t.tests seg.val = some rest ∧ kept t) ∧
          (rest = [] → findKey t.tests seg.val = none ∧
            ∀ d : Lcn, segmentOf d = seg.val → s.backed d = true →
              (∀ n, t.thread d n = Thread.reset) ∧ (∀ n, n < 256 → t.readTile d n = 0 ∧ t.tileGood d n = true) ∧
              t.get F.CORE_CTL_CLK_EN d.toNat = s.get F.CORE_CTL_CLK_EN d.toNat)
      let fails (t : State) (n : Nat) : Prop :=
        t.get F.INT_TESTSTAT_MISMATCH =
            (if n = 0 then s.get F.INT_TESTSTAT_MISMATCH
              else min (s.get F.INT_TESTSTAT_MISMATCH + n) (2 ^ F.INT_TESTSTAT_MISMATCH.width - 1)) ∧
          (s.get F.INT_CAUSEc_COUNT 0 6 + n < 2 ^ F.INT_CAUSEc_COUNT.width →
            t.get F.INT_CAUSEc_COUNT 0 6 = s.get F.INT_CAUSEc_COUNT 0 6 + n)
      (∀ x y z : BitVec 64,
        let n := if x = y ∧ y = z then 0 else if x = y ∨ y = z ∨ x = z then 1 else 3
        ∃ t, exec (.testGroupDone seg i x y z) s = .next t ∧ gone t ∧
          (s.get F.INT_TESTSTAT_MISMATCH < 2 ^ F.INT_TESTSTAT_MISMATCH.width → fails t n) ∧
          (n = 0 → t.watch = s.watch.map fun e =>
            if (∃ m, m ∈ [a, b, c] ∧ e.at_ = s.positionOf (BitVec.ofNat 20 m)) then { e with passed := true } else e)) ∧
      (∀ k : Fin 3, ∃ t, exec (.testRunTimeout seg i k) s = .next t ∧ gone t ∧
        (s.get F.INT_TESTSTAT_MISMATCH < 2 ^ F.INT_TESTSTAT_MISMATCH.width → fails t 1))) ∧
    (∀ (seg : Fin 8192) (i : Fin 43) (x y z : BitVec 64) (k : Fin 3),
      (findKey s.tests seg.val = none ∨ ∃ l, findKey s.tests seg.val = some l ∧ l.length ≤ i.val) →
      exec (.testGroupDone seg i x y z) s = .next s ∧ exec (.testRunTimeout seg i k) s = .next s) ∧
    (s.get F.CLK_BLKEN_INT = 1 → ∃ t, exec .intSwRst s = .next t ∧ kept t ∧ t.watch = s.watch ∧ t.testsFrom = now ∧
      (∀ (f : Fld) (u n : Nat), F.INT_CTL_TEST_EN.id ≤ f.id → f.id ≤ F.INT_WL_Bn_LAST_CAUSE.id → u < 2 ^ 20 →
        n < 2 ^ 12 → t.get f u n = f.rst u n) ∧
      (∀ (f : Fld) (u n : Nat), ¬(F.INT_CTL_TEST_EN.id ≤ f.id ∧ f.id ≤ F.INT_WL_Bn_LAST_CAUSE.id) →
        f.id ≠ F.FLD_CUEn_B_VALID.id → f.id ≠ F.FLD_CUESTAT_ARMED.id → u < 2 ^ 20 → n < 2 ^ 12 →
        t.get f u n = s.get f u n) ∧
      (∀ (f : Fin 64) (n : Nat), 228 ≤ n → n ≤ 233 → t.get F.FLD_CUEn_B_VALID f n ≠ 1) ∧
      (∀ (f : Fin 64) (n : Nat), n < 228 ∨ (234 ≤ n ∧ n < 256) →
        t.get F.FLD_CUEn_B_VALID f n = s.get F.FLD_CUEn_B_VALID f n)) ∧
    (∀ f : Fin 64,
      (s.transitOn f = false ∨ s.isHole f = true → exec (.transitFail f) s = .next s) ∧
      (s.transitOn f = true → s.isHole f = false → ∃ t, exec (.transitFail f) s = .next t ∧
        t.isHole f = true ∧ t.transitOn f = false ∧ t.computeOn f = false ∧
        (∀ q, q ∈ t.fab.pkts → q.injected = true → fieldOf q.pos ≠ f) ∧
        (∀ g : Fin 64, g ≠ f → t.transitOn g = s.transitOn g ∧ t.computeOn g = s.computeOn g ∧
          t.isHole g = s.isHole g) ∧
        (s.computeOn f = true → ∀ (c : Lcn) (n : Fin 4), s.homeField c = f →
          t.thread c n = Thread.reset ∧ t.core c = {}) ∧
        (∀ (c : Lcn) (n : Fin 4), s.homeField c ≠ f → t.thread c n = s.thread c n ∧ t.core c = s.core c)))

/-- 16 R563 to R572, Tables 16.1 to 16.3; 18 R611; 19 R627, R643. -/
def Obligations.BringUpCommands : Prop :=
  ∀ s : State,
    (∀ (f : Fin 64) (side : Fin 4) (net : Fin 2) (row : Fin 128) (all : Bool),
      let goes (i : Instr) (op : Nat) (all : Bool) : Prop :=
        (s.get F.CLK_BLKEN_BRG = 1 → s.brgCmd = none → ∃ t v, exec i s = .next t ∧ t.brgCmd = some v ∧ v % 16 = op ∧
          v / 16 % 2 = (if all then 1 else 0) ∧ v / 32 % 64 = f ∧ t.get F.BRG_CMDSTAT_OP = op ∧
          { t with regs := s.regs, brgCmd := none } = s ∧
          s.fieldsKept t [F.BRG_CMD_OP, F.BRG_CMD_ALL, F.BRG_CMD_FIELD, F.BRG_CMD_SIDE, F.BRG_CMD_NET, F.BRG_CMD_ROW,
            F.BRG_CMDSTAT_OP]) ∧
        (s.get F.CLK_BLKEN_BRG = 1 → s.brgCmd ≠ none →
          exec i s = .next ((s.put F.BRG_CMDSTAT_ERR 1).put F.BRG_CMDSTAT_ERRCODE 1)) ∧
        (s.get F.CLK_BLKEN_BRG ≠ 1 → ∃ t, exec i s = .next t ∧ t.get F.CLK_GATEDERR_LAST = 0x90040 ∧
          s.fieldsKept t [F.CLK_GATEDERR_COUNT, F.CLK_GATEDERR_SAT, F.CLK_GATEDERR_LAST] ∧ { t with regs := s.regs } = s)
      goes (.transitOn all f) 1 all ∧ goes (.seamTrain all f) 2 all ∧ goes (.topoCheck all f) 3 all ∧
        goes (.computeOn all f) 4 all ∧ goes (.topoAccept all f) 5 all ∧ goes (.seamRetrain f side net row) 6 false) ∧
    (∀ o, s.brgCmd = none → exec (.brgCommandComplete o) s = .next s) ∧
    (∀ (o : BringUpOutcome) (v : Nat) (f : Fin 64), s.brgCmd = some v → v / 32 % 64 = f →
      let ends (t : State) : Prop := exec (.brgCommandComplete o) s = .next t ∧ t.brgCmd = none ∧
        t.get F.BRG_CMDSTAT_DONE = 1
      let works (t : State) : Prop := ends t ∧ t.get F.BRG_CMDSTAT_ERR = s.get F.BRG_CMDSTAT_ERR ∧
        t.get F.BRG_CMDSTAT_ERRCODE = s.get F.BRG_CMDSTAT_ERRCODE
      let fails (g code : Nat) (t : State) : Prop := ends t ∧ t.get F.BRG_CMDSTAT_ERR = 1 ∧
        t.get F.BRG_CMDSTAT_ERRCODE = code ∧ t.get F.BRG_CMDSTAT_FIELD = g
      let kept (t : State) : Prop := t.threads = s.threads ∧ t.cores = s.cores ∧ t.sram = s.sram
      let set (t : State) (m : Fld) (g : Nat) : Prop := (t.get m).testBit g = true
      let one := v / 16 % 2 = 0
      let op := v % 16
      let key (d : Fin 4) (n : Fin 2) (i : Fin 128) := linkKey f d n i
      let ready := s.get F.BRG_READY_MGMT = 1 ∧ s.get F.BRG_READY_NVS = 1 ∧ s.get F.BRG_READY_CLKREF = 1
      let up (t : State) (g : Fin 64) : Prop := t.transitOn g = true ∧ set t F.BRG_FLD_TRANSIT_MAP g ∧
        t.get F.CLK_FLDf_STAT_ACTIVE g = 1 ∧ t.get F.CLK_FLDf_STAT_CUR g = 1 ∧ t.get F.CLK_FLDf_CTL_TRN_EN g = 1 ∧
        t.get F.CLK_FLDf_CTL_BLK_EN g = 1
      (∃ t, ends t) ∧
      (op = 1 → one → (¬ready → ∃ t, fails f 2 t ∧ kept t) ∧
        (ready → s.isHole f = true → ∃ t, fails f 3 t ∧ kept t) ∧
        (ready → s.isHole f = false → s.transitOn f = true → ∃ t, works t ∧ kept t) ∧
        (ready → s.isHole f = false → s.transitOn f = false →
          (f ∈ o.dead → ∃ t, fails f 3 t ∧ t.isHole f = true) ∧ (f ∉ o.dead → ∃ t, works t ∧ kept t ∧ up t f))) ∧
      (op = 1 → ¬one → ready → o.dead = [] → ∃ t, ends t ∧ kept t ∧
        (∀ g : Fin 64, s.isHole g = false → t.transitOn g = true ∧ (s.transitOn g = false → up t g)) ∧
        ((∀ g : Fin 64, s.isHole g = false) → works t) ∧
        (∀ g : Fin 64, s.isHole g = true → (∀ h : Fin 64, h < g → s.isHole h = false) → fails g 3 t)) ∧
      (op = 2 → one → ((s.get F.BRG_FLD_TRANSIT_MAP).testBit f = false → ∃ t, fails f 2 t ∧ kept t) ∧
        (set s F.BRG_FLD_TRANSIT_MAP f → ∃ t, works t ∧ kept t ∧ set t F.BRG_FLD_SEAMOK_MAP f ∧
          ∀ (d : Fin 4) (n : Fin 2) (i : Fin 128), hasSeam f d = true →
            let on := set s F.BRG_FLD_TRANSIT_MAP (beyond f d)
            (on → s.linkPasses o (key d n i) = true → (t.link f d n i).st = .up ∧ key d n i ∈ t.discovered) ∧
            (on → s.linkPasses o (key d n i) = false → (t.link f d n i).st = .failed ∧ key d n i ∉ t.discovered) ∧
            (¬on → t.link f d n i = s.link f d n i ∧ key d n i ∉ t.discovered))) ∧
      (let agrees (s : State) : Prop :=
         ∀ (d : Fin 4) (n : Fin 2) (i : Fin 128), hasSeam f d = true → (key d n i ∈ s.discovered ↔ key d n i ∉ s.unexpected)
       (op = 3 → one → ((s.get F.BRG_FLD_SEAMOK_MAP).testBit f = false → ∃ t, fails f 2 t ∧ kept t) ∧
        (set s F.BRG_FLD_SEAMOK_MAP f →
          (agrees s → ∃ t, works t ∧ kept t ∧ set t F.BRG_FLD_TOPO_MAP f) ∧
          (¬agrees s → ∃ t, fails f 4 t ∧ kept t ∧ (t.get F.BRG_FLD_TOPO_MAP).testBit f = false ∧
            t.get F.BRG_TOPO_DIFF_FIELD = f ∧
            ∀ (d : Fin 4) (n : Fin 2) (i : Fin 128), hasSeam f d = true → key d n i ∈ s.discovered → key d n i ∈ s.unexpected →
              (t.link f d n i).st = .failed))) ∧
       (op = 5 → one → ((s.get F.BRG_FLD_SEAMOK_MAP).testBit f = false → ∃ t, fails f 2 t ∧ kept t) ∧
        (set s F.BRG_FLD_SEAMOK_MAP f → ∃ t, works t ∧ kept t ∧ set t F.BRG_FLD_TOPO_MAP f ∧ agrees t ∧
          t.discovered = s.discovered ∧ 3 ∈ t.nvsQueue ∧
          ∀ (d : Fin 4) (n : Fin 2) (i : Fin 128), hasSeam f d = true → key d n i ∈ s.discovered → (s.link f d n i).st = .failed →
            (t.link f d n i).st = .up))) ∧
      (let reason := s.get F.PWR_FLDf_STAT_REASON f
       op = 4 → one → ((s.get F.BRG_FLD_TOPO_MAP).testBit f = false → ∃ t, fails f 2 t ∧ kept t) ∧
        (set s F.BRG_FLD_TOPO_MAP f →
          (s.computeOn f = true → ∃ t, works t ∧ kept t) ∧
          (s.computeOn f = false →
            (s.get F.PWR_FLDf_STAT_LOCKED f = 1 → ∃ t, fails f 5 t ∧ kept t) ∧
            (s.get F.PWR_FLDf_STAT_LOCKED f ≠ 1 → reason ≠ 0 →
              ∃ t, fails f (if reason.testBit 3 then 5 else 2) t ∧ kept t) ∧
            (s.get F.PWR_FLDf_STAT_LOCKED f ≠ 1 → reason = 0 → f ∈ o.tripped →
              ∃ t, fails f 5 t ∧ kept t ∧ (t.get F.PWR_FLDf_STAT_REASON f).testBit 3 = true ∧ t.computeOn f = false ∧
                mget 0 t.life.trips f = mget 0 s.life.trips f + 1) ∧
            (s.get F.PWR_FLDf_STAT_LOCKED f ≠ 1 → reason = 0 → f ∉ o.tripped →
              ∃ t, works t ∧ t.computeOn f = true ∧ set t F.BRG_FLD_COMPUTE_MAP f ∧
                (∀ c : Lcn, s.homeField c = f → (∀ n, t.thread c n = Thread.reset) ∧
                  ∀ n, n < 256 → t.readTile c n = 0 ∧ t.tileGood c n = true) ∧
                (∀ c : Lcn, t.backed c = true → t.homeField c = f → t.get F.CORE_CTL_CLK_EN c.toNat = 1))))) ∧
      (let d : Fin 4 := Fin.ofNat 4 (v / 2 ^ 11)
       let n : Fin 2 := Fin.ofNat 2 (v / 2 ^ 13)
       let i : Fin 128 := Fin.ofNat 128 (v / 2 ^ 14)
       let built := set s F.BRG_FLD_TRANSIT_MAP f ∧ set s F.BRG_FLD_SEAMOK_MAP f ∧ set s F.BRG_FLD_TOPO_MAP f ∧
         set s F.BRG_FLD_COMPUTE_MAP f
       let may := hasSeam f d = true ∧ (s.link f d n i).st = .failed ∧ s.linkPasses o (key d n i) = true
       op = 6 → one → (¬built → ∃ t, fails f 2 t ∧ kept t) ∧ (built → ¬may → ∃ t, fails f 6 t ∧ kept t) ∧
        (built → may → ∃ t, works t ∧ kept t ∧ (t.link f d n i).st = .up ∧ key d n i ∈ t.discovered))) ∧
    (let wanted := s.get F.BRG_READY_MARKER ≠ 1 ∧ ∃ f : Fin 64, s.isParked f = false ∧ s.isHole f = false ∧
       ∀ m, m ∈ [F.BRG_FLD_TRANSIT_MAP, F.BRG_FLD_SEAMOK_MAP, F.BRG_FLD_TOPO_MAP, F.BRG_FLD_COMPUTE_MAP] →
         (s.get m).testBit f = true
     (wanted → exec .distanceTableBuilt s =
       .next ({ s with distGen := s.distGen + 2 }.put F.BRG_READY_MARKER 1)) ∧
     (¬wanted → exec .distanceTableBuilt s = .next s))

/-- 16 R573 to R582, Tables 16.4 to 16.8; 14 R525. -/
def Obligations.PartialResetsAndDarning : Prop :=
  (∀ s : State,
    let begun (r : PartialReset) (t : State) : Prop :=
      (s.scopeDarned r = true → t.partialReset = some { r with phase := 0 }) ∧
      (s.scopeDarned r = false → r.scope = 0 → t.partialReset = some { r with phase := 2 }) ∧
      (s.scopeDarned r = false → r.scope ≠ 0 → t.partialReset = some { r with phase := 1 } ∧
        (∀ c n, s.inScope r c = true → (t.thread c n).st ≠ .running ∧ (t.thread c n).st ≠ .stalled ∧
          (t.thread c n).st ≠ .waiting) ∧
        (∀ c n, s.inScope r c = false → t.thread c n = s.thread c n) ∧ t.cores = s.cores ∧ t.sram = s.sram)
    (∀ (c : Lcn) (p : Fin 512) (k : Fin 16),
      let goes (i : Instr) (scope target : Nat) : Prop :=
        let r : PartialReset := { scope, target, phase := 0 }
        (s.get F.CLK_BLKEN_BRG = 1 → s.partialReset ≠ none → exec i s = .next (s.put F.BRG_RSTSTAT_REJ 1)) ∧
        (s.get F.CLK_BLKEN_BRG = 1 → s.partialReset = none → ∃ t, exec i s = .next t ∧ begun r t) ∧
        (s.get F.CLK_BLKEN_BRG ≠ 1 → ∃ t, exec i s = .next t ∧ t.get F.CLK_GATEDERR_LAST = 0x90080 ∧
          s.fieldsKept t [F.CLK_GATEDERR_COUNT, F.CLK_GATEDERR_SAT, F.CLK_GATEDERR_LAST] ∧ { t with regs := s.regs } = s)
      goes (.brgRstCore c) 0 c.toNat ∧ goes (.brgRstPanel p) 1 p ∧ goes (.brgRstPartition k) 2 k ∧ goes .brgRstWafer 3 0) ∧
    (s.partialReset = none → exec .drainEnd s = .next s ∧ exec .drainLimitExpire s = .next s) ∧
    (∀ r, s.partialReset = some r → (r.scope = 0 → r.target < 2 ^ 20) → (r.scope = 1 → r.target < 512) →
      let wiped (t : State) : Prop := t.partialReset = some { r with phase := 2 } ∧
        (∀ c n, s.inScope r c = true → s.backed c = true → t.thread c n = Thread.reset ∧ (t.core c).absorbing = true) ∧
        (∀ c n, s.inScope r c = false → t.thread c n = s.thread c n ∧ t.core c = s.core c)
      (r.phase ≠ 1 → exec .drainEnd s = .next s ∧ exec .drainLimitExpire s = .next s) ∧
      (r.phase = 1 →
        (s.scopeQuiet r = true → ∃ t, exec .drainEnd s = .next t ∧ wiped t) ∧
        (s.scopeQuiet r = false → exec .drainEnd s = .next s) ∧
        ∃ t, exec .drainLimitExpire s = .next t ∧ wiped t ∧
          t.get F.BRG_RSTSTAT_DRAIN_TO = min (s.get F.BRG_RSTSTAT_DRAIN_TO + 1) (2 ^ 16 - 1)) ∧
      (∀ us : BitVec 32, r.phase = 2 → s.waitingResets = [] →
        let ended (i : Instr) : Prop := ∃ t, exec i s = .next t ∧ t.partialReset = none ∧
          t.get F.BRG_RSTSTAT_LAST_SCOPE = r.scope % 4 ∧ t.get F.BRG_RSTSTAT_LAST_US = us.toNat ∧
          t.threads = s.threads ∧ t.sram = s.sram ∧
          ∀ c, s.inScope r c = true → (t.core c).absorbing = false ∧
            ((s.core c).absorbing = true → t.get F.CORE_CTL_CLK_EN c.toNat = 1)
        ended (.resetPhaseEnd none us) ∧
          (∀ c : Lcn, r.scope = 0 → r.target = c.toNat → ended (.resetPhaseEnd (some c) us))) ∧
      (∀ (us : BitVec 32) next l, r.phase = 2 → s.waitingResets = next :: l →
        ∃ t, exec (.resetPhaseEnd none us) s = .next t ∧ t.waitingResets = l ∧
          t.partialReset =
            some { next with phase := if s.scopeDarned next = true then 0 else if next.scope = 0 then 2 else 1 } ∧
          t.get F.BRG_RSTSTAT_LAST_SCOPE = r.scope % 4 ∧ t.get F.BRG_RSTSTAT_LAST_US = us.toNat) ∧
      (∀ us : BitVec 32, r.phase ≠ 2 → exec (.resetPhaseEnd none us) s = .next s)) ∧
    (∀ us : BitVec 32, s.partialReset = none → exec (.resetPhaseEnd none us) s = .next s) ∧
    (∀ (c : Lcn) (us : BitVec 32),
      (∀ r, s.partialReset = some r → r.phase = 2 → s.inScope r c = true → r.scope ≠ 0 →
        exec (.resetPhaseEnd (some c) us) s = .next s) ∧
      ((∀ r, s.partialReset = some r → r.phase = 2 → s.inScope r c = false) →
        ((s.core c).absorbing = false → exec (.resetPhaseEnd (some c) us) s = .next s) ∧
        ((s.core c).absorbing = true → exec (.resetPhaseEnd (some c) us) s =
          .next ((s.setCore c { s.core c with absorbing := false }).put F.CORE_CTL_CLK_EN 1 c.toNat)))) ∧
    (∀ k : Fin 16, ∃ t, exec (.functionLevelReset k) s = .next t ∧
      (let r : PartialReset := { scope := 2, target := k, phase := 0, flr := true }
       (s.partialReset = none → begun r t) ∧
       (s.partialReset ≠ none → t.partialReset = s.partialReset ∧ t.waitingResets = s.waitingResets ++ [r])) ∧
      ∀ f : Fld, F.CXL_LDk_RING_LOG2SIZE.id ≤ f.id → f.id ≤ F.CXL_LDk_APERTURE_PANEL.id →
        ∀ n, n < 2 ^ 12 → t.get f k n = f.rst k n ∧ ∀ j : Fin 16, j ≠ k → t.get f j n = s.get f j n)) ∧
  (∀ s : State,
    let kept (t : State) : Prop := t.threads = s.threads ∧ t.cores = s.cores ∧ t.sram = s.sram
    (∀ (f : Fin 64) (l : Fin 8) (row : Fin 16) (pos : Fin 130), s.get F.CLK_BLKEN_BRG = 1 →
      let p : Position := { field := f, panel := l, row := row, pos := pos }
      ∃ t, exec (.darnRequest f l row pos) s = .next t ∧ kept t ∧ t.darn = s.darn ∧
        t.darnQueue = (if s.darnQueue.length < 64 then s.darnQueue ++ [p] else s.darnQueue) ∧
        t.watch = s.watch.map fun e => if e.at_ = p then { e with condemned := true } else e) ∧
    (∀ (f : Fin 64) (l : Fin 8) (row : Fin 16) (pos : Fin 130), s.get F.CLK_BLKEN_BRG ≠ 1 →
      ∃ t, exec (.darnRequest f l row pos) s = .next t ∧ t.get F.CLK_GATEDERR_LAST = 0x900A0 ∧
        s.fieldsKept t [F.CLK_GATEDERR_COUNT, F.CLK_GATEDERR_SAT, F.CLK_GATEDERR_LAST] ∧ { t with regs := s.regs } = s) ∧
    (s.darn ≠ none ∨ (∀ p, p ∈ s.darnQueue → s.darnable p = false) → exec .darnAction s = .next s) ∧
    (∀ l p r, s.darn = none → s.darnQueue = l ++ p :: r → (∀ q, q ∈ l → s.darnable q = false) → s.darnable p = true →
      ∃ t, exec .darnAction s = .next t ∧ (∃ more, t.darnQueue = l ++ r ++ more) ∧ t.cores = s.cores ∧ t.sram = s.sram ∧
        (s.isBad p = true → t.darn = none ∧ t.badPositions = s.badPositions ∧ t.threads = s.threads ∧
          ∀ e, e ∈ t.watch → e.at_ ≠ p) ∧
        (s.isBad p = false → s.segmentAt p = none → t.darn = none ∧ t.isBad p = true ∧ 1 ∈ t.nvsQueue ∧
          t.threads = s.threads ∧ ∀ e, e ∈ t.watch → e.at_ ≠ p) ∧
        (∀ seg, s.isBad p = false → s.segmentAt p = some seg → ∃ d, t.darn = some d ∧ d.at_ = p ∧ d.segment = some seg ∧
          d.recorded = false ∧ d.lost = [] ∧
          (s.badCount (p.field * 128 + p.panel * 16 + p.row) < 2 → d.kind = 1) ∧
          (2 ≤ s.badCount (p.field * 128 + p.panel * 16 + p.row) → d.dest = s.relocationTarget seg ∧
            d.kind = if (s.relocationTarget seg).isSome then 2 else 3) ∧
          (∀ n o, s.segmentSlot seg = some n → findKey s.slots n = some o → ∀ e, e ∈ o.threads →
            (t.thread e.1 e.2.1).st ≠ .running ∧ (t.thread e.1 e.2.1).st ≠ .stalled ∧
              (t.thread e.1 e.2.1).st ≠ .waiting))) ∧
    (∀ (c : Lcn) (us : BitVec 32), s.darn = none → exec (.darnCopyTimeout c) s = .next s ∧ exec .darnQuiesced s = .next s ∧
      exec (.darnResume us) s = .next s ∧ exec .darnAbandon s = .next s) ∧
    (∀ d seg, s.darn = some d → d.segment = some seg →
      let quiet := d.recorded = false ∧ s.darnQuiet d = true
      let p := d.at_
      (∀ c : Lcn,
        (quiet → c ∈ d.moved → c.toNat ∉ d.lost → exec (.darnCopyTimeout c) s =
          .next ({ s with darn := some { d with lost := d.lost ++ [c.toNat] } }.put F.BRG_DARN_STAT_LOST 1)) ∧
        (¬quiet ∨ c ∉ d.moved ∨ c.toNat ∈ d.lost → exec (.darnCopyTimeout c) s = .next s)) ∧
      (¬quiet → exec .darnQuiesced s = .next s) ∧
      (quiet → ∃ t, exec .darnQuiesced s = .next t ∧ t.darn = some { d with recorded := true } ∧ 1 ∈ t.nvsQueue ∧
        (d.lost = [] → kept t) ∧
        (∀ (c : Lcn) n, c.toNat ∈ d.lost → (t.thread c n).st = .trapped ∧ t.get F.CORE_TRAPn_CAUSE c.toNat n = 4) ∧
        (d.kind = 1 → p.pos ∈ t.rowBad (p.field * 128 + p.panel * 16 + p.row) ∧ t.relocations = s.relocations ∧
          t.get F.BRG_DARN_STAT_LAST_KIND = 1) ∧
        (∀ r, d.kind = 2 → d.dest = some r → r.lrow * 8 + r.fx = seg →
          t.rowOfSegment seg = (r.gfy * 8 + r.gfx) * 128 + 112 + r.grow ∧ t.get F.BRG_DARN_STAT_LAST_KIND = 2 ∧
          ∀ q, q ≠ seg → t.rowOfSegment q = s.rowOfSegment q) ∧
        (d.kind = 3 → s.columnAt p < 128 →
          (posOf (seg / 8) (seg % 8 * 128 + s.columnAt p)).toNat ∈ t.fenced ∧ p ∈ t.heldBad ∧
            t.relocations = s.relocations ∧ t.get F.BRG_DARN_STAT_LAST_KIND = 3)) ∧
      (∀ us : BitVec 32,
        let durable := d.recorded = true ∧ s.repairDurable = true
        (¬durable → exec (.darnResume us) s = .next s) ∧
        (durable → ∃ t, exec (.darnResume us) s = .next t ∧ t.darn = none ∧ t.life.darns = s.life.darns + 1 ∧
          t.get F.BRG_DARN_STAT_LAST_US = us.toNat ∧ ∀ e, e ∈ t.watch → e.at_ ≠ p)) ∧
      (let gone (f : Nat) : Prop := s.computeOn f = false ∨ s.isHole f = true
       let lost := gone p.field ∨ ∃ r, d.dest = some r ∧ gone (r.gfy * 8 + r.gfx)
       (¬lost → exec .darnAbandon s = .next s) ∧
       (lost → ∃ t, exec .darnAbandon s = .next t ∧ t.darn = none ∧ p ∈ t.darnQueue ∧
         (s.get F.BRG_DARN_COUNT_ABANDONED + 1 < 2 ^ 15 →
           t.get F.BRG_DARN_COUNT_ABANDONED = s.get F.BRG_DARN_COUNT_ABANDONED + 1)))))

/-- 20 R648 to R666. The order of negotiation and the layout of the answers are the model's (log entry 21). -/
def Obligations.TrustAndStore : Prop :=
  ∀ s : State,
    let slot := 1 - s.get F.THM_STAT_SLOT
    let runs := s.get F.THM_STAT_VERIFIED = 1
    let status := [F.THM_UPD_CMD_OP, F.THM_UPD_CMD_OFFSET, F.THM_UPD_STAT_DONE, F.THM_UPD_STAT_ERR, F.THM_UPD_STAT_ERRCODE]
    let done (t : State) (code : Nat) : Prop := t.get F.THM_UPD_STAT_DONE = 1 ∧
      (code = 0 → t.get F.THM_UPD_STAT_ERR = s.get F.THM_UPD_STAT_ERR ∧
        t.get F.THM_UPD_STAT_ERRCODE = s.get F.THM_UPD_STAT_ERRCODE) ∧
      (code ≠ 0 → t.get F.THM_UPD_STAT_ERR = 1 ∧ t.get F.THM_UPD_STAT_ERRCODE = code)
    (∀ (off : BitVec 10) (k : SlotCheck),
      (¬runs → ∀ i, i ∈ [Instr.chunk off, .fwUpdateFinish k, .raiseMinver] → ∃ t, exec i s = .next t ∧
        s.fieldsKept t [F.THM_UPD_CMD_OP, F.THM_UPD_CMD_OFFSET] ∧ { t with regs := s.regs } = s) ∧
      (runs → ∃ t, exec (.chunk off) s = .next t ∧ done t 0 ∧ t.get F.THM_FWSLOTn_VALID 0 slot = 0 ∧
        s.fieldsKept t (F.THM_FWSLOTn_VALID :: status) ∧
        { t with regs := s.regs, firmware := s.firmware, fwRuns := s.fwRuns } = s ∧
        t.fwRuns = s.fwRuns ++ [(slot * 2 ^ 22 + off.toNat * 4096, 4096)] ∧
        ∀ a, let base := slot * 2 ^ 22 + off.toNat * 4096
          mget 0 t.firmware a =
            if base ≤ a ∧ a < base + 4096 then mget 0 s.updBuf (a - base) else mget 0 s.firmware a) ∧
      (runs → ∃ t, exec (.fwUpdateFinish k) s = .next t ∧
        (let found := s.slotFound slot k
         let old := found.version.toNat < s.get F.THM_MINVER_MIN
         (s.slotWritten slot 0 512 = false → found = k) ∧
          (s.slotWritten slot 0 512 = true → found.version.toNat = s.slotField slot 4 4 % 2 ^ 32 ∧
            (s.headerOk slot = false → found.failed = some 0)) ∧
          done t (match found.failed with | some n => n.val + 3 | none => if old then 7 else 0) ∧
          t.get F.THM_FWSLOTn_VALID 0 slot = (if found.failed = none ∧ ¬old then 1 else 0) ∧
          t.get F.THM_FWSLOTn_VERSION 0 slot = found.version.toNat) ∧
        s.fieldsKept t ([F.THM_FWSLOTn_VALID, F.THM_FWSLOTn_VERSION] ++ status) ∧ { t with regs := s.regs } = s) ∧
      (runs → s.get F.THM_STAT_VERSION < 2 ^ 32 → s.get F.THM_MINVER_MIN < 2 ^ 32 →
        ∃ t, exec .raiseMinver s = .next t ∧ done t 0 ∧
          t.get F.THM_MINVER_MIN = max (s.get F.THM_MINVER_MIN) (s.get F.THM_STAT_VERSION) ∧
          s.fieldsKept t (F.THM_MINVER_MIN :: status) ∧ { t with regs := s.regs } = s)) ∧
    (∀ (ld : Fin 16) (offered : BitVec 4) (certificate : Fin 8) (index : BitVec 8) (stream : Fin 17),
      let x := mget {} s.spdm ld.val
      let up := s.get F.CXL_LINKSTAT_STATE = 2 ∧ runs
      let tells (n : Nat) (ok : Bool) (len data : Nat) : List HostAnswer :=
        s.answers ++ [HostAnswer.mk ld (16 + n) ok len data]
      let asks (i : Instr) (n : Nat) (ok : Prop) (y : Spdm) (len data : Nat) : Prop :=
        (¬up → exec i s = .next s) ∧
        (up → ¬ok → exec i s = .next { s with answers := tells n false 0 0 }) ∧
        (up → ok → exec i s = .next { s with spdm := mset {} s.spdm ld.val y, answers := tells n true len data })
      let ready := x.stage = 3
      let alias_ := s.get F.THM_STAT_ALIAS = 1
      let written (k : Nat) : Option (BitVec 256) := (s.sect k).winner.map fun w => sm3 (Config.storeBytes k w.2.2)
      let measured (j : Nat) : Nat := ((if j = 2 then s.imageDigest else if j = 4 then written 1
        else if j = 5 then written 2 else none).getD
          (Config.measurement j (if j = 2 then s.get F.THM_STAT_VERSION else 0))).toNat
      asks (.getVersion ld) 0 True { x with stage := 1 } 2 0x1312 ∧
      asks (.getCapabilities ld) 1 (1 ≤ x.stage) { x with stage := 2 } 0 0 ∧
      asks (.negotiateAlgorithms ld offered) 2 (2 ≤ x.stage ∧ offered ≠ 0) { x with stage := 3 } 1 offered.toNat ∧
      asks (.getDigests ld) 3 ready x 0 0 ∧
      asks (.getCertificate ld certificate) 4 (ready ∧ certificate = 0) x 0 0 ∧
      asks (.challenge ld certificate) 5 (ready ∧ certificate = 0 ∧ alias_) x 0 0 ∧
      (index = 0 → asks (.getMeasurements ld index) 6 (ready ∧ alias_) x 1 5) ∧
      (index = 255 → asks (.getMeasurements ld index) 6 (ready ∧ alias_) x 160
        (measured 1 + measured 2 * 2 ^ 256 + measured 3 * 2 ^ 512 + measured 4 * 2 ^ 768 + measured 5 * 2 ^ 1024)) ∧
      (1 ≤ index.toNat → index.toNat ≤ 5 →
        asks (.getMeasurements ld index) 6 (ready ∧ alias_) x 32 (measured index.toNat)) ∧
      (6 ≤ index.toNat → index.toNat < 255 → asks (.getMeasurements ld index) 6 False x 0 0) ∧
      asks (.keyExchange ld) 7 (ready ∧ x.session = none) { x with session := some false } 0 0 ∧
      asks (.finish ld) 8 (x.session = some false) { x with session := some true } 0 0 ∧
      asks (.endSession ld) 9 (x.session = some true) { x with session := none } 0 0 ∧
      asks (.heartbeat ld) 10 (x.session = some true) x 0 0 ∧
      (let ok := x.session = some true ∧ if stream = 16 then ld = 0 else stream.val = ld.val
       (¬up → exec (.ideKm ld stream) s = .next s) ∧
        (up → ¬ok → exec (.ideKm ld stream) s = .next { s with answers := tells 11 false 0 0 }) ∧
        (up → ok → ∃ t, exec (.ideKm ld stream) s = .next t ∧ t.answers = tells 11 true 0 0 ∧
          ∀ n, n ∈ t.ideKeys ↔ n ∈ s.ideKeys ∨ n = stream.val))) ∧
    (s.get F.NVS_STAT_LOADED ≠ 1 → exec .lifeUpdate s = .next s) ∧
    (s.get F.NVS_STAT_LOADED = 1 → ∃ t, exec .lifeUpdate s = .next t ∧
      t.life = { s.life with hours := s.life.hours + 1 } ∧ 5 ∈ t.nvsQueue ∧
      { t with life := s.life, nvsQueue := s.nvsQueue } = s) ∧
    (∃ t, exec .flush s = .next t ∧ { t with nvsQueue := s.nvsQueue } = s ∧
      ∀ k, k ∈ t.nvsQueue ↔ k ∈ s.nvsQueue ∨ (k ∈ [1, 3, 4, 5] ∧ s.isDirty k = true)) ∧
    (s.nvsWrite ≠ none → exec .nvsSwRst s = .next { s.put F.RST_BLOCK_NVS 1 with nvsResetWaits := true }) ∧
    (s.nvsWrite = none → ∃ t, exec .nvsSwRst s = .next t ∧ t.get F.NVS_STAT_EQSEQ = 0 ∧ t.get F.NVS_STAT_WRITES = 0 ∧
      t.get F.RST_BLOCK_NVS = 0 ∧ t.nvsResetWaits = false ∧
      s.fieldsKept t [F.NVS_STAT_EQSEQ, F.NVS_STAT_WRITES, F.RST_BLOCK_NVS] ∧
      { t with regs := s.regs, nvsResetWaits := s.nvsResetWaits, ticked := s.ticked } = s) ∧
    (let may := s.nvsWrite = none ∧ s.get F.NVS_STAT_LOADED = 1 ∧ s.get F.NVS_STAT_LOSS ≠ 1
     (¬may ∨ (∀ k, k ∈ [1, 3, 4, 5] → k ∉ s.nvsQueue) → exec .nvsSectionWrite s = .next s) ∧
     (∀ k, may → k ∈ [1, 3, 5, 4] → k ∈ s.nvsQueue →
       (∀ j, j ∈ s.nvsQueue → j ∈ [1, 3, 5, 4] → [1, 3, 5, 4].idxOf k ≤ [1, 3, 5, 4].idxOf j) →
       ∃ t, exec .nvsSectionWrite s = .next t ∧ t.nvsWrite = some { id := k, content := s.payload k } ∧
         t.nvsQueue = s.nvsQueue.filter (fun j => j != k) ∧ t.get F.NVS_STAT_BUSY = 1 ∧ t.get F.NVS_STAT_SECT = k ∧
         (∀ b n p, (s.sect k).winner = some (b, n, p) → (t.sect k).winner = some (b, n, p) ∧
           (if b then (t.sect k).a else (t.sect k).b) = .broken) ∧
         ∀ j, j ≠ k → t.sect j = s.sect j)) ∧
    (s.nvsWrite = none → exec .nvsWriteDurable s = .next s) ∧
    (∀ w, s.nvsWrite = some w → w.id ∈ [1, 3, 4, 5] → ∃ t, exec .nvsWriteDurable s = .next t ∧ t.nvsWrite = none ∧
      t.get F.NVS_STAT_BUSY = 0 ∧ t.get F.NVS_STAT_WRITES = (s.get F.NVS_STAT_WRITES + 1) % 2 ^ 32 ∧
      (∃ b n, (t.sect w.id).winner = some (b, n, w.content) ∧
        (if b then (t.sect w.id).a else (t.sect w.id).b) = .blank ∧
        ∀ c m p, (s.sect w.id).winner = some (c, m, p) → b = !c ∧ n = (m + 1) % 2 ^ 32) ∧
      (w.id ∈ t.nvsQueue ↔ w.id ∈ s.nvsQueue ∨ s.payload w.id ≠ w.content) ∧
      ∀ j, j ≠ w.id → t.sect j = s.sect j ∧ (j ∈ t.nvsQueue ↔ j ∈ s.nvsQueue))

/-- 21 R675 to R684; 17 R589. Unstated layouts and ties are the model's (log entry 22). -/
def Obligations.ManagementBus : Prop :=
  ∀ s : State,
    let on := s.mgmtOn = true
    let valid := s.get F.MGT_STAT_DA_VALID = 1
    let has := on ∧ valid
    let stays (i : Instr) : Prop := exec i s = .next s
    let tells (kind : Nat) (ok : Bool) (len data : Nat) : List HostAnswer := s.answers ++ [HostAnswer.mk 0 kind ok len data]
    let le (n v : Nat) : List Nat := (List.range n).map fun i => v / 256 ^ i % 256
    let number (l : List (BitVec 8)) : Nat := l.foldr (fun b n => b.toNat + 256 * n) 0
    let only (t : State) (l : List Fld) : Prop := s.fieldsKept t l ∧ { t with regs := s.regs } = s
    (∀ (addr : BitVec 7) (others : List Word),
      let own := s.get F.MGT_PID_PID * 2 ^ 16 + s.get F.MGT_PID_BCR * 2 ^ 8 + s.get F.MGT_PID_DCR
      let wins := on ∧ ¬valid ∧ ∀ o, o ∈ others → own ≤ o.toNat
      let twin := ∃ o, o ∈ others ∧ o.toNat / 2 ^ 16 = own / 2 ^ 16
      (¬wins → stays (.entdaa addr others)) ∧
      (wins → ¬twin → ∃ t, exec (.entdaa addr others) s = .next t ∧ t.get F.MGT_STAT_DA = addr.toNat ∧
        t.get F.MGT_STAT_DA_VALID = 1 ∧ only t [F.MGT_STAT_DA, F.MGT_STAT_DA_VALID]) ∧
      (wins → twin → ∃ t, exec (.entdaa addr others) s = .next t ∧ t.get F.MGT_STAT_DA_VALID = 1 ∧
        s.fieldsKept t [F.MGT_STAT_DA, F.MGT_STAT_DA_VALID] ∧
        { t with regs := s.regs, freeCtr := s.freeCtr } = s)) ∧
    (¬has → stays .rstdaa) ∧
    (has → exec .rstdaa s = .next ((s.put F.MGT_STAT_DA_VALID 0).put F.MGT_STAT_DA 0)) ∧
    (∀ byte : BitVec 8,
      let ccc (i : Instr) (t : State) (len data : Nat) : Prop :=
        (¬on → stays i) ∧ (on → ¬valid → exec i s = .next { s with answers := tells 33 false 0 0 }) ∧
          (has → exec i s = .next { t with answers := tells 33 true len data })
      ccc .enec (s.put F.MGT_STAT_IBI_EN 1) 0 0 ∧
      ccc .disec { s.put F.MGT_STAT_IBI_EN 0 with mgt := { s.mgt with ibis := [] } } 0 0 ∧
      ccc .getpid s 6 (s.get F.MGT_PID_PID) ∧ ccc .getbcr s 1 (s.get F.MGT_PID_BCR) ∧
      ccc .getdcr s 1 (s.get F.MGT_PID_DCR) ∧ ccc .getmwl s 2 256 ∧ ccc .getmrl s 2 64 ∧
      ccc (.rstact byte) { s with mgt := { s.mgt with rstact := some byte.toNat } } 0 0 ∧
      (∃ v : BitVec 16, ccc .getstatus { s with freeCtr := s.freeCtr + 1 } 2 v.toNat) ∧
      (¬on → stays .unsupportedCcc) ∧
      (on → exec .unsupportedCcc s = .next { s with answers := tells 33 false 0 0 })) ∧
    (∀ wins : Bool, (s.mgt.ibis = [] → stays (.ibi wins)) ∧
      ∀ code rest, s.mgt.ibis = code :: rest →
        let goes := wins = true ∧ has ∧ s.get F.MGT_STAT_IBI_EN = 1
        (¬goes → stays (.ibi wins)) ∧
        (goes → exec (.ibi wins) s =
          .next { s with mgt := { s.mgt with ibis := rest }, answers := tells 34 true 1 code })) ∧
    (∀ (seq : BitVec 8) (args : List (BitVec 8)) (inlet outlet : BitVec 16) (k : SlotCheck),
      let n := args.length
      let x := number args
      let failed := s.get F.RST_STAT_THIMBLE_FAIL = 1
      let counted (t : State) (status : Nat) (data : List Nat) (l : List Fld) : Prop :=
        t.mgt.response = some (status, seq.toNat, data) ∧
          t.get F.MGT_STAT_CMDS = (s.get F.MGT_STAT_CMDS + 1) % 2 ^ 32 ∧ s.fieldsKept t (F.MGT_STAT_CMDS :: l)
      let plain (t : State) : Prop := { t with regs := s.regs, mgt := { t.mgt with response := s.mgt.response } } = s
      let answers (i : Instr) (status : Nat) (data : List Nat) : Prop :=
        ∃ t, exec i s = .next t ∧ counted t status data [] ∧ plain t
      let served (i : Instr) (may length range : Prop) : Prop :=
        (¬has → stays i) ∧ (has → ¬may → answers i 5 []) ∧ (has → may → ¬length → answers i 3 []) ∧
          (has → may → length → ¬range → answers i 4 [])
      served (.getStatus seq args) True (n = 0) True ∧
      (has → n = 0 → ∃ data, answers (.getStatus seq args) 0 data ∧ data.length = 24 ∧
        data[1]? = some (s.get F.RST_STAT_STEP) ∧
        data[2]? = some (s.get F.RST_CAUSE_CODE % 2 ^ 4 + s.get F.RST_CAUSE_DELAYED % 2 * 2 ^ 4 +
          s.get F.RST_CAUSE_MERGED % 2 * 2 ^ 5) ∧
        data[3]? = some (s.get F.RST_CAUSE_DETAIL % 2 ^ 8) ∧ data[4]? = some (s.get F.PWR_STAT_LEVEL) ∧
        data[5]? = some (s.get F.PWR_STAT_UNATTAIN + bit s.fault * 2 + (if failed then 4 else 0) +
          s.get F.MGT_STAT_CAP_LOST * 8) ∧
        data.drop 8 = le 8 (s.get F.TRD_COUNT_COUNT) ++ le 4 (s.get F.THM_STAT_VERSION) ++ le 4 (s.get F.PWR_MEAS_AVG_W)) ∧
      served (.getId seq args) True (n = 0) True ∧
      (has → n = 0 → answers (.getId seq args) 0 (le 6 (s.get F.MGT_PID_PID) ++
        [s.get F.MGT_PID_BCR, s.get F.MGT_PID_DCR, 0x59, 0x54, 0x2D, 0x47, 0x4E, 0x4B, 0x31, 0])) ∧
      served (.setCap seq args) (¬failed) (n = 4) (1000 ≤ x ∧ x ≤ 40000) ∧
      (has → ¬failed → n = 4 → 1000 ≤ x → x ≤ 40000 → ∃ t, exec (.setCap seq args) s = .next t ∧ plain t ∧
        counted t 0 [] [F.PWR_CAP_RACK, F.MGT_STAT_CAP_LOST] ∧ t.get F.PWR_CAP_RACK = x ∧ t.get F.MGT_STAT_CAP_LOST = 0) ∧
      served (.getPower seq args) (¬failed) (n = 0) True ∧
      (has → ¬failed → n = 0 → answers (.getPower seq args) 0
        (le 4 (s.get F.PWR_MEAS_AVG_W) ++ le 2 (s.get F.PWR_MEAS_VIN_MV) ++ le 2 (s.get F.PWR_MEAS_IIN_A) ++
          le 4 (s.get F.PWR_CAP_EFF) ++ [s.get F.PWR_STAT_LEVEL, s.get F.PWR_STAT_W,
            ((List.range 64).filter fun f => s.isParked f && s.get F.PWR_FLDf_STAT_REASON f != 0).length, 0])) ∧
      served (.getTherm seq args) (¬failed) (n = 1) (x < 64) ∧
      (has → ¬failed → n = 1 → x < 64 → answers (.getTherm seq args) 0
        [s.get F.PWR_FLDf_STAT_TEMP x, s.get F.PWR_FLDf_STAT_TCEIL x, s.get F.PWR_FLDf_STAT_REASON x, 0]) ∧
      (let i := Instr.getCoolant seq args inlet outlet
       let shown := [F.MGT_COOLANT_INLET, F.MGT_COOLANT_OUTLET]
       let gives (status : Nat) (data : List Nat) : Prop := ∃ t, exec i s = .next t ∧ counted t status data shown ∧ plain t ∧
         t.get F.MGT_COOLANT_INLET = inlet.toNat ∧ t.get F.MGT_COOLANT_OUTLET = outlet.toNat
       (¬has → stays i) ∧ (has → failed → gives 5 []) ∧ (has → ¬failed → n ≠ 0 → gives 3 []) ∧
        (has → ¬failed → n = 0 → gives 0 (le 2 inlet.toNat ++ le 2 outlet.toNat))) ∧
      (let p := bar0At x
       served (.readReg seq args) (¬failed) (n = 4) (x % 8 = 0 ∧ x < 0x100000) ∧
       (has → ¬failed → n = 4 → x % 8 = 0 → x < 0x100000 →
        (s.placeClocked p = false → ∃ t, exec (.readReg seq args) s = .next t ∧ plain t ∧
          counted t 6 [] [F.CLK_GATEDERR_COUNT, F.CLK_GATEDERR_SAT, F.CLK_GATEDERR_LAST] ∧
          t.get F.CLK_GATEDERR_LAST = x) ∧
        (s.placeClocked p = true → ∃ t v, exec (.readReg seq args) s = .next t ∧ counted t 0 (le 8 v) [] ∧
          plain { t with freeCtr := s.freeCtr } ∧ (∀ b, p = .empty b → v = 0) ∧
          (∀ r u m, p = .reg r u m → v = (s.put F.MGT_STAT_CMDS (s.get F.MGT_STAT_CMDS + 1)).readReg r u m)))) ∧
      served (.fwBegin seq args) failed (n = 1) (x < 2) ∧
      (has → failed → n = 1 → x < 2 → ∃ t, exec (.fwBegin seq args) s = .next t ∧ counted t 0 [] [F.THM_FWSLOTn_VALID] ∧
        t.mgt.slot = some x ∧ plain { t with mgt := { t.mgt with slot := s.mgt.slot } } ∧
        t.get F.THM_FWSLOTn_VALID 0 x = 0) ∧
      (s.mgt.slot = none → served (.fwChunk seq args) False True True ∧ served (.fwFinish seq args k) False True True) ∧
      (∀ slot, s.mgt.slot = some slot →
        let off := number (args.take 4)
        served (.fwChunk seq args) failed (5 ≤ n ∧ n ≤ 252) (off % 4 = 0 ∧ off + (n - 4) ≤ 2 ^ 22) ∧
        (has → failed → 5 ≤ n → n ≤ 252 → off % 4 = 0 → off + (n - 4) ≤ 2 ^ 22 → slot < 2 →
          ∃ t, exec (.fwChunk seq args) s = .next t ∧ counted t 0 [] [F.THM_FWSLOTn_VALID] ∧
            t.get F.THM_FWSLOTn_VALID 0 slot = 0 ∧ plain { t with firmware := s.firmware, fwRuns := s.fwRuns } ∧
            ∀ a, let base := slot * 2 ^ 22 + off
              mget 0 t.firmware a = if base ≤ a ∧ a < base + (n - 4) then (args.drop 4).getD (a - base) 0
                else mget 0 s.firmware a) ∧
        served (.fwFinish seq args k) failed (n = 0) True ∧
        (has → failed → n = 0 → slot < 2 → ∃ t, exec (.fwFinish seq args k) s = .next t ∧ plain t ∧
          (let found := s.slotFound slot k
           let old := found.version.toNat < s.get F.THM_MINVER_MIN
           counted t 0 [match found.failed with | some m => m.val + 1 | none => if old then 5 else 0]
            [F.THM_FWSLOTn_VALID, F.THM_FWSLOTn_VERSION] ∧
           t.get F.THM_FWSLOTn_VALID 0 slot = (if found.failed = none ∧ ¬old then 1 else 0) ∧
           t.get F.THM_FWSLOTn_VERSION 0 slot = found.version.toNat)))) ∧
    (s.mgt.response = none → (¬on → stays .mgtResponseRead) ∧
      (on → exec .mgtResponseRead s = .next { s with answers := tells 32 false 0 0 })) ∧
    (∀ status seq data, s.mgt.response = some (status, seq, data) → (¬has → stays .mgtResponseRead) ∧
      (has → ∃ v, exec .mgtResponseRead s = .next { s with answers := tells 32 true (3 + data.length) v } ∧
        (status < 256 → seq < 256 → data.length < 256 → (∀ b, b ∈ data → b < 256) →
          le (3 + data.length) v = status :: seq :: data.length :: data))) ∧
    (∀ eligible lk more : BitVec 8,
      let l := (List.range 8).filter fun q => eligible.getLsbD q
      (l = [] → stays (.mgtBusArbitrate eligible lk more)) ∧
      (l ≠ [] → ∃ t q, exec (.mgtBusArbitrate eligible lk more) s = .next t ∧ q ∈ l ∧
        (let waits (r : Nat) := mget 0 s.mgt.waits r
         let long (r : Nat) := s.get F.MGT_ARBCFG_WAIT_LIMIT ≤ waits r
         let rank (r : Nat) := min 3 (s.get F.MGT_RANK_RANKq 0 r)
         let owner (o : Nat) := ∃ k, s.mgt.lock = some k ∧ k.panel = o ∧ o ∈ l
         let marked := (q = 1 ∨ q = 4) ∧ lk.getLsbD q = true
         let mine := ∃ k, s.mgt.lock = some k ∧ k.panel = q
         let grants := match s.mgt.lock with | some k => if k.panel = q then k.grants + 1 else 1 | none => 1
         let last := s.get F.MGT_ARBCFG_LOCK_MAX ≤ grants
         (∀ o, owner o → q = o) ∧
         ((¬∃ o, owner o) → (∃ r, r ∈ l ∧ long r) → ∀ r, r ∈ l → waits r ≤ waits q) ∧
         ((¬∃ o, owner o) → (∀ r, r ∈ l → ¬long r) → ∀ r, r ∈ l → rank q ≤ rank r) ∧
         t.mgt.pointer = (q + 1) % 8 ∧
         (∀ r, mget 0 t.mgt.waits r = if r = q then 0 else if r ∈ l then waits r + 1 else waits r) ∧
         (marked → ¬last → more.getLsbD q = true → t.mgt.lock = some { panel := q, grants }) ∧
         (marked → last ∨ more.getLsbD q = false → t.mgt.lock = none) ∧
         (¬marked → mine → t.mgt.lock = none) ∧ (¬marked → ¬mine → t.mgt.lock = s.mgt.lock)) ∧
        s.fieldsKept t [F.MGT_ARBSTAT_FORCED, F.MGT_ARBSTAT_LOCKMAX, F.MGT_ARBSTAT_SAT] ∧
        { t with regs := s.regs, mgt := s.mgt } = s)) ∧
    (s.get F.CLK_BLKEN_WAF = 1 → ∃ t, exec .mgtSwRst s = .next t ∧ { t with regs := s.regs, ticked := s.ticked } = s ∧
      ∀ (f : Fld) (u n : Nat), u < 2 ^ 20 → n < 2 ^ 12 →
        let kept := f.id ∈ [F.MGT_STAT_DA_VALID, F.MGT_STAT_DA, F.MGT_PID_PID, F.MGT_PID_BCR, F.MGT_PID_DCR].map Fld.id
        let mgt := F.MGT_CTL_SW_RST.id ≤ f.id ∧ f.id ≤ F.MGT_COOLANT_OUTLET.id
        t.get f u n = if mgt ∧ ¬kept then f.rst u n else s.get f u n)

/-- 17 R584 to R596, Tables 17.1 to 17.3; 18 R610, R623; 19 R643, R647; 20 R651, R652. -/
def Obligations.Resets : Prop :=
  (∀ s : State,
    let stays (i : Instr) : Prop := exec i s = .next s
    let keeps (t : State) : Prop := t.threads = s.threads ∧ t.cores = s.cores ∧ t.sram = s.sram ∧ t.fab = s.fab
    let fields := [F.RST_CAUSE_CODE, F.RST_CAUSE_DELAYED, F.RST_CAUSE_MERGED, F.RST_CAUSE_DETAIL, F.RST_STAT_STEP,
      F.RST_STAT_RESETS]
    let asserts (i : Instr) (code detail : Nat) (reach : Reach) (start : Nat) (held : Bool) : Prop :=
      ∃ t r, exec i s = .next t ∧ keeps t ∧ t.resetRun = some r ∧ t.get F.RST_CAUSE_CODE = code ∧
        t.get F.RST_CAUSE_DETAIL = detail ∧ t.get F.RST_CAUSE_MERGED = (if s.resetRun = none then 0 else 1) ∧
        t.get F.RST_STAT_STEP = 0 ∧ t.get F.RST_CAUSE_DELAYED = (if r.delayed then 1 else 0) ∧
        t.life.resets = s.life.resets + (if r.reach.mgmt then 0 else 1) ∧
        (s.resetRun = none → r = ResetRun.mk reach (some 1) start start 0 (if held then [code] else [])
          (reach.mgmt && s.nvsWrite.isSome)) ∧
        (∀ q, s.resetRun = some q →
          r.reach = ⟨q.reach.mgmt || reach.mgmt, q.reach.i3c || reach.i3c, q.reach.host || reach.host,
            q.reach.fields || reach.fields⟩ ∧
          r.start = min q.start start ∧ r.release = min q.start start ∧ r.group = 0 ∧
          r.delayed = (q.delayed || (reach.mgmt && s.nvsWrite.isSome)) ∧
          (∀ c, c ∈ r.sources ↔ c ∈ q.sources ∨ (held = true ∧ c = code)) ∧
          r.assertStep = match q.assertStep with
            | some k => if r.reach = q.reach then some k else some (min k 4)
            | none => some 1)
    let counts (i : Instr) (l : List Fld) : Prop := ∀ t, exec i s = .next t →
      t.get F.RST_STAT_RESETS = (s.get F.RST_STAT_RESETS + 1) % 2 ^ 32 ∧ s.fieldsKept t (l ++ fields)
    let all : Reach := ⟨true, true, true, true⟩
    (∀ falling : Bool, asserts (.powerOn falling) 1 0 all 1 falling ∧
      ∀ t, exec (.powerOn falling) s = .next t → t.get F.RST_STAT_RESETS = 0 ∧ t.get F.RST_STAT_NVS_WAIT_US = 0 ∧
        (∀ f : Fin 64, t.get F.PWR_FLDf_STAT_TRIPS f = 0 ∧ t.get F.PWR_FLDf_STAT_LOCKED f = 0) ∧
        s.fieldsKept t ([F.RST_STAT_NVS_WAIT_US, F.PWR_FLDf_STAT_TRIPS, F.PWR_FLDf_STAT_LOCKED] ++ fields)) ∧
    asserts .supply 2 0 ⟨false, false, true, true⟩ 5 true ∧ counts .supply [] ∧
    asserts .pinReset 3 0 all 1 true ∧ counts .pinReset [] ∧
    (s.mgt.rstact ≠ some 2 → stays .i3cTargetReset) ∧
    (s.mgt.rstact = some 2 → asserts .i3cTargetReset 4 2 all 1 false ∧ counts .i3cTargetReset []) ∧
    (s.mgt.rstact ≠ some 1 → stays .i3cPeriphReset) ∧
    (s.mgt.rstact = some 1 → ∃ t, exec .i3cPeriphReset s = .next t ∧ keeps t ∧ t.resetRun = s.resetRun ∧
      t.get F.RST_CAUSE_CODE = 5 ∧ t.get F.RST_CAUSE_DETAIL = 1 ∧ t.get F.MGT_STAT_DA_VALID = 0 ∧
      t.get F.MGT_STAT_DA = 0 ∧ t.get F.MGT_STAT_IBI_EN = 0 ∧ t.mgt.rstact = none ∧ t.mgt.ibis = [] ∧
      t.mgt.response = none ∧ t.get F.RST_STAT_RESETS = (s.get F.RST_STAT_RESETS + 1) % 2 ^ 32) ∧
    (s.get F.THM_STAT_VERIFIED ≠ 1 → stays .watchdog) ∧
    (s.get F.THM_STAT_VERIFIED = 1 → asserts .watchdog 6 0 all 1 false ∧ counts .watchdog []) ∧
    (∀ key : BitVec 16,
      (key ≠ 0xA5C3 → exec (.hostModule key) s = .next (s.put F.RST_STAT_KEYERR 1) ∧
        exec (.hostFabric key) s = .next (s.put F.RST_STAT_KEYERR 1)) ∧
      (key = 0xA5C3 → asserts (.hostModule key) 7 0 ⟨false, false, true, true⟩ 5 false ∧ counts (.hostModule key) [] ∧
        asserts (.hostFabric key) 8 0 ⟨false, false, false, true⟩ 7 false ∧ counts (.hostFabric key) [])) ∧
    exec .rstSwRst s = .next ((s.put F.RST_STAT_KEYERR 0).put F.RST_STAT_RESETS 0) ∧
    (∀ code : Fin 9, (s.resetRun = none → stays (.resetSourceWithdrawn code)) ∧
      ∀ r, s.resetRun = some r → exec (.resetSourceWithdrawn code) s =
        .next { s with resetRun := some { r with sources := r.sources.filter fun c => c != code.val } }) ∧
    (∀ (us : BitVec 8) (header : Bool),
      (s.nvsResetWaits = false → (∀ r, s.resetRun = some r → r.delayed = false) → stays (.writePulseEnd us header)) ∧
      (s.nvsResetWaits = true → ∃ t, exec (.writePulseEnd us header) s = .next t ∧ t.nvsResetWaits = false ∧
        t.get F.NVS_STAT_WRITES = 0 ∧ t.get F.NVS_STAT_EQSEQ = 0 ∧ t.get F.RST_BLOCK_NVS = 0) ∧
      (∀ r, s.resetRun = some r → r.delayed = true → ∃ t, exec (.writePulseEnd us header) s = .next t ∧ keeps t ∧
        t.resetRun = some { r with delayed := false } ∧ t.nvsWrite = none ∧ t.nvsQueue = [] ∧
        (s.get F.RST_STAT_NVS_WAIT_US < 2 ^ 8 →
          t.get F.RST_STAT_NVS_WAIT_US = max (s.get F.RST_STAT_NVS_WAIT_US) us.toNat) ∧
        (header = false → t.store = s.store) ∧
        (∀ w b n p, header = true → s.nvsWrite = some w → (s.sect w.id).winner = some (b, n, p) →
          (t.sect w.id).winner = some (!b, (n + 1) % 2 ^ 32, w.content) ∧ ∀ j, j ≠ w.id → t.sect j = s.sect j)))) ∧
  (∀ (s : State) (k0 k1 : SlotCheck),
    let stays (i : Instr) : Prop := exec i s = .next s
    let a := Instr.resetAssertStep
    let b := Instr.resetReleaseStep k0 k1
    (s.resetRun = none → stays a ∧ stays b) ∧
    (∀ r, s.resetRun = some r →
      (r.assertStep = none ∨ r.delayed = true → stays a) ∧
      (∀ k, r.assertStep = some k → r.delayed = false → 1 ≤ k → k ≤ 6 →
        let next := { r with assertStep := if k = 6 then none else some (k + 1) }
        let moved (t : State) : Prop := exec a s = .next t ∧ t.resetRun = some next
        let off (t : State) (i : Nat) : Prop := t.domainOn i = false
        (k = 1 → ∃ t, moved t ∧
          t.get F.RST_CAUSE_TR = (if s.get F.RST_CAUSE_CODE = 1 ∨ s.get F.BRG_READY_TREADLE ≠ 1 then 0
            else s.get F.TRD_COUNT_COUNT % 2 ^ 48) ∧
          (r.reach.fields = false → { t with regs := s.regs, resetRun := s.resetRun } = s ∧
            s.fieldsKept t [F.RST_CAUSE_TR]) ∧
          (r.reach.fields = true → (∀ f : Fin 64, off t f ∧ t.get F.CLK_FLDf_CTL_CMP_EN f = 0) ∧
            t.get F.BRG_FLD_COMPUTE_MAP = 0 ∧ t.threads = [] ∧ t.cores = [] ∧ t.sram = [] ∧ t.istore = [] ∧
            t.patStore = [] ∧ t.rings = [] ∧ t.spool = [] ∧ t.migration = none ∧ t.partialReset = none ∧
            t.darn = none)) ∧
        (k = 2 → r.reach.fields = true → ∃ t, moved t ∧
          (∀ f : Fin 64, off t (64 + f) ∧ (t.get F.BRG_FLD_TRANSIT_MAP).testBit f = false) ∧
          t.fab.pkts = [] ∧ t.fab.links = [] ∧ t.discovered = [] ∧ t.cueDue = []) ∧
        (k = 3 → r.reach.fields = true → ∃ t, moved t ∧ (∀ g : Fin 8, off t (128 + g)) ∧ t.ports = [] ∧
          t.get F.CLK_PORTEN_PORTS = 0 ∧ ∀ p : Fin 32, t.get F.SEL_STAT_STATE p = 0) ∧
        (k = 4 → r.reach.host = true → ∃ t, moved t ∧ off t 137 ∧ t.get F.CXL_LINKSTAT_STATE = 0 ∧
          t.get F.CLK_BLKEN_CXL = 0 ∧ t.spdm = [] ∧ t.ideKeys = [] ∧ t.threads = s.threads) ∧
        (k = 5 → r.reach.host = true →
          exec a s = .next { s.setDomain 136 false with fibres := {}, resetRun := some next }) ∧
        (k = 6 → r.reach.mgmt = true → ∃ t, moved t ∧ t.store = s.cutWrite.store ∧ t.firmware = s.firmware ∧
          t.fwRuns = s.fwRuns ∧ t.fuseMap = s.fuseMap ∧ t.fusedPorts = s.fusedPorts ∧
          t.pending = s.pending ∧ t.hostOut = s.hostOut ∧ t.threads = [] ∧ t.slots = [] ∧ t.watch = [] ∧
          t.nvsWrite = none ∧ t.mgt = {} ∧
          ∀ (f : Fld) (u n : Nat), u < 2 ^ 20 → n < 2 ^ 12 →
            t.get f u n = if f.id ∈ keptFields.map Fld.id then s.get f u n else f.rst u n) ∧
        (2 ≤ k → k ≤ 3 → r.reach.fields = false → exec a s = .next { s with resetRun := some next }) ∧
        (4 ≤ k → k ≤ 5 → r.reach.host = false → exec a s = .next { s with resetRun := some next }) ∧
        (k = 6 → r.reach.mgmt = false → exec a s = .next { s with resetRun := some next })) ∧
      (let may := r.assertStep = none ∧ r.sources = [] ∧ (r.release = 3 → s.get F.BRG_READY_NVS = 1) ∧
         (r.release = 5 → s.get F.RST_STAT_THIMBLE_FAIL ≠ 1)
       let after (t : State) (l : List Fld) : Prop := exec b s = .next t ∧ t.get F.RST_STAT_STEP = r.release ∧
         t.resetRun = some { r with release := r.release + 1 } ∧ s.fieldsKept t (F.RST_STAT_STEP :: l)
       (¬may → stays b) ∧
       (may → r.release = 1 → ∃ t, after t [F.CLK_BLKEN_WAF, F.CLK_BLKEN_PWR, F.CLK_BLKEN_TRD, F.CLK_BLKEN_INT,
          F.CLK_BLKEN_NVS, F.CLK_BLKEN_THM, F.CLK_BLKEN_MRK, F.CLK_BLKEN_BRG, F.BRG_READY_MGMT, F.MGT_STAT_CAP_LOST] ∧
        (∀ f, f ∈ [F.CLK_BLKEN_WAF, F.CLK_BLKEN_PWR, F.CLK_BLKEN_TRD, F.CLK_BLKEN_INT, F.CLK_BLKEN_NVS, F.CLK_BLKEN_THM,
          F.CLK_BLKEN_MRK, F.CLK_BLKEN_BRG, F.BRG_READY_MGMT, F.MGT_STAT_CAP_LOST] → t.get f = 1)) ∧
       (may → r.release = 2 → ∃ t, exec b s = .next t ∧ t.get F.RST_STAT_STEP = 2 ∧ t.get F.NVS_STAT_LOADED = 1 ∧
        t.resetRun = some { r with release := 3 } ∧ t.firstBringUp = (s.sect 1).isBlank ∧
        (let lost := ((s.sect 1).winner = none ∧ (s.sect 1).isBlank = false) ∨ (s.sect 2).winner = none ∨
           (s.sect 6).winner = none
         (lost → t.get F.NVS_STAT_LOSS = 1 ∧ t.get F.BRG_READY_NVS = 0) ∧
         (¬lost → t.get F.NVS_STAT_LOSS = 0 ∧ t.get F.BRG_READY_NVS = 1 ∧ t.get F.BRG_READY_INT = 1)) ∧
        (∀ c n p, (s.sect 1).winner = some (c, n, p) → t.badPositions = p.badPositions ∧ t.fenced = p.fenced ∧
          t.heldBad = p.heldBad ∧ t.relocations = p.relocations) ∧
        (∀ c n p, (s.sect 4).winner = some (c, n, p) → t.watch = p.watch) ∧
        (∀ c n p, (s.sect 5).winner = some (c, n, p) → t.life = { p with resets := p.resets + 1 })) ∧
       (may → r.release = 3 →
        let good (k : SlotCheck) := k.failed = none ∧ s.get F.THM_MINVER_MIN ≤ k.version.toNat
        let k0 := s.slotFound 0 k0
        let k1 := s.slotFound 1 k1
        let one := k0.version.toNat < k1.version.toNat
        let slots := [F.THM_FWSLOTn_VALID, F.THM_FWSLOTn_VERSION, F.THM_FWSLOTn_RUNNING]
        ∃ t, after t ([F.RST_STAT_THIMBLE_FAIL, F.THM_STAT_VERIFIED, F.THM_STAT_SLOT, F.THM_STAT_FALLBACK,
            F.THM_STAT_ALIAS, F.THM_STAT_VERSION, F.BRG_READY_THIMBLE] ++ slots) ∧
          (good k0 → t.get F.THM_FWSLOTn_VALID 0 0 = 1) ∧ (¬good k0 → t.get F.THM_FWSLOTn_VALID 0 0 = 0) ∧
          (good k1 → t.get F.THM_FWSLOTn_VALID 0 1 = 1) ∧ (¬good k1 → t.get F.THM_FWSLOTn_VALID 0 1 = 0) ∧
          (let runs (n : Nat) (k : SlotCheck) (fallback : Nat) : Prop := t.get F.THM_STAT_VERIFIED = 1 ∧
             t.get F.THM_STAT_SLOT = n ∧ t.get F.THM_STAT_VERSION = k.version.toNat ∧ t.get F.BRG_READY_THIMBLE = 1 ∧
             t.get F.THM_STAT_FALLBACK = fallback ∧ t.get F.RST_STAT_THIMBLE_FAIL = s.get F.RST_STAT_THIMBLE_FAIL
           (one → good k1 → runs 1 k1 0) ∧ (one → ¬good k1 → good k0 → runs 0 k0 1) ∧
           (¬one → good k0 → runs 0 k0 0) ∧ (¬one → ¬good k0 → good k1 → runs 1 k1 1) ∧
           (¬good k0 → ¬good k1 → t.get F.RST_STAT_THIMBLE_FAIL = 1 ∧
             t.get F.THM_STAT_VERIFIED = s.get F.THM_STAT_VERIFIED))) ∧
       (may → r.release = 4 → ∃ t, after t [] ∧ { t with regs := s.regs, resetRun := s.resetRun } = s) ∧
       (may → r.release = 5 → ∃ t, after t [F.PWR_DOMSTATn_ON] ∧ t.domainOn 136 = true) ∧
       (may → r.release = 6 → ∃ t, after t [F.PWR_DOMSTATn_ON, F.CLK_BLKEN_CXL, F.CXL_LINKSTAT_STATE] ∧
        t.domainOn 137 = true ∧ t.get F.CLK_BLKEN_CXL = 1 ∧ t.get F.CXL_LINKSTAT_STATE = 1) ∧
       (may → r.release = 7 → r.group < 8 → ∃ t, exec b s = .next t ∧ t.domainOn (128 + r.group) = true ∧
        (∀ p : Fin 32, 2 * (p.val / 8) + p.val % 8 / 4 = r.group → (t.get F.CLK_PORTEN_PORTS).testBit p = true) ∧
        (r.group < 7 → t.get F.RST_STAT_STEP = 7 ∧ t.resetRun = some { r with group := r.group + 1 }) ∧
        (r.group = 7 → t.get F.RST_STAT_STEP = 15 ∧ t.resetRun = none)))) ∧
    (let may := ∀ r, s.resetRun = some r → r.reach.mgmt = false
     let block (i : Instr) (b : Block) (keep : List Fld) : Prop := ∃ t, exec i s = .next t ∧
       { t with regs := s.regs, ticked := s.ticked } = s ∧
       ∀ (f : Fld) (u n : Nat), u < 2 ^ 20 → n < 2 ^ 12 →
         t.get f u n = if b.holds f.id = true ∧ f.id ∉ keep.map Fld.id then f.rst u n else s.get f u n
     (¬may → stays .rstBlockWaf ∧ stays .rstBlockClk ∧ stays .rstBlockPwr ∧ stays .rstBlockTrd ∧ stays .rstBlockInt ∧
       stays .rstBlockNvs ∧ stays .rstBlockMrk ∧ stays .rstBlockBrg) ∧
     (may → block .rstBlockTrd .trd [F.TRD_COUNT_COUNT] ∧
       block .rstBlockWaf .waf [F.MGT_STAT_DA_VALID, F.MGT_STAT_DA, F.MGT_PID_PID, F.MGT_PID_BCR, F.MGT_PID_DCR] ∧
       block .rstBlockClk .clk [F.CLK_STAT_REFOK, F.CLK_STAT_OSC_DLY, F.CLK_BLKEN_WAF, F.CLK_BLKEN_PWR, F.CLK_BLKEN_TRD,
         F.CLK_BLKEN_INT, F.CLK_BLKEN_NVS, F.CLK_BLKEN_THM, F.CLK_BLKEN_MRK, F.CLK_BLKEN_BRG, F.CLK_BLKEN_CXL,
         F.CLK_PORTEN_PORTS, F.CLK_FLDf_CTL_SRC, F.CLK_FLDf_CTL_MODE, F.CLK_FLDf_CTL_TRN_EN, F.CLK_FLDf_CTL_CMP_EN,
         F.CLK_FLDf_CTL_BLK_EN, F.CLK_FLDf_STITCH_TARGET, F.CLK_FLDf_STAT_ACTIVE, F.CLK_FLDf_STAT_CUR,
         F.CLK_FLDf_STAT_PLLA_RDY, F.CLK_FLDf_STAT_PLLB_RDY] ∧
       block .rstBlockBrg .brg [F.BRG_READY_MGMT, F.BRG_READY_NVS, F.BRG_READY_THIMBLE, F.BRG_READY_CLKREF,
         F.BRG_READY_TREADLE, F.BRG_READY_INT, F.BRG_READY_HOST, F.BRG_READY_MARKER, F.BRG_FLD_TRANSIT_MAP,
         F.BRG_FLD_SEAMOK_MAP, F.BRG_FLD_TOPO_MAP, F.BRG_FLD_COMPUTE_MAP, F.BRG_FLD_READY_MAP, F.BRG_PORTS_MAP,
         F.BRG_DISAGREE_TEST_ONLY, F.BRG_DISAGREE_FUSE_ONLY, F.BRG_DISAGREE_FIELD, F.BRG_DARN_COUNT_SPARES,
         F.BRG_DARN_COUNT_RELOCS, F.BRG_DARN_COUNT_FENCES] ∧
       (∃ t, exec .rstBlockPwr s = .next t ∧ t.power = { s.power with offset := 0 } ∧ t.get F.MGT_STAT_CAP_LOST = 1 ∧
         t.get F.PWR_CAP_RACK = 40000 ∧ (∀ f : Fin 64, t.get F.PWR_FLDf_STAT_TRIPS f = s.get F.PWR_FLDf_STAT_TRIPS f ∧
           t.computeOn f = s.computeOn f ∧ t.transitOn f = s.transitOn f) ∧ t.threads = s.threads) ∧
       exec .rstBlockNvs s = exec .nvsSwRst s ∧
       (∃ t, exec .rstBlockInt s = .next t ∧ t.watch = s.watch ∧ t.testsFrom = s.get F.TRD_COUNT_COUNT ∧
         t.get F.INT_CTL_TEST_EN = 1 ∧ (s.get F.CLK_BLKEN_INT = 1 → exec .intSwRst s = .next t)) ∧
       (∃ t, exec .rstBlockMrk s = .next t ∧ (s.get F.CLK_BLKEN_MRK = 1 → exec .mrkSwRst s = .next t)))))

/-- 18 R597 to R622. A cue of an undefined kind and CLK_OBS.SRC 7 fault: the model's stops (log entry 3). -/
def Obligations.ClocksTreadleAndCues : Prop :=
  (∀ (s : State) (f : Fin 64),
    let stays (i : Instr) : Prop := exec i s = .next s
    let active := s.get F.CLK_FLDf_STAT_ACTIVE f
    let idle := 2 - active
    let ref := s.get F.CLK_STAT_REFOK = 1
    let flag (pll : Nat) : Fld := if pll = 0 then F.CLK_FLDf_STAT_PLLA_RDY else F.CLK_FLDf_STAT_PLLB_RDY
    let ready (src : Nat) : Prop := if src = 0 then ref else s.get (flag (src - 1)) f = 1
    let setting (src : Nat) : Nat := if src = 0 then 0 else mget 0 s.pllSetting (2 * f + (src - 1))
    let busy := findKey s.sequences f.val ≠ none
    let keeps (t : State) : Prop := t.threads = s.threads ∧ t.cores = s.cores ∧ t.sram = s.sram ∧ t.fab = s.fab
    let only (t : State) (l : List Fld) : Prop := s.fieldsKept t l ∧ { t with regs := s.regs } = s
    (∀ src : Fin 3,
      let ctl := [F.CLK_FLDf_CTL_SRC, F.CLK_FLDf_CTL_MODE, F.CLK_FLDf_CTL_TRN_EN, F.CLK_FLDf_CTL_CMP_EN,
        F.CLK_FLDf_CTL_BLK_EN]
      let enables (t : State) : Prop := (∀ e, e ∈ [F.CLK_FLDf_CTL_TRN_EN, F.CLK_FLDf_CTL_CMP_EN, F.CLK_FLDf_CTL_BLK_EN] →
        s.get e f < 2) → ∀ e, e ∈ [F.CLK_FLDf_CTL_TRN_EN, F.CLK_FLDf_CTL_CMP_EN, F.CLK_FLDf_CTL_BLK_EN] →
        t.get e f = s.get e f
      let refused (i : Instr) : Prop := ∃ t, exec i s = .next t ∧ t.get F.CLK_FLDf_STAT_REJ f = 1 ∧ enables t ∧
        only t (F.CLK_FLDf_STAT_REJ :: ctl)
      let taken (i : Instr) (stopped : Prop) : Prop := ∃ t, exec i s = .next t ∧ keeps t ∧ enables t ∧
        t.get F.CLK_FLDf_STAT_ACTIVE f = src ∧ t.get F.CLK_FLDf_STAT_CUR f = setting src % 2 ^ 4 ∧
        s.fieldsKept t ([F.CLK_FLDf_STAT_ACTIVE, F.CLK_FLDf_STAT_CUR] ++ ctl) ∧ (f.val ∈ t.stopped ↔ stopped) ∧
        (∀ g, g ≠ f.val → (g ∈ t.stopped ↔ g ∈ s.stopped)) ∧
        (f.val ∈ t.lockHold ↔ f.val ∈ s.lockHold ∧ ¬(src ≠ 0 ∧ ready src))
      let mayStop := (s.get F.BRG_FLD_SEAMOK_MAP).testBit f = false ∧
        ((s.get F.BRG_FLD_COMPUTE_MAP).testBit f = false ∨ s.fieldUnheld f = true)
      (busy ∨ active = src ∨ ¬ready src → refused (.clockSwitch f src)) ∧
      (¬busy → active ≠ src → ready src → taken (.clockSwitch f src) (f.val ∈ s.stopped)) ∧
      (busy ∨ active = src ∨ ¬mayStop → refused (.stopSwitchRestart f src)) ∧
      (¬busy → active ≠ src → mayStop → taken (.stopSwitchRestart f src) (¬ready src))) ∧
    (∀ pll : Fin 2,
      let may := s.transitOn f = true ∧ mget 0 s.pllSetting (2 * f + pll) ≠ 0 ∧ ref
      let lost := active = pll + 1
      (¬may → stays (.pllLock f pll)) ∧
      (may → ∃ t, exec (.pllLock f pll) s = .next t ∧ t.get (flag pll) f = 1 ∧ s.fieldsKept t [flag pll] ∧
        (lost → f.val ∉ t.stopped) ∧ { t with regs := s.regs, stopped := s.stopped } = s) ∧
      (¬lost → exec (.pllLockLoss f pll) s = .next (s.put (flag pll) 0 f)) ∧
      (lost → ∃ t, exec (.pllLockLoss f pll) s = .next t ∧ keeps t ∧ t.get (flag pll) f = 0 ∧
        t.get F.CLK_FLDf_STAT_ACTIVE f = 0 ∧ t.get F.CLK_FLDf_STAT_CUR f = 0 ∧ t.get F.CLK_FLDf_STAT_LOCKLOSS f = 1 ∧
        f.val ∈ t.lockHold ∧ findKey t.sequences f.val = none ∧ (f.val ∈ t.stopped ↔ ¬ref))) ∧
    (¬ref → stays .refLost) ∧
    (ref → ∃ t, exec .refLost s = .next t ∧ t.get F.CLK_STAT_REFOK = 0 ∧ t.get F.CLK_STAT_REFLOST = 1 ∧
      t.get F.BRG_READY_CLKREF = 0 ∧ only t [F.CLK_STAT_REFOK, F.CLK_STAT_REFLOST, F.BRG_READY_CLKREF]) ∧
    (s.mgmtOn = false → stays .refDetect) ∧
    (s.mgmtOn = true → ∃ t, exec .refDetect s = .next t ∧ t.get F.CLK_STAT_REFOK = 1 ∧ t.get F.BRG_READY_CLKREF = 1 ∧
      s.fieldsKept t [F.CLK_STAT_REFOK, F.BRG_READY_CLKREF] ∧ (active = 0 → f.val ∉ t.stopped) ∧
      { t with regs := s.regs, stopped := s.stopped } = s) ∧
    (∀ v : Fin 16, (v = 0 ∨ 8 < v.val → exec (.stitchTargetWrite f v) s = .fault .undefinedFieldValue) ∧
      (1 ≤ v.val → v.val ≤ 8 → exec (.stitchTargetWrite f v) s = .next (s.put F.CLK_FLDf_STITCH_TARGET v f))) ∧
    (let cur := s.get F.CLK_FLDf_STAT_CUR f
     let eff := min (s.get F.CLK_FLDf_STITCH_TARGET f) (min (s.get F.PWR_STAT_W) (s.get F.PWR_FLDf_STAT_TCEIL f))
     let holds := active = 0 ∨ f.val ∈ s.lockHold ∨ ¬ref
     let started (s t : State) : Prop := findKey t.sequences f.val = some (Machine.Sequence.mk eff (decide (cur < eff)) false) ∧ mget 0 t.pllSetting (2 * f + idle) = eff ∧ t.get (flag idle) f = 0 ∧
       s.fieldsKept t [flag idle] ∧
       { t with regs := s.regs, sequences := s.sequences, pllSetting := s.pllSetting } = s
     (holds ∨ busy ∨ cur = eff → stays (.stitchSequenceStart f)) ∧
     (¬holds → ¬busy → cur ≠ eff → ∃ t, exec (.stitchSequenceStart f) s = .next t ∧ started s t) ∧
     (∀ us : BitVec 32, ¬busy → stays (.stitchRailGood f) ∧ stays (.stitchSequenceEnd f us)) ∧
     (∀ q, findKey s.sequences f.val = some q →
       let may := q.switched = false ∧ ¬holds ∧ s.get (flag idle) f = 1
       (¬may → stays (.stitchRailGood f)) ∧
       (may → active ≤ 2 → ∃ t, exec (.stitchRailGood f) s = .next t ∧ keeps t ∧
         t.get F.CLK_FLDf_STAT_ACTIVE f = idle + 1 ∧ t.get F.CLK_FLDf_STAT_CUR f = setting (idle + 1) % 2 ^ 4 ∧
         findKey t.sequences f.val = some { q with switched := true } ∧
         s.fieldsKept t [F.CLK_FLDf_STAT_ACTIVE, F.CLK_FLDf_STAT_CUR]) ∧
       (∀ us : BitVec 32,
         (q.switched = false → stays (.stitchSequenceEnd f us)) ∧
         (q.switched = true → ∃ t, exec (.stitchSequenceEnd f us) s = .next t ∧ keeps t ∧
           t.get F.CLK_FLDf_SEQ_CHANGES f = (s.get F.CLK_FLDf_SEQ_CHANGES f + 1) % 2 ^ 32 ∧
           t.get F.CLK_FLDf_SEQ_LAST_US f = min us.toNat 65535 ∧
           (holds ∨ cur = eff → findKey t.sequences f.val = none) ∧
           (¬holds → cur ≠ eff → findKey t.sequences f.val = some (Machine.Sequence.mk eff (decide (cur < eff)) false) ∧ t.get (flag idle) f = 0))))) ∧
    (∀ v : Word,
      (v.toNat % 8 = 7 → exec (.clkobsSelect v) s = .fault .undefinedFieldValue) ∧
      (v.toNat % 8 ≠ 7 → ∃ t, exec (.clkobsSelect v) s = .next t ∧ t.get F.CLK_OBS_SRC = v.toNat % 8 ∧
        t.get F.CLK_OBS_FIELD = v.toNat / 2 ^ 3 % 64 ∧ t.get F.CLK_OBS_PORT = v.toNat / 2 ^ 9 % 32 ∧
        t.get F.CLK_OBS_DIV = v.toNat / 2 ^ 16 % 16 ∧ t.get F.CLK_OBS_EN = v.toNat / 2 ^ 31 % 2 ∧
        only t [F.CLK_OBS_SRC, F.CLK_OBS_FIELD, F.CLK_OBS_PORT, F.CLK_OBS_DIV, F.CLK_OBS_EN])) ∧
    (∀ (ns : BitVec 32) (short : Bool) (add : BitVec 16),
      let now := s.get F.TRD_COUNT_COUNT
      let counts (i : Instr) (k : Nat) : Prop := ∃ t, exec i s = .next t ∧ t.get F.TRD_COUNT_COUNT = (now + k) % 2 ^ 48 ∧
        t.get F.TRD_INTERVAL_NS = ns.toNat ∧ t.get F.BRG_READY_TREADLE = 1 ∧
        only t [F.TRD_COUNT_COUNT, F.TRD_INTERVAL_NS, F.BRG_READY_TREADLE]
      let pin := s.get F.TRD_CTL_SRC ≠ 1
      let on := s.get F.CLK_BLKEN_TRD = 1
      (¬(pin ∧ ref ∧ on) → stays (.treadleTick ns short)) ∧
      (pin → ref → on → short = false → counts (.treadleTick ns short) 1) ∧
      (pin → ref → on → short = true → ∃ t, exec (.treadleTick ns short) s = .next t ∧
        (s.get F.TRD_STAT_IGN + 1 < 2 ^ 16 → t.get F.TRD_STAT_IGN = s.get F.TRD_STAT_IGN + 1) ∧
        only t [F.TRD_STAT_IGN, F.TRD_STAT_SAT]) ∧
      (on → ¬pin → add = 0 → stays (.trdPush add ns)) ∧
      (on → ¬pin → add ≠ 0 → counts (.trdPush add ns) add.toNat) ∧
      (on → pin → exec (.trdPush add ns) s = .next (s.put F.TRD_STAT_PUSH_REJ 1)) ∧
      (¬on → ∃ t, exec (.trdPush add ns) s = .next t ∧
        only t [F.CLK_GATEDERR_COUNT, F.CLK_GATEDERR_SAT, F.CLK_GATEDERR_LAST]) ∧
      (pin → s.get F.BRG_READY_TREADLE = 1 → exec .treadleStall s = .next (s.put F.TRD_STAT_STALLED 1)) ∧
      (¬pin ∨ s.get F.BRG_READY_TREADLE ≠ 1 → stays .treadleStall) ∧
      (s.transitOn f = false ∨ mget 0 s.trdCopy f = now → stays (.treadleCopyAdvance f)) ∧
      (s.transitOn f = true → mget 0 s.trdCopy f ≠ now → ∃ t, exec (.treadleCopyAdvance f) s = .next t ∧
        mget 0 t.trdCopy f = now ∧ mget 0 t.trdAdvances f = min 2 (mget 0 s.trdAdvances f + 1) ∧
        { t with trdCopy := s.trdCopy, trdAdvances := s.trdAdvances, cueDue := s.cueDue } = s ∧
        (∀ n, n < 256 → (256 * f.val + n ∈ t.cueDue ↔ 256 * f.val + n ∈ s.cueDue ∨
          (s.get F.FLD_CUEn_B_VALID f n = 1 ∧ (now + 2 ^ 48 - s.get F.FLD_CUEn_B_COUNT f n) % 2 ^ 48 < 2 ^ 47)))))) ∧
  (∀ (s : State) (f : Fin 64) (n : Fin 256),
    let due := 256 * f.val + n.val ∈ s.cueDue
    let only (t : State) (l : List Fld) : Prop := s.fieldsKept t l ∧ { t with regs := s.regs, cueDue := s.cueDue } = s
    (∀ (b : Bool) (v : Word),
      let i := Instr.cueWrite f n b v
      let on := s.get F.CLK_FLDf_CTL_BLK_EN f = 1
      let kind := v.toNat / 2 ^ 48 % 16
      let count := v.toNat % 2 ^ 48
      let valid := v.toNat / 2 ^ 63 = 1
      let arg := s.get F.FLD_CUEn_A_CUE f n
      let bad := (kind = 2 ∧ fieldOf (BitVec.ofNat 20 arg) ≠ f) ∨ (kind = 3 ∧ (arg % 16 = 0 ∨ 8 < arg % 16))
      let refused := exec i s = .next (s.put F.FLD_CUESTAT_REJ 1 f)
      (¬on → ∃ t, exec i s = .next t ∧ s.fieldsKept t [F.CLK_GATEDERR_COUNT, F.CLK_GATEDERR_SAT, F.CLK_GATEDERR_LAST] ∧
        { t with regs := s.regs } = s) ∧
      (on → 224 ≤ n.val → refused) ∧
      (on → n.val < 224 → b = false →
        (s.get F.FLD_CUEn_B_VALID f n = 1 → refused) ∧
        (s.get F.FLD_CUEn_B_VALID f n ≠ 1 → exec i s = .next (s.put F.FLD_CUEn_A_CUE v.toNat f n))) ∧
      (on → n.val < 224 → b = true →
        (4 ≤ kind → kind ≤ 7 → refused) ∧
        (kind < 4 ∨ 7 < kind → ¬valid → ∃ t, exec i s = .next t ∧ t.get F.FLD_CUEn_B_VALID f n = 0 ∧
          256 * f.val + n.val ∉ t.cueDue ∧
          only t [F.FLD_CUEn_B_COUNT, F.FLD_CUEn_B_KIND, F.FLD_CUEn_B_VALID, F.FLD_CUESTAT_ARMED]) ∧
        (kind = 0 ∨ 7 < kind → valid → exec i s = .fault .undefinedFieldValue) ∧
        (1 ≤ kind → kind ≤ 3 → valid → bad → refused) ∧
        (1 ≤ kind → kind ≤ 3 → valid → ¬bad → ∃ t, exec i s = .next t ∧ t.get F.FLD_CUEn_B_VALID f n = 1 ∧
          t.get F.FLD_CUEn_B_COUNT f n = count ∧ t.get F.FLD_CUEn_B_KIND f n = kind ∧
          only t [F.FLD_CUEn_B_COUNT, F.FLD_CUEn_B_KIND, F.FLD_CUEn_B_VALID, F.FLD_CUESTAT_ARMED, F.FLD_CUESTAT_LATE] ∧
          (let d := (count + 2 ^ 48 - mget 0 s.trdCopy f % 2 ^ 48) % 2 ^ 48
           let counting := s.get F.BRG_READY_TREADLE = 1
           (256 * f.val + n.val ∈ t.cueDue ↔ counting ∧ (d = 0 ∨ 2 ^ 47 ≤ d)) ∧
            t.get F.FLD_CUESTAT_LATE f = if counting ∧ d ≠ 0 ∧ 2 ^ 47 ≤ d then 1 else s.get F.FLD_CUESTAT_LATE f)))) ∧
    ((∀ m, m < 256 → 256 * f.val + m ∉ s.cueDue) → exec (.cueFire f) s = .next s) ∧
    (due → (∀ m, m < n.val → 256 * f.val + m ∉ s.cueDue) →
      let kind := s.get F.FLD_CUEn_B_KIND f n
      let arg := s.get F.FLD_CUEn_A_CUE f n
      let c : Lcn := BitVec.ofNat 20 arg
      let gone (t : State) : Prop := exec (.cueFire f) s = .next t ∧ t.get F.FLD_CUEn_B_VALID f n = 0 ∧
        256 * f.val + n.val ∉ t.cueDue ∧ t.get F.FLD_CUESTAT_FIRED f = (s.get F.FLD_CUESTAT_FIRED f + 1) % 2 ^ 32
      (∃ t, exec (.cueFire f) s = .next t) ∧
      (kind = 2 → s.backed c = true → s.clocked c = true → ∃ t, gone t ∧
        let tack : Fin 32 := Fin.ofNat 32 (arg / 2 ^ 20)
        t.get F.TACK_STATEn_VALUE c.toNat tack = (s.tack c tack + BitVec.ofNat 32 (arg / 2 ^ 32)).toNat ∧
          t.get F.TACK_STATEn_LKIND c.toNat tack = 1) ∧
      (kind = 2 → s.backed c = true → s.clocked c = false → ∃ t, gone t ∧ t.threads = s.threads ∧
        s.fieldsKept t [F.FLD_CUEn_B_VALID, F.FLD_CUESTAT_ARMED, F.FLD_CUESTAT_FIRED, F.CLK_GATEDERR_COUNT,
          F.CLK_GATEDERR_SAT, F.CLK_GATEDERR_LAST]) ∧
      (kind = 2 → s.backed c = false → ∃ t, gone t ∧ t.threads = s.threads ∧
        (s.get F.FLD_CUESTAT_STALE f + 1 < 2 ^ 15 → t.get F.FLD_CUESTAT_STALE f = s.get F.FLD_CUESTAT_STALE f + 1)) ∧
      (kind = 3 → ∃ t, gone t ∧ t.threads = s.threads ∧ t.get F.CLK_FLDf_STITCH_TARGET f = arg % 16) ∧
      (kind = 1 → ∃ t, exec (.cueFire f) s = .next t ∧ t.threads = s.threads ∧ 256 * f.val + n.val ∉ t.cueDue) ∧
      (kind = 4 ∨ kind = 5 → ∃ t, gone t ∧ t.threads = s.threads ∧
        t.get F.INT_TESTSTAT_SWEEPS = (s.get F.INT_TESTSTAT_SWEEPS + 1) % 2 ^ F.INT_TESTSTAT_SWEEPS.width)))

/-- 19 R624 to R647. -/
def Obligations.Power : Prop :=
  (∀ (s : State) (vin : BitVec 16) (iin : BitVec 10),
    let l := (vin.toNat * iin.toNat :: s.power.samples).take 20
    ∃ t, exec (.powerSample vin iin) s = .next t ∧ t.get F.PWR_MEAS_VIN_MV = vin.toNat ∧
      t.get F.PWR_MEAS_IIN_A = iin.toNat ∧ t.get F.PWR_MEAS_AVG_W = l.sum / (1000 * l.length) % 2 ^ 20 ∧
      t.power = { s.power with samples := l } ∧ { t with regs := s.regs, power := s.power, ticked := s.ticked } = s ∧
      s.fieldsKept t [F.PWR_MEAS_VIN_MV, F.PWR_MEAS_IIN_A, F.PWR_MEAS_AVG_W]) ∧
  (∀ (s : State) (clean below met : Bool),
    let cap := min (s.get F.PWR_CAP_RACK) (min (s.get F.PWR_CAP_HOST) (800 * s.get F.PWR_MEAS_VIN_MV / 1000))
    let old := s.get F.PWR_STAT_LEVEL
    let order := s.parkOrder
    let last := 7 + order.length
    let offset : Int := if clean then (s.get F.PWR_MEAS_AVG_W : Int) - s.model old else s.power.offset
    let fits (k : Nat) : Prop := (s.model k : Int) + offset ≤ cap
    let on := s.get F.PWR_CTL_EN = 1
    let lowers := below = true ∧ s.get F.PWR_MEAS_AVG_W + s.get F.PWR_HYST_W ≤ cap
    ∀ need new : Nat, need ≤ last → (∀ k, k < need → ¬fits k) → need = last ∨ fits need →
      (¬on → new = 0) → (on → old < need → new = need) → (on → need < old → lowers → new = old - 1) →
      (on → need = old ∨ (need < old ∧ ¬lowers) → new = old) →
      old < 2 ^ 7 → (∀ f, f ∈ order → f < 64) → ∃ t, exec (.powerEvaluation clean below met) s = .next t ∧
        t.get F.PWR_CAP_EFF = cap % 2 ^ 20 ∧ t.get F.PWR_STAT_LEVEL = new ∧ t.power.offset = offset ∧
        (new = old → t.get F.PWR_STAT_W = s.get F.PWR_STAT_W ∧ t.threads = s.threads ∧ t.cores = s.cores ∧
          (let holds := (cap : Int) < s.model last + offset ∨ (old = last ∧ cap < s.get F.PWR_MEAS_AVG_W)
           let is := s.get F.PWR_STAT_UNATTAIN = 1
           t.get F.PWR_STAT_UNATTAIN = if is ∧ met = true ∧ s.get F.PWR_MEAS_AVG_W ≤ cap then 0 else if ¬is ∧ holds then 1
             else s.get F.PWR_STAT_UNATTAIN)) ∧
        (new ≠ old → t.get F.PWR_STAT_W = (if new ≤ 7 then 8 - new else 1) ∧
          ∀ f : Fin 64, ((t.get F.PWR_FLDf_STAT_REASON f).testBit 0 = true ↔ f.val ∈ order.take (new - 7)) ∧
            (f.val ∈ order.take (new - 7) → (s.get F.PWR_FLDf_STAT_REASON f).testBit 0 = false →
              t.computeOn f = false))) ∧
  (∀ (s : State) (f : Fin 64),
    let stays (i : Instr) : Prop := exec i s = .next s
    let reason := s.get F.PWR_FLDf_STAT_REASON f
    let set (t : State) (b : Nat) : Prop := (t.get F.PWR_FLDf_STAT_REASON f).testBit b = true
    (let may := f.val ∈ s.power.due ∧ s.isParked f = true ∧ reason = 0
     (¬may → stays (.unpark f)) ∧
     (may → exec (.unpark f) s = .next { s with power := { s.power with
       due := s.power.due.filter fun g => g != f.val, unparking := s.power.unparking ++ [f.val] } })) ∧
    (∀ failing : List Position,
      let may := f.val ∈ s.power.unparking ∧ s.isParked f = true
      (¬may → stays (.unparkDone f failing)) ∧
      (may → ∃ t, exec (.unparkDone f failing) s = .next t ∧ t.computeOn f = true ∧ f.val ∉ t.power.unparking ∧
        (t.get F.BRG_FLD_COMPUTE_MAP).testBit f = true ∧
        (∀ c : Lcn, s.homeField c = f → (∀ n, t.thread c n = Thread.reset) ∧ ∀ n, n < 256 → t.readTile c n = 0) ∧
        (∀ c : Lcn, t.backed c = true → t.homeField c = f → t.get F.CORE_CTL_CLK_EN c.toNat = 1))) ∧
    (∀ t0 t1 t2 t3 : BitVec 8,
      let i := Instr.thermalSample f t0 t1 t2 t3
      let old := s.get F.PWR_FLDf_STAT_TEMP f
      let new := max (max t0.toNat t1.toNat) (max t2.toNat t3.toNat)
      let reaches (g : Fld) : Prop := old < s.get g ∧ s.get g ≤ new
      let warn := reaches F.PWR_THERM_WARN
      let crit := reaches F.PWR_THERM_CRIT
      let shut := reaches F.PWR_THERM_SHUT
      ∃ t, exec i s = .next t ∧ t.get F.PWR_FLDf_STAT_TEMP f = new ∧
        (s.transitOn f = false ∨ (¬warn ∧ ¬crit ∧ ¬shut ∧ (f.val ∉ s.power.asking ∨ s.migration ≠ none)) →
          s.fieldsKept t [F.PWR_FLDf_STAT_TEMP] ∧ { t with regs := s.regs, mgt := s.mgt, ticked := s.ticked } = s) ∧
        (s.transitOn f = true → warn → t.get F.PWR_FLDf_STAT_TCEIL f = 1 ∧
          (s.get F.MRK_CTL_MIG_EN ≠ 1 ∨ s.migrants f = [] → set t 1 ∧ t.computeOn f = false) ∧
          (s.get F.MRK_CTL_MIG_EN = 1 → s.migrants f ≠ [] → ¬crit → ¬shut → f.val ∈ t.power.asking ∧
            (s.migration = none → t.migration = some { field := f, todo := s.migrants f, parks := true }))) ∧
        (s.transitOn f = true → crit → set t 2 ∧ t.computeOn f = false) ∧
        (s.transitOn f = true → shut → set t 5 ∧ t.isHole f = true) ∧
        (s.transitOn f = true → ¬shut → ∀ g : Fin 64, t.isHole g = s.isHole g)) ∧
    (let may := (reason.testBit 1 = true ∨ reason.testBit 2 = true) ∧
       s.get F.PWR_FLDf_STAT_TEMP f + s.get F.PWR_THERM_HYST < s.get F.PWR_THERM_WARN
     (¬may → stays (.thermalClear f)) ∧
     (may → ∃ t, exec (.thermalClear f) s = .next t ∧ ¬set t 1 ∧ ¬set t 2 ∧ t.get F.PWR_FLDf_STAT_TCEIL f = 8 ∧
       (∀ b, b < 6 → b ≠ 1 → b ≠ 2 → (set t b ↔ reason.testBit b = true)) ∧
       s.fieldsKept t [F.PWR_FLDf_STAT_REASON, F.PWR_FLDf_STAT_TCEIL] ∧
       { t with regs := s.regs, power := s.power } = s)) ∧
    (let may := s.computeOn f = true ∨ f.val ∈ s.power.unparking
     let trips := s.get F.PWR_FLDf_STAT_TRIPS f
     (¬may → stays (.computeTrip f)) ∧
     (may → ∃ t, exec (.computeTrip f) s = .next t ∧ set t 3 ∧ t.computeOn f = false ∧ f.val ∉ t.power.unparking ∧
       t.get F.PWR_FLDf_STAT_TRIPS f = min (trips + 1) 15 ∧ mget 0 t.life.trips f = mget 0 s.life.trips f + 1 ∧
       (s.get F.PWR_CTL_TRIP_MAX ≤ min (trips + 1) 15 → t.get F.PWR_FLDf_STAT_LOCKED f = 1))) ∧
    exec (.transitTrip f) s = exec (.transitFail f) s ∧
    (∀ g : Fin 8, (s.domainOn (128 + g) = false → stays (.opticsTrip g)) ∧
      (s.domainOn (128 + g) = true → ∃ t, exec (.opticsTrip g) s = .next t ∧ t.domainOn (128 + g) = false ∧
        t.threads = s.threads ∧
        ∀ p : Fin 32, (2 * (p.val / 8) + p.val % 8 / 4 = g → t.get F.SEL_STAT_STATE p = 5 ∧
            (s.get F.SEL_STAT_STATE p ≠ 5 → t.get F.SEL_STAT_EVT p = 1)) ∧
          (2 * (p.val / 8) + p.val % 8 / 4 ≠ g → t.get F.SEL_STAT_STATE p = s.get F.SEL_STAT_STATE p))) ∧
    (∀ d : Fin 2, (s.domainOn (136 + d) = false → stays (.hostAttachTrip d)) ∧
      (s.domainOn (136 + d) = true → ∃ t, exec (.hostAttachTrip d) s = .next t ∧ t.domainOn (136 + d) = false ∧
        t.get F.CXL_LINKSTAT_STATE = 0 ∧ t.threads = s.threads)) ∧
    (let on := s.get F.CLK_BLKEN_PWR = 1
     let gated (i : Instr) : Prop := ∃ t, exec i s = .next t ∧ { t with regs := s.regs } = s ∧
       s.fieldsKept t [F.CLK_GATEDERR_COUNT, F.CLK_GATEDERR_SAT, F.CLK_GATEDERR_LAST]
     let parked := s.get F.PWR_FLDf_CTL_PARK f
     let unparks (r : Nat) : Prop := s.isParked f = true ∧ r = 0 ∧ s.get F.PWR_FLDf_STAT_LOCKED f ≠ 1 ∧
       (s.get F.BRG_FLD_TOPO_MAP).testBit f = true
     (¬on → gated (.pwrPark f true) ∧ gated (.pwrPark f false) ∧ gated (.clrTrip f) ∧ gated (.pwrUnpark f) ∧
       gated .pwrSwRst) ∧
     (on → ∃ t, exec (.pwrPark f true) s = .next t ∧ set t 4 ∧ t.computeOn f = false ∧ t.get F.PWR_FLDf_CTL_PARK f = 1) ∧
     (on → ∃ t, exec (.pwrPark f false) s = .next t ∧ ¬set t 4 ∧ t.get F.PWR_FLDf_CTL_PARK f = 0 ∧
       (∀ b, b < 6 → b ≠ 4 → (set t b ↔ reason.testBit b = true)) ∧
       s.fieldsKept t [F.PWR_FLDf_CTL_PARK, F.PWR_FLDf_STAT_REASON] ∧
       { t with regs := s.regs, mgt := s.mgt, ticked := s.ticked } = s) ∧
     (on → parked = 0 → ∃ t, exec (.clrTrip f) s = .next t ∧ t.get F.PWR_FLDf_CTL_PARK f = 0 ∧ ¬set t 4 ∧
       (let clears := s.get F.PWR_FLDf_STAT_LOCKED f ≠ 1 ∧ s.get F.PWR_FLDf_STAT_TRIPS f < s.get F.PWR_CTL_TRIP_MAX
        (clears → ¬set t 3) ∧ (¬clears → (set t 3 ↔ reason.testBit 3 = true))) ∧
       (∀ b, b < 3 ∨ b = 5 → (set t b ↔ reason.testBit b = true))) ∧
     (on → parked = 1 → ∃ t, exec (.clrTrip f) s = .next t ∧ set t 4 ∧ t.computeOn f = false) ∧
     (on → parked = 0 → ∃ t, exec (.pwrUnpark f) s = .next t ∧ ¬set t 4 ∧
       (∀ b, b < 6 → b ≠ 4 → (set t b ↔ reason.testBit b = true)) ∧
       (unparks (t.get F.PWR_FLDf_STAT_REASON f) → f.val ∈ t.power.due ∨ f.val ∈ t.power.unparking) ∧
       (¬unparks (t.get F.PWR_FLDf_STAT_REASON f) → t.power = s.power)) ∧
     (on → parked = 1 → ∃ t, exec (.pwrUnpark f) s = .next t ∧ set t 4 ∧ t.computeOn f = false) ∧
     (on → ∃ t, exec .pwrSwRst s = .next t ∧ t.power = { s.power with offset := 0 } ∧ t.get F.MGT_STAT_CAP_LOST = 1 ∧
       t.get F.PWR_CAP_RACK = 40000 ∧ t.get F.PWR_CTL_EN = 1 ∧ t.get F.PWR_FLDf_STAT_REASON f = 0 ∧
       t.get F.PWR_FLDf_STAT_TRIPS f = s.get F.PWR_FLDf_STAT_TRIPS f ∧ t.computeOn f = s.computeOn f ∧
       t.threads = s.threads ∧ t.sram = s.sram)))

/-- The queue and its idling are the model's choice (log entry 4). -/
def Obligations.StepTakesFront : Prop :=
  (∀ (c : Instr) (rest : List Instr) (s : State),
    step { s with pending := c :: rest } = exec c { s with pending := rest }) ∧
  (∀ s : State, s.pending = [] → step s = .next s)

/-- 18 R610; 17 R588, Table 17.1; 02 Table 2.2; the register tables of chapters 2, 7, 8, 13 to 19. -/
def Obligations.ResetState : Prop :=
  let s := State.reset
  s.pending = [] ∧ s.memoriesWf ∧ s.sound ∧
    (∀ c n, (s.thread c n).st = .stopped) ∧ (∀ c n, (s.tagAt c n).st ≠ .held) ∧
    s.fab.pkts = [] ∧ s.slots = [] ∧ s.rings = [] ∧
    (∀ f ∈ [F.CLK_BLKEN_WAF, F.CLK_BLKEN_PWR, F.CLK_BLKEN_TRD, F.CLK_BLKEN_INT, F.CLK_BLKEN_NVS, F.CLK_BLKEN_THM,
      F.CLK_BLKEN_MRK, F.CLK_BLKEN_BRG, F.CLK_BLKEN_CXL, F.CLK_PORTEN_PORTS], s.get f = 0) ∧
    (∀ c : Lcn, s.get F.CORE_CTL_CLK_EN c.toNat = 0) ∧ (∀ f : Fin 64, s.get F.CLK_FLDf_CTL_BLK_EN f = 0) ∧
    (∀ d : Fin 138, s.domainOn d = false) ∧
    s.get F.RST_CAUSE_CODE = 1 ∧ s.get F.RST_STAT_RESETS = 0 ∧
    (∃ r, s.resetRun = some r ∧ r.assertStep = none ∧ r.release = 1) ∧
    (∀ (c : Lcn) (k : Fin 4), s.get F.CORE_ACC_OWN_OWNER_k c.toNat k = k) ∧
    (∀ c : Lcn, s.get F.CORE_TAGCFG_TIMEOUT_EXP c.toNat = 24) ∧
    s.get F.MRK_CTL_MIG_EN = 1 ∧ s.get F.INT_CTL_TEST_EN = 1 ∧ s.get F.INT_CTL_FENCE_EN = 1 ∧ s.get F.PWR_CTL_EN = 1 ∧
    (∀ f : Fin 64, s.get F.FAB_CTL_RETRY_EN f = 1 ∧ s.get F.FAB_RETRYCFG_REPLAY_MAX f = 16) ∧
    (∀ p : Fin 32, s.get F.SEL_CTL_RETRY_EN p = 1 ∧ s.get F.SEL_RETRYCFG_REPLAY_MAX p = 8 ∧ s.portState p = 0) ∧
    (∀ p : Fin 512, s.get F.FAB_DL_WINDOW_EN p = 1 ∧ s.get F.FAB_DL_WINDOW_EXP p = 20) ∧
    s.get F.BRG_READY_MGMT = 1 ∧
    (∀ f ∈ [F.BRG_READY_NVS, F.BRG_READY_THIMBLE, F.BRG_READY_CLKREF, F.BRG_READY_TREADLE, F.BRG_READY_INT,
      F.BRG_READY_HOST, F.BRG_READY_MARKER], s.get f = 0) ∧
    s.get F.CXL_LINKSTAT_STATE = 0

/-- The canonical form is the model's (log entry 5); the memories are those of 01 R24, 02 R69, 10 and 20 R653. -/
def Obligations.StepKeepsMemories : Prop :=
  ∀ s t : State, s.memoriesWf → step s = .next t → t.memoriesWf

/-- 16 Table 16.5; 13 R465; 20 R651; the packet numbers are the model's (log entry 5). -/
def Obligations.StepKeepsSound : Prop :=
  ∀ s t : State, s.sound → step s = .next t → t.sound
end

