-- ==== Sys2Proof/Laws/Map.lean ====
section
/-!
SUPPORT. The laws of the sparse maps: what a read after a write gives, and that a write keeps the canonical form.
-/

namespace Sys2Proof.Machine

variable {α : Type}

@[simp] theorem findKey_nil (k : Nat) : findKey ([] : PMap α) k = none := rfl

theorem findKey_putKey_same (m : PMap α) (k : Nat) (v : α) : findKey (putKey m k v) k = some v := by
  induction m with
  | nil => simp [putKey, findKey]
  | cons e r ih =>
    obtain ⟨j, w⟩ := e
    unfold putKey
    split
    · simp [findKey]
    · split
      · simp [findKey]
      · simp_all [findKey]

theorem findKey_putKey_other (m : PMap α) {k j : Nat} (v : α) (h : j ≠ k) :
    findKey (putKey m k v) j = findKey m j := by
  induction m with
  | nil => simp [putKey, findKey, h]
  | cons e r ih =>
    obtain ⟨i, w⟩ := e
    unfold putKey
    split
    · subst_vars; simp [findKey, h]
    · split
      · simp [findKey, h]
      · simp [findKey, ih]

theorem findKey_delKey_same (m : PMap α) (k : Nat) : findKey (delKey m k) k = none := by
  induction m with
  | nil => rfl
  | cons e r ih =>
    obtain ⟨j, w⟩ := e
    unfold delKey at *
    by_cases h : j = k
    · simpa [h] using ih
    · simp [h, findKey, Ne.symm h, ih]

theorem findKey_delKey_other (m : PMap α) {k j : Nat} (h : j ≠ k) :
    findKey (delKey m k) j = findKey m j := by
  induction m with
  | nil => rfl
  | cons e r ih =>
    obtain ⟨i, w⟩ := e
    unfold delKey at *
    by_cases hi : i = k
    · subst hi; simp [findKey, h, ih]
    · simp [hi, findKey, ih]

/-- A read of the key just written gives the value written. -/
@[simp] theorem mget_mset_same [DecidableEq α] (d : α) (m : PMap α) (k : Nat) (v : α) :
    mget d (mset d m k v) k = v := by
  unfold mget mset
  split
  · simp [findKey_delKey_same, *]
  · simp [findKey_putKey_same]

/-- A write leaves every other key alone, whatever default the reader takes. -/
theorem mget_mset_other [DecidableEq α] (d d' : α) (m : PMap α) {k j : Nat} (v : α) (h : j ≠ k) :
    mget d' (mset d m k v) j = mget d' m j := by
  unfold mget mset
  split
  · simp [findKey_delKey_other m h]
  · simp [findKey_putKey_other m v h]

theorem keysAbove_putKey (m : PMap α) {b k : Nat} (v : α) (hb : b < k) (h : keysAbove b m = true) :
    keysAbove b (putKey m k v) = true := by
  induction m with
  | nil => simp [putKey, keysAbove, hb]
  | cons e r ih =>
    obtain ⟨j, w⟩ := e
    simp only [keysAbove, List.all_cons, Bool.and_eq_true, decide_eq_true_eq] at *
    unfold putKey
    split
    · simp [hb, h.2]
    · split
      · simp [hb, h]
      · simp [h.1, ih h.2]

theorem keysAbove_trans {m : PMap α} {a b : Nat} (hab : a < b) (h : keysAbove b m = true) :
    keysAbove a m = true := by
  simp only [keysAbove, List.all_eq_true, decide_eq_true_eq] at *
  intro e he
  exact lt_trans hab (h e he)

theorem risingKeys_putKey (m : PMap α) (k : Nat) (v : α) (h : risingKeys m = true) :
    risingKeys (putKey m k v) = true := by
  induction m with
  | nil => simp [putKey, risingKeys, keysAbove]
  | cons e r ih =>
    obtain ⟨j, w⟩ := e
    simp only [risingKeys, Bool.and_eq_true] at h
    unfold putKey
    split
    · subst_vars; simp [risingKeys, h]
    · split
      · rename_i hlt
        simp only [risingKeys, Bool.and_eq_true]
        refine ⟨?_, h⟩
        simp only [keysAbove, List.all_cons, Bool.and_eq_true, decide_eq_true_eq]
        exact ⟨hlt, keysAbove_trans hlt h.1⟩
      · simp only [risingKeys, Bool.and_eq_true]
        exact ⟨keysAbove_putKey r v (by omega) h.1, ih h.2⟩

theorem keysAbove_delKey (m : PMap α) {b : Nat} (k : Nat) (h : keysAbove b m = true) :
    keysAbove b (delKey m k) = true := by
  simp only [keysAbove, delKey, List.all_eq_true, decide_eq_true_eq] at *
  exact fun e he => h e (List.mem_of_mem_filter he)

theorem risingKeys_delKey (m : PMap α) (k : Nat) (h : risingKeys m = true) :
    risingKeys (delKey m k) = true := by
  induction m with
  | nil => rfl
  | cons e r ih =>
    obtain ⟨j, w⟩ := e
    simp only [risingKeys, Bool.and_eq_true] at h
    by_cases hj : j = k
    · simpa [delKey, hj] using ih h.2
    · have : delKey ((j, w) :: r) k = (j, w) :: delKey r k := by simp [delKey, hj]
      rw [this]
      simp only [risingKeys, Bool.and_eq_true]
      exact ⟨keysAbove_delKey r k h.1, ih h.2⟩

theorem mem_putKey {m : PMap α} {k : Nat} {v : α} {e : Nat × α} (h : e ∈ putKey m k v) :
    e = (k, v) ∨ e ∈ m := by
  induction m with
  | nil => simpa [putKey] using h
  | cons f r ih =>
    obtain ⟨j, w⟩ := f
    unfold putKey at h
    split at h
    · simp only [List.mem_cons] at h ⊢; tauto
    · split at h
      · simp only [List.mem_cons] at h ⊢; tauto
      · simp only [List.mem_cons] at h ⊢
        rcases h with h | h
        · tauto
        · rcases ih h with h | h <;> tauto

/-- A write keeps the keys strictly rising. -/
theorem risingKeys_mset [DecidableEq α] (d : α) (m : PMap α) (k : Nat) (v : α) (h : risingKeys m = true) :
    risingKeys (mset d m k v) = true := by
  unfold mset
  split
  · exact risingKeys_delKey m k h
  · exact risingKeys_putKey m k v h

/-- A write keeps the canonical form. -/
theorem canonical_mset [DecidableEq α] (d : α) (m : PMap α) (k : Nat) (v : α) (h : canonical d m = true) :
    canonical d (mset d m k v) = true := by
  simp only [canonical, Bool.and_eq_true] at *
  refine ⟨risingKeys_mset d m k v h.1, ?_⟩
  simp only [List.all_eq_true, Bool.not_eq_true', decide_eq_false_iff_not] at *
  intro e he
  unfold mset at he
  split at he
  · exact h.2 e (List.mem_of_mem_filter he)
  · rcases mem_putKey he with rfl | hm
    · assumption
    · exact h.2 e hm

/-- A write of several bytes keeps the canonical form. -/
theorem canonical_writeLE (d : Byte) (n : Nat) : ∀ (m : PMap Byte) (a v : Nat),
    canonical d m = true → canonical d (writeLE m d a v n) = true := by
  induction n with
  | zero => intro m a v h; exact h
  | succ n ih => intro m a v h; exact ih _ _ _ (canonical_mset d m a _ h)

/-- A write of several bytes leaves every byte outside them alone. -/
theorem mget_writeLE_other (d : Byte) (n : Nat) : ∀ (m : PMap Byte) (a v b : Nat),
    (b < a ∨ a + n ≤ b) → mget d (writeLE m d a v n) b = mget d m b := by
  induction n with
  | zero => intro m a v b _; rfl
  | succ n ih =>
    intro m a v b h
    rw [writeLE, ih _ _ _ _ (by omega), mget_mset_other _ _ _ _ (by omega)]

/-- Reading back the bytes just written gives the low bytes of the value. -/
theorem readLE_writeLE (d : Byte) (n : Nat) : ∀ (m : PMap Byte) (a v : Nat),
    readLE (writeLE m d a v n) d a n = v % 256 ^ n := by
  induction n with
  | zero => intro m a v; simp [readLE, Nat.mod_one]
  | succ n ih =>
    intro m a v
    have h1 : mget d (writeLE (mset d m a (BitVec.ofNat 8 v)) d (a + 1) (v / 256) n) a = BitVec.ofNat 8 v := by
      rw [mget_writeLE_other _ _ _ _ _ _ (by omega), mget_mset_same]
    rw [writeLE, readLE, h1, ih, pow_succ, mul_comm (256 ^ n), Nat.mod_mul]
    simp

end Sys2Proof.Machine
end

