-- ==== Sys2Proof/Laws/State.lean ====
section
/-!
SUPPORT. The small lemmas of the state: what each named update leaves of each field, and what it reads back.
-/

namespace Sys2Proof.Machine

variable (s : State)

/-! ### put -/

@[simp] theorem State.put_pending (f : Fld) (v u n : Nat) : (s.put f v u n).pending = s.pending := rfl
@[simp] theorem State.put_freeCtr (f : Fld) (v u n : Nat) : (s.put f v u n).freeCtr = s.freeCtr := rfl
@[simp] theorem State.put_threads (f : Fld) (v u n : Nat) : (s.put f v u n).threads = s.threads := rfl
@[simp] theorem State.put_cores (f : Fld) (v u n : Nat) : (s.put f v u n).cores = s.cores := rfl
@[simp] theorem State.put_lanes (f : Fld) (v u n : Nat) : (s.put f v u n).lanes = s.lanes := rfl
@[simp] theorem State.put_sram (f : Fld) (v u n : Nat) : (s.put f v u n).sram = s.sram := rfl
@[simp] theorem State.put_damaged (f : Fld) (v u n : Nat) : (s.put f v u n).damaged = s.damaged := rfl
@[simp] theorem State.put_badTiles (f : Fld) (v u n : Nat) : (s.put f v u n).badTiles = s.badTiles := rfl
@[simp] theorem State.put_istore (f : Fld) (v u n : Nat) : (s.put f v u n).istore = s.istore := rfl
@[simp] theorem State.put_istoreBad (f : Fld) (v u n : Nat) : (s.put f v u n).istoreBad = s.istoreBad := rfl
@[simp] theorem State.put_patStore (f : Fld) (v u n : Nat) : (s.put f v u n).patStore = s.patStore := rfl
@[simp] theorem State.put_patBad (f : Fld) (v u n : Nat) : (s.put f v u n).patBad = s.patBad := rfl
@[simp] theorem State.put_fenced (f : Fld) (v u n : Nat) : (s.put f v u n).fenced = s.fenced := rfl
@[simp] theorem State.put_badPositions (f : Fld) (v u n : Nat) : (s.put f v u n).badPositions = s.badPositions := rfl
@[simp] theorem State.put_heldBad (f : Fld) (v u n : Nat) : (s.put f v u n).heldBad = s.heldBad := rfl
@[simp] theorem State.put_fuseMap (f : Fld) (v u n : Nat) : (s.put f v u n).fuseMap = s.fuseMap := rfl
@[simp] theorem State.put_disagreements (f : Fld) (v u n : Nat) : (s.put f v u n).disagreements = s.disagreements := rfl
@[simp] theorem State.put_relocations (f : Fld) (v u n : Nat) : (s.put f v u n).relocations = s.relocations := rfl
@[simp] theorem State.put_watch (f : Fld) (v u n : Nat) : (s.put f v u n).watch = s.watch := rfl
@[simp] theorem State.put_darnQueue (f : Fld) (v u n : Nat) : (s.put f v u n).darnQueue = s.darnQueue := rfl
@[simp] theorem State.put_darn (f : Fld) (v u n : Nat) : (s.put f v u n).darn = s.darn := rfl
@[simp] theorem State.put_fab (f : Fld) (v u n : Nat) : (s.put f v u n).fab = s.fab := rfl
@[simp] theorem State.put_slots (f : Fld) (v u n : Nat) : (s.put f v u n).slots = s.slots := rfl
@[simp] theorem State.put_waitingOrders (f : Fld) (v u n : Nat) : (s.put f v u n).waitingOrders = s.waitingOrders := rfl
@[simp] theorem State.put_rings (f : Fld) (v u n : Nat) : (s.put f v u n).rings = s.rings := rfl
@[simp] theorem State.put_cueDue (f : Fld) (v u n : Nat) : (s.put f v u n).cueDue = s.cueDue := rfl
@[simp] theorem State.put_markerLast (f : Fld) (v u n : Nat) : (s.put f v u n).markerLast = s.markerLast := rfl
@[simp] theorem State.put_distGen (f : Fld) (v u n : Nat) : (s.put f v u n).distGen = s.distGen := rfl
@[simp] theorem State.put_migration (f : Fld) (v u n : Nat) : (s.put f v u n).migration = s.migration := rfl
@[simp] theorem State.put_hostOut (f : Fld) (v u n : Nat) : (s.put f v u n).hostOut = s.hostOut := rfl
@[simp] theorem State.put_ports (f : Fld) (v u n : Nat) : (s.put f v u n).ports = s.ports := rfl
@[simp] theorem State.put_hostReqs (f : Fld) (v u n : Nat) : (s.put f v u n).hostReqs = s.hostReqs := rfl
@[simp] theorem State.put_messages (f : Fld) (v u n : Nat) : (s.put f v u n).messages = s.messages := rfl
@[simp] theorem State.put_msixPending (f : Fld) (v u n : Nat) : (s.put f v u n).msixPending = s.msixPending := rfl
@[simp] theorem State.put_fibres (f : Fld) (v u n : Nat) : (s.put f v u n).fibres = s.fibres := rfl
@[simp] theorem State.put_answers (f : Fld) (v u n : Nat) : (s.put f v u n).answers = s.answers := rfl
@[simp] theorem State.put_unexpected (f : Fld) (v u n : Nat) : (s.put f v u n).unexpected = s.unexpected := rfl
@[simp] theorem State.put_discovered (f : Fld) (v u n : Nat) : (s.put f v u n).discovered = s.discovered := rfl
@[simp] theorem State.put_brgCmd (f : Fld) (v u n : Nat) : (s.put f v u n).brgCmd = s.brgCmd := rfl
@[simp] theorem State.put_firstBringUp (f : Fld) (v u n : Nat) : (s.put f v u n).firstBringUp = s.firstBringUp := rfl
@[simp] theorem State.put_partialReset (f : Fld) (v u n : Nat) : (s.put f v u n).partialReset = s.partialReset := rfl
@[simp] theorem State.put_waitingResets (f : Fld) (v u n : Nat) : (s.put f v u n).waitingResets = s.waitingResets := rfl
@[simp] theorem State.put_resetRun (f : Fld) (v u n : Nat) : (s.put f v u n).resetRun = s.resetRun := rfl
@[simp] theorem State.put_nvsResetWaits (f : Fld) (v u n : Nat) : (s.put f v u n).nvsResetWaits = s.nvsResetWaits := rfl
@[simp] theorem State.put_pllSetting (f : Fld) (v u n : Nat) : (s.put f v u n).pllSetting = s.pllSetting := rfl
@[simp] theorem State.put_sequences (f : Fld) (v u n : Nat) : (s.put f v u n).sequences = s.sequences := rfl
@[simp] theorem State.put_lockHold (f : Fld) (v u n : Nat) : (s.put f v u n).lockHold = s.lockHold := rfl
@[simp] theorem State.put_stopped (f : Fld) (v u n : Nat) : (s.put f v u n).stopped = s.stopped := rfl
@[simp] theorem State.put_power (f : Fld) (v u n : Nat) : (s.put f v u n).power = s.power := rfl
@[simp] theorem State.put_store (f : Fld) (v u n : Nat) : (s.put f v u n).store = s.store := rfl
@[simp] theorem State.put_life (f : Fld) (v u n : Nat) : (s.put f v u n).life = s.life := rfl
@[simp] theorem State.put_nvsQueue (f : Fld) (v u n : Nat) : (s.put f v u n).nvsQueue = s.nvsQueue := rfl
@[simp] theorem State.put_nvsWrite (f : Fld) (v u n : Nat) : (s.put f v u n).nvsWrite = s.nvsWrite := rfl
@[simp] theorem State.put_firmware (f : Fld) (v u n : Nat) : (s.put f v u n).firmware = s.firmware := rfl
@[simp] theorem State.put_updBuf (f : Fld) (v u n : Nat) : (s.put f v u n).updBuf = s.updBuf := rfl
@[simp] theorem State.put_spdm (f : Fld) (v u n : Nat) : (s.put f v u n).spdm = s.spdm := rfl
@[simp] theorem State.put_ideKeys (f : Fld) (v u n : Nat) : (s.put f v u n).ideKeys = s.ideKeys := rfl
@[simp] theorem State.put_mgt (f : Fld) (v u n : Nat) : (s.put f v u n).mgt = s.mgt := rfl
@[simp] theorem State.put_testsFrom (f : Fld) (v u n : Nat) : (s.put f v u n).testsFrom = s.testsFrom := rfl
@[simp] theorem State.put_tests (f : Fld) (v u n : Nat) : (s.put f v u n).tests = s.tests := rfl
@[simp] theorem State.put_trapWindows (f : Fld) (v u n : Nat) : (s.put f v u n).trapWindows = s.trapWindows := rfl
@[simp] theorem State.put_trdCopy (f : Fld) (v u n : Nat) : (s.put f v u n).trdCopy = s.trdCopy := rfl
@[simp] theorem State.put_trdAdvances (f : Fld) (v u n : Nat) : (s.put f v u n).trdAdvances = s.trdAdvances := rfl
@[simp] theorem State.put_spool (f : Fld) (v u n : Nat) : (s.put f v u n).spool = s.spool := rfl
@[simp] theorem State.put_nextSpool (f : Fld) (v u n : Nat) : (s.put f v u n).nextSpool = s.nextSpool := rfl
@[simp] theorem State.put_spoolWin (f : Fld) (v u n : Nat) : (s.put f v u n).spoolWin = s.spoolWin := rfl
@[simp] theorem State.put_events (f : Fld) (v u n : Nat) : (s.put f v u n).events = s.events := rfl
@[simp] theorem State.put_ticked (f : Fld) (v u n : Nat) : (s.put f v u n).ticked = s.ticked := rfl
@[simp] theorem State.put_slotTables (f : Fld) (v u n : Nat) : (s.put f v u n).slotTables = s.slotTables := rfl
@[simp] theorem State.put_portOut (f : Fld) (v u n : Nat) : (s.put f v u n).portOut = s.portOut := rfl
@[simp] theorem State.put_portSteer (f : Fld) (v u n : Nat) : (s.put f v u n).portSteer = s.portSteer := rfl
@[simp] theorem State.put_fusedPorts (f : Fld) (v u n : Nat) : (s.put f v u n).fusedPorts = s.fusedPorts := rfl
@[simp] theorem State.put_cacheOut (f : Fld) (v u n : Nat) : (s.put f v u n).cacheOut = s.cacheOut := rfl
@[simp] theorem State.put_fwRuns (f : Fld) (v u n : Nat) : (s.put f v u n).fwRuns = s.fwRuns := rfl

/-! ### tick -/

@[simp] theorem State.tick_pending (f : Fld) (u n : Nat) : (s.tick f u n).pending = s.pending := rfl
@[simp] theorem State.tick_freeCtr (f : Fld) (u n : Nat) : (s.tick f u n).freeCtr = s.freeCtr := rfl
@[simp] theorem State.tick_regs (f : Fld) (u n : Nat) : (s.tick f u n).regs = s.regs := rfl
@[simp] theorem State.tick_threads (f : Fld) (u n : Nat) : (s.tick f u n).threads = s.threads := rfl
@[simp] theorem State.tick_cores (f : Fld) (u n : Nat) : (s.tick f u n).cores = s.cores := rfl
@[simp] theorem State.tick_lanes (f : Fld) (u n : Nat) : (s.tick f u n).lanes = s.lanes := rfl
@[simp] theorem State.tick_sram (f : Fld) (u n : Nat) : (s.tick f u n).sram = s.sram := rfl
@[simp] theorem State.tick_damaged (f : Fld) (u n : Nat) : (s.tick f u n).damaged = s.damaged := rfl
@[simp] theorem State.tick_badTiles (f : Fld) (u n : Nat) : (s.tick f u n).badTiles = s.badTiles := rfl
@[simp] theorem State.tick_istore (f : Fld) (u n : Nat) : (s.tick f u n).istore = s.istore := rfl
@[simp] theorem State.tick_istoreBad (f : Fld) (u n : Nat) : (s.tick f u n).istoreBad = s.istoreBad := rfl
@[simp] theorem State.tick_patStore (f : Fld) (u n : Nat) : (s.tick f u n).patStore = s.patStore := rfl
@[simp] theorem State.tick_patBad (f : Fld) (u n : Nat) : (s.tick f u n).patBad = s.patBad := rfl
@[simp] theorem State.tick_fenced (f : Fld) (u n : Nat) : (s.tick f u n).fenced = s.fenced := rfl
@[simp] theorem State.tick_badPositions (f : Fld) (u n : Nat) : (s.tick f u n).badPositions = s.badPositions := rfl
@[simp] theorem State.tick_heldBad (f : Fld) (u n : Nat) : (s.tick f u n).heldBad = s.heldBad := rfl
@[simp] theorem State.tick_fuseMap (f : Fld) (u n : Nat) : (s.tick f u n).fuseMap = s.fuseMap := rfl
@[simp] theorem State.tick_disagreements (f : Fld) (u n : Nat) : (s.tick f u n).disagreements = s.disagreements := rfl
@[simp] theorem State.tick_relocations (f : Fld) (u n : Nat) : (s.tick f u n).relocations = s.relocations := rfl
@[simp] theorem State.tick_watch (f : Fld) (u n : Nat) : (s.tick f u n).watch = s.watch := rfl
@[simp] theorem State.tick_darnQueue (f : Fld) (u n : Nat) : (s.tick f u n).darnQueue = s.darnQueue := rfl
@[simp] theorem State.tick_darn (f : Fld) (u n : Nat) : (s.tick f u n).darn = s.darn := rfl
@[simp] theorem State.tick_fab (f : Fld) (u n : Nat) : (s.tick f u n).fab = s.fab := rfl
@[simp] theorem State.tick_slots (f : Fld) (u n : Nat) : (s.tick f u n).slots = s.slots := rfl
@[simp] theorem State.tick_slotTables (f : Fld) (u n : Nat) : (s.tick f u n).slotTables = s.slotTables := rfl
@[simp] theorem State.tick_waitingOrders (f : Fld) (u n : Nat) : (s.tick f u n).waitingOrders = s.waitingOrders := rfl
@[simp] theorem State.tick_rings (f : Fld) (u n : Nat) : (s.tick f u n).rings = s.rings := rfl
@[simp] theorem State.tick_cueDue (f : Fld) (u n : Nat) : (s.tick f u n).cueDue = s.cueDue := rfl
@[simp] theorem State.tick_markerLast (f : Fld) (u n : Nat) : (s.tick f u n).markerLast = s.markerLast := rfl
@[simp] theorem State.tick_distGen (f : Fld) (u n : Nat) : (s.tick f u n).distGen = s.distGen := rfl
@[simp] theorem State.tick_migration (f : Fld) (u n : Nat) : (s.tick f u n).migration = s.migration := rfl
@[simp] theorem State.tick_hostOut (f : Fld) (u n : Nat) : (s.tick f u n).hostOut = s.hostOut := rfl
@[simp] theorem State.tick_ports (f : Fld) (u n : Nat) : (s.tick f u n).ports = s.ports := rfl
@[simp] theorem State.tick_portOut (f : Fld) (u n : Nat) : (s.tick f u n).portOut = s.portOut := rfl
@[simp] theorem State.tick_portSteer (f : Fld) (u n : Nat) : (s.tick f u n).portSteer = s.portSteer := rfl
@[simp] theorem State.tick_fusedPorts (f : Fld) (u n : Nat) : (s.tick f u n).fusedPorts = s.fusedPorts := rfl
@[simp] theorem State.tick_hostReqs (f : Fld) (u n : Nat) : (s.tick f u n).hostReqs = s.hostReqs := rfl
@[simp] theorem State.tick_cacheOut (f : Fld) (u n : Nat) : (s.tick f u n).cacheOut = s.cacheOut := rfl
@[simp] theorem State.tick_messages (f : Fld) (u n : Nat) : (s.tick f u n).messages = s.messages := rfl
@[simp] theorem State.tick_msixPending (f : Fld) (u n : Nat) : (s.tick f u n).msixPending = s.msixPending := rfl
@[simp] theorem State.tick_fibres (f : Fld) (u n : Nat) : (s.tick f u n).fibres = s.fibres := rfl
@[simp] theorem State.tick_answers (f : Fld) (u n : Nat) : (s.tick f u n).answers = s.answers := rfl
@[simp] theorem State.tick_unexpected (f : Fld) (u n : Nat) : (s.tick f u n).unexpected = s.unexpected := rfl
@[simp] theorem State.tick_discovered (f : Fld) (u n : Nat) : (s.tick f u n).discovered = s.discovered := rfl
@[simp] theorem State.tick_brgCmd (f : Fld) (u n : Nat) : (s.tick f u n).brgCmd = s.brgCmd := rfl
@[simp] theorem State.tick_firstBringUp (f : Fld) (u n : Nat) : (s.tick f u n).firstBringUp = s.firstBringUp := rfl
@[simp] theorem State.tick_partialReset (f : Fld) (u n : Nat) : (s.tick f u n).partialReset = s.partialReset := rfl
@[simp] theorem State.tick_waitingResets (f : Fld) (u n : Nat) : (s.tick f u n).waitingResets = s.waitingResets := rfl
@[simp] theorem State.tick_resetRun (f : Fld) (u n : Nat) : (s.tick f u n).resetRun = s.resetRun := rfl
@[simp] theorem State.tick_nvsResetWaits (f : Fld) (u n : Nat) : (s.tick f u n).nvsResetWaits = s.nvsResetWaits := rfl
@[simp] theorem State.tick_pllSetting (f : Fld) (u n : Nat) : (s.tick f u n).pllSetting = s.pllSetting := rfl
@[simp] theorem State.tick_sequences (f : Fld) (u n : Nat) : (s.tick f u n).sequences = s.sequences := rfl
@[simp] theorem State.tick_lockHold (f : Fld) (u n : Nat) : (s.tick f u n).lockHold = s.lockHold := rfl
@[simp] theorem State.tick_stopped (f : Fld) (u n : Nat) : (s.tick f u n).stopped = s.stopped := rfl
@[simp] theorem State.tick_power (f : Fld) (u n : Nat) : (s.tick f u n).power = s.power := rfl
@[simp] theorem State.tick_store (f : Fld) (u n : Nat) : (s.tick f u n).store = s.store := rfl
@[simp] theorem State.tick_life (f : Fld) (u n : Nat) : (s.tick f u n).life = s.life := rfl
@[simp] theorem State.tick_nvsQueue (f : Fld) (u n : Nat) : (s.tick f u n).nvsQueue = s.nvsQueue := rfl
@[simp] theorem State.tick_nvsWrite (f : Fld) (u n : Nat) : (s.tick f u n).nvsWrite = s.nvsWrite := rfl
@[simp] theorem State.tick_firmware (f : Fld) (u n : Nat) : (s.tick f u n).firmware = s.firmware := rfl
@[simp] theorem State.tick_fwRuns (f : Fld) (u n : Nat) : (s.tick f u n).fwRuns = s.fwRuns := rfl
@[simp] theorem State.tick_updBuf (f : Fld) (u n : Nat) : (s.tick f u n).updBuf = s.updBuf := rfl
@[simp] theorem State.tick_spdm (f : Fld) (u n : Nat) : (s.tick f u n).spdm = s.spdm := rfl
@[simp] theorem State.tick_ideKeys (f : Fld) (u n : Nat) : (s.tick f u n).ideKeys = s.ideKeys := rfl
@[simp] theorem State.tick_mgt (f : Fld) (u n : Nat) : (s.tick f u n).mgt = s.mgt := rfl
@[simp] theorem State.tick_testsFrom (f : Fld) (u n : Nat) : (s.tick f u n).testsFrom = s.testsFrom := rfl
@[simp] theorem State.tick_tests (f : Fld) (u n : Nat) : (s.tick f u n).tests = s.tests := rfl
@[simp] theorem State.tick_trapWindows (f : Fld) (u n : Nat) : (s.tick f u n).trapWindows = s.trapWindows := rfl
@[simp] theorem State.tick_trdCopy (f : Fld) (u n : Nat) : (s.tick f u n).trdCopy = s.trdCopy := rfl
@[simp] theorem State.tick_trdAdvances (f : Fld) (u n : Nat) : (s.tick f u n).trdAdvances = s.trdAdvances := rfl
@[simp] theorem State.tick_spool (f : Fld) (u n : Nat) : (s.tick f u n).spool = s.spool := rfl
@[simp] theorem State.tick_nextSpool (f : Fld) (u n : Nat) : (s.tick f u n).nextSpool = s.nextSpool := rfl
@[simp] theorem State.tick_spoolWin (f : Fld) (u n : Nat) : (s.tick f u n).spoolWin = s.spoolWin := rfl
@[simp] theorem State.tick_events (f : Fld) (u n : Nat) : (s.tick f u n).events = s.events := rfl

/-! ### setThread -/

@[simp] theorem State.setThread_pending (c : Lcn) (t : Fin 4) (th : Thread) : (s.setThread c t th).pending = s.pending := rfl
@[simp] theorem State.setThread_freeCtr (c : Lcn) (t : Fin 4) (th : Thread) : (s.setThread c t th).freeCtr = s.freeCtr := rfl
@[simp] theorem State.setThread_regs (c : Lcn) (t : Fin 4) (th : Thread) : (s.setThread c t th).regs = s.regs := rfl
@[simp] theorem State.setThread_cores (c : Lcn) (t : Fin 4) (th : Thread) : (s.setThread c t th).cores = s.cores := rfl
@[simp] theorem State.setThread_lanes (c : Lcn) (t : Fin 4) (th : Thread) : (s.setThread c t th).lanes = s.lanes := rfl
@[simp] theorem State.setThread_sram (c : Lcn) (t : Fin 4) (th : Thread) : (s.setThread c t th).sram = s.sram := rfl
@[simp] theorem State.setThread_damaged (c : Lcn) (t : Fin 4) (th : Thread) : (s.setThread c t th).damaged = s.damaged := rfl
@[simp] theorem State.setThread_badTiles (c : Lcn) (t : Fin 4) (th : Thread) : (s.setThread c t th).badTiles = s.badTiles := rfl
@[simp] theorem State.setThread_istore (c : Lcn) (t : Fin 4) (th : Thread) : (s.setThread c t th).istore = s.istore := rfl
@[simp] theorem State.setThread_istoreBad (c : Lcn) (t : Fin 4) (th : Thread) : (s.setThread c t th).istoreBad = s.istoreBad := rfl
@[simp] theorem State.setThread_patStore (c : Lcn) (t : Fin 4) (th : Thread) : (s.setThread c t th).patStore = s.patStore := rfl
@[simp] theorem State.setThread_patBad (c : Lcn) (t : Fin 4) (th : Thread) : (s.setThread c t th).patBad = s.patBad := rfl
@[simp] theorem State.setThread_fenced (c : Lcn) (t : Fin 4) (th : Thread) : (s.setThread c t th).fenced = s.fenced := rfl
@[simp] theorem State.setThread_badPositions (c : Lcn) (t : Fin 4) (th : Thread) : (s.setThread c t th).badPositions = s.badPositions := rfl
@[simp] theorem State.setThread_heldBad (c : Lcn) (t : Fin 4) (th : Thread) : (s.setThread c t th).heldBad = s.heldBad := rfl
@[simp] theorem State.setThread_fuseMap (c : Lcn) (t : Fin 4) (th : Thread) : (s.setThread c t th).fuseMap = s.fuseMap := rfl
@[simp] theorem State.setThread_disagreements (c : Lcn) (t : Fin 4) (th : Thread) : (s.setThread c t th).disagreements = s.disagreements := rfl
@[simp] theorem State.setThread_relocations (c : Lcn) (t : Fin 4) (th : Thread) : (s.setThread c t th).relocations = s.relocations := rfl
@[simp] theorem State.setThread_watch (c : Lcn) (t : Fin 4) (th : Thread) : (s.setThread c t th).watch = s.watch := rfl
@[simp] theorem State.setThread_darnQueue (c : Lcn) (t : Fin 4) (th : Thread) : (s.setThread c t th).darnQueue = s.darnQueue := rfl
@[simp] theorem State.setThread_darn (c : Lcn) (t : Fin 4) (th : Thread) : (s.setThread c t th).darn = s.darn := rfl
@[simp] theorem State.setThread_fab (c : Lcn) (t : Fin 4) (th : Thread) : (s.setThread c t th).fab = s.fab := rfl
@[simp] theorem State.setThread_slots (c : Lcn) (t : Fin 4) (th : Thread) : (s.setThread c t th).slots = s.slots := rfl
@[simp] theorem State.setThread_waitingOrders (c : Lcn) (t : Fin 4) (th : Thread) : (s.setThread c t th).waitingOrders = s.waitingOrders := rfl
@[simp] theorem State.setThread_rings (c : Lcn) (t : Fin 4) (th : Thread) : (s.setThread c t th).rings = s.rings := rfl
@[simp] theorem State.setThread_cueDue (c : Lcn) (t : Fin 4) (th : Thread) : (s.setThread c t th).cueDue = s.cueDue := rfl
@[simp] theorem State.setThread_markerLast (c : Lcn) (t : Fin 4) (th : Thread) : (s.setThread c t th).markerLast = s.markerLast := rfl
@[simp] theorem State.setThread_distGen (c : Lcn) (t : Fin 4) (th : Thread) : (s.setThread c t th).distGen = s.distGen := rfl
@[simp] theorem State.setThread_migration (c : Lcn) (t : Fin 4) (th : Thread) : (s.setThread c t th).migration = s.migration := rfl
@[simp] theorem State.setThread_hostOut (c : Lcn) (t : Fin 4) (th : Thread) : (s.setThread c t th).hostOut = s.hostOut := rfl
@[simp] theorem State.setThread_ports (c : Lcn) (t : Fin 4) (th : Thread) : (s.setThread c t th).ports = s.ports := rfl
@[simp] theorem State.setThread_hostReqs (c : Lcn) (t : Fin 4) (th : Thread) : (s.setThread c t th).hostReqs = s.hostReqs := rfl
@[simp] theorem State.setThread_messages (c : Lcn) (t : Fin 4) (th : Thread) : (s.setThread c t th).messages = s.messages := rfl
@[simp] theorem State.setThread_msixPending (c : Lcn) (t : Fin 4) (th : Thread) : (s.setThread c t th).msixPending = s.msixPending := rfl
@[simp] theorem State.setThread_fibres (c : Lcn) (t : Fin 4) (th : Thread) : (s.setThread c t th).fibres = s.fibres := rfl
@[simp] theorem State.setThread_answers (c : Lcn) (t : Fin 4) (th : Thread) : (s.setThread c t th).answers = s.answers := rfl
@[simp] theorem State.setThread_unexpected (c : Lcn) (t : Fin 4) (th : Thread) : (s.setThread c t th).unexpected = s.unexpected := rfl
@[simp] theorem State.setThread_discovered (c : Lcn) (t : Fin 4) (th : Thread) : (s.setThread c t th).discovered = s.discovered := rfl
@[simp] theorem State.setThread_brgCmd (c : Lcn) (t : Fin 4) (th : Thread) : (s.setThread c t th).brgCmd = s.brgCmd := rfl
@[simp] theorem State.setThread_firstBringUp (c : Lcn) (t : Fin 4) (th : Thread) : (s.setThread c t th).firstBringUp = s.firstBringUp := rfl
@[simp] theorem State.setThread_partialReset (c : Lcn) (t : Fin 4) (th : Thread) : (s.setThread c t th).partialReset = s.partialReset := rfl
@[simp] theorem State.setThread_waitingResets (c : Lcn) (t : Fin 4) (th : Thread) : (s.setThread c t th).waitingResets = s.waitingResets := rfl
@[simp] theorem State.setThread_resetRun (c : Lcn) (t : Fin 4) (th : Thread) : (s.setThread c t th).resetRun = s.resetRun := rfl
@[simp] theorem State.setThread_nvsResetWaits (c : Lcn) (t : Fin 4) (th : Thread) : (s.setThread c t th).nvsResetWaits = s.nvsResetWaits := rfl
@[simp] theorem State.setThread_pllSetting (c : Lcn) (t : Fin 4) (th : Thread) : (s.setThread c t th).pllSetting = s.pllSetting := rfl
@[simp] theorem State.setThread_sequences (c : Lcn) (t : Fin 4) (th : Thread) : (s.setThread c t th).sequences = s.sequences := rfl
@[simp] theorem State.setThread_lockHold (c : Lcn) (t : Fin 4) (th : Thread) : (s.setThread c t th).lockHold = s.lockHold := rfl
@[simp] theorem State.setThread_stopped (c : Lcn) (t : Fin 4) (th : Thread) : (s.setThread c t th).stopped = s.stopped := rfl
@[simp] theorem State.setThread_power (c : Lcn) (t : Fin 4) (th : Thread) : (s.setThread c t th).power = s.power := rfl
@[simp] theorem State.setThread_store (c : Lcn) (t : Fin 4) (th : Thread) : (s.setThread c t th).store = s.store := rfl
@[simp] theorem State.setThread_life (c : Lcn) (t : Fin 4) (th : Thread) : (s.setThread c t th).life = s.life := rfl
@[simp] theorem State.setThread_nvsQueue (c : Lcn) (t : Fin 4) (th : Thread) : (s.setThread c t th).nvsQueue = s.nvsQueue := rfl
@[simp] theorem State.setThread_nvsWrite (c : Lcn) (t : Fin 4) (th : Thread) : (s.setThread c t th).nvsWrite = s.nvsWrite := rfl
@[simp] theorem State.setThread_firmware (c : Lcn) (t : Fin 4) (th : Thread) : (s.setThread c t th).firmware = s.firmware := rfl
@[simp] theorem State.setThread_updBuf (c : Lcn) (t : Fin 4) (th : Thread) : (s.setThread c t th).updBuf = s.updBuf := rfl
@[simp] theorem State.setThread_spdm (c : Lcn) (t : Fin 4) (th : Thread) : (s.setThread c t th).spdm = s.spdm := rfl
@[simp] theorem State.setThread_ideKeys (c : Lcn) (t : Fin 4) (th : Thread) : (s.setThread c t th).ideKeys = s.ideKeys := rfl
@[simp] theorem State.setThread_mgt (c : Lcn) (t : Fin 4) (th : Thread) : (s.setThread c t th).mgt = s.mgt := rfl
@[simp] theorem State.setThread_testsFrom (c : Lcn) (t : Fin 4) (th : Thread) : (s.setThread c t th).testsFrom = s.testsFrom := rfl
@[simp] theorem State.setThread_tests (c : Lcn) (t : Fin 4) (th : Thread) : (s.setThread c t th).tests = s.tests := rfl
@[simp] theorem State.setThread_trapWindows (c : Lcn) (t : Fin 4) (th : Thread) : (s.setThread c t th).trapWindows = s.trapWindows := rfl
@[simp] theorem State.setThread_trdCopy (c : Lcn) (t : Fin 4) (th : Thread) : (s.setThread c t th).trdCopy = s.trdCopy := rfl
@[simp] theorem State.setThread_trdAdvances (c : Lcn) (t : Fin 4) (th : Thread) : (s.setThread c t th).trdAdvances = s.trdAdvances := rfl
@[simp] theorem State.setThread_spool (c : Lcn) (t : Fin 4) (th : Thread) : (s.setThread c t th).spool = s.spool := rfl
@[simp] theorem State.setThread_nextSpool (c : Lcn) (t : Fin 4) (th : Thread) : (s.setThread c t th).nextSpool = s.nextSpool := rfl
@[simp] theorem State.setThread_spoolWin (c : Lcn) (t : Fin 4) (th : Thread) : (s.setThread c t th).spoolWin = s.spoolWin := rfl
@[simp] theorem State.setThread_events (c : Lcn) (t : Fin 4) (th : Thread) : (s.setThread c t th).events = s.events := rfl
@[simp] theorem State.setThread_ticked (c : Lcn) (t : Fin 4) (th : Thread) : (s.setThread c t th).ticked = s.ticked := rfl
@[simp] theorem State.setThread_slotTables (c : Lcn) (t : Fin 4) (th : Thread) : (s.setThread c t th).slotTables = s.slotTables := rfl
@[simp] theorem State.setThread_portOut (c : Lcn) (t : Fin 4) (th : Thread) : (s.setThread c t th).portOut = s.portOut := rfl
@[simp] theorem State.setThread_portSteer (c : Lcn) (t : Fin 4) (th : Thread) : (s.setThread c t th).portSteer = s.portSteer := rfl
@[simp] theorem State.setThread_fusedPorts (c : Lcn) (t : Fin 4) (th : Thread) : (s.setThread c t th).fusedPorts = s.fusedPorts := rfl
@[simp] theorem State.setThread_cacheOut (c : Lcn) (t : Fin 4) (th : Thread) : (s.setThread c t th).cacheOut = s.cacheOut := rfl
@[simp] theorem State.setThread_fwRuns (c : Lcn) (t : Fin 4) (th : Thread) : (s.setThread c t th).fwRuns = s.fwRuns := rfl

/-! ### setCore -/

@[simp] theorem State.setCore_pending (c : Lcn) (k : Core) : (s.setCore c k).pending = s.pending := rfl
@[simp] theorem State.setCore_freeCtr (c : Lcn) (k : Core) : (s.setCore c k).freeCtr = s.freeCtr := rfl
@[simp] theorem State.setCore_regs (c : Lcn) (k : Core) : (s.setCore c k).regs = s.regs := rfl
@[simp] theorem State.setCore_threads (c : Lcn) (k : Core) : (s.setCore c k).threads = s.threads := rfl
@[simp] theorem State.setCore_lanes (c : Lcn) (k : Core) : (s.setCore c k).lanes = s.lanes := rfl
@[simp] theorem State.setCore_sram (c : Lcn) (k : Core) : (s.setCore c k).sram = s.sram := rfl
@[simp] theorem State.setCore_damaged (c : Lcn) (k : Core) : (s.setCore c k).damaged = s.damaged := rfl
@[simp] theorem State.setCore_badTiles (c : Lcn) (k : Core) : (s.setCore c k).badTiles = s.badTiles := rfl
@[simp] theorem State.setCore_istore (c : Lcn) (k : Core) : (s.setCore c k).istore = s.istore := rfl
@[simp] theorem State.setCore_istoreBad (c : Lcn) (k : Core) : (s.setCore c k).istoreBad = s.istoreBad := rfl
@[simp] theorem State.setCore_patStore (c : Lcn) (k : Core) : (s.setCore c k).patStore = s.patStore := rfl
@[simp] theorem State.setCore_patBad (c : Lcn) (k : Core) : (s.setCore c k).patBad = s.patBad := rfl
@[simp] theorem State.setCore_fenced (c : Lcn) (k : Core) : (s.setCore c k).fenced = s.fenced := rfl
@[simp] theorem State.setCore_badPositions (c : Lcn) (k : Core) : (s.setCore c k).badPositions = s.badPositions := rfl
@[simp] theorem State.setCore_heldBad (c : Lcn) (k : Core) : (s.setCore c k).heldBad = s.heldBad := rfl
@[simp] theorem State.setCore_fuseMap (c : Lcn) (k : Core) : (s.setCore c k).fuseMap = s.fuseMap := rfl
@[simp] theorem State.setCore_disagreements (c : Lcn) (k : Core) : (s.setCore c k).disagreements = s.disagreements := rfl
@[simp] theorem State.setCore_relocations (c : Lcn) (k : Core) : (s.setCore c k).relocations = s.relocations := rfl
@[simp] theorem State.setCore_watch (c : Lcn) (k : Core) : (s.setCore c k).watch = s.watch := rfl
@[simp] theorem State.setCore_darnQueue (c : Lcn) (k : Core) : (s.setCore c k).darnQueue = s.darnQueue := rfl
@[simp] theorem State.setCore_darn (c : Lcn) (k : Core) : (s.setCore c k).darn = s.darn := rfl
@[simp] theorem State.setCore_fab (c : Lcn) (k : Core) : (s.setCore c k).fab = s.fab := rfl
@[simp] theorem State.setCore_slots (c : Lcn) (k : Core) : (s.setCore c k).slots = s.slots := rfl
@[simp] theorem State.setCore_waitingOrders (c : Lcn) (k : Core) : (s.setCore c k).waitingOrders = s.waitingOrders := rfl
@[simp] theorem State.setCore_rings (c : Lcn) (k : Core) : (s.setCore c k).rings = s.rings := rfl
@[simp] theorem State.setCore_cueDue (c : Lcn) (k : Core) : (s.setCore c k).cueDue = s.cueDue := rfl
@[simp] theorem State.setCore_markerLast (c : Lcn) (k : Core) : (s.setCore c k).markerLast = s.markerLast := rfl
@[simp] theorem State.setCore_distGen (c : Lcn) (k : Core) : (s.setCore c k).distGen = s.distGen := rfl
@[simp] theorem State.setCore_migration (c : Lcn) (k : Core) : (s.setCore c k).migration = s.migration := rfl
@[simp] theorem State.setCore_hostOut (c : Lcn) (k : Core) : (s.setCore c k).hostOut = s.hostOut := rfl
@[simp] theorem State.setCore_ports (c : Lcn) (k : Core) : (s.setCore c k).ports = s.ports := rfl
@[simp] theorem State.setCore_hostReqs (c : Lcn) (k : Core) : (s.setCore c k).hostReqs = s.hostReqs := rfl
@[simp] theorem State.setCore_messages (c : Lcn) (k : Core) : (s.setCore c k).messages = s.messages := rfl
@[simp] theorem State.setCore_msixPending (c : Lcn) (k : Core) : (s.setCore c k).msixPending = s.msixPending := rfl
@[simp] theorem State.setCore_fibres (c : Lcn) (k : Core) : (s.setCore c k).fibres = s.fibres := rfl
@[simp] theorem State.setCore_answers (c : Lcn) (k : Core) : (s.setCore c k).answers = s.answers := rfl
@[simp] theorem State.setCore_unexpected (c : Lcn) (k : Core) : (s.setCore c k).unexpected = s.unexpected := rfl
@[simp] theorem State.setCore_discovered (c : Lcn) (k : Core) : (s.setCore c k).discovered = s.discovered := rfl
@[simp] theorem State.setCore_brgCmd (c : Lcn) (k : Core) : (s.setCore c k).brgCmd = s.brgCmd := rfl
@[simp] theorem State.setCore_firstBringUp (c : Lcn) (k : Core) : (s.setCore c k).firstBringUp = s.firstBringUp := rfl
@[simp] theorem State.setCore_partialReset (c : Lcn) (k : Core) : (s.setCore c k).partialReset = s.partialReset := rfl
@[simp] theorem State.setCore_waitingResets (c : Lcn) (k : Core) : (s.setCore c k).waitingResets = s.waitingResets := rfl
@[simp] theorem State.setCore_resetRun (c : Lcn) (k : Core) : (s.setCore c k).resetRun = s.resetRun := rfl
@[simp] theorem State.setCore_nvsResetWaits (c : Lcn) (k : Core) : (s.setCore c k).nvsResetWaits = s.nvsResetWaits := rfl
@[simp] theorem State.setCore_pllSetting (c : Lcn) (k : Core) : (s.setCore c k).pllSetting = s.pllSetting := rfl
@[simp] theorem State.setCore_sequences (c : Lcn) (k : Core) : (s.setCore c k).sequences = s.sequences := rfl
@[simp] theorem State.setCore_lockHold (c : Lcn) (k : Core) : (s.setCore c k).lockHold = s.lockHold := rfl
@[simp] theorem State.setCore_stopped (c : Lcn) (k : Core) : (s.setCore c k).stopped = s.stopped := rfl
@[simp] theorem State.setCore_power (c : Lcn) (k : Core) : (s.setCore c k).power = s.power := rfl
@[simp] theorem State.setCore_store (c : Lcn) (k : Core) : (s.setCore c k).store = s.store := rfl
@[simp] theorem State.setCore_life (c : Lcn) (k : Core) : (s.setCore c k).life = s.life := rfl
@[simp] theorem State.setCore_nvsQueue (c : Lcn) (k : Core) : (s.setCore c k).nvsQueue = s.nvsQueue := rfl
@[simp] theorem State.setCore_nvsWrite (c : Lcn) (k : Core) : (s.setCore c k).nvsWrite = s.nvsWrite := rfl
@[simp] theorem State.setCore_firmware (c : Lcn) (k : Core) : (s.setCore c k).firmware = s.firmware := rfl
@[simp] theorem State.setCore_updBuf (c : Lcn) (k : Core) : (s.setCore c k).updBuf = s.updBuf := rfl
@[simp] theorem State.setCore_spdm (c : Lcn) (k : Core) : (s.setCore c k).spdm = s.spdm := rfl
@[simp] theorem State.setCore_ideKeys (c : Lcn) (k : Core) : (s.setCore c k).ideKeys = s.ideKeys := rfl
@[simp] theorem State.setCore_mgt (c : Lcn) (k : Core) : (s.setCore c k).mgt = s.mgt := rfl
@[simp] theorem State.setCore_testsFrom (c : Lcn) (k : Core) : (s.setCore c k).testsFrom = s.testsFrom := rfl
@[simp] theorem State.setCore_tests (c : Lcn) (k : Core) : (s.setCore c k).tests = s.tests := rfl
@[simp] theorem State.setCore_trapWindows (c : Lcn) (k : Core) : (s.setCore c k).trapWindows = s.trapWindows := rfl
@[simp] theorem State.setCore_trdCopy (c : Lcn) (k : Core) : (s.setCore c k).trdCopy = s.trdCopy := rfl
@[simp] theorem State.setCore_trdAdvances (c : Lcn) (k : Core) : (s.setCore c k).trdAdvances = s.trdAdvances := rfl
@[simp] theorem State.setCore_spool (c : Lcn) (k : Core) : (s.setCore c k).spool = s.spool := rfl
@[simp] theorem State.setCore_nextSpool (c : Lcn) (k : Core) : (s.setCore c k).nextSpool = s.nextSpool := rfl
@[simp] theorem State.setCore_spoolWin (c : Lcn) (k : Core) : (s.setCore c k).spoolWin = s.spoolWin := rfl
@[simp] theorem State.setCore_events (c : Lcn) (k : Core) : (s.setCore c k).events = s.events := rfl
@[simp] theorem State.setCore_ticked (c : Lcn) (k : Core) : (s.setCore c k).ticked = s.ticked := rfl
@[simp] theorem State.setCore_slotTables (c : Lcn) (k : Core) : (s.setCore c k).slotTables = s.slotTables := rfl
@[simp] theorem State.setCore_portOut (c : Lcn) (k : Core) : (s.setCore c k).portOut = s.portOut := rfl
@[simp] theorem State.setCore_portSteer (c : Lcn) (k : Core) : (s.setCore c k).portSteer = s.portSteer := rfl
@[simp] theorem State.setCore_fusedPorts (c : Lcn) (k : Core) : (s.setCore c k).fusedPorts = s.fusedPorts := rfl
@[simp] theorem State.setCore_cacheOut (c : Lcn) (k : Core) : (s.setCore c k).cacheOut = s.cacheOut := rfl
@[simp] theorem State.setCore_fwRuns (c : Lcn) (k : Core) : (s.setCore c k).fwRuns = s.fwRuns := rfl

/-! ### setPacket -/

@[simp] theorem State.setPacket_pending (p : Packet) : (s.setPacket p).pending = s.pending := rfl
@[simp] theorem State.setPacket_freeCtr (p : Packet) : (s.setPacket p).freeCtr = s.freeCtr := rfl
@[simp] theorem State.setPacket_regs (p : Packet) : (s.setPacket p).regs = s.regs := rfl
@[simp] theorem State.setPacket_threads (p : Packet) : (s.setPacket p).threads = s.threads := rfl
@[simp] theorem State.setPacket_cores (p : Packet) : (s.setPacket p).cores = s.cores := rfl
@[simp] theorem State.setPacket_lanes (p : Packet) : (s.setPacket p).lanes = s.lanes := rfl
@[simp] theorem State.setPacket_sram (p : Packet) : (s.setPacket p).sram = s.sram := rfl
@[simp] theorem State.setPacket_damaged (p : Packet) : (s.setPacket p).damaged = s.damaged := rfl
@[simp] theorem State.setPacket_badTiles (p : Packet) : (s.setPacket p).badTiles = s.badTiles := rfl
@[simp] theorem State.setPacket_istore (p : Packet) : (s.setPacket p).istore = s.istore := rfl
@[simp] theorem State.setPacket_istoreBad (p : Packet) : (s.setPacket p).istoreBad = s.istoreBad := rfl
@[simp] theorem State.setPacket_patStore (p : Packet) : (s.setPacket p).patStore = s.patStore := rfl
@[simp] theorem State.setPacket_patBad (p : Packet) : (s.setPacket p).patBad = s.patBad := rfl
@[simp] theorem State.setPacket_fenced (p : Packet) : (s.setPacket p).fenced = s.fenced := rfl
@[simp] theorem State.setPacket_badPositions (p : Packet) : (s.setPacket p).badPositions = s.badPositions := rfl
@[simp] theorem State.setPacket_heldBad (p : Packet) : (s.setPacket p).heldBad = s.heldBad := rfl
@[simp] theorem State.setPacket_fuseMap (p : Packet) : (s.setPacket p).fuseMap = s.fuseMap := rfl
@[simp] theorem State.setPacket_disagreements (p : Packet) : (s.setPacket p).disagreements = s.disagreements := rfl
@[simp] theorem State.setPacket_relocations (p : Packet) : (s.setPacket p).relocations = s.relocations := rfl
@[simp] theorem State.setPacket_watch (p : Packet) : (s.setPacket p).watch = s.watch := rfl
@[simp] theorem State.setPacket_darnQueue (p : Packet) : (s.setPacket p).darnQueue = s.darnQueue := rfl
@[simp] theorem State.setPacket_darn (p : Packet) : (s.setPacket p).darn = s.darn := rfl
@[simp] theorem State.setPacket_slots (p : Packet) : (s.setPacket p).slots = s.slots := rfl
@[simp] theorem State.setPacket_waitingOrders (p : Packet) : (s.setPacket p).waitingOrders = s.waitingOrders := rfl
@[simp] theorem State.setPacket_rings (p : Packet) : (s.setPacket p).rings = s.rings := rfl
@[simp] theorem State.setPacket_cueDue (p : Packet) : (s.setPacket p).cueDue = s.cueDue := rfl
@[simp] theorem State.setPacket_markerLast (p : Packet) : (s.setPacket p).markerLast = s.markerLast := rfl
@[simp] theorem State.setPacket_distGen (p : Packet) : (s.setPacket p).distGen = s.distGen := rfl
@[simp] theorem State.setPacket_migration (p : Packet) : (s.setPacket p).migration = s.migration := rfl
@[simp] theorem State.setPacket_hostOut (p : Packet) : (s.setPacket p).hostOut = s.hostOut := rfl
@[simp] theorem State.setPacket_ports (p : Packet) : (s.setPacket p).ports = s.ports := rfl
@[simp] theorem State.setPacket_hostReqs (p : Packet) : (s.setPacket p).hostReqs = s.hostReqs := rfl
@[simp] theorem State.setPacket_messages (p : Packet) : (s.setPacket p).messages = s.messages := rfl
@[simp] theorem State.setPacket_msixPending (p : Packet) : (s.setPacket p).msixPending = s.msixPending := rfl
@[simp] theorem State.setPacket_fibres (p : Packet) : (s.setPacket p).fibres = s.fibres := rfl
@[simp] theorem State.setPacket_answers (p : Packet) : (s.setPacket p).answers = s.answers := rfl
@[simp] theorem State.setPacket_unexpected (p : Packet) : (s.setPacket p).unexpected = s.unexpected := rfl
@[simp] theorem State.setPacket_discovered (p : Packet) : (s.setPacket p).discovered = s.discovered := rfl
@[simp] theorem State.setPacket_brgCmd (p : Packet) : (s.setPacket p).brgCmd = s.brgCmd := rfl
@[simp] theorem State.setPacket_firstBringUp (p : Packet) : (s.setPacket p).firstBringUp = s.firstBringUp := rfl
@[simp] theorem State.setPacket_partialReset (p : Packet) : (s.setPacket p).partialReset = s.partialReset := rfl
@[simp] theorem State.setPacket_waitingResets (p : Packet) : (s.setPacket p).waitingResets = s.waitingResets := rfl
@[simp] theorem State.setPacket_resetRun (p : Packet) : (s.setPacket p).resetRun = s.resetRun := rfl
@[simp] theorem State.setPacket_nvsResetWaits (p : Packet) : (s.setPacket p).nvsResetWaits = s.nvsResetWaits := rfl
@[simp] theorem State.setPacket_pllSetting (p : Packet) : (s.setPacket p).pllSetting = s.pllSetting := rfl
@[simp] theorem State.setPacket_sequences (p : Packet) : (s.setPacket p).sequences = s.sequences := rfl
@[simp] theorem State.setPacket_lockHold (p : Packet) : (s.setPacket p).lockHold = s.lockHold := rfl
@[simp] theorem State.setPacket_stopped (p : Packet) : (s.setPacket p).stopped = s.stopped := rfl
@[simp] theorem State.setPacket_power (p : Packet) : (s.setPacket p).power = s.power := rfl
@[simp] theorem State.setPacket_store (p : Packet) : (s.setPacket p).store = s.store := rfl
@[simp] theorem State.setPacket_life (p : Packet) : (s.setPacket p).life = s.life := rfl
@[simp] theorem State.setPacket_nvsQueue (p : Packet) : (s.setPacket p).nvsQueue = s.nvsQueue := rfl
@[simp] theorem State.setPacket_nvsWrite (p : Packet) : (s.setPacket p).nvsWrite = s.nvsWrite := rfl
@[simp] theorem State.setPacket_firmware (p : Packet) : (s.setPacket p).firmware = s.firmware := rfl
@[simp] theorem State.setPacket_updBuf (p : Packet) : (s.setPacket p).updBuf = s.updBuf := rfl
@[simp] theorem State.setPacket_spdm (p : Packet) : (s.setPacket p).spdm = s.spdm := rfl
@[simp] theorem State.setPacket_ideKeys (p : Packet) : (s.setPacket p).ideKeys = s.ideKeys := rfl
@[simp] theorem State.setPacket_mgt (p : Packet) : (s.setPacket p).mgt = s.mgt := rfl
@[simp] theorem State.setPacket_testsFrom (p : Packet) : (s.setPacket p).testsFrom = s.testsFrom := rfl
@[simp] theorem State.setPacket_tests (p : Packet) : (s.setPacket p).tests = s.tests := rfl
@[simp] theorem State.setPacket_trapWindows (p : Packet) : (s.setPacket p).trapWindows = s.trapWindows := rfl
@[simp] theorem State.setPacket_trdCopy (p : Packet) : (s.setPacket p).trdCopy = s.trdCopy := rfl
@[simp] theorem State.setPacket_trdAdvances (p : Packet) : (s.setPacket p).trdAdvances = s.trdAdvances := rfl
@[simp] theorem State.setPacket_spool (p : Packet) : (s.setPacket p).spool = s.spool := rfl
@[simp] theorem State.setPacket_nextSpool (p : Packet) : (s.setPacket p).nextSpool = s.nextSpool := rfl
@[simp] theorem State.setPacket_spoolWin (p : Packet) : (s.setPacket p).spoolWin = s.spoolWin := rfl
@[simp] theorem State.setPacket_events (p : Packet) : (s.setPacket p).events = s.events := rfl
@[simp] theorem State.setPacket_ticked (p : Packet) : (s.setPacket p).ticked = s.ticked := rfl
@[simp] theorem State.setPacket_slotTables (p : Packet) : (s.setPacket p).slotTables = s.slotTables := rfl
@[simp] theorem State.setPacket_portOut (p : Packet) : (s.setPacket p).portOut = s.portOut := rfl
@[simp] theorem State.setPacket_portSteer (p : Packet) : (s.setPacket p).portSteer = s.portSteer := rfl
@[simp] theorem State.setPacket_fusedPorts (p : Packet) : (s.setPacket p).fusedPorts = s.fusedPorts := rfl
@[simp] theorem State.setPacket_cacheOut (p : Packet) : (s.setPacket p).cacheOut = s.cacheOut := rfl
@[simp] theorem State.setPacket_fwRuns (p : Packet) : (s.setPacket p).fwRuns = s.fwRuns := rfl

/-! ### dropPacket -/

@[simp] theorem State.dropPacket_pending (id : Nat) : (s.dropPacket id).pending = s.pending := rfl
@[simp] theorem State.dropPacket_freeCtr (id : Nat) : (s.dropPacket id).freeCtr = s.freeCtr := rfl
@[simp] theorem State.dropPacket_regs (id : Nat) : (s.dropPacket id).regs = s.regs := rfl
@[simp] theorem State.dropPacket_threads (id : Nat) : (s.dropPacket id).threads = s.threads := rfl
@[simp] theorem State.dropPacket_cores (id : Nat) : (s.dropPacket id).cores = s.cores := rfl
@[simp] theorem State.dropPacket_lanes (id : Nat) : (s.dropPacket id).lanes = s.lanes := rfl
@[simp] theorem State.dropPacket_sram (id : Nat) : (s.dropPacket id).sram = s.sram := rfl
@[simp] theorem State.dropPacket_damaged (id : Nat) : (s.dropPacket id).damaged = s.damaged := rfl
@[simp] theorem State.dropPacket_badTiles (id : Nat) : (s.dropPacket id).badTiles = s.badTiles := rfl
@[simp] theorem State.dropPacket_istore (id : Nat) : (s.dropPacket id).istore = s.istore := rfl
@[simp] theorem State.dropPacket_istoreBad (id : Nat) : (s.dropPacket id).istoreBad = s.istoreBad := rfl
@[simp] theorem State.dropPacket_patStore (id : Nat) : (s.dropPacket id).patStore = s.patStore := rfl
@[simp] theorem State.dropPacket_patBad (id : Nat) : (s.dropPacket id).patBad = s.patBad := rfl
@[simp] theorem State.dropPacket_fenced (id : Nat) : (s.dropPacket id).fenced = s.fenced := rfl
@[simp] theorem State.dropPacket_badPositions (id : Nat) : (s.dropPacket id).badPositions = s.badPositions := rfl
@[simp] theorem State.dropPacket_heldBad (id : Nat) : (s.dropPacket id).heldBad = s.heldBad := rfl
@[simp] theorem State.dropPacket_fuseMap (id : Nat) : (s.dropPacket id).fuseMap = s.fuseMap := rfl
@[simp] theorem State.dropPacket_disagreements (id : Nat) : (s.dropPacket id).disagreements = s.disagreements := rfl
@[simp] theorem State.dropPacket_relocations (id : Nat) : (s.dropPacket id).relocations = s.relocations := rfl
@[simp] theorem State.dropPacket_watch (id : Nat) : (s.dropPacket id).watch = s.watch := rfl
@[simp] theorem State.dropPacket_darnQueue (id : Nat) : (s.dropPacket id).darnQueue = s.darnQueue := rfl
@[simp] theorem State.dropPacket_darn (id : Nat) : (s.dropPacket id).darn = s.darn := rfl
@[simp] theorem State.dropPacket_slots (id : Nat) : (s.dropPacket id).slots = s.slots := rfl
@[simp] theorem State.dropPacket_waitingOrders (id : Nat) : (s.dropPacket id).waitingOrders = s.waitingOrders := rfl
@[simp] theorem State.dropPacket_rings (id : Nat) : (s.dropPacket id).rings = s.rings := rfl
@[simp] theorem State.dropPacket_cueDue (id : Nat) : (s.dropPacket id).cueDue = s.cueDue := rfl
@[simp] theorem State.dropPacket_markerLast (id : Nat) : (s.dropPacket id).markerLast = s.markerLast := rfl
@[simp] theorem State.dropPacket_distGen (id : Nat) : (s.dropPacket id).distGen = s.distGen := rfl
@[simp] theorem State.dropPacket_migration (id : Nat) : (s.dropPacket id).migration = s.migration := rfl
@[simp] theorem State.dropPacket_hostOut (id : Nat) : (s.dropPacket id).hostOut = s.hostOut := rfl
@[simp] theorem State.dropPacket_ports (id : Nat) : (s.dropPacket id).ports = s.ports := rfl
@[simp] theorem State.dropPacket_hostReqs (id : Nat) : (s.dropPacket id).hostReqs = s.hostReqs := rfl
@[simp] theorem State.dropPacket_messages (id : Nat) : (s.dropPacket id).messages = s.messages := rfl
@[simp] theorem State.dropPacket_msixPending (id : Nat) : (s.dropPacket id).msixPending = s.msixPending := rfl
@[simp] theorem State.dropPacket_fibres (id : Nat) : (s.dropPacket id).fibres = s.fibres := rfl
@[simp] theorem State.dropPacket_answers (id : Nat) : (s.dropPacket id).answers = s.answers := rfl
@[simp] theorem State.dropPacket_unexpected (id : Nat) : (s.dropPacket id).unexpected = s.unexpected := rfl
@[simp] theorem State.dropPacket_discovered (id : Nat) : (s.dropPacket id).discovered = s.discovered := rfl
@[simp] theorem State.dropPacket_brgCmd (id : Nat) : (s.dropPacket id).brgCmd = s.brgCmd := rfl
@[simp] theorem State.dropPacket_firstBringUp (id : Nat) : (s.dropPacket id).firstBringUp = s.firstBringUp := rfl
@[simp] theorem State.dropPacket_partialReset (id : Nat) : (s.dropPacket id).partialReset = s.partialReset := rfl
@[simp] theorem State.dropPacket_waitingResets (id : Nat) : (s.dropPacket id).waitingResets = s.waitingResets := rfl
@[simp] theorem State.dropPacket_resetRun (id : Nat) : (s.dropPacket id).resetRun = s.resetRun := rfl
@[simp] theorem State.dropPacket_nvsResetWaits (id : Nat) : (s.dropPacket id).nvsResetWaits = s.nvsResetWaits := rfl
@[simp] theorem State.dropPacket_pllSetting (id : Nat) : (s.dropPacket id).pllSetting = s.pllSetting := rfl
@[simp] theorem State.dropPacket_sequences (id : Nat) : (s.dropPacket id).sequences = s.sequences := rfl
@[simp] theorem State.dropPacket_lockHold (id : Nat) : (s.dropPacket id).lockHold = s.lockHold := rfl
@[simp] theorem State.dropPacket_stopped (id : Nat) : (s.dropPacket id).stopped = s.stopped := rfl
@[simp] theorem State.dropPacket_power (id : Nat) : (s.dropPacket id).power = s.power := rfl
@[simp] theorem State.dropPacket_store (id : Nat) : (s.dropPacket id).store = s.store := rfl
@[simp] theorem State.dropPacket_life (id : Nat) : (s.dropPacket id).life = s.life := rfl
@[simp] theorem State.dropPacket_nvsQueue (id : Nat) : (s.dropPacket id).nvsQueue = s.nvsQueue := rfl
@[simp] theorem State.dropPacket_nvsWrite (id : Nat) : (s.dropPacket id).nvsWrite = s.nvsWrite := rfl
@[simp] theorem State.dropPacket_firmware (id : Nat) : (s.dropPacket id).firmware = s.firmware := rfl
@[simp] theorem State.dropPacket_updBuf (id : Nat) : (s.dropPacket id).updBuf = s.updBuf := rfl
@[simp] theorem State.dropPacket_spdm (id : Nat) : (s.dropPacket id).spdm = s.spdm := rfl
@[simp] theorem State.dropPacket_ideKeys (id : Nat) : (s.dropPacket id).ideKeys = s.ideKeys := rfl
@[simp] theorem State.dropPacket_mgt (id : Nat) : (s.dropPacket id).mgt = s.mgt := rfl
@[simp] theorem State.dropPacket_testsFrom (id : Nat) : (s.dropPacket id).testsFrom = s.testsFrom := rfl
@[simp] theorem State.dropPacket_tests (id : Nat) : (s.dropPacket id).tests = s.tests := rfl
@[simp] theorem State.dropPacket_trapWindows (id : Nat) : (s.dropPacket id).trapWindows = s.trapWindows := rfl
@[simp] theorem State.dropPacket_trdCopy (id : Nat) : (s.dropPacket id).trdCopy = s.trdCopy := rfl
@[simp] theorem State.dropPacket_trdAdvances (id : Nat) : (s.dropPacket id).trdAdvances = s.trdAdvances := rfl
@[simp] theorem State.dropPacket_spool (id : Nat) : (s.dropPacket id).spool = s.spool := rfl
@[simp] theorem State.dropPacket_nextSpool (id : Nat) : (s.dropPacket id).nextSpool = s.nextSpool := rfl
@[simp] theorem State.dropPacket_spoolWin (id : Nat) : (s.dropPacket id).spoolWin = s.spoolWin := rfl
@[simp] theorem State.dropPacket_events (id : Nat) : (s.dropPacket id).events = s.events := rfl
@[simp] theorem State.dropPacket_ticked (id : Nat) : (s.dropPacket id).ticked = s.ticked := rfl
@[simp] theorem State.dropPacket_slotTables (id : Nat) : (s.dropPacket id).slotTables = s.slotTables := rfl
@[simp] theorem State.dropPacket_portOut (id : Nat) : (s.dropPacket id).portOut = s.portOut := rfl
@[simp] theorem State.dropPacket_portSteer (id : Nat) : (s.dropPacket id).portSteer = s.portSteer := rfl
@[simp] theorem State.dropPacket_fusedPorts (id : Nat) : (s.dropPacket id).fusedPorts = s.fusedPorts := rfl
@[simp] theorem State.dropPacket_cacheOut (id : Nat) : (s.dropPacket id).cacheOut = s.cacheOut := rfl
@[simp] theorem State.dropPacket_fwRuns (id : Nat) : (s.dropPacket id).fwRuns = s.fwRuns := rfl

/-! ### setTag -/

@[simp] theorem State.setTag_pending (c : Lcn) (n : Nat) (g : Tag) : (s.setTag c n g).pending = s.pending := rfl
@[simp] theorem State.setTag_freeCtr (c : Lcn) (n : Nat) (g : Tag) : (s.setTag c n g).freeCtr = s.freeCtr := rfl
@[simp] theorem State.setTag_regs (c : Lcn) (n : Nat) (g : Tag) : (s.setTag c n g).regs = s.regs := rfl
@[simp] theorem State.setTag_threads (c : Lcn) (n : Nat) (g : Tag) : (s.setTag c n g).threads = s.threads := rfl
@[simp] theorem State.setTag_lanes (c : Lcn) (n : Nat) (g : Tag) : (s.setTag c n g).lanes = s.lanes := rfl
@[simp] theorem State.setTag_sram (c : Lcn) (n : Nat) (g : Tag) : (s.setTag c n g).sram = s.sram := rfl
@[simp] theorem State.setTag_damaged (c : Lcn) (n : Nat) (g : Tag) : (s.setTag c n g).damaged = s.damaged := rfl
@[simp] theorem State.setTag_badTiles (c : Lcn) (n : Nat) (g : Tag) : (s.setTag c n g).badTiles = s.badTiles := rfl
@[simp] theorem State.setTag_istore (c : Lcn) (n : Nat) (g : Tag) : (s.setTag c n g).istore = s.istore := rfl
@[simp] theorem State.setTag_istoreBad (c : Lcn) (n : Nat) (g : Tag) : (s.setTag c n g).istoreBad = s.istoreBad := rfl
@[simp] theorem State.setTag_patStore (c : Lcn) (n : Nat) (g : Tag) : (s.setTag c n g).patStore = s.patStore := rfl
@[simp] theorem State.setTag_patBad (c : Lcn) (n : Nat) (g : Tag) : (s.setTag c n g).patBad = s.patBad := rfl
@[simp] theorem State.setTag_fenced (c : Lcn) (n : Nat) (g : Tag) : (s.setTag c n g).fenced = s.fenced := rfl
@[simp] theorem State.setTag_badPositions (c : Lcn) (n : Nat) (g : Tag) : (s.setTag c n g).badPositions = s.badPositions := rfl
@[simp] theorem State.setTag_heldBad (c : Lcn) (n : Nat) (g : Tag) : (s.setTag c n g).heldBad = s.heldBad := rfl
@[simp] theorem State.setTag_fuseMap (c : Lcn) (n : Nat) (g : Tag) : (s.setTag c n g).fuseMap = s.fuseMap := rfl
@[simp] theorem State.setTag_disagreements (c : Lcn) (n : Nat) (g : Tag) : (s.setTag c n g).disagreements = s.disagreements := rfl
@[simp] theorem State.setTag_relocations (c : Lcn) (n : Nat) (g : Tag) : (s.setTag c n g).relocations = s.relocations := rfl
@[simp] theorem State.setTag_watch (c : Lcn) (n : Nat) (g : Tag) : (s.setTag c n g).watch = s.watch := rfl
@[simp] theorem State.setTag_darnQueue (c : Lcn) (n : Nat) (g : Tag) : (s.setTag c n g).darnQueue = s.darnQueue := rfl
@[simp] theorem State.setTag_darn (c : Lcn) (n : Nat) (g : Tag) : (s.setTag c n g).darn = s.darn := rfl
@[simp] theorem State.setTag_fab (c : Lcn) (n : Nat) (g : Tag) : (s.setTag c n g).fab = s.fab := rfl
@[simp] theorem State.setTag_slots (c : Lcn) (n : Nat) (g : Tag) : (s.setTag c n g).slots = s.slots := rfl
@[simp] theorem State.setTag_waitingOrders (c : Lcn) (n : Nat) (g : Tag) : (s.setTag c n g).waitingOrders = s.waitingOrders := rfl
@[simp] theorem State.setTag_rings (c : Lcn) (n : Nat) (g : Tag) : (s.setTag c n g).rings = s.rings := rfl
@[simp] theorem State.setTag_cueDue (c : Lcn) (n : Nat) (g : Tag) : (s.setTag c n g).cueDue = s.cueDue := rfl
@[simp] theorem State.setTag_markerLast (c : Lcn) (n : Nat) (g : Tag) : (s.setTag c n g).markerLast = s.markerLast := rfl
@[simp] theorem State.setTag_distGen (c : Lcn) (n : Nat) (g : Tag) : (s.setTag c n g).distGen = s.distGen := rfl
@[simp] theorem State.setTag_migration (c : Lcn) (n : Nat) (g : Tag) : (s.setTag c n g).migration = s.migration := rfl
@[simp] theorem State.setTag_hostOut (c : Lcn) (n : Nat) (g : Tag) : (s.setTag c n g).hostOut = s.hostOut := rfl
@[simp] theorem State.setTag_ports (c : Lcn) (n : Nat) (g : Tag) : (s.setTag c n g).ports = s.ports := rfl
@[simp] theorem State.setTag_hostReqs (c : Lcn) (n : Nat) (g : Tag) : (s.setTag c n g).hostReqs = s.hostReqs := rfl
@[simp] theorem State.setTag_messages (c : Lcn) (n : Nat) (g : Tag) : (s.setTag c n g).messages = s.messages := rfl
@[simp] theorem State.setTag_msixPending (c : Lcn) (n : Nat) (g : Tag) : (s.setTag c n g).msixPending = s.msixPending := rfl
@[simp] theorem State.setTag_fibres (c : Lcn) (n : Nat) (g : Tag) : (s.setTag c n g).fibres = s.fibres := rfl
@[simp] theorem State.setTag_answers (c : Lcn) (n : Nat) (g : Tag) : (s.setTag c n g).answers = s.answers := rfl
@[simp] theorem State.setTag_unexpected (c : Lcn) (n : Nat) (g : Tag) : (s.setTag c n g).unexpected = s.unexpected := rfl
@[simp] theorem State.setTag_discovered (c : Lcn) (n : Nat) (g : Tag) : (s.setTag c n g).discovered = s.discovered := rfl
@[simp] theorem State.setTag_brgCmd (c : Lcn) (n : Nat) (g : Tag) : (s.setTag c n g).brgCmd = s.brgCmd := rfl
@[simp] theorem State.setTag_firstBringUp (c : Lcn) (n : Nat) (g : Tag) : (s.setTag c n g).firstBringUp = s.firstBringUp := rfl
@[simp] theorem State.setTag_partialReset (c : Lcn) (n : Nat) (g : Tag) : (s.setTag c n g).partialReset = s.partialReset := rfl
@[simp] theorem State.setTag_waitingResets (c : Lcn) (n : Nat) (g : Tag) : (s.setTag c n g).waitingResets = s.waitingResets := rfl
@[simp] theorem State.setTag_resetRun (c : Lcn) (n : Nat) (g : Tag) : (s.setTag c n g).resetRun = s.resetRun := rfl
@[simp] theorem State.setTag_nvsResetWaits (c : Lcn) (n : Nat) (g : Tag) : (s.setTag c n g).nvsResetWaits = s.nvsResetWaits := rfl
@[simp] theorem State.setTag_pllSetting (c : Lcn) (n : Nat) (g : Tag) : (s.setTag c n g).pllSetting = s.pllSetting := rfl
@[simp] theorem State.setTag_sequences (c : Lcn) (n : Nat) (g : Tag) : (s.setTag c n g).sequences = s.sequences := rfl
@[simp] theorem State.setTag_lockHold (c : Lcn) (n : Nat) (g : Tag) : (s.setTag c n g).lockHold = s.lockHold := rfl
@[simp] theorem State.setTag_stopped (c : Lcn) (n : Nat) (g : Tag) : (s.setTag c n g).stopped = s.stopped := rfl
@[simp] theorem State.setTag_power (c : Lcn) (n : Nat) (g : Tag) : (s.setTag c n g).power = s.power := rfl
@[simp] theorem State.setTag_store (c : Lcn) (n : Nat) (g : Tag) : (s.setTag c n g).store = s.store := rfl
@[simp] theorem State.setTag_life (c : Lcn) (n : Nat) (g : Tag) : (s.setTag c n g).life = s.life := rfl
@[simp] theorem State.setTag_nvsQueue (c : Lcn) (n : Nat) (g : Tag) : (s.setTag c n g).nvsQueue = s.nvsQueue := rfl
@[simp] theorem State.setTag_nvsWrite (c : Lcn) (n : Nat) (g : Tag) : (s.setTag c n g).nvsWrite = s.nvsWrite := rfl
@[simp] theorem State.setTag_firmware (c : Lcn) (n : Nat) (g : Tag) : (s.setTag c n g).firmware = s.firmware := rfl
@[simp] theorem State.setTag_updBuf (c : Lcn) (n : Nat) (g : Tag) : (s.setTag c n g).updBuf = s.updBuf := rfl
@[simp] theorem State.setTag_spdm (c : Lcn) (n : Nat) (g : Tag) : (s.setTag c n g).spdm = s.spdm := rfl
@[simp] theorem State.setTag_ideKeys (c : Lcn) (n : Nat) (g : Tag) : (s.setTag c n g).ideKeys = s.ideKeys := rfl
@[simp] theorem State.setTag_mgt (c : Lcn) (n : Nat) (g : Tag) : (s.setTag c n g).mgt = s.mgt := rfl
@[simp] theorem State.setTag_testsFrom (c : Lcn) (n : Nat) (g : Tag) : (s.setTag c n g).testsFrom = s.testsFrom := rfl
@[simp] theorem State.setTag_tests (c : Lcn) (n : Nat) (g : Tag) : (s.setTag c n g).tests = s.tests := rfl
@[simp] theorem State.setTag_trapWindows (c : Lcn) (n : Nat) (g : Tag) : (s.setTag c n g).trapWindows = s.trapWindows := rfl
@[simp] theorem State.setTag_trdCopy (c : Lcn) (n : Nat) (g : Tag) : (s.setTag c n g).trdCopy = s.trdCopy := rfl
@[simp] theorem State.setTag_trdAdvances (c : Lcn) (n : Nat) (g : Tag) : (s.setTag c n g).trdAdvances = s.trdAdvances := rfl
@[simp] theorem State.setTag_spool (c : Lcn) (n : Nat) (g : Tag) : (s.setTag c n g).spool = s.spool := rfl
@[simp] theorem State.setTag_nextSpool (c : Lcn) (n : Nat) (g : Tag) : (s.setTag c n g).nextSpool = s.nextSpool := rfl
@[simp] theorem State.setTag_spoolWin (c : Lcn) (n : Nat) (g : Tag) : (s.setTag c n g).spoolWin = s.spoolWin := rfl
@[simp] theorem State.setTag_events (c : Lcn) (n : Nat) (g : Tag) : (s.setTag c n g).events = s.events := rfl
@[simp] theorem State.setTag_ticked (c : Lcn) (n : Nat) (g : Tag) : (s.setTag c n g).ticked = s.ticked := rfl
@[simp] theorem State.setTag_slotTables (c : Lcn) (n : Nat) (g : Tag) : (s.setTag c n g).slotTables = s.slotTables := rfl
@[simp] theorem State.setTag_portOut (c : Lcn) (n : Nat) (g : Tag) : (s.setTag c n g).portOut = s.portOut := rfl
@[simp] theorem State.setTag_portSteer (c : Lcn) (n : Nat) (g : Tag) : (s.setTag c n g).portSteer = s.portSteer := rfl
@[simp] theorem State.setTag_fusedPorts (c : Lcn) (n : Nat) (g : Tag) : (s.setTag c n g).fusedPorts = s.fusedPorts := rfl
@[simp] theorem State.setTag_cacheOut (c : Lcn) (n : Nat) (g : Tag) : (s.setTag c n g).cacheOut = s.cacheOut := rfl
@[simp] theorem State.setTag_fwRuns (c : Lcn) (n : Nat) (g : Tag) : (s.setTag c n g).fwRuns = s.fwRuns := rfl

/-! ### keepOrder -/

@[simp] theorem State.keepOrder_pending (slot : Nat) (o : CutOrder) : (s.keepOrder slot o).pending = s.pending := rfl
@[simp] theorem State.keepOrder_freeCtr (slot : Nat) (o : CutOrder) : (s.keepOrder slot o).freeCtr = s.freeCtr := rfl
@[simp] theorem State.keepOrder_regs (slot : Nat) (o : CutOrder) : (s.keepOrder slot o).regs = s.regs := rfl
@[simp] theorem State.keepOrder_threads (slot : Nat) (o : CutOrder) : (s.keepOrder slot o).threads = s.threads := rfl
@[simp] theorem State.keepOrder_cores (slot : Nat) (o : CutOrder) : (s.keepOrder slot o).cores = s.cores := rfl
@[simp] theorem State.keepOrder_lanes (slot : Nat) (o : CutOrder) : (s.keepOrder slot o).lanes = s.lanes := rfl
@[simp] theorem State.keepOrder_sram (slot : Nat) (o : CutOrder) : (s.keepOrder slot o).sram = s.sram := rfl
@[simp] theorem State.keepOrder_damaged (slot : Nat) (o : CutOrder) : (s.keepOrder slot o).damaged = s.damaged := rfl
@[simp] theorem State.keepOrder_badTiles (slot : Nat) (o : CutOrder) : (s.keepOrder slot o).badTiles = s.badTiles := rfl
@[simp] theorem State.keepOrder_istore (slot : Nat) (o : CutOrder) : (s.keepOrder slot o).istore = s.istore := rfl
@[simp] theorem State.keepOrder_istoreBad (slot : Nat) (o : CutOrder) : (s.keepOrder slot o).istoreBad = s.istoreBad := rfl
@[simp] theorem State.keepOrder_patStore (slot : Nat) (o : CutOrder) : (s.keepOrder slot o).patStore = s.patStore := rfl
@[simp] theorem State.keepOrder_patBad (slot : Nat) (o : CutOrder) : (s.keepOrder slot o).patBad = s.patBad := rfl
@[simp] theorem State.keepOrder_fenced (slot : Nat) (o : CutOrder) : (s.keepOrder slot o).fenced = s.fenced := rfl
@[simp] theorem State.keepOrder_badPositions (slot : Nat) (o : CutOrder) : (s.keepOrder slot o).badPositions = s.badPositions := rfl
@[simp] theorem State.keepOrder_heldBad (slot : Nat) (o : CutOrder) : (s.keepOrder slot o).heldBad = s.heldBad := rfl
@[simp] theorem State.keepOrder_fuseMap (slot : Nat) (o : CutOrder) : (s.keepOrder slot o).fuseMap = s.fuseMap := rfl
@[simp] theorem State.keepOrder_disagreements (slot : Nat) (o : CutOrder) : (s.keepOrder slot o).disagreements = s.disagreements := rfl
@[simp] theorem State.keepOrder_relocations (slot : Nat) (o : CutOrder) : (s.keepOrder slot o).relocations = s.relocations := rfl
@[simp] theorem State.keepOrder_watch (slot : Nat) (o : CutOrder) : (s.keepOrder slot o).watch = s.watch := rfl
@[simp] theorem State.keepOrder_darnQueue (slot : Nat) (o : CutOrder) : (s.keepOrder slot o).darnQueue = s.darnQueue := rfl
@[simp] theorem State.keepOrder_darn (slot : Nat) (o : CutOrder) : (s.keepOrder slot o).darn = s.darn := rfl
@[simp] theorem State.keepOrder_fab (slot : Nat) (o : CutOrder) : (s.keepOrder slot o).fab = s.fab := rfl
@[simp] theorem State.keepOrder_waitingOrders (slot : Nat) (o : CutOrder) : (s.keepOrder slot o).waitingOrders = s.waitingOrders := rfl
@[simp] theorem State.keepOrder_rings (slot : Nat) (o : CutOrder) : (s.keepOrder slot o).rings = s.rings := rfl
@[simp] theorem State.keepOrder_cueDue (slot : Nat) (o : CutOrder) : (s.keepOrder slot o).cueDue = s.cueDue := rfl
@[simp] theorem State.keepOrder_markerLast (slot : Nat) (o : CutOrder) : (s.keepOrder slot o).markerLast = s.markerLast := rfl
@[simp] theorem State.keepOrder_distGen (slot : Nat) (o : CutOrder) : (s.keepOrder slot o).distGen = s.distGen := rfl
@[simp] theorem State.keepOrder_migration (slot : Nat) (o : CutOrder) : (s.keepOrder slot o).migration = s.migration := rfl
@[simp] theorem State.keepOrder_hostOut (slot : Nat) (o : CutOrder) : (s.keepOrder slot o).hostOut = s.hostOut := rfl
@[simp] theorem State.keepOrder_ports (slot : Nat) (o : CutOrder) : (s.keepOrder slot o).ports = s.ports := rfl
@[simp] theorem State.keepOrder_hostReqs (slot : Nat) (o : CutOrder) : (s.keepOrder slot o).hostReqs = s.hostReqs := rfl
@[simp] theorem State.keepOrder_messages (slot : Nat) (o : CutOrder) : (s.keepOrder slot o).messages = s.messages := rfl
@[simp] theorem State.keepOrder_msixPending (slot : Nat) (o : CutOrder) : (s.keepOrder slot o).msixPending = s.msixPending := rfl
@[simp] theorem State.keepOrder_fibres (slot : Nat) (o : CutOrder) : (s.keepOrder slot o).fibres = s.fibres := rfl
@[simp] theorem State.keepOrder_answers (slot : Nat) (o : CutOrder) : (s.keepOrder slot o).answers = s.answers := rfl
@[simp] theorem State.keepOrder_unexpected (slot : Nat) (o : CutOrder) : (s.keepOrder slot o).unexpected = s.unexpected := rfl
@[simp] theorem State.keepOrder_discovered (slot : Nat) (o : CutOrder) : (s.keepOrder slot o).discovered = s.discovered := rfl
@[simp] theorem State.keepOrder_brgCmd (slot : Nat) (o : CutOrder) : (s.keepOrder slot o).brgCmd = s.brgCmd := rfl
@[simp] theorem State.keepOrder_firstBringUp (slot : Nat) (o : CutOrder) : (s.keepOrder slot o).firstBringUp = s.firstBringUp := rfl
@[simp] theorem State.keepOrder_partialReset (slot : Nat) (o : CutOrder) : (s.keepOrder slot o).partialReset = s.partialReset := rfl
@[simp] theorem State.keepOrder_waitingResets (slot : Nat) (o : CutOrder) : (s.keepOrder slot o).waitingResets = s.waitingResets := rfl
@[simp] theorem State.keepOrder_resetRun (slot : Nat) (o : CutOrder) : (s.keepOrder slot o).resetRun = s.resetRun := rfl
@[simp] theorem State.keepOrder_nvsResetWaits (slot : Nat) (o : CutOrder) : (s.keepOrder slot o).nvsResetWaits = s.nvsResetWaits := rfl
@[simp] theorem State.keepOrder_pllSetting (slot : Nat) (o : CutOrder) : (s.keepOrder slot o).pllSetting = s.pllSetting := rfl
@[simp] theorem State.keepOrder_sequences (slot : Nat) (o : CutOrder) : (s.keepOrder slot o).sequences = s.sequences := rfl
@[simp] theorem State.keepOrder_lockHold (slot : Nat) (o : CutOrder) : (s.keepOrder slot o).lockHold = s.lockHold := rfl
@[simp] theorem State.keepOrder_stopped (slot : Nat) (o : CutOrder) : (s.keepOrder slot o).stopped = s.stopped := rfl
@[simp] theorem State.keepOrder_power (slot : Nat) (o : CutOrder) : (s.keepOrder slot o).power = s.power := rfl
@[simp] theorem State.keepOrder_store (slot : Nat) (o : CutOrder) : (s.keepOrder slot o).store = s.store := rfl
@[simp] theorem State.keepOrder_life (slot : Nat) (o : CutOrder) : (s.keepOrder slot o).life = s.life := rfl
@[simp] theorem State.keepOrder_nvsQueue (slot : Nat) (o : CutOrder) : (s.keepOrder slot o).nvsQueue = s.nvsQueue := rfl
@[simp] theorem State.keepOrder_nvsWrite (slot : Nat) (o : CutOrder) : (s.keepOrder slot o).nvsWrite = s.nvsWrite := rfl
@[simp] theorem State.keepOrder_firmware (slot : Nat) (o : CutOrder) : (s.keepOrder slot o).firmware = s.firmware := rfl
@[simp] theorem State.keepOrder_updBuf (slot : Nat) (o : CutOrder) : (s.keepOrder slot o).updBuf = s.updBuf := rfl
@[simp] theorem State.keepOrder_spdm (slot : Nat) (o : CutOrder) : (s.keepOrder slot o).spdm = s.spdm := rfl
@[simp] theorem State.keepOrder_ideKeys (slot : Nat) (o : CutOrder) : (s.keepOrder slot o).ideKeys = s.ideKeys := rfl
@[simp] theorem State.keepOrder_mgt (slot : Nat) (o : CutOrder) : (s.keepOrder slot o).mgt = s.mgt := rfl
@[simp] theorem State.keepOrder_testsFrom (slot : Nat) (o : CutOrder) : (s.keepOrder slot o).testsFrom = s.testsFrom := rfl
@[simp] theorem State.keepOrder_tests (slot : Nat) (o : CutOrder) : (s.keepOrder slot o).tests = s.tests := rfl
@[simp] theorem State.keepOrder_trapWindows (slot : Nat) (o : CutOrder) : (s.keepOrder slot o).trapWindows = s.trapWindows := rfl
@[simp] theorem State.keepOrder_trdCopy (slot : Nat) (o : CutOrder) : (s.keepOrder slot o).trdCopy = s.trdCopy := rfl
@[simp] theorem State.keepOrder_trdAdvances (slot : Nat) (o : CutOrder) : (s.keepOrder slot o).trdAdvances = s.trdAdvances := rfl
@[simp] theorem State.keepOrder_spool (slot : Nat) (o : CutOrder) : (s.keepOrder slot o).spool = s.spool := rfl
@[simp] theorem State.keepOrder_nextSpool (slot : Nat) (o : CutOrder) : (s.keepOrder slot o).nextSpool = s.nextSpool := rfl
@[simp] theorem State.keepOrder_spoolWin (slot : Nat) (o : CutOrder) : (s.keepOrder slot o).spoolWin = s.spoolWin := rfl
@[simp] theorem State.keepOrder_events (slot : Nat) (o : CutOrder) : (s.keepOrder slot o).events = s.events := rfl
@[simp] theorem State.keepOrder_ticked (slot : Nat) (o : CutOrder) : (s.keepOrder slot o).ticked = s.ticked := rfl
@[simp] theorem State.keepOrder_slotTables (slot : Nat) (o : CutOrder) : (s.keepOrder slot o).slotTables = s.slotTables := rfl
@[simp] theorem State.keepOrder_portOut (slot : Nat) (o : CutOrder) : (s.keepOrder slot o).portOut = s.portOut := rfl
@[simp] theorem State.keepOrder_portSteer (slot : Nat) (o : CutOrder) : (s.keepOrder slot o).portSteer = s.portSteer := rfl
@[simp] theorem State.keepOrder_fusedPorts (slot : Nat) (o : CutOrder) : (s.keepOrder slot o).fusedPorts = s.fusedPorts := rfl
@[simp] theorem State.keepOrder_cacheOut (slot : Nat) (o : CutOrder) : (s.keepOrder slot o).cacheOut = s.cacheOut := rfl
@[simp] theorem State.keepOrder_fwRuns (slot : Nat) (o : CutOrder) : (s.keepOrder slot o).fwRuns = s.fwRuns := rfl

/-! ### setPort -/

@[simp] theorem State.setPort_pending (p : Nat) (q : Port) : (s.setPort p q).pending = s.pending := rfl
@[simp] theorem State.setPort_freeCtr (p : Nat) (q : Port) : (s.setPort p q).freeCtr = s.freeCtr := rfl
@[simp] theorem State.setPort_regs (p : Nat) (q : Port) : (s.setPort p q).regs = s.regs := rfl
@[simp] theorem State.setPort_threads (p : Nat) (q : Port) : (s.setPort p q).threads = s.threads := rfl
@[simp] theorem State.setPort_cores (p : Nat) (q : Port) : (s.setPort p q).cores = s.cores := rfl
@[simp] theorem State.setPort_lanes (p : Nat) (q : Port) : (s.setPort p q).lanes = s.lanes := rfl
@[simp] theorem State.setPort_sram (p : Nat) (q : Port) : (s.setPort p q).sram = s.sram := rfl
@[simp] theorem State.setPort_damaged (p : Nat) (q : Port) : (s.setPort p q).damaged = s.damaged := rfl
@[simp] theorem State.setPort_badTiles (p : Nat) (q : Port) : (s.setPort p q).badTiles = s.badTiles := rfl
@[simp] theorem State.setPort_istore (p : Nat) (q : Port) : (s.setPort p q).istore = s.istore := rfl
@[simp] theorem State.setPort_istoreBad (p : Nat) (q : Port) : (s.setPort p q).istoreBad = s.istoreBad := rfl
@[simp] theorem State.setPort_patStore (p : Nat) (q : Port) : (s.setPort p q).patStore = s.patStore := rfl
@[simp] theorem State.setPort_patBad (p : Nat) (q : Port) : (s.setPort p q).patBad = s.patBad := rfl
@[simp] theorem State.setPort_fenced (p : Nat) (q : Port) : (s.setPort p q).fenced = s.fenced := rfl
@[simp] theorem State.setPort_badPositions (p : Nat) (q : Port) : (s.setPort p q).badPositions = s.badPositions := rfl
@[simp] theorem State.setPort_heldBad (p : Nat) (q : Port) : (s.setPort p q).heldBad = s.heldBad := rfl
@[simp] theorem State.setPort_fuseMap (p : Nat) (q : Port) : (s.setPort p q).fuseMap = s.fuseMap := rfl
@[simp] theorem State.setPort_disagreements (p : Nat) (q : Port) : (s.setPort p q).disagreements = s.disagreements := rfl
@[simp] theorem State.setPort_relocations (p : Nat) (q : Port) : (s.setPort p q).relocations = s.relocations := rfl
@[simp] theorem State.setPort_watch (p : Nat) (q : Port) : (s.setPort p q).watch = s.watch := rfl
@[simp] theorem State.setPort_darnQueue (p : Nat) (q : Port) : (s.setPort p q).darnQueue = s.darnQueue := rfl
@[simp] theorem State.setPort_darn (p : Nat) (q : Port) : (s.setPort p q).darn = s.darn := rfl
@[simp] theorem State.setPort_fab (p : Nat) (q : Port) : (s.setPort p q).fab = s.fab := rfl
@[simp] theorem State.setPort_slots (p : Nat) (q : Port) : (s.setPort p q).slots = s.slots := rfl
@[simp] theorem State.setPort_waitingOrders (p : Nat) (q : Port) : (s.setPort p q).waitingOrders = s.waitingOrders := rfl
@[simp] theorem State.setPort_rings (p : Nat) (q : Port) : (s.setPort p q).rings = s.rings := rfl
@[simp] theorem State.setPort_cueDue (p : Nat) (q : Port) : (s.setPort p q).cueDue = s.cueDue := rfl
@[simp] theorem State.setPort_markerLast (p : Nat) (q : Port) : (s.setPort p q).markerLast = s.markerLast := rfl
@[simp] theorem State.setPort_distGen (p : Nat) (q : Port) : (s.setPort p q).distGen = s.distGen := rfl
@[simp] theorem State.setPort_migration (p : Nat) (q : Port) : (s.setPort p q).migration = s.migration := rfl
@[simp] theorem State.setPort_hostOut (p : Nat) (q : Port) : (s.setPort p q).hostOut = s.hostOut := rfl
@[simp] theorem State.setPort_hostReqs (p : Nat) (q : Port) : (s.setPort p q).hostReqs = s.hostReqs := rfl
@[simp] theorem State.setPort_messages (p : Nat) (q : Port) : (s.setPort p q).messages = s.messages := rfl
@[simp] theorem State.setPort_msixPending (p : Nat) (q : Port) : (s.setPort p q).msixPending = s.msixPending := rfl
@[simp] theorem State.setPort_fibres (p : Nat) (q : Port) : (s.setPort p q).fibres = s.fibres := rfl
@[simp] theorem State.setPort_answers (p : Nat) (q : Port) : (s.setPort p q).answers = s.answers := rfl
@[simp] theorem State.setPort_unexpected (p : Nat) (q : Port) : (s.setPort p q).unexpected = s.unexpected := rfl
@[simp] theorem State.setPort_discovered (p : Nat) (q : Port) : (s.setPort p q).discovered = s.discovered := rfl
@[simp] theorem State.setPort_brgCmd (p : Nat) (q : Port) : (s.setPort p q).brgCmd = s.brgCmd := rfl
@[simp] theorem State.setPort_firstBringUp (p : Nat) (q : Port) : (s.setPort p q).firstBringUp = s.firstBringUp := rfl
@[simp] theorem State.setPort_partialReset (p : Nat) (q : Port) : (s.setPort p q).partialReset = s.partialReset := rfl
@[simp] theorem State.setPort_waitingResets (p : Nat) (q : Port) : (s.setPort p q).waitingResets = s.waitingResets := rfl
@[simp] theorem State.setPort_resetRun (p : Nat) (q : Port) : (s.setPort p q).resetRun = s.resetRun := rfl
@[simp] theorem State.setPort_nvsResetWaits (p : Nat) (q : Port) : (s.setPort p q).nvsResetWaits = s.nvsResetWaits := rfl
@[simp] theorem State.setPort_pllSetting (p : Nat) (q : Port) : (s.setPort p q).pllSetting = s.pllSetting := rfl
@[simp] theorem State.setPort_sequences (p : Nat) (q : Port) : (s.setPort p q).sequences = s.sequences := rfl
@[simp] theorem State.setPort_lockHold (p : Nat) (q : Port) : (s.setPort p q).lockHold = s.lockHold := rfl
@[simp] theorem State.setPort_stopped (p : Nat) (q : Port) : (s.setPort p q).stopped = s.stopped := rfl
@[simp] theorem State.setPort_power (p : Nat) (q : Port) : (s.setPort p q).power = s.power := rfl
@[simp] theorem State.setPort_store (p : Nat) (q : Port) : (s.setPort p q).store = s.store := rfl
@[simp] theorem State.setPort_life (p : Nat) (q : Port) : (s.setPort p q).life = s.life := rfl
@[simp] theorem State.setPort_nvsQueue (p : Nat) (q : Port) : (s.setPort p q).nvsQueue = s.nvsQueue := rfl
@[simp] theorem State.setPort_nvsWrite (p : Nat) (q : Port) : (s.setPort p q).nvsWrite = s.nvsWrite := rfl
@[simp] theorem State.setPort_firmware (p : Nat) (q : Port) : (s.setPort p q).firmware = s.firmware := rfl
@[simp] theorem State.setPort_updBuf (p : Nat) (q : Port) : (s.setPort p q).updBuf = s.updBuf := rfl
@[simp] theorem State.setPort_spdm (p : Nat) (q : Port) : (s.setPort p q).spdm = s.spdm := rfl
@[simp] theorem State.setPort_ideKeys (p : Nat) (q : Port) : (s.setPort p q).ideKeys = s.ideKeys := rfl
@[simp] theorem State.setPort_mgt (p : Nat) (q : Port) : (s.setPort p q).mgt = s.mgt := rfl
@[simp] theorem State.setPort_testsFrom (p : Nat) (q : Port) : (s.setPort p q).testsFrom = s.testsFrom := rfl
@[simp] theorem State.setPort_tests (p : Nat) (q : Port) : (s.setPort p q).tests = s.tests := rfl
@[simp] theorem State.setPort_trapWindows (p : Nat) (q : Port) : (s.setPort p q).trapWindows = s.trapWindows := rfl
@[simp] theorem State.setPort_trdCopy (p : Nat) (q : Port) : (s.setPort p q).trdCopy = s.trdCopy := rfl
@[simp] theorem State.setPort_trdAdvances (p : Nat) (q : Port) : (s.setPort p q).trdAdvances = s.trdAdvances := rfl
@[simp] theorem State.setPort_spool (p : Nat) (q : Port) : (s.setPort p q).spool = s.spool := rfl
@[simp] theorem State.setPort_nextSpool (p : Nat) (q : Port) : (s.setPort p q).nextSpool = s.nextSpool := rfl
@[simp] theorem State.setPort_spoolWin (p : Nat) (q : Port) : (s.setPort p q).spoolWin = s.spoolWin := rfl
@[simp] theorem State.setPort_events (p : Nat) (q : Port) : (s.setPort p q).events = s.events := rfl
@[simp] theorem State.setPort_ticked (p : Nat) (q : Port) : (s.setPort p q).ticked = s.ticked := rfl
@[simp] theorem State.setPort_slotTables (p : Nat) (q : Port) : (s.setPort p q).slotTables = s.slotTables := rfl
@[simp] theorem State.setPort_portOut (p : Nat) (q : Port) : (s.setPort p q).portOut = s.portOut := rfl
@[simp] theorem State.setPort_portSteer (p : Nat) (q : Port) : (s.setPort p q).portSteer = s.portSteer := rfl
@[simp] theorem State.setPort_fusedPorts (p : Nat) (q : Port) : (s.setPort p q).fusedPorts = s.fusedPorts := rfl
@[simp] theorem State.setPort_cacheOut (p : Nat) (q : Port) : (s.setPort p q).cacheOut = s.cacheOut := rfl
@[simp] theorem State.setPort_fwRuns (p : Nat) (q : Port) : (s.setPort p q).fwRuns = s.fwRuns := rfl

/-! ### setSect -/

@[simp] theorem State.setSect_pending (k : Nat) (x : Section) : (s.setSect k x).pending = s.pending := rfl
@[simp] theorem State.setSect_freeCtr (k : Nat) (x : Section) : (s.setSect k x).freeCtr = s.freeCtr := rfl
@[simp] theorem State.setSect_regs (k : Nat) (x : Section) : (s.setSect k x).regs = s.regs := rfl
@[simp] theorem State.setSect_threads (k : Nat) (x : Section) : (s.setSect k x).threads = s.threads := rfl
@[simp] theorem State.setSect_cores (k : Nat) (x : Section) : (s.setSect k x).cores = s.cores := rfl
@[simp] theorem State.setSect_lanes (k : Nat) (x : Section) : (s.setSect k x).lanes = s.lanes := rfl
@[simp] theorem State.setSect_sram (k : Nat) (x : Section) : (s.setSect k x).sram = s.sram := rfl
@[simp] theorem State.setSect_damaged (k : Nat) (x : Section) : (s.setSect k x).damaged = s.damaged := rfl
@[simp] theorem State.setSect_badTiles (k : Nat) (x : Section) : (s.setSect k x).badTiles = s.badTiles := rfl
@[simp] theorem State.setSect_istore (k : Nat) (x : Section) : (s.setSect k x).istore = s.istore := rfl
@[simp] theorem State.setSect_istoreBad (k : Nat) (x : Section) : (s.setSect k x).istoreBad = s.istoreBad := rfl
@[simp] theorem State.setSect_patStore (k : Nat) (x : Section) : (s.setSect k x).patStore = s.patStore := rfl
@[simp] theorem State.setSect_patBad (k : Nat) (x : Section) : (s.setSect k x).patBad = s.patBad := rfl
@[simp] theorem State.setSect_fenced (k : Nat) (x : Section) : (s.setSect k x).fenced = s.fenced := rfl
@[simp] theorem State.setSect_badPositions (k : Nat) (x : Section) : (s.setSect k x).badPositions = s.badPositions := rfl
@[simp] theorem State.setSect_heldBad (k : Nat) (x : Section) : (s.setSect k x).heldBad = s.heldBad := rfl
@[simp] theorem State.setSect_fuseMap (k : Nat) (x : Section) : (s.setSect k x).fuseMap = s.fuseMap := rfl
@[simp] theorem State.setSect_disagreements (k : Nat) (x : Section) : (s.setSect k x).disagreements = s.disagreements := rfl
@[simp] theorem State.setSect_relocations (k : Nat) (x : Section) : (s.setSect k x).relocations = s.relocations := rfl
@[simp] theorem State.setSect_watch (k : Nat) (x : Section) : (s.setSect k x).watch = s.watch := rfl
@[simp] theorem State.setSect_darnQueue (k : Nat) (x : Section) : (s.setSect k x).darnQueue = s.darnQueue := rfl
@[simp] theorem State.setSect_darn (k : Nat) (x : Section) : (s.setSect k x).darn = s.darn := rfl
@[simp] theorem State.setSect_fab (k : Nat) (x : Section) : (s.setSect k x).fab = s.fab := rfl
@[simp] theorem State.setSect_slots (k : Nat) (x : Section) : (s.setSect k x).slots = s.slots := rfl
@[simp] theorem State.setSect_waitingOrders (k : Nat) (x : Section) : (s.setSect k x).waitingOrders = s.waitingOrders := rfl
@[simp] theorem State.setSect_rings (k : Nat) (x : Section) : (s.setSect k x).rings = s.rings := rfl
@[simp] theorem State.setSect_cueDue (k : Nat) (x : Section) : (s.setSect k x).cueDue = s.cueDue := rfl
@[simp] theorem State.setSect_markerLast (k : Nat) (x : Section) : (s.setSect k x).markerLast = s.markerLast := rfl
@[simp] theorem State.setSect_distGen (k : Nat) (x : Section) : (s.setSect k x).distGen = s.distGen := rfl
@[simp] theorem State.setSect_migration (k : Nat) (x : Section) : (s.setSect k x).migration = s.migration := rfl
@[simp] theorem State.setSect_hostOut (k : Nat) (x : Section) : (s.setSect k x).hostOut = s.hostOut := rfl
@[simp] theorem State.setSect_ports (k : Nat) (x : Section) : (s.setSect k x).ports = s.ports := rfl
@[simp] theorem State.setSect_hostReqs (k : Nat) (x : Section) : (s.setSect k x).hostReqs = s.hostReqs := rfl
@[simp] theorem State.setSect_messages (k : Nat) (x : Section) : (s.setSect k x).messages = s.messages := rfl
@[simp] theorem State.setSect_msixPending (k : Nat) (x : Section) : (s.setSect k x).msixPending = s.msixPending := rfl
@[simp] theorem State.setSect_fibres (k : Nat) (x : Section) : (s.setSect k x).fibres = s.fibres := rfl
@[simp] theorem State.setSect_answers (k : Nat) (x : Section) : (s.setSect k x).answers = s.answers := rfl
@[simp] theorem State.setSect_unexpected (k : Nat) (x : Section) : (s.setSect k x).unexpected = s.unexpected := rfl
@[simp] theorem State.setSect_discovered (k : Nat) (x : Section) : (s.setSect k x).discovered = s.discovered := rfl
@[simp] theorem State.setSect_brgCmd (k : Nat) (x : Section) : (s.setSect k x).brgCmd = s.brgCmd := rfl
@[simp] theorem State.setSect_firstBringUp (k : Nat) (x : Section) : (s.setSect k x).firstBringUp = s.firstBringUp := rfl
@[simp] theorem State.setSect_partialReset (k : Nat) (x : Section) : (s.setSect k x).partialReset = s.partialReset := rfl
@[simp] theorem State.setSect_waitingResets (k : Nat) (x : Section) : (s.setSect k x).waitingResets = s.waitingResets := rfl
@[simp] theorem State.setSect_resetRun (k : Nat) (x : Section) : (s.setSect k x).resetRun = s.resetRun := rfl
@[simp] theorem State.setSect_nvsResetWaits (k : Nat) (x : Section) : (s.setSect k x).nvsResetWaits = s.nvsResetWaits := rfl
@[simp] theorem State.setSect_pllSetting (k : Nat) (x : Section) : (s.setSect k x).pllSetting = s.pllSetting := rfl
@[simp] theorem State.setSect_sequences (k : Nat) (x : Section) : (s.setSect k x).sequences = s.sequences := rfl
@[simp] theorem State.setSect_lockHold (k : Nat) (x : Section) : (s.setSect k x).lockHold = s.lockHold := rfl
@[simp] theorem State.setSect_stopped (k : Nat) (x : Section) : (s.setSect k x).stopped = s.stopped := rfl
@[simp] theorem State.setSect_power (k : Nat) (x : Section) : (s.setSect k x).power = s.power := rfl
@[simp] theorem State.setSect_life (k : Nat) (x : Section) : (s.setSect k x).life = s.life := rfl
@[simp] theorem State.setSect_nvsQueue (k : Nat) (x : Section) : (s.setSect k x).nvsQueue = s.nvsQueue := rfl
@[simp] theorem State.setSect_nvsWrite (k : Nat) (x : Section) : (s.setSect k x).nvsWrite = s.nvsWrite := rfl
@[simp] theorem State.setSect_firmware (k : Nat) (x : Section) : (s.setSect k x).firmware = s.firmware := rfl
@[simp] theorem State.setSect_updBuf (k : Nat) (x : Section) : (s.setSect k x).updBuf = s.updBuf := rfl
@[simp] theorem State.setSect_spdm (k : Nat) (x : Section) : (s.setSect k x).spdm = s.spdm := rfl
@[simp] theorem State.setSect_ideKeys (k : Nat) (x : Section) : (s.setSect k x).ideKeys = s.ideKeys := rfl
@[simp] theorem State.setSect_mgt (k : Nat) (x : Section) : (s.setSect k x).mgt = s.mgt := rfl
@[simp] theorem State.setSect_testsFrom (k : Nat) (x : Section) : (s.setSect k x).testsFrom = s.testsFrom := rfl
@[simp] theorem State.setSect_tests (k : Nat) (x : Section) : (s.setSect k x).tests = s.tests := rfl
@[simp] theorem State.setSect_trapWindows (k : Nat) (x : Section) : (s.setSect k x).trapWindows = s.trapWindows := rfl
@[simp] theorem State.setSect_trdCopy (k : Nat) (x : Section) : (s.setSect k x).trdCopy = s.trdCopy := rfl
@[simp] theorem State.setSect_trdAdvances (k : Nat) (x : Section) : (s.setSect k x).trdAdvances = s.trdAdvances := rfl
@[simp] theorem State.setSect_spool (k : Nat) (x : Section) : (s.setSect k x).spool = s.spool := rfl
@[simp] theorem State.setSect_nextSpool (k : Nat) (x : Section) : (s.setSect k x).nextSpool = s.nextSpool := rfl
@[simp] theorem State.setSect_spoolWin (k : Nat) (x : Section) : (s.setSect k x).spoolWin = s.spoolWin := rfl
@[simp] theorem State.setSect_events (k : Nat) (x : Section) : (s.setSect k x).events = s.events := rfl
@[simp] theorem State.setSect_ticked (k : Nat) (x : Section) : (s.setSect k x).ticked = s.ticked := rfl
@[simp] theorem State.setSect_slotTables (k : Nat) (x : Section) : (s.setSect k x).slotTables = s.slotTables := rfl
@[simp] theorem State.setSect_portOut (k : Nat) (x : Section) : (s.setSect k x).portOut = s.portOut := rfl
@[simp] theorem State.setSect_portSteer (k : Nat) (x : Section) : (s.setSect k x).portSteer = s.portSteer := rfl
@[simp] theorem State.setSect_fusedPorts (k : Nat) (x : Section) : (s.setSect k x).fusedPorts = s.fusedPorts := rfl
@[simp] theorem State.setSect_cacheOut (k : Nat) (x : Section) : (s.setSect k x).cacheOut = s.cacheOut := rfl
@[simp] theorem State.setSect_fwRuns (k : Nat) (x : Section) : (s.setSect k x).fwRuns = s.fwRuns := rfl

/-! ### putBit -/

@[simp] theorem State.putBit_pending (f : Fld) (i : Nat) (b : Bool) (u n : Nat) : (s.putBit f i b u n).pending = s.pending := rfl
@[simp] theorem State.putBit_freeCtr (f : Fld) (i : Nat) (b : Bool) (u n : Nat) : (s.putBit f i b u n).freeCtr = s.freeCtr := rfl
@[simp] theorem State.putBit_threads (f : Fld) (i : Nat) (b : Bool) (u n : Nat) : (s.putBit f i b u n).threads = s.threads := rfl
@[simp] theorem State.putBit_cores (f : Fld) (i : Nat) (b : Bool) (u n : Nat) : (s.putBit f i b u n).cores = s.cores := rfl
@[simp] theorem State.putBit_lanes (f : Fld) (i : Nat) (b : Bool) (u n : Nat) : (s.putBit f i b u n).lanes = s.lanes := rfl
@[simp] theorem State.putBit_sram (f : Fld) (i : Nat) (b : Bool) (u n : Nat) : (s.putBit f i b u n).sram = s.sram := rfl
@[simp] theorem State.putBit_damaged (f : Fld) (i : Nat) (b : Bool) (u n : Nat) : (s.putBit f i b u n).damaged = s.damaged := rfl
@[simp] theorem State.putBit_badTiles (f : Fld) (i : Nat) (b : Bool) (u n : Nat) : (s.putBit f i b u n).badTiles = s.badTiles := rfl
@[simp] theorem State.putBit_istore (f : Fld) (i : Nat) (b : Bool) (u n : Nat) : (s.putBit f i b u n).istore = s.istore := rfl
@[simp] theorem State.putBit_istoreBad (f : Fld) (i : Nat) (b : Bool) (u n : Nat) : (s.putBit f i b u n).istoreBad = s.istoreBad := rfl
@[simp] theorem State.putBit_patStore (f : Fld) (i : Nat) (b : Bool) (u n : Nat) : (s.putBit f i b u n).patStore = s.patStore := rfl
@[simp] theorem State.putBit_patBad (f : Fld) (i : Nat) (b : Bool) (u n : Nat) : (s.putBit f i b u n).patBad = s.patBad := rfl
@[simp] theorem State.putBit_fenced (f : Fld) (i : Nat) (b : Bool) (u n : Nat) : (s.putBit f i b u n).fenced = s.fenced := rfl
@[simp] theorem State.putBit_badPositions (f : Fld) (i : Nat) (b : Bool) (u n : Nat) : (s.putBit f i b u n).badPositions = s.badPositions := rfl
@[simp] theorem State.putBit_heldBad (f : Fld) (i : Nat) (b : Bool) (u n : Nat) : (s.putBit f i b u n).heldBad = s.heldBad := rfl
@[simp] theorem State.putBit_fuseMap (f : Fld) (i : Nat) (b : Bool) (u n : Nat) : (s.putBit f i b u n).fuseMap = s.fuseMap := rfl
@[simp] theorem State.putBit_disagreements (f : Fld) (i : Nat) (b : Bool) (u n : Nat) : (s.putBit f i b u n).disagreements = s.disagreements := rfl
@[simp] theorem State.putBit_relocations (f : Fld) (i : Nat) (b : Bool) (u n : Nat) : (s.putBit f i b u n).relocations = s.relocations := rfl
@[simp] theorem State.putBit_watch (f : Fld) (i : Nat) (b : Bool) (u n : Nat) : (s.putBit f i b u n).watch = s.watch := rfl
@[simp] theorem State.putBit_darnQueue (f : Fld) (i : Nat) (b : Bool) (u n : Nat) : (s.putBit f i b u n).darnQueue = s.darnQueue := rfl
@[simp] theorem State.putBit_darn (f : Fld) (i : Nat) (b : Bool) (u n : Nat) : (s.putBit f i b u n).darn = s.darn := rfl
@[simp] theorem State.putBit_fab (f : Fld) (i : Nat) (b : Bool) (u n : Nat) : (s.putBit f i b u n).fab = s.fab := rfl
@[simp] theorem State.putBit_slots (f : Fld) (i : Nat) (b : Bool) (u n : Nat) : (s.putBit f i b u n).slots = s.slots := rfl
@[simp] theorem State.putBit_waitingOrders (f : Fld) (i : Nat) (b : Bool) (u n : Nat) : (s.putBit f i b u n).waitingOrders = s.waitingOrders := rfl
@[simp] theorem State.putBit_rings (f : Fld) (i : Nat) (b : Bool) (u n : Nat) : (s.putBit f i b u n).rings = s.rings := rfl
@[simp] theorem State.putBit_cueDue (f : Fld) (i : Nat) (b : Bool) (u n : Nat) : (s.putBit f i b u n).cueDue = s.cueDue := rfl
@[simp] theorem State.putBit_markerLast (f : Fld) (i : Nat) (b : Bool) (u n : Nat) : (s.putBit f i b u n).markerLast = s.markerLast := rfl
@[simp] theorem State.putBit_distGen (f : Fld) (i : Nat) (b : Bool) (u n : Nat) : (s.putBit f i b u n).distGen = s.distGen := rfl
@[simp] theorem State.putBit_migration (f : Fld) (i : Nat) (b : Bool) (u n : Nat) : (s.putBit f i b u n).migration = s.migration := rfl
@[simp] theorem State.putBit_hostOut (f : Fld) (i : Nat) (b : Bool) (u n : Nat) : (s.putBit f i b u n).hostOut = s.hostOut := rfl
@[simp] theorem State.putBit_ports (f : Fld) (i : Nat) (b : Bool) (u n : Nat) : (s.putBit f i b u n).ports = s.ports := rfl
@[simp] theorem State.putBit_hostReqs (f : Fld) (i : Nat) (b : Bool) (u n : Nat) : (s.putBit f i b u n).hostReqs = s.hostReqs := rfl
@[simp] theorem State.putBit_messages (f : Fld) (i : Nat) (b : Bool) (u n : Nat) : (s.putBit f i b u n).messages = s.messages := rfl
@[simp] theorem State.putBit_msixPending (f : Fld) (i : Nat) (b : Bool) (u n : Nat) : (s.putBit f i b u n).msixPending = s.msixPending := rfl
@[simp] theorem State.putBit_fibres (f : Fld) (i : Nat) (b : Bool) (u n : Nat) : (s.putBit f i b u n).fibres = s.fibres := rfl
@[simp] theorem State.putBit_answers (f : Fld) (i : Nat) (b : Bool) (u n : Nat) : (s.putBit f i b u n).answers = s.answers := rfl
@[simp] theorem State.putBit_unexpected (f : Fld) (i : Nat) (b : Bool) (u n : Nat) : (s.putBit f i b u n).unexpected = s.unexpected := rfl
@[simp] theorem State.putBit_discovered (f : Fld) (i : Nat) (b : Bool) (u n : Nat) : (s.putBit f i b u n).discovered = s.discovered := rfl
@[simp] theorem State.putBit_brgCmd (f : Fld) (i : Nat) (b : Bool) (u n : Nat) : (s.putBit f i b u n).brgCmd = s.brgCmd := rfl
@[simp] theorem State.putBit_firstBringUp (f : Fld) (i : Nat) (b : Bool) (u n : Nat) : (s.putBit f i b u n).firstBringUp = s.firstBringUp := rfl
@[simp] theorem State.putBit_partialReset (f : Fld) (i : Nat) (b : Bool) (u n : Nat) : (s.putBit f i b u n).partialReset = s.partialReset := rfl
@[simp] theorem State.putBit_waitingResets (f : Fld) (i : Nat) (b : Bool) (u n : Nat) : (s.putBit f i b u n).waitingResets = s.waitingResets := rfl
@[simp] theorem State.putBit_resetRun (f : Fld) (i : Nat) (b : Bool) (u n : Nat) : (s.putBit f i b u n).resetRun = s.resetRun := rfl
@[simp] theorem State.putBit_nvsResetWaits (f : Fld) (i : Nat) (b : Bool) (u n : Nat) : (s.putBit f i b u n).nvsResetWaits = s.nvsResetWaits := rfl
@[simp] theorem State.putBit_pllSetting (f : Fld) (i : Nat) (b : Bool) (u n : Nat) : (s.putBit f i b u n).pllSetting = s.pllSetting := rfl
@[simp] theorem State.putBit_sequences (f : Fld) (i : Nat) (b : Bool) (u n : Nat) : (s.putBit f i b u n).sequences = s.sequences := rfl
@[simp] theorem State.putBit_lockHold (f : Fld) (i : Nat) (b : Bool) (u n : Nat) : (s.putBit f i b u n).lockHold = s.lockHold := rfl
@[simp] theorem State.putBit_stopped (f : Fld) (i : Nat) (b : Bool) (u n : Nat) : (s.putBit f i b u n).stopped = s.stopped := rfl
@[simp] theorem State.putBit_power (f : Fld) (i : Nat) (b : Bool) (u n : Nat) : (s.putBit f i b u n).power = s.power := rfl
@[simp] theorem State.putBit_store (f : Fld) (i : Nat) (b : Bool) (u n : Nat) : (s.putBit f i b u n).store = s.store := rfl
@[simp] theorem State.putBit_life (f : Fld) (i : Nat) (b : Bool) (u n : Nat) : (s.putBit f i b u n).life = s.life := rfl
@[simp] theorem State.putBit_nvsQueue (f : Fld) (i : Nat) (b : Bool) (u n : Nat) : (s.putBit f i b u n).nvsQueue = s.nvsQueue := rfl
@[simp] theorem State.putBit_nvsWrite (f : Fld) (i : Nat) (b : Bool) (u n : Nat) : (s.putBit f i b u n).nvsWrite = s.nvsWrite := rfl
@[simp] theorem State.putBit_firmware (f : Fld) (i : Nat) (b : Bool) (u n : Nat) : (s.putBit f i b u n).firmware = s.firmware := rfl
@[simp] theorem State.putBit_updBuf (f : Fld) (i : Nat) (b : Bool) (u n : Nat) : (s.putBit f i b u n).updBuf = s.updBuf := rfl
@[simp] theorem State.putBit_spdm (f : Fld) (i : Nat) (b : Bool) (u n : Nat) : (s.putBit f i b u n).spdm = s.spdm := rfl
@[simp] theorem State.putBit_ideKeys (f : Fld) (i : Nat) (b : Bool) (u n : Nat) : (s.putBit f i b u n).ideKeys = s.ideKeys := rfl
@[simp] theorem State.putBit_mgt (f : Fld) (i : Nat) (b : Bool) (u n : Nat) : (s.putBit f i b u n).mgt = s.mgt := rfl
@[simp] theorem State.putBit_testsFrom (f : Fld) (i : Nat) (b : Bool) (u n : Nat) : (s.putBit f i b u n).testsFrom = s.testsFrom := rfl
@[simp] theorem State.putBit_tests (f : Fld) (i : Nat) (b : Bool) (u n : Nat) : (s.putBit f i b u n).tests = s.tests := rfl
@[simp] theorem State.putBit_trapWindows (f : Fld) (i : Nat) (b : Bool) (u n : Nat) : (s.putBit f i b u n).trapWindows = s.trapWindows := rfl
@[simp] theorem State.putBit_trdCopy (f : Fld) (i : Nat) (b : Bool) (u n : Nat) : (s.putBit f i b u n).trdCopy = s.trdCopy := rfl
@[simp] theorem State.putBit_trdAdvances (f : Fld) (i : Nat) (b : Bool) (u n : Nat) : (s.putBit f i b u n).trdAdvances = s.trdAdvances := rfl
@[simp] theorem State.putBit_spool (f : Fld) (i : Nat) (b : Bool) (u n : Nat) : (s.putBit f i b u n).spool = s.spool := rfl
@[simp] theorem State.putBit_nextSpool (f : Fld) (i : Nat) (b : Bool) (u n : Nat) : (s.putBit f i b u n).nextSpool = s.nextSpool := rfl
@[simp] theorem State.putBit_spoolWin (f : Fld) (i : Nat) (b : Bool) (u n : Nat) : (s.putBit f i b u n).spoolWin = s.spoolWin := rfl
@[simp] theorem State.putBit_events (f : Fld) (i : Nat) (b : Bool) (u n : Nat) : (s.putBit f i b u n).events = s.events := rfl
@[simp] theorem State.putBit_ticked (f : Fld) (i : Nat) (b : Bool) (u n : Nat) : (s.putBit f i b u n).ticked = s.ticked := rfl
@[simp] theorem State.putBit_slotTables (f : Fld) (i : Nat) (b : Bool) (u n : Nat) : (s.putBit f i b u n).slotTables = s.slotTables := rfl
@[simp] theorem State.putBit_portOut (f : Fld) (i : Nat) (b : Bool) (u n : Nat) : (s.putBit f i b u n).portOut = s.portOut := rfl
@[simp] theorem State.putBit_portSteer (f : Fld) (i : Nat) (b : Bool) (u n : Nat) : (s.putBit f i b u n).portSteer = s.portSteer := rfl
@[simp] theorem State.putBit_fusedPorts (f : Fld) (i : Nat) (b : Bool) (u n : Nat) : (s.putBit f i b u n).fusedPorts = s.fusedPorts := rfl
@[simp] theorem State.putBit_cacheOut (f : Fld) (i : Nat) (b : Bool) (u n : Nat) : (s.putBit f i b u n).cacheOut = s.cacheOut := rfl
@[simp] theorem State.putBit_fwRuns (f : Fld) (i : Nat) (b : Bool) (u n : Nat) : (s.putBit f i b u n).fwRuns = s.fwRuns := rfl

/-! ### Free values -/

@[simp] theorem State.free_pending (w : Nat) : (s.free w).2.pending = s.pending := rfl
@[simp] theorem State.free_regs (w : Nat) : (s.free w).2.regs = s.regs := rfl
@[simp] theorem State.free_threads (w : Nat) : (s.free w).2.threads = s.threads := rfl
@[simp] theorem State.free_cores (w : Nat) : (s.free w).2.cores = s.cores := rfl
@[simp] theorem State.free_lanes (w : Nat) : (s.free w).2.lanes = s.lanes := rfl
@[simp] theorem State.free_sram (w : Nat) : (s.free w).2.sram = s.sram := rfl
@[simp] theorem State.free_damaged (w : Nat) : (s.free w).2.damaged = s.damaged := rfl
@[simp] theorem State.free_badTiles (w : Nat) : (s.free w).2.badTiles = s.badTiles := rfl
@[simp] theorem State.free_istore (w : Nat) : (s.free w).2.istore = s.istore := rfl
@[simp] theorem State.free_istoreBad (w : Nat) : (s.free w).2.istoreBad = s.istoreBad := rfl
@[simp] theorem State.free_patStore (w : Nat) : (s.free w).2.patStore = s.patStore := rfl
@[simp] theorem State.free_patBad (w : Nat) : (s.free w).2.patBad = s.patBad := rfl
@[simp] theorem State.free_fenced (w : Nat) : (s.free w).2.fenced = s.fenced := rfl
@[simp] theorem State.free_badPositions (w : Nat) : (s.free w).2.badPositions = s.badPositions := rfl
@[simp] theorem State.free_heldBad (w : Nat) : (s.free w).2.heldBad = s.heldBad := rfl
@[simp] theorem State.free_fuseMap (w : Nat) : (s.free w).2.fuseMap = s.fuseMap := rfl
@[simp] theorem State.free_disagreements (w : Nat) : (s.free w).2.disagreements = s.disagreements := rfl
@[simp] theorem State.free_relocations (w : Nat) : (s.free w).2.relocations = s.relocations := rfl
@[simp] theorem State.free_watch (w : Nat) : (s.free w).2.watch = s.watch := rfl
@[simp] theorem State.free_darnQueue (w : Nat) : (s.free w).2.darnQueue = s.darnQueue := rfl
@[simp] theorem State.free_darn (w : Nat) : (s.free w).2.darn = s.darn := rfl
@[simp] theorem State.free_fab (w : Nat) : (s.free w).2.fab = s.fab := rfl
@[simp] theorem State.free_slots (w : Nat) : (s.free w).2.slots = s.slots := rfl
@[simp] theorem State.free_waitingOrders (w : Nat) : (s.free w).2.waitingOrders = s.waitingOrders := rfl
@[simp] theorem State.free_rings (w : Nat) : (s.free w).2.rings = s.rings := rfl
@[simp] theorem State.free_cueDue (w : Nat) : (s.free w).2.cueDue = s.cueDue := rfl
@[simp] theorem State.free_markerLast (w : Nat) : (s.free w).2.markerLast = s.markerLast := rfl
@[simp] theorem State.free_distGen (w : Nat) : (s.free w).2.distGen = s.distGen := rfl
@[simp] theorem State.free_migration (w : Nat) : (s.free w).2.migration = s.migration := rfl
@[simp] theorem State.free_hostOut (w : Nat) : (s.free w).2.hostOut = s.hostOut := rfl
@[simp] theorem State.free_ports (w : Nat) : (s.free w).2.ports = s.ports := rfl
@[simp] theorem State.free_hostReqs (w : Nat) : (s.free w).2.hostReqs = s.hostReqs := rfl
@[simp] theorem State.free_messages (w : Nat) : (s.free w).2.messages = s.messages := rfl
@[simp] theorem State.free_msixPending (w : Nat) : (s.free w).2.msixPending = s.msixPending := rfl
@[simp] theorem State.free_fibres (w : Nat) : (s.free w).2.fibres = s.fibres := rfl
@[simp] theorem State.free_answers (w : Nat) : (s.free w).2.answers = s.answers := rfl
@[simp] theorem State.free_unexpected (w : Nat) : (s.free w).2.unexpected = s.unexpected := rfl
@[simp] theorem State.free_discovered (w : Nat) : (s.free w).2.discovered = s.discovered := rfl
@[simp] theorem State.free_brgCmd (w : Nat) : (s.free w).2.brgCmd = s.brgCmd := rfl
@[simp] theorem State.free_firstBringUp (w : Nat) : (s.free w).2.firstBringUp = s.firstBringUp := rfl
@[simp] theorem State.free_partialReset (w : Nat) : (s.free w).2.partialReset = s.partialReset := rfl
@[simp] theorem State.free_waitingResets (w : Nat) : (s.free w).2.waitingResets = s.waitingResets := rfl
@[simp] theorem State.free_resetRun (w : Nat) : (s.free w).2.resetRun = s.resetRun := rfl
@[simp] theorem State.free_nvsResetWaits (w : Nat) : (s.free w).2.nvsResetWaits = s.nvsResetWaits := rfl
@[simp] theorem State.free_pllSetting (w : Nat) : (s.free w).2.pllSetting = s.pllSetting := rfl
@[simp] theorem State.free_sequences (w : Nat) : (s.free w).2.sequences = s.sequences := rfl
@[simp] theorem State.free_lockHold (w : Nat) : (s.free w).2.lockHold = s.lockHold := rfl
@[simp] theorem State.free_stopped (w : Nat) : (s.free w).2.stopped = s.stopped := rfl
@[simp] theorem State.free_power (w : Nat) : (s.free w).2.power = s.power := rfl
@[simp] theorem State.free_store (w : Nat) : (s.free w).2.store = s.store := rfl
@[simp] theorem State.free_life (w : Nat) : (s.free w).2.life = s.life := rfl
@[simp] theorem State.free_nvsQueue (w : Nat) : (s.free w).2.nvsQueue = s.nvsQueue := rfl
@[simp] theorem State.free_nvsWrite (w : Nat) : (s.free w).2.nvsWrite = s.nvsWrite := rfl
@[simp] theorem State.free_firmware (w : Nat) : (s.free w).2.firmware = s.firmware := rfl
@[simp] theorem State.free_updBuf (w : Nat) : (s.free w).2.updBuf = s.updBuf := rfl
@[simp] theorem State.free_spdm (w : Nat) : (s.free w).2.spdm = s.spdm := rfl
@[simp] theorem State.free_ideKeys (w : Nat) : (s.free w).2.ideKeys = s.ideKeys := rfl
@[simp] theorem State.free_mgt (w : Nat) : (s.free w).2.mgt = s.mgt := rfl
@[simp] theorem State.free_testsFrom (w : Nat) : (s.free w).2.testsFrom = s.testsFrom := rfl
@[simp] theorem State.free_tests (w : Nat) : (s.free w).2.tests = s.tests := rfl
@[simp] theorem State.free_trapWindows (w : Nat) : (s.free w).2.trapWindows = s.trapWindows := rfl
@[simp] theorem State.free_trdCopy (w : Nat) : (s.free w).2.trdCopy = s.trdCopy := rfl
@[simp] theorem State.free_trdAdvances (w : Nat) : (s.free w).2.trdAdvances = s.trdAdvances := rfl
@[simp] theorem State.free_spool (w : Nat) : (s.free w).2.spool = s.spool := rfl
@[simp] theorem State.free_nextSpool (w : Nat) : (s.free w).2.nextSpool = s.nextSpool := rfl
@[simp] theorem State.free_spoolWin (w : Nat) : (s.free w).2.spoolWin = s.spoolWin := rfl
@[simp] theorem State.free_events (w : Nat) : (s.free w).2.events = s.events := rfl
@[simp] theorem State.free_freeCtr (w : Nat) : (s.free w).2.freeCtr = s.freeCtr + 1 := rfl

/-! ### Reading back -/

@[simp] theorem State.thread_setThread_same (c : Lcn) (t : Fin 4) (th : Thread) : (s.setThread c t th).thread c t = th := by
  simp [State.thread, State.setThread]

theorem threadId_ne {c c' : Lcn} {t t' : Fin 4} (h : ¬(c' = c ∧ t' = t)) : threadId c' t' ≠ threadId c t := by
  intro e
  apply h
  have hc : c'.toNat = c.toNat := by unfold threadId at e; omega
  have ht : t'.val = t.val := by unfold threadId at e; omega
  exact ⟨BitVec.eq_of_toNat_eq hc, Fin.ext ht⟩

theorem State.thread_setThread_other {c c' : Lcn} {t t' : Fin 4} (th : Thread) (h : ¬(c' = c ∧ t' = t)) :
    (s.setThread c t th).thread c' t' = s.thread c' t' := by
  simp [State.thread, State.setThread, mget_mset_other, threadId_ne h]

@[simp] theorem State.core_setCore_same (c : Lcn) (k : Core) : (s.setCore c k).core c = k := by
  simp [State.core, State.setCore]

theorem State.core_setCore_other {c c' : Lcn} (k : Core) (h : c' ≠ c) : (s.setCore c k).core c' = s.core c' := by
  have hn : c'.toNat ≠ c.toNat := fun e => h (BitVec.eq_of_toNat_eq e)
  simp [State.core, State.setCore, mget_mset_other, hn]

/-- A field reads back what was put into it, cut to its width. -/
@[simp] theorem State.get_put_same (f : Fld) (v u n : Nat) : (s.put f v u n).get f u n = v % 2 ^ f.width := by
  simp [State.get, State.put]

theorem fldKey_ne_id {f g : Fld} {u u' n n' : Nat} (h : f.id ≠ g.id) (hu : u < 2 ^ 20) (hu' : u' < 2 ^ 20)
    (hn : n < 2 ^ 12) (hn' : n' < 2 ^ 12) : fldKey f u n ≠ fldKey g u' n' := by
  unfold fldKey
  intro e
  apply h
  omega

theorem fldKey_ne_place {f g : Fld} {u u' n n' : Nat} (h : ¬(u = u' ∧ n = n')) (hu : u < 2 ^ 20) (hu' : u' < 2 ^ 20)
    (hn : n < 2 ^ 12) (hn' : n' < 2 ^ 12) : fldKey f u n ≠ fldKey g u' n' := by
  unfold fldKey
  intro e
  apply h
  constructor <;> omega

/-- A put leaves every other field alone. -/
theorem State.get_put_field {f g : Fld} (v : Nat) {u u' n n' : Nat} (h : g.id ≠ f.id) (hu : u < 2 ^ 20)
    (hu' : u' < 2 ^ 20) (hn : n < 2 ^ 12) (hn' : n' < 2 ^ 12) : (s.put f v u n).get g u' n' = s.get g u' n' := by
  simp [State.get, State.put, mget_mset_other, fldKey_ne_id h hu' hu hn' hn]

/-- A put leaves the other copies of its field alone. -/
theorem State.get_put_place {f g : Fld} (v : Nat) {u u' n n' : Nat} (h : ¬(u' = u ∧ n' = n)) (hu : u < 2 ^ 20)
    (hu' : u' < 2 ^ 20) (hn : n < 2 ^ 12) (hn' : n' < 2 ^ 12) : (s.put f v u n).get g u' n' = s.get g u' n' := by
  simp [State.get, State.put, mget_mset_other, fldKey_ne_place h hu' hu hn' hn]

/-- A field read does not see a thread's change. -/
@[simp] theorem State.get_setThread (c : Lcn) (t : Fin 4) (th : Thread) (f : Fld) (u n : Nat) :
    (s.setThread c t th).get f u n = s.get f u n := rfl

@[simp] theorem State.get_setCore (c : Lcn) (k : Core) (f : Fld) (u n : Nat) : (s.setCore c k).get f u n = s.get f u n := rfl

@[simp] theorem State.get_dropPacket (id : Nat) (f : Fld) (u n : Nat) : (s.dropPacket id).get f u n = s.get f u n := rfl

/-- A thread is not changed by a put. -/
@[simp] theorem State.thread_put (f : Fld) (v u n : Nat) (c : Lcn) (t : Fin 4) : (s.put f v u n).thread c t = s.thread c t :=
  rfl

@[simp] theorem State.core_put (f : Fld) (v u n : Nat) (c : Lcn) : (s.put f v u n).core c = s.core c := rfl

@[simp] theorem State.core_setThread (c : Lcn) (t : Fin 4) (th : Thread) (d : Lcn) : (s.setThread c t th).core d = s.core d :=
  rfl

@[simp] theorem State.thread_setCore (c : Lcn) (k : Core) (d : Lcn) (t : Fin 4) : (s.setCore c k).thread d t = s.thread d t :=
  rfl

/-! ### Two updates of one place -/

theorem putKey_putKey {α : Type} (m : PMap α) (k : Nat) (v w : α) : putKey (putKey m k v) k w = putKey m k w := by
  induction m with
  | nil => simp [putKey]
  | cons e r ih =>
    obtain ⟨j, x⟩ := e
    by_cases h : k = j
    · simp [putKey, h]
    · by_cases h' : k < j
      · simp [putKey, h, h']
      · simp [putKey, h, h', ih]

theorem mset_mset {α : Type} [DecidableEq α] (d : α) (m : PMap α) (k : Nat) {v w : α} (hv : v ≠ d) (hw : w ≠ d) :
    mset d (mset d m k v) k w = mset d m k w := by
  simp [mset, hv, hw, putKey_putKey]

/-- A thread that is RUNNING is not a thread after core reset. -/
theorem Thread.running_ne_reset {th : Thread} (h : th.st = .running) : th ≠ Thread.reset := by
  rintro rfl
  cases h

/-- Two changes of one RUNNING thread are one. -/
theorem State.setThread_setThread (c : Lcn) (t : Fin 4) {a b : Thread} (ha : a.st = .running) (hb : b.st = .running) :
    (s.setThread c t a).setThread c t b = s.setThread c t b := by
  simp [State.setThread, mset_mset, Thread.running_ne_reset ha, Thread.running_ne_reset hb]

end Sys2Proof.Machine
end

