-- ==== Sys2Proof/Laws/Issue.lean ====
section
/-!
SUPPORT. What the issue of an instruction can do: all cases of `State.issue`, and its result for a thread that is ready.
-/

namespace Sys2Proof.Machine

variable {s : State} {x : Issue}

/-- The thread as an instruction sees it when it issues. -/
def Thread.issuing (th : Thread) : Thread := { th with st := .running, stall := 0 }

@[simp] theorem Thread.issuing_st (th : Thread) : th.issuing.st = .running := rfl
@[simp] theorem Thread.issuing_pc (th : Thread) : th.issuing.pc = th.pc := rfl
@[simp] theorem Thread.issuing_readS (th : Thread) (r : Fin 32) : th.issuing.readS r = th.readS r := rfl
@[simp] theorem Thread.issuing_readA (th : Thread) (r : Fin 16) : th.issuing.readA r = th.readA r := rfl
@[simp] theorem Thread.issuing_readP (th : Thread) (r : Fin 8) : th.issuing.readP r = th.readP r := rfl
@[simp] theorem Thread.issuing_readT (th : Thread) (r : Fin 8) : th.issuing.readT r = th.readT r := rfl
@[simp] theorem Thread.issuing_src2 (th : Thread) (b : Src2) : th.issuing.src2 b = th.src2 b := by cases b <;> rfl
@[simp] theorem Thread.issuing_guard (th : Thread) (x : Issue) : th.issuing.guard x = th.guard x := rfl
@[simp] theorem Thread.issuing_address (th : Thread) (a : Fin 16) (pi : Bool) (o : Word) :
    th.issuing.address a pi o = th.address a pi o := rfl

@[simp] theorem Thread.writeS_st (th : Thread) (r : Fin 32) (v : Word) : (th.writeS r v).st = th.st := by
  unfold Thread.writeS; split <;> rfl
@[simp] theorem Thread.writeA_st (th : Thread) (r : Fin 16) (v : Word) : (th.writeA r v).st = th.st := rfl
@[simp] theorem Thread.writeP_st (th : Thread) (r : Fin 8) (v : Bool) : (th.writeP r v).st = th.st := by
  unfold Thread.writeP; split <;> rfl
@[simp] theorem Thread.writeT_st (th : Thread) (r : Fin 8) (v : Tile) : (th.writeT r v).st = th.st := rfl

@[simp] theorem Thread.issuing_writeS_retiredAt (th : Thread) (r : Fin 32) (v : Word) (pc : Nat) :
    (th.issuing.writeS r v).retiredAt pc = (th.writeS r v).retiredAt pc := by
  unfold Thread.writeS; split <;> rfl
@[simp] theorem Thread.issuing_writeA_retiredAt (th : Thread) (r : Fin 16) (v : Word) (pc : Nat) :
    (th.issuing.writeA r v).retiredAt pc = (th.writeA r v).retiredAt pc := rfl
@[simp] theorem Thread.issuing_writeP_retiredAt (th : Thread) (r : Fin 8) (v : Bool) (pc : Nat) :
    (th.issuing.writeP r v).retiredAt pc = (th.writeP r v).retiredAt pc := by
  unfold Thread.writeP; split <;> rfl
@[simp] theorem Thread.issuing_writeT_retiredAt (th : Thread) (r : Fin 8) (v : Tile) (pc : Nat) :
    (th.issuing.writeT r v).retiredAt pc = (th.writeT r v).retiredAt pc := rfl
@[simp] theorem Thread.issuing_retiredAt (th : Thread) (pc : Nat) : th.issuing.retiredAt pc = th.retiredAt pc := rfl

/-- None of the registers waits for an answer. -/
theorem State.offers.clear {regs : List RegRef} {len : Nat} (h : s.offers x regs len) :
    (regs.filter fun r => (s.core x.core).isPending x.thread r) = [] := by
  rw [List.filter_eq_nil_iff]
  intro r hr
  simp [h.2.2.2.2 r hr]

/-- An instruction that nothing holds back brings no instruction-fetch trap. -/
theorem State.offers.fetch {regs : List RegRef} {len : Nat} (h : s.offers x regs len) :
    s.fetchStop x.core (s.thread x.core x.thread).pc len = none := by
  have h1 := h.2.1
  have h2 := h.2.2.1
  simp only [State.issuer] at h1 h2
  simp [State.fetchStop, h2, Nat.not_lt.mpr h1]

/-- It is held up by what it lacks alone. -/
theorem State.offers.holdUp {regs : List RegRef} {len : Nat} (h : s.offers x regs len) (lacks : Option Nat) (needs : Needs) :
    s.holdUp x regs lacks needs = lacks.map fun r => (r, []) := by
  simp only [State.holdUp, h.clear, h.2.2.2.1]
  rcases lacks with _ | r
  · simp
  · match r with
    | 0 | 1 | 2 | 3 => simp
    | _ + 4 => simp

/-- A thread that cannot issue leaves the state as it is. -/
theorem State.issue_blocked (len : Nat) (regs : List RegRef) (lacks : Option Nat) (act : Thread → State → Act)
    (always : Bool) (needs : Needs) (h : s.canIssue x.core x.thread = false) :
    s.issue x len regs lacks act always needs = s := by
  simp [State.issue, h]

/-- An instruction that lacks a resource stalls its thread with that reason. -/
theorem State.issue_stalled {regs : List RegRef} {len : Nat} (h : s.offers x regs len) (r : Nat) (act : Thread → State → Act)
    (always : Bool) (needs : Needs) :
    s.issue x len regs (some r) act always needs = s.stallThread x.core x.thread r := by
  simp [State.issue, h.1, h.fetch, h.holdUp]

/-- An instruction that nothing holds back and that lacks nothing issues. -/
theorem State.issue_issues {regs : List RegRef} {len : Nat} (h : s.offers x regs len) (act : Thread → State → Act)
    (always : Bool) (needs : Needs) :
    s.issue x len regs none act always needs = s.issues x len act always := by
  simp [State.issue, h.1, h.fetch, h.holdUp, h.2.2.2.1, State.contends]

/-- An instruction whose guard is false only moves its thread on. -/
theorem State.issue_skipped {regs : List RegRef} {len : Nat} (h : s.offers x regs len) (hg : (s.issuer x).guard x = false)
    (act : Thread → State → Act) (needs : Needs) :
    s.issue x len regs none act false needs = s.after x (s.issuer x) ((s.issuer x).pc + len) := by
  have hg' : (s.thread x.core x.thread).guard x = false := hg
  rw [State.issue_issues h]
  simp only [State.issues, hg', State.retire, State.after, State.issuer, Thread.retiredAt]
  simp only [Bool.not_false, Bool.and_self, if_true, State.thread_setThread_same]
  exact State.setThread_setThread s x.core x.thread rfl rfl

/-- An instruction that issues takes its effect. -/
theorem State.issue_enacts {regs : List RegRef} {len : Nat} {always : Bool} (h : s.offers x regs len)
    (hg : always = true ∨ (s.issuer x).guard x = true) (act : Thread → State → Act) (needs : Needs) :
    s.issue x len regs none act always needs = s.enact x.core x.thread act := by
  have hg' : (!always && !(s.thread x.core x.thread).guard x) = false := by
    rcases hg with h | h
    · simp [h]
    · have : (s.thread x.core x.thread).guard x = true := h
      simp [this]
  simp [State.issue_issues h, State.issues, hg']

/-- An instruction that only changes its thread: it issues whatever its guard is where `always` says so (sel), and otherwise
where its guard is true. -/
theorem State.issueLocal_offers {regs : List RegRef} {len : Nat} {always : Bool} (ho : s.offers x regs len)
    (hg : always = true ∨ (s.issuer x).guard x = true) (f : Thread → State → Thread) (needs : Needs)
    (hf : (f (s.issuer x).issuing (s.setThread x.core x.thread (s.issuer x).issuing)).st = .running) :
    s.issueLocal x len regs f always needs =
      s.after x (f (s.issuer x).issuing (s.setThread x.core x.thread (s.issuer x).issuing)) ((s.issuer x).pc + len) := by
  change (f { s.thread x.core x.thread with st := .running, stall := 0 }
    (s.setThread x.core x.thread { s.thread x.core x.thread with st := .running, stall := 0 })).st = .running at hf
  rw [State.issueLocal, State.issue_enacts ho hg]
  simp only [State.enact, State.retire, State.after, State.issuer, State.thread_setThread_same]
  rw [State.setThread_setThread s x.core x.thread rfl hf]
  unfold Thread.issuing
  generalize f _ _ = y at hf ⊢
  obtain ⟨⟩ := y
  cases hf
  exact State.setThread_setThread s x.core x.thread rfl rfl

/-- An instruction that only changes its thread, issued by a thread that is ready. -/
theorem State.issueLocal_ready {regs : List RegRef} {len : Nat} (h : s.ready x regs len) (f : Thread → State → Thread)
    (needs : Needs)
    (hf : (f (s.issuer x).issuing (s.setThread x.core x.thread (s.issuer x).issuing)).st = .running) :
    s.issueLocal x len regs f false needs =
      s.after x (f (s.issuer x).issuing (s.setThread x.core x.thread (s.issuer x).issuing)) ((s.issuer x).pc + len) :=
  State.issueLocal_offers h.1 (.inr h.2) f needs hf

/-- An instruction that issues and has its effect: the state it leaves, with its thread retired. -/
theorem State.issue_done {regs : List RegRef} {len : Nat} (h : s.ready x regs len) (act : Thread → State → Act)
    (always : Bool) (needs : Needs) {t : State} {pc : Nat}
    (ha : act (s.issuer x).issuing (s.setThread x.core x.thread (s.issuer x).issuing) = .done t pc) :
    s.issue x len regs none act always needs = t.retire x.core x.thread pc := by
  change act { s.thread x.core x.thread with st := .running, stall := 0 }
    (s.setThread x.core x.thread { s.thread x.core x.thread with st := .running, stall := 0 }) = .done t pc at ha
  rw [State.issue_enacts h.1 (.inr h.2)]
  simp [State.enact, ha]

/-- An instruction that meets an issue trap has no effect but the trap. -/
theorem State.issue_trap {regs : List RegRef} {len : Nat} (h : s.ready x regs len) (act : Thread → State → Act)
    (always : Bool) (needs : Needs) {r : TrapInfo}
    (ha : act (s.issuer x).issuing (s.setThread x.core x.thread (s.issuer x).issuing) = .trap r) :
    s.issue x len regs none act always needs =
      (s.setThread x.core x.thread (s.issuer x).issuing).trap x.core x.thread r := by
  change act { s.thread x.core x.thread with st := .running, stall := 0 }
    (s.setThread x.core x.thread { s.thread x.core x.thread with st := .running, stall := 0 }) = .trap r at ha
  rw [State.issue_enacts h.1 (.inr h.2)]
  simp only [State.enact, ha]
  rfl

end Sys2Proof.Machine
end

