-- ==== Sys2Proof/Laws/Memory.lean ====
section
/-!
SUPPORT. Every operation that writes, moves or drops bytes keeps the canonical form of the memories, and right after reset they
have it.
-/

namespace Sys2Proof.Machine

variable {α : Type}

theorem keysAbove_filter {m : PMap α} {b : Nat} (p : Nat × α → Bool) (h : keysAbove b m = true) :
    keysAbove b (m.filter p) = true := by
  simp only [keysAbove, List.all_eq_true, decide_eq_true_eq] at *
  exact fun e he => h e (List.mem_of_mem_filter he)

theorem risingKeys_filter (p : Nat × α → Bool) : ∀ m : PMap α, risingKeys m = true → risingKeys (m.filter p) = true
  | [], _ => rfl
  | (k, v) :: r, h => by
    simp only [risingKeys, Bool.and_eq_true] at h
    by_cases hp : p (k, v) = true
    · rw [List.filter_cons_of_pos hp]
      simp only [risingKeys, Bool.and_eq_true]
      exact ⟨keysAbove_filter p h.1, risingKeys_filter p r h.2⟩
    · rw [List.filter_cons_of_neg hp]
      exact risingKeys_filter p r h.2

/-- Dropping entries keeps the canonical form. -/
theorem canonical_filter [DecidableEq α] (d : α) (m : PMap α) (p : Nat × α → Bool) (h : canonical d m = true) :
    canonical d (m.filter p) = true := by
  simp only [canonical, Bool.and_eq_true, List.all_eq_true] at *
  exact ⟨risingKeys_filter p m h.1, fun e he => h.2 e (List.mem_of_mem_filter he)⟩

/-- Entries listed one by one, none equal to the default, keep the canonical form. -/
theorem canonical_putKeys [DecidableEq α] (d : α) (g : Nat → Nat) (l : PMap α) : ∀ m : PMap α, canonical d m = true →
    (∀ e ∈ l, e.2 ≠ d) → canonical d (l.foldl (fun m e => putKey m (g e.1) e.2) m) = true := by
  induction l with
  | nil => intro m h _; exact h
  | cons e r ih =>
    intro m h hl
    have he : e.2 ≠ d := hl e (by simp)
    have := canonical_mset d m (g e.1) e.2 h
    rw [mset, if_neg he] at this
    exact ih _ this fun x hx => hl x (by simp [hx])

/-- Moving a range of cells keeps the canonical form. -/
theorem canonical_moveCells [DecidableEq α] (d : α) (m : PMap α) (a b n : Nat) (h : canonical d m = true) :
    canonical d (moveCells m a b n) = true := by
  refine canonical_putKeys d (fun k => k - a + b) _ _ (canonical_filter d m _ h) fun e he => ?_
  simp only [canonical, Bool.and_eq_true, List.all_eq_true, Bool.not_eq_true', decide_eq_false_iff_not] at h
  exact h.2 e (List.mem_of_mem_filter he)

theorem State.reset_memoriesWf : State.reset.memoriesWf := by
  unfold State.memoriesWf; decide

/-- Registers, threads and cores may change freely. -/
theorem State.memoriesWf.congr {s t : State} (h : s.memoriesWf) (h1 : t.sram = s.sram) (h2 : t.istore = s.istore)
    (h3 : t.patStore = s.patStore) (h4 : t.firmware = s.firmware) (h5 : t.updBuf = s.updBuf) : t.memoriesWf := by
  unfold State.memoriesWf at *; rw [h1, h2, h3, h4, h5]; exact h

@[simp] theorem State.noteWrite_memories (s : State) (c : Lcn) (tile : Nat) :
    (s.noteWrite c tile).sram = s.sram ∧ (s.noteWrite c tile).istore = s.istore ∧
      (s.noteWrite c tile).patStore = s.patStore ∧ (s.noteWrite c tile).firmware = s.firmware ∧
      (s.noteWrite c tile).updBuf = s.updBuf := by
  unfold State.noteWrite
  cases h : ((s.core c).queue.isEmpty && (s.core c).array.isNone) <;> simp [h]

theorem State.memoriesWf.writeSram {s : State} (h : s.memoriesWf) (c : Lcn) (off v n : Nat) :
    (s.writeSram c off v n).memoriesWf := by
  obtain ⟨-, h2, h3, h4, h5⟩ := s.noteWrite_memories c (off / 256)
  unfold State.memoriesWf at *
  exact ⟨canonical_writeLE 0 n s.sram _ v h.1, h2 ▸ h.2.1, h3 ▸ h.2.2.1, h4 ▸ h.2.2.2.1, h5 ▸ h.2.2.2.2⟩

theorem State.memoriesWf.freeTile {s : State} (h : s.memoriesWf) (c : Lcn) (k : Nat) : (s.freeTile c k).memoriesWf := by
  unfold State.memoriesWf State.freeTile State.free at *
  simp only
  generalize (256 : Nat) = n
  exact ⟨canonical_writeLE 0 n s.sram _ _ h.1, h.2⟩

theorem State.memoriesWf.writePattern {s : State} (h : s.memoriesWf) (a v n : Nat) :
    (s.writePattern a v n).memoriesWf :=
  ⟨h.1, h.2.1, canonical_writeLE 0xFF n s.patStore a v h.2.2.1, h.2.2.2⟩

theorem State.memoriesWf.copyWindow {s : State} (h : s.memoriesWf) (c : Lcn) (slot : Nat) :
    (s.copyWindow c slot).memoriesWf := by
  unfold State.memoriesWf State.copyWindow at *
  simp only
  generalize (0x1000 : Nat) = n
  exact ⟨h.1, canonical_writeLE 0xFF n s.istore _ _ h.2.1, h.2.2⟩

theorem State.memoriesWf.writeUpdBuf {s : State} (h : s.memoriesWf) (off v : Nat) :
    (s.writeUpdBuf off v).memoriesWf :=
  ⟨h.1, h.2.1, h.2.2.1, h.2.2.2.1, canonical_writeLE 0 8 s.updBuf off v h.2.2.2.2⟩

theorem State.memoriesWf.programSlot {s : State} (h : s.memoriesWf) (slot off v n : Nat) :
    (s.programSlot slot off v n).memoriesWf :=
  ⟨h.1, h.2.1, h.2.2.1, canonical_writeLE 0 n s.firmware _ v h.2.2.2.1, h.2.2.2.2⟩

theorem State.memoriesWf.wipeCores {s : State} (h : s.memoriesWf) (lost : Nat → Bool) : (s.wipeCores lost).memoriesWf :=
  ⟨canonical_filter 0 _ _ h.1, canonical_filter 0xFF _ _ h.2.1, canonical_filter 0xFF _ _ h.2.2.1, h.2.2.2⟩

theorem State.memoriesWf.wipeTested {s : State} (h : s.memoriesWf) (tested : Nat → Bool) :
    (s.wipeTested tested).memoriesWf :=
  ⟨canonical_filter 0 _ _ h.1, h.2⟩

/-- The lanes of a core set one by one. -/
def State.setLanes (s : State) (d : Lcn) (l : List (Word × Nat)) : State := l.foldl (fun s e => s.setLane d e.2 e.1) s

theorem State.memoriesWf.setLanes (d : Lcn) (l : List (Word × Nat)) : ∀ {s : State}, s.memoriesWf →
    (s.setLanes d l).memoriesWf := by
  induction l with
  | nil => exact id
  | cons e r ih => exact fun {s} h => ih (s := s.setLane d e.2 e.1) h

theorem State.memoriesWf.moveCore {s : State} (h : s.memoriesWf) (c d : Lcn) : (s.moveCore c d).memoriesWf := by
  have key (l : List (Word × Nat)) (lanes : PMap Word → PMap Word) (f : Fld) (v u : Nat) (t : State) (ht : t.memoriesWf) :
      (({ t.setLanes d l with lanes := lanes (t.setLanes d l).lanes } : State).put f v u).memoriesWf := by
    have := State.memoriesWf.setLanes d l ht
    generalize t.setLanes d l = t' at *
    exact this
  unfold State.moveCore
  simp only
  generalize (List.map (fun l => s.lane c l) (List.range 256)).zipIdx = l
  refine key l (fun m => m.filter fun e => e.1 / 256 != c.toNat) _ _ _ _ ?_
  unfold State.memoriesWf Memory.wf at *
  simp only
  exact ⟨canonical_moveCells 0 _ _ _ _ h.1, canonical_moveCells 0xFF _ _ _ _ h.2.1,
    canonical_moveCells 0xFF _ _ _ _ h.2.2.1, h.2.2.2⟩

end Sys2Proof.Machine
end

