-- ==== Sys2Proof/Laws/Store.lean ====
section
/-!
SUPPORT. A copy that the block writes is a valid copy of its section with its SEQ (20 R660, R661).
-/

namespace Sys2Proof.Machine

/-- A number of four bytes reads back. -/
theorem ofBytes_four (n : Nat) :
    ofBytes ((List.range 4).map fun i => BitVec.ofNat 8 (n / 256 ^ i)) = n % 2 ^ 32 := by
  simp only [ofBytes, List.range, List.range.loop, List.map, List.foldr, BitVec.toNat_ofNat]
  omega

theorem copyValid_copyBytes (id seq : Nat) (payload : List Byte) (h : payload.length + 16 ≤ (sectRegion id).2) :
    copyValid id (copyBytes id seq payload) = true := by
  have hl : payload.length % 2 ^ 32 = payload.length := by
    apply Nat.mod_eq_of_lt
    have : (sectRegion id).2 ≤ 144 * 1024 := by unfold sectRegion; split <;> omega
    omega
  have e : ofBytes (((copyBytes id seq payload).drop 4).take 4) = payload.length := by
    rw [← hl, ← ofBytes_four]; rfl
  have p : ((copyBytes id seq payload).drop 16).take payload.length = payload := by
    show payload.take payload.length = payload
    exact List.take_length
  have c : ofBytes (((copyBytes id seq payload).drop 12).take 4) =
      (copyCheck (copyHead id payload.length seq) payload).toNat := by
    rw [← Nat.mod_eq_of_lt (copyCheck (copyHead id payload.length seq) payload).isLt, ← ofBytes_four]; rfl
  have t : (copyBytes id seq payload).take 12 = copyHead id payload.length seq := rfl
  have m : (copyBytes id seq payload).take 4 = [0x54, 0x53, BitVec.ofNat 8 id, 0x01] := rfl
  simp [copyValid, e, p, c, t, m, h]

/-- SEQ of the copy reads back. -/
theorem copySeq_copyBytes (id seq : Nat) (payload : List Byte) : copySeq (copyBytes id seq payload) = seq % 2 ^ 32 := by
  rw [← ofBytes_four]; rfl

end Sys2Proof.Machine
end

