-- ==== Sys2Proof/Laws/Wire.lean ====
section
/-!
SUPPORT. What a port sends, a unit reads back: the frames that `frameBits` builds have the fields they were built from and pass
the frame check (13 R471, R476).
-/

namespace Sys2Proof.Machine

set_option exponentiation.threshold 2200 in
/-- A field of a frame is cut from the number that the frame was built from. -/
theorem frameBits_field (kind dv fseq ackseq rdc wrc e0 slot b n : Nat) :
    let head := kind % 8 + dv % 2 * 2 ^ 3 + fseq % 1024 * 2 ^ 4 + ackseq % 1024 * 2 ^ 14 + rdc % 16 * 2 ^ 24 +
      wrc % 16 * 2 ^ 28
    let e := e0 % 2 ^ 64
    let d := slot % 2 ^ 2048
    frameField (frameBits kind dv fseq ackseq rdc wrc e0 slot) b n =
      (head + (frameCheck head e d).toNat * 2 ^ 32 + e * 2 ^ 64 + d * 2 ^ 128) / 2 ^ b % 2 ^ n := by
  intro head e d
  have hd : d < 2 ^ 2048 := Nat.mod_lt _ (by positivity)
  have he : e < 2 ^ 64 := Nat.mod_lt _ (by positivity)
  have hc : (frameCheck head e d).toNat < 2 ^ 32 := BitVec.isLt _
  have hh : head < 2 ^ 32 := by omega
  have h : head + (frameCheck head e d).toNat * 2 ^ 32 + e * 2 ^ 64 < 2 ^ 128 := by omega
  have key : head + (frameCheck head e d).toNat * 2 ^ 32 + e * 2 ^ 64 + d * 2 ^ 128 < 2 ^ 2176 :=
    calc _ < 2 ^ 128 + d * 2 ^ 128 := Nat.add_lt_add_right h _
      _ = (d + 1) * 2 ^ 128 := by rw [Nat.add_mul, Nat.one_mul, Nat.add_comm]
      _ ≤ 2 ^ 2048 * 2 ^ 128 := Nat.mul_le_mul_right _ hd
      _ = 2 ^ 2176 := by rw [← Nat.pow_add]
  unfold frameField frameBits
  show (BitVec.ofNat 2176 _).toNat / 2 ^ b % 2 ^ n = _
  rw [BitVec.toNat_ofNat, Nat.mod_eq_of_lt key]

/-- A frame that a port builds passes the frame check. -/
theorem frameGood_frameBits (kind dv fseq ackseq rdc wrc e0 slot : Nat) :
    frameGood (frameBits kind dv fseq ackseq rdc wrc e0 slot) = true := by
  unfold frameGood
  simp only [frameBits_field]
  generalize hh : kind % 8 + dv % 2 * 2 ^ 3 + fseq % 1024 * 2 ^ 4 + ackseq % 1024 * 2 ^ 14 + rdc % 16 * 2 ^ 24 +
      wrc % 16 * 2 ^ 28 = head
  have hl : head < 2 ^ 32 := by omega
  have he : e0 % 2 ^ 64 < 2 ^ 64 := Nat.mod_lt _ (by positivity)
  have hd : slot % 2 ^ 2048 < 2 ^ 2048 := Nat.mod_lt _ (by positivity)
  have hc : (frameCheck head (e0 % 2 ^ 64) (slot % 2 ^ 2048)).toNat < 2 ^ 32 := BitVec.isLt _
  generalize hq : (frameCheck head (e0 % 2 ^ 64) (slot % 2 ^ 2048)).toNat = q at *
  generalize e0 % 2 ^ 64 = e at *
  generalize slot % 2 ^ 2048 = d at *
  have h0 : (head + q * 2 ^ 32 + e * 2 ^ 64 + d * 2 ^ 128) / 2 ^ 0 % 2 ^ 32 = head := by omega
  have h1 : (head + q * 2 ^ 32 + e * 2 ^ 64 + d * 2 ^ 128) / 2 ^ 32 % 2 ^ 32 = q := by omega
  have h2 : (head + q * 2 ^ 32 + e * 2 ^ 64 + d * 2 ^ 128) / 2 ^ 64 % 2 ^ 64 = e := by omega
  have h3 : (head + q * 2 ^ 32 + e * 2 ^ 64 + d * 2 ^ 128) / 2 ^ 128 = d := by omega
  rw [h0, h1, h2, h3, Nat.mod_eq_of_lt hd, hq]
  exact beq_self_eq_true q

/-- KIND, FSEQ and E0 read back. -/
theorem frameKind_frameBits (kind dv fseq ackseq rdc wrc e0 slot : Nat) :
    frameKind (frameBits kind dv fseq ackseq rdc wrc e0 slot) = kind % 8 := by
  unfold frameKind
  rw [frameBits_field]
  omega

theorem frameOf_frameBits_fseq (kind dv fseq ackseq rdc wrc e0 slot : Nat) :
    (frameOf (frameBits kind dv fseq ackseq rdc wrc e0 slot)).fseq = Fin.ofNat 1024 fseq := by
  show Fin.ofNat 1024 (frameField _ 4 10) = _
  rw [frameBits_field]
  apply Fin.ext
  show _ % 1024 = fseq % 1024
  omega

theorem frameE0_frameBits (kind dv fseq ackseq rdc wrc e0 slot : Nat) :
    frameE0 (frameBits kind dv fseq ackseq rdc wrc e0 slot) = e0 % 2 ^ 64 := by
  unfold frameE0
  rw [frameBits_field]
  generalize hh : kind % 8 + dv % 2 * 2 ^ 3 + fseq % 1024 * 2 ^ 4 + ackseq % 1024 * 2 ^ 14 + rdc % 16 * 2 ^ 24 +
      wrc % 16 * 2 ^ 28 = head
  have hl : head < 2 ^ 32 := by omega
  have hc : (frameCheck head (e0 % 2 ^ 64) (slot % 2 ^ 2048)).toNat < 2 ^ 32 := BitVec.isLt _
  omega

end Sys2Proof.Machine
end

