-- ==== Sys2Proof/Machine/Words.lean ====
section
/-!
DEFINITION. The instruction words: which command, with which operands, the first word of an instruction and its immediate word
spell (03 R92 to R98, Tables 3.1 to 3.17; 04 R176, R177). A word that is no legal encoding spells none.
-/

namespace Sys2Proof.Machine

/-- The register fields of a word from bit `lo`: a scalar register or tack, an address register, and a predicate, tile register
or PART. -/
def wordS (w lo : Nat) : Fin 32 := Fin.ofNat 32 (w / 2 ^ lo)
def wordA (w lo : Nat) : Fin 16 := Fin.ofNat 16 (w / 2 ^ lo)
def wordP (w lo : Nat) : Fin 8 := Fin.ofNat 8 (w / 2 ^ lo)

/-- FMT, RM or COND, and an accumulator, from bit `lo`. -/
def wordFmt (w lo : Nat) : Fin 13 := Fin.ofNat 13 (bits w (lo + 3) lo)
def wordRm (w lo : Nat) : Fin 3 := Fin.ofNat 3 (bits w (lo + 1) lo)
def wordC (w lo : Nat) : Fin 4 := Fin.ofNat 4 (w / 2 ^ lo)

/-- OP. -/
def wordOp (w : Nat) : Nat := bits w 22 17

/-- The operations of 03 Table 3.4 that both classes have. -/
def scalarOp (op : Nat) : Option (Issue → Fin 32 → Fin 32 → Bool → Src2 → Instr) :=
  match op with
  | 0x00 => some .add
  | 0x01 => some .sub
  | 0x02 => some .and
  | 0x03 => some .or
  | 0x04 => some .xor
  | 0x05 => some .sll
  | 0x06 => some .srl
  | 0x07 => some .sra
  | 0x08 => some .mul
  | 0x0A => some .div
  | 0x0B => some .divu
  | 0x0C => some .rem
  | 0x0D => some .remu
  | 0x0E => some .min
  | 0x0F => some .max
  | 0x10 => some .minu
  | 0x11 => some .maxu
  | 0x12 => some .sel
  | _ => none

/-- Class 0x0. -/
def scalarWord (x : Issue) (w : Nat) : Option Instr :=
  let w32 := w.testBit 0
  match wordOp w with
  | 0x13 => some (.clz x (wordS w 12) (wordS w 7) w32)
  | 0x14 => some (.popc x (wordS w 12) (wordS w 7) w32)
  | 0x3F => some (.rdsys x (wordS w 12) (wordP w 7))
  | op => (scalarOp op).map fun f => f x (wordS w 12) (wordS w 7) w32 (.reg (wordS w 2))

/-- Class 0x1. -/
def immediateWord (x : Issue) (w imm : Nat) (long : Bool) : Option Instr :=
  match wordOp w with
  | 0x16 => some (.lhi x (wordS w 12) (wordS w 7) (BitVec.ofNat 32 imm))
  | op => (scalarOp op).map fun f => f x (wordS w 12) (wordS w 7) false
      (if long then .imm32 (BitVec.ofNat 32 imm) else .imm7 (BitVec.ofNat 7 w))

/-- An access size. -/
def sizeOf_ (n : Nat) : Size := match n % 4 with
  | 0 => .b
  | 1 => .h
  | 2 => .w
  | _ => .d

/-- Class 0x2. -/
def memoryWord (x : Issue) (w imm : Nat) (long : Bool) : Option Instr :=
  let op := wordOp w
  let off : Off := if long then .off32 (BitVec.ofNat 32 imm) else .off6 (BitVec.ofNat 6 w)
  let rd := wordS w 12
  let a := wordA w 8
  let pi := w.testBit 7
  let f := w.testBit 6
  let w4 := decide (0x18 ≤ op)
  if op ≤ 3 then some (.ld x (sizeOf_ op) rd a pi f off)
  else if op ≤ 6 then some (.ldu x (sizeOf_ op) rd a pi f off)
  else match op % 8, decide (op < 0x10) with
    | n, true => some (.st x (sizeOf_ n) rd a pi f off)
    | 0, _ => some (.amoadd x w4 rd a pi f off)
    | 1, _ => some (.amoswap x w4 rd a pi f off)
    | 2, _ => some (.amoand x w4 rd a pi f off)
    | 3, _ => some (.amoor x w4 rd a pi f off)
    | 4, _ => some (.amoxor x w4 rd a pi f off)
    | 5, _ => some (.amomin x w4 rd a pi f off)
    | 6, _ => some (.amomax x w4 rd a pi f off)
    | _, _ => some (.amocas x w4 rd a pi f off)

/-- An immediate of nine bits or of the immediate word. -/
def wordImm (w imm : Nat) (long : Bool) : CmpImm :=
  if long then .imm32 (BitVec.ofNat 32 imm) else .imm9 (BitVec.ofNat 9 w)

/-- Class 0x3. -/
def addressWord (x : Issue) (w imm : Nat) (long : Bool) : Option Instr :=
  let ad := wordA w 13
  let as_ := wordA w 9
  let sr := wordS w 4
  match wordOp w with
  | 0 => some (.aadd x ad as_ sr (wordA w 0))
  | 1 => some (.asub x ad as_ sr (wordA w 0))
  | 2 => some (.aset x ad sr)
  | 3 => some (.aget x sr as_)
  | 4 => some (.aaddi x ad as_ (wordImm w imm long))
  | 5 => some (.alocal x ad sr)
  | 6 => some (.acore x ad as_ sr)
  | _ => none

/-- Class 0x4. -/
def predicateWord (x : Issue) (w imm : Nat) (long : Bool) : Option Instr :=
  let pd := wordP w 14
  let a := wordS w 9
  let b := wordS w 4
  let i := wordImm w imm long
  let pa := wordP w 11
  let pb := wordP w 8
  match wordOp w with
  | 0x00 => some (.cmpEq x pd a b)
  | 0x01 => some (.cmpNe x pd a b)
  | 0x02 => some (.cmpLt x pd a b)
  | 0x03 => some (.cmpGe x pd a b)
  | 0x04 => some (.cmpLtu x pd a b)
  | 0x05 => some (.cmpGeu x pd a b)
  | 0x08 => some (.cmpiEq x pd a i)
  | 0x09 => some (.cmpiNe x pd a i)
  | 0x0A => some (.cmpiLt x pd a i)
  | 0x0B => some (.cmpiGe x pd a i)
  | 0x0C => some (.cmpiLtu x pd a i)
  | 0x0D => some (.cmpiGeu x pd a i)
  | 0x0E => some (.cmpiGt x pd a i)
  | 0x0F => some (.cmpiLe x pd a i)
  | 0x10 => some (.cmpiGtu x pd a i)
  | 0x11 => some (.cmpiLeu x pd a i)
  | 0x20 => some (.pand x pd pa pb)
  | 0x21 => some (.por x pd pa pb)
  | 0x22 => some (.pxor x pd pa pb)
  | 0x23 => some (.pandn x pd pa pb)
  | 0x24 => some (.pnot x pd pa)
  | _ => none

/-- Class 0x5. -/
def controlWord (x : Issue) (w : Nat) : Option Instr :=
  match wordOp w with
  | 0 => some (.nop x)
  | 1 => some (.br x (BitVec.ofNat 17 w))
  | 2 => some (.jal x (wordS w 12) (BitVec.ofNat 12 w))
  | 3 => some (.jalr x (wordS w 12) (wordS w 7))
  | 4 => some (.end_ x)
  | 5 => some (.trap x (BitVec.ofNat 16 w))
  | _ => none

/-- Class 0x6. -/
def messageWord (x : Issue) (w : Nat) : Option Instr :=
  match wordOp w with
  | 0 => some (.msend x (Fin.ofNat 64 (w / 2 ^ 11)) (wordS w 6) (wordA w 2) (w.testBit 1))
  | 1 => some (.mpoll x (wordP w 14) (wordA w 2))
  | 2 => some (.mfree x (wordA w 2))
  | _ => none

/-- Class 0x7. -/
def tackWord (x : Issue) (w : Nat) : Option Instr :=
  let t := wordS w 12
  let a := wordS w 7
  let f := w.testBit 0
  match wordOp w with
  | 0 => some (.tsigAdd x t a)
  | 1 => some (.tsigSet x t a)
  | 2 => some (.tsigAddR x t a (wordS w 2) f)
  | 3 => some (.tsigSetR x t a (wordS w 2) f)
  | 4 => some (.twaitGe x t a)
  | 5 => some (.twaitEq x t a)
  | 6 => some (.tackLd x t a)
  | _ => none

/-- Class 0x8. -/
def fabricWord (x : Issue) (w : Nat) : Option Instr :=
  let a := wordA w 13
  let f := w.testBit 2
  match wordOp w with
  | 0 => some (.nsum x a (wordS w 8) (wordS w 3) f)
  | 1 => some (.ncast x a (wordS w 8) (wordS w 3) f)
  | 2 => some (.nprobe x (wordS w 8) (wordS w 3))
  | _ => none

/-- Class 0x9. -/
def tileWord (x : Issue) (w imm : Nat) (long : Bool) : Option Instr :=
  let td := wordP w 14
  let ta := wordP w 11
  let tb := wordP w 8
  let fmt := wordFmt w 4
  let rm := wordRm w 2
  let off : TileOff := if long then .off32 (BitVec.ofNat 32 imm) else .off8 (BitVec.ofNat 8 w)
  match wordOp w with
  | 0x00 => some (.tileLd x td (wordA w 10) (w.testBit 9) (w.testBit 8) off)
  | 0x01 => some (.tileSt x td (wordA w 10) (w.testBit 9) (w.testBit 8) off)
  | 0x08 => some (.tadd x td ta tb fmt rm)
  | 0x09 => some (.tsub x td ta tb fmt rm)
  | 0x0A => some (.tmul x td ta tb fmt rm)
  | 0x0B => some (.tfma x td ta tb fmt rm)
  | 0x0C => some (.tmin x td ta tb fmt rm)
  | 0x0D => some (.tmax x td ta tb fmt rm)
  | 0x0E => some (.tsel x td ta tb fmt rm)
  | 0x0F => some (.tcmpm x td ta tb fmt (wordC w 2))
  | 0x10 => some (.tcmpAny x td ta tb fmt (wordC w 2))
  | 0x11 => some (.tcmpAll x td ta tb fmt (wordC w 2))
  | 0x14 => some (.tabs x td ta fmt rm)
  | 0x15 => some (.tneg x td ta fmt rm)
  | 0x16 => some (.tmov x td ta fmt rm)
  | 0x17 => some (.tredSum x td ta fmt rm)
  | 0x18 => some (.tredMax x td ta fmt rm)
  | 0x19 => some (.texp2 x td ta fmt rm)
  | 0x1A => some (.trcp x td ta fmt rm)
  | 0x1B => some (.trsqrt x td ta fmt rm)
  | 0x1C => some (.ttr x td ta fmt rm)
  | 0x1D => some (.ttwosum x td ta tb fmt rm)
  | 0x1E => some (.ttwoprod x td ta tb fmt rm)
  | 0x20 => some (.tcvt x td ta (wordFmt w 7) (wordFmt w 3) (wordRm w 1) (wordP imm 0))
  | 0x28 => some (.tins x td (wordS w 9) (wordS w 4) (wordFmt w 0))
  | 0x29 => some (.text x td (wordS w 9) (wordS w 4) (wordFmt w 0))
  | 0x2A => some (.tsplat x td (wordS w 9) (wordFmt w 0))
  | _ => none

/-- Class 0xA. -/
def tensorWord (x : Issue) (w imm : Nat) (long : Bool) : Option Instr :=
  let cd := wordC w 15
  let fmt := wordFmt w 5
  let rm := wordRm w 3
  match wordOp w with
  | 0 => some (.tmma x cd (wordP w 12) (wordP w 9) fmt rm (w.testBit 2) (w.testBit 1)
      (if long then some (imm.testBit 0, wordP imm 1, BitVec.ofNat 16 (imm / 2 ^ 16)) else none))
  | 1 => some (.cread x cd (wordP w 12) (wordP w 9) fmt rm)
  | 2 => some (.cwrite x cd (wordP w 12) (wordP w 9) fmt rm)
  | 3 => some (.czero x cd)
  | _ => none

/-- Who issues a word: its guard (03 R92, R98), and what it meets in its cc. -/
def wordIssue (c : Lcn) (t : Fin 4) (w : Nat) (held : List Contention) : Issue :=
  { core := c, thread := t, pred := wordP w 24, pn := w.testBit 23, held }

/-- The command that a first word and its immediate word spell. -/
def spelled (c : Lcn) (t : Fin 4) (held : List Contention) (w imm : Nat) : Option Instr :=
  let x := wordIssue c t w held
  let long := w.testBit 27
  if !legalWord w imm then none
  else match bits w 31 28 with
    | 0 => scalarWord x w
    | 1 => immediateWord x w imm long
    | 2 => memoryWord x w imm long
    | 3 => addressWord x w imm long
    | 4 => predicateWord x w imm long
    | 5 => controlWord x w
    | 6 => messageWord x w
    | 7 => tackWord x w
    | 8 => fabricWord x w
    | 9 => tileWord x w imm long
    | _ => tensorWord x w imm long

/-- The command that a thread's instruction store spells at its program counter, where the word there meets no
instruction-fetch trap. -/
def State.nextInstr (s : State) (c : Lcn) (t : Fin 4) (held : List Contention) : Option Instr :=
  let pc := (s.thread c t).pc
  if (s.fetchTrap c pc).isSome then none else spelled c t held (s.fetch c pc) (s.fetch c (pc + 4))

end Sys2Proof.Machine
end

