-- ==== Sys2Proof/WellFormed.lean ====
section
/-!
DEFINITION. Which commands are well-formed: the operand combinations that the encodings of chapter 03 rule out although the
operands' types admit them.
-/

namespace Sys2Proof

/-- Only a register operand goes with the 32-bit operation: class 0x1 always operates at w = 64 (03 R103). -/
def Src2.fits (b : Src2) (w32 : Bool) : Bool :=
  match b with
  | .reg _ => true
  | _ => !w32

/-- The command has an encoding of chapter 03: no 32-bit operation with an immediate (R103), no zero-extending load of 8 bytes
(Table 3.7), an even RD of amocas (R109) and an even RS of msend (R122). -/
def Instr.wf (i : Instr) : Bool :=
  match i with
  | .add _ _ _ w b | .sub _ _ _ w b | .and _ _ _ w b | .or _ _ _ w b | .xor _ _ _ w b | .sll _ _ _ w b
  | .srl _ _ _ w b | .sra _ _ _ w b | .mul _ _ _ w b | .div _ _ _ w b | .divu _ _ _ w b | .rem _ _ _ w b
  | .remu _ _ _ w b | .min _ _ _ w b | .max _ _ _ w b | .minu _ _ _ w b | .maxu _ _ _ w b | .sel _ _ _ w b =>
    b.fits w
  | .ldu _ size _ _ _ _ _ => size != .d
  | .amocas _ _ r _ _ _ _ => r.val % 2 == 0
  | .msend _ _ r _ _ => r.val % 2 == 0
  | _ => true

end Sys2Proof
end

