-- ==== Sys2Proof/Tests/Slice0.lean ====
section
/-!
SUPPORT. Tests: the well-formedness checks refuse, the spec's own values come out of single steps, and for each obligation with
hypotheses a concrete state and operands that meet them (witness_...).
-/

namespace Sys2Proof.Tests

open Sys2Proof.Machine

-- One test after another: each waits for a long kernel evaluation, and many at once would take a thread apiece.
set_option Elab.async false

/-! ### A small module -/

/-- Field 0 is up, core 5 of it is clocked, and the links to its host and to Marker are open; no thread runs yet. -/
def mini : State :=
  let s := (State.reset.setDomain 0 true).setDomain 64 true
  let s := ((s.put F.CLK_FLDf_CTL_CMP_EN 1 0).put F.CLK_FLDf_CTL_TRN_EN 1 0).put F.CLK_FLDf_CTL_BLK_EN 1 0
  let s := (s.put F.CORE_CTL_CLK_EN 1 5).put F.CORE_CTL_CLK_EN 1 6
  let s := (s.put F.BRG_FLD_COMPUTE_MAP 1).put F.BRG_FLD_TRANSIT_MAP 1
  let s := (s.put F.CXL_LINKSTAT_STATE 2).put F.CXL_LDk_PART_FIELDS 1 0
  ((s.put F.CLK_BLKEN_BRG 1).put F.CLK_BLKEN_MRK 1).put F.CLK_BLKEN_CXL 1

/-- Thread 0 of core 5, unguarded. -/
def x0 : Issue := ⟨5, 0, 0, false, []⟩

/-- The module with a given thread 0 on core 5, RUNNING. -/
def running (th : Thread) : State := mini.setThread 5 0 { th with st := .running }

/-- Scalar registers s1 and s2. -/
def scalars (a b : Word) : Thread := { s := [(1, a), (2, b)] }

/-- The thread of core 5 after a step that goes on. -/
def thread0 (o : Out) : Thread := match o with
  | .next t => t.thread 5 0
  | _ => {}

/-- The state after a step that goes on. -/
def nextOf (o : Out) (d : State) : State := match o with
  | .next t => t
  | _ => d

/-! ### Well-formedness: each check refuses an ill-formed command -/

theorem test_wf_wide_immediate : (Instr.add x0 1 2 true (.imm7 3)).wf = false := by decide
theorem test_wf_wide_register : (Instr.add x0 1 2 true (.reg 3)).wf = true := by decide
theorem test_wf_sel_immediate : (Instr.sel x0 1 2 true (.imm32 3)).wf = false := by decide
theorem test_wf_ldu_doubleword : (Instr.ldu x0 .d 1 2 false false (.off6 0)).wf = false := by decide
theorem test_wf_ldu_word : (Instr.ldu x0 .w 1 2 false false (.off6 0)).wf = true := by decide
theorem test_wf_amocas_odd : (Instr.amocas x0 false 3 1 false false (.off6 0)).wf = false := by decide
theorem test_wf_msend_odd : (Instr.msend x0 0 5 1 false).wf = false := by decide
theorem test_wf_msend_even : (Instr.msend x0 0 4 1 false).wf = true := by decide

/-! ### Scalar, predicate and address instructions (03 Tables 3.4 to 3.6, R103, R104) -/

theorem witness_ScalarArithmetic :
    (running (scalars 7 9)).ready x0 ([.s 31, .s 1] ++ [RegRef.s 2]) ∧
      (running (scalars 7 9)).ready x0 ([.s 0, .s 1] ++ []) := by
  unfold State.ready State.offers; decide +kernel

theorem witness_DivisionAndRemainder :
    (running (scalars 7 0)).ready x0 ([.s 3, .s 1] ++ [RegRef.s 2]) := by
  unfold State.ready State.offers; decide +kernel

/-- 03 R103: the 32-bit sum wraps and is sign-extended. -/
theorem test_add_w32 :
    (thread0 (exec (.add x0 3 1 true (.reg 2)) (running (scalars 0x7FFFFFFF 1)))).readS 3 = 0xFFFFFFFF80000000 := by
  decide +kernel

/-- 03 R104: a zero divisor gives all ones, and the remainder is the dividend. -/
theorem test_div_by_zero :
    (thread0 (exec (.div x0 3 1 false (.reg 2)) (running (scalars 7 0)))).readS 3 = BitVec.allOnes 64 ∧
      (thread0 (exec (.rem x0 3 1 false (.reg 2)) (running (scalars 7 0)))).readS 3 = 7 := by
  decide +kernel

/-- 03 R104: the most negative value over −1 is itself. -/
theorem test_div_overflow :
    (thread0 (exec (.div x0 3 1 false (.reg 2)) (running (scalars (BitVec.intMin 64) (BitVec.allOnes 64))))).readS 3 =
      BitVec.intMin 64 := by
  decide +kernel

/-- A guard that is false, on a thread that has no such register pending. -/
def guarded : Issue := ⟨5, 0, 1, false, []⟩

theorem witness_SelectAndBitCounts :
    ((running (scalars 7 9)).offers guarded ([.s 3, .s 1] ++ [RegRef.s 2]) ∧
        ((running (scalars 7 9)).issuer guarded).guard guarded = false) ∧
      (running (scalars 0 9)).ready x0 [.s 3, .s 1] := by
  unfold State.ready State.offers; decide +kernel

theorem test_sel_takes_second :
    (thread0 (exec (.sel guarded 3 1 false (.reg 2)) (running (scalars 7 9)))).readS 3 = 9 := by decide +kernel

theorem test_clz_zero :
    (thread0 (exec (.clz x0 3 1 true) (running (scalars 0 9)))).readS 3 = 32 := by decide +kernel

/-- Three advances and none of a field's treadle copy: both cases of rdsys 4. -/
theorem witness_RegisterFilesAndSystemValues :
    (running {}).ready x0 [.s 31] ∧ mget 0 (running {}).trdAdvances (fieldOf x0.core) < 2 ∧
      ({ running {} with trdAdvances := [(0, 2)] }).ready x0 [.s 1] ∧
      2 ≤ mget 0 ({ running {} with trdAdvances := [(0, 2)] }).trdAdvances (fieldOf x0.core) ∧
      ((31 : Fin 32) ≠ 0 ∧ (7 : Fin 8) ≠ 0) := by
  unfold State.ready State.offers; decide +kernel

theorem witness_PredicatesAndAddresses :
    (running (scalars 7 9)).ready x0 [.s 1, .s 2] ∧ (running (scalars 7 9)).ready x0 [.s 1] ∧
      (running {}).ready x0 [] := by
  unfold State.ready State.offers; decide +kernel

theorem test_cmp_signed :
    (thread0 (exec (.cmpLt x0 1 1 2) (running (scalars (BitVec.allOnes 64) 0)))).readP 1 = true ∧
      (thread0 (exec (.cmpLtu x0 1 1 2) (running (scalars (BitVec.allOnes 64) 0)))).readP 1 = false := by
  decide +kernel

theorem test_acore_keeps_offset :
    (thread0 (exec (.acore x0 1 2 1) (running { scalars 0x12345 0 with a := [(2, 0x5678)] }))).readA 1 =
      0x123455678 := by
  decide +kernel

/-! ### Memory instructions (03 R108 to R111, Tables 3.7 and 3.8) -/

/-- A thread whose a1 holds an address. -/
def at_ (a : Word) : Thread := { s := [(1, 0x80)], a := [(1, a)] }

/-- The last byte, the last word and the last tile of the own SRAM, with and without PI. -/
theorem witness_OwnSramLoadsAndStores :
    let s := running (at_ 0x5FFFF)
    let u := running (at_ 0x5FF00)
    (((s.issuer x0).readA 1 + 0).toNat = (5 : Lcn).toNat * 2 ^ 16 + 0xFFFF ∧ s.get F.INT_DUPSTAT_SHADOW 5 ≠ 1 ∧
        0xFFFF < 2 ^ 16 ∧ x0.core.toNat * 256 + 0xFFFF / 256 ∉ s.damaged ∧ s.ready x0 [.s 31] ∧
        0xFFFF % Size.b.bytes = 0 ∧ (0 : Word) = (0 : BitVec 6).signExtend 64 * BitVec.ofNat 64 Size.b.bytes) ∧
      ((u.issuer x0).readA 1).toNat = (5 : Lcn).toNat * 2 ^ 16 + 0xFF00 ∧ 0xFF00 < 2 ^ 16 ∧
        x0.core.toNat * 256 + 0xFF00 / 256 ∉ u.damaged ∧ u.ready x0 [.t 7] ∧ 0xFF00 % 256 = 0 ∧
        (256 : Word) = (1 : BitVec 8).signExtend 64 * 256 := by
  unfold State.ready State.offers; decide +kernel

theorem test_ld_sign_extends :
    let s := { running (at_ 0x50000) with sram := [(0x50001, 0x80)] }
    (thread0 (exec (.ld x0 .h 3 1 false false (.off6 0)) s)).readS 3 = 0xFFFFFFFFFFFF8000 ∧
      (thread0 (exec (.ldu x0 .h 3 1 false false (.off6 0)) s)).readS 3 = 0x8000 := by
  decide +kernel

theorem test_st_writes_low_byte_first :
    (nextOf (exec (.st x0 .h 1 1 false false (.off6 1)) (running { at_ 0x50000 with s := [(1, 0x1234)] })) mini).sram =
      [(0x50002, 0x34), (0x50003, 0x12)] := by
  decide +kernel

theorem witness_OwnSramAtomics :
    let s := running (at_ 0x5FFF8)
    ((s.issuer x0).readA 1 + 0).toNat = (5 : Lcn).toNat * 2 ^ 16 + 0xFFF8 ∧ 0xFFF8 < 2 ^ 16 ∧ 0xFFF8 % 8 = 0 ∧
      s.get F.INT_DUPSTAT_SHADOW 5 ≠ 1 ∧ x0.core.toNat * 256 + 0xFFF8 / 256 ∉ s.damaged ∧ s.ready x0 [.s 1] ∧
      (30 : Fin 32).val % 2 = 0 ∧ (31 : Fin 32).val = (30 : Fin 32).val + 1 ∧ s.ready x0 [.s 30, .s 31] := by
  unfold State.ready State.offers; decide +kernel

theorem test_amoadd_old_value :
    let t := nextOf (exec (.amoadd x0 true 1 1 false false (.off6 0))
      { running (at_ 0x50000) with sram := [(0x50000, 0xFF)] }) mini
    (t.thread 5 0).readS 1 = 0xFF ∧ t.readSram 5 0 4 = 0x17F := by
  decide +kernel

/-- A tile of another core, one of its words, and the state that has a tag for it. -/
theorem witness_RemoteAccesses :
    let s := running (at_ 0x60000)
    (5 : Lcn) = (if s.get F.INT_DUPSTAT_SHADOW x0.core.toNat = 1 then x0.core ^^^ 0x80000 else x0.core) ∧
      ((s.issuer x0).readA 1 + 0).toNat = (6 : Lcn).toNat * 2 ^ 16 + 0 ∧ (0 : Nat) < 2 ^ 16 ∧ (6 : Lcn) ≠ 5 ∧
      isGusset 6 = false ∧ s.isHole (fieldOf 6) = false ∧ s.numbered ∧ s.tagStall x0.core x0.thread = none ∧
      s.ready x0 [.s 2] ∧ s.ready x0 [.t 1] ∧ s.ready x0 [.s 2, .s 3] ∧ (0 : Nat) % 256 = 0 ∧
      (0 : Word) = (0 : BitVec 6).signExtend 64 * BitVec.ofNat 64 8 := by
  unfold State.ready State.offers State.numbered; decide +kernel

theorem test_remote_load_takes_tag :
    let t := nextOf (exec (.ld x0 .w 3 1 false false (.off6 1)) (running (at_ 0x60000))) mini
    (t.tagAt 5 0).st = .held ∧ t.fab.pkts.map (fun p => (p.typ, p.dst, p.opc, p.arg)) =
      [(PacketType.rd, 6, 2, 0x60004)] := by
  decide +kernel

/-- One address for each rule: misaligned, outside the map, an atomic outside wafer SRAM, a word of the register window,
and the first core of field 1's gusset panel. -/
theorem witness_AccessTraps :
    let ea (a : Word) := ((running (at_ a)).issuer x0).readA 1 + 0
    (ea 0x50001).toNat % 2 ≠ 0 ∧
      (let e := (ea 0x1000000000).toNat
       e % 8 = 0 ∧ e / 2 ^ 48 = 0 ∧ ¬e < 2 ^ 36) ∧
      (let e := (ea 0x0001000000000000).toNat
       e % 8 = 0 ∧ e / 2 ^ 48 = 1 ∧ e % 2 ^ 48 < 2 ^ 46) ∧
      (let e := (ea 0x00FF000100000000).toNat
       e % 4 = 0 ∧ e / 2 ^ 48 = 0xFF ∧ 4 ≠ 8) ∧
      (let d : Lcn := 0x1C080
       isGusset d = true ∧ (ea 0x1C0800000).toNat / 2 ^ 48 = 0 ∧ (ea 0x1C0800000).toNat / 2 ^ 16 = d.toNat ∧
         (ea 0x1C0800000).toNat % 8 = 0 ∧ d ≠ x0.core) ∧
      (running (at_ 0)).ready x0 [.s 30, .s 31] ∧ (running (at_ 0)).ready x0 [.t 0] := by
  unfold State.ready State.offers; decide +kernel

theorem test_misaligned_load_traps :
    let t := nextOf (exec (.ld x0 .w 3 1 false false (.off6 0)) (running (at_ 0x50002))) mini
    (t.thread 5 0).st = .trapped ∧ t.get F.CORE_TRAPn_CAUSE 5 0 = 2 ∧ t.get F.CORE_TRAP_ADDRn_ADDR 5 0 = 0x50002 := by
  decide +kernel

/-! ### Control flow and traps (03 R96, R97, R118, R119, R134 to R138) -/

/-- Each branch case at its limits, and a fetch past the store, of an illegal word, and of a word with bad parity. -/
theorem witness_ControlFlow :
    (running {}).ready x0 [] ∧ (running {}).ready x0 [.s 31] ∧ (running (scalars 0x1FFC 0)).ready x0 [.s 31, .s 1] ∧
      (let target := (BitVec.ofInt 64 (0x1000 + 4 * (0x3FF : BitVec 17).toInt)).toNat
       target ≤ 0x1FFC ∧ target % 4 = 0) ∧
      (let target := (BitVec.ofInt 64 (0x1000 + 4 * (0x400 : BitVec 17).toInt)).toNat
       0x1FFC < target) ∧
      (let target := ((running (scalars 0x1FFA 0)).issuer x0).readS 1
       target.toNat ≤ 0x1FFC ∧ target.toNat % 4 ≠ 0) ∧
      (let s := running { pc := 0x2000 }
       (s.thread 5 0).st = .running ∧ s.clocked 5 = true ∧ s.backed 5 = true ∧ 0x1FFC < (s.thread 5 0).pc) ∧
      (let s := running { pc := 0x1FFC }
       (s.thread 5 0).pc ≤ 0x1FFC ∧ ((5 : Lcn).toNat * 0x2000 + (s.thread 5 0).pc) / 4 ∉ s.istoreBad ∧
         readLE s.istore 0xFF ((5 : Lcn).toNat * 0x2000 + (s.thread 5 0).pc) 4 / 2 ^ 28 ∈ [11, 12, 13, 14, 15]) ∧
      (let s := { running {} with istoreBad := [0x2800] }
       s.clocked 5 = true ∧ s.backed 5 = true ∧ ((5 : Lcn).toNat * 0x2000 + (s.thread 5 0).pc) / 4 ∈ s.istoreBad) := by
  unfold State.ready State.offers; decide +kernel

theorem test_jalr_reads_before_link :
    let th := thread0 (exec (.jalr x0 1 1) (running { scalars 0x100 0 with pc := 0x10 }))
    th.pc = 0x100 ∧ th.readS 1 = 0x14 := by
  decide +kernel

theorem test_branch_past_store_traps :
    let t := nextOf (exec (.br x0 0x800) (running {})) mini
    (t.thread 5 0).st = .trapped ∧ t.get F.CORE_TRAPn_CAUSE 5 0 = 1 ∧ t.get F.CORE_TRAPn_SUB 5 0 = 0 := by
  decide +kernel

/-- A trap of a running thread beside one that waits, and conditions that meet a trapped and a stopped thread. -/
theorem witness_TrapEntry :
    let r : TrapInfo := { cause := 10, sub := 15, pc := 0x1FFC, info := 2 ^ 32 - 1, addr := 2 ^ 64 - 1 }
    (((running {}).thread 5 0).st ≠ .trapped ∧ r.cause < 2 ^ 8 ∧ r.sub < 2 ^ 4 ∧ r.pc < 2 ^ 13 ∧ r.info < 2 ^ 32 ∧
        r.addr < 2 ^ 64) ∧
      ((mini.setThread 5 0 { st := .trapped }).thread 5 0).st = .trapped ∧ (mini.thread 5 0).st = .stopped ∧
      ((running {}).thread 5 0).st ≠ .stopped := by
  decide +kernel

theorem test_stop_core_halts :
    let s := ((running {}).put F.CORE_TRAPCTL_STOP_CORE 1 5).setThread 5 1 { st := .waiting }
    let t := s.trap 5 0 { cause := 10, sub := 0, pc := 0 }
    (t.thread 5 0).st = .trapped ∧ (t.thread 5 1).st = .halted ∧ (t.thread 5 1).former = .waiting ∧
      (t.thread 5 2).st = .stopped := by
  decide +kernel

/-- A false guard on a thread with nothing pending, and a load of s1 still to be answered. -/
theorem witness_GuardsAndPendingRegisters :
    ((running {}).offers guarded [.s 1, .s 2, .s 3, .t 1, .t 2, .t 3] ∧
        ((running {}).issuer guarded).guard guarded = false) ∧
      (let s := (running {}).setCore 5 { tags := [(0, { st := .held, op := .load 1 8 true })] }
       s.canIssue x0.core x0.thread = true ∧ (s.core x0.core).isPending x0.thread (.s 1) = true) := by
  unfold State.offers; decide +kernel

/-! ### Tile instructions (04 R163 to R178) -/

/-- A thread ready for tile instructions under every rounding mode. -/
theorem witness_TileArithmetic :
    (running {}).ready x0 [.t 7, .t 0, .t 1] ∧ (∀ rm : Fin 3, (running {}).drawHold x0.core rm.val = none) ∧
      ((2 : Fin 13).val = 0x2 ∧ (2 : Fin 3).val = 2) ∧
      (∀ n ∈ [0x6, 0x7, 0x8, 0x9], (fpOf n).isSome = true) := by
  unfold State.ready State.offers; decide +kernel

theorem test_tadd_int8_wraps :
    (thread0 (exec (.tadd x0 2 0 1 2 0) (running { t := [(0, 0x7F), (1, 0x01)] }))).readT 2 = 0x80 := by decide +kernel

theorem test_tadd_fp32 :
    ((thread0 (exec (.tadd x0 2 0 1 8 0) (running { t := [(0, 0x3F800000), (1, 0x40000000)] }))).readT 2) =
      0x40400000 := by
  decide +kernel

theorem witness_RoundingIsNearest :
    (∀ n ∈ [0, 1, 3, 4, 5, 6, 7, 8, 9], (fpOf n).isSome = true) ∧
      (∃ f, fpOf 8 = some f ∧ (f.round false 1 0 false (2 ^ 25 - 1) 0).2.any = false ∧
        (f.round false 0 0 true (2 ^ 25 - 1) 0).2.any = false) := by
  decide +kernel

theorem witness_TileMoves :
    (running {}).ready x0 [.t 7, .t 0, .t 1] ∧ (running {}).drawHold x0.core 2 = none ∧ (0xA : Fin 13).val ≤ 0xA ∧
      ¬((0 : Fin 3).val = 2 ∧ ((0xA : Fin 13).val = 0x2 ∨ (0xA : Fin 13).val = 0xA)) ∧
      ¬((2 : Fin 3).val = 2 ∧ ((8 : Fin 13).val = 0x2 ∨ (8 : Fin 13).val = 0xA)) ∧
      (running {}).ready x0 [.t 7, .s 1, .s 2, .s 31] ∧
      ((4 : Fin 8).val % 4 = 0 ∧ (running {}).ready x0 ((List.range 4).map fun i => RegRef.t (Fin.ofNat 8 (4 + i)))) ∧
      ((6 : Fin 8).val % 2 = 0 ∧ (7 : Fin 8).val = (6 : Fin 8).val + 1 ∧
        (running {}).ready x0 [.t 6, .t 7, .t 0, .t 1] ∧ (fpOf 8).isSome = true ∧ (fpOf 9).isSome = true) := by
  unfold State.ready State.offers; decide +kernel

theorem test_text_sign_extends :
    (thread0 (exec (.text x0 0 1 0 2) (running { t := [(0, 0x80)] }))).readS 1 = 0xFFFFFFFFFFFFFF80 := by decide +kernel

theorem test_ttr_fp8 :
    (thread0 (exec (.ttr x0 1 0 0 0) (running { t := [(0, 0x0100)] }))).readT 1 = 0x01 <<< 128 := by decide +kernel

theorem witness_TileComparesAndExtremes :
    (running {}).ready x0 [.t 7, .t 0, .t 1] ∧ (running {}).drawHold x0.core 2 = none ∧
      (∀ n ∈ [0x2, 0x6, 0x7, 0x8, 0x9, 0xA], n ≤ 0xA) ∧ ¬((2 : Fin 3).val = 2 ∧ ((9 : Fin 13).val = 0x2 ∨ (9 : Fin 13).val = 0xA)) := by
  unfold State.ready State.offers; decide +kernel

/-- 05 R184: a comparison with a NaN is false but for the unordered condition. -/
theorem test_tcmp_nan :
    let s := running { t := [(0, 0x7FC00000), (1, 0x3F800000)] }
    (thread0 (exec (.tcmpAny x0 1 0 1 8 3) s)).readP 1 = true ∧
      (thread0 (exec (.tcmpAll x0 1 0 1 8 2) s)).readP 1 = false := by
  decide +kernel

theorem test_tmin_zeros :
    (thread0 (exec (.tmin x0 2 0 1 8 0) (running { t := [(0, 0x80000000), (1, 0)] }))).readT 2 = 0x80000000 := by
  decide +kernel

theorem witness_TileReductions :
    (running {}).ready x0 [.t 7, .t 0] ∧ (∀ rm : Fin 3, (running {}).drawHold x0.core rm.val = none) ∧
      (∀ n ∈ [0x6, 0x7, 0x8, 0x9], (fpOf n).isSome = true) := by
  unfold State.ready State.offers; decide +kernel

theorem test_tred_sum_wraps :
    (thread0 (exec (.tredSum x0 1 0 0xA 0) (running { t := [(0, 0x1FFFFFFFF)] }))).readT 1 = 0 := by decide +kernel

theorem witness_SpecialFunctions :
    (running {}).ready x0 [.t 7, .t 0] ∧ (∀ n ∈ [0x6, 0x7, 0x8], (fpOf n).isSome = true) := by
  unfold State.ready State.offers; decide +kernel

/-- 04 Table 4.6: the reciprocal of zero is an infinity of its sign. -/
theorem test_trcp_zero :
    tileElem 8 ((thread0 (exec (.trcp x0 1 0 8 0) (running { t := [(0, 0x80000000)] }))).readT 1) 0 = 0xFF800000 := by
  decide +kernel

/-- The widest ratio of a conversion, FP4 to FP32, at its last part, and one between equal counts. -/
theorem witness_Conversion :
    (running {}).ready x0 [.t 7, .t 0] ∧ (running {}).drawHold x0.core 2 = none ∧
      (let ns := fmtCount 5
       let nd := fmtCount 8
       max ns nd / min ns nd ≤ 8 ∧ 7 < max ns nd / min ns nd) ∧
      (let n := fmtCount 6
       max n n / min n n ≤ 8 ∧ 0 < max n n / min n n) ∧
      ¬((2 : Fin 3).val = 2 ∧ ((8 : Fin 13).val = 0x2 ∨ (8 : Fin 13).val = 0xA)) := by
  unfold State.ready State.offers; decide +kernel

theorem witness_TileFormatTraps :
    (running {}).ready x0 (((List.range 8).map fun i => RegRef.t (Fin.ofNat 8 i)) ++ [.t 7, .t 0, .t 1]) ∧
      (running {}).drawHold x0.core 2 = none ∧ (7 : Fin 8).val % 2 = 1 := by
  unfold State.ready State.offers; decide +kernel

/-! ### The tensor unit (04 R142 to R162) -/

/-- A dense product waiting or running. -/
def product : Product :=
  { thread := 0, pc := 0, cd := 0, a := 0x02, b := 0x03, scales := 0, fmt := 2, rm := 0, z := true, ng := false, mx := false,
    sparse := 0 }

/-- The queue with room and full, an owner and another, and an entry at the head of the queue with an idle array. -/
theorem witness_TensorQueue :
    ((running {}).ready x0 [.t 0, .t 1, .t 2] ∧ ((running {}).core x0.core).reseeding = false ∧
        ((running {}).core x0.core).queue.length < 2 ∧ (running {}).owner x0.core 0 = x0.thread ∧
        (running {}).owner x0.core 1 ≠ x0.thread) ∧
      (let s := (running {}).setCore 5 { queue := [product, product] }
       s.ready x0 [.t 0, .t 1, .t 2] ∧ 2 ≤ (s.core x0.core).queue.length ∧ (s.core 5).array = none ∧
         (s.core 5).queue = product :: [product] ∧ product.sparse = 0) ∧
      (let s := (running {}).put F.CORE_ACC_OWN_OWNER_k 0 5 1
       s.owner x0.core 0 = x0.thread ∧ s.owner x0.core 1 = x0.thread) ∧
      (running {}).ready x0 [.t 0, .t 1, .t 2] 8 := by
  unfold State.ready State.offers; decide +kernel

/-- Two dense stripes of one tile, which fit, and stripes of no tile, which do not; and a walked product at the head. -/
theorem witness_TensorQueue_sparse :
    (let h := stripeOf 0x01000100 0
     h.form = 0 ∧ h.reservedZero = true ∧ h.span = 1 ∧ h.count = 0 ∧ h.base = 1 ∧ h.xbase = 0 ∧ h.s24 = false) ∧
      (stripeOf 0 0).span = 0 ∧ (1 : BitVec 16) ≠ 0 ∧ (1 : BitVec 16).toNat % 2 = 1 ∧
      (let q := { product with sparse := 1, walk := some { pairs := [(1, 2, 0, 0)], reads := [(0, 0, 0)] } }
       let s := (running {}).setCore 5 { queue := [q] }
       (s.core 5).array = none ∧ (s.core 5).queue = [q] ∧ q.sparse ≠ 0) := by
  decide +kernel

/-- An INT8 product, a scaled one, and an FP64 one on a pair. -/
theorem witness_DenseProducts :
    (let s := (running {}).setCore 5 { array := some product }
     (s.core 5).array = some product ∧ product.sparse = 0 ∧ product.fmt = 2 ∧ product.mx = false) ∧
      (let q := { product with fmt := 9, cd := 2 }
       q.fmt ≤ 0xC ∧ q.fmt ≠ 2 ∧ q.fmt ≠ 0xA ∧ q.cd.val % 2 = 0 ∧ (fpOf 9).isSome = true) ∧
      (let q := { product with mx := true }
       q.fmt = 2 ∧ q.mx = true ∧ (fpOf 8).isSome = true) := by
  decide +kernel

theorem test_int8_product :
    let t := nextOf (exec (.tensorArrayComplete 5) ((running {}).setCore 5 { array := some product })) mini
    (t.core 5).array = none ∧ (t.acc 5 0).toNat % 2 ^ 64 = 6 := by
  decide +kernel

theorem witness_AccumulatorMoves :
    (let s := (running {}).put F.CORE_ACC_OWN_OWNER_k 0 5 1
     s.owner 5 0 = 0 ∧ s.owner 5 1 = 0 ∧ (s.core 5).accInUse 0 = false ∧ (s.core 5).accInUse 1 = false ∧
       s.ready x0 [.t 7] ∧ s.drawHold 5 2 = none ∧ s.ready x0 []) ∧
      (∀ n ∈ [0, 1, 3, 4, 5, 6, 7, 8, 9], (fpOf n).isSome = true) := by
  unfold State.ready State.offers; decide +kernel

theorem test_cread_saturates :
    let s := running {}
    let s := s.setCore 5 { s.core 5 with accs := [(0, 0xFFFF)] }
    (thread0 (exec (.cread x0 0 1 0 2 0) s)).readT 1 = 0x7F := by
  decide +kernel

/-! ### The walker and sparse products (06) -/

/-- A sparse product whose two stripes are dense, of one tile each, at tiles 1 and 2. -/
def sparseProduct : Product :=
  { product with a := 0x01000100, b := 0x02000100, sparse := 1, walk := none }

/-- A waiting sparse product, and a running one with a pass to read; its index tiles and data tiles are good. -/
theorem witness_Walker :
    (let s := (running {}).setCore 5 { queue := [sparseProduct] }
     (s.core 5).queue = [sparseProduct] ∧ sparseProduct.sparse ≠ 0 ∧ sparseProduct.walk = none ∧
       (stripeOf { product with a := 0x01010101 }.a 0).form ≠ 0 ∧ s.tileGood 5 1 = true) ∧
      (let w : Walk := { pairs := [(1, 2, 0, 0)] }
       let q := { sparseProduct with walk := some w }
       let s := (running {}).setCore 5 { array := some q }
       (s.core 5).array = some q ∧ q.mx = false ∧ w.bad = none ∧ w.pairs[w.reads.length]? = some (1, 2, 0, 0) ∧
         s.tileGood 5 1 = true ∧ s.tileGood 5 2 = true) ∧
      (let q := { sparseProduct with a := 0x01010101 }
       let s := { (running {}).setCore 5 { queue := [q] } with damaged := [0x501] }
       (s.core 5).queue = [q] ∧ q.walk = none ∧ (stripeOf q.a 0).form ≠ 0 ∧ s.tileGood 5 1 = false) ∧
      (let w : Walk := { pairs := [(1, 2, 0, 0)] }
       let q := { sparseProduct with walk := some w, mx := true }
       let s := { (running {}).setCore 5 { queue := [q] } with damaged := [0x502] }
       (s.core 5).queue.head? = some q ∧ w.reads = [] ∧ w.pairs[w.reads.length]? = some (1, 2, 0, 0) ∧
         s.tileGood 5 1 = true ∧ s.tileGood 5 2 = false ∧ s.tileGood 5 0 = true) := by
  decide +kernel

theorem test_walker_pairs :
    let s := (running {}).setCore 5 { queue := [sparseProduct] }
    let t := nextOf (exec (.walkerLeadIn 5) s) mini
    (t.core 5).queue.map (fun q => q.walk.map Walk.pairs) = [some [(1, 2, 0, 0)]] := by
  decide +kernel

/-- A product that has read its one pair, and one with no pair at all. -/
theorem witness_SparseEqualsDense :
    (let w : Walk := { pairs := [(1, 2, 0, 0)], reads := [(0, 0, 0)] }
     let q := { sparseProduct with walk := some w }
     let s := (running {}).setCore 5 { array := some q }
     (s.core 5).array = some q ∧ q.sparse ≠ 0 ∧ w.bad = none ∧ w.reads.length = w.pairs.length ∧ q.touched = [] ∧
       (stripeOf q.a (bits q.sparse 4 1)).s24 = false ∧ (stripeOf q.b (bits q.sparse 8 5)).s24 = false ∧
       w.pairs ≠ []) ∧
      (let w : Walk := { pairs := [] }
       let q := { sparseProduct with walk := some w }
       q.walk = some w ∧ w.reads.length = w.pairs.length ∧ w.pairs = []) := by
  decide +kernel

/-! ### Tacks and messages (03 R121 to R129, 09) -/

/-- A tack that a thread may signal locally, by tsigR to its own core as well, and the two outcomes of a wait at the edge. -/
theorem witness_LocalTacks :
    (let s := running (scalars 1 5)
     s.ready x0 [.s 1, .s 2] ∧ s.get F.INT_DUPSTAT_DUP 5 ≠ 1 ∧ isGusset 5 = false ∧
       ((s.issuer x0).readS 2).truncate 20 = (5 : Lcn) ∧
       (0 : BitVec 32) ≠ ((s.issuer x0).readS 1).truncate 32 ∧ ¬0 ≤ ((0 : BitVec 32) - 1).toInt) ∧
      (let s := (running (scalars 1 5)).put F.TACK_STATEn_VALUE 1 5 31
       s.get F.TACK_STATEn_VALUE 5 31 = 1 ∧ 0 ≤ ((1 : BitVec 32) - 1).toInt) ∧
      (let s := (running (scalars 1 5)).setThread 5 1 { st := .waiting, wait := some ⟨3, 1, true⟩ }
       s.ready x0 [.s 1, .s 2] ∧ (s.thread 5 1).st = .waiting ∧ (s.thread 5 1).wait = some ⟨3, 1, true⟩) := by
  unfold State.ready State.offers; decide +kernel

theorem test_signal_wakes :
    let s := (running (scalars 1 5)).setThread 5 1 { st := .waiting, wait := some ⟨3, 1, true⟩ }
    let t := nextOf (exec (.tsigAdd x0 3 1) s) mini
    (t.thread 5 1).st = .running ∧ (t.thread 5 1).wait = none ∧ t.get F.TACK_STATEn_VALUE 5 3 = 1 := by
  decide +kernel

theorem test_twait_wraps :
    (thread0 (exec (.twaitGe x0 3 1) ((running (scalars 0x80000001 0)).put F.TACK_STATEn_VALUE 1 5 3))).st = .waiting ∧
      (thread0 (exec (.twaitGe x0 3 1) ((running (scalars 0xFFFFFFFF 0)).put F.TACK_STATEn_VALUE 0 5 3))).st = .running := by
  decide +kernel

/-- A remote tack, a message of the greatest length at the end of the SRAM, a copy of a duplicated pair at a tack point,
and its partner's digest. -/
theorem witness_RemoteSignalsAndMessages :
    (let s := running (scalars 1 6)
     s.ready x0 [.s 2, .s 1] ∧ s.numbered ∧ s.tagStall x0.core x0.thread = none ∧ s.get F.INT_DUPSTAT_DUP 5 ≠ 1 ∧
       (((s.issuer x0).readS 2).truncate 20 : Lcn) ≠ 5 ∧ isGusset 6 = false ∧ s.isHole (fieldOf 6) = false) ∧
      (let s := running { s := [(2, 0x60000), (3, 240)], a := [(1, 0x5FF10)] }
       s.ready x0 [.s 2, .s 3] ∧ (3 : Fin 32).val = (2 : Fin 32).val + 1 ∧
         ((s.issuer x0).readS 2).toNat = (6 : Lcn).toNat * 2 ^ 16 + 0 ∧ ((s.issuer x0).readS 3).toNat ≤ 240 ∧
         ((s.issuer x0).readS 3).toNat % 8 = 0 ∧ ((s.issuer x0).readA 1).toNat = (5 : Lcn).toNat * 2 ^ 16 + 0xFF10 ∧
         0xFF10 % 8 = 0 ∧ 0xFF10 + ((s.issuer x0).readS 3).toNat ≤ 2 ^ 16 ∧ s.damaged = []) ∧
      (let s := (running (scalars 1 6)).put F.INT_DUPSTAT_DUP 1 5
       s.ready x0 [.s 2, .s 1] ∧ s.numbered ∧ s.tagStall x0.core x0.thread = none ∧ s.get F.INT_DUPSTAT_DUP 5 = 1) := by
  unfold State.ready State.offers State.numbered; decide +kernel

theorem witness_RemoteSignalsAndMessages_partner :
    let g : Tag := { st := .held, op := .tackPoint 3 true 7 5 (some 9) }
    let p : Packet := { id := 0, typ := .tsig, opc := 8, rt := 5, dst := 5, src := 0x80005, pos := 5, body := 9 }
    let s : State := { (running {}).setCore 5 { tags := [(4, g)] } with fab := { pkts := [p], nextId := 1 } }
    s.fab.pkts.find? (fun q => q.id == p.id) = some p ∧ p.injected = true ∧ p.pos = p.rt ∧
      (s.core p.dst).waitingPoint p.sth = some (4, g, 3, true, 7, 5, BitVec.ofNat 64 p.body) :=
  ⟨by decide +kernel, rfl, rfl, rfl⟩

/-- A core with a bobbin at offset 0 whose ring is tile 1, with the given status word, and a0 at the descriptor. -/
def withBobbin (status : Nat) (enable : Nat) : State :=
  { running { a := [(0, 0x50000)] } with
    sram := writeLE (writeLE [] 0 0x50000 status 8) 0 0x50008 (1 + 1 * 2 ^ 8 + enable * 2 ^ 15) 8 }

/-- A bobbin that is empty, one with a message whose handler is valid or not, and one that is not enabled. -/
theorem witness_PollAndFree :
    (let s := withBobbin 0 1
     s.ready x0 [.s 31] ∧ ((s.issuer x0).readA 0).toNat = (5 : Lcn).toNat * 2 ^ 16 + 0 ∧ s.tileGood 5 0 = true ∧
       (s.bobbin 5 0).enable = true ∧ (s.bobbin 5 0).formed = true ∧ (s.bobbin 5 0).ready = 0) ∧
      (let s := withBobbin (16 + 2 ^ 32) 1
       (s.bobbin 5 0).ready ≠ 0 ∧ (s.bobbin 5 0).base * 256 + (s.bobbin 5 0).head = 256 ∧ s.tileGood 5 1 = true ∧
         s.get F.BOB_HANDLERn_VALID 5 0 ≠ 1 ∧ (s.put F.BOB_HANDLERn_VALID 1 5 0).get F.BOB_HANDLERn_VALID 5 0 = 1) ∧
      ((withBobbin 0 0).bobbin 5 0).enable = false := by
  unfold State.ready State.offers; decide +kernel

theorem test_mpoll_dispatches :
    let s := ((withBobbin (16 + 2 ^ 32) 1).put F.BOB_HANDLERn_VALID 1 5 0).put F.BOB_HANDLERn_ADDR 0x40 5 0
    let th := thread0 (exec (.mpoll x0 1 0) s)
    th.readP 1 = true ∧ th.readS 31 = 4 ∧ th.readA 15 = 0x50110 ∧ th.pc = 0x100 := by
  decide +kernel

/-! ### Packets (08) -/

/-- A request from core 6 that has arrived at core 5. -/
def request (typ : PacketType) (opc arg : Nat) : Packet :=
  { id := 0, typ, opc, arg, rt := 5, dst := 5, src := 6, pos := 5 }

/-- The module with one packet in the fabric. -/
def carrying (p : Packet) : State := { running {} with fab := { (running {}).fab with pkts := [p], nextId := 1 } }

/-- Each request type at the last place of the SRAM, on good and bad tiles; outside the partition; and at a core whose clock
is off. -/
theorem witness_RequestsAtACore :
    (∀ p ∈ [request .rd 0 0x5FFFF, request .rd 4 0x5FF00, request .wr 3 0x5FFF8, request .wr 4 0x5FF00,
        request .amo 7 0x5FFF8, request .tsig 1 31, request .probe 0 0],
      (carrying p).repliesTo p.src p.pos ∧ (carrying p).serves 5 p ∧ p.toWindow = false) ∧
      (let p := request .rd 3 0x50000
       let s := { carrying p with damaged := [0x500] }
       s.repliesTo p.src p.pos ∧ s.serves 5 p ∧ (5 : Lcn).toNat * 256 + p.arg % 65536 / 256 ∈ s.damaged) ∧
      (let p := request .wr 3 0x50000
       let s := (carrying p).put F.CXL_LDk_PART_FIELDS 0 0
       s.atDest p.id p.typ = some p ∧ s.servingCore p.pos = some 5 ∧ s.accepts 5 p = true ∧ s.inReset 5 p = false ∧
         s.inPartition p.ld (fieldOf 5) = false) ∧
      (let p := request .wr 3 0x50000
       let s := (carrying p).put F.CORE_CTL_CLK_EN 0 5
       s.servingCore p.pos = some 5 ∧ s.inPartition p.ld (fieldOf 5) = true ∧ s.clocked 5 = false) := by
  unfold State.repliesTo State.serves; decide +kernel

/-- A reply at core 5 for the tag that holds an operation. -/
def reply (typ : PacketType) (arg : Nat) : Packet :=
  { id := 0, typ, arg, rt := 5, dst := 5, src := 6, pos := 5, tag := 63, gen := 15 }

def awaiting (op : TagOp) (p : Packet) : State :=
  (carrying p).setCore 5 { tags := [(63, { st := .held, op, gen := 15, dst := 6 })] }

theorem witness_RepliesAtAThread :
    (∀ e ∈ [(TagOp.load 31 8 true, PacketType.rdr, 0), (.tileLoad 7, .rdr, 0), (.store, .ack, 0), (.amo 1 true, .ack, 0),
        (.nprobe 31, .prober, 2 ^ 17 - 1), (.store, .err, 0x20), (.store, .err, 0x21), (.store, .err, 8),
        (.store, .err, 0x40), (.store, .err, 0x46), (.store, .err, 0x50), (.store, .err, 0x54), (.store, .err, 0x1F),
        (.store, .unb, 3), (.store, .rstr, 0), (.ncast, .ncasta, 2 ^ 8 + 2 ^ 10 + 8 * 2 ^ 12), (.ncast, .ncasta, 2 ^ 9)],
      (awaiting e.1 (reply e.2.1 e.2.2)).replyFor 5 (reply e.2.1 e.2.2) ∧
        ((awaiting e.1 (reply e.2.1 e.2.2)).tagAt 5 63).op = e.1) := by
  unfold State.replyFor; decide +kernel

theorem test_rdr_sign_extends :
    let p := { reply .rdr 0 with body := 0x80 }
    let t := nextOf (exec (.rdr 0) (awaiting (.load 31 1 true) p)) mini
    (t.thread 5 0).readS 31 = 0xFFFFFFFFFFFFFF80 ∧ (t.tagAt 5 63).gen = 0 := by
  decide +kernel

/-- A hop inside a field, one across a seam that is UP, a request at a gusset position, and a relocated segment. -/
theorem witness_Routing :
    (let p : Packet := { id := 0, typ := .rd, rt := 6, dst := 6, src := 5, pos := 5 }
     let s := carrying p
     s.fab.pkts.find? (fun q => q.id == p.id) = some p ∧ s.transitTree (fieldOf p.pos) = true ∧
       s.get F.FAB_HOLEMAP_HOLES = 0 ∧ s.fab.excess = [] ∧ s.darn = none ∧ p.pos ≠ p.rt ∧ fieldOf 5 = fieldOf 6 ∧
       s.occupancy 6 false 3 p.typ.vc + (3 + p.flits) ≤ bufferDepth p.typ.vc false) ∧
      (let p : Packet := { id := 0, typ := .rd, rt := 128, dst := 128, src := 5, pos := 127 }
       let s := (carrying p).setLink 0 1 0 0 { st := .up }
       s.transitTree (fieldOf p.pos) = true ∧ fieldOf 127 ≠ fieldOf 128 ∧
         (s.link (fieldOf p.pos) 1 0 (rowOf p.pos % 128)).st = .up ∧
         s.occupancy 128 false 3 p.typ.vc + (3 + p.flits) ≤ bufferDepth p.typ.vc true) ∧
      (let p : Packet := { request .rd 0 0 with rt := 0x1C080, dst := 0x1C080, pos := 0x1C080 }
       let s := ((carrying p).setDomain 65 true).put F.CLK_FLDf_CTL_TRN_EN 1 1
       p.pos = p.rt ∧ p.toBlock = false ∧ s.absentAt p.pos = some 0 ∧ s.repliesTo p.src p.pos ∧
         s.transitTree (fieldOf p.pos) = true) ∧
      (let s := { running {} with relocations := [⟨0, 0, 1, 0, 3⟩] }
       (∃ r, r ∈ s.relocations ∧ r.lrow * 8 + r.fx = (0 : Fin 8192).val) ∧
         (0 : Nat) ∉ mget ([] : List Nat) s.fab.caches (5 : Lcn).toNat) := by
  unfold State.repliesTo; decide +kernel

/-- A leaf of tree 7 whose parent is core 6, a row broadcast of the greatest span, a probe, and each operand trap. -/
theorem witness_FabricInstructions :
    (let s := running { s := [(1, 7), (2, 0)], a := [(1, 0x5FF00)] }
     let s := (((s.put F.FAB_TREEn_A_TREE 7 5 15).put F.FAB_TREEn_A_KIND 1 5 15).put F.FAB_TREEn_A_PARENT 6 5 15)
     s.ready x0 [.s 1, .s 2] ∧ s.numbered ∧ s.tagStall 5 0 = none ∧
       ((s.issuer x0).readA 1).toNat = (5 : Lcn).toNat * 2 ^ 16 + 255 * 256 ∧ (5 : Lcn).toNat * 256 + 255 ∉ s.damaged ∧
       s.treeEntry 5 7 true = some 15 ∧ s.isHole (fieldOf 6) = false) ∧
      (let s := running { s := [(1, 0 + 128 * 2 ^ 20), (2, 0xFF00)], a := [(1, 0x50000)] }
       let word := ((s.issuer x0).readS 1).toNat % 2 ^ 29
       word / 2 ^ 20 % 256 = 128 ∧ colOf 0 % 128 + 128 ≤ 128 ∧ ((s.issuer x0).readS 2).toNat % 256 = 0 ∧
         s.relocations = [] ∧ s.isHole (fieldOf 0) = false) ∧
      (let s := { running { s := [(1, 0 + 2 * 2 ^ 20 + 2 ^ 28), (2, 0)], a := [(1, 0x50000)] } with
         relocations := [⟨0, 0, 1, 0, 3⟩] }
       s.spanAsWrites (spanOf (((s.issuer x0).readS 1).toNat % 2 ^ 29)) = true) ∧
      (isGusset 0x1C080 = true ∧ isGusset 6 = false) ∧
      (let s := running { s := [(1, 0), (2, 1)], a := [(1, 0x50080)] }
       ((s.issuer x0).readA 1).toNat % 256 ≠ 0 ∧ ¬1 ≤ ((s.issuer x0).readS 1).toNat % 2 ^ 29 / 2 ^ 20 % 256 ∧
         ((s.issuer x0).readS 2).toNat % 256 ≠ 0 ∧ s.treeEntry 5 0 true = none) := by
  unfold State.ready State.offers State.numbered; decide +kernel

/-- An NSUM for a tree that is not there, with a wrong and with the right step; full merge buffers of a merge and of a root;
and the answer to a contribution. -/
theorem witness_SumTrees :
    (let p := request .nsum 0 (7 + 3 * 2 ^ 32)
     let s := carrying p
     let u := ((s.put F.FAB_TREEn_A_TREE 7 5 15).put F.FAB_TREEn_A_KIND 2 5 15).put F.FAB_TREEn_A_NCHILD 1 5 15
     s.atDest p.id .nsum = some p ∧ s.servingCore p.pos = some 5 ∧ s.inReset 5 p = false ∧ s.repliesTo p.src p.pos ∧
       p.toBlock = false ∧ p.good = true ∧ (s.core 5).landing.length < 4 ∧
       s.treeEntry 5 (p.arg % 2 ^ 16) false = none ∧ u.treeEntry 5 (p.arg % 2 ^ 16) false = some 15 ∧
       u.get F.FAB_TREEn_B_STEP 5 15 ≠ p.arg / 2 ^ 32 % 2 ^ 32 ∧
       (u.put F.FAB_TREEn_B_STEP 3 5 15).get F.FAB_TREEn_B_STEP 5 15 = p.arg / 2 ^ 32 % 2 ^ 32) ∧
      (∀ kind ∈ [2, 3],
        let s := ((running {}).put F.FAB_TREEn_A_NCHILD 1 5 15).put F.FAB_TREEn_A_KIND kind 5 15
        let s := s.setCore 5 { s.core 5 with sums := [(30, request .nsum 0 0), (31, request .nsum 0 (2 ^ 16))] }
        s.backed 5 = true ∧ s.get F.FAB_TREEn_A_NCHILD 5 15 = 1 ∧ s.get F.FAB_TREEn_A_KIND 5 15 = kind ∧
          findKey (s.core 5).sums 30 = some (request .nsum 0 0) ∧
          findKey (s.core 5).sums 31 = some (request .nsum 0 (2 ^ 16)) ∧ s.isHole (fieldOf 0) = false ∧ s.numbered ∧
          s.clocked 5 = true) ∧
      (let s := ((running {}).put F.FAB_TREEn_A_KIND 3 5 15).put F.CORE_CTL_CLK_EN 0 5
       let s := s.setCore 5 { s.core 5 with sums := [(31, request .nsum 0 (2 ^ 16))] }
       s.backed 5 = true ∧ s.clocked 5 = false ∧ s.get F.FAB_TREEn_A_NCHILD 5 15 ≠ 1 ∧ findKey (s.core 5).sums 30 = none ∧
         findKey (s.core 5).sums 31 = some (request .nsum 0 (2 ^ 16)) ∧ findKey ((running {}).core 5).sums 30 = none) ∧
      (let p := { reply .nsuma 0 with sender := .merge 15 }
       let s := (carrying p).setCore 5 { owed := [(15, [request .nsum 0 0])] }
       s.atDest p.id .nsuma = some p ∧ s.servingCore p.pos = some 5 ∧ (s.core 5).absorbing = false ∧ p.good = true ∧
         mget [] (s.core 5).owed 15 = [request .nsum 0 0]) ∧
      (awaiting (.nsum 7) (reply .nsuma 0)).replyFor 5 (reply .nsuma 0) := by
  unfold State.repliesTo State.replyFor State.numbered; decide +kernel

/-- A cut order in service on cores of the module. -/
def order : CutOrder :=
  { st := 4, gen := 1, ld := 0, cores := [5], segments := [0],
    desc := { format := 1, flags := 0, tag := 0, imageLen := 0, entry := 0, threads := 1, tpc := 1, localTiles := 0,
              seed := 0, arg := 0, objects := [], pins := [], fields := 1, status := 0, reservedZero := true,
              readOk := true, image := [] } }

/-- Links UP, in RETRY with and without room for another attempt, and in RETRAIN; the detector armed and sticky. -/
theorem witness_SeamLinksAndDetector :
    (let s := mini.setLink 0 1 1 127 { st := .up }
     (0 : Fin 64).val % 8 < 7 ∧ (s.link 0 1 1 127).st = .up ∧ s.get F.FAB_CTL_RETRY_EN 0 = 1 ∧
       0 < s.get F.FAB_RETRYCFG_EPISODE_MAX 0 ∧ (s.put F.FAB_CTL_RETRY_EN 0 0).get F.FAB_CTL_RETRY_EN 0 ≠ 1) ∧
      (let s := mini.setLink 63 3 0 0 { st := .retry, attempts := 14, onward := { resend := some 63 } }
       0 < (63 : Fin 64).val % 8 ∧ (s.link 63 3 0 0).st = .retry ∧ (s.link 63 3 0 0).onward.resend = some 63 ∧
         (s.link 63 3 0 0).attempts + 1 < s.get F.FAB_RETRYCFG_REPLAY_MAX 63) ∧
      (let s := mini.setLink 8 0 0 0 { st := .retry, attempts := 15 }
       8 ≤ (8 : Fin 64).val ∧ s.get F.FAB_RETRYCFG_REPLAY_MAX 8 ≤ (s.link 8 0 0 0).attempts + 1 ∧
         (s.link 8 0 0 0).retrains < s.get F.FAB_RETRYCFG_RETRAIN_MAX 8) ∧
      (let s := mini.setLink 0 2 0 0 { st := .retry, attempts := 15, retrains := 15 }
       (0 : Fin 64).val < 56 ∧ s.get F.FAB_RETRYCFG_REPLAY_MAX 0 ≤ (s.link 0 2 0 0).attempts + 1 ∧
         s.get F.FAB_RETRYCFG_RETRAIN_MAX 0 ≤ (s.link 0 2 0 0).retrains) ∧
      (let s := mini.setLink 0 2 0 0 { st := .retrain, retrains := 1 }
       (s.link 0 2 0 0).st = .retrain ∧ (s.link 0 2 0 0).retrains ≤ s.get F.FAB_RETRYCFG_RETRAIN_MAX 0) ∧
      (let s := { mini with slots := [(63, order)] }
       let u := s.put F.FAB_DL_STAT_EVENT 1 0
       s.get F.FAB_DL_WINDOW_EN 511 = 1 ∧ s.retryIndication = false ∧ s.darn = none ∧
         findKey s.slots (63 : Fin 64).val = some order ∧ 2 ≤ s.get F.CXL_LINKSTAT_STATE ∧ order.gen < 2 ^ 10 ∧
         order.ld < 16 ∧ s.get F.FAB_DL_STAT_EVENT 511 = 0 ∧ u.get F.FAB_DL_STAT_EVENT 0 = 1 ∧
         u.get F.CLK_FLDf_CTL_BLK_EN 0 = 1) := by
  decide +kernel

/-- A core's in end that is empty while a thread waits on its fill tack is blocked; one that holds an entry no thread asks for
is full of the consumer's making; no end is no queue. -/
theorem witness_SeamLinksAndDetector_queues :
    let s := ((mini.put F.CORE_PAT_STAT_ACT 1 5).put F.CORE_QENDe_A_VALID 1 5 0).put F.CORE_QENDe_A_DEPTH 4 5 0
    let s := (s.put F.CORE_QENDe_A_FTACK 9 5 0).put F.CORE_QENDe_A_QNUM 7 5 0
    let u := s.setThread 5 0 { st := .waiting, wait := some ⟨9, 1, false⟩ }
    (u.groupQueues 0 false order).map (fun q => (q.core, q.qid, q.state)) = [((5 : Lcn), 7, some 2)] ∧
      (s.groupQueues 0 false order).map (fun q => q.state) = [none] ∧ mini.groupQueues 0 false order = [] := by
  decide +kernel

/-- A held tag of a stopped and of a running thread, an orphan, a quarantined one; each thread state; a halted waiter whose
condition holds or not; and a core that is backed or not. -/
theorem witness_TagTimersHaltsAndCoreReset :
    (mini.retryIndication = false ∧ ((mini.setTag 5 63 { st := .held }).tagAt 5 63).st = .held ∧
        (mini.thread 5 0).st = .stopped ∧ ((running {}).thread 5 0).st ≠ .stopped ∧
        ((mini.setTag 5 63 { st := .orphan }).tagAt 5 63).st = .orphan ∧
        ((mini.setTag 5 63 { st := .quarantine }).tagAt 5 63).st = .quarantine) ∧
      (mini.backed 5 = true ∧ (∀ st ∈ [ThreadState.running, .stalled, .waiting, .stopped, .halted, .trapped],
        ((mini.setThread 5 3 { st }).thread 5 3).st = st)) ∧
      (let s := mini.setThread 5 3 { st := .halted, former := .waiting, wait := some ⟨31, 0, false⟩ }
       (s.thread 5 3).wait = some ⟨31, 0, false⟩ ∧
         0 ≤ (BitVec.ofNat 32 (s.get F.TACK_STATEn_VALUE 5 31) - (0 : BitVec 32)).toInt ∧
         ¬0 ≤ (BitVec.ofNat 32 (s.get F.TACK_STATEn_VALUE 5 31) - (1 : BitVec 32)).toInt) ∧
      (let s := mini.setThread 5 3 { st := .halted, former := .stalled, stall := 5 }
       let u := mini.setThread 5 3 { st := .halted, former := .running }
       (s.thread 5 3).wait = none ∧ (s.setThread 5 3 { st := .stalled, former := .stalled, stall := 5 }).stallClears 5 3 = true ∧
         (u.thread 5 3).former ≠ .stalled) ∧
      (let r : PartialReset := { scope := 3, target := 0, phase := 1 }
       let s := { mini with partialReset := some r }
       s.partialReset = some r ∧ s.inScope r 5 = true ∧ s.inScope { r with phase := 0 } 5 = true) ∧
      mini.backed 0x1C080 = false := by
  decide +kernel

/-- 02 R50: a resumed waiter whose condition holds runs on. -/
theorem test_resume_met :
    let s := mini.setThread 5 3 { st := .halted, former := .waiting, wait := some ⟨31, 0, true⟩ }
    ((nextOf (exec (.threadResume 5 3) s) mini).thread 5 3).st = .running := by
  decide +kernel

/-- A quiet core, one with a running thread, and one whose clock is off. -/
theorem witness_SeedsAndOwners :
    mini.backed 5 = true ∧ mini.clocked 5 = true ∧
      ((∀ n, (mini.thread 5 n).st = .stopped ∨ (mini.thread 5 n).st = .halted ∨ (mini.thread 5 n).st = .trapped) ∧
        (mini.core 5).queue = [] ∧ (mini.core 5).array = none ∧ (mini.core 5).accNext = []) ∧
      ((running {}).thread 5 0).st = .running ∧ mini.backed 7 = true ∧ mini.clocked 7 = false := by
  decide +kernel

/-- A record that fits, that must wait behind another and that is too long; a bobbin that is off or malformed; a held record;
and a broadcast in the middle and at the end of its span. -/
theorem witness_MessagesAndBroadcasts :
    (let p := { request .msg 0 0x50000 with flits := 2 }
     let s := { withBobbin 0 1 with fab := { (withBobbin 0 1).fab with pkts := [p], nextId := 1 } }
     s.serves 5 p ∧ s.repliesTo p.src p.pos ∧ p.toWindow = false ∧ p.arg % 2 ^ 16 = 0 ∧ p.flits ≤ 32 ∧
       s.tileGood 5 0 = true ∧ (s.bobbin 5 0).enable = true ∧ (s.bobbin 5 0).formed = true ∧ s.heldFor 5 0 = [] ∧
       16 ≤ 256 * (s.bobbin 5 0).tiles - 8 ∧ (s.bobbin 5 0).head ≤ (s.bobbin 5 0).tail ∧
       (s.bobbin 5 0).tail + 16 + 7 < 256 * (s.bobbin 5 0).tiles ∧ (s.bobbin 5 0).ready + 1 < 2 ^ 11 ∧ s.damaged = []) ∧
      (let s := withBobbin (8 + 16 * 2 ^ 16) 1
       (s.bobbin 5 0).tail < (s.bobbin 5 0).head ∧ (s.bobbin 5 0).head < (s.bobbin 5 0).tail + 16 + 8) ∧
      (256 * ((withBobbin 0 1).bobbin 5 0).tiles - 8 < 256 ∧ ((withBobbin 0 0).bobbin 5 0).enable = false ∧
        (({ withBobbin 0 1 with sram := [(0x50009, 0x80)] }).bobbin 5 0).formed = false) ∧
      (let q := { request .msg 0 0x50000 with flits := 2 }
       let s := (withBobbin (2 ^ 43) 1).setCore 5 { landing := [q] }
       s.heldFor 5 0 = [q] ∧ s.repliesTo q.src q.pos ∧ (s.bobbin 5 0).head ≤ (s.bobbin 5 0).tail) ∧
      (∀ count ∈ [1, 2],
        let p := { request .ncast 0 (5 * 2 ^ 16 + count * 2 ^ 36) with flits := 32 }
        let s := carrying p
        s.atDest p.id .ncast = some p ∧ s.servingCore p.pos = some 5 ∧ s.accepts 5 p = true ∧ s.inReset 5 p = false ∧
          s.inPartition p.ld (fieldOf 5) = true ∧ s.clocked 5 = true ∧ s.castAbsent p = none ∧
          s.repliesTo p.src (s.routeTarget 5)) := by
  unfold State.repliesTo State.serves; decide +kernel

theorem test_message_placed :
    let p := { request .msg 0 0x50000 with flits := 2, body := 0x1234 }
    let s := { withBobbin 0 1 with fab := { (withBobbin 0 1).fab with pkts := [p], nextId := 1 } }
    let t := nextOf (exec (.msg 0) s) mini
    (t.bobbin 5 0).tail = 16 ∧ (t.bobbin 5 0).ready = 1 ∧ t.readSram 5 256 2 = 0x1234 ∧
      t.fab.pkts.map (fun q => (q.typ, q.dst)) = [(PacketType.ack, 6)] := by
  decide +kernel

/-- Commands with and without GO, faultless and faulty; busy engines; and a selection that runs. -/
theorem witness_CompressorAndSelection :
    (mini.backed 5 = true ∧ mini.clocked 5 = true ∧ mini.get F.SPX_CMP_STAT_BUSY 5 ≠ 1 ∧
        mini.get F.SPX_SEL_STAT_BUSY 5 ≠ 1) ∧
      (let v : Word := BitVec.ofNat 64 (0 + 128 * 2 ^ 8 + 127 * 2 ^ 16 + 7 * 2 ^ 24 + 2 ^ 28 + 16 * 127 * 2 ^ 40 + 2 ^ 63)
       v.msb = true ∧ v.toNat / 2 ^ 16 % 2 ^ 8 = 127 ∧ v.toNat / 2 ^ 8 % 2 ^ 8 + 127 ≤ 256 ∧
         v.toNat / 2 ^ 40 % 2 ^ 12 / 16 = 127 ∧ v.toNat.testBit 28 = true) ∧
      ((0x8000000000000000 : Word).toNat / 2 ^ 16 % 2 ^ 8 = 0) ∧
      (let s := (mini.put F.SPX_CMP_STAT_BUSY 1 5).put F.SPX_CMP_CMD_SPAN 1 5
       let s := (s.put F.SPX_CMP_CMD_DST 1 5).put F.SPX_CMP_CMD_HDR16 32 5
       s.get F.SPX_CMP_STAT_BUSY 5 = 1 ∧ 16 * s.get F.SPX_CMP_CMD_HDR16 5 < 2 ^ 16 ∧
         ¬16 * s.get F.SPX_CMP_CMD_HDR16 5 / 256 < s.get F.SPX_CMP_CMD_DST 5 + s.get F.SPX_CMP_CMD_SPAN 5 ∧
         s.get F.SPX_CMP_CMD_PRUNE24 5 ≠ 1 ∧ s.damaged = []) ∧
      (let latch : SelLatch := { thr := 0, addr := 0, stride := 0, tpg := 1, dst := 0 }
       let s := mini.setCore 5 { sel := some latch }
       let s := ((s.put F.SPX_SEL_CMD_GROUPS 128 5).put F.SPX_SEL_CMD_IDX 1 5).put F.SPX_SEL_CMD_HDR16 32 5
       (s.core 5).sel = some latch ∧ s.darnHeld 5 = false ∧ s.get F.SPX_SEL_CMD_GATHER 5 ≠ 1 ∧
         s.get F.SPX_SEL_CMD_SCORE 5 < 256 ∧ s.get F.SPX_SEL_CMD_GROUPS 5 ≤ 128 ∧
         16 * s.get F.SPX_SEL_CMD_HDR16 5 / 256 ≠ s.get F.SPX_SEL_CMD_IDX 5 ∧ s.damaged = [] ∧
         (s.put F.SPX_SEL_CMD_GATHER 1 5).get F.SPX_SEL_CMD_GATHER 5 = 1 ∧
         ({ s with damaged := [0x500] } : State).tileGood 5 0 = false ∧
         ({ s with damaged := [0x502] } : State).tileGood 5 (512 / 256) = false) := by
  decide +kernel

/-- 06 R232: a write while BUSY is 1 is discarded and sets REJ. -/
theorem test_compressor_busy :
    let s := mini.put F.SPX_CMP_STAT_BUSY 1 5
    let t := nextOf (exec (.compressorStart 5 0x8000000000FF0102) s) mini
    t.get F.SPX_CMP_STAT_REJ 5 = 1 ∧ t.get F.SPX_CMP_CMD_SRC 5 = 0 := by
  decide +kernel

theorem test_compressor_all_zero :
    let s := ((mini.put F.SPX_CMP_STAT_BUSY 1 5).put F.SPX_CMP_CMD_SPAN 2 5).put F.SPX_CMP_CMD_DST 8 5
    let t := nextOf (exec (.compressorDone 5) (s.put F.SPX_CMP_CMD_HDR16 64 5)) mini
    t.get F.SPX_CMP_STAT_DENSE 5 = 0 ∧ t.get F.SPX_CMP_STAT_PRESENT 5 = 0 ∧ t.readSram 5 1024 16 = 0x08000201 := by
  decide +kernel

/-! ### The host attachment (14) -/

/-- Control registers of LD 15 with no cut order and with one in service; a partition that meets another's; a ring with room
and a doorbell outside it; events with their queue off, full and open; and a trap window. -/
theorem witness_HostRegistersAndQueues :
    (mini.get F.CLK_BLKEN_CXL = 1 ∧ mini.slots = [] ∧ (1 : Fin 16) ≠ 0 ∧
        (∀ j : Fin 16, j ≠ 15 → mini.get F.CXL_LDk_PART_FIELDS j &&& (2 : Word).toNat = 0) ∧
        ¬(mini.get F.CXL_LDk_PART_FIELDS 0 &&& (1 : Word).toNat = 0) ∧
        ({ mini with slots := [(0, order)] } : State).slots.all (fun e => e.2.inService && e.2.ld == 0) = true) ∧
      (let v : Word := 0x1000000000000 + 0xFFFF
       let size := v.toNat / 2 ^ 32 % 2 ^ 17
       size = 0x10000 ∧ ¬v.toNat % 2 ^ 16 + size ≤ 2 ^ 16 ∧ (0xFFFF : Word).toNat % 2 ^ 16 + 0 ≤ 2 ^ 16) ∧
      ((0x8000000 : Word).toNat / 2 ^ 16 % 2 ^ 12 = 2048 ∧ 6 ≤ (0x30 : Word).toNat % 2 ^ 5 ∧
        (0x30 : Word).toNat % 2 ^ 5 ≤ 16 ∧ (0x30 : Word).toNat / 2 ^ 5 % 2 = 1) ∧
      (let s := (mini.put F.CXL_LDk_RING_LOG2SIZE 6 0).put F.CXL_LDk_RING_EN 1 0
       let size := 2 ^ s.get F.CXL_LDk_RING_LOG2SIZE 0
       size = 64 ∧ s.get F.CXL_LDk_RINGPTR_HEAD 0 < size ∧ s.get F.CXL_LDk_RINGPTR_TAIL 0 < size ∧
         (63 : BitVec 16).toNat < size ∧ size ≤ (64 : BitVec 16).toNat) ∧
      (let s := (mini.put F.CXL_LDk_EVQ_LOG2SIZE 6 0).put F.CXL_LDk_EVQPTR_TAIL 63 0
       let e : Event := { kind := 255, ld := 0, tr := 0 }
       let u := { s with events := [e] }
       u.get F.CXL_LINKSTAT_STATE = 2 ∧ u.events = [e] ∧ e.ld < 16 ∧ u.get F.CXL_LDk_EVQ_EN 0 ≠ 1 ∧
         (u.put F.CXL_LDk_EVQ_EN 1 0).get F.CXL_LDk_EVQ_EN 0 = 1 ∧
         (u.get F.CXL_LDk_EVQPTR_TAIL 0 + 1) % 2 ^ u.get F.CXL_LDk_EVQ_LOG2SIZE 0 = u.get F.CXL_LDk_EVQPTR_HEAD 0 ∧
         ((u.put F.CXL_LDk_EVQPTR_HEAD 1 0).get F.CXL_LDk_EVQPTR_HEAD 0 ≠ 0) ∧ u.get F.CXL_LDk_MSIX_COUNT 0 ≠ 0 ∧
         (u.put F.CXL_LDk_MSIX_COUNT 0 0).get F.CXL_LDk_MSIX_COUNT 0 = 0) ∧
      (let s := { mini with slots := [(63, order)], trapWindows := [(63, (1, 0, 0))] }
       findKey s.trapWindows (63 : Fin 64).val = some (1, 0, 0) ∧ findKey s.slots (63 : Fin 64).val = some order ∧
         2 ≤ s.get F.CXL_LINKSTAT_STATE) := by
  decide +kernel

/-- 14 Table 14.6: an event's record has its kind and LD in the lowest bytes. -/
theorem test_event_record :
    let s := { ((mini.put F.CXL_LDk_EVQ_LOG2SIZE 6 0).put F.CXL_LDk_EVQ_EN 1 0) with
      events := [{ kind := 5, ld := 0, tr := 7 }] }
    let t := nextOf (exec (.eventPost false) s) mini
    t.hostOut.map (fun w => (w.len, w.data)) = [(32, 5 + 2 ^ 32 + 7 * 2 ^ 64)] ∧ t.get F.CXL_LDk_EVQPTR_TAIL 0 = 1 := by
  decide +kernel

/-- A line at the end of the LD's window behind a port that is up, one outside, a read and a write that wait for the host,
and an LD that is enabled or not. -/
theorem witness_HostMemory :
    (let s := (mini.put F.CXL_LDk_FMWIN_FMSIZE 1 0).put F.SEL_STAT_STATE 2 0
     let s := s.put F.SEL_CAP_CAP_GIB 2048 0
     let x : BitVec 46 := 0x3FFFFFC0
     let o := s.get F.CXL_LDk_FMWIN_FMBASE 0 * 2 ^ 30 + x.toNat
     s.get F.CXL_LINKSTAT_STATE = 2 ∧ x.toNat < s.get F.CXL_LDk_FMWIN_FMSIZE 0 * 2 ^ 30 ∧ (s.farPort o).1 < 32 ∧
       (s.farPort 0).1 = 0 ∧ s.portClosed 0 = false ∧ (s.farPort 0).2 < s.get F.SEL_CAP_CAP_GIB 0 * 2 ^ 30 ∧
       ¬(s.get F.SEL_STAT_STATE 0 = 3 ∨ s.get F.SEL_STAT_STATE 0 = 4) ∧
       ¬(0x40000000 : BitVec 46).toNat < s.get F.CXL_LDk_FMWIN_FMSIZE 0 * 2 ^ 30) ∧
      (∀ typ ∈ [PacketType.rd, .wr],
        let q := request typ 4 0
        let s := { running {} with hostReqs := [q] }
        s.hostReqs.find? (fun r => r.id == q.id) = some q ∧ s.get F.CXL_LINKSTAT_STATE = 2 ∧ s.repliesTo q.src q.pos ∧
          q.ld < 16 ∧ q.opc ≤ 4) ∧
      ((mini.put F.CXL_LDk_CFG_ENABLED 1 15).get F.CXL_LDk_CFG_ENABLED 15 = 1 ∧
        (mini.put F.CXL_LDk_CFG_ENABLED 0 15).get F.CXL_LDk_CFG_ENABLED 15 ≠ 1) := by
  unfold State.repliesTo; decide +kernel

/-- Every state of the link, a beacon word that is right, and fibres gone bad up to half the width. -/
theorem witness_HostLink :
    (mini.get F.CLK_BLKEN_CXL = 1 ∧ mini.get F.CXL_LINKSTAT_STATE = 2 ∧
        (mini.put F.CXL_LINKSTAT_STATE 1).get F.CXL_LINKSTAT_STATE < 2 ∧
        (mini.put F.CXL_LINKSTAT_STATE 3).get F.CXL_LINKSTAT_STATE = 3 ∧ mini.get F.CXL_LINKSTAT_MAX_US < 2 ^ 32) ∧
      (let w := 0xA5 + crc8 [0xA5, 0, 0, 0] * 2 ^ 32
       let v : BitVec 40 := BitVec.ofNat 40 w
       beaconOf v.toNat = some ⟨0, 0, 0, 0⟩ ∧ beaconOf 0 = none ∧
         ({ mini with fibres := { last := some v } } : State).fibres.last = some v ∧ mini.fibres.last ≠ some v) ∧
      (let s := mini.put F.CXL_LINKSTAT_STATE 3
       let lanes := (s.fibres.lanes.filter fun k => !(1 : BitVec 16).getLsbD k)
       s.fibres.lanes.Pairwise (· < ·) ∧ lanes.length = 15 ∧ s.fibres.bad = [] ∧
         (s.fibres.lanes.filter fun k => !(0x1FF : BitVec 16).getLsbD k).length = 7 ∧ s.receiveFibre 15 = 15) ∧
      ((17 : Fin 18).val ∉ mini.fibres.bad ∧ (mini.fibres.bad ++ [17]).length ≤ 2 ∧
        3 ≤ ([0, 1] ++ [17]).length ∧ (([0, 1, 2, 3, 4, 5, 6] : List Nat) ++ [17]).length ≤ 8) := by
  decide +kernel

/-! ### Marker (07) -/

/-- The module with LD 0's ring enabled and one entry in it. -/
def ringed : State :=
  let s := ((mini.put F.CXL_LDk_RING_LOG2SIZE 6 0).put F.CXL_LDk_RING_EN 1 0).put F.CXL_LDk_RINGPTR_TAIL 1 0
  s.put F.MRK_CTL_ENABLE 1

/-- A descriptor that passes every check: one thread on one core of field 0. -/
def descriptor : Descriptor := order.desc

/-- What Marker reads for one thread on one core of field 0 with an image of one word. -/
def reads : CutReads :=
  { descriptor := BitVec.ofNat 1024 (1 + 4 * 2 ^ 192 + 2 ^ 256 + 2 ^ 288 + 2 ^ 640), image := some [0, 0, 0, 0],
    table := none, pins := none, contents := [] }

/-- A ring entry of a kind, flags and ARG. -/
def cutEntry (kind flags arg : Nat) : RingEntry :=
  { bytes := BitVec.ofNat 512 (kind + flags * 2 ^ 8 + arg * 2 ^ 64), cut := some reads }

/-- Field 0 is ready, and another cut order holds all of its row segments but segment 0. -/
def roomy : State :=
  let s := [F.BRG_FLD_SEAMOK_MAP, F.BRG_FLD_TOPO_MAP, F.BRG_FLD_READY_MAP].foldl (fun s m => s.put m 1) ringed
  { s with slots := [(1, { order with cores := [], segments := (List.range 127).map fun r => 8 * (r + 1) })] }

theorem roomy_works : 1 ≤ roomy.workingCores 0 reads.order :=
  le_trans (show 1 ≤ ((segmentCores 0).filter roomy.backed).length by decide +kernel)
    (List.le_sum_of_mem (List.mem_map.2 ⟨0, List.mem_filter.2 ⟨List.mem_range.2 (by decide), by decide +kernel⟩, rfl⟩))

/-- A CUT that passes every check of Table 7.8. -/
theorem witness_RingEntries_passes : roomy.cutReason 0 (cutEntry 1 0 128) = none := by
  unfold State.cutReason
  rw [if_neg (by decide +kernel), show (cutEntry 1 0 128).order = some reads.order from rfl]
  have w : ¬roomy.workingCores 0 reads.order < (if reads.order.dup = true then 2 * reads.order.cores else reads.order.cores) := by
    have := roomy_works
    rw [show (if reads.order.dup = true then 2 * reads.order.cores else reads.order.cores) = 1 by decide +kernel]
    omega
  dsimp only
  rw [if_neg (by decide +kernel), if_neg (by decide +kernel), if_neg (by decide +kernel), if_neg (by decide +kernel),
    if_neg (by decide +kernel), if_neg w, if_neg (by decide +kernel), if_neg (by decide +kernel), if_neg (by decide +kernel)]

/-- Room for it, and none where every slot is in service; the same placement is one for its slot. -/
theorem witness_RingEntries_room :
    roomy.hasRoom 0 reads.order = true ∧
      ({ roomy with slots := (List.range 64).map fun n => (n, order) } : State).hasRoom 0 reads.order = false ∧
      (cutEntry 1 1 128).flags % 2 = 1 := by
  decide +kernel

theorem witness_CutOrders_placement :
    let s := { roomy with slots := (0, { order with st := 1, cores := [], segments := [], desc := reads.order }) :: roomy.slots }
    (s.placeOrder (some (0 : Fin 64).val) 0 reads.order).map (fun p => (p.cores, p.segments)) = some ([0], [0]) ∧
      (findKey s.slots 0).map (fun o => o.st) = some 1 ∧ s.get F.MRK_CTL_PAUSE ≠ 1 ∧ s.get F.MRK_PLACE_US_MAX < 2 ^ 32 := by
  decide +kernel

/-- Entries that are undefined, name no descriptor, name one that is refused, or one that is accepted; an ABORT and a RELEASE
of an order; and a waiting order. -/
theorem witness_RingEntries :
    (ringed.get F.CLK_BLKEN_MRK = 1 ∧ ringed.get F.MRK_CTL_ENABLE = 1 ∧ ringed.get F.CXL_LDk_RING_EN 0 = 1 ∧
        ringed.get F.CXL_LDk_RINGPTR_HEAD 0 ≠ ringed.get F.CXL_LDk_RINGPTR_TAIL 0 ∧
        findKey ringed.waitingOrders 0 = none ∧ (ringed.markerLast + 1 + 0) % 16 = 0) ∧
      ((cutEntry 1 0 128).reservedZero = true ∧ (cutEntry 1 0 128).kind = 1 ∧ (cutEntry 1 0 128).arg % 128 = 0 ∧
        (cutEntry 1 0 128).order = some reads.order ∧ (cutEntry 4 0 128).kind = 4 ∧ (cutEntry 1 0 1).arg % 128 ≠ 0 ∧
        ({ cutEntry 1 0 128 with cut := none } : RingEntry).order = none ∧ ringed.freeSlot = some 0 ∧
        (ringed.cutReason 0 (cutEntry 1 2 128)).map (·.1) = some 2) ∧
      (∀ kind ∈ [2, 3],
        let s := { ringed with slots := [(63, { order with st := 5 })] }
        let e := cutEntry kind 0 (63 + 64)
        e.kind = kind ∧ e.flags = 0 ∧ e.reservedZero = true ∧ findKey s.slots (e.arg % 64) = some { order with st := 5 } ∧ order.gen = e.arg % 2 ^ 16 / 64 ∧
          ({ order with st := 5 } : CutOrder).inService = true ∧ order.ending = none ∧
          findKey ringed.slots (e.arg % 64) = none) ∧
      (let s := { ringed with waitingOrders := [(0, { order with st := 9 })] }
       findKey s.waitingOrders 0 = some { order with st := 9 } ∧ s.get F.CLK_BLKEN_CXL = 1) := by
  decide +kernel

/-- An order of each state that the statement names, a field to migrate from, and migrations with and without work. -/
theorem witness_CutOrders :
    (∀ st ∈ [1, 3, 4],
      let o : CutOrder := { order with st }
      let s := { mini with slots := [(63, o)] }
      findKey s.slots (63 : Fin 64).val = some o ∧ o.ld < 16 ∧ (∀ n ∈ o.cores, n < 2 ^ 20) ∧ s.rings = [] ∧
        o.ending = none ∧ s.get F.MRK_CTL_PAUSE ≠ 1 ∧ s.get F.CLK_BLKEN_MRK = 1 ∧ s.get F.MRK_PLACE_US_MAX < 2 ^ 32 ∧
        o.desc.imageLen ≤ 2 ^ 13 ∧ (∀ n ∈ o.allCores, s.backed (BitVec.ofNat 20 n) = true) ∧ s.orderQuiet o = true ∧
        s.trapped o = 0) ∧
      (let o : CutOrder := { order with st := 3, cores := [0x1C080] }
       mini.backed (BitVec.ofNat 20 0x1C080) = false ∧ 0x1C080 ∈ o.allCores) ∧
      (let s := { (mini.setThread 5 0 { st := .trapped }) with slots := [(63, order)] }
       s.orderQuiet order = true ∧ s.trapped order ≠ 0) ∧
      (∀ begun ∈ [false, true],
        let o : CutOrder := { order with ending := some (8, begun) }
        o.inService = true ∧ mini.partialReset = none ∧ o.ending = some (8, begun) ∧ o.cores ≠ [] ∧
          (∀ n ∈ o.allCores, (mini.core (BitVec.ofNat 20 n)).absorbing = false)) ∧
      (mini.get F.CLK_BLKEN_MRK = 1 ∧ mini.get F.MRK_MIG_STAT_BUSY ≠ 1 ∧ mini.get F.MRK_CTL_MIG_EN = 1 ∧
        (mini.put F.MRK_MIG_STAT_BUSY 1).get F.MRK_MIG_STAT_BUSY = 1) ∧
      (let m : Migration := { field := 0, todo := [63] }
       let s := { mini with slots := [(63, order)], migration := some m }
       s.migration = some m ∧ m.parks = false ∧ m.todo = [63] ∧ findKey s.slots 63 = some order ∧
         order.inService = true ∧ s.mayMove 63 order = true) := by
  decide +kernel

/-- A cut order that can move to field 1, and one that has nowhere to go. -/
theorem witness_CutOrders_migration :
    (let o : CutOrder := { order with desc := { descriptor with fields := 3 } }
     let s := [F.BRG_FLD_SEAMOK_MAP, F.BRG_FLD_TOPO_MAP, F.BRG_FLD_TRANSIT_MAP, F.BRG_FLD_COMPUTE_MAP].foldl
       (fun s m => s.put m 3) (((mini.setDomain 1 true).setDomain 65 true).put F.CXL_LDk_PART_FIELDS 3 0)
     let s := ((s.put F.CLK_FLDf_CTL_CMP_EN 1 1).put F.CLK_FLDf_CTL_TRN_EN 1 1).put F.CLK_FLDf_CTL_BLK_EN 1 1
     let rest : CutOrder := { order with cores := [], segments := (List.range 127).map fun r => 8 * (r + 1) + 1 }
     let s := { s with slots := [(63, o), (1, rest)], migration := some { field := 0, todo := [63] } }
     (s.migrationPlace 63 o 0).map (fun p => (p.cores, p.segments)) = some ([128], [1]) ∧ s.mayMove 63 o = true) ∧
      mini.migrationPlace 63 order 0 = none := by
  decide +kernel

theorem witness_CutOrders_ring_busy :
    let r : Ring := { slot := 63, nrep := 2, mseg := 1 }
    let s := ({ mini with slots := [(63, order)], rings := [(0, r)] } : State).put F.CORE_RING_STAT_STATE 1 5
    s.ringIdle 63 order = false := by
  decide +kernel

/-- 07 Table 7.14: a loaded thread starts at ENTRY with its rank, the number of threads and the argument. -/
theorem test_loaded_thread :
    let d := { descriptor with entry := 0x40, arg := 9, imageLen := 4, image := [1, 2, 3, 4] }
    let s := { mini with slots := [(63, { order with st := 3, desc := d })] }
    let t := nextOf (exec (.cutLoadComplete 63) s) mini
    (t.thread 5 0).st = .running ∧ (t.thread 5 0).pc = 0x40 ∧ (t.thread 5 0).readS 2 = 1 ∧ (t.thread 5 0).readS 3 = 9 ∧
      readLE t.istore 0xFF (5 * 0x2000) 4 = 0x04030201 := by
  decide +kernel

/-! ### Patterns, the spool engine and the ring unit (09, 10, 12) -/

/-- A cut order that uses patterns. -/
def patterned : State := { mini with slots := [(63, { order with desc := { descriptor with flags := 1 } })] }

/-- Loads with and without GO, a load in progress at the last source, switches that may and may not run, and steering pairs
that are dropped, wait for credit, or move an entry. -/
theorem witness_Patterns :
    (mini.backed 5 = true ∧ mini.clocked 5 = true ∧ mini.usesPatterns 5 = false ∧ patterned.usesPatterns 5 = true ∧
        (0x8000000000000000 : Word).msb = true) ∧
      (let l : PatLoad := ⟨3, 240, 31⟩
       let s := patterned.setCore 5 { loads := [l] }
       (s.core 5).loads = [l] ∧ l.slot < 4 ∧ l.src + 16 ≤ 256 ∧ l.tack < 32 ∧ s.damaged = []) ∧
      (let s := patterned.put F.CORE_PAT_STAT_VALID 8 5
       (s.get F.CORE_PAT_STAT_VALID 5).testBit 3 = true ∧ (s.core 5).loads = [] ∧ (s.core 5).switch = none) ∧
      (let w : PatSwitch := { slot := 3, force := true, cued := true }
       let s := (patterned.setCore 5 { switch := some w }).setThread 5 0 {}
       (s.core 5).switch = some w ∧ s.drained 5 w = true ∧ w.slot < 4) ∧
      (let s := (mini.put F.CORE_STEERu_A_VALID 1 5 1).put F.CORE_STEERu_A_DATA 1 5 1
       let s := ((s.put F.CORE_QENDe_A_DEPTH 4 5 0).put F.CORE_QENDe_A_DEPTH 4 5 1).put F.CORE_QENDe_A_DEPTH 4 5 2
       let s := (s.put F.TACK_STATEn_VALUE 1 5 1)
       let s := (s.put F.CORE_QENDe_A_FTACK 1 5 0).put F.CORE_QENDe_A_FTACK 1 5 1
       let dropping := s.put F.CORE_STEERu_A_DROP0 1 5 1
       let credited := (s.put F.CORE_STEERu_A_OUT0 2 5 1).put F.CORE_QENDe_A_CTACK 1 5 2
       let wide := ((credited.put F.CORE_QENDe_A_ESIZE 1 5 1).put F.CORE_QENDe_A_ESIZE 1 5 2)
       s.get F.CORE_STEERu_A_VALID 5 1 = 1 ∧ s.darnHeld 5 = false ∧ s.draining 5 = false ∧ s.endCount 5 0 ≠ 0 ∧
         s.endCount 5 1 ≠ 0 ∧ s.damaged = [] ∧ dropping.get F.CORE_STEERu_A_DROP0 5 1 = 1 ∧
         s.get F.CORE_STEERu_A_DROP0 5 1 ≠ 1 ∧
         ¬0 ≤ (BitVec.ofNat 32 (s.get F.TACK_STATEn_VALUE 5 (s.get F.CORE_QENDe_A_CTACK 5 0 % 32)) - (1 : BitVec 32)).toInt ∧
         0 ≤ (BitVec.ofNat 32 (credited.get F.TACK_STATEn_VALUE 5 (credited.get F.CORE_QENDe_A_CTACK 5 2 % 32)) -
           (1 : BitVec 32)).toInt ∧
         credited.get F.CORE_QENDe_A_ESIZE 5 1 ≠ 1 ∧ wide.get F.CORE_QENDe_A_ESIZE 5 1 = 1 ∧
         wide.get F.CORE_QENDe_A_ESIZE 5 2 = 1) := by
  decide +kernel

/-- A request of tile 0 to tile 1 of core 5, not yet taken. -/
def copy : SpoolReq :=
  { id := 9, panel := 0, core := 5, thread := 0, ld := 0, src := 0x50000, dst := 0x50100, tiles := 1, tack := 31 }

/-- A post with room and without; a request that is empty, too long, misaligned, good, complete, and one whose answer is
still out. -/
theorem witness_SpoolEngine :
    (mini.backed 5 = true ∧ mini.clocked 5 = true ∧ (mini.spool.filter fun r => r.core == 5 && !r.isGather).length < 2 ∧
        2 ≤ (({ mini with spool := [copy, copy] } : State).spool.filter fun r => r.core == 5 && !r.isGather).length) ∧
      (∀ r ∈ [copy, { copy with tiles := 0 }, { copy with tiles := 65537 }, { copy with src := 0x50001 }],
        let s := { mini with spool := [r] }
        s.spool.find? (fun q => q.id == r.id) = some r ∧ (s.spool.map fun q => q.id).Nodup ∧ s.spoolNext (0 : Fin 512) = some r ∧
          r.panel = (0 : Fin 512).val ∧ s.darnHeld r.core = false ∧ s.draining r.core = false ∧ r.taken = false ∧
          r.isGather = false ∧ r.issued = 0 ∧ r.live = []) ∧
      ({ mini with spool := [copy] } : State).spoolError copy = none ∧
      (let r := { copy with taken := true, issued := 1 }
       r.taken = true ∧ r.issued = r.count ∧ r.live = []) ∧
      (let r := { copy with taken := true, issued := 1, live := [(0, true)] }
       (0, true) ∈ r.live ∧ r.issued = r.count ∧ mini.retryIndication = false) := by
  decide +kernel

theorem test_spool_bad_count :
    let s := { mini with spool := [{ copy with tiles := 0 }] }
    let t := nextOf (exec (.spoolTake 0) s) mini
    t.get F.SPL_STAT_ERR 5 = 1 ∧ t.get F.SPL_STAT_ERRCODE 5 = 1 ∧
      t.fab.pkts.map (fun p => (p.typ, p.dst, p.arg)) = [(PacketType.tsig, 5, 31 + 2 ^ 32)] := by
  decide +kernel

/-- A cut order for two replicas of one segment. -/
def ringOrder : CutOrder := { order with st := 1, gen := 2, desc := { descriptor with threads := 256 } }

/-- A ring of two replicas of one core each, on cores 5 and 6, whose units have the layout of one shard tile per core. -/
def ringState : State :=
  let s := { mini with rings := [(3, { slot := 63, nrep := 2, mseg := 1 })],
                       slots := [(63, { order with cores := [5, 6] })] }
  let unit (s : State) (u rep : Nat) : State :=
    let s := ((s.put F.CORE_RING_CFG_VALID 1 u).put F.CORE_RING_CFG_RING 3 u).put F.CORE_RING_CFG_REP rep u
    let s := ((s.put F.CORE_RING_CFG_NREP 2 u).put F.CORE_RING_LAYOUT_GRAD 0 u).put F.CORE_RING_LAYOUT_S 16 u
    let s := (s.put F.CORE_RING_LAYOUT_ERR0 64 u).put F.CORE_RING_LAYOUT_ERR1 96 u
    ((s.put F.CORE_RING_LAYOUT_WTS 200 u).put F.CORE_RING_LAYOUT_INBOX 128 u).put F.CORE_RING_LAYOUT_SW 1 u
  unit (unit s 5 0) 6 1

/-- Setups that fail each check and one that passes. -/
theorem witness_GradientRing_setup :
    let s := { mini with slots := [(63, ringOrder)] }
    let p := s.put F.MRK_RINGj_CFG_PERIOD 1 3
    let id : BitVec 16 := 63 + 2 * 64
    mini.get F.CLK_BLKEN_MRK = 1 ∧ findKey mini.slots (id.toNat % 64) = none ∧
      findKey s.slots (id.toNat % 64) = some ringOrder ∧ ringOrder.gen = id.toNat / 64 ∧ ringOrder.st = 1 ∧
      (ringOrder.desc.threads + ringOrder.desc.tpc - 1) / max 1 ringOrder.desc.tpc =
        (2 : BitVec 6).toNat * 128 * (1 : BitVec 12).toNat ∧
      s.get F.MRK_RINGj_STAT_STATE 3 = 0 ∧ (s.put F.MRK_RINGj_STAT_STATE 1 3).get F.MRK_RINGj_STAT_STATE 3 ≠ 0 ∧
      ringOrder.desc.pins = [] ∧ ({ ringOrder.desc with pins := [(0, 5)] } : Descriptor).pins ≠ [] ∧
      (s.put F.MRK_RINGj_CFG_PERIOD 0 3).get F.MRK_RINGj_CFG_PERIOD 3 = 0 ∧ p.get F.MRK_RINGj_CFG_PERIOD 3 ≠ 0 := by
  decide +kernel

/-- A unit that is idle and current, one whose layout is wrong, and the rings, verdicts and operations of the other clauses. -/
theorem witness_GradientRing_units :
    (ringState.backed 5 = true ∧ ringState.clocked 5 = true ∧ ringState.get F.CORE_RING_STAT_STATE 5 = 0 ∧
        (0 : BitVec 32).toNat = ringState.get F.CORE_RING_STAT_ATTEMPT 5 ∧
        (ringState.ringOf 5).map (fun e => e.1) = some 3 ∧ ringState.damaged = [] ∧ ringState.fab.pkts = [] ∧
        ringState.get F.FAB_HOLEMAP_HOLES = 0 ∧ ringState.layoutError 5 = none ∧ (ringState.ringLayout 5).nrep < 64 ∧
        (ringState.put F.CORE_RING_LAYOUT_S 15 5).layoutError 5 = some 2) ∧
      (let s := ringState.put F.CORE_RING_STAT_VERDICT 1 5
       s.get F.CORE_RING_STAT_VERDICT 5 = 1 ∧
         (s.ringLayout 5).wts + ((s.ringLayout 5).rep + 1) * (s.ringLayout 5).sw ≤ 256) ∧
      (let s := (ringState.put F.CORE_RING_STAT_STATE 1 5).put F.TACK_STATEn_VALUE 1 5 0
       let r : Ring := { slot := 63, nrep := 2, mseg := 1 }
       s.get F.CORE_RING_STAT_STATE 5 = 1 ∧ s.darnHeld 5 = false ∧
         r.nrep - 1 ≤ s.get F.TACK_STATEn_VALUE 5 (s.get F.CORE_RING_TACKS_INBOX_TACK 5 % 32) % 2 ^ 32 ∧
         findKey r.reports 5 = none ∧
         s.inboxFailed 5 (s.ringLayout 5) = [] ∧ s.inboxMalformed 5 (s.ringLayout 5) = true ∧ (s.core 5).ringBarred = none ∧
         ({ s with damaged := [0x580] } : State).inboxFailed 5 (s.ringLayout 5) ≠ [] ∧
         (let u := { s with sram := [(0x58004, 1)] }
          u.inboxMalformed 5 (u.ringLayout 5) = false ∧
            (u.ringLayout 5).grad + ((u.ringLayout 5).rep + 1) * (u.ringLayout 5).s ≤ 256 ∧
            (u.ringLayout 5).wts + (u.ringLayout 5).nrep * (u.ringLayout 5).sw ≤ 256)) ∧
      (let s := ringState.setCore 5 { verdicts := [4] }
       (s.core 5).verdicts = [4] ∧ 4 < 8) ∧
      (let s := ringState.setCore 5 { ringOps := [(7, 6, true)] }
       (s.core 5).ringOps.find? (fun o => o.1 == 7) = some (7, 6, true) ∧ s.retryIndication = false) := by
  decide +kernel

/-- A ring with a verdict of each kind ahead, and digests with and without a comparison in progress. -/
theorem witness_GradientRing_verdicts :
    (let s := ringState.put F.MRK_RINGj_STAT_STATE 1 3
     let r : Ring := { slot := 63, nrep := 2, mseg := 1 }
     findKey s.rings (3 : Fin 4).val = some r ∧ s.get F.MRK_RINGj_STAT_STATE 3 = 1 ∧ s.ringCores r ≠ [] ∧
       (s.ringCores r).Nodup ∧ s.allDone r = false ∧ ((s.ringCores r).all fun c => s.inRing 3 c) = true ∧
       (let done : Ring := { r with reports := [(5, ⟨false, 0, 0, none⟩), (6, ⟨false, 0, 0, none⟩)] }
        s.allDone done = true ∧ done.nans = 0 ∧ done.infs = 0) ∧
       (let bad : Ring := { r with reports := [(5, ⟨true, 1, 0, none⟩)], halting := true, quiet := [5, 6] }
        (∃ e ∈ bad.reports, e.2.bad = true) ∧ ((s.ringCores r).all fun c => bad.quiet.contains c.toNat) = true) ∧
       s.get F.MRK_RINGj_STAT_RUN 3 < 2 ^ 8 - 1 ∧
       s.get F.MRK_RINGj_STAT_RUN 3 < (s.put F.MRK_RINGj_CFG_REPEAT_MAX 1 3).get F.MRK_RINGj_CFG_REPEAT_MAX 3 ∧
       ¬s.get F.MRK_RINGj_STAT_RUN 3 < (s.put F.MRK_RINGj_CFG_REPEAT_MAX 0 3).get F.MRK_RINGj_CFG_REPEAT_MAX 3) ∧
      (let s := ringState.put F.CLK_BLKEN_INT 1
       let r : Ring := { slot := 63, nrep := 2, mseg := 1 }
       s.get F.CLK_BLKEN_INT = 1 ∧ s.get F.INT_DIGEST_CFGj_PERIOD 0 3 < 2 ^ 32 ∧ s.damaged = [] ∧
         ((s.ringCores r).all fun c => decide ((s.ringLayout c).wts + (s.ringLayout c).nrep * (s.ringLayout c).sw ≤ 512)) = true ∧
         (s.put F.INT_DIGEST_STATj_BUSY 1 0 3).get F.INT_DIGEST_STATj_BUSY 0 3 = 1) := by
  decide +kernel

/-! ### Selvedge ports (13) -/

/-- The module with Selvedge port 31 in a state, with a far-memory window of LD 0 behind it. -/
def ported (st : Nat) (port : Port := {}) : State :=
  let s := ((mini.put F.SEL_STAT_STATE st 31).put F.SEL_CTL_EN 1 31).put F.SEL_CAP_CAP_GIB 2 31
  let s := (s.put F.CXL_LDk_FMWIN_FMBASE 0xF800 0).put F.CXL_LDk_FMWIN_FMSIZE 0x800 0
  let s := ((s.put F.SEL_CAP_RDCRED 64 31).put F.SEL_TAGSTAT_RDHELD 64 31).put F.SEL_TAGSTAT_WRHELD 4 31
  (((s.put F.SEL_CAP_WRCRED 4 31).put F.CLK_PORTEN_PORTS (2 ^ 31)).put F.SEL_WAIT_LIMIT_LIMIT 8 31).setPort 31 port

/-- A far-memory request that waits at port 31. -/
def farRead (typ : PacketType) (arg : Nat) : Packet :=
  { id := 0, typ, opc := 3, arg, rt := 5, dst := 5, src := 5, pos := 5, fence := 2 ^ 23 + 31 }

def farState (st : Nat) (q : Packet) : State :=
  { ported st with fab := { (ported st).fab with pkts := [q], nextId := 1 } }

/-- A request at the last places of the window and of the unit, just past each, one with a bad check, and a port that is closed. -/
theorem witness_SelvedgePorts_requests :
    (∀ o ∈ [0xF800 * 2 ^ 30, 0xF802 * 2 ^ 30 - 8, 0xF802 * 2 ^ 30, 2 ^ 46 - 8, 0xF800 * 2 ^ 30 - 8],
      let q := farRead .rd o
      let s := farState 2 q
      s.farRequest 31 q.id = some q ∧ (s.port 31).ingress.length < 256 ∧ s.repliesTo q.src q.pos ∧ q.good = true) ∧
      (let s := farState 2 (farRead .wr 0)
       let base := s.get F.CXL_LDk_FMWIN_FMBASE 0
       let top := (base + s.get F.CXL_LDk_FMWIN_FMSIZE 0) * 2 ^ 30
       let most := s.get F.SEL_CAP_CAP_GIB 31 * 2 ^ 30
       base * 2 ^ 30 = 0xF800 * 2 ^ 30 ∧ top = 2 ^ 46 ∧ (s.farPort (0xF802 * 2 ^ 30 - 8)).2 < most ∧
         ¬(s.farPort (0xF802 * 2 ^ 30)).2 < most) ∧
      (let q := { farRead .wr 0 with good := false }
       (farState 3 q).farRequest 31 q.id = some q ∧ (farState 3 q).repliesTo q.src q.pos) ∧
      (∀ st ∈ [0, 1, 5], (farState st (farRead .wr 0)).get F.SEL_STAT_STATE 31 = st) ∧
      ((farState 2 (farRead .wr 0)).put F.SEL_STAT_FUSED 1 31).get F.SEL_STAT_FUSED 31 = 1 := by
  unfold State.repliesTo; decide +kernel

/-- An arbiter with no requester, with two of which one has waited too long, and with a lock; a failing frame with and without
episodes left; the answers of a frame; and each way out of RETRY. -/
theorem witness_SelvedgePorts_frames :
    (let s := ported 2
     s.get F.SEL_STAT_STATE 31 = 2 ∧ s.get F.SEL_CTL_EN 31 = 1 ∧ (s.port 31).replay.length < 256 ∧ s.portEligible 31 = []) ∧
      (let p : Port := { ingress := [farRead .wr 0, { farRead .rd 0 with id := 1, src := 16 }] }
       let s := ported 2 p
       let u := ported 2 { p with waits := [(panelOf 16, 8)] }
       let w := ported 2 { p with lock := some ⟨panelOf 16, 1⟩ }
       s.portEligible 31 ≠ [] ∧ s.get F.SEL_WAIT_LIMIT_LIMIT 31 ≤ mget 0 (u.port 31).waits (panelOf 16) ∧
         panelOf 16 ∈ u.portEligible 31 ∧ panelOf 16 ∈ w.portEligible 31 ∧
         ((s.port 31).ingress.all fun q => q.typ == .rd || q.typ == .wr) = true ∧
         s.get F.SEL_TAGSTAT_RDHELD 31 < 2 ^ 12 ∧ s.get F.SEL_TAGSTAT_WRHELD 31 < 2 ^ 10) ∧
      (let fr : UnitFrame := ⟨1, true, 0, 0, 0, 0, [(8, 2047, 0, false)], 0⟩
       let q := farRead .rd 0
       let s := ported 3 { tags := [(2047, { req := q })] }
       fr.kind.val < 3 ∧ fr.fseq.val = (s.port 31).expect ∧ findKey (s.port 31).tags 2047 = some { req := q } ∧
         s.repliesTo q.src q.pos ∧ s.get F.SEL_TAGSTAT_RDHELD 31 ≤ s.get F.SEL_CAP_RDCRED 31 ∧
         s.get F.SEL_TAGSTAT_WRHELD 31 ≤ s.get F.SEL_CAP_WRCRED 31 ∧ (ported 2).retryIndication = false ∧ fr.rdc = 0) ∧
      (let s := (ported 2).put F.SEL_RETRYCFG_EPISODE_MAX 1 31
       let u := (ported 2 { starts := [0] }).put F.SEL_RETRYCFG_EPISODE_MAX 1 31
       let recent (l : List Nat) (now : Nat) := (l.filter fun b => decide (now < b + 2 ^ 30)).length
       s.get F.SEL_CTL_RETRY_EN 31 = 1 ∧ recent (s.port 31).starts 5 < s.get F.SEL_RETRYCFG_EPISODE_MAX 31 ∧
         ¬recent (u.port 31).starts (2 ^ 30 - 1) < u.get F.SEL_RETRYCFG_EPISODE_MAX 31 ∧
         recent (u.port 31).starts (2 ^ 30) < u.get F.SEL_RETRYCFG_EPISODE_MAX 31 ∧
         (s.put F.SEL_CTL_RETRY_EN 0 31).get F.SEL_CTL_RETRY_EN 31 ≠ 1) ∧
      (let p : Port := { next := 1, replay := [{ fseq := 1023 }, { fseq := 0 }] }
       (p.acknowledged ((0 + 1023) % 1024)).replay = [{ fseq := 0 }] ∧ (p.acknowledged ((1 + 1023) % 1024)).replay = [] ∧
         p.replay ≠ [] ∧ (p.acknowledged ((0 + 1023) % 1024)).starts = p.starts) ∧
      (∀ attempts ∈ [6, 7], ∀ retrains ∈ [0, 2, 3],
        let s := (ported 3 { attempts, retrains }).put F.SEL_RETRYCFG_RETRAIN_MAX 3 31
        s.get F.SEL_STAT_STATE 31 = 3 ∧ s.get F.SEL_RETRYCFG_REPLAY_MAX 31 = 8 ∧
          s.get F.SEL_RETRYCFG_RETRAIN_MAX 31 = 3) := by
  unfold State.repliesTo; decide +kernel

/-- A marker that makes a lane bad and one that does not; an expired tag; training that may start; and trainings and retrains
that end with four good lanes and with three. -/
theorem witness_SelvedgePorts_lanes :
    (let s := (ported 2).put F.SEL_RETRYCFG_LANE_ERR 1 31
     let u := (ported 2 { markers := [(8, [0])] }).put F.SEL_RETRYCFG_LANE_ERR 1 31
     let times (s : State) (now : Nat) :=
       now :: (mget [] (s.port 31).markers 8).filter fun b => decide (now < b + 2 ^ 24)
     ¬s.get F.SEL_RETRYCFG_LANE_ERR 31 < (times s 5).length ∧
       u.get F.SEL_RETRYCFG_LANE_ERR 31 < (times u (2 ^ 24 - 1)).length ∧
       ¬u.get F.SEL_RETRYCFG_LANE_ERR 31 < (times u (2 ^ 24)).length ∧
       (u.get F.SEL_STAT_BAD 31).testBit 8 = false) ∧
      (let q := farRead .rd 0
       let s := ported 2 { tags := [(2047, { req := q, expired := true })] }
       findKey (s.port 31).tags 2047 = some { req := q, expired := true }) ∧
      ((ported 5).get F.CLK_PORTEN_PORTS / 2 ^ 31 % 2 = 1 ∧ (ported 5).get F.SEL_STAT_STATE 31 = 5 ∧
        (ported 5).get F.SEL_STAT_FUSED 31 ≠ 1 ∧ (ported 4).get F.SEL_STAT_STATE 31 = 4) ∧
      (let c : UnitCaps := ⟨2, 64, 16, 0⟩
       let good (l : BitVec 9) := ((List.range 9).filter fun i => !l.getLsbD i).length
       let bad (l : BitVec 9) := ((List.range 9).filter fun i =>
         !((ported 4).get F.SEL_STAT_BAD 31 ||| l.toNat).testBit i).length
       c.ok = true ∧ ({ c with capGib := 0 } : UnitCaps).ok = false ∧ good 0x1F = 4 ∧ good 0x3F = 3 ∧ bad 0x1F = 4 ∧
         bad 0x3F = 3 ∧ (ported 1).get F.SEL_STAT_STATE 31 = 1 ∧ (ported 1).port 31 = {} ∧
         (ported 4).get F.SEL_STAT_STATE 31 = 4 ∧ (ported 4).get F.SEL_STAT_BAD 31 < 2 ^ 9 ∧
         (0 : Nat) ≤ (ported 4).get F.BRG_BER_LIMIT_FRAMES ∧
         ((ported 4 { retrains := 4 }).put F.SEL_RETRYCFG_RETRAIN_MAX 3 31).get F.SEL_RETRYCFG_RETRAIN_MAX 31 < 4) := by
  decide +kernel

/-! ### Register writes and reads of core windows (00, 02) -/

/-- A register of another LD, a register of the writer's own, one of a block whose clock is off, one that cannot be defined,
and the window of a core. -/
theorem witness_RegisterWrites :
    (mini.hostWrites 1 (mini.bar0 1 0x90040) = false ∧ mini.hostWrites 0 (mini.bar0 0 0x90040) = true ∧
        (mini.bar0 1 0x90040).windowCore = none ∧ mini.get F.CXL_CTLERR_DISCARDS + 1 < 2 ^ 24 ∧
        mini.placeClocked (mini.bar0 0 0x90040) = true ∧
        (mini.put F.CLK_BLKEN_BRG 0).placeClocked (mini.bar0 0 0x90040) = false) ∧
      (let off := 0x2000000 + 5 * 0x4000
       let p := mini.bar0 0 (off + 0x1008)
       let view := mini.put F.CORE_DBG_VIEW 1 5
       p = .window 5 0x1008 ∧ mini.hostWrites 0 p = true ∧ mini.hostWrites 2 (mini.bar0 2 (off + 0x1008)) = false ∧
         p.windowCore = some 5 ∧ mini.placeUnbacked p = false ∧ mini.placeClocked p = true ∧
         (mini.thread 5 0).st = .stopped ∧ ((running {}).thread 5 0).st ≠ .stopped ∧
         mini.get F.CORE_DBG_VIEW 5 ≠ 1 ∧ view.get F.CORE_DBG_VIEW 5 = 1 ∧ view.get F.CORE_ACC_OWN_OWNER_k 5 3 = 3) ∧
      (mini.bar0 0 0x90040 = .reg .BRG_CMD 0 0 ∧ Reg.BRG_CMD.resets 2 = false ∧ Reg.BRG_CMD.defines 2 = true ∧
        Reg.CORE_DBG.resets 0 = false) ∧
      mini.placeUnbacked (.window 0x1C080 0x1000) = true := by
  decide +kernel

/-- 02 Table 2.10: a write of a stopped thread's last scalar register. -/
theorem test_window_write :
    ((nextOf (exec (.registerWrite 0 (0x2000000 + 5 * 0x4000 + 0x10F8) 77) mini) mini).thread 5 0).readS 31 = 77 := by
  decide +kernel

/-! ### Watching, bring-up, resets and darning (15, 16) -/

/-- A position of the row that holds segment 0. -/
def spot : Position := { field := 0, panel := 0, row := 0, pos := 129 }

/-- A watch entry that has run out of its window, one that has not, a dirty WATCH section, a cue that is wanted, a group under
test, and a field that can fail. -/
theorem witness_TestsAndTransitFailure :
    (let e : WatchEntry := { at_ := spot, lcn := 0, times := [0], cause := 0, passed := true }
     let s := { (mini.put F.TRD_COUNT_COUNT 101).put F.INT_FENCE_WINDOW_TR 100 with watch := [e] }
     let u := s.put F.TRD_COUNT_COUNT 100
     let age (s : State) := (s.get F.TRD_COUNT_COUNT + 2 ^ 48 - e.times.headD 0 % 2 ^ 48) % 2 ^ 48
     s.watch = [] ++ e :: [] ∧ ¬age s ≤ s.get F.INT_FENCE_WINDOW_TR ∧ age u ≤ u.get F.INT_FENCE_WINDOW_TR ∧
       s.isDirty 4 = true ∧ mini.isDirty 4 = false) ∧
      (let s := mini.put F.INT_WATCH_PERIOD_TR 64
       let e : WatchEntry := { at_ := spot, lcn := 0, times := [0], cause := 0 }
       let u := { s with watch := [e] }
       s.get F.INT_CTL_TEST_EN = 1 ∧ s.get F.INT_SWEEP_PERIOD_TR ≠ 0 ∧ s.get F.INT_WATCH_PERIOD_TR ≠ 0 ∧
         s.get F.FLD_CUEn_B_VALID 0 232 ≠ 1 ∧ s.get F.CLK_FLDf_CTL_TRN_EN 0 = 1 ∧ u.watch = [e] ∧
         e.at_.field = (0 : Fin 64).val ∧ s.watch = []) ∧
      (let s := { mini with tests := [(8191, [[5, 6, 7], [8, 9, 10]])] }
       findKey s.tests (8191 : Fin 8192).val = some [[5, 6, 7], [8, 9, 10]] ∧
         ([[5, 6, 7], [8, 9, 10]] : List (List Nat))[(1 : Fin 43).val]? = some [8, 9, 10] ∧
         ([[5, 6, 7], [8, 9, 10]] : List (List Nat)).eraseIdx 1 ≠ [] ∧
         ([[5, 6, 7]] : List (List Nat)).eraseIdx 0 = [] ∧ findKey s.tests 0 = none ∧
         s.get F.INT_TESTSTAT_MISMATCH < 2 ^ F.INT_TESTSTAT_MISMATCH.width ∧
         s.get F.INT_CAUSEc_COUNT 0 6 + 3 < 2 ^ F.INT_CAUSEc_COUNT.width) ∧
      ((mini.put F.CLK_BLKEN_INT 1).get F.CLK_BLKEN_INT = 1 ∧ mini.transitOn 0 = true ∧ mini.isHole 0 = false ∧
        mini.computeOn 0 = true ∧ mini.transitOn 63 = false) := by
  decide +kernel

/-- 15 R549: two answers agree against the third. -/
theorem test_test_group_votes :
    let s := { mini with tests := [(0, [[5, 6, 7]])] }
    (nextOf (exec (.testGroupDone 0 0 1 2 1) s) mini).get F.INT_TESTSTAT_MISMATCH = 1 := by
  decide +kernel

/-- Field 1, next to field 0, with some bits of the bring-up maps set, and a command for it. -/
def bringUp (maps : List Fld) (op : Nat) : State :=
  let s := (((mini.put F.BRG_READY_NVS 1).put F.BRG_READY_CLKREF 1).put F.BRG_FLD_COMPUTE_MAP 0).put F.BRG_FLD_TRANSIT_MAP 1
  { maps.foldl (fun s m => s.put m (2 + s.get m)) s with brgCmd := some (op + 32 * 1) }

/-- Each command that does its work, and each that its conditions refuse; a wafer with every part ready but Marker. -/
theorem witness_BringUpCommands :
    (let maps := [F.BRG_FLD_TRANSIT_MAP, F.BRG_FLD_SEAMOK_MAP, F.BRG_FLD_TOPO_MAP, F.BRG_FLD_COMPUTE_MAP]
     let s := bringUp [] 1
     let u := bringUp maps 6
     mini.get F.CLK_BLKEN_BRG = 1 ∧ mini.brgCmd = none ∧ s.brgCmd = some 33 ∧ 33 / 32 % 64 = 1 ∧ 33 % 16 = 1 ∧
       33 / 16 % 2 = 0 ∧ (1 + 16) / 16 % 2 = 1 ∧ s.get F.BRG_READY_MGMT = 1 ∧ s.get F.BRG_READY_NVS = 1 ∧
       s.get F.BRG_READY_CLKREF = 1 ∧ s.isHole 1 = false ∧ s.transitOn 1 = false ∧ s.computeOn 1 = false ∧
       (s.get F.BRG_FLD_TRANSIT_MAP).testBit 1 = false ∧ (u.get F.BRG_FLD_TRANSIT_MAP).testBit 1 = true ∧
       (u.get F.BRG_FLD_SEAMOK_MAP).testBit 1 = true ∧ (u.get F.BRG_FLD_TOPO_MAP).testBit 1 = true ∧
       (u.get F.BRG_FLD_COMPUTE_MAP).testBit 1 = true ∧ (s.put F.BRG_READY_NVS 0).get F.BRG_READY_NVS ≠ 1 ∧
       (s.put F.FAB_HOLEMAP_HOLES 2).isHole 1 = true ∧ s.isHole 0 = false) ∧
      (let s := bringUp [F.BRG_FLD_TRANSIT_MAP] 2
       hasSeam 1 3 = true ∧ (s.get F.BRG_FLD_TRANSIT_MAP).testBit (beyond 1 3) = true ∧
         (s.get F.BRG_FLD_TRANSIT_MAP).testBit (beyond 1 1) = false ∧ s.linkPasses {} (linkKey 1 3 0 0) = true ∧
         s.linkPasses { links := [(Fin.ofNat 65536 (linkKey 1 3 0 0), none)] } (linkKey 1 3 0 0) = false) ∧
      (let s := bringUp [F.BRG_FLD_SEAMOK_MAP] 3
       let key := linkKey 1 3 1 127
       let u := { s with discovered := [key], unexpected := [key] }
       (s.get F.BRG_FLD_SEAMOK_MAP).testBit 1 = true ∧ hasSeam 1 3 = true ∧ key ∈ u.discovered ∧ key ∈ u.unexpected ∧
         key ∉ s.discovered ∧ key ∉ s.unexpected) ∧
      (let s := bringUp [F.BRG_FLD_TOPO_MAP] 4
       (s.get F.BRG_FLD_TOPO_MAP).testBit 1 = true ∧ s.computeOn 1 = false ∧ s.get F.PWR_FLDf_STAT_LOCKED 1 ≠ 1 ∧
         s.get F.PWR_FLDf_STAT_REASON 1 = 0 ∧ (s.put F.PWR_FLDf_STAT_LOCKED 1 1).get F.PWR_FLDf_STAT_LOCKED 1 = 1 ∧
         (s.put F.PWR_FLDf_STAT_REASON 8 1).get F.PWR_FLDf_STAT_REASON 1 = 8) ∧
      (let s := (bringUp [F.BRG_FLD_TRANSIT_MAP] 6).setLink 1 3 1 127 { st := .failed }
       (s.link 1 3 1 127).st = .failed ∧ hasSeam 1 3 = true ∧ hasSeam 0 3 = false) ∧
      (let s := [F.BRG_FLD_SEAMOK_MAP, F.BRG_FLD_TOPO_MAP].foldl (fun s m => s.put m 1) mini
       s.get F.BRG_READY_MARKER ≠ 1 ∧ s.isParked 0 = false ∧ s.isHole 0 = false ∧
         ([F.BRG_FLD_TRANSIT_MAP, F.BRG_FLD_SEAMOK_MAP, F.BRG_FLD_TOPO_MAP, F.BRG_FLD_COMPUTE_MAP].all fun m =>
           (s.get m).testBit 0) = true) := by
  decide +kernel

/-- The discovered links of a field's seams are those expected. -/
theorem witness_BringUpCommands_agrees :
    let s : State := { bringUp [F.BRG_FLD_SEAMOK_MAP] 3 with discovered := List.range 65536, unexpected := [] }
    ∀ (d : Fin 4) (n : Fin 2) (i : Fin 128), hasSeam 1 d = true →
      (linkKey 1 d n i ∈ s.discovered ↔ linkKey 1 d n i ∉ s.unexpected) := by
  intro s d n i _
  simp only [s, List.mem_range, List.not_mem_nil, not_false_eq_true, iff_true, linkKey]
  split_ifs <;> simp only <;> omega

/-- Each scope of a partial reset, waiting for darning, draining and past its drain; a core whose restart is awaited. -/
theorem witness_PartialResetsAndDarning_resets :
    (let r : PartialReset := { scope := 1, target := 511, phase := 1 }
     let s := { mini with partialReset := some r }
     let q : PartialReset := { scope := 0, target := 5, phase := 2 }
     let u := { mini with partialReset := some q }
     mini.get F.CLK_BLKEN_BRG = 1 ∧ mini.partialReset = none ∧ s.partialReset = some r ∧ r.target < 512 ∧
       s.scopeDarned r = false ∧ s.scopeQuiet r = true ∧ q.phase = 2 ∧ u.waitingResets = [] ∧ q.target < 2 ^ 20 ∧
       u.inScope q 5 = true ∧ u.inScope q 6 = false) ∧
      (let r : PartialReset := { scope := 0, target := 5, phase := 1 }
       let s := { (mini.setTag 5 63 { st := .held }) with partialReset := some r }
       s.scopeQuiet r = false) ∧
      (let r : PartialReset := { scope := 2, target := 0, phase := 0 }
       let d : DarnAction := { at_ := spot, kind := 1, segment := some 0, column := 128 }
       ({ mini with darn := some d } : State).scopeDarned r = true) ∧
      ((mini.core 5).absorbing = false ∧
        ((mini.setCore 5 { absorbing := true }).core 5).absorbing = true) := by
  decide +kernel

/-- Darning of a position with a spare, of a segment that must move and of one with nowhere to go; the requests that darning
passes over; and an action of each kind that is quiet, recorded and durable, or has lost its field. -/
theorem witness_PartialResetsAndDarning_darning :
    (let p : Position := { spot with field := 1 }
     let s := { mini with darnQueue := [p, spot] }
     s.darn = none ∧ s.darnQueue = [p] ++ spot :: [] ∧ s.darnable p = false ∧ s.darnable spot = true ∧
       s.isBad spot = false ∧ s.segmentAt spot = some 0 ∧ s.badCount 0 < 2 ∧
       (let u := { s with badPositions := [(0, [127, 128])] }
        2 ≤ u.badCount 0 ∧ u.isBad spot = false ∧ (u.relocationTarget 0).isSome = true) ∧
       { s with badPositions := [(0, [129])] }.isBad spot = true) ∧
      (let p : Position := { field := 1, panel := 7, row := 15, pos := 0 }
       mini.segmentAt p = none ∧ mini.isBad p = false) ∧
      (∀ kind ∈ [1, 2],
        let d : DarnAction := { at_ := { spot with pos := 3 }, kind, segment := some 0, column := 3,
                                dest := mini.relocationTarget 0 }
        let s := { mini with darn := some d }
        let u := { mini with darn := some { d with recorded := true } }
        s.darn = some d ∧ d.recorded = false ∧ s.darnQuiet d = true ∧ d.moved.contains 5 = true ∧ (5 : Lcn).toNat ∉ d.lost ∧
          d.dest.isSome = true ∧ s.columnAt { spot with pos := 127 } < 128 ∧
          u.repairDurable = true ∧ s.computeOn spot.field = true ∧ s.isHole spot.field = false ∧
          s.computeOn 1 = false ∧ s.get F.BRG_DARN_COUNT_ABANDONED + 1 < 2 ^ 15) := by
  decide +kernel

/-! ### Trust and the store (20) -/

/-- Firmware that runs and firmware that does not; each stage of a negotiation and of a session; a section that waits, one that
is being written and one that is durable. -/
theorem witness_TrustAndStore :
    ((mini.put F.THM_STAT_VERIFIED 1).get F.THM_STAT_VERIFIED = 1 ∧ mini.get F.THM_STAT_VERIFIED ≠ 1 ∧
        mini.get F.THM_STAT_VERSION < 2 ^ 32 ∧ mini.get F.THM_MINVER_MIN < 2 ^ 32 ∧
        (mini.put F.THM_MINVER_MIN 2).get F.THM_MINVER_MIN = 2) ∧
      (∀ session ∈ [none, some false, some true],
        let s := ({ mini with spdm := [(15, { stage := 3, session })] } : State).put F.THM_STAT_VERIFIED 1
        let x := mget {} s.spdm (15 : Fin 16).val
        s.get F.CXL_LINKSTAT_STATE = 2 ∧ x.stage = 3 ∧ x.session = session ∧ (mget {} s.spdm 0).stage = 0) ∧
      ((mini.put F.THM_STAT_ALIAS 1).get F.THM_STAT_ALIAS = 1 ∧ mini.get F.THM_STAT_ALIAS ≠ 1) ∧
      (let e : WatchEntry := { at_ := spot, lcn := 0, times := [0], cause := 0 }
       let s := ({ mini with watch := [e], nvsQueue := [4, 1] } : State).put F.NVS_STAT_LOADED 1
       s.get F.NVS_STAT_LOADED = 1 ∧ mini.get F.NVS_STAT_LOADED ≠ 1 ∧ s.nvsWrite = none ∧ s.get F.NVS_STAT_LOSS ≠ 1 ∧
         ([1, 3, 5, 4].idxOf 1 ≤ [1, 3, 5, 4].idxOf 4) ∧ s.isDirty 4 = true ∧ ((s.sect 1).winner).isSome = true ∧
         (∀ id ∈ [1, 3, 4, 5], ({ s with nvsWrite := some { id, content := {} } } : State).nvsWrite =
           some { id, content := {} })) := by
  decide +kernel

/-- 20 R650: MINVER takes the running firmware's version. -/
theorem test_raise_minver :
    (nextOf (exec .raiseMinver ((mini.put F.THM_STAT_VERIFIED 1).put F.THM_STAT_VERSION 9)) mini).get F.THM_MINVER_MIN = 9 := by
  decide +kernel

/-! ### The management bus (21) -/

/-- The module with a dynamic address and a response. -/
def addressed : State :=
  { (mini.put F.MGT_STAT_DA_VALID 1).put F.MGT_STAT_IBI_EN 1 with
    resetRun := none
    mgt := { response := some (0, 7, [1, 2]), ibis := [2, 1] } }

theorem witness_ManagementBus :
    (let own := mini.get F.MGT_PID_PID * 2 ^ 16 + mini.get F.MGT_PID_BCR * 2 ^ 8 + mini.get F.MGT_PID_DCR
     addressed.mgmtOn = true ∧ mini.mgmtOn = false ∧ addressed.get F.MGT_STAT_DA_VALID = 1 ∧
       mini.get F.MGT_STAT_DA_VALID ≠ 1 ∧ own < 2 ^ 64 ∧ own ≤ (BitVec.allOnes 64 : Word).toNat ∧
       (BitVec.ofNat 64 own : Word).toNat / 2 ^ 16 = own / 2 ^ 16) ∧
      (addressed.mgt.ibis = 2 :: [1] ∧ addressed.get F.MGT_STAT_IBI_EN = 1 ∧ mini.mgt.ibis = [] ∧
        addressed.mgt.response = some (0, 7, [1, 2]) ∧ mini.mgt.response = none) ∧
      (let number (l : List (BitVec 8)) : Nat := l.foldr (fun b n => b.toNat + 256 * n) 0
       number [0xE8, 0x03, 0, 0] = 1000 ∧ number [0x40, 0x9C, 0, 0] = 40000 ∧ number [63] < 64 ∧
         number [0x40, 0, 9, 0] = 0x90040 ∧ (0x90040 : Nat) % 8 = 0 ∧ (0x90040 : Nat) < 0x100000 ∧ number [1] < 2) ∧
      (addressed.get F.RST_STAT_THIMBLE_FAIL ≠ 1 ∧
        (addressed.put F.RST_STAT_THIMBLE_FAIL 1).get F.RST_STAT_THIMBLE_FAIL = 1 ∧
        addressed.placeClocked (bar0At 0x90040) = true ∧
        (addressed.put F.CLK_BLKEN_BRG 0).placeClocked (bar0At 0x90040) = false ∧
        bar0At 0x90040 = .reg .BRG_CMD 0 0) ∧
      (let s := { addressed with mgt := { addressed.mgt with slot := some 1 } }
       let args : List (BitVec 8) := [0, 0, 0, 0, 0xAA]
       s.mgt.slot = some 1 ∧ args.length = 5 ∧ 5 ≤ args.length ∧ args.length ≤ 252 ∧ 0 + (args.length - 4) ≤ 2 ^ 22 ∧
         addressed.mgt.slot = none) ∧
      (let l (e : BitVec 8) := (List.range 8).filter fun q => e.getLsbD q
       let s := { addressed with mgt := { addressed.mgt with lock := some ⟨4, 1⟩, waits := [(7, 255)] } }
       l 0 = [] ∧ l 0x90 = [4, 7] ∧ 4 ∈ l 0x90 ∧ 4 ∉ l 0x80 ∧ s.get F.MGT_ARBCFG_WAIT_LIMIT ≤ mget 0 s.mgt.waits 7) ∧
      (addressed.put F.CLK_BLKEN_WAF 1).get F.CLK_BLKEN_WAF = 1 := by
  decide +kernel

/-- 21 Table 21.6: SET_CAP sets the rack's cap. -/
theorem test_set_cap :
    let t := nextOf (exec (.setCap 3 [0xE8, 0x03, 0, 0]) addressed) mini
    t.get F.PWR_CAP_RACK = 1000 ∧ t.mgt.response = some (0, 3, []) := by
  decide +kernel

/-! ### Resets, clocks and power (17 to 19) -/

/-- A reset of the whole module in progress. -/
def resetting (assertStep : Option Nat) (release : Nat) : State :=
  { mini with resetRun := some ⟨⟨true, true, true, true⟩, assertStep, 1, release, 0, [], false⟩ }

/-- No reset, one in assertion with a write pulse to wait for, one in release; and the reset patterns that are armed. -/
theorem witness_Resets_sources :
    (let s := { mini with resetRun := none }
     s.resetRun = none ∧ s.nvsWrite = none ∧ s.nvsResetWaits = false ∧ (∀ r : ResetRun, s.resetRun = some r → r.reach.mgmt = false)) ∧
      (let r : ResetRun := ⟨⟨true, false, true, true⟩, some 1, 5, 5, 0, [2], true⟩
       let w : NvsWrite := { id := 4, content := {} }
       let s := { mini with resetRun := some r, nvsWrite := some w }
       s.resetRun = some r ∧ r.delayed = true ∧ s.nvsWrite = some w ∧ ((s.sect 4).winner).isSome = true ∧
         s.get F.RST_STAT_NVS_WAIT_US < 2 ^ 8) ∧
      (({ mini with mgt := { rstact := some 2 } } : State).mgt.rstact = some 2 ∧
        ({ mini with mgt := { rstact := some 1 } } : State).mgt.rstact = some 1 ∧ mini.mgt.rstact = none ∧
        ({ mini with nvsResetWaits := true } : State).nvsResetWaits = true ∧
        (mini.put F.THM_STAT_VERIFIED 1).get F.THM_STAT_VERIFIED = 1) := by
  refine ⟨⟨by decide +kernel, by decide +kernel, by decide +kernel, fun r h => by cases h⟩, ?_⟩
  decide +kernel

/-- Every step of assertion and of release, with each reach, and firmware slots that are good, old and broken. -/
theorem witness_Resets_steps :
    ((List.range 6).all fun k => (resetting (some (k + 1)) 1).resetRun ==
        some ⟨⟨true, true, true, true⟩, some (k + 1), 1, 1, 0, [], false⟩) = true ∧
      ((List.range 7).all fun k =>
        let s := (resetting none (k + 1)).put F.BRG_READY_NVS 1
        s.resetRun == some ⟨⟨true, true, true, true⟩, none, 1, k + 1, 0, [], false⟩ && s.get F.BRG_READY_NVS == 1 &&
          s.get F.RST_STAT_THIMBLE_FAIL == 0) = true ∧
      (let s := mini.put F.THM_MINVER_MIN 2
       let good (k : SlotCheck) := k.failed = none ∧ s.get F.THM_MINVER_MIN ≤ k.version.toNat
       good ⟨2, none⟩ ∧ ¬good ⟨1, none⟩ ∧ ¬good ⟨3, some 3⟩) ∧
      (({ mini with store := [(1, ⟨.broken, .broken⟩)] } : State).sect 1).winner = none ∧
      (({ mini with store := [(1, ⟨.broken, .broken⟩)] } : State).sect 1).isBlank = false ∧
      (mini.sect 1).winner.isSome = true := by
  decide +kernel

/-- 17 Table 17.3: the first step of release starts the clocks of the control blocks. -/
theorem test_first_release :
    let t := nextOf (exec (.resetReleaseStep ⟨1, none⟩ ⟨1, none⟩) State.reset) mini
    t.get F.CLK_BLKEN_BRG = 1 ∧ t.get F.RST_STAT_STEP = 1 ∧ t.get F.CLK_BLKEN_CXL = 0 := by
  decide +kernel

/-- A field whose PLL A can lock, one that runs from it, one in a sequence, and treadles that count, push or stand. -/
theorem witness_ClocksTreadleAndCues :
    (let s := { mini.put F.CLK_STAT_REFOK 1 with pllSetting := [(0, 5), (1, 4)], resetRun := none }
     let u := (s.put F.CLK_FLDf_STAT_ACTIVE 1 0).put F.CLK_FLDf_STAT_PLLA_RDY 1 0
     let w := { u.put F.CLK_FLDf_STAT_PLLB_RDY 1 0 with sequences := [(0, ⟨4, false, false⟩)] }
     let x := { w with sequences := [(0, ⟨4, false, true⟩)] }
     s.get F.CLK_STAT_REFOK = 1 ∧ mini.get F.CLK_STAT_REFOK ≠ 1 ∧ s.mgmtOn = true ∧ mini.mgmtOn = false ∧
       s.transitOn 0 = true ∧ mget 0 s.pllSetting (2 * 0 + 1) ≠ 0 ∧ mget 0 s.pllSetting 126 = 0 ∧
       s.get F.CLK_FLDf_STAT_ACTIVE 0 = 0 ∧ u.get F.CLK_FLDf_STAT_ACTIVE 0 = 0 + 1 ∧
       findKey u.sequences (0 : Fin 64).val = none ∧ u.get F.CLK_FLDf_STAT_PLLA_RDY 0 = 1 ∧
       (0 : Nat) ∉ u.lockHold ∧ u.get F.CLK_FLDf_STAT_CUR 0 = 0 ∧ u.get F.CLK_FLDf_STITCH_TARGET 0 ≠ 0 ∧
       min (u.get F.CLK_FLDf_STITCH_TARGET 0) (min (u.get F.PWR_STAT_W) (u.get F.PWR_FLDf_STAT_TCEIL 0)) ≠ 0 ∧
       findKey w.sequences (0 : Fin 64).val = some ⟨4, false, false⟩ ∧ w.get F.CLK_FLDf_STAT_PLLB_RDY 0 = 1 ∧
       findKey x.sequences (0 : Fin 64).val = some ⟨4, false, true⟩ ∧
       (s.get F.BRG_FLD_SEAMOK_MAP).testBit 0 = false ∧ s.fieldUnheld 0 = true ∧
       (s.put F.BRG_FLD_SEAMOK_MAP 1).get F.BRG_FLD_SEAMOK_MAP = 1) ∧
      (let s := ((mini.put F.CLK_STAT_REFOK 1).put F.CLK_BLKEN_TRD 1).put F.BRG_READY_TREADLE 1
       s.get F.TRD_CTL_SRC ≠ 1 ∧ s.get F.CLK_BLKEN_TRD = 1 ∧ s.get F.BRG_READY_TREADLE = 1 ∧
         (s.put F.TRD_CTL_SRC 1).get F.TRD_CTL_SRC = 1 ∧ s.get F.TRD_STAT_IGN + 1 < 2 ^ 16 ∧
         mget 0 s.trdCopy (0 : Fin 64).val = s.get F.TRD_COUNT_COUNT ∧
         mget 0 s.trdCopy (0 : Fin 64).val ≠ (s.put F.TRD_COUNT_COUNT (2 ^ 48 - 1)).get F.TRD_COUNT_COUNT) ∧
      ((7 : Word).toNat % 8 = 7 ∧ (6 : Word).toNat % 8 ≠ 7) := by
  decide +kernel

/-- Cues of every kind that are due, on a backed core and in another field; and entries that a write may and may not take. -/
theorem witness_ClocksTreadleAndCues_cues :
    (∀ kind ∈ [1, 2, 3, 4, 5],
      let s := { (mini.put F.FLD_CUEn_B_KIND kind 0 223).put F.FLD_CUEn_A_CUE 5 0 223 with cueDue := [223] }
      256 * (0 : Fin 64).val + (223 : Fin 256).val ∈ s.cueDue ∧ (∀ m : Fin 223, 256 * 0 + m.val ∉ s.cueDue) ∧
        s.get F.FLD_CUEn_B_KIND 0 223 = kind ∧ s.backed (BitVec.ofNat 20 (s.get F.FLD_CUEn_A_CUE 0 223)) = true ∧
        s.backed 0x1C080 = false) ∧
      (mini.get F.CLK_FLDf_CTL_BLK_EN 0 = 1 ∧ mini.get F.CLK_FLDf_CTL_BLK_EN 63 ≠ 1 ∧
        mini.get F.FLD_CUEn_B_VALID 0 223 ≠ 1 ∧ (mini.put F.FLD_CUEn_B_VALID 1 0 223).get F.FLD_CUEn_B_VALID 0 223 = 1 ∧
        fieldOf (BitVec.ofNat 20 5) = 0 ∧ fieldOf (BitVec.ofNat 20 128) ≠ 0) ∧
      (let v : Word := 0x8003000000000007
       v.toNat / 2 ^ 48 % 16 = 3 ∧ v.toNat / 2 ^ 63 = 1 ∧ v.toNat % 2 ^ 48 = 7 ∧
         ¬((8 : Nat) % 16 = 0 ∨ 8 < (8 : Nat) % 16) ∧ (9 : Nat) % 16 > 8) := by
  decide +kernel

/-- 18 R619: a signal cue adds to its tack. -/
theorem test_cue_fires :
    let s := (mini.put F.FLD_CUEn_B_KIND 2 0 3).put F.FLD_CUEn_A_CUE (5 + 31 * 2 ^ 20 + 7 * 2 ^ 32) 0 3
    (nextOf (exec (.cueFire 0) { s with cueDue := [3] }) mini).tack 5 31 = 7 := by
  decide +kernel

/-- A controller that must step down and one that must not; a field that may be unparked; temperatures on each side of WARN,
CRIT and SHUT; domains that can trip; and the field control register. -/
theorem witness_Power :
    (let s := (mini.put F.PWR_MEAS_VIN_MV 54000).put F.PWR_STAT_LEVEL 1
     let cap := min (s.get F.PWR_CAP_RACK) (min (s.get F.PWR_CAP_HOST) (800 * s.get F.PWR_MEAS_VIN_MV / 1000))
     let order := (s.put F.PWR_PARK_ORDERn_VALIDb 1 0 0).parkOrder
     s.get F.PWR_CTL_EN = 1 ∧ s.get F.PWR_STAT_LEVEL < 2 ^ 7 ∧ (s.parkOrder.all fun f => decide (f < 64)) = true ∧
       order = [0] ∧ (s.put F.PWR_CTL_EN 0).get F.PWR_CTL_EN ≠ 1 ∧ 0 < cap) ∧
      (let s := { ({ mini with power := { due := [63] } } : State).put F.BRG_FLD_TOPO_MAP (2 ^ 63) with resetRun := none }
       let u := { s with power := { unparking := [63] } }
       (63 : Nat) ∈ s.power.due ∧ s.get F.PWR_FLDf_STAT_REASON 63 = 0 ∧ (63 : Nat) ∈ u.power.unparking ∧
         (63 : Nat) ∉ mini.power.due ∧ mini.computeOn 63 = false ∧ mini.computeOn 0 = true) ∧
      (let s := mini
       let warn := s.get F.PWR_THERM_WARN
       let crit := s.get F.PWR_THERM_CRIT
       let shut := s.get F.PWR_THERM_SHUT
       s.transitOn 0 = true ∧ s.transitOn 63 = false ∧ s.get F.PWR_FLDf_STAT_TEMP 0 < warn ∧ warn < crit ∧ crit < shut ∧
         shut < 256 ∧ s.get F.MRK_CTL_MIG_EN = 1 ∧ s.migrants 0 = [] ∧
         (s.put F.PWR_FLDf_STAT_REASON 6 0).get F.PWR_FLDf_STAT_REASON 0 = 6 ∧
         s.get F.PWR_FLDf_STAT_TEMP 0 + s.get F.PWR_THERM_HYST < warn) ∧
      (let s := (mini.setDomain 135 true).setDomain 137 true
       s.domainOn (128 + 7) = true ∧ s.domainOn (128 + 0) = false ∧ s.domainOn (136 + 1) = true ∧
         s.domainOn (136 + 0) = false) ∧
      ((mini.put F.CLK_BLKEN_PWR 1).get F.CLK_BLKEN_PWR = 1 ∧ mini.get F.CLK_BLKEN_PWR ≠ 1 ∧
        mini.get F.PWR_FLDf_CTL_PARK 63 = 0 ∧ (mini.put F.PWR_FLDf_CTL_PARK 1 63).get F.PWR_FLDf_CTL_PARK 63 = 1 ∧
        (mini.put F.PWR_FLDf_STAT_TRIPS 15 63).get F.PWR_FLDf_STAT_TRIPS 63 = 15) := by
  decide +kernel

/-- A field that is parked: its transit domain is on and its compute domain off. -/
theorem witness_Power_parked :
    let s := (mini.setDomain 0 false).put F.PWR_FLDf_STAT_REASON 16 0
    s.isParked 0 = true ∧ (s.get F.PWR_FLDf_STAT_REASON 0).testBit 4 = true := by
  decide +kernel

/-- 19 R636: a park takes the field's compute domain. -/
theorem test_park :
    let t := nextOf (exec (.pwrPark 0 true) (mini.put F.CLK_BLKEN_PWR 1)) mini
    t.computeOn 0 = false ∧ t.transitOn 0 = true ∧ t.get F.PWR_FLDf_STAT_REASON 0 = 16 := by
  decide +kernel

/-! ### The words of the spec's worked examples (03 and 04, "Worked example") -/

theorem test_words_of_scalar_example :
    spelled 5 0 [] 0x40064850 0 = some (.cmpGe x0 1 4 5) ∧
      spelled 5 0 [] 0x11006301 0 = some (.add { x0 with pred := 1 } 6 6 false (.imm7 1)) ∧
      spelled 5 0 [] 0x11807381 0 = some (.add { x0 with pred := 1, pn := true } 7 7 false (.imm7 1)) ∧
      spelled 5 0 [] 0x01248214 0 = some (.sel { x0 with pred := 1 } 8 4 false (.reg 5)) := by
  decide +kernel

theorem test_words_of_tensor_example :
    spelled 5 0 [] 0x90000601 0 = some (.tileLd x0 0 1 true false (.off8 1)) ∧
      spelled 5 0 [] 0x90004A01 0 = some (.tileLd x0 1 2 true false (.off8 1)) ∧
      spelled 5 0 [] 0xA0000204 0 = some (.tmma x0 0 0 1 0 0 true false none) ∧
      spelled 5 0 [] 0xA0000200 0 = some (.tmma x0 0 0 1 0 0 false false none) ∧
      spelled 5 0 [] 0xA0022000 0 = some (.cread x0 0 2 0 0 0) ∧
      spelled 5 0 [] 0x90028C00 0 = some (.tileSt x0 2 3 false false (.off8 0)) := by
  decide +kernel

/-! ### More witnesses: the clauses that one step adds -/

/-- A switch that runs, a steering unit that a bad tile halts, and the entry of a load whose index names no core. -/
theorem witness_Patterns_running :
    (let w : PatSwitch := { slot := 3, force := true, cued := true, running := true }
     let s := patterned.setCore 5 { switch := some w }
     (s.core 5).switch = some w ∧ w.running = true ∧ w.slot < 4) ∧
      (let s := (mini.put F.CORE_STEERu_A_VALID 1 5 1).put F.CORE_STEERu_A_DATA 1 5 1
       let s := ((s.put F.CORE_QENDe_A_DEPTH 4 5 0).put F.CORE_QENDe_A_DEPTH 4 5 1).put F.TACK_STATEn_VALUE 1 5 1
       let s := (s.put F.CORE_QENDe_A_FTACK 1 5 0).put F.CORE_QENDe_A_FTACK 1 5 1
       let u := { s with damaged := [5 * 256] }
       u.endCount 5 0 ≠ 0 ∧ u.endCount 5 1 ≠ 0 ∧ u.tileGood 5 0 = false ∧
         (mget {} (u.core 5).steer 1 : SteerUnit).halted = false ∧ mini.endCount 5 0 = 0) := by
  decide +kernel

/-- Beats at a marker's place, in a replay with and without frames left, with a full replay buffer and in RETRAIN. -/
theorem witness_SelvedgePorts_beats :
    ((ported 2 { beat := 65535 }).port 31).beat = 65535 ∧
      (∀ l ∈ [[], [({ fseq := 1023 } : PortFrame)]], ((ported 3 { resend := l }).port 31).resend = l ∧
        (ported 3 { resend := l }).get F.SEL_STAT_STATE 31 = 3) ∧
      256 ≤ ((ported 2 { replay := List.replicate 256 { fseq := 0 } }).port 31).replay.length ∧
      ((ported 2).put F.SEL_CTL_EN 0 31).get F.SEL_CTL_EN 31 ≠ 1 ∧ (ported 4).get F.SEL_STAT_STATE 31 = 4 := by
  decide +kernel

/-- A frame whose check holds, whatever its fields: KINDs 3 to 6, the awaited FSEQ, and one response entry. -/
theorem witness_SelvedgePorts_received :
    (∀ kind ∈ [3, 4, 5, 6], frameGood (frameBits kind 0 0 1023 0 0 0 0) = true ∧
        frameKind (frameBits kind 0 0 1023 0 0 0 0) = kind) ∧
      frameKind (frameBits 1 1 0 1023 0 0 (8 + 2047 * 2 ^ 8) 0) < 3 ∧
      (frameOf (frameBits 1 1 0 1023 0 0 (8 + 2047 * 2 ^ 8) 0)).fseq.val = (({} : Port).expect) ∧
      (frameOf (frameBits 1 1 1023 1023 0 0 0 0)).fseq.val ≠ (({} : Port).expect) ∧
      ((ported 3 { discarding := true }).port 31).discarding = true := by
  refine ⟨?_, ?_, ?_, ?_, by decide +kernel⟩
  · intro kind h
    refine ⟨frameGood_frameBits .., ?_⟩
    rw [frameKind_frameBits]
    simp only [List.mem_cons, List.not_mem_nil, or_false] at h
    omega
  · rw [frameKind_frameBits]; decide
  · rw [frameOf_frameBits_fseq]; decide
  · rw [frameOf_frameBits_fseq]; decide

/-- The LCTL words of a unit that trains, lanes that lock late, and a retrain that a late lane starts again. -/
theorem witness_SelvedgePorts_trained :
    (∀ late ∈ [[], [8]],
      let port : Port := { late, down := 1 }
      let bad := 0 ||| (late.eraseDups.map fun l => 2 ^ l).sum ||| port.down
      ((ported 1 port).port 31 = port ∧ (∀ l ∈ port.late, l < 9) ∧ port.down < 2 ^ 9) ∧
        (activeLanes (bad - (bad &&& (late.eraseDups.map fun l => 2 ^ l).sum))).isSome = true) ∧
      (let caps : Word := 3 + 2 * 2 ^ 4 + 64 * 2 ^ 16 + 16 * 2 ^ 28
       ((some caps).bind capsOf).map (fun c => c.ok) = some true ∧ ((some lctlReady).bind capsOf) = none ∧
         lctlReady.toNat % 16 = 4) ∧
      (ported 4 { late := [8], retrains := 1 }).get F.SEL_RETRYCFG_RETRAIN_MAX 31 ≥ 1 ∧
      ((ported 4).put F.SEL_STAT_BAD 1 31).get F.SEL_STAT_BAD 31 = 1 := by
  decide +kernel

/-- A reset that waits behind one in its last phase, a core that another reset holds, and a management block without a clock. -/
theorem witness_PartialResetsAndDarning_waiting :
    (let r : PartialReset := { scope := 1, target := 0, phase := 2 }
     let next : PartialReset := { scope := 2, target := 15, phase := 0, flr := true }
     let s := { mini with partialReset := some r, waitingResets := [next] }
     s.partialReset = some r ∧ s.waitingResets = next :: [] ∧ s.inScope r 5 = true ∧ r.scope ≠ 0 ∧
       ((s.setCore 0xFFFFF { absorbing := true }).core 0xFFFFF).absorbing = true ∧ s.inScope r 0xFFFFF = false) ∧
      (mini.put F.CLK_BLKEN_BRG 0).get F.CLK_BLKEN_BRG ≠ 1 := by
  decide +kernel

/-- A backed core whose clock is off, blocks and a port without a clock, and a place of a core that no position backs. -/
theorem witness_RegisterWrites_gated :
    (let s := mini.put F.CORE_CTL_CLK_EN 0 5
     s.backed 5 = true ∧ s.clocked 5 = false ∧ s.backed 0x1C080 = false) ∧
      (mini.get F.CLK_BLKEN_PWR ≠ 1 ∧ (mini.put F.CLK_BLKEN_CXL 0).get F.CLK_BLKEN_CXL ≠ 1 ∧
        (mini.put F.CLK_BLKEN_MRK 0).get F.CLK_BLKEN_MRK ≠ 1 ∧ (mini.put F.CLK_BLKEN_INT 0).get F.CLK_BLKEN_INT ≠ 1 ∧
        (mini.put F.CLK_BLKEN_WAF 0).get F.CLK_BLKEN_WAF ≠ 1) ∧
      (mini.get F.CLK_PORTEN_PORTS).testBit (31 : Fin 32).val = false ∧
      (mini.put F.CLK_FLDf_CTL_BLK_EN 0 63).get F.CLK_FLDf_CTL_BLK_EN 63 ≠ 1 ∧
      (mini.hostWrites 1 (mini.bar0 1 0x71000) = false ∧ (mini.bar0 1 0x71000).windowCore = none) := by
  decide +kernel

/-- A sweep cue of a field whose transit clock is off, and a group that a test does not have. -/
theorem witness_TestsAndTransitFailure_absent :
    (let s := mini.put F.CLK_FLDf_CTL_TRN_EN 0 0
     s.get F.INT_CTL_TEST_EN = 1 ∧ s.get F.INT_SWEEP_PERIOD_TR ≠ 0 ∧ s.get F.FLD_CUEn_B_VALID 0 232 ≠ 1 ∧
       s.get F.CLK_FLDf_CTL_TRN_EN 0 ≠ 1) ∧
      (let s := { mini with tests := [(8191, [[5, 6, 7]])] }
       findKey s.tests (8191 : Fin 8192).val = some [[5, 6, 7]] ∧ [[5, 6, 7]].length ≤ (1 : Fin 43).val) := by
  decide +kernel

/-- A field that a warning empties by migration, and one that still asks while another migration runs. -/
theorem witness_Power_migrants :
    (let s := { mini with slots := [(63, { order with st := 4, desc := { descriptor with flags := 4 } })] }
     s.get F.MRK_CTL_MIG_EN = 1 ∧ s.migrants 0 ≠ [] ∧ s.transitOn 0 = true ∧ s.migration = none) ∧
      (let s := { mini with power := { asking := [0] }, migration := some { field := 1, todo := [] } }
       (0 : Nat) ∈ s.power.asking ∧ s.migration ≠ none) := by
  decide +kernel

/-- A slot whose 512 header bytes have been written. -/
theorem witness_TrustAndStore_slot :
    ({ mini with fwRuns := [(2 ^ 22, 4096)] } : State).slotWritten 1 0 512 = true ∧ mini.slotWritten 1 0 512 = false := by
  decide +kernel

/-! ### The machine (log entries 4, 5) -/

/-- A command in front of a queue, and an empty queue. -/
theorem witness_StepTakesFront :
    ({ mini with pending := [.refLost, .flush] } : State).pending = .refLost :: [.flush] ∧ mini.pending = [] := by
  decide +kernel

/-- A store in front of the queue of a module whose memories are canonical: its step goes on, and changes one of them. -/
def storing : State := { running (at_ 0x50000) with pending := [.st x0 .b 1 1 false false (.off6 0)] }

theorem witness_StepKeepsMemories : storing.memoriesWf ∧ (nextOf (step storing) mini).sram = [(0x50000, 0x80)] := by
  unfold State.memoriesWf; decide +kernel

theorem witness_StepKeepsSound : storing.sound ∧ (nextOf (step storing) mini).sram ≠ [] := by
  refine ⟨⟨?_, ?_, ?_, ?_⟩, by decide +kernel⟩
  · intro p h
    cases h
  · rintro r (h | h) <;> cases h
  · intro p q h
    have h' : q ∈ ([] : List Packet) := h
    cases h'
  · intro n h
    cases h

end Sys2Proof.Tests
end

section
/-!
PROOFS. The writes of registers: what a counted error changes, what a write under the access codes leaves of a register,
and what a host's write does at each place of its BAR0 (O48).
-/

namespace Sys2Proof.Machine

/-! ### Register fields and what a change leaves -/

/-- A put leaves the copy under every other key alone. -/
theorem State.get_put_key (s : State) {f g : Fld} (v : Nat) {u u' n n' : Nat} (h : fldKey g u' n' ≠ fldKey f u n) :
    (s.put f v u n).get g u' n' = s.get g u' n' := by
  simp [State.get, State.put, mget_mset_other, h]

/-- The clearing of a sticky flag's counter is not seen by a field read. -/
@[simp] theorem State.get_untick (s : State) (f : Fld) (u n new : Nat) (g : Fld) (u' n' : Nat) :
    (s.untick f u n new).get g u' n' = s.get g u' n' := by
  unfold State.untick
  split <;> rfl

/-- A state with the registers and the counters of time of another. -/
def State.setBack (s t : State) : State := { t with regs := s.regs, ticked := s.ticked }

/-- Nothing but register fields and the counters of time that have run differ. -/
def State.regsOnly (s t : State) : Prop := s.setBack t = s

theorem State.regsOnly.refl (s : State) : s.regsOnly s := rfl

theorem State.regsOnly.trans {s t w : State} (h : s.regsOnly t) (h' : t.regsOnly w) : s.regsOnly w :=
  (congrArg s.setBack h').trans h

theorem State.regsOnly_put (s : State) (f : Fld) (v u n : Nat) : s.regsOnly (s.put f v u n) := rfl

theorem State.regsOnly_tick (s : State) (f : Fld) (u n : Nat) : s.regsOnly (s.tick f u n) := rfl

theorem State.regsOnly_untick (s : State) (f : Fld) (u n new : Nat) : s.regsOnly (s.untick f u n new) := by
  unfold State.untick
  split <;> rfl

/-- Steps that change only registers and counters of time do so together. -/
theorem State.regsOnly_foldl {α : Type} (f : State → α → State)
    (h : ∀ (s : State) (a : α), s.regsOnly (f s a)) (l : List α) (s : State) :
    s.regsOnly (l.foldl f s) :=
  List.foldlRecOn (motive := s.regsOnly) l f (State.regsOnly.refl s) fun t ht a _ => ht.trans (h t a)

theorem State.fieldsKept.trans {s t w : State} {l m : List Fld} (h : s.fieldsKept t l) (h' : t.fieldsKept w m) :
    s.fieldsKept w (l ++ m) := by
  intro f u n hf hu hn
  simp only [List.map_append, List.mem_append, not_or] at hf
  exact (h' f u n hf.2 hu hn).trans (h f u n hf.1 hu hn)

theorem State.fieldsKept_put (s : State) (f : Fld) (v : Nat) {u n : Nat} (hu : u < 2 ^ 20) (hn : n < 2 ^ 12) :
    s.fieldsKept (s.put f v u n) [f] := by
  intro g u' n' hg hu' hn'
  exact s.get_put_field v (by simpa using hg) hu hu' hn hn'

/-! ### Counted errors (14 R500, 18 R611) -/

theorem State.addSat_rest (s : State) (f sat : Fld) (k : Nat) : { s.addSat f sat k with regs := s.regs } = s := by
  unfold State.addSat
  split <;> rfl

theorem State.fieldsKept_addSat (s : State) (f sat : Fld) (k : Nat) : s.fieldsKept (s.addSat f sat k) [f, sat] := by
  unfold State.addSat
  have hput : s.fieldsKept (s.put f (2 ^ f.width - 1)) [f] := s.fieldsKept_put f _ (by norm_num) (by norm_num)
  split
  · intro g u n hg hu hn
    refine s.fieldsKept_put f _ (by norm_num) (by norm_num) g u n ?_ hu hn
    simp only [List.map_cons, List.map_nil, List.mem_cons, not_or] at hg ⊢
    exact ⟨hg.1, hg.2.2⟩
  · exact hput.trans (State.fieldsKept_put _ sat 1 (by norm_num) (by norm_num))

/-- A count below its maximum rises by the events counted. -/
theorem State.get_addSat_below (s : State) (f sat : Fld) {k : Nat} (h : s.get f + k < 2 ^ f.width) :
    (s.addSat f sat k).get f = s.get f + k := by
  rw [State.addSat, if_pos (by omega), State.get_put_same, Nat.mod_eq_of_lt h]

/-- An error is counted in one field with its flag, and its place or sender noted in another: nothing else changes. -/
def State.counts (s t : State) (count sat last : Fld) (v : Nat) : Prop :=
  t.get last = v ∧ (s.get count + 1 < 2 ^ 24 → t.get count = s.get count + 1) ∧ s.fieldsKept t [count, sat, last] ∧
    { t with regs := s.regs } = s

theorem State.counts_addSat_put (s : State) {count sat last : Fld} {v : Nat} (hw : count.width = 24)
    (hid : count.id ≠ last.id) (hv : v < 2 ^ last.width) :
    s.counts ((s.addSat count sat 1).put last v) count sat last v := by
  refine ⟨?_, fun h => ?_, ?_, s.addSat_rest count sat 1⟩
  · rw [State.get_put_same, Nat.mod_eq_of_lt hv]
  · rw [State.get_put_field _ _ hid (by norm_num) (by norm_num) (by norm_num) (by norm_num)]
    exact s.get_addSat_below count sat (hw ▸ h)
  · exact (s.fieldsKept_addSat count sat 1).trans (State.fieldsKept_put _ last v (by norm_num) (by norm_num))

theorem State.counts_gatedError (s : State) {off : Nat} (h : off < 2 ^ 26) :
    s.counts (s.gatedError off) F.CLK_GATEDERR_COUNT F.CLK_GATEDERR_SAT F.CLK_GATEDERR_LAST off :=
  s.counts_addSat_put rfl (by decide) h

theorem State.counts_ctlError (s : State) {ld : Nat} (h : ld < 16) :
    s.counts (s.ctlError ld) F.CXL_CTLERR_DISCARDS F.CXL_CTLERR_SAT F.CXL_CTLERR_LAST_LD ld :=
  s.counts_addSat_put rfl (by decide) h

/-- A counted error changes its three fields, and nothing beside registers and the counters of time. -/
theorem State.counts.only {s t : State} {count sat last : Fld} {v : Nat} (h : s.counts t count sat last v) :
    t.get last = v ∧ (s.get count + 1 < 2 ^ 24 → t.get count = s.get count + 1) ∧
      s.fieldsKept t [count, sat, last] ∧ s.regsOnly t := by
  obtain ⟨hlast, hcount, hkept, hrest⟩ := h
  have hback := congrArg s.setBack hrest
  exact ⟨hlast, hcount, hkept, hback⟩

/-! ### Commands behind a stopped clock (18 R610, R611; 02 R88, R89) -/

/-- Unless a clock runs, a command changes nothing but that a GATED error is counted with an offset. -/
def State.gatedUnless (s : State) (on : Prop) (i : Instr) (off : Nat) : Prop :=
  ¬on → ∃ t, exec i s = .next t ∧ s.counts t F.CLK_GATEDERR_COUNT F.CLK_GATEDERR_SAT F.CLK_GATEDERR_LAST off

/-- A command that is a write in a core's window, at an offset of it: ignored at a core that is not backed, and counted as
GATED where the core's clocks are off. -/
def State.windowWrite (s : State) (c : Lcn) (i : Instr) (off : Nat) : Prop :=
  (s.backed c = false → exec i s = .next s) ∧
    (s.backed c = true → s.gatedUnless (s.clocked c = true) i
      (0x2000000 + (c.toNat / 1024 % 16 * 128 + c.toNat % 128) * 0x4000 + off))

theorem State.gatedUnless_of_exec {s : State} {on : Prop} {i : Instr} {off : Nat} (hoff : off < 2 ^ 26)
    (h : ¬on → exec i s = .next (s.gatedError off)) : s.gatedUnless on i off :=
  fun hon => ⟨_, h hon, s.counts_gatedError hoff⟩

theorem State.ifClocked_off {s : State} {r : Reg} {u : Nat} (n : Nat) (f : State → State)
    (h : s.blockClocked r r.place.block u = false) : s.ifClocked r u n f = s.gatedError (regOffset r u n) := by
  simp [State.ifClocked, h]

theorem State.flag_eq_false_iff (s : State) (f : Fld) (u n : Nat) : s.flag f u n = false ↔ s.get f u n ≠ 1 := by
  simp [State.flag]

/-- A write through `ifClocked` is gated by its block's clock. -/
theorem State.gatedUnless_ifClocked {s : State} {on : Prop} {i : Instr} {r : Reg} {u n off : Nat} {f : State → State}
    (hexec : exec i s = .next (s.ifClocked r u n f)) (hon : ¬on → s.blockClocked r r.place.block u = false)
    (hoff : regOffset r u n = off) (hlt : off < 2 ^ 26) : s.gatedUnless on i off :=
  State.gatedUnless_of_exec hlt fun h => by rw [hexec, State.ifClocked_off n f (hon h), hoff]

/-- A write through `ifWindow` of a register that stands once in a core's window. -/
theorem State.windowWrite_ifWindow {s : State} {c : Lcn} {i : Instr} {r : Reg} {off : Nat} {f : State → State}
    (hexec : exec i s = .next (s.ifWindow r c 0 f)) (hplace : r.place = ⟨.core, off, 8, 1, false⟩) (hctl : r ≠ .CORE_CTL)
    (hlt : off < 0x4000) : s.windowWrite c i off := by
  refine ⟨fun hb => ?_, fun hb => ?_⟩
  · rw [hexec, State.ifWindow, if_neg (by simp [hb])]
  · refine State.gatedUnless_ifClocked (r := r) (u := c.toNat) (n := 0) (f := f) ?_ (fun hc => ?_) ?_ (by omega)
    · rw [hexec, State.ifWindow, if_pos hb]
    · simp [hplace, State.blockClocked, hctl, hc]
    · simp [regOffset, hplace, blockOffset]

/-- A write by LD k's own host of one of its registers is gated by the host-attach block's clock. -/
theorem State.gatedUnless_ownWrite {s : State} {i : Instr} {r : Reg} {ld v off : Nat} {f : State → State}
    (hexec : exec i s = s.ownWrite r ld v f) (hoff : regOffset r ld 0 = off) (hlt : off < 2 ^ 26) :
    s.gatedUnless (s.get F.CLK_BLKEN_CXL = 1) i off := by
  refine State.gatedUnless_of_exec hlt fun h => ?_
  rw [hexec, State.ownWrite, if_pos (by simp [State.blockClocked, State.flag, h]), hoff]

/-- A write of an LD's control register is gated by the host-attach block's clock. -/
theorem State.gatedUnless_control {s : State} {i : Instr} {r : Reg} {via ld v off : Nat} {f : State → State}
    (hexec : exec i s = s.control via r ld v f) (hoff : regOffset r ld 0 = off) (hlt : off < 2 ^ 26) :
    s.gatedUnless (s.get F.CLK_BLKEN_CXL = 1) i off := by
  refine State.gatedUnless_of_exec hlt fun h => ?_
  rw [hexec, State.control, if_pos (by simp [State.blockClocked, State.flag, h]), hoff]

/-- A command of its own that asks for one clock enable. -/
theorem State.gatedUnless_enable {s : State} {i : Instr} {en : Fld} {off : Nat} {t : State}
    (hexec : exec i s = .next (if s.flag en then t else s.gatedError off)) (hlt : off < 2 ^ 26) :
    s.gatedUnless (s.get en = 1) i off :=
  State.gatedUnless_of_exec hlt fun h => by rw [hexec, if_neg (by simpa [State.flag] using h)]

/-- Every command of a core's window is turned away by an unbacked core or a stopped clock. -/
theorem windowCommands_turnedAway (s : State) (c : Lcn) (n : Fin 4) (v : Word) :
    s.windowWrite c (.compressorStart c v) 0x158 ∧ s.windowWrite c (.selectionStart c v) 0x168 ∧
      s.windowWrite c (.spoolPost c n v) 0x350 ∧ s.windowWrite c (.patternLoad c v) 0x5C8 ∧
      s.windowWrite c (.switchRequest c v) 0x5C0 ∧
      (∀ k, s.windowWrite c (.reduce c k) 0x1A8 ∧ s.windowWrite c (.share c k) 0x1A8) ∧
      s.windowWrite c (.ringLayoutWrite c false v) 0x198 ∧ s.windowWrite c (.ringLayoutWrite c true v) 0x1A0 :=
  ⟨State.windowWrite_ifWindow rfl rfl (by decide) (by decide), State.windowWrite_ifWindow rfl rfl (by decide) (by decide),
    State.windowWrite_ifWindow rfl rfl (by decide) (by decide), State.windowWrite_ifWindow rfl rfl (by decide) (by decide),
    State.windowWrite_ifWindow rfl rfl (by decide) (by decide),
    fun _ => ⟨State.windowWrite_ifWindow rfl rfl (by decide) (by decide),
      State.windowWrite_ifWindow rfl rfl (by decide) (by decide)⟩,
    State.windowWrite_ifWindow rfl rfl (by decide) (by decide), State.windowWrite_ifWindow rfl rfl (by decide) (by decide)⟩

/-- The offset of a host-attach register of an LD. -/
theorem regOffset_ld {r : Reg} {base : Nat} (h : r.place = ⟨.cxl, base, 256, 16, true⟩) (ld : Nat) :
    regOffset r ld 0 = base + 0x100000 + 256 * ld := by
  simp [regOffset, h, blockOffset, Nat.add_comm base]

/-! What the host-attach commands of O48 are: writes through `control` and `ownWrite`. -/

theorem exec_ldPartWrite (s : State) (w ld : Fin 16) (v : Word) : exec (.ldPartWrite w ld v) s =
    s.control w.val .CXL_LDk_PART ld.val v.toNat fun s => s.writeLdPart ld.val v.toNat := rfl

theorem exec_ldFmwinWrite (s : State) (w ld : Fin 16) (v : Word) : exec (.ldFmwinWrite w ld v) s =
    s.control w.val .CXL_LDk_FMWIN ld.val v.toNat fun s => s.writeFmwin ld.val v.toNat := rfl

theorem exec_ldMsixWrite (s : State) (w ld : Fin 16) (v : Word) : exec (.ldMsixWrite w ld v) s =
    s.control w.val .CXL_LDk_MSIX ld.val v.toNat fun s => s.writeMsix ld.val v.toNat := rfl

theorem exec_apertureSelect (s : State) (ld : Fin 16) (f : Fin 64) (l : Fin 8) : exec (.apertureSelect ld f l) s =
    s.ownWrite .CXL_LDk_APERTURE ld.val (f.val + l.val * 64) fun s =>
      s.writePlain .CXL_LDk_APERTURE ld.val 0 (f.val + l.val * 64) := rfl

theorem exec_ringEnable (s : State) (ld : Fin 16) (v : Word) : exec (.ringEnable ld v) s =
    s.ownWrite .CXL_LDk_RING ld.val v.toNat fun s => s.writeRing ld.val v.toNat := rfl

theorem exec_evqEnable (s : State) (ld : Fin 16) (v : Word) : exec (.evqEnable ld v) s =
    s.ownWrite .CXL_LDk_EVQ ld.val v.toNat fun s => s.writeEvq ld.val v.toNat := rfl

/-- The commands of the host-attach block are turned away by its stopped clock. -/
theorem hostAttachCommands_turnedAway (s : State) (ld : Fin 16) (v : Word) :
    (∀ w, s.gatedUnless (s.get F.CLK_BLKEN_CXL = 1) (.ldPartWrite w ld v) (0x101008 + 256 * ld.val) ∧
      s.gatedUnless (s.get F.CLK_BLKEN_CXL = 1) (.ldFmwinWrite w ld v) (0x101010 + 256 * ld.val) ∧
      s.gatedUnless (s.get F.CLK_BLKEN_CXL = 1) (.ldMsixWrite w ld v) (0x101018 + 256 * ld.val)) ∧
    (∀ (f : Fin 64) (l : Fin 8),
      s.gatedUnless (s.get F.CLK_BLKEN_CXL = 1) (.apertureSelect ld f l) (0x101048 + 256 * ld.val)) ∧
    s.gatedUnless (s.get F.CLK_BLKEN_CXL = 1) (.ringEnable ld v) (0x101020 + 256 * ld.val) ∧
    s.gatedUnless (s.get F.CLK_BLKEN_CXL = 1) (.evqEnable ld v) (0x101030 + 256 * ld.val) ∧
    s.gatedUnless (s.get F.CLK_BLKEN_CXL = 1) (.wdraw ld) (0x101028 + 256 * ld.val) := by
  refine ⟨fun w => ⟨?_, ?_, ?_⟩, fun f l => ?_, ?_, ?_, ?_⟩
  · exact State.gatedUnless_control (exec_ldPartWrite s w ld v) (regOffset_ld rfl _) (by omega)
  · exact State.gatedUnless_control (exec_ldFmwinWrite s w ld v) (regOffset_ld rfl _) (by omega)
  · exact State.gatedUnless_control (exec_ldMsixWrite s w ld v) (regOffset_ld rfl _) (by omega)
  · exact State.gatedUnless_ownWrite (exec_apertureSelect s ld f l) (regOffset_ld rfl _) (by omega)
  · exact State.gatedUnless_ownWrite (exec_ringEnable s ld v) (regOffset_ld rfl _) (by omega)
  · exact State.gatedUnless_ownWrite (exec_evqEnable s ld v) (regOffset_ld rfl _) (by omega)
  · have hoff : regOffset .CXL_LDk_RINGPTR ld.val 0 = 0x101028 + 256 * ld.val := regOffset_ld rfl _
    exact hoff ▸ State.gatedUnless_enable rfl (by omega)

/-- The commands of the other blocks are turned away by their stopped clocks. -/
theorem blockCommands_turnedAway (s : State) (p : Fin 32) (f : Fin 64) :
    s.gatedUnless (s.get F.CLK_BLKEN_MRK = 1) (.mrkMigrate f) 0x80020 ∧
    s.gatedUnless (s.get F.CLK_BLKEN_MRK = 1) .mrkSwRst 0x80000 ∧
    (∀ (j : Fin 4) (id : BitVec 16) (k : BitVec 6) (m : BitVec 12),
      s.gatedUnless (s.get F.CLK_BLKEN_MRK = 1) (.ringSetup j id k m) (0x80100 + 64 * j.val) ∧
      s.gatedUnless (s.get F.CLK_BLKEN_INT = 1) (.digestNow j) (0x50100 + 32 * j.val)) ∧
    s.gatedUnless (s.get F.CLK_BLKEN_INT = 1) .intSwRst 0x50000 ∧
    s.gatedUnless (s.get F.CLK_BLKEN_WAF = 1) .mgtSwRst 0x8000 ∧
    s.gatedUnless ((s.get F.CLK_PORTEN_PORTS).testBit p = true) (.selTrain p) (0x200008 + 0x8000 * p.val) ∧
    s.gatedUnless ((s.get F.CLK_PORTEN_PORTS).testBit p = true) (.selSwRst p) (0x200008 + 0x8000 * p.val) ∧
    s.gatedUnless (s.get F.CLK_FLDf_CTL_BLK_EN f = 1) (.fabSwRst f) (0x1000000 + 0x40000 * f.val + 0x800) ∧
    (∀ l : Fin 512, s.gatedUnless (s.get F.CLK_FLDf_CTL_BLK_EN (l.val / 8) = 1) (.dlSnapshotRelease l)
      (0x1010808 + 0x40000 * (l.val / 8) + 0x4000 * (l.val % 8))) := by
  have hsel : regOffset .SEL_CTL p.val 0 = 0x200008 + 0x8000 * p.val := by
    show 0x200000 + p.val * 0x8000 + 0x8 + 8 * 0 = _
    omega
  have hfab : regOffset .FAB_CTL f.val 0 = 0x1000000 + 0x40000 * f.val + 0x800 := by
    show 0x1000000 + f.val * 0x40000 + 0x800 + 8 * 0 = _
    omega
  refine ⟨?_, ?_, fun j id k m => ⟨?_, ?_⟩, ?_, ?_, ?_, ?_, ?_, fun l => ?_⟩
  · refine State.gatedUnless_of_exec (by decide) fun h => ?_
    have hf : s.flag F.CLK_BLKEN_MRK = false := (s.flag_eq_false_iff _ _ _).2 h
    show execMrkMigrate f s = _
    rw [execMrkMigrate, hf]
    rfl
  · exact State.gatedUnless_enable rfl (by decide)
  · exact State.gatedUnless_enable (t := s.setUpRing j.val id.toNat k.toNat m.toNat) (by
      show execRingSetup j id k m s = _
      simp [execRingSetup, regOffset, Reg.place, blockOffset]) (by omega)
  · exact State.gatedUnless_enable (en := F.CLK_BLKEN_INT)
      (t := s.writeDigestCfg j.val (s.get F.INT_DIGEST_CFGj_PERIOD 0 j.val + 2 ^ 63)) (by
        show execDigestNow j s = _
        simp [execDigestNow, regOffset, Reg.place, blockOffset]) (by omega)
  · exact State.gatedUnless_ifClocked (r := .INT_CTL) (u := 0) (n := 0) rfl (s.flag_eq_false_iff _ _ _).2 rfl (by decide)
  · exact State.gatedUnless_ifClocked (r := .MGT_CTL) (u := 0) (n := 0) rfl (s.flag_eq_false_iff _ _ _).2 rfl (by decide)
  · exact State.gatedUnless_ifClocked (r := .SEL_CTL) (u := p.val) (n := 0) rfl Bool.eq_false_iff.2 hsel (by omega)
  · exact State.gatedUnless_ifClocked (r := .SEL_CTL) (u := p.val) (n := 0) rfl Bool.eq_false_iff.2 hsel (by omega)
  · exact State.gatedUnless_ifClocked (r := .FAB_CTL) (u := f.val) (n := 0) rfl (s.flag_eq_false_iff _ _ _).2 hfab
      (by omega)
  · have hdl : regOffset .FAB_DL_STAT l.val 0 = 0x1010808 + 0x40000 * (l.val / 8) + 0x4000 * (l.val % 8) := by
      show 0x1000000 + l.val / 8 * 0x40000 + 0x10000 + l.val % 8 * 0x4000 + 0x808 + 8 * 0 = _
      omega
    exact State.gatedUnless_ifClocked (r := .FAB_DL_STAT) (u := l.val) (n := 0) rfl (s.flag_eq_false_iff _ _ _).2 hdl
      (by omega)

/-! ### A register written under its access codes (00 R3) -/

/-- What a copy of a field holds after bits are written to it. -/
def Fld.written (f : Fld) (old new : Nat) : Nat :=
  match f.acc with
  | .rw => new
  | .w1c => (old - (old &&& new)) % 2 ^ f.width
  | .w1s => (old ||| new) % 2 ^ f.width
  | _ => old

/-- Access codes under which a write keeps the field. -/
def Access.keeps : Access → Bool
  | .ro | .wo => true
  | .rw | .w1c | .w1s => false

theorem Fld.slice_mod (f : Fld) (j v : Nat) : f.slice j v % 2 ^ f.width = f.slice j v := Nat.mod_mod _ _

theorem State.get_writeFld_same (s : State) (f : Fld) (u n j v : Nat) :
    (s.writeFld f u n j v).get f u (n * f.rep + j) = f.written (s.get f u (n * f.rep + j)) (f.slice j v) := by
  cases hacc : f.acc <;> simp [State.writeFld, Fld.written, hacc, Fld.slice_mod]

theorem State.get_writeFld_other (s : State) {f g : Fld} {u n j u' i : Nat} (v : Nat)
    (h : f.acc.keeps = true ∨ fldKey g u' i ≠ fldKey f u (n * f.rep + j)) :
    (s.writeFld f u n j v).get g u' i = s.get g u' i := by
  cases hacc : f.acc <;> simp_all [State.writeFld, Access.keeps, State.get_put_key]

theorem State.regsOnly_writeFld (s : State) (f : Fld) (u n j v : Nat) : s.regsOnly (s.writeFld f u n j v) := by
  unfold State.writeFld
  cases f.acc
  case ro | wo => exact State.regsOnly.refl s
  case rw | w1s => exact s.regsOnly_put ..
  case w1c => exact (s.regsOnly_put ..).trans (State.regsOnly_untick ..)

/-- The copies of fields that a register holds, in the order in which a write takes them. -/
def Reg.copies (r : Reg) : List (Fld × Nat) := r.fields.flatMap fun f => (List.range f.rep).map fun j => (f, j)

theorem Reg.mem_copies {r : Reg} {f : Fld} {j : Nat} : (f, j) ∈ r.copies ↔ f ∈ r.fields ∧ j < f.rep := by
  simp only [Reg.copies, List.mem_flatMap, List.mem_map, List.mem_range, Prod.mk.injEq]
  exact ⟨fun ⟨_, hf, _, hj, he, hk⟩ => he ▸ hk ▸ ⟨hf, hj⟩, fun ⟨hf, hj⟩ => ⟨f, hf, j, hj, rfl, rfl⟩⟩

/-- Copies of fields written in order. -/
def State.writeCopies (s : State) (l : List (Fld × Nat)) (u n v : Nat) : State :=
  l.foldl (fun s e => s.writeFld e.1 u n e.2 v) s

theorem State.writePlain_eq_writeCopies (s : State) (r : Reg) (u n v : Nat) :
    s.writePlain r u n v = s.writeCopies r.copies u n v := by
  simp [State.writePlain, State.writeFldAll, State.writeCopies, Reg.copies, List.foldl_flatMap, List.foldl_map]

/-- The key of a copy of a field, in a register's copy `n`. -/
def copyKey (u n : Nat) (e : Fld × Nat) : Nat := fldKey e.1 u (n * e.1.rep + e.2)

theorem State.get_writeCopies_other {g : Fld} {u n u' i : Nat} (v : Nat) (l : List (Fld × Nat))
    (h : ∀ e ∈ l, e.1.acc.keeps = true ∨ fldKey g u' i ≠ copyKey u n e) :
    ∀ s : State, (s.writeCopies l u n v).get g u' i = s.get g u' i := by
  induction l with
  | nil => exact fun _ => rfl
  | cons a l ih =>
    intro s
    have htail := ih (fun e he => h e (List.mem_cons_of_mem a he)) (s.writeFld a.1 u n a.2 v)
    exact htail.trans (s.get_writeFld_other v (h a List.mem_cons_self))

/-- Where the copies have keys of their own, each takes its bits of the value. -/
theorem State.get_writeCopies_mem {u n : Nat} (v : Nat) {l : List (Fld × Nat)} {e : Fld × Nat} (he : e ∈ l)
    (hl : l.Pairwise fun a b => copyKey u n a ≠ copyKey u n b) : ∀ s : State,
    (s.writeCopies l u n v).get e.1 u (n * e.1.rep + e.2) =
      e.1.written (s.get e.1 u (n * e.1.rep + e.2)) (e.1.slice e.2 v) := by
  induction l with
  | nil => simp at he
  | cons a l ih =>
    intro s
    obtain ⟨ha, hl⟩ := List.pairwise_cons.1 hl
    obtain rfl | he := List.mem_cons.1 he
    · have htail := State.get_writeCopies_other (u' := u) (i := n * e.1.rep + e.2) v l (fun b hb => .inr (ha b hb))
        (s.writeFld e.1 u n e.2 v)
      exact htail.trans (s.get_writeFld_same ..)
    · have hhead := s.get_writeFld_other (g := e.1) (u' := u) (i := n * e.1.rep + e.2) v (.inr (ha e he).symm)
      exact hhead ▸ ih he hl (s.writeFld a.1 u n a.2 v)

theorem State.regsOnly_writePlain (s : State) (r : Reg) (u n v : Nat) : s.regsOnly (s.writePlain r u n v) := by
  rw [State.writePlain_eq_writeCopies]
  exact State.regsOnly_foldl _ (fun t e => t.regsOnly_writeFld ..) _ s

/-! ### The register tables (07 Tables 7.2, 7.3) -/

theorem Block.place_block (b : Block) : ∀ r ∈ b.regs, r.place.block = b := by
  cases b <;> decide

theorem Block.copies_fit (b : Block) : ∀ r ∈ b.regs, ∀ f ∈ r.fields, r.place.count * f.rep ≤ 2 ^ 12 := by
  cases b <;> decide

/-- No two fields of a register share a number, and no two copies of a field a place. -/
theorem Block.copies_apart (b : Block) : ∀ r ∈ b.regs,
    r.copies.Pairwise fun a e => a.1.id ≠ e.1.id ∨ (a.1.rep = e.1.rep ∧ a.2 ≠ e.2) := by
  cases b <;> decide

theorem Block.unit_fits (b : Block) : ∀ r ∈ b.regs, r.place.count ≤ 2 ^ 20 := by
  cases b <;> decide

/-- A register's copy in its table: a unit of at most 20 bits and one of its copies. -/
structure Reg.Stands (r : Reg) (u n : Nat) : Prop where
  listed : r ∈ r.place.block.regs
  unit : u < 2 ^ 20
  copy : n < r.place.count

theorem Reg.Stands.index_lt {r : Reg} {u n : Nat} (h : r.Stands u n) {f : Fld} {j : Nat} (hf : f ∈ r.fields)
    (hj : j < f.rep) : n * f.rep + j < 2 ^ 12 := by
  calc n * f.rep + j < (n + 1) * f.rep := by rw [Nat.succ_mul]; omega
    _ ≤ r.place.count * f.rep := Nat.mul_le_mul_right _ h.copy
    _ ≤ 2 ^ 12 := Block.copies_fit _ r h.listed f hf

theorem Reg.Stands.keys_apart {r : Reg} {u n : Nat} (h : r.Stands u n) :
    r.copies.Pairwise fun a b => copyKey u n a ≠ copyKey u n b := by
  refine (Block.copies_apart _ r h.listed).imp_of_mem fun {a b} ha hb hab => ?_
  obtain ⟨hfa, hja⟩ := Reg.mem_copies.1 ha
  obtain ⟨hfb, hjb⟩ := Reg.mem_copies.1 hb
  have hia := h.index_lt hfa hja
  have hib := h.index_lt hfb hjb
  obtain hid | ⟨hrep, hj⟩ := hab
  · exact fldKey_ne_id hid h.unit h.unit hia hib
  · refine fldKey_ne_place (fun hp => hj ?_) h.unit h.unit hia hib
    rw [hrep] at hp
    omega

/-- A field that no changeable field of a register is, keeps its value. -/
theorem Reg.Stands.get_writePlain_other {r : Reg} {u n : Nat} (h : r.Stands u n) (s : State) (v : Nat) {g : Fld}
    {u' i : Nat} (hg : ∀ f ∈ r.fields, f.acc.keeps = true ∨ g.id ≠ f.id) (hu : u' < 2 ^ 20) (hi : i < 2 ^ 12) :
    (s.writePlain r u n v).get g u' i = s.get g u' i := by
  rw [State.writePlain_eq_writeCopies]
  refine State.get_writeCopies_other v _ (fun e he => ?_) s
  obtain ⟨hf, hj⟩ := Reg.mem_copies.1 he
  exact (hg e.1 hf).imp_right fun hid => fldKey_ne_id hid hu h.unit hi (h.index_lt hf hj)

theorem Reg.Stands.fieldsKept_writePlain {r : Reg} {u n : Nat} (h : r.Stands u n) (s : State) (v : Nat) :
    s.fieldsKept (s.writePlain r u n v) r.fields := fun _ _ _ hg hu hi =>
  h.get_writePlain_other s v (fun _ hf => .inr fun he => hg (he ▸ List.mem_map_of_mem hf)) hu hi

theorem Reg.Stands.get_writePlain {r : Reg} {u n : Nat} (h : r.Stands u n) (s : State) (v : Nat) {f : Fld} {j : Nat}
    (hf : f ∈ r.fields) (hj : j < f.rep) : (s.writePlain r u n v).get f u (n * f.rep + j) =
      f.written (s.get f u (n * f.rep + j)) (f.slice j v) := by
  rw [State.writePlain_eq_writeCopies]
  exact State.get_writeCopies_mem v (Reg.mem_copies.2 ⟨hf, hj⟩) h.keys_apart s

/-! ### The power controller after a plain write (19 R645, R646) -/

/-- The fields that drive FAULT_N. -/
def faultFields : List Fld :=
  [F.PWR_STAT_UNATTAIN, F.PWR_FLDf_STAT_REASON, F.PWR_FLDf_STAT_TEMP, F.PWR_THERM_CRIT]

/-- Of the fields that drive FAULT_N, only PWR_THERM lets a write change one. -/
theorem Block.faultFields_kept (b : Block) : ∀ r ∈ b.regs, r ≠ .PWR_THERM →
    ∀ g ∈ faultFields, ∀ f ∈ r.fields, f.acc.keeps = true ∨ g.id ≠ f.id := by
  cases b <;> decide

theorem State.fault_congr {s t : State} (h : ∀ g ∈ faultFields, ∀ u < 64, t.get g u = s.get g u) :
    t.fault = s.fault := by
  have hu : t.get F.PWR_STAT_UNATTAIN = s.get F.PWR_STAT_UNATTAIN := h _ (by simp [faultFields]) 0 (by decide)
  have hc : t.get F.PWR_THERM_CRIT = s.get F.PWR_THERM_CRIT := h _ (by simp [faultFields]) 0 (by decide)
  have hr (u : Nat) (hu : u < 64) : t.get F.PWR_FLDf_STAT_REASON u = s.get F.PWR_FLDf_STAT_REASON u :=
    h _ (by simp [faultFields]) u hu
  have ht (u : Nat) (hu : u < 64) : t.get F.PWR_FLDf_STAT_TEMP u = s.get F.PWR_FLDf_STAT_TEMP u :=
    h _ (by simp [faultFields]) u hu
  rw [State.fault, State.fault, State.flag, State.flag, hu, hc]
  congr 1
  rw [Bool.eq_iff_iff]
  simp only [List.any_eq_true, List.mem_range]
  exact exists_congr fun u => and_congr_right fun hu => by rw [hr u hu, ht u hu]

theorem Reg.Stands.fault_writePlain {r : Reg} {u n : Nat} (h : r.Stands u n) (hr : r ≠ .PWR_THERM) (s : State) (v : Nat) :
    (s.writePlain r u n v).fault = s.fault :=
  State.fault_congr fun g hg _ hu => h.get_writePlain_other s v (Block.faultFields_kept _ r h.listed hr g hg)
    (by omega) (by decide)

theorem State.regsOnly_noteThrottles (s : State) : s.regsOnly s.noteThrottles :=
  State.regsOnly_foldl _ (fun t r => State.regsOnly_foldl _ (fun t f => t.regsOnly_tick f 0 r) _ t) _ s

theorem State.get_noteThrottles (s : State) (f : Fld) (u n : Nat) : s.noteThrottles.get f u n = s.get f u n := by
  have hregs : s.noteThrottles.regs = s.regs :=
    List.foldlRecOn (motive := fun t : State => t.regs = s.regs) _ _ rfl fun t ht r _ =>
      List.foldlRecOn (motive := fun t : State => t.regs = s.regs) _ _ ht fun _ ht _ _ => ht
  rw [State.get, hregs, State.get]

theorem State.noteFault_eq {s old : State} (h : s.fault = old.fault) : s.noteFault old = s.noteThrottles := by
  simp [State.noteFault, h]

/-! ### Places of BAR0 (07 R255, R256; 02 Table 2.6) -/

/-- A place that a BAR0 offset can name: a register's copy there stands in its table. -/
inductive RegSpace.WellPlaced : RegSpace → Prop
  | reg {r : Reg} {u n : Nat} (stands : r.Stands u n) : WellPlaced (.reg r u n)
  | window (c : Lcn) (off : Nat) : WellPlaced (.window c off)
  | slot (n off : Nat) : WellPlaced (.slot n off)
  | distance (off : Nat) : WellPlaced (.distance off)
  | empty (b : Option (Block × Nat)) : WellPlaced (.empty b)
  | outside : WellPlaced .outside

theorem Block.regAt_some {b : Block} {off i : Nat} {r : Reg} (h : b.regAt off = some (r, i)) :
    r ∈ b.regs ∧ i < r.place.count := by
  obtain ⟨r', hmem, hr⟩ := List.exists_of_findSome?_eq_some h
  simp only [Option.ite_none_right_eq_some, Option.some.injEq, Prod.mk.injEq] at hr
  obtain ⟨⟨-, -, hlt⟩, rfl, rfl⟩ := hr
  exact ⟨hmem, hlt⟩

theorem Block.stands {b : Block} {r : Reg} {u n : Nat} (hr : r ∈ b.regs) (hu : u < 2 ^ 20) (hn : n < r.place.count) :
    r.Stands u n :=
  ⟨(b.place_block r hr).symm ▸ hr, hu, hn⟩

theorem regAtUnit_wellPlaced (b : Block) {u : Nat} (off : Nat) (hu : u < 2 ^ 20) : (regAtUnit b u off).WellPlaced := by
  unfold regAtUnit
  split
  next r i h =>
    obtain ⟨hr, hi⟩ := Block.regAt_some h
    split
    · exact .reg (Block.stands hr (by have := b.unit_fits r hr; omega) (by omega))
    · exact .reg (Block.stands hr hu hi)
  next => exact .empty _

theorem windowAt_wellPlaced (c : Lcn) (off : Nat) : (windowAt c off).WellPlaced := by
  unfold windowAt
  split
  · split
    next r i hr =>
      obtain ⟨hr, hi⟩ := Block.regAt_some hr
      exact .reg (Block.stands hr c.isLt hi)
    next => exact .empty _
  · exact .window c off

theorem bar0At_wellPlaced (o : Nat) : (bar0At o).WellPlaced := by
  unfold bar0At
  simp only
  split_ifs
  · exact .distance _
  · exact .empty _
  · split
    · exact regAtUnit_wellPlaced _ _ (by decide)
    · exact .empty _
  · exact regAtUnit_wellPlaced _ _ (by decide)
  · exact .empty _
  · exact regAtUnit_wellPlaced _ _ (by omega)
  · exact regAtUnit_wellPlaced _ _ (by omega)
  · exact regAtUnit_wellPlaced _ _ (by omega)
  · exact .empty _
  · exact .empty _

theorem State.bar0_wellPlaced (s : State) (ld o : Nat) : (s.bar0 ld o).WellPlaced := by
  unfold State.bar0
  split
  · exact bar0At_wellPlaced o
  · exact windowAt_wellPlaced _ _

/-! ### What a write of a register does (00 R3, R6) -/

/-- The registers with something behind them: a write of one does more than its access codes say. -/
def specialRegs : List Reg :=
  [.CORE_CTL, .CORE_ACC_OWN, .CORE_SRSEED, .CORE_SRCMD, .CORE_SRLANEl, .SPX_CMP_CMD, .SPX_SEL_CMD, .SPL_CMD,
   .TACK_STATEn, .CORE_PAT_CTL, .CORE_PAT_LOAD, .CORE_RING_LAYOUT, .CORE_RING_TACKS, .CORE_RING_CMD, .MRK_CTL,
   .MRK_MIGRATE, .MRK_RINGj_SETUP, .FAB_CTL, .FAB_DL_STAT, .SEL_CTL, .INT_CTL, .INT_DIGEST_CFGj, .BRG_CMD, .BRG_RST,
   .BRG_DARN_CMD, .RST_CTL, .RST_BLOCK, .CLK_BLKEN, .CLK_FLDf_CTL, .TRD_PUSH, .PWR_CTL, .PWR_THERM,
   .PWR_PARK_ORDERn, .PWR_FLDf_CTL, .NVS_CTL, .THM_UPD_CMD, .MGT_CTL, .CXL_LDk_CFG, .CXL_LDk_PART, .CXL_LDk_FMWIN,
   .CXL_LDk_MSIX, .CXL_LDk_RING, .CXL_LDk_RINGPTR, .CXL_LDk_EVQ]

theorem State.writeCoreReg_plain (s : State) {r : Reg} (h : r ∉ specialRegs) (c : Lcn) (n : Nat) (t : Fin 4) (v : Nat) :
    s.writeCoreReg r c n t v = s.writePlain r c.toNat n v := by
  unfold State.writeCoreReg
  split
  case h_15 => rfl
  all_goals simp [specialRegs] at h

theorem State.writeCxlReg_plain (s : State) {r : Reg} (h : r ∉ specialRegs) (u n v : Nat) :
    s.writeCxlReg r u n v = s.writePlain r u n v := by
  unfold State.writeCxlReg
  split
  case h_8 => rfl
  all_goals simp [specialRegs] at h

theorem State.writeBlockReg_plain (s : State) {r : Reg} (h : r ∉ specialRegs) (u n v : Nat) :
    s.writeBlockReg r u n v = s.writePlain r u n v := by
  unfold State.writeBlockReg
  split
  case h_24 => rfl
  all_goals simp [specialRegs] at h

/-- What a defined write of a register leaves. -/
def State.writtenReg (s : State) (r : Reg) (u n : Nat) (t : Fin 4) (v : Nat) : State :=
  match r.place.block with
  | .core => s.writeCoreReg r (BitVec.ofNat 20 u) n t v
  | .cxl => s.writeCxlReg r u n v
  | _ => (s.writeBlockReg r u n v).noteFault s

/-- Outside the cue tables a write of a register faults where the value is undefined and resets nothing. -/
theorem State.writeReg_eq (s : State) {r : Reg} (ha : r ≠ .FLD_CUEn_A) (hb : r ≠ .FLD_CUEn_B) (u n : Nat) (t : Fin 4)
    (v : Nat) : s.writeReg r u n t v =
      if r.resets v = true ∨ r.defines v = true then .next (s.writtenReg r u n t v) else .fault .undefinedFieldValue := by
  unfold State.writeReg
  rw [if_neg (by simpa using ha), if_neg (by simpa using hb)]
  by_cases hruns : r.resets v = true ∨ r.defines v = true
  · rw [if_pos hruns, if_neg (by simpa using or_iff_not_imp_left.1 hruns)]
    rfl
  · rw [if_neg hruns, if_pos (by simpa using hruns)]

/-- Another state's registers take the effect of a plain write of a register: each of its fields by its access code, and no
other field. -/
structure State.TakesPlain (s t : State) (r : Reg) (u n v : Nat) : Prop where
  kept : s.fieldsKept t r.fields
  rest : s.regsOnly t
  fields : ∀ f ∈ r.fields, ∀ j < f.rep, t.get f u (n * f.rep + j) = f.written (s.get f u (n * f.rep + j)) (f.slice j v)

theorem Reg.Stands.writePlain_takesPlain {r : Reg} {u n : Nat} (h : r.Stands u n) (s : State) (v : Nat) :
    s.TakesPlain (s.writePlain r u n v) r u n v :=
  ⟨h.fieldsKept_writePlain s v, s.regsOnly_writePlain r u n v, fun _ hf _ hj => h.get_writePlain s v hf hj⟩

/-- The counters of the throttling reasons are no registers of their own. -/
theorem State.TakesPlain.noteThrottles {s t : State} {r : Reg} {u n v : Nat} (h : s.TakesPlain t r u n v) :
    s.TakesPlain t.noteThrottles r u n v where
  kept g u' i hg hu hi := (t.get_noteThrottles g u' i).trans (h.kept g u' i hg hu hi)
  rest := h.rest.trans t.regsOnly_noteThrottles
  fields f hf j hj := (t.get_noteThrottles f u _).trans (h.fields f hf j hj)

/-- A write of a register with nothing behind it is plain. -/
theorem Reg.Stands.writtenReg_takesPlain {r : Reg} {u n : Nat} (h : r.Stands u n) (hr : r ∉ specialRegs) (s : State)
    (t : Fin 4) (v : Nat) : s.TakesPlain (s.writtenReg r u n t v) r u n v := by
  have hplain := h.writePlain_takesPlain s v
  unfold State.writtenReg
  split
  · rw [State.writeCoreReg_plain s hr, BitVec.toNat_ofNat, Nat.mod_eq_of_lt h.unit]
    exact hplain
  · rw [State.writeCxlReg_plain s hr]
    exact hplain
  · have hther : r ≠ .PWR_THERM := by rintro rfl; simp [specialRegs] at hr
    rw [State.writeBlockReg_plain s hr, State.noteFault_eq (h.fault_writePlain hther s v)]
    exact hplain.noteThrottles

/-! ### Words of a core's window that no register takes (02 R90) -/

theorem testBit_spliceWord (v lo x j : Nat) : (spliceWord v lo x).testBit j =
    if lo ≤ j ∧ j < lo + 64 then x.testBit (j - lo) else v.testBit j := by
  have hsplit : v = 2 ^ lo * (2 ^ 64 * (v / 2 ^ lo / 2 ^ 64) + v / 2 ^ lo % 2 ^ 64) + v % 2 ^ lo := by
    rw [Nat.div_add_mod, Nat.div_add_mod]
  have hsplice : spliceWord v lo x = 2 ^ lo * (2 ^ 64 * (v / 2 ^ lo / 2 ^ 64) + x % 2 ^ 64) + v % 2 ^ lo := by
    have hle : v / 2 ^ lo % 2 ^ 64 * 2 ^ lo ≤ v :=
      (Nat.mul_le_mul_right _ (Nat.mod_le _ _)).trans (Nat.div_mul_le_self v _)
    rw [spliceWord]
    zify [hle]
    zify at hsplit
    linear_combination hsplit
  have hlow : v % 2 ^ lo < 2 ^ lo := Nat.mod_lt _ (by positivity)
  have hmid (m : Nat) : m % 2 ^ 64 < 2 ^ 64 := Nat.mod_lt _ (by norm_num)
  rw [hsplice, Nat.testBit_two_pow_mul_add _ hlow, Nat.testBit_two_pow_mul_add _ (hmid x)]
  conv_rhs => rw [hsplit, Nat.testBit_two_pow_mul_add _ hlow, Nat.testBit_two_pow_mul_add _ (hmid _)]
  by_cases hj : j < lo
  · simp [hj, Nat.not_le.2 hj]
  · by_cases hj' : j - lo < 64
    · rw [if_neg hj, if_pos hj', if_pos (by omega), Nat.testBit_mod_two_pow, decide_eq_true hj', Bool.true_and]
    · rw [if_neg hj, if_neg hj', if_neg (by omega), if_neg hj, if_neg hj']

/-- The bits of a tile or an accumulator with a word replaced. -/
theorem getLsbD_spliceWord {w : Nat} (x : BitVec w) (v : Word) {lo j : Nat} (hj : j < w) :
    (BitVec.ofNat w (spliceWord x.toNat lo v.toNat)).getLsbD j =
      if lo ≤ j ∧ j < lo + 64 then v.getLsbD (j - lo) else x.getLsbD j := by
  rw [BitVec.getLsbD_ofNat, decide_eq_true hj, Bool.true_and, testBit_spliceWord, BitVec.testBit_toNat,
    BitVec.testBit_toNat]

theorem Thread.readP_writeP (th : Thread) (r q : Fin 8) (b : Bool) (hq : q ≠ 0) :
    (th.writeP r b).readP q = if q = r then b else th.readP q := by
  by_cases hr : r = 0
  · rw [Thread.writeP, if_pos hr, if_neg (hr ▸ hq)]
  · have hlt := q.isLt
    simp only [Thread.writeP, if_neg hr, Thread.readP, decide_eq_false hq, Bool.false_or]
    by_cases he : q = r
    · subst he
      simp
    · obtain hbelow | habove := lt_or_gt_of_ne he
      · simp [he, hlt, hbelow]
      · have hsub : q.val - r.val ≠ 0 := Nat.sub_ne_zero_of_lt habove
        simp [he, hlt, hsub]

theorem Thread.writeP_rest (th : Thread) (r : Fin 8) (b : Bool) : { th.writeP r b with p := th.p } = th := by
  unfold Thread.writeP
  split <;> rfl

/-- The predicates of a thread after a word with a byte for each has been written. -/
def Thread.writePreds (th : Thread) (v : Nat) (l : List Nat) : Thread :=
  l.foldl (fun th i => th.writeP (Fin.ofNat 8 i) (decide (v / 256 ^ i % 2 = 1))) th

theorem Thread.writePreds_rest (v : Nat) (l : List Nat) (th : Thread) : { th.writePreds v l with p := th.p } = th :=
  List.foldlRecOn (motive := fun h : Thread => { h with p := th.p } = th) l _ rfl fun h hh i _ =>
    (congrArg (fun g : Thread => { g with p := th.p }) (h.writeP_rest (Fin.ofNat 8 i) _)).trans hh

theorem Thread.readP_writePreds (v : Nat) {k : Fin 8} (hk : k ≠ 0) (l : List Nat) (hl : ∀ i ∈ l, i < 8) : ∀ th : Thread,
    (th.writePreds v l).readP k = if k.val ∈ l then decide (v / 256 ^ k.val % 2 = 1) else th.readP k := by
  induction l with
  | nil => intro th; simp [Thread.writePreds]
  | cons i l ih =>
    intro th
    have hi : i < 8 := hl i List.mem_cons_self
    have htail := ih (fun j hj => hl j (List.mem_cons_of_mem i hj))
      (th.writeP (Fin.ofNat 8 i) (decide (v / 256 ^ i % 2 = 1)))
    refine htail.trans ?_
    by_cases hmem : k.val ∈ l
    · simp [hmem]
    · have hki : k = Fin.ofNat 8 i ↔ k.val = i := by simp only [Fin.ext_iff, Fin.val_ofNat, Nat.mod_eq_of_lt hi]
      rw [if_neg hmem, Thread.readP_writeP _ _ _ _ hk]
      simp only [hki, List.mem_cons, hmem, or_false]
      split_ifs with he
      · rw [he]
      · rfl

/-- Bit 8k of a word. -/
theorem decide_byte_odd (v : Word) (k : Nat) : decide (v.toNat / 256 ^ k % 2 = 1) = v.getLsbD (8 * k) := by
  rw [BitVec.getLsbD, Nat.testBit_eq_decide_div_mod_eq, show (256 : Nat) = 2 ^ 8 from rfl, ← pow_mul]

theorem State.writable_iff (s : State) (c : Lcn) (n : Fin 4) :
    s.writable c n = true ↔ (s.thread c n).st = .stopped ∨ (s.thread c n).st = .halted := by
  unfold State.writable
  cases (s.thread c n).st <;> simp

section
variable (s : State) (c : Lcn) {off : Nat} (v : Word)

/-- Past a thread's registers nothing stands. -/
theorem State.writeWindow_past (h : off < 0x2000) (hpast : 0x188 ≤ off % 0x400) : s.writeWindow c off v.toNat = s := by
  simp only [State.writeWindow]
  rw [if_pos h, if_pos hpast]

theorem State.writeWindow_thread_refused (h : off < 0x2000) (hat : off % 0x400 < 0x188)
    (hw : s.writable c (Fin.ofNat 4 ((off - 0x1000) / 0x400)) = false) :
    s.writeWindow c off v.toNat = s.put F.CORE_STAT_DBG_REJ 1 c.toNat := by
  simp only [State.writeWindow]
  rw [if_pos h, if_neg (by omega), if_pos (by simpa using hw)]

theorem State.writeWindow_scalar (h : off < 0x2000) (hat : off % 0x400 < 0x100) {n : Fin 4}
    (hn : Fin.ofNat 4 ((off - 0x1000) / 0x400) = n) (hw : s.writable c n = true) :
    s.writeWindow c off v.toNat = s.setThread c n ((s.thread c n).writeS (Fin.ofNat 32 (off % 0x400 / 8)) v) := by
  simp only [State.writeWindow]
  rw [if_pos h, if_neg (by omega), hn, if_neg (by simpa using hw), if_pos hat, BitVec.ofNat_toNat, BitVec.setWidth_eq]

theorem State.writeWindow_address (h : off < 0x2000) (hlo : 0x100 ≤ off % 0x400) (hhi : off % 0x400 < 0x180) {n : Fin 4}
    (hn : Fin.ofNat 4 ((off - 0x1000) / 0x400) = n) (hw : s.writable c n = true) :
    s.writeWindow c off v.toNat =
      s.setThread c n ((s.thread c n).writeA (Fin.ofNat 16 ((off % 0x400 - 0x100) / 8)) v) := by
  have hreg : off % 0x400 / 8 % 16 = (off % 0x400 - 0x100) / 8 := by omega
  simp only [State.writeWindow]
  rw [if_pos h, if_neg (by omega), hn, if_neg (by simpa using hw), if_neg (by omega), if_pos hhi, hreg,
    BitVec.ofNat_toNat, BitVec.setWidth_eq]

theorem State.writeWindow_preds (h : off < 0x2000) (hlo : 0x180 ≤ off % 0x400) (hhi : off % 0x400 < 0x188) {n : Fin 4}
    (hn : Fin.ofNat 4 ((off - 0x1000) / 0x400) = n) (hw : s.writable c n = true) :
    ∃ g : Thread, s.writeWindow c off v.toNat = s.setThread c n g ∧ { g with p := (s.thread c n).p } = s.thread c n ∧
      ∀ k : Fin 8, k ≠ 0 → g.readP k = v.getLsbD (8 * k.val) := by
  refine ⟨(s.thread c n).writePreds v.toNat (List.range 8), ?_, Thread.writePreds_rest .., fun k hk => ?_⟩
  · simp only [State.writeWindow]
    rw [if_pos h, if_neg (by omega), hn, if_neg (by simpa using hw), if_neg (by omega), if_neg (by omega)]
    rfl
  · rw [Thread.readP_writePreds _ hk _ (fun _ => List.mem_range.1), if_pos (List.mem_range.2 k.isLt), decide_byte_odd]

theorem State.writeWindow_tile_refused (h : 0x2000 ≤ off) (hview : s.get F.CORE_DBG_VIEW c.toNat ≠ 1)
    (hw : s.writable c (Fin.ofNat 4 ((off - 0x2000) / 0x800)) = false) :
    s.writeWindow c off v.toNat = s.put F.CORE_STAT_DBG_REJ 1 c.toNat := by
  simp only [State.writeWindow]
  rw [if_neg (by omega), if_pos (by simpa [State.flag] using hview), if_pos (by simpa using hw)]

theorem State.writeWindow_tile (h : 0x2000 ≤ off) (hview : s.get F.CORE_DBG_VIEW c.toNat ≠ 1) {n : Fin 4}
    (hn : Fin.ofNat 4 ((off - 0x2000) / 0x800) = n) (hw : s.writable c n = true) :
    ∃ w : Tile, s.writeWindow c off v.toNat =
        s.setThread c n ((s.thread c n).writeT (Fin.ofNat 8 (off % 0x800 / 0x100)) w) ∧
      ∀ j, j < 2048 → w.getLsbD j =
        if off % 0x100 * 8 ≤ j ∧ j < off % 0x100 * 8 + 64 then v.getLsbD (j - off % 0x100 * 8)
        else ((s.thread c n).readT (Fin.ofNat 8 (off % 0x800 / 0x100))).getLsbD j := by
  refine ⟨_, ?_, fun j hj => getLsbD_spliceWord _ v hj⟩
  simp only [State.writeWindow]
  rw [if_neg (by omega), if_pos (by simpa [State.flag] using hview), hn, if_neg (by simpa using hw)]

theorem State.writeWindow_acc_refused (h : 0x2000 ≤ off) (hhi : off < 0x3000) (hview : s.get F.CORE_DBG_VIEW c.toNat = 1)
    (hw : s.writable c (s.owner c ((off - 0x2000) / 0x400)) = false) :
    s.writeWindow c off v.toNat = s.put F.CORE_STAT_DBG_REJ 1 c.toNat := by
  simp only [State.writeWindow]
  rw [if_neg (by omega), if_neg (by simpa [State.flag] using hview), if_pos hhi, if_pos (by simpa using hw)]

theorem State.writeWindow_acc (h : 0x2000 ≤ off) (hhi : off < 0x3000) (hview : s.get F.CORE_DBG_VIEW c.toNat = 1)
    (hw : s.writable c (s.owner c ((off - 0x2000) / 0x400)) = true) :
    ∃ w : Acc, s.writeWindow c off v.toNat = s.setAcc c ((off - 0x2000) / 0x400) w ∧
      ∀ j, j < 8192 → w.getLsbD j =
        if off % 0x400 * 8 ≤ j ∧ j < off % 0x400 * 8 + 64 then v.getLsbD (j - off % 0x400 * 8)
        else (s.acc c ((off - 0x2000) / 0x400)).getLsbD j := by
  refine ⟨_, ?_, fun j hj => getLsbD_spliceWord _ v hj⟩
  simp only [State.writeWindow]
  rw [if_neg (by omega), if_neg (by simpa [State.flag] using hview), if_pos hhi, if_neg (by simpa using hw)]

theorem State.writeWindow_pastAccs (h : 0x3000 ≤ off) (hview : s.get F.CORE_DBG_VIEW c.toNat = 1) :
    s.writeWindow c off v.toNat = s := by
  simp only [State.writeWindow]
  rw [if_neg (by omega), if_neg (by simpa [State.flag] using hview), if_neg (by omega)]

end

/-! ### A host's write at its BAR0 (14 R500, R513; 18 R611; 02 R88) -/

theorem RegSpace.isControl_iff (p : RegSpace) (o : Nat) : p.isControl o = true ↔
    p.windowCore = none ∧ ((∃ r u n, p = .reg r u n) ∨ (0x71000 ≤ o ∧ o < 0x72000)) := by
  unfold RegSpace.isControl
  cases p <;> simp [inUpdBuf]

section
variable (s : State) {ld o : Nat} (v : Nat)

theorem State.hostWriteAt_refused (h : s.hostWrites ld (s.bar0 ld o) = false) :
    s.hostWriteAt ld o v = .next (if (s.bar0 ld o).isControl o then s.ctlError ld else s) := by
  simp only [State.hostWriteAt]
  rw [if_pos (by simpa using h)]

theorem State.writeSpace_unbacked {p : RegSpace} (hb : s.placeUnbacked p = true) (t : Fin 4) :
    s.writeSpace o p t v = .next s := by
  unfold State.writeSpace
  rw [if_pos hb]

theorem State.writeSpace_reg {r : Reg} {u n : Nat} (hb : s.placeUnbacked (.reg r u n) = false) (t : Fin 4) :
    s.writeSpace o (.reg r u n) t v = s.writeReg r u n t v := by
  unfold State.writeSpace
  rw [if_neg (by simp [hb])]

theorem State.writeSpace_window {c : Lcn} {off : Nat} (hb : s.placeUnbacked (.window c off) = false) (t : Fin 4) :
    s.writeSpace o (.window c off) t v = .next (s.writeWindow c off v) := by
  unfold State.writeSpace
  rw [if_neg (by simp [hb])]

theorem State.hostWriteAt_unbacked (h : s.hostWrites ld (s.bar0 ld o) = true) (hb : s.placeUnbacked (s.bar0 ld o) = true) :
    s.hostWriteAt ld o v = .next s := by
  simp only [State.hostWriteAt]
  rw [if_neg (by simpa using h), if_neg (by simp [hb]), s.writeSpace_unbacked v hb]

theorem State.hostWriteAt_gated (h : s.hostWrites ld (s.bar0 ld o) = true) (hb : s.placeUnbacked (s.bar0 ld o) = false)
    (hc : s.placeClocked (s.bar0 ld o) = false) : s.hostWriteAt ld o v = .next (s.gatedError o) := by
  simp only [State.hostWriteAt]
  rw [if_neg (by simpa using h), if_pos (by simp [hb, hc])]

/-- A write that nothing turns away is done at its place. -/
theorem State.hostWriteAt_reaches (h : s.hostWrites ld (s.bar0 ld o) = true ∧ s.placeUnbacked (s.bar0 ld o) = false ∧
    s.placeClocked (s.bar0 ld o) = true) : s.hostWriteAt ld o v = s.writeSpace o (s.bar0 ld o) 0 v := by
  obtain ⟨hmay, hb, hc⟩ := h
  simp only [State.hostWriteAt]
  rw [if_neg (by simpa using hmay), if_neg (by simp [hb, hc])]

theorem State.hostWriteAt_reg {r : Reg} {u n : Nat} (hp : s.bar0 ld o = .reg r u n)
    (h : s.hostWrites ld (s.bar0 ld o) = true ∧ s.placeUnbacked (s.bar0 ld o) = false ∧
      s.placeClocked (s.bar0 ld o) = true) : s.hostWriteAt ld o v = s.writeReg r u n 0 v := by
  rw [s.hostWriteAt_reaches v h, hp, s.writeSpace_reg v (hp ▸ h.2.1)]

theorem State.hostWriteAt_window {c : Lcn} {off : Nat} (hp : s.bar0 ld o = .window c off)
    (h : s.hostWrites ld (s.bar0 ld o) = true ∧ s.placeUnbacked (s.bar0 ld o) = false ∧
      s.placeClocked (s.bar0 ld o) = true) : s.hostWriteAt ld o v = .next (s.writeWindow c off v) := by
  rw [s.hostWriteAt_reaches v h, hp, s.writeSpace_window v (hp ▸ h.2.1)]

end

/-! ### The settlement -/

/-- A host's write of a register outside the cue tables, once it reaches it. -/
theorem State.registerWrite_reg (s : State) (ld : Fin 16) (o : BitVec 26) (v : Word) {r : Reg} {u n : Nat}
    (hp : s.bar0 ld o.toNat = .reg r u n)
    (h : s.hostWrites ld (s.bar0 ld o.toNat) = true ∧ s.placeUnbacked (s.bar0 ld o.toNat) = false ∧
      s.placeClocked (s.bar0 ld o.toNat) = true) (ha : r ≠ .FLD_CUEn_A) (hb : r ≠ .FLD_CUEn_B) :
    exec (.registerWrite ld o v) s = if r.resets v.toNat = true ∨ r.defines v.toNat = true then
      .next (s.writtenReg r u n 0 v.toNat) else .fault .undefinedFieldValue :=
  (s.hostWriteAt_reg v.toNat hp h).trans (s.writeReg_eq ha hb u n 0 v.toNat)

/-- The register that a BAR0 offset names stands in its table. -/
theorem State.bar0_stands {s : State} {ld o : Nat} {r : Reg} {u n : Nat} (hp : s.bar0 ld o = .reg r u n) :
    r.Stands u n := by
  have hplaced := s.bar0_wellPlaced ld o
  rw [hp] at hplaced
  cases hplaced with
  | reg stands => exact stands

/-- The clauses of a host's write that is turned away before it reaches its place. -/
theorem registerWrite_turnedAway (s : State) (ld : Fin 16) (o : BitVec 26) (v : Word) :
    let p := s.bar0 ld o.toNat
    let i := Instr.registerWrite ld o v
    let may := s.hostWrites ld p = true
    (¬may → p.isControl o.toNat = false → exec i s = .next s) ∧
    (¬may → p.isControl o.toNat = true → ∃ t, exec i s = .next t ∧
      s.counts t F.CXL_CTLERR_DISCARDS F.CXL_CTLERR_SAT F.CXL_CTLERR_LAST_LD ld) ∧
    (may → s.placeUnbacked p = true → exec i s = .next s) ∧
    (may → s.placeUnbacked p = false → s.placeClocked p = false → ∃ t, exec i s = .next t ∧
      s.counts t F.CLK_GATEDERR_COUNT F.CLK_GATEDERR_SAT F.CLK_GATEDERR_LAST o.toNat) := by
  refine ⟨fun hmay hctl => ?_, fun hmay hctl => ⟨_, ?_, s.counts_ctlError ld.isLt⟩, fun hmay hb => ?_,
    fun hmay hb hc => ⟨_, s.hostWriteAt_gated v.toNat hmay hb hc, s.counts_gatedError o.isLt⟩⟩
  · refine (s.hostWriteAt_refused v.toNat (Bool.eq_false_iff.2 hmay)).trans ?_
    rw [hctl]
    rfl
  · refine (s.hostWriteAt_refused v.toNat (Bool.eq_false_iff.2 hmay)).trans ?_
    rw [hctl]
    rfl
  · exact s.hostWriteAt_unbacked v.toNat hmay hb

/-- Settles O48. Each command of one register stands behind its clock gate (`gatedUnless`, `windowWrite`), and
REGISTER_WRITE follows the order in which `hostWriteAt` turns a write away; a write that reaches a plain register takes
effect field by field (`TakesPlain`), and one that reaches a core's window word by word. -/
theorem registerWrites : Obligations.RegisterWrites := by
  refine ⟨fun s c n p f ld v => ?_, fun s ld o v => ?_⟩
  · obtain ⟨hcmp, hsel, hspl, hpat, hsw, hring, hlayout, htacks⟩ := windowCommands_turnedAway s c n v
    obtain ⟨hparts, haperture, hringEn, hevq, hwdraw⟩ := hostAttachCommands_turnedAway s ld v
    obtain ⟨hmig, hmrk, hsetup, hint, hmgt, htrain, hselRst, hfab, hdl⟩ := blockCommands_turnedAway s p f
    exact ⟨hcmp, hsel, hspl, hpat, hsw, hring, hlayout, htacks, hparts, haperture f, hringEn, hevq, hwdraw, hmig, hmrk,
      hsetup, hint, hmgt, htrain, hselRst, hfab, hdl⟩
  · intro p i may reaches only control special
    obtain ⟨hquiet, hcounted, hunbacked, hgated⟩ := registerWrite_turnedAway s ld o v
    have hcontrol : p.isControl o.toNat = true ↔ control := RegSpace.isControl_iff p o.toNat
    refine ⟨fun hmay hctl => hquiet hmay (Bool.eq_false_iff.2 (hctl ∘ hcontrol.1)), fun hmay hctl => ?_, hunbacked,
      fun hmay hb hc => ?_, fun r u n hp hr ha hb => ?_, fun c off hp _ hr => ?_⟩
    · obtain ⟨t, hexec, hcounts⟩ := hcounted hmay (hcontrol.2 hctl)
      exact ⟨t, hexec, hcounts.only⟩
    · obtain ⟨t, hexec, hcounts⟩ := hgated hmay hb hc
      exact ⟨t, hexec, hcounts.only⟩
    · have hexec := s.registerWrite_reg ld o v hp hr ha hb
      refine ⟨fun hruns => hexec.trans (if_neg hruns), fun hruns => ⟨_, hexec.trans (if_pos hruns)⟩,
        fun hruns hplain => ?_⟩
      obtain ⟨hkept, hrest, hfields⟩ := (State.bar0_stands hp).writtenReg_takesPlain hplain s 0 v.toNat
      exact ⟨_, hexec.trans (if_pos hruns), ⟨hkept, hrest⟩, hfields⟩
    · intro n th at_ open_ view refused
      have hexec {t : State} (h : s.writeWindow c off v.toNat = t) : exec i s = .next t :=
        (s.hostWriteAt_window v.toNat hp hr).trans (congrArg _ h)
      have hopen (m : Fin 4) : s.writable c m = true ↔ open_ m := s.writable_iff c m
      have hshut {m : Fin 4} (h : ¬open_ m) : s.writable c m = false := Bool.eq_false_iff.2 (h ∘ (hopen m).1)
      have hregs (h : off < 0x2000) : Fin.ofNat 4 ((off - 0x1000) / 0x400) = n := congrArg _ (if_pos h).symm
      have htiles (h : 0x2000 ≤ off) : Fin.ofNat 4 ((off - 0x2000) / 0x800) = n := congrArg _ (if_neg (by omega)).symm
      refine ⟨fun hlt ho => ⟨fun hat => ?_, fun hlo hhi => ?_, fun hlo hhi => ?_⟩, fun hlt hpast => ?_,
        fun hlt hat ho => ?_, fun hlo _ hview => ⟨fun ho => ?_, fun ho => ?_⟩,
        fun hlo hhi hview => ⟨fun ho => ?_, fun ho => ?_⟩, fun hlo _ hview => ?_⟩
      · exact hexec (s.writeWindow_scalar c v hlt hat (hregs hlt) ((hopen n).2 ho))
      · exact hexec (s.writeWindow_address c v hlt hlo hhi (hregs hlt) ((hopen n).2 ho))
      · obtain ⟨g, hwrite, hrest, hbits⟩ := s.writeWindow_preds c v hlt hlo hhi (hregs hlt) ((hopen n).2 ho)
        exact ⟨g, hexec hwrite, hrest, hbits⟩
      · exact hexec (s.writeWindow_past c v hlt hpast)
      · exact hexec (s.writeWindow_thread_refused c v hlt hat (hregs hlt ▸ hshut ho))
      · exact hexec (s.writeWindow_tile_refused c v hlo hview (htiles hlo ▸ hshut ho))
      · obtain ⟨w, hwrite, hbits⟩ := s.writeWindow_tile c v hlo hview (htiles hlo) ((hopen n).2 ho)
        exact ⟨w, hexec hwrite, hbits⟩
      · exact hexec (s.writeWindow_acc_refused c v hlo hhi hview (hshut ho))
      · obtain ⟨w, hwrite, hbits⟩ := s.writeWindow_acc c v hlo hhi hview ((hopen _).2 ho)
        exact ⟨w, hexec hwrite, hbits⟩
      · exact hexec (s.writeWindow_pastAccs c v hlo hview)

end Sys2Proof.Machine
end

section
/-!
PROOFS. Every step keeps the byte memories in canonical form (O59).

The data SRAMs, the instruction stores, the pattern stores, the firmware slots and the update buffer are written by
few operations, whose rules stand in Laws/Memory. Every other operation is a composition of operations, so each
function of the model has one rule `memoriesWf.f` here, which names the rules of the operations it composes: a rule
`State.memoriesWf.f` says that `f` answers a state with canonical memories where its state has them, a rule
`Out.memoriesWf.f`, `Act.memoriesWf.f` or `Placed.memoriesWf.f` the same of every state in its answer. A function that
takes an operation takes that operation's rule first. The rules follow the model's files in their order; the dispatch
and the obligation close the section.
-/
namespace Sys2Proof.Machine

set_option autoImplicit true
set_option relaxedAutoImplicit true

variable {s : State}

/-! ### Composition of operations -/

/-- An update of fields other than the five memories. -/
theorem State.memoriesWf.update
    {pending freeCtr regs ticked threads cores lanes damaged badTiles istoreBad patBad fenced badPositions heldBad
    fuseMap disagreements relocations watch darnQueue darn fab slots slotTables waitingOrders rings cueDue
    markerLast distGen migration hostOut ports portOut portSteer fusedPorts hostReqs cacheOut messages msixPending
    fibres answers unexpected discovered brgCmd firstBringUp partialReset waitingResets resetRun nvsResetWaits
    pllSetting sequences lockHold stopped power store life nvsQueue nvsWrite fwRuns spdm ideKeys mgt testsFrom
    tests trapWindows trdCopy trdAdvances spool nextSpool spoolWin events}
    (h : s.memoriesWf) :
    State.memoriesWf { s with
      pending, freeCtr, regs, ticked, threads, cores, lanes, damaged, badTiles, istoreBad, patBad, fenced,
      badPositions, heldBad, fuseMap, disagreements, relocations, watch, darnQueue, darn, fab, slots, slotTables,
      waitingOrders, rings, cueDue, markerLast, distGen, migration, hostOut, ports, portOut, portSteer, fusedPorts,
      hostReqs, cacheOut, messages, msixPending, fibres, answers, unexpected, discovered, brgCmd, firstBringUp,
      partialReset, waitingResets, resetRun, nvsResetWaits, pllSetting, sequences, lockHold, stopped, power, store,
      life, nvsQueue, nvsWrite, fwRuns, spdm, ideKeys, mgt, testsFrom, tests, trapWindows, trdCopy, trdAdvances,
      spool, nextSpool, spoolWin, events } := h

theorem State.memoriesWf.ite {b : Prop} [Decidable b] {t u : State} (ht : t.memoriesWf) (hu : u.memoriesWf) :
    (if b then t else u).memoriesWf := by
  split <;> assumption

/-- An operation done where `b` holds. -/
theorem State.memoriesWf.when {b : Prop} [Decidable b] {t : State} (hf : s.memoriesWf → t.memoriesWf)
    (h : s.memoriesWf) : (if b then t else s).memoriesWf :=
  .ite (hf h) h

/-- An operation done where `b` does not hold. -/
theorem State.memoriesWf.unless {b : Prop} [Decidable b] {t : State} (hf : s.memoriesWf → t.memoriesWf)
    (h : s.memoriesWf) : (if b then s else t).memoriesWf :=
  .ite h (hf h)

theorem State.memoriesWf.iteFst {α : Type} {b : Prop} [Decidable b] {p q : State × α} (hp : p.1.memoriesWf)
    (hq : q.1.memoriesWf) : (if b then p else q).1.memoriesWf := by
  split <;> assumption

theorem State.memoriesWf.iteSnd {α : Type} {b : Prop} [Decidable b] {p q : α × State} (hp : p.2.memoriesWf)
    (hq : q.2.memoriesWf) : (if b then p else q).2.memoriesWf := by
  split <;> assumption

theorem State.memoriesWf.foldl {α : Type} {f : State → α → State} {l : List α}
    (hf : ∀ {s a}, s.memoriesWf → (f s a).memoriesWf) : ∀ {s : State}, s.memoriesWf → (l.foldl f s).memoriesWf := by
  induction l with
  | nil => exact id
  | cons a l ih => exact fun h => ih (hf h)

/-- A fold that carries a value behind the state. -/
theorem State.memoriesWf.foldlFst {α β : Type} {f : State × β → α → State × β} {l : List α}
    (hf : ∀ {e a}, e.1.memoriesWf → (f e a).1.memoriesWf) :
    ∀ {e : State × β}, e.1.memoriesWf → (l.foldl f e).1.memoriesWf := by
  induction l with
  | nil => exact id
  | cons a l ih => exact fun h => ih (hf h)

/-- A fold that carries a value before the state. -/
theorem State.memoriesWf.foldlSnd {α β : Type} {f : β × State → α → β × State} {l : List α}
    (hf : ∀ {e a}, e.2.memoriesWf → (f e a).2.memoriesWf) :
    ∀ {e : β × State}, e.2.memoriesWf → (l.foldl f e).2.memoriesWf := by
  induction l with
  | nil => exact id
  | cons a l ih => exact fun h => ih (hf h)

/-- The state a step answers, if it answers one, has canonical memories. -/
inductive Out.memoriesWf : Out → Prop
  | next {s : State} (h : s.memoriesWf) : memoriesWf (.next s)
  | fault {r : Fault} : memoriesWf (.fault r)
  | refused {r : Refusal} : memoriesWf (.refused r)

theorem Out.memoriesWf.ite {b : Prop} [Decidable b] {o o' : Out} (ho : o.memoriesWf) (ho' : o'.memoriesWf) :
    (if b then o else o').memoriesWf := by
  split <;> assumption

theorem Out.memoriesWf.of_next {o : Out} (h : o.memoriesWf) (ho : o = .next s) : s.memoriesWf := by
  subst ho; cases h; assumption

/-- The state an instruction's effect answers, if it answers one, has canonical memories. -/
inductive Act.memoriesWf : Act → Prop
  | done {s : State} {pc : Nat} (h : s.memoriesWf) : memoriesWf (.done s pc)
  | late {s : State} {pc : Nat} {r : TrapInfo} (h : s.memoriesWf) : memoriesWf (.late s pc r)
  | gone {s : State} (h : s.memoriesWf) : memoriesWf (.gone s)
  | trap {r : TrapInfo} : memoriesWf (.trap r)

theorem Act.memoriesWf.of_done {a : Act} (h : a.memoriesWf) (ha : a = .done s pc) : s.memoriesWf := by
  subst ha; cases h; assumption

theorem Act.memoriesWf.of_late {a : Act} (h : a.memoriesWf) (ha : a = .late s pc r) : s.memoriesWf := by
  subst ha; cases h; assumption

theorem Act.memoriesWf.of_gone {a : Act} (h : a.memoriesWf) (ha : a = .gone s) : s.memoriesWf := by
  subst ha; cases h; assumption

theorem Act.memoriesWf.ite {b : Prop} [Decidable b] {a a' : Act} (ha : a.memoriesWf) (ha' : a'.memoriesWf) :
    (if b then a else a').memoriesWf := by
  split <;> assumption

/-- The state the placement of a message answers, if it answers one, has canonical memories. -/
inductive Placed.memoriesWf : Placed → Prop
  | done {s : State} (h : s.memoriesWf) : memoriesWf (.done s)
  | refused {s : State} {code tile : Nat} (h : s.memoriesWf) : memoriesWf (.refused s code tile)
  | held : memoriesWf .held

theorem Placed.memoriesWf.of_done {p : Placed} (h : p.memoriesWf) (hp : p = .done s) : s.memoriesWf := by
  subst hp; cases h; assumption

theorem Placed.memoriesWf.of_refused {p : Placed} (h : p.memoriesWf) (hp : p = .refused s code tile) :
    s.memoriesWf := by
  subst hp; cases h; assumption

theorem Placed.memoriesWf.ite {b : Prop} [Decidable b] {p p' : Placed} (hp : p.memoriesWf) (hp' : p'.memoriesWf) :
    (if b then p else p').memoriesWf := by
  split <;> assumption


/-! ### Machine/Ops -/

theorem State.memoriesWf.put (h : s.memoriesWf) : (s.put f v u n).memoriesWf := .update h

theorem State.memoriesWf.tick (h : s.memoriesWf) : (s.tick f u n).memoriesWf := .update h

theorem State.memoriesWf.resetKeys (h : s.memoriesWf) : (s.resetKeys gone).memoriesWf := .update h

theorem State.memoriesWf.addSat (h : s.memoriesWf) : (s.addSat f sat k u n satn).memoriesWf :=
  .ite (.put h) (.put (.put h))

theorem State.memoriesWf.addMax (h : s.memoriesWf) : (s.addMax f k u n).memoriesWf := .put h

theorem State.memoriesWf.addWrap (h : s.memoriesWf) : (s.addWrap f k u n).memoriesWf := .put h

theorem State.memoriesWf.putBit (h : s.memoriesWf) : (s.putBit f i b u n).memoriesWf := .put h

theorem State.memoriesWf.free (h : s.memoriesWf) : (s.free w).2.memoriesWf := .update h

theorem State.memoriesWf.setThread (h : s.memoriesWf) : (s.setThread c t th).memoriesWf := .update h

theorem State.memoriesWf.setCore (h : s.memoriesWf) : (s.setCore c k).memoriesWf := .update h

theorem State.memoriesWf.setDomain (h : s.memoriesWf) : (s.setDomain i on).memoriesWf := .putBit h

theorem State.memoriesWf.updateDistances (h : s.memoriesWf) : s.updateDistances.memoriesWf := .update h

theorem State.memoriesWf.loseEvent (h : s.memoriesWf) : (s.loseEvent ld).memoriesWf := .addMax (.put h)

theorem State.memoriesWf.raiseEvent (h : s.memoriesWf) : (s.raiseEvent e).memoriesWf :=
  .ite (.loseEvent h) (.update h)

theorem State.memoriesWf.raise {id : Nat} (h : s.memoriesWf) : (s.raise kind ld id detail0 detail1).memoriesWf :=
  .raiseEvent h

theorem State.memoriesWf.pendIbi (h : s.memoriesWf) : (s.pendIbi code).memoriesWf := .when .update h

theorem State.memoriesWf.raiseField (h : s.memoriesWf) : (s.raiseField kind f detail0 detail1).memoriesWf := by
  fun_cases State.raiseField s kind f detail0 detail1
  exacts [.raise h, .raise (.raise h), .raise h]

theorem State.memoriesWf.raiseAll (h : s.memoriesWf) : (s.raiseAll kind lds detail0).memoriesWf := .foldl .raise h

theorem State.memoriesWf.raiseTrap (h : s.memoriesWf) : (s.raiseTrap c t).memoriesWf := by
  fun_cases State.raiseTrap s c t
  exacts [h, .update (.raise h), .update h]

theorem State.memoriesWf.haltThread (h : s.memoriesWf) : (s.haltThread c t).memoriesWf := by
  fun_cases State.haltThread s c t
  exacts [.setThread h, .setThread h, .setThread h, h]

theorem State.memoriesWf.recordTrap (h : s.memoriesWf) : (s.recordTrap c t r).memoriesWf :=
  .put (.put (.put (.put (.put (.put (.put (.put h)))))))

theorem State.memoriesWf.trap (h : s.memoriesWf) : (s.trap c t r).memoriesWf := by
  fun_cases State.trap s c t r
  exacts [.put h, .raiseTrap (.when (.foldl (.unless .haltThread)) (.setThread (.recordTrap h))),
    .when (.foldl (.unless .haltThread)) (.setThread (.recordTrap h))]

theorem State.memoriesWf.trapResponse (h : s.memoriesWf) : (s.trapResponse c t r).memoriesWf := by
  fun_cases State.trapResponse s c t r
  exacts [.put h, .trap h]

theorem State.memoriesWf.wake (h : s.memoriesWf) : (s.wake c n t).memoriesWf := by
  fun_cases State.wake s c n t
  exacts [.setThread h, h, h]

theorem State.memoriesWf.signal {set : Bool} (h : s.memoriesWf) : (s.signal c n set v lkind ltid).memoriesWf :=
  .foldl .wake (.put (.put (.put (.put h))))

theorem State.memoriesWf.writeTile (h : s.memoriesWf) : (s.writeTile c tile v).memoriesWf := .update (.writeSram h ..)

theorem State.memoriesWf.resetWindows {cores : List Lcn} (h : s.memoriesWf) : (s.resetWindows cores).memoriesWf :=
  .foldl .put h

theorem State.memoriesWf.enterFailure (h : s.memoriesWf) : (s.enterFailure p lcn cause).memoriesWf := by
  fun_cases State.enterFailure s p lcn cause
  exacts [.update h, .update h, .update (.addSat h), .addSat h]

theorem State.memoriesWf.condemn (h : s.memoriesWf) : (s.condemn p).1.memoriesWf := by
  fun_cases State.condemn s p
  exacts [.update (.addSat h), .put h, h, h]

theorem State.memoriesWf.countFailure (h : s.memoriesWf) : (s.countFailure c cause tile).memoriesWf :=
  .raiseField (.condemn (.enterFailure (.addSat (.addSat h))))

theorem State.memoriesWf.tileFailed (h : s.memoriesWf) : (s.tileFailed c tile cause).memoriesWf :=
  .unless (fun h => .update (.countFailure h)) (.put (.put (.put (.addSat h))))

theorem State.memoriesWf.packetFailed (h : s.memoriesWf) : (s.packetFailed c).memoriesWf := .countFailure h

theorem State.memoriesWf.gatedError (h : s.memoriesWf) : (s.gatedError off).memoriesWf := .put (.addSat h)

theorem State.memoriesWf.ifClocked {f : State → State} (hf : ∀ {s : State}, s.memoriesWf → (f s).memoriesWf)
    (h : s.memoriesWf) : (s.ifClocked r u n f).memoriesWf :=
  .ite (hf h) (.gatedError h)

theorem State.memoriesWf.ifWindow {f : State → State} (hf : ∀ {s : State}, s.memoriesWf → (f s).memoriesWf)
    (h : s.memoriesWf) : (s.ifWindow r c n f).memoriesWf :=
  .when (.ifClocked hf) h

/-! ### Machine/Flags -/

theorem State.memoriesWf.stick (h : s.memoriesWf) : (s.stick f u b).memoriesWf := .when .put h

theorem State.memoriesWf.setFlags (h : s.memoriesWf) : (s.setFlags c t x).memoriesWf := by
  fun_cases State.setFlags s c t x
  exacts [.stick (.stick (.stick (.stick (.stick (.stick (.stick (.stick h))))))),
    .putBit (.when .putBit (.stick (.stick (.stick (.stick (.stick (.stick (.stick (.stick h))))))))),
    .when .putBit (.stick (.stick (.stick (.stick (.stick (.stick (.stick (.stick h))))))))]

/-! ### Machine/Issue -/

theorem State.memoriesWf.unstall (h : s.memoriesWf) : (s.unstall c t).memoriesWf := .when .setThread h

theorem State.memoriesWf.settle (h : s.memoriesWf) : (s.settle c).memoriesWf := .foldl .unstall h

theorem State.memoriesWf.takeTag (h : s.memoriesWf) : (s.takeTag c t pc addr op dest others dst).1.memoriesWf :=
  .setCore h

theorem State.memoriesWf.setTag (h : s.memoriesWf) : (s.setTag c n g).memoriesWf := .setCore h

theorem State.memoriesWf.retire (h : s.memoriesWf) : (s.retire c t pc).memoriesWf := .setThread h

theorem State.memoriesWf.stallThread (h : s.memoriesWf) : (s.stallThread c t reason wants).memoriesWf := by
  fun_cases State.stallThread s c t reason wants
  exacts [.tick (.tick (.tick (.tick (.setThread h)))), .tick (.tick (.tick (.tick (.setThread h)))),
    .tick (.tick (.tick (.tick (.setThread h)))), .tick (.tick (.setThread h))]

theorem State.memoriesWf.bankConflict (h : s.memoriesWf) : (s.bankConflict c mine other).memoriesWf :=
  .tick (.tick (.setCore h))

theorem State.memoriesWf.contend (h : s.memoriesWf) : (s.contend x needs held).2.memoriesWf := by
  unfold State.contend
  dsimp only
  split
  · exact .setCore h
  · exact h
  · split
    · exact .iteSnd h (.bankConflict h)
    · exact h
  · exact h

theorem State.memoriesWf.contends (h : s.memoriesWf) : (s.contends x needs l).2.memoriesWf := by
  induction l generalizing s with
  | nil => exact h
  | cons held l ih =>
    unfold State.contends
    dsimp only
    split
    · exact .contend h
    · exact ih (.contend h)

theorem State.memoriesWf.enact {act : Thread → State → Act}
    (hact : ∀ {th} {s : State}, s.memoriesWf → (act th s).memoriesWf) (h : s.memoriesWf) :
    (s.enact c t act).memoriesWf := by
  unfold State.enact
  dsimp only
  split
  case _ heq => exact .retire ((hact (.setThread h)).of_done heq)
  · exact .trap (.setThread h)
  case _ heq => exact .trapResponse (.retire ((hact (.setThread h)).of_late heq))
  case _ heq => exact (hact (.setThread h)).of_gone heq

theorem State.memoriesWf.issues {act : Thread → State → Act}
    (hact : ∀ {a} {s : State}, s.memoriesWf → (act a s).memoriesWf) (h : s.memoriesWf) :
    (s.issues x len act always).memoriesWf :=
  .ite (.retire (.setThread h)) (.enact hact h)

theorem State.memoriesWf.issue {regs : List RegRef} {act : Thread → State → Act}
    (hact : ∀ {a} {s : State}, s.memoriesWf → (act a s).memoriesWf) (h : s.memoriesWf) :
    (s.issue x len regs lacks act always needs).memoriesWf := by
  fun_cases State.issue s x len regs lacks act always needs
  exacts [h, .trap h, .stallThread h, .stallThread (.contends h), .issues hact (.contends h)]

theorem State.memoriesWf.issueLocal {regs : List RegRef} (h : s.memoriesWf) :
    (s.issueLocal x len regs f always needs).memoriesWf :=
  .issue (fun h => .done (.setThread h)) h

theorem State.memoriesWf.foldDigest (h : s.memoriesWf) : (s.foldDigest c t typ dst addr data len).memoriesWf :=
  .when .setThread h

/-! ### Machine/Net -/

theorem State.memoriesWf.setEngineWin (h : s.memoriesWf) : (s.setEngineWin k w).memoriesWf := .update h

theorem State.memoriesWf.setPacket (h : s.memoriesWf) : (s.setPacket p).memoriesWf := .update h

theorem State.memoriesWf.dropPacket {id : Nat} (h : s.memoriesWf) : (s.dropPacket id).memoriesWf := .update h

theorem State.memoriesWf.countOut (h : s.memoriesWf) : (s.countOut p).memoriesWf := by
  fun_cases State.countOut s p
  exacts [h, .setEngineWin h, .put h]

theorem State.memoriesWf.countInjection (h : s.memoriesWf) : (s.countInjection p).memoriesWf :=
  .when .addSat (.update h)

theorem State.memoriesWf.putReply (h : s.memoriesWf) : (s.putReply p).memoriesWf := .when .countInjection (.update h)

theorem State.memoriesWf.replyAs (h : s.memoriesWf) : (s.replyAs q bulk pos typ opc arg flits body).memoriesWf :=
  .unless .putReply h

theorem State.memoriesWf.reply (h : s.memoriesWf) : (s.reply q pos typ opc arg flits body).memoriesWf := .replyAs h

theorem State.memoriesWf.answerOwn (h : s.memoriesWf) : (s.answerOwn p sub).memoriesWf := .replyAs h

theorem State.memoriesWf.turnBack (h : s.memoriesWf) : (s.turnBack p).memoriesWf := .unless .answerOwn (.dropPacket h)

theorem State.memoriesWf.tryInject (h : s.memoriesWf) : (s.tryInject p).memoriesWf :=
  .ite h (.ite (.turnBack h) (.ite (.countOut (.countInjection (.setPacket h))) h))

theorem State.memoriesWf.pump (h : s.memoriesWf) : (s.pump c).memoriesWf := .foldl .tryInject h

theorem State.memoriesWf.pumpFor (h : s.memoriesWf) : (s.pumpFor p).memoriesWf := by
  fun_cases State.pumpFor s p
  exacts [.foldl .tryInject h, .pump h]

theorem State.memoriesWf.enqueue (h : s.memoriesWf) : (s.enqueue p).memoriesWf := .update h

theorem State.memoriesWf.send (h : s.memoriesWf) : (s.send p).memoriesWf := by
  fun_cases State.send s p
  exacts [.answerOwn (.update h), .pump (.enqueue h)]

theorem State.memoriesWf.windowReply (h : s.memoriesWf) : (s.windowReply p).memoriesWf := by
  fun_cases State.windowReply s p
  exacts [.setEngineWin h, .setCore (.put (.put (.when .addSat h)))]

theorem State.memoriesWf.setLink (h : s.memoriesWf) : (s.setLink f side net i l).memoriesWf := .update h

/-! ### Machine/CoreCtl -/

theorem Out.memoriesWf.execTagTimeout (h : s.memoriesWf) : Out.memoriesWf (execTagTimeout c tag s) := by
  fun_cases Machine.execTagTimeout c tag s
  exacts [.next h, .next (.put (.setTag h)), .next (.trap (.put (.setTag h))), .next (.setTag h), .next h]

theorem Out.memoriesWf.execTagQuarantineEnd (h : s.memoriesWf) : Out.memoriesWf (execTagQuarantineEnd c tag s) := by
  fun_cases Machine.execTagQuarantineEnd c tag s
  exacts [.next (.settle (.pump (.setTag h))), .next h]

theorem State.memoriesWf.refuseLanding (h : s.memoriesWf) : (s.refuseLanding q).memoriesWf := .reply h

theorem State.memoriesWf.failRingOf (h : s.memoriesWf) : (s.failRingOf c).memoriesWf := by
  fun_cases State.failRingOf s c
  exacts [.update h, h, h]

theorem State.memoriesWf.coreReset (h : s.memoriesWf) : (s.coreReset c).memoriesWf :=
  .setCore (.put (.update (.resetKeys (.foldl .refuseLanding (.failRingOf (.foldl (fun h => .freeTile h ..) h))))))

theorem State.memoriesWf.softReset (h : s.memoriesWf) : (s.softReset c).memoriesWf := by
  fun_cases State.softReset s c
  exacts [h, .coreReset h, .coreReset h]

theorem State.memoriesWf.resumeThread (h : s.memoriesWf) : (s.resumeThread c t).memoriesWf := by
  fun_cases State.resumeThread s c t
  exacts [.setThread h, .setThread h, .unstall (.setThread h), h]

theorem State.memoriesWf.writeOwner {owner : Nat} (h : s.memoriesWf) : (s.writeOwner c i owner).memoriesWf :=
  .ite (.setCore h) (.setCore (.put h))

theorem State.memoriesWf.writeAccOwn (h : s.memoriesWf) : (s.writeAccOwn c v).memoriesWf := .foldl .writeOwner h

theorem State.memoriesWf.settleOwners (h : s.memoriesWf) : (s.settleOwners c).memoriesWf :=
  .foldl (.unless .writeOwner) h

theorem State.memoriesWf.setLane (h : s.memoriesWf) : (s.setLane c l v).memoriesWf := .update h

theorem State.memoriesWf.seedAll (h : s.memoriesWf) : (s.seedAll c).memoriesWf := .foldl .setLane h

theorem State.memoriesWf.reseed (h : s.memoriesWf) : (s.reseed c).memoriesWf := .ite (.setCore (.seedAll h)) (.put h)

theorem State.memoriesWf.writeSeed (h : s.memoriesWf) : (s.writeSeed c v).memoriesWf := .ite (.put h) (.put h)

theorem State.memoriesWf.writeLane (h : s.memoriesWf) : (s.writeLane c l v).memoriesWf := .ite (.setLane h) (.put h)

theorem Out.memoriesWf.execSrseedWrite {lane : Option (Fin 256)} (h : s.memoriesWf) :
    Out.memoriesWf (execSrseedWrite c lane v s) := by
  refine .next ?_
  split
  · exact .ifWindow .writeSeed h
  · exact .ifWindow .writeLane h

/-! ### Machine/Store -/

theorem State.memoriesWf.setSect (h : s.memoriesWf) : (s.setSect k x).memoriesWf := .update h

theorem State.memoriesWf.queueSection (h : s.memoriesWf) : (s.queueSection k).memoriesWf := .unless .update h

theorem Out.memoriesWf.execNvsSectionWrite (h : s.memoriesWf) : Out.memoriesWf (execNvsSectionWrite s) := by
  fun_cases Machine.execNvsSectionWrite s
  exacts [.next h, .next h, .next (.put (.put (.setSect (.update h))))]

theorem State.memoriesWf.commitSection (h : s.memoriesWf) : (s.commitSection k).memoriesWf := .addWrap (.setSect h)

theorem Out.memoriesWf.execNvsWriteDurable (h : s.memoriesWf) : Out.memoriesWf (execNvsWriteDurable s) := by
  fun_cases Machine.execNvsWriteDurable s
  exacts [.next h, .next (.when .queueSection (.addWrap (.put (.put (.update (.setSect h))))))]

theorem State.memoriesWf.cutWrite (h : s.memoriesWf) : s.cutWrite.memoriesWf := .update (.put (.put h))

theorem State.memoriesWf.loadRepair (h : s.memoriesWf) : (s.loadRepair p).memoriesWf := .foldl .put (.update h)

theorem State.memoriesWf.loadStore (h : s.memoriesWf) : s.loadStore.memoriesWf := by
  refine .put (.put (.put (.foldl .put (.when .put (.when .put (.update ?_))))))
  split
  · exact .loadRepair (.update h)
  · exact .loadRepair (.update h)

/-! ### Machine/RegAccess -/

theorem State.memoriesWf.noteThrottles (h : s.memoriesWf) : s.noteThrottles.memoriesWf :=
  .foldl (fun h => .foldl .tick h) h

theorem State.memoriesWf.untick (h : s.memoriesWf) : (s.untick f u n new).memoriesWf := .when .update h

theorem State.memoriesWf.writeFld (h : s.memoriesWf) : (s.writeFld f u n j v).memoriesWf := by
  fun_cases State.writeFld s f u n j v
  exacts [h, h, .put h, .untick (.put h), .put h]

theorem State.memoriesWf.writeFldAll (h : s.memoriesWf) : (s.writeFldAll f u n v).memoriesWf := .foldl .writeFld h

theorem State.memoriesWf.writePlain (h : s.memoriesWf) : (s.writePlain r u n v).memoriesWf := .foldl .writeFldAll h

theorem State.memoriesWf.setAcc (h : s.memoriesWf) : (s.setAcc c k v).memoriesWf := .setCore h

theorem State.memoriesWf.writeWindow (h : s.memoriesWf) : (s.writeWindow c off v).memoriesWf :=
  .ite (.ite h (.ite (.put h) (.unless (fun h => .ite h h) (.setThread h)))) (.ite (.ite (.put h) (.setThread h))
    (.ite (.ite (.put h) (.setAcc h)) h))

/-! ### Machine/Cue -/

theorem State.memoriesWf.showArmed (h : s.memoriesWf) : (s.showArmed f).memoriesWf := .put h

theorem State.memoriesWf.disarm (h : s.memoriesWf) : (s.disarm f n).memoriesWf := .update (.showArmed (.put h))

theorem State.memoriesWf.makeDue (h : s.memoriesWf) : (s.makeDue f n).memoriesWf := .unless .update h

theorem State.memoriesWf.arm (h : s.memoriesWf) : (s.arm f n count kind).memoriesWf :=
  .unless (fun h => .ite (.makeDue h) (.ite h (.put (.makeDue h)))) (.update (.showArmed (.put (.put (.put h)))))

theorem State.memoriesWf.placeCue (h : s.memoriesWf) : (s.placeCue f n kind arg count).memoriesWf :=
  .ite (.arm (.put h)) h

theorem State.memoriesWf.emptyCues (h : s.memoriesWf) : (s.emptyCues f).memoriesWf := .update (.resetKeys h)

/-! ### Machine/Spool -/

theorem State.memoriesWf.showPosted (h : s.memoriesWf) : (s.showPosted c).memoriesWf := .put h

theorem State.memoriesWf.addSpool (h : s.memoriesWf) : (s.addSpool r).memoriesWf := .showPosted (.update h)

theorem State.memoriesWf.postSpool (h : s.memoriesWf) : (s.postSpool c t).memoriesWf := .addSpool h

theorem State.memoriesWf.writeSplCmd (h : s.memoriesWf) : (s.writeSplCmd c t v).memoriesWf :=
  .ite (.put h) (.when .postSpool (.writePlain h))

theorem State.memoriesWf.setSpool (h : s.memoriesWf) : (s.setSpool r).memoriesWf := .update h

theorem State.memoriesWf.spoolFailed (h : s.memoriesWf) : (s.spoolFailed r).memoriesWf := .ite (.put h) (.put h)

theorem State.memoriesWf.spoolEndTile {id : Nat} (h : s.memoriesWf) : (s.spoolEndTile id k failed).memoriesWf := by
  fun_cases State.spoolEndTile s id k failed
  exacts [h, .setSpool (.when .spoolFailed h)]

theorem State.memoriesWf.spoolUndo {id : Nat} (h : s.memoriesWf) : (s.spoolUndo id k).memoriesWf := by
  unfold State.spoolUndo
  dsimp only
  split
  · exact .writeTile (.update h)
  · exact .update h

theorem State.memoriesWf.spoolSave (h : s.memoriesWf) : (s.spoolSave p c tile).memoriesWf := by
  fun_cases State.spoolSave s p c tile
  exacts [.setSpool h, h, h]

theorem State.memoriesWf.spoolSend (h : s.memoriesWf) : (s.spoolSend r k write body).memoriesWf := by
  fun_cases State.spoolSend s r k write body
  exacts [.send h, .spoolEndTile h]

theorem State.memoriesWf.spoolIssue {id : Nat} (h : s.memoriesWf) : (s.spoolIssue id n).memoriesWf := by
  induction n generalizing s with
  | zero => exact h
  | succ n ih =>
    unfold State.spoolIssue
    split
    · exact h
    · exact .ite (ih (.spoolSend (.setSpool h))) h

theorem State.memoriesWf.spoolMore (h : s.memoriesWf) : (s.spoolMore panel).memoriesWf := by
  fun_cases State.spoolMore s panel
  exacts [.spoolIssue h, h]

theorem State.memoriesWf.spoolTsig (h : s.memoriesWf) : (s.spoolTsig r).memoriesWf := .send h

theorem State.memoriesWf.spoolSignal (h : s.memoriesWf) : (s.spoolSignal r).memoriesWf :=
  .spoolTsig (.when (fun h => .put (.put h)) (.showPosted (.update h)))

theorem Out.memoriesWf.execSpoolTake (h : s.memoriesWf) : Out.memoriesWf (execSpoolTake panel s) := by
  fun_cases Machine.execSpoolTake panel s
  exacts [.next (.spoolMore h), .next (.spoolMore h), .next (.spoolSignal (.put (.put (.spoolMore h)))),
    .next (.spoolIssue (.setSpool (.spoolMore h)))]

theorem State.memoriesWf.spoolWrite (h : s.memoriesWf) : (s.spoolWrite r k body).memoriesWf :=
  .ite (.spoolSend h) (.ite (.spoolMore (.spoolEndTile (.foldDigest h))) (.spoolSend (.foldDigest h)))

theorem State.memoriesWf.spoolAnswer {id : Nat} (h : s.memoriesWf) :
    (s.spoolAnswer id k write ok body).memoriesWf := by
  fun_cases State.spoolAnswer s id k write ok body
  exacts [h, h, .spoolMore (.spoolEndTile (.spoolUndo h)), .spoolMore (.spoolEndTile h), .spoolWrite (.setSpool h)]

theorem Out.memoriesWf.execSpoolOpTimeout {id : Nat} (h : s.memoriesWf) :
    Out.memoriesWf (execSpoolOpTimeout id k s) := by
  fun_cases Machine.execSpoolOpTimeout id k s
  exacts [.next h, .next (.ite h (.spoolMore (.spoolEndTile (.spoolUndo h))))]

theorem Out.memoriesWf.execSpoolComplete {id : Nat} (h : s.memoriesWf) : Out.memoriesWf (execSpoolComplete id s) := by
  fun_cases Machine.execSpoolComplete id s
  exacts [.next h, .next (.when .spoolSignal h)]

/-! ### Machine/Tile -/

theorem State.memoriesWf.draw (h : s.memoriesWf) : (s.draw c l).2.memoriesWf := .addWrap (.setLane h)

theorem State.memoriesWf.roundOne (h : s.memoriesWf) : (s.roundOne c f rm x).2.2.memoriesWf := .iteSnd (.draw h) h

theorem State.memoriesWf.roundAll (h : s.memoriesWf) : (s.roundAll c f rm l).2.2.memoriesWf := by
  induction l generalizing s with
  | nil => exact h
  | cons x l ih => exact ih (.roundOne h)

theorem State.memoriesWf.tileOp {regs : List RegRef} {act : Thread → State → State}
    (hact : ∀ {a} {s : State}, s.memoriesWf → (act a s).memoriesWf) (h : s.memoriesWf) :
    (s.tileOp x regs rm subs act len).memoriesWf := by
  refine .issue (fun h => ?_) h
  split
  · exact .trap
  · exact .done (hact h)

theorem State.memoriesWf.putT (h : s.memoriesWf) : (s.putT x td v).memoriesWf := .setThread h

theorem State.memoriesWf.writeRounded (h : s.memoriesWf) : (s.writeRounded x td fmt f rm l).memoriesWf :=
  .putT (.setFlags (.roundAll h))

theorem State.memoriesWf.binary (h : s.memoriesWf) : (s.binary x td ta tb fmt rm fmts fl int).memoriesWf := by
  refine .tileOp (fun h => ?_) h
  split
  · exact .writeRounded h
  · exact .putT h

theorem State.memoriesWf.binaryExact (h : s.memoriesWf) : (s.binaryExact x td ta tb fmt rm fl int).memoriesWf := by
  refine .tileOp (fun h => ?_) h
  split
  · exact .writeRounded h
  · exact .putT h

theorem Out.memoriesWf.execTfma (h : s.memoriesWf) : Out.memoriesWf (execTfma x td ta tb fmt rm s) := by
  refine .next (.tileOp (fun h => ?_) h)
  split
  · exact .writeRounded h
  · exact h

theorem State.memoriesWf.comparePred {cond : Fin 4} (h : s.memoriesWf) :
    (s.comparePred x pd ta tb fmt cond f).memoriesWf :=
  .tileOp (fun h => .setThread (.setFlags h)) h

theorem State.memoriesWf.unaryRaw (h : s.memoriesWf) : (s.unaryRaw x td ta fmt rm f).memoriesWf := .tileOp .putT h

theorem State.memoriesWf.reduce (h : s.memoriesWf) : (s.reduce x td ta fmt rm mode fl int).memoriesWf := by
  refine .tileOp (fun h => ?_) h
  split
  · exact .putT (.setFlags (.roundAll h))
  · exact .putT h

theorem State.memoriesWf.special (h : s.memoriesWf) : (s.special x td ta fmt rm op).memoriesWf := by
  refine .tileOp (fun h => ?_) h
  split
  · exact .putT (.setFlags h)
  · exact h

theorem State.memoriesWf.pair (h : s.memoriesWf) : (s.pair x td ta tb fmt rm op).memoriesWf := by
  refine .tileOp (fun h => ?_) h
  split
  · exact .putT (.putT (.setFlags h))
  · exact h

theorem State.memoriesWf.convert (h : s.memoriesWf) : (s.convert c fmts fmtd rm l).2.2.memoriesWf := by
  fun_cases State.convert s c fmts fmtd rm l
  exacts [.roundAll h, h]

theorem Out.memoriesWf.execTcvt (h : s.memoriesWf) : Out.memoriesWf (execTcvt x td ta fmts fmtd rm part s) :=
  .next (.tileOp (fun h => .ite (.putT (.setFlags (.convert h))) (.putT (.setFlags (.convert h)))) h)

/-! ### Machine/Tensor -/

theorem State.memoriesWf.writeAccs (h : s.memoriesWf) : (s.writeAccs c cd fmt v).memoriesWf :=
  .ite (.setAcc (.setAcc h)) (.setAcc h)

theorem Out.memoriesWf.execTmma (h : s.memoriesWf) :
    Out.memoriesWf (execTmma x cd ta tb fmt rm z ng long s) := by
  refine .next (.issue (fun h => ?_) h)
  dsimp only
  split
  · exact .trap
  · exact .done (.setCore h)

theorem State.memoriesWf.pass (h : s.memoriesWf) : (s.pass c p old).2.2.memoriesWf := by
  unfold State.pass
  by_cases hint : p.fmt = 2 ∧ p.mx = false
  · simp only [if_pos hint]
    exact h
  · simp only [if_neg hint]
    exact .roundAll h

theorem Out.memoriesWf.execTensorArrayStart (h : s.memoriesWf) : Out.memoriesWf (execTensorArrayStart c s) := by
  fun_cases Machine.execTensorArrayStart c s
  exacts [.next (.ite (.settle (.setCore h)) h), .next h]

theorem State.memoriesWf.runPasses (h : s.memoriesWf) :
    (s.runPasses c q sa sb l first old).2.2.2.memoriesWf := by
  induction l generalizing s first old with
  | nil => exact h
  | cons r l ih => exact ih (.pass h)

theorem State.memoriesWf.endProduct (h : s.memoriesWf) : (s.endProduct c).memoriesWf :=
  .settle (.settleOwners (.setCore h))

theorem State.memoriesWf.completeDense (h : s.memoriesWf) : (s.completeDense c q).memoriesWf :=
  .endProduct (.addSat (.setFlags (.writeAccs (.pass h))))

theorem State.memoriesWf.sparseResult (h : s.memoriesWf) : (s.sparseResult q v).2.memoriesWf := by
  have hfree (w : Nat) : ((s.free w).2.free w).2.memoriesWf := .free (.free h)
  unfold State.sparseResult
  -- no power of the width is to be evaluated
  generalize 8192 = w
  exact .iteSnd (hfree w) h

theorem State.memoriesWf.completeSparse (h : s.memoriesWf) : (s.completeSparse c q w).memoriesWf := by
  unfold State.completeSparse
  dsimp only
  split
  · exact .trapResponse (.endProduct (.addSat (.addSat (.unless (fun h => .putBit (.addSat h))
      (.setFlags (.writeAccs (.sparseResult (.runPasses h))))))))
  · exact .endProduct (.addSat (.addSat (.addSat (.unless (fun h => .putBit (.addSat h))
      (.setFlags (.writeAccs (.sparseResult (.runPasses h))))))))

theorem Out.memoriesWf.execTensorArrayComplete (h : s.memoriesWf) : Out.memoriesWf (execTensorArrayComplete c s) := by
  fun_cases Machine.execTensorArrayComplete c s
  exacts [.next h, .next (.completeDense h), .next h, .next (.when .completeSparse h)]

theorem State.memoriesWf.setHead (h : s.memoriesWf) : (s.setHead c q).memoriesWf := .setCore h

theorem State.memoriesWf.countDrops (h : s.memoriesWf) : (s.countDrops c t n).memoriesWf :=
  .ite h (.putBit (.addSat h))

theorem State.memoriesWf.noteBanks (h : s.memoriesWf) : (s.noteBanks c).memoriesWf := .tick (.tick h)

theorem State.memoriesWf.leadIn (h : s.memoriesWf) : (s.leadIn c q).memoriesWf := by
  fun_cases State.leadIn s c q
  exacts [.tileFailed (.setHead (.noteBanks h)), .tileFailed (.setHead (.countDrops (.noteBanks h))),
    .setHead (.countDrops (.countDrops (.noteBanks h)))]

theorem Out.memoriesWf.execWalkerLeadIn (h : s.memoriesWf) : Out.memoriesWf (execWalkerLeadIn c s) := by
  fun_cases Machine.execWalkerLeadIn c s
  exacts [.next (.when .leadIn h), .next h]

theorem State.memoriesWf.readPass (h : s.memoriesWf) : (s.readPass c q w).2.memoriesWf := by
  fun_cases State.readPass s c q w
  exacts [h, .tileFailed h, h]

theorem State.memoriesWf.countPasses (h : s.memoriesWf) : (s.countPasses c w).2.memoriesWf := by
  fun_cases State.countPasses s c w
  exacts [h, .addSat h]

theorem Out.memoriesWf.execWalkerPassRead (h : s.memoriesWf) : Out.memoriesWf (execWalkerPassRead c head s) := by
  unfold Machine.execWalkerPassRead
  dsimp only
  split
  · exact .next h
  split
  · exact .next h
  refine .ite (.next h) (.next ?_)
  cases head
  · exact .setCore (.readPass (.noteBanks (.countPasses h)))
  · exact .setHead (.readPass (.noteBanks h))

theorem State.memoriesWf.creadTile {acc : Nat} (h : s.memoriesWf) :
    (s.creadTile c acc fmt rm part old).2.2.memoriesWf := by
  fun_cases State.creadTile s c acc fmt rm part old
  exacts [h, h, .roundAll h, .roundAll h, h]

theorem Out.memoriesWf.execCread (h : s.memoriesWf) : Out.memoriesWf (execCread x cd tr part fmt rm s) := by
  refine .next (.issue (fun h => ?_) h)
  split
  · exact .trap
  · exact .done (.putT (.setFlags (.creadTile h)))

theorem Out.memoriesWf.execCwrite (h : s.memoriesWf) : Out.memoriesWf (execCwrite x cd tr part fmt rm s) := by
  refine .next (.issue (fun h => ?_) h)
  split
  · exact .trap
  · exact .done (.writeAccs h)

theorem Out.memoriesWf.execCzero (h : s.memoriesWf) : Out.memoriesWf (execCzero x cd s) := by
  refine .next (.issue (fun h => ?_) h)
  split
  · exact .trap
  · exact .done (.setAcc h)

/-! ### Machine/Sparse -/

theorem State.memoriesWf.writePart (h : s.memoriesWf) : (s.writePart c off v n).2.memoriesWf := by
  fun_cases State.writePart s c off v n
  exacts [.writeSram h .., .tileFailed h]

theorem State.memoriesWf.cmpEnd (h : s.memoriesWf) : (s.cmpEnd c err).memoriesWf := by
  unfold State.cmpEnd
  refine .signal ?_
  split
  · exact .put (.put (.put (.put h)))
  · exact .put (.put h)

theorem State.memoriesWf.writeCmpCmd (h : s.memoriesWf) : (s.writeCmpCmd c v).memoriesWf := by
  fun_cases State.writeCmpCmd s c v
  exacts [.put h, .writePlain h, .cmpEnd (.writePlain h), .put (.writePlain h)]

theorem State.memoriesWf.writeTiles (h : s.memoriesWf) : (s.writeTiles c k l).memoriesWf := by
  induction l generalizing s k with
  | nil => exact h
  | cons t l ih => exact ih (.writeTile h)

theorem State.memoriesWf.compress (h : s.memoriesWf) : (s.compress c).memoriesWf := by
  unfold State.compress
  dsimp only
  split
  · exact .cmpEnd (.tileFailed h)
  · exact .cmpEnd (.put (.put (.when .put (.writePart (.when .writeTile (.writeTiles h))))))

theorem State.memoriesWf.selEnd (h : s.memoriesWf) : (s.selEnd c err).memoriesWf := by
  unfold State.selEnd
  refine .signal (.setCore ?_)
  split
  · exact .put (.put (.put (.put h)))
  · exact .put (.put h)

theorem State.memoriesWf.writeSelCmd (h : s.memoriesWf) : (s.writeSelCmd c v).memoriesWf := by
  fun_cases State.writeSelCmd s c v
  exacts [.put h, .writePlain h, .selEnd (.writePlain h), .setCore (.put (.writePlain h))]

theorem State.memoriesWf.postGather (h : s.memoriesWf) : (s.postGather c l groups).memoriesWf := .addSpool h

theorem State.memoriesWf.select (h : s.memoriesWf) : (s.select c l).memoriesWf :=
  .ite (.selEnd (.tileFailed h)) (.ite (.selEnd (.writePart (.writeTile h))) (.ite (.postGather (.setCore (.put
    (.writePart (.writeTile h))))) (.selEnd (.put (.writePart (.writeTile h))))))

theorem Out.memoriesWf.execSelectionDone (h : s.memoriesWf) : Out.memoriesWf (execSelectionDone c s) := by
  fun_cases Machine.execSelectionDone c s
  exacts [.next (.unless .select h), .next h]

/-! ### Machine/Message -/

theorem State.memoriesWf.writeStatus (h : s.memoriesWf) : (s.writeStatus c off b).memoriesWf := .writeSram h ..

theorem State.memoriesWf.writeRange (h : s.memoriesWf) : (s.writeRange c off v fuel n).memoriesWf := by
  induction fuel generalizing s off v n with
  | zero => exact h
  | succ fuel ih => exact ih (.ite (.writeTile h) (.ite h (.writeSram h ..)))

theorem Placed.memoriesWf.putRecord (h : s.memoriesWf) : (s.putRecord c off b p l body).memoriesWf := by
  unfold State.putRecord
  dsimp only
  split
  · exact .refused (.tileFailed h)
  refine .done (.addWrap (.writeStatus (.writeSram (.writeRange ?_) ..)))
  split
  · exact .writeSram (.writeSram h ..) ..
  · exact h

theorem Placed.memoriesWf.placeMessage (h : s.memoriesWf) : (s.placeMessage c off l body).memoriesWf := by
  unfold State.placeMessage
  refine .ite (.refused (.tileFailed h)) (.ite (.refused h) (.ite (.refused h) (.ite (.refused h) ?_)))
  split
  · exact .putRecord h
  · exact .held

theorem State.memoriesWf.showHeld (h : s.memoriesWf) : (s.showHeld c off).memoriesWf := .writeStatus h

theorem State.memoriesWf.noteBobbin (h : s.memoriesWf) : (s.noteBobbin c off empty).memoriesWf := by
  fun_cases State.noteBobbin s c off empty
  exacts [.setCore h, h, .setCore h]

theorem State.memoriesWf.takeMessage (h : s.memoriesWf) : (s.takeMessage c q).memoriesWf := by
  unfold State.takeMessage
  dsimp only
  split
  · exact .showHeld (.setCore (.tick (.tick (.noteBobbin h))))
  split
  case _ heq => exact .reply (.noteBobbin ((Placed.memoriesWf.placeMessage h).of_done heq))
  · exact .showHeld (.setCore (.tick (.tick (.noteBobbin h))))
  case _ heq => exact .reply ((Placed.memoriesWf.placeMessage h).of_refused heq)

theorem State.memoriesWf.unhold (h : s.memoriesWf) : (s.unhold c q).memoriesWf := .setCore h

theorem Out.memoriesWf.execHeldMsgPlace (h : s.memoriesWf) : Out.memoriesWf (execHeldMsgPlace c off s) := by
  unfold Machine.execHeldMsgPlace
  split
  · exact .next h
  refine .ite (.next (.reply (.unhold (.gatedError h)))) ?_
  split
  case _ heq => exact .next (.reply (.showHeld (.unhold ((Placed.memoriesWf.placeMessage h).of_done heq))))
  · exact .next h
  case _ heq =>
    have h := (Placed.memoriesWf.placeMessage h).of_refused heq
    exact .next (.reply (.ite (.showHeld (.unhold h)) (.unhold h)))

theorem State.memoriesWf.nextSeq (h : s.memoriesWf) : (s.nextSeq x).memoriesWf := .setThread h

theorem State.memoriesWf.noteSent (h : s.memoriesWf) : (s.noteSent x th off len).memoriesWf := .setCore h

theorem State.memoriesWf.stored (h : s.memoriesWf) : (s.stored c t off n).memoriesWf := by
  unfold State.stored
  split
  · exact h
  dsimp only
  split
  · exact .when .setPacket (.free h)
  · exact .free h

theorem Out.memoriesWf.execMsend (hs : s.memoriesWf) : Out.memoriesWf (execMsend x h rs a f s) := by
  refine .next (.issue (fun h => ?_) hs)
  split
  · exact .trap
  dsimp only
  split
  · exact .late (.tileFailed (.nextSeq h))
  · exact .done (.send (.noteSent (.foldDigest (.nextSeq (.takeTag h)))))

theorem Out.memoriesWf.execMpoll (h : s.memoriesWf) : Out.memoriesWf (execMpoll x pd a s) := by
  refine .next (.issue (fun h => ?_) h)
  split
  · exact .trap
  · exact .ite (.late (.tileFailed h)) (.ite (.done (.noteBobbin (.setThread h))) (.ite (.late (.tileFailed h)) (.ite
      (.late h) (.done (.noteBobbin (.setThread h))))))

theorem Out.memoriesWf.execMfree (h : s.memoriesWf) : Out.memoriesWf (execMfree x a s) := by
  refine .next (.issue (fun h => ?_) h)
  split
  · exact .trap
  refine .ite (.late (.tileFailed h)) (.ite (.done (.put h)) ?_)
  split
  · exact .late (.tileFailed h)
  · exact .done (.writeStatus h)

/-! ### Machine/Fabric -/

theorem Out.memoriesWf.execNsum (h : s.memoriesWf) : Out.memoriesWf (execNsum x a rs1 rs2 f s) := by
  refine .next (.issue (fun h => ?_) h)
  split
  · exact .trap
  · exact .ite (.late (.tileFailed h)) (.done (.send (.takeTag (.foldDigest h))))

theorem State.memoriesWf.sendLegs (h : s.memoriesWf) : (s.sendLegs x p tag gen off body f).memoriesWf :=
  .foldl .send h

theorem Out.memoriesWf.execNcast (h : s.memoriesWf) : Out.memoriesWf (execNcast x a rs1 rs2 f s) := by
  refine .next (.issue (fun h => ?_) h)
  split
  · exact .trap
  · exact .ite (.late (.tileFailed h)) (.ite (.done (.sendLegs (.takeTag (.foldDigest h)))) (.done (.send (.takeTag
      (.foldDigest h)))))

theorem Out.memoriesWf.execNprobe (h : s.memoriesWf) : Out.memoriesWf (execNprobe x rs1 rs2 s) := by
  refine .next (.issue (fun h => ?_) h)
  split
  · exact .trap
  · exact .done (.send (.takeTag h))

theorem State.memoriesWf.absorb (h : s.memoriesWf) : (s.absorb p typ arg).memoriesWf :=
  .ite (.addSat (.dropPacket h)) (.reply (.dropPacket h))

theorem State.memoriesWf.crossSeam (h : s.memoriesWf) : (s.crossSeam p side q).memoriesWf := by
  fun_cases State.crossSeam s p side q
  exacts [.setLink h, h]

theorem State.memoriesWf.choose (h : s.memoriesWf) : (s.choose p side vc).memoriesWf := .update h

theorem State.memoriesWf.hop (h : s.memoriesWf) : (s.hop p side q ring entered).memoriesWf :=
  .when .addSat (.when .addSat (.update (.dropPacket (.crossSeam (.choose h)))))

theorem State.memoriesWf.absentResponse (h : s.memoriesWf) : (s.absentResponse p).memoriesWf := by
  fun_cases State.absentResponse s p
  exacts [h, .absorb h, .absorb h, h]

theorem Out.memoriesWf.execRouterForward (h : s.memoriesWf) : Out.memoriesWf (execRouterForward pkt s) := by
  fun_cases Machine.execRouterForward pkt s
  exacts [.next h, .next h, .next (.tryInject h), .next h, .next h, .next (.absorb h), .next (.when .hop h),
    .next (.absentResponse h)]

/-! ### Machine/Deliver -/

theorem State.memoriesWf.replyErr (h : s.memoriesWf) : (s.replyErr p code tile).memoriesWf := .reply h

theorem State.memoriesWf.replyAck (h : s.memoriesWf) : (s.replyAck p).memoriesWf := .reply h

theorem State.memoriesWf.badPacket (h : s.memoriesWf) : (s.badPacket c p).memoriesWf :=
  .unless .replyErr (.packetFailed (.addSat h))

theorem State.memoriesWf.serve {id : Nat} {f : Lcn → Packet → State → State}
    (hf : ∀ {a b} {s : State}, s.memoriesWf → (f a b s).memoriesWf) (h : s.memoriesWf) :
    (s.serve id typ f).memoriesWf := by
  fun_cases State.serve s id typ f
  exacts [h, h, h, .badPacket (.dropPacket h), .replyErr (.addSat (.dropPacket h)), .reply (.dropPacket h),
    hf (.dropPacket h)]

theorem State.memoriesWf.gatedCore (h : s.memoriesWf) : (s.gatedCore c p).memoriesWf := .replyErr (.gatedError h)

theorem State.memoriesWf.guarded {f : State → State} (hf : ∀ {s : State}, s.memoriesWf → (f s).memoriesWf)
    (h : s.memoriesWf) : (s.guarded c p f).memoriesWf :=
  .ite (.replyErr h) (.ite (.gatedCore h) (hf h))

theorem State.memoriesWf.receive {id : Nat} {f : Lcn → Packet → State → State}
    (hf : ∀ {a b} {s : State}, s.memoriesWf → (f a b s).memoriesWf) (h : s.memoriesWf) :
    (s.receive id typ f).memoriesWf := by
  fun_cases State.receive s id typ f
  exacts [h, h, .dropPacket h, .badPacket (.dropPacket h), hf (.pumpFor (.windowReply (.dropPacket h)))]

theorem State.memoriesWf.lateReply (h : s.memoriesWf) : (s.lateReply c p).memoriesWf := .when .setTag (.addSat h)

theorem State.memoriesWf.endTag (h : s.memoriesWf) : (s.endTag c n).memoriesWf := .settle (.pump (.setTag h))

theorem State.memoriesWf.answer {f : Tag → State → State} (hf : ∀ {a} {s : State}, s.memoriesWf → (f a s).memoriesWf)
    (h : s.memoriesWf) : (s.answer c p f).memoriesWf := by
  fun_cases State.answer s c p f
  exacts [hf (.endTag h), .lateReply h]

/-! ### Machine/Tack -/

theorem State.memoriesWf.meetDigest (h : s.memoriesWf) : (s.meetDigest c t w body).memoriesWf :=
  .ite (.endTag (.setThread (.signal h))) (.trapResponse (.countFailure (.endTag (.addMax h))))

theorem State.memoriesWf.meetEarly (h : s.memoriesWf) : (s.meetEarly c t).memoriesWf := by
  fun_cases State.meetEarly s c t
  exacts [.meetDigest (.setCore h), h]

theorem State.memoriesWf.tackPoint {tack : Fin 32} {set : Bool} {target : Lcn} (h : s.memoriesWf) :
    (s.tackPoint x th tack set v target f).memoriesWf :=
  .meetEarly (.send (.takeTag (.foldDigest h)))

theorem State.memoriesWf.countSignal {target : Lcn} {tack : Fin 32} (h : s.memoriesWf) :
    (s.countSignal c target tack v).memoriesWf := by
  fun_cases State.countSignal s c target tack v
  exacts [h, .setCore h]

theorem State.memoriesWf.tsig {tack : Fin 32} {set : Bool} (h : s.memoriesWf) :
    (s.tsig x tack set rs1 rs2 f).memoriesWf := by
  refine .issue (fun h => ?_) h
  split
  · exact .trap
  · exact .ite (.done (.tackPoint (.ite h (.countSignal h)))) (.ite (.done (.signal (.ite h (.countSignal h)))) (.done
      (.send (.takeTag (.ite h (.countSignal h))))))

theorem State.memoriesWf.tickWait {tack : Nat} (h : s.memoriesWf) : (s.tickWait c t tack).memoriesWf :=
  .ite (.tick (.tick h)) h

theorem State.memoriesWf.twait {tack : Fin 32} (h : s.memoriesWf) : (s.twait x tack rs1 eq).memoriesWf :=
  .issue (fun h => .ite (.done h) (.done (.tickWait (.setThread h)))) h

theorem Out.memoriesWf.execDupDigestArrival (h : s.memoriesWf) : Out.memoriesWf (execDupDigestArrival pkt s) := by
  unfold Machine.execDupDigestArrival
  split
  · exact .next h
  refine .next (.unless (.serve (fun h => ?_)) h)
  split
  · exact .meetDigest h
  · exact .setCore h

/-! ### Machine/Pattern -/

theorem State.memoriesWf.endLoad {tack : Nat} (h : s.memoriesWf) : (s.endLoad c tack err).memoriesWf :=
  .signal (.put (.put h))

theorem State.memoriesWf.writePatLoad (h : s.memoriesWf) : (s.writePatLoad c v).memoriesWf := by
  fun_cases State.writePatLoad s c v
  exacts [.writePlain h, .endLoad (.writePlain h), .setCore (.putBit (.writePlain h))]

theorem State.memoriesWf.copySlot (h : s.memoriesWf) : (s.copySlot c l).memoriesWf :=
  .foldl (fun h => .ite (.writePattern h ..) (.put (.tileFailed h))) h

theorem State.memoriesWf.rewritePeers (h : s.memoriesWf) : (s.rewritePeers c slot f).memoriesWf :=
  .foldl (fun h => .ite (.writePattern h ..) h) h

theorem Out.memoriesWf.execPatternLoadDone (h : s.memoriesWf) : Out.memoriesWf (execPatternLoadDone c s) := by
  unfold Machine.execPatternLoadDone
  split
  · exact .next h
  · exact .next (.endLoad (.putBit (.rewritePeers (.copySlot (.setCore h)))))

theorem State.memoriesWf.requestSwitch (h : s.memoriesWf) : (s.requestSwitch c slot force cued).memoriesWf :=
  .ite (.when .addMax (.put h)) (.setCore h)

theorem State.memoriesWf.writePatCtl (h : s.memoriesWf) : (s.writePatCtl c v).memoriesWf :=
  .when .requestSwitch (.writePlain h)

theorem State.memoriesWf.setUpEnd (h : s.memoriesWf) : (s.setUpEnd c e d).memoriesWf :=
  .unless (fun h => .when .signal (.when .signal (.tick (.tick (.tick h))))) (.put (.put (.put (.put (.put (.put (.put
    (.put (.put h)))))))))

theorem State.memoriesWf.setUpSteer (h : s.memoriesWf) : (s.setUpSteer c n d).memoriesWf :=
  .putBit (.put (.put (.put (.put (.put (.put (.put (.put (.put (.put (.ite (.tick (.tick (.tick h))) h)))))))))))

theorem State.memoriesWf.startPattern {u : Nat} (h : s.memoriesWf) : (s.startPattern c u).memoriesWf :=
  .foldl (.when .setThread) h

theorem State.memoriesWf.beginSwitch (h : s.memoriesWf) : (s.beginSwitch c w).memoriesWf :=
  .setCore (.copyWindow h ..)

theorem State.memoriesWf.endSwitch {late : Bool} (h : s.memoriesWf) : (s.endSwitch c w late).memoriesWf := by
  unfold State.endSwitch
  exact .when .put (.when .put (.addWrap (.put (.put (.tick (.tick (.startPattern (.foldl .setUpSteer
    (.foldl .setUpEnd (.setCore h))))))))))

theorem Out.memoriesWf.execSwitchRun (h : s.memoriesWf) : Out.memoriesWf (execSwitchRun c late s) := by
  fun_cases Machine.execSwitchRun c late s
  exacts [.next h, .next h, .next (.endSwitch h), .next (.when .beginSwitch h)]

theorem State.memoriesWf.engineSignal {target : Lcn} {tack : Nat} (h : s.memoriesWf) :
    (s.engineSignal c target tack).memoriesWf :=
  .send (.countSignal h)

theorem State.memoriesWf.haltSteer (h : s.memoriesWf) : (s.haltSteer c n w).memoriesWf := .setCore (.putBit h)

theorem State.memoriesWf.steerCredits (h : s.memoriesWf) : (s.steerCredits c n w).memoriesWf :=
  .setCore (.addWrap (.put (.engineSignal (.engineSignal h))))

theorem State.memoriesWf.steerForward (h : s.memoriesWf) : (s.steerForward c n w out one).memoriesWf := by
  unfold State.steerForward
  dsimp only
  refine .ite (.put h) (.ite (.haltSteer (.tileFailed h)) ?_)
  split
  · exact .ite (.haltSteer (.writeTile h)) (.steerCredits (.engineSignal (.writeTile h)))
  · exact .ite (.haltSteer (.writePart h)) (.steerCredits (.engineSignal (.writePart h)))

theorem Out.memoriesWf.execSteerPair (h : s.memoriesWf) : Out.memoriesWf (execSteerPair c unit s) :=
  .ite (.next h) (.ite (.next h) (.ite (.next (.haltSteer (.tileFailed h))) (.next (.ite (.steerCredits h)
    (.steerForward h)))))

/-! ### Machine/Sum -/

theorem State.memoriesWf.setSums (h : s.memoriesWf) : (s.setSums c sums owed).memoriesWf := .setCore h

theorem State.memoriesWf.takeContribution (h : s.memoriesWf) : (s.takeContribution c p).memoriesWf := by
  fun_cases State.takeContribution s c p
  exacts [.replyErr h, .replyErr h, .setSums h]

theorem State.memoriesWf.replySum (h : s.memoriesWf) : (s.replySum c p).memoriesWf := .reply h

theorem State.memoriesWf.writeSum {step : Nat} (h : s.memoriesWf) : (s.writeSum c n step t l).memoriesWf :=
  .ite (.foldl .replyErr (.gatedError h)) (.foldl .replySum (.signal (.writeTile h)))

theorem Out.memoriesWf.execNsumMergeSend (h : s.memoriesWf) : Out.memoriesWf (execNsumMergeSend c n s) := by
  fun_cases Machine.execNsumMergeSend c n s
  exacts [.next h, .next h, .next (.send (.setSums (.put (.setFlags h)))),
    .next (.writeSum (.setSums (.put (.setFlags h))))]

theorem Out.memoriesWf.execNsuma (h : s.memoriesWf) : Out.memoriesWf (execNsuma pkt s) := by
  refine .next (.receive (fun h => ?_) h)
  split
  · exact .foldl .replySum (.setSums h)
  · exact .answer (fun h => h) h

/-! ### Machine/Ring -/

theorem State.memoriesWf.setRing (h : s.memoriesWf) : (s.setRing j r).memoriesWf := .update h

theorem State.memoriesWf.placeDeadline (h : s.memoriesWf) : (s.placeDeadline j).memoriesWf := by
  unfold State.placeDeadline
  split
  · exact h
  split
  · exact h
  refine .setRing (.placeCue ?_)
  split
  · exact .disarm h
  · exact h

theorem State.memoriesWf.placeMark (h : s.memoriesWf) : (s.placeMark j).memoriesWf := by
  unfold State.placeMark
  split
  · exact h
  split
  · exact h
  refine .unless .placeCue ?_
  split
  · exact .disarm h
  · exact h

theorem State.memoriesWf.nextDeadline (h : s.memoriesWf) : (s.nextDeadline j).memoriesWf := .put h

theorem State.memoriesWf.setUpRing {id : Nat} (h : s.memoriesWf) : (s.setUpRing j id nrep mseg).memoriesWf := by
  fun_cases State.setUpRing s j id nrep mseg
  exacts [.put h, .setRing (.nextDeadline (.put (.put (.put (.put (.put h))))))]

theorem State.memoriesWf.placeRing (h : s.memoriesWf) : (s.placeRing j).memoriesWf := by
  fun_cases State.placeRing s j
  exacts [h, .placeMark (.placeDeadline (.foldl (fun h => .put (.put (.put (.put (.put h))))) h))]

theorem State.memoriesWf.freeRing (h : s.memoriesWf) : (s.freeRing slot).memoriesWf := by
  refine .foldl (fun h => .ite (.update (.put ?_)) h) h
  split
  · exact .disarm (.disarm h)
  · exact h

theorem State.memoriesWf.writeErrors (h : s.memoriesWf) : (s.writeErrors c l base k b tiles).memoriesWf :=
  .ite (.foldl .writeTile h) (.foldl .writeTile h)

theorem State.memoriesWf.ringSend (h : s.memoriesWf) : (s.ringSend c typ d opc arg body f share).memoriesWf :=
  .send (.setCore h)

theorem State.memoriesWf.ringWrite (h : s.memoriesWf) : (s.ringWrite c d tile t share).memoriesWf := .ringSend h

theorem State.memoriesWf.ringSignal {tack : Nat} (h : s.memoriesWf) : (s.ringSignal c d tack share).memoriesWf :=
  .ringSend h

theorem State.memoriesWf.report (h : s.memoriesWf) : (s.report c p).memoriesWf := by
  fun_cases State.report s c p
  exacts [.setRing h, h]

theorem State.memoriesWf.reportBad (h : s.memoriesWf) : (s.reportBad c tiles).memoriesWf :=
  .report (.put (.put (.foldl .tileFailed h)))

theorem State.memoriesWf.reduceBlock (h : s.memoriesWf) : (s.reduceBlock c r l k b).2.memoriesWf := by
  fun_cases State.reduceBlock s c r l k b
  exacts [.reportBad h, .ringWrite (.when .put (.writeErrors (.setFlags h)))]

theorem State.memoriesWf.reduceShard (h : s.memoriesWf) : (s.reduceShard c r l k).2.memoriesWf :=
  have hs := .foldlSnd (fun h => .iteSnd (.reduceBlock h) h) h
  .iteSnd (.ringSignal hs) hs

theorem State.memoriesWf.layoutFails (h : s.memoriesWf) : (s.layoutFails c e).memoriesWf := .put (.setCore h)

theorem State.memoriesWf.startReduce (h : s.memoriesWf) : (s.startReduce c).memoriesWf := by
  unfold State.startReduce
  dsimp only
  split
  · exact .layoutFails h
  · exact .layoutFails h
  · exact .foldlSnd (fun h => .iteSnd (.reduceShard h) h) (.put (.unless .setRing h))

theorem State.memoriesWf.shareFailed (h : s.memoriesWf) : (s.shareFailed c).memoriesWf := .failRingOf (.put h)

theorem State.memoriesWf.sharePeer (h : s.memoriesWf) : (s.sharePeer c r l i).memoriesWf :=
  .ringSignal (.foldl (fun h => .ite (.ringWrite h) (.shareFailed (.tileFailed h))) h)

theorem State.memoriesWf.startShare (h : s.memoriesWf) : (s.startShare c).memoriesWf := by
  fun_cases State.startShare s c
  exacts [.put h, .foldl .sharePeer (.put h)]

theorem State.memoriesWf.writeRingCmd (h : s.memoriesWf) : (s.writeRingCmd c v).memoriesWf :=
  .ite (.writePlain h) (.ite (.put h) (.ite (.startReduce (.writePlain h)) (.ite (.startShare (.writePlain h)) (.put
    h))))

theorem State.memoriesWf.ringAnswer (h : s.memoriesWf) : (s.ringAnswer c op ok).memoriesWf := by
  fun_cases State.ringAnswer s c op ok
  exacts [h, .pump (.when .put (.unless .shareFailed (.setCore h)))]

theorem State.memoriesWf.dropRingOp (h : s.memoriesWf) : (s.dropRingOp c op).memoriesWf :=
  .unless .setEngineWin (.update h)

theorem State.memoriesWf.sumAndReport (h : s.memoriesWf) : (s.sumAndReport c marked).memoriesWf := by
  fun_cases State.sumAndReport s c marked
  exacts [.reportBad h, .reportBad h, .reportBad (.put (.put (.setFlags (.foldl .writeTile h)))),
    .report (.put (.put (.put (.setFlags (.foldl .writeTile h))))),
    .report (.put (.put (.put (.setFlags (.foldl .writeTile h)))))]

theorem State.memoriesWf.compareDigests (h : s.memoriesWf) : (s.compareDigests j r digests).memoriesWf := by
  refine .addWrap (.foldlFst (fun h => ?_) h)
  dsimp only
  split
  · exact h
  · exact .unless .put (.addMax (.foldl .countFailure h))

theorem State.memoriesWf.markedCompare (h : s.memoriesWf) : (s.markedCompare j).memoriesWf := by
  fun_cases State.markedCompare s j
  exacts [.compareDigests h, h, h]

theorem Out.memoriesWf.execRingInboxComplete (h : s.memoriesWf) : Out.memoriesWf (execRingInboxComplete c s) := by
  fun_cases Machine.execRingInboxComplete c s
  exacts [.next h, .next (.markedCompare (.sumAndReport h)), .next h]

theorem State.memoriesWf.writeDigestCfg (h : s.memoriesWf) : (s.writeDigestCfg j v).memoriesWf := by
  unfold State.writeDigestCfg
  refine .ite (.placeMark (.writePlain h)) ?_
  split
  · exact .placeMark (.writePlain h)
  refine .setRing (.put (.foldlFst (fun h => ?_) (.placeMark (.writePlain h))))
  split
  · exact .tileFailed h
  · exact h

theorem State.memoriesWf.nowDigest {e : State × PMap (BitVec 256)} (h : e.1.memoriesWf) :
    (State.nowDigest e k).1.memoriesWf := by
  unfold State.nowDigest
  dsimp only
  split
  · exact .iteFst h (.free (w := 256) h)
  · exact .free (w := 256) h

theorem Out.memoriesWf.execNowDigestDone (h : s.memoriesWf) : Out.memoriesWf (execNowDigestDone j s) := by
  unfold Machine.execNowDigestDone
  split
  · exact .next h
  · exact .ite (.next h) (.next (.setRing (.put (.compareDigests (.foldlFst .nowDigest h)))))

theorem State.memoriesWf.countVerdict (h : s.memoriesWf) : (s.countVerdict j v).memoriesWf := by
  fun_cases State.countVerdict s j v
  exacts [.put (.addWrap h), .put (.addSat h), .put (.addSat h), h]

theorem State.memoriesWf.sendVerdict (h : s.memoriesWf) : (s.sendVerdict j v r).memoriesWf :=
  .foldl (.when .setCore) h

theorem State.memoriesWf.issueVerdict (h : s.memoriesWf) : (s.issueVerdict j v r).memoriesWf := by
  have hs {s : State} (h : s.memoriesWf) : (match r.cueField with
      | some f => s.disarm f (deadlineEntry j)
      | none => s).memoriesWf := by
    split
    · exact .disarm h
    · exact h
  refine .ite ?_ (.placeDeadline (.nextDeadline (.setRing (.sendVerdict (.put (.put (.addWrap (.put
    (.countVerdict h)))))))))
  split
  · exact .raise (hs (.put (.setRing (.sendVerdict (.put (.put (.addWrap (.put (.countVerdict h)))))))))
  · exact hs (.put (.setRing (.sendVerdict (.put (.put (.addWrap (.put (.countVerdict h))))))))

theorem State.memoriesWf.haltUnit (h : s.memoriesWf) : (s.haltUnit c).memoriesWf := .put (.setCore (.update h))

theorem State.memoriesWf.haltRing (h : s.memoriesWf) : (s.haltRing j r).memoriesWf :=
  .setRing (.foldl (.when .haltUnit) h)

theorem Out.memoriesWf.execRingVerdict (h : s.memoriesWf) : Out.memoriesWf (execRingVerdict j s) := by
  fun_cases Machine.execRingVerdict j s
  exacts [.next h, .next h, .next h, .next (.issueVerdict h), .next (.haltRing h), .next (.issueVerdict h), .next h]

theorem Out.memoriesWf.execRingQuiet (h : s.memoriesWf) : Out.memoriesWf (execRingQuiet c s) := by
  fun_cases Machine.execRingQuiet c s
  exacts [.next h, .next (.setRing h), .next h]

theorem State.memoriesWf.applyVerdict (h : s.memoriesWf) : (s.applyVerdict c v).memoriesWf := by
  unfold State.applyVerdict
  exact .signal (.put (.addWrap (.unless .signal (.when .put (.put h)))))

theorem Out.memoriesWf.execRingVerdictApply (h : s.memoriesWf) : Out.memoriesWf (execRingVerdictApply c s) := by
  fun_cases Machine.execRingVerdictApply c s
  exacts [.next h, .next (.applyVerdict (.setCore h))]

theorem State.memoriesWf.writeRingRegister (h : s.memoriesWf) : (s.writeRingRegister c r v).memoriesWf :=
  .ite (.writePlain h) (.put h)

theorem State.memoriesWf.deadlineFired (h : s.memoriesWf) : (s.deadlineFired j attempt).memoriesWf := by
  fun_cases State.deadlineFired s j attempt
  exacts [.setRing h, h, h]

theorem State.memoriesWf.markFired (h : s.memoriesWf) : (s.markFired j).memoriesWf := by
  fun_cases State.markFired s j
  exacts [.placeMark (.setRing h), h]

/-! ### Machine/Marker -/

theorem State.memoriesWf.hostWrite (h : s.memoriesWf) : (s.hostWrite ld addr len data).memoriesWf := .update h

theorem State.memoriesWf.noteOrder {id : Nat} (h : s.memoriesWf) : (s.noteOrder id o).memoriesWf :=
  .when .raise (.when .hostWrite h)

theorem State.memoriesWf.setOrder (h : s.memoriesWf) : (s.setOrder slot o).memoriesWf := .noteOrder (.update h)

theorem State.memoriesWf.keepOrder (h : s.memoriesWf) : (s.keepOrder slot o).memoriesWf := .update h

theorem State.memoriesWf.countReject (h : s.memoriesWf) : (s.countReject ld reason).memoriesWf :=
  .addWrap (.put (.put h))

theorem State.memoriesWf.rejectOrder (h : s.memoriesWf) : (s.rejectOrder ld d reason).memoriesWf :=
  .noteOrder (.countReject h)

theorem State.memoriesWf.acceptOrder (h : s.memoriesWf) : (s.acceptOrder ld d).memoriesWf := by
  fun_cases State.acceptOrder s ld d
  exacts [h, .addWrap (.put (.setOrder h))]

theorem State.memoriesWf.advanceHead (h : s.memoriesWf) : (s.advanceHead ld).memoriesWf := .put h

theorem State.memoriesWf.takeCut (h : s.memoriesWf) : (s.takeCut ld e).memoriesWf := by
  fun_cases State.takeCut s ld e
  exacts [.advanceHead (.countReject h), .advanceHead (.rejectOrder h), h, .advanceHead (.acceptOrder h),
    .advanceHead (.rejectOrder h), .noteOrder (.update h)]

theorem State.memoriesWf.takeEnd {id : Nat} (h : s.memoriesWf) : (s.takeEnd ld id release).memoriesWf := by
  fun_cases State.takeEnd s ld id release
  exacts [h, .keepOrder h, h]

theorem Out.memoriesWf.execRingEntryTake (h : s.memoriesWf) : Out.memoriesWf (execRingEntryTake e s) := by
  fun_cases Machine.execRingEntryTake e s
  exacts [.next h, .next h, .next (.advanceHead (.countReject (.update h))), .next (.takeCut (.update h)),
    .next (.advanceHead (.takeEnd (.update h)))]

theorem Out.memoriesWf.execCutWaitEnd (h : s.memoriesWf) : Out.memoriesWf (execCutWaitEnd ld s) := by
  fun_cases Machine.execCutWaitEnd ld s
  exacts [.next h, .next (.ite (.advanceHead (.acceptOrder (.update h))) h)]

theorem State.memoriesWf.withdraw (h : s.memoriesWf) : (s.withdraw ld).memoriesWf := by
  fun_cases State.withdraw s ld
  exacts [h, .advanceHead (.rejectOrder (.update h))]

theorem State.memoriesWf.resetOrder (h : s.memoriesWf) : (s.resetOrder slot o final).memoriesWf :=
  .keepOrder (.foldl .coreReset h)

theorem State.memoriesWf.endOrder (h : s.memoriesWf) : (s.endOrder slot o final).memoriesWf :=
  .setOrder (.foldl (fun h => .put (.put (.put h))) (.freeRing h))

theorem State.memoriesWf.stepEnding (h : s.memoriesWf) : (s.stepEnding slot o).memoriesWf := by
  fun_cases State.stepEnding s slot o
  exacts [.keepOrder h, h, .endOrder h, .resetOrder h, .keepOrder h, .endOrder h]

theorem State.memoriesWf.onCore {f : State → State} (hf : ∀ {s : State}, s.memoriesWf → (f s).memoriesWf)
    (h : s.memoriesWf) : (s.onCore c f).memoriesWf :=
  .ite (hf h) (.gatedError h)

theorem State.memoriesWf.objectBack {place : Nat × Nat} (h : s.memoriesWf) : (s.objectBack o e place).memoriesWf :=
  .ite h (.ite (.foldl (fun h => .foldl (.unless (.onCore .hostWrite)) h) h) (.foldl (.unless (.onCore .hostWrite))
    h))

theorem Out.memoriesWf.execCutOrderSettle (h : s.memoriesWf) : Out.memoriesWf (execCutOrderSettle slot s) := by
  fun_cases Machine.execCutOrderSettle slot s
  exacts [.next h, .next h, .next (.stepEnding h), .next (.endOrder (.foldl .objectBack h)), .next (.setOrder h),
    .next h]

theorem State.memoriesWf.clearTrees (h : s.memoriesWf) : (s.clearTrees c).memoriesWf := .foldl .put h

theorem State.memoriesWf.putNode (h : s.memoriesWf) : (s.putNode c tree kind right parent).memoriesWf := by
  unfold State.putNode
  dsimp only
  split
  · exact h
  · exact .when (fun h => .put (.put (.free (.free h)))) (.put (.put (.put (.put (.put (.put (.put h)))))))

theorem State.memoriesWf.putTree {cores : List Lcn} (h : s.memoriesWf) :
    (s.putTree cores mask tree parent right root lo hi fuel).memoriesWf := by
  induction fuel generalizing s parent right root lo hi with
  | zero => exact h
  | succ fuel ih => exact .ite (.putNode h) (ih (ih (.putNode h)))

theorem State.memoriesWf.putTrees (h : s.memoriesWf) : (s.putTrees o).memoriesWf :=
  .when (.foldl .putTree) (.foldl .putTree h)

theorem State.memoriesWf.joinOrder (h : s.memoriesWf) : (s.joinOrder o c).memoriesWf :=
  .clearTrees (.put (.put (.put h)))

theorem State.memoriesWf.leaveOrder (h : s.memoriesWf) : (s.leaveOrder n).memoriesWf :=
  .clearTrees (.put (.put (.put h)))

theorem State.memoriesWf.takePlacement (h : s.memoriesWf) : (s.takePlacement slot o p us).memoriesWf := by
  unfold State.takePlacement
  dsimp only
  split
  · exact .placeRing (.put (.put (.putTrees (.foldl .joinOrder (.update (.foldl .leaveOrder
      (.setOrder (.setOrder h))))))))
  · exact .put (.put (.putTrees (.foldl .joinOrder (.update (.foldl .leaveOrder (.setOrder (.setOrder h)))))))

theorem Out.memoriesWf.execCutPlacement (h : s.memoriesWf) : Out.memoriesWf (execCutPlacement slot us s) := by
  fun_cases Machine.execCutPlacement slot us s
  exacts [.next h, .next h, .next (.stepEnding h), .next h, .next (.takePlacement h)]

theorem Out.memoriesWf.execCutReplace (h : s.memoriesWf) : Out.memoriesWf (execCutReplace slot us s) := by
  fun_cases Machine.execCutReplace slot us s
  exacts [.next h, .next h, .next h, .next (.takePlacement h)]

theorem State.memoriesWf.loadTileAt (h : s.memoriesWf) : (s.loadTileAt o c tile t).memoriesWf :=
  .when (.onCore .writeTile) (.onCore .writeTile h)

theorem State.memoriesWf.loadTile (h : s.memoriesWf) : (s.loadTile o q tile t).memoriesWf := .loadTileAt h

theorem State.memoriesWf.loadRows (h : s.memoriesWf) : (s.loadRows o rows first).memoriesWf :=
  .foldl (fun h => .loadTile (.foldlFst (fun h => .foldl .loadTile (.loadTile h)) h)) h

theorem State.memoriesWf.loadObject {place : Nat × Nat} (h : s.memoriesWf) :
    (s.loadObject o e place tree).memoriesWf := by
  fun_cases State.loadObject s o e place tree
  exacts [.foldl (fun h => .foldl .loadTile h) h, .foldl .loadTileAt h, .loadRows h, h]

theorem State.memoriesWf.loadObjects (h : s.memoriesWf) : (s.loadObjects o).memoriesWf := .foldlFst .loadObject h

/-- The load's image goes into the instruction store byte by byte, as every write of a memory does. -/
theorem State.memoriesWf.loadIstore {istoreBad : List Nat} (h : s.memoriesWf) :
    State.memoriesWf { s with istore := writeLE s.istore 0xFF base v n, istoreBad } := by
  obtain ⟨hsram, histore, hrest⟩ := h
  exact ⟨hsram, canonical_writeLE 0xFF _ _ _ _ histore, hrest⟩

theorem State.memoriesWf.loadCore (h : s.memoriesWf) : (s.loadCore o c).memoriesWf :=
  .onCore (fun h => .ite (.seedAll (.put (.ite (.put h) (.loadIstore h)))) (.put (.ite (.put h) (.loadIstore h)))) h

theorem State.memoriesWf.startThread (h : s.memoriesWf) : (s.startThread slot o c t rank).memoriesWf := .setThread h

theorem Out.memoriesWf.execCutLoadComplete (h : s.memoriesWf) : Out.memoriesWf (execCutLoadComplete slot s) := by
  fun_cases Machine.execCutLoadComplete slot s
  exacts [.next h, .next h, .next (.stepEnding h), .next h,
    .next (.setOrder (.foldl (.when .startThread) (.loadObjects (.foldl .loadCore h))))]

theorem State.memoriesWf.haltOrder (h : s.memoriesWf) : (s.haltOrder slot).memoriesWf := by
  fun_cases State.haltOrder s slot
  exacts [.foldl .haltThread h, h]

theorem State.memoriesWf.resumeOrder (h : s.memoriesWf) : (s.resumeOrder slot).memoriesWf := by
  fun_cases State.resumeOrder s slot
  exacts [.foldl .resumeThread h, h]

theorem State.memoriesWf.beginMigration (h : s.memoriesWf) : (s.beginMigration f parks).memoriesWf := by
  fun_cases State.beginMigration s f parks
  exacts [.haltOrder (.update (.put (.put h))), .update (.put (.put h))]

theorem State.memoriesWf.rewriteCore (h : s.memoriesWf) : (s.rewriteCore c moves).memoriesWf :=
  .foldl .rewritePeers (.foldl .put (.foldl .put h))

theorem State.memoriesWf.moveOrder (h : s.memoriesWf) : (s.moveOrder slot o p).memoriesWf :=
  .keepOrder (.update (.update (.foldl .rewriteCore (.foldl (fun h => .moveCore h ..) h))))

theorem State.memoriesWf.nextMigration (h : s.memoriesWf) : (s.nextMigration us).memoriesWf := by
  fun_cases State.nextMigration s us
  exacts [h, .haltOrder (.update h), .update (.put (.put (.put h)))]

theorem State.memoriesWf.failMigration (h : s.memoriesWf) : (s.failMigration slot us).memoriesWf :=
  .nextMigration (.put (.resumeOrder h))

theorem State.memoriesWf.failRings (h : s.memoriesWf) : s.failRings.memoriesWf := by
  refine .foldl (fun h => .update (.sendVerdict ?_)) h
  split
  · exact .disarm (.disarm h)
  · exact h

theorem State.memoriesWf.resetMarker (h : s.memoriesWf) : s.resetMarker.memoriesWf :=
  .update (.resetKeys (.failRings (.foldl (.when .stepEnding) h)))

/-! ### Machine/Selvedge -/

theorem State.memoriesWf.setPort (h : s.memoriesWf) : (s.setPort p q).memoriesWf := .update h

theorem State.memoriesWf.putPortState (h : s.memoriesWf) : (s.putPortState p v).memoriesWf := .put h

theorem Out.memoriesWf.execSelRequest (h : s.memoriesWf) : Out.memoriesWf (execSelRequest p pkt s) := by
  fun_cases Machine.execSelRequest p pkt s
  exacts [.next h, .next h, .next (.replyErr (.dropPacket h)), .next (.replyErr (.dropPacket h)),
    .next (.setPort (.dropPacket h))]

theorem State.memoriesWf.answerAccepted (h : s.memoriesWf) : (s.answerAccepted p).memoriesWf := .foldl .replyErr h

theorem State.memoriesWf.failPort (h : s.memoriesWf) : (s.failPort p).memoriesWf :=
  .raiseAll (.put (.putPortState (.setPort (.answerAccepted h))))

theorem State.memoriesWf.resetPort (h : s.memoriesWf) : (s.resetPort p).memoriesWf :=
  .resetKeys (.setPort (.answerAccepted h))

theorem State.memoriesWf.emit (h : s.memoriesWf) : (s.emit p v).memoriesWf := .update h

theorem State.memoriesWf.sendControl (h : s.memoriesWf) : (s.sendControl p kind e0).memoriesWf := .emit h

theorem State.memoriesWf.sendAgain (h : s.memoriesWf) : (s.sendAgain p f).memoriesWf := .emit h

theorem State.memoriesWf.sendFrame (h : s.memoriesWf) : (s.sendFrame p commands bundle data).memoriesWf :=
  .sendAgain (.setPort h)

theorem State.memoriesWf.grant (h : s.memoriesWf) : (s.grant p panel forced reqs last).memoriesWf :=
  .sendFrame (.setPort (.when .addSat (.setPort (.when .addSat (.addWrap (.addWrap (.put (.put h))))))))

theorem State.memoriesWf.waitBeat (h : s.memoriesWf) : (s.waitBeat p).memoriesWf := .setPort h

theorem State.memoriesWf.replayBeat (h : s.memoriesWf) : (s.replayBeat p).memoriesWf := by
  fun_cases State.replayBeat s p
  exacts [.sendAgain (.setPort h), .sendControl h]

theorem State.memoriesWf.frameBeat (h : s.memoriesWf) : (s.frameBeat p).memoriesWf := by
  fun_cases State.frameBeat s p
  exacts [.sendControl (.waitBeat h), .sendFrame (.waitBeat h), .grant h, h]

theorem Out.memoriesWf.execSelArbitrate (h : s.memoriesWf) : Out.memoriesWf (execSelArbitrate p s) :=
  .ite (.next (.waitBeat h)) (.ite (.next h) (.ite (.next (.waitBeat (.setPort h))) (.ite (.next (.replayBeat
    (.waitBeat (.setPort h)))) (.next (.frameBeat (.setPort h))))))

theorem State.memoriesWf.retrainPort (h : s.memoriesWf) : (s.retrainPort p).memoriesWf :=
  .addSat (.putPortState (.setPort h))

theorem State.memoriesWf.startEpisode {now : Nat} (h : s.memoriesWf) : (s.startEpisode p now frame).memoriesWf :=
  .ite (.failPort h) (.tick (.addSat (.putPortState (.setPort h))))

theorem State.memoriesWf.failFrame {now : Nat} (h : s.memoriesWf) : (s.failFrame p now).memoriesWf :=
  .ite h (.when .sendControl (.when .startEpisode (.setPort h)))

theorem State.memoriesWf.startReplay {now : Nat} (h : s.memoriesWf) : (s.startReplay p now).memoriesWf :=
  .ite h (.when .setPort (.when .startEpisode h))

theorem State.memoriesWf.endEpisode (h : s.memoriesWf) : (s.endEpisode p).memoriesWf :=
  .ite (.putPortState (.setPort h)) h

theorem State.memoriesWf.countProto (h : s.memoriesWf) : (s.countProto p k).memoriesWf := .addSat h

theorem State.memoriesWf.addCredits (h : s.memoriesWf) : (s.addCredits p held cred n).memoriesWf :=
  .countProto (.put h)

theorem State.memoriesWf.freePortTag (h : s.memoriesWf) : (s.freePortTag p tag).memoriesWf := .setPort h

theorem State.memoriesWf.unitAnswer (h : s.memoriesWf) : (s.unitAnswer p fr e).memoriesWf := by
  fun_cases State.unitAnswer s p fr e
  exacts [.countProto h, .addSat h, .countProto h, .reply (.freePortTag h), .replyAck (.freePortTag h),
    .replyErr (.freePortTag h), .replyErr (.freePortTag h), .countProto h]

theorem State.memoriesWf.acceptFrame (h : s.memoriesWf) : (s.acceptFrame p fr).memoriesWf :=
  .endEpisode (.foldl .unitAnswer (.addCredits (.addCredits (.setPort h))))

theorem State.memoriesWf.checkFails {now : Nat} (h : s.memoriesWf) : (s.checkFails p sequenced now).memoriesWf :=
  .ite h (.when .failFrame (.addSat h))

theorem State.memoriesWf.takeNak {now : Nat} (h : s.memoriesWf) : (s.takeNak p fseq now).memoriesWf :=
  .ite h (.startReplay (.setPort h))

theorem Out.memoriesWf.execSelFrameReceive {now : Nat} (h : s.memoriesWf) :
    Out.memoriesWf (execSelFrameReceive p frame now s) :=
  .ite (.next (.checkFails h)) (.ite (.next h) (.ite (.next (.takeNak (.setPort h))) (.ite (.next (.endEpisode
    (.setPort h))) (.ite (.next (.acceptFrame h)) (.ite (.next h) (.next (.failFrame h)))))))

theorem Out.memoriesWf.execSelReplayFail (h : s.memoriesWf) : Out.memoriesWf (execSelReplayFail p s) :=
  .ite (.next h) (.ite (.next (.setPort h)) (.ite (.next (.retrainPort h)) (.next (.failPort h))))

theorem State.memoriesWf.mapLanes (h : s.memoriesWf) : (s.mapLanes p).memoriesWf := by
  fun_cases State.mapLanes s p
  exacts [.put (.put h), .failPort h]

theorem State.memoriesWf.laneBad (h : s.memoriesWf) : (s.laneBad p l late).memoriesWf := by
  fun_cases State.laneBad s p l late
  exacts [.putBit h, .retrainPort (.putBit h), .putBit h, .retrainPort (.putBit h), .setPort (.putBit h), .putBit h,
    .setPort (.putBit h), .setPort (.putBit h), .setPort (.putBit h)]

theorem State.memoriesWf.sendLctl (h : s.memoriesWf) : (s.sendLctl p e).memoriesWf := .sendControl h

theorem State.memoriesWf.countLane (h : s.memoriesWf) : (s.countLane f p l).memoriesWf := .addSat h

theorem Out.memoriesWf.execSelRetrainDone {now : Nat} (h : s.memoriesWf) :
    Out.memoriesWf (execSelRetrainDone p unlocked failing worst now s) := by
  refine .ite (.next h) (.ite (.next (.failPort ?marked)) (.ite (.next ?mapped)
    (.ite (.next (.retrainPort (.setPort ?mapped))) (.ite (.next (.putPortState (.setPort ?mapped)))
      (.next (.startReplay (.putPortState ?mapped)))))))
  case marked => exact .when .putBit (.put h)
  case mapped => exact .unless (fun h => .sendLctl (.sendLctl h)) (.mapLanes (.when .putBit (.put h)))

theorem Out.memoriesWf.execSelRspTimeout (h : s.memoriesWf) : Out.memoriesWf (execSelRspTimeout p tag s) := by
  fun_cases Machine.execSelRspTimeout p tag s
  exacts [.next h, .next h, .next (.addSat (.replyErr (.setPort h)))]

theorem Out.memoriesWf.execSelTagRelease (h : s.memoriesWf) : Out.memoriesWf (execSelTagRelease p tag s) := by
  fun_cases Machine.execSelTagRelease p tag s
  exacts [.next h, .next (.when .freePortTag h)]

theorem State.memoriesWf.trainPort (h : s.memoriesWf) : (s.trainPort p).memoriesWf :=
  .ite (.putPortState (.setPort h)) h

theorem State.memoriesWf.takeCaps (h : s.memoriesWf) : (s.takeCaps p c).memoriesWf :=
  .put (.put (.put (.put (.put (.put h)))))

theorem State.memoriesWf.trainLanes (h : s.memoriesWf) : (s.trainLanes p unlocked).memoriesWf :=
  .unless .sendLctl (.mapLanes (.setPort (.put h)))

theorem Out.memoriesWf.execSelTrainDone {lanes : TrainedLanes} {ready : Option Word} (h : s.memoriesWf) :
    Out.memoriesWf (execSelTrainDone p lanes caps ready failing s) := by
  fun_cases Machine.execSelTrainDone p lanes caps ready failing s
  exacts [.next h, .next (.trainLanes h), .next (.failPort (.trainLanes h)),
    .next (.failPort (.sendLctl (.trainLanes h))), .next (.failPort (.sendLctl (.trainLanes h))),
    .next (.failPort (.sendLctl (.sendLctl (.trainLanes h)))),
    .next (.unless .retrainPort (.putPortState (.setPort (.takeCaps (.sendLctl (.sendLctl (.trainLanes h)))))))]

/-! ### Machine/HostAttach -/

theorem State.memoriesWf.answerHost (h : s.memoriesWf) : (s.answerHost ld kind ok len data).memoriesWf := .update h

theorem State.memoriesWf.ctlError (h : s.memoriesWf) : (s.ctlError via).memoriesWf := .put (.addSat h)

theorem State.memoriesWf.writeLdPart (h : s.memoriesWf) : (s.writeLdPart ld v).memoriesWf :=
  .ite (.ctlError h) (.put h)

theorem State.memoriesWf.writeFmwin (h : s.memoriesWf) : (s.writeFmwin ld v).memoriesWf :=
  .ite (.ctlError h) (.writePlain h)

theorem State.memoriesWf.writeMsix (h : s.memoriesWf) : (s.writeMsix ld v).memoriesWf :=
  .ite (.ctlError h) (.writePlain h)

theorem Out.memoriesWf.control {f : State → State} (hf : ∀ {s : State}, s.memoriesWf → (f s).memoriesWf)
    (h : s.memoriesWf) : (s.control via r ld v f).memoriesWf :=
  .ite (.next (.gatedError h)) (.ite (.next (.ctlError h)) (.ite .fault (.next (hf h))))

theorem Out.memoriesWf.ownWrite {f : State → State} (hf : ∀ {s : State}, s.memoriesWf → (f s).memoriesWf)
    (h : s.memoriesWf) : (s.ownWrite r ld v f).memoriesWf :=
  .ite (.next (.gatedError h)) (.ite .fault (.next (hf h)))

theorem State.memoriesWf.writeRing (h : s.memoriesWf) : (s.writeRing ld v).memoriesWf :=
  .when (fun h => .put (.put h)) (.writePlain h)

theorem State.memoriesWf.writeEvq (h : s.memoriesWf) : (s.writeEvq ld v).memoriesWf :=
  .when (fun h => .put (.put h)) (.writePlain h)

theorem State.memoriesWf.sendMessage (h : s.memoriesWf) : (s.sendMessage ld kind masked).memoriesWf :=
  .ite h (.ite (.update h) (.update h))

theorem State.memoriesWf.postEvent (h : s.memoriesWf) : (s.postEvent e masked).memoriesWf :=
  .ite h (.ite (.loseEvent h) (.sendMessage (.put (.hostWrite h))))

theorem Out.memoriesWf.execEventPost (h : s.memoriesWf) : Out.memoriesWf (execEventPost masked s) := by
  fun_cases Machine.execEventPost masked s
  exacts [.next h, .next (.ite (.postEvent (.update h)) h)]

theorem Out.memoriesWf.execTrapWindowEnd (h : s.memoriesWf) : Out.memoriesWf (execTrapWindowEnd slot s) := by
  fun_cases Machine.execTrapWindowEnd slot s
  exacts [.next h, .next (.unless .raiseEvent (.update h)), .next (.update h)]

theorem State.memoriesWf.memError (h : s.memoriesWf) : (s.memError ld).memoriesWf := .addSat h

theorem Out.memoriesWf.execCxlMemRead (h : s.memoriesWf) : Out.memoriesWf (execCxlMemRead ld x result cmds s) := by
  fun_cases Machine.execCxlMemRead ld x result cmds s
  exacts [.next h, .next (.answerHost (.memError h)), .next (.answerHost (.addWrap h)),
    .next (.answerHost (.memError h))]

theorem Out.memoriesWf.execCxlMemWrite (h : s.memoriesWf) : Out.memoriesWf (execCxlMemWrite ld x done cmds s) := by
  fun_cases Machine.execCxlMemWrite ld x done cmds s
  exacts [.next h, .next (.answerHost (.memError h)), .next (.answerHost (.ite (.addWrap h) (.memError h)))]

theorem State.memoriesWf.hostMemFails (h : s.memoriesWf) : (s.hostMemFails q code).memoriesWf := .replyErr (.addSat h)

theorem State.memoriesWf.hostMemRequest (h : s.memoriesWf) : (s.hostMemRequest q).memoriesWf :=
  .ite (.hostMemFails h) (.ite (.hostMemFails h) (.update h))

theorem State.memoriesWf.endHostReq (h : s.memoriesWf) : (s.endHostReq q).memoriesWf := .update h

theorem Out.memoriesWf.execHostMemAnswer (h : s.memoriesWf) : Out.memoriesWf (execHostMemAnswer pkt r s) := by
  fun_cases Machine.execHostMemAnswer pkt r s
  exacts [.next h, .next h, .next (.reply (.endHostReq h)), .next (.replyAck (.endHostReq h)),
    .next (.hostMemFails (.endHostReq h)), .next (.hostMemFails (.endHostReq h))]

theorem Out.memoriesWf.execHostMemTimeout (h : s.memoriesWf) : Out.memoriesWf (execHostMemTimeout pkt s) := by
  fun_cases Machine.execHostMemTimeout pkt s
  exacts [.next h, .next (.ite (.hostMemFails (.endHostReq h)) h)]

theorem State.memoriesWf.showBeacon (h : s.memoriesWf) : (s.showBeacon valid).memoriesWf := .put h

theorem Out.memoriesWf.execBeaconWord (h : s.memoriesWf) : Out.memoriesWf (execBeaconWord w s) := by
  fun_cases Machine.execBeaconWord w s
  exacts [.next (.showBeacon (.update h)), .next (.showBeacon (.update h)), .next (.update h)]

theorem State.memoriesWf.fibreEvent (h : s.memoriesWf) : s.fibreEvent.memoriesWf := .raise h

theorem State.memoriesWf.hostLinkDown (h : s.memoriesWf) : s.hostLinkDown.memoriesWf :=
  .put (.put (.foldl (fun h => .put (.put h)) (.update (.foldl .loseEvent (.foldl .hostMemFails h)))))

theorem State.memoriesWf.downTrain (h : s.memoriesWf) : (s.downTrain dead).memoriesWf :=
  .ite (.hostLinkDown h) (.fibreEvent (.put (.update h)))

theorem State.memoriesWf.leaveL0 (h : s.memoriesWf) : s.leaveL0.memoriesWf := .put (.addMax (.put h))

theorem Out.memoriesWf.execLinkRecovery (h : s.memoriesWf) : Out.memoriesWf (execLinkRecovery s) := by
  refine .ite (.next h) (.next (.unless .fibreEvent (.unless .showBeacon (.update (.put (.put ?_))))))
  split
  · exact .put (.put (.when .leaveL0 h))
  · exact .when .leaveL0 h

theorem State.memoriesWf.freshFibres (h : s.memoriesWf) : s.freshFibres.memoriesWf :=
  .update (.put (.put (.put (.put (.put h)))))

theorem State.memoriesWf.takeWidth (h : s.memoriesWf) : (s.takeWidth dead).memoriesWf := .unless .downTrain h

theorem State.memoriesWf.enterL0 (h : s.memoriesWf) : (s.enterL0 dead slow).memoriesWf :=
  .takeWidth (.put (.put (.put h)))

theorem Out.memoriesWf.execHostLinkL0 (h : s.memoriesWf) : Out.memoriesWf (execHostLinkL0 us dead slow s) := by
  fun_cases Machine.execHostLinkL0 us dead slow s
  exacts [.next h, .next h, .next (.enterL0 (.put h)), .next (.enterL0 (.put (.freshFibres h)))]

theorem Out.memoriesWf.fmCommand (h : s.memoriesWf) : (s.fmCommand f kind len data).memoriesWf :=
  .next (.ite h (.ite (.answerHost h) (.answerHost h)))

/-! ### Machine/Seam -/

theorem State.memoriesWf.enterFailed (h : s.memoriesWf) : (s.enterFailed f side net i).memoriesWf :=
  .raiseField (.setLink h)

theorem State.memoriesWf.failLink (h : s.memoriesWf) : (s.failLink f side net i).memoriesWf :=
  .updateDistances (.enterFailed h)

theorem State.memoriesWf.cutPacket (h : s.memoriesWf) : (s.cutPacket f side net i cut).memoriesWf := by
  fun_cases State.cutPacket s f side net i cut
  exacts [.setPacket h, h]

theorem State.memoriesWf.cutLast (h : s.memoriesWf) : (s.cutLast f side net i).memoriesWf := by
  unfold State.cutLast
  split
  · exact .when .setPacket (.free (w := 1) h)
  · exact h

theorem State.memoriesWf.countFlit (h : s.memoriesWf) : (s.countFlit f).memoriesWf := .addSat h

theorem State.memoriesWf.countReplay (h : s.memoriesWf) : (s.countReplay f side).memoriesWf := .addSat h

theorem Out.memoriesWf.execSeamFlitFail {now : Nat} (h : s.memoriesWf) :
    Out.memoriesWf (execSeamFlitFail f side net i seq now cut s) := by
  fun_cases Machine.execSeamFlitFail f side net i seq now cut s
  exacts [.next h, .next (.tick (.setLink (.countFlit h))), .next (.cutPacket (.failLink (.countFlit h))),
    .next (.setLink (.countFlit h)), .next (.setLink (.countFlit h)), .next h]

theorem Out.memoriesWf.execSeamReplayFail (h : s.memoriesWf) :
    Out.memoriesWf (execSeamReplayFail f side net i seq cut s) :=
  .ite (.next h) (.ite (.next (.setLink (.countFlit h))) (.ite (.next (.setLink (.countFlit h))) (.next (.cutPacket
    (.failLink (.countFlit h))))))

theorem Out.memoriesWf.execSeamRetrainDone (h : s.memoriesWf) :
    Out.memoriesWf (execSeamRetrainDone f side net i cut s) :=
  .ite (.next h) (.ite (.next (.cutPacket (.failLink h))) (.next (.countReplay (.setLink h))))

theorem State.memoriesWf.resetFab (h : s.memoriesWf) : (s.resetFab f).memoriesWf := .resetKeys h

/-! ### Machine/Failure -/

theorem State.memoriesWf.loseThreads (h : s.memoriesWf) : (s.loseThreads e lost).memoriesWf := by
  fun_cases State.loseThreads s e lost
  exacts [h, .raiseTrap (.keepOrder h)]

theorem State.memoriesWf.failLostRings (h : s.memoriesWf) : (s.failLostRings lost).memoriesWf := .update h

theorem State.memoriesWf.loseCores (h : s.memoriesWf) : (s.loseCores which).memoriesWf :=
  .wipeCores (.failLostRings (.foldl .loseThreads h)) ..

theorem State.memoriesWf.readyBit (h : s.memoriesWf) : (s.readyBit f i b).memoriesWf := .putBit h

theorem State.memoriesWf.dropEngines (h : s.memoriesWf) : (s.dropEngines f).memoriesWf := .update h

theorem State.memoriesWf.computeOff (h : s.memoriesWf) : (s.computeOff f).memoriesWf :=
  .readyBit (.put (.setDomain (.dropEngines (.loseCores h))))

theorem State.memoriesWf.parkReason (h : s.memoriesWf) : (s.parkReason f r b).memoriesWf := .putBit h

theorem State.memoriesWf.parkField (h : s.memoriesWf) : (s.parkField f r).memoriesWf :=
  .when (fun h => .updateDistances (.raiseField (.computeOff h))) (.update (.parkReason h))

theorem State.memoriesWf.noteFault (h : s.memoriesWf) : (s.noteFault old).memoriesWf :=
  .noteThrottles (.when .pendIbi h)

theorem State.memoriesWf.parkMigrated (h : s.memoriesWf) : (s.parkMigrated m).memoriesWf := .when .parkField h

theorem Out.memoriesWf.execMigrationQuiesced (h : s.memoriesWf) : Out.memoriesWf (execMigrationQuiesced us s) := by
  fun_cases Machine.execMigrationQuiesced us s
  exacts [.next h, .next (.parkMigrated (.nextMigration h)), .next (.parkMigrated (.nextMigration h)),
    .next (.parkMigrated (.nextMigration h)), .next h, .next (.parkMigrated (.failMigration h)),
    .next (.parkMigrated (.nextMigration (.resumeOrder (.moveOrder h))))]

theorem Out.memoriesWf.execRingMigrationTimeout (h : s.memoriesWf) :
    Out.memoriesWf (execRingMigrationTimeout us s) := by
  fun_cases Machine.execRingMigrationTimeout us s
  exacts [.next h, .next h, .next h, .next (.ite h (.parkMigrated (.failMigration h)))]

theorem State.memoriesWf.failSeams (h : s.memoriesWf) : (s.failSeams f).memoriesWf := by
  refine .foldl (fun h => .foldl (fun h => .foldl (fun h => ?_) h) h) h
  split
  · exact h
  · exact h
  · exact .cutLast (.enterFailed h)

theorem State.memoriesWf.dropTransit (h : s.memoriesWf) : (s.dropTransit f).memoriesWf := .update h

theorem State.memoriesWf.clocksOff (h : s.memoriesWf) : (s.clocksOff f).memoriesWf :=
  .update (.put (.put (.put (.put h))))

theorem State.memoriesWf.transitOff (h : s.memoriesWf) : (s.transitOff f).memoriesWf :=
  .readyBit (.readyBit (.readyBit (.put (.put (.setDomain (.clocksOff (.emptyCues (.dropTransit (.when .computeOff
    h)))))))))

theorem State.memoriesWf.markHole (h : s.memoriesWf) : (s.markHole f).memoriesWf :=
  .updateDistances (.raiseAll (.unless .update (.putBit h)))

theorem State.memoriesWf.failPortsOf (h : s.memoriesWf) : (s.failPortsOf f).memoriesWf := .foldl .failPort h

theorem State.memoriesWf.declareHole (h : s.memoriesWf) : (s.declareHole f).memoriesWf :=
  .ite h (.markHole (.failPortsOf (.transitOff (.failSeams h))))

/-! ### Machine/Integrity -/

theorem State.memoriesWf.startTest (h : s.memoriesWf) : (s.startTest seg).memoriesWf := .update h

theorem State.memoriesWf.sweepFired (h : s.memoriesWf) : (s.sweepFired f suspect).memoriesWf :=
  .addWrap (.foldl .startTest h)

theorem Out.memoriesWf.execSweepCuePlace (h : s.memoriesWf) : Out.memoriesWf (execSweepCuePlace f suspect s) :=
  .ite (.next h) (.ite (.ite (.next h) (.next (.placeCue h))) (.ite (.next h) (.next (.placeCue h))))

theorem State.memoriesWf.testFails (h : s.memoriesWf) : (s.testFails n).memoriesWf := .addMax (.countFailure h)

theorem State.memoriesWf.testPasses (h : s.memoriesWf) : (s.testPasses n).memoriesWf := .update h

theorem State.memoriesWf.cleanTested (h : s.memoriesWf) : (s.cleanTested seg).memoriesWf :=
  .resetWindows (.wipeTested h ..)

theorem State.memoriesWf.endGroup (h : s.memoriesWf) : (s.endGroup seg i).memoriesWf := by
  fun_cases State.endGroup s seg i
  exacts [h, .update (.cleanTested (.addWrap h)), .update (.addWrap h)]

theorem Out.memoriesWf.execTestGroupDone (h : s.memoriesWf) :
    Out.memoriesWf (execTestGroupDone seg i d0 d1 d2 s) := by
  fun_cases Machine.execTestGroupDone seg i d0 d1 d2 s
  exacts [.next h, .next (.endGroup (.foldl (fun h => .ite (.testFails h) (.testPasses h)) h))]

theorem Out.memoriesWf.execTestRunTimeout (h : s.memoriesWf) : Out.memoriesWf (execTestRunTimeout seg i k s) := by
  fun_cases Machine.execTestRunTimeout seg i k s
  exacts [.next h, .next (.endGroup (.testFails h)), .next h]

theorem Out.memoriesWf.execWatchEntryExpire (h : s.memoriesWf) : Out.memoriesWf (execWatchEntryExpire p s) := by
  fun_cases Machine.execWatchEntryExpire p s
  exacts [.next h, .next (.update h), .next h]

theorem State.memoriesWf.writeIntCtl (h : s.memoriesWf) : (s.writeIntCtl v).memoriesWf :=
  .when .update (.writePlain h)

theorem State.memoriesWf.resetIntegrity (h : s.memoriesWf) : s.resetIntegrity.memoriesWf :=
  .update (.resetKeys (.foldl (fun h => .foldl (.when .disarm) (.foldl (.when .disarm) h)) h))

/-! ### Machine/Clock -/

theorem State.memoriesWf.useSource (h : s.memoriesWf) : (s.useSource f src).memoriesWf :=
  .when .update (.put (.put h))

theorem State.memoriesWf.stopSwitch (h : s.memoriesWf) : (s.stopSwitch f src).memoriesWf := .update (.useSource h)

theorem State.memoriesWf.restart (h : s.memoriesWf) : (s.restart f).memoriesWf := .when .update h

theorem State.memoriesWf.switchSource (h : s.memoriesWf) : (s.switchSource f src mode).memoriesWf :=
  .ite (.put h) (.ite (.useSource h) (.stopSwitch h))

theorem State.memoriesWf.writeClkCtl (h : s.memoriesWf) : (s.writeClkCtl f v).memoriesWf :=
  .when .switchSource (.writePlain h)

theorem State.memoriesWf.refPresent (h : s.memoriesWf) : s.refPresent.memoriesWf := .foldl .restart (.put (.put h))

theorem State.memoriesWf.startSequence (h : s.memoriesWf) : (s.startSequence f).memoriesWf :=
  .ite h (.put (.update h))

theorem Out.memoriesWf.execStitchRailGood (h : s.memoriesWf) : Out.memoriesWf (execStitchRailGood f s) := by
  fun_cases Machine.execStitchRailGood f s
  exacts [.next h, .next h, .next (.update (.useSource h))]

theorem Out.memoriesWf.execStitchSequenceEnd (h : s.memoriesWf) : Out.memoriesWf (execStitchSequenceEnd f us s) := by
  fun_cases Machine.execStitchSequenceEnd f us s
  exacts [.next h, .next h, .next (.startSequence (.put (.addWrap (.update h))))]

theorem State.memoriesWf.addTicks (h : s.memoriesWf) : (s.addTicks k ns).memoriesWf :=
  .ite h (.put (.put (.addWrap h)))

theorem State.memoriesWf.pushTicks (h : s.memoriesWf) : (s.pushTicks add ns).memoriesWf := .ite (.addTicks h) (.put h)

theorem State.memoriesWf.rejectCue (h : s.memoriesWf) : (s.rejectCue f).memoriesWf := .put h

theorem Out.memoriesWf.writeCue (h : s.memoriesWf) : (s.writeCue f n wordB v).memoriesWf :=
  .ite (.next (.rejectCue h)) (.ite (.next (.ite (.rejectCue h) (.put h))) (.ite (.next (.rejectCue h)) (.ite (.next
    (.disarm (.put (.put h)))) (.ite .fault (.ite (.next (.rejectCue h)) (.next (.arm h)))))))

theorem State.memoriesWf.staleCue (h : s.memoriesWf) : (s.staleCue f).memoriesWf := .addSat h

theorem State.memoriesWf.cueEffect (h : s.memoriesWf) : (s.cueEffect f kind arg).memoriesWf := by
  fun_cases State.cueEffect s f kind arg
  exacts [.staleCue h, .foldl (fun h => .onCore (fun h => .requestSwitch (.put (.put h))) h) h, .onCore .signal h,
    .staleCue h, .put h, .sweepFired h, .sweepFired h, .markFired h, .deadlineFired h, h]

theorem Out.memoriesWf.execCueFire (h : s.memoriesWf) : Out.memoriesWf (execCueFire f s) := by
  fun_cases Machine.execCueFire f s
  exacts [.next h, .next (.cueEffect (.addWrap (.disarm h)))]

/-! ### Machine/BringUp -/

theorem State.memoriesWf.cmdError (h : s.memoriesWf) : (s.cmdError code).memoriesWf := .put (.put h)

theorem State.memoriesWf.writeBrgCmd (h : s.memoriesWf) : (s.writeBrgCmd v).memoriesWf :=
  .ite (.writePlain h) (.ite (.cmdError h) (.ite (.cmdError (.writePlain h)) (.update (.put (.writePlain h)))))

theorem Out.memoriesWf.brgGo (h : s.memoriesWf) : (s.brgGo v).memoriesWf :=
  .next (.ite (.writeBrgCmd h) (.gatedError h))

theorem State.memoriesWf.steerPorts (h : s.memoriesWf) : (s.steerPorts which).memoriesWf := .update h

theorem State.memoriesWf.steerRow (h : s.memoriesWf) : (s.steerRow row).memoriesWf := .steerPorts h

theorem State.memoriesWf.transitUp (h : s.memoriesWf) : (s.transitUp f).memoriesWf :=
  .updateDistances (.readyBit (.update (.stopSwitch (.put (.update (.steerPorts (.put (.put (.emptyCues (.setDomain
    h))))))))))

theorem State.memoriesWf.runTransitOn (h : s.memoriesWf) : (s.runTransitOn f o).1.memoriesWf := by
  fun_cases State.runTransitOn s f o
  exacts [h, h, h, .declareHole h, .transitUp h]

theorem State.memoriesWf.discover (h : s.memoriesWf) : (s.discover key b).memoriesWf := .update h

theorem State.memoriesWf.closeLink (h : s.memoriesWf) : (s.closeLink f side net i).memoriesWf := by
  fun_cases State.closeLink s f side net i
  exacts [h, .cutLast (.cutLast (.enterFailed h))]

theorem State.memoriesWf.openLink (h : s.memoriesWf) : (s.openLink f side net i).memoriesWf := .setLink h

theorem State.memoriesWf.linksChanged (h : s.memoriesWf) : (s.linksChanged old).memoriesWf :=
  .unless .updateDistances h

theorem State.memoriesWf.trainLink (h : s.memoriesWf) : (s.trainLink f side net i o).memoriesWf :=
  .ite (.discover h) (.ite (.discover (.openLink h)) (.discover (.closeLink h)))

theorem State.memoriesWf.runSeamTrain (h : s.memoriesWf) : (s.runSeamTrain f o).1.memoriesWf := by
  fun_cases State.runSeamTrain s f o
  exacts [h, .readyBit (.linksChanged (.foldl .trainLink h))]

theorem State.memoriesWf.runSeamRetrain (h : s.memoriesWf) : (s.runSeamRetrain f side net i o).1.memoriesWf := by
  fun_cases State.runSeamRetrain s f side net i o
  exacts [h, h, .updateDistances (.discover (.openLink h))]

theorem State.memoriesWf.noteDiff (h : s.memoriesWf) : (s.noteDiff f diff).memoriesWf := by
  fun_cases State.noteDiff s f diff
  exacts [h, .put (.put (.put (.put (.put (.put (.put h))))))]

theorem State.memoriesWf.runTopoCheck (h : s.memoriesWf) : (s.runTopoCheck f).1.memoriesWf := by
  fun_cases State.runTopoCheck s f
  exacts [h, .readyBit h, .readyBit (.noteDiff (.linksChanged (.foldl (.when .closeLink) h)))]

theorem State.memoriesWf.runTopoAccept (h : s.memoriesWf) : (s.runTopoAccept f).1.memoriesWf := by
  fun_cases State.runTopoAccept s f
  exacts [h, .updateDistances (.readyBit (.queueSection (.update (.foldl (.when .openLink) h))))]

theorem State.memoriesWf.addBad (h : s.memoriesWf) : (s.addBad p).memoriesWf := .update h

theorem State.memoriesWf.releaseHeld (h : s.memoriesWf) : (s.releaseHeld row).memoriesWf := .foldl .addBad (.update h)

theorem State.memoriesWf.countRepair (h : s.memoriesWf) : (s.countRepair kind).memoriesWf := .addSat h

theorem State.memoriesWf.dropCached (h : s.memoriesWf) : (s.dropCached seg).memoriesWf := .update h

theorem State.memoriesWf.applyRepair (h : s.memoriesWf) : (s.applyRepair p seg kind dest).memoriesWf := by
  fun_cases State.applyRepair s p seg kind dest
  exacts [.steerRow (.addBad (.put (.countRepair h))),
    .updateDistances (.dropCached (.update (.releaseHeld (.addBad (.put (.countRepair h)))))),
    .addBad (.put (.countRepair h)), .updateDistances (.update (.put (.countRepair h)))]

theorem State.memoriesWf.darnEvent (h : s.memoriesWf) : (s.darnEvent seg).memoriesWf := .raiseField h

theorem State.memoriesWf.repairAtStart (h : s.memoriesWf) : (s.repairAtStart p).memoriesWf := by
  fun_cases State.repairAtStart s p
  exacts [h, .addBad h, .darnEvent (.applyRepair h)]

theorem State.memoriesWf.disagree (h : s.memoriesWf) : (s.disagree f p).memoriesWf := .update (.put (.addSat h))

theorem State.memoriesWf.fusePorts (h : s.memoriesWf) : (s.fusePorts f).memoriesWf :=
  .foldl (fun h => .update (.put h)) h

theorem State.memoriesWf.takeTest (h : s.memoriesWf) : (s.takeTest f failing).memoriesWf :=
  .when .commitSection (.when .fusePorts (.foldl .repairAtStart (.foldl (.unless .disagree) (.foldl (.unless
    .disagree) h))))

theorem State.memoriesWf.computeUp (h : s.memoriesWf) : (s.computeUp f failing).memoriesWf :=
  .updateDistances (.readyBit (.resetWindows (.foldl .put (.takeTest (.wipeCores (.put (.setDomain h)) ..)))))

theorem State.memoriesWf.countTrip (h : s.memoriesWf) : (s.countTrip f).memoriesWf :=
  .when .put (.queueSection (.update (.addMax h)))

theorem State.memoriesWf.runComputeOn (h : s.memoriesWf) : (s.runComputeOn f o).1.memoriesWf := by
  fun_cases State.runComputeOn s f o
  exacts [h, h, h, h, .parkReason (.countTrip h), .computeUp h]

theorem State.memoriesWf.runCommand (h : s.memoriesWf) : (s.runCommand v f o).1.memoriesWf := by
  fun_cases State.runCommand s v f o
  exacts [.runTransitOn h, .runSeamTrain h, .runTopoCheck h, .runComputeOn h, .runTopoAccept h, .runSeamRetrain h]

theorem State.memoriesWf.runFields (h : s.memoriesWf) : (State.runFields v o l s bad).1.memoriesWf := by
  induction l generalizing s bad with
  | nil => exact h
  | cons f l ih => exact ih (.runCommand h)

theorem Out.memoriesWf.execBrgCommandComplete (h : s.memoriesWf) : Out.memoriesWf (execBrgCommandComplete o s) := by
  unfold Machine.execBrgCommandComplete
  dsimp only
  split
  · exact .next h
  refine .next (.noteFault (.put ?_))
  split
  · exact .put (.cmdError (.runFields (.update h)))
  · exact .runFields (.update h)

theorem State.memoriesWf.resetScope (h : s.memoriesWf) : (s.resetScope r).memoriesWf := .update (.foldl .coreReset h)

theorem State.memoriesWf.abortScope (h : s.memoriesWf) : (s.abortScope r).memoriesWf := .foldl (.when .keepOrder) h

theorem State.memoriesWf.haltScope (h : s.memoriesWf) : (s.haltScope r).memoriesWf := .foldl (.when .haltThread) h

theorem State.memoriesWf.startDrain (h : s.memoriesWf) : (s.startDrain r).memoriesWf :=
  .update (.haltScope (.abortScope h))

theorem State.memoriesWf.beginReset (h : s.memoriesWf) : (s.beginReset r).memoriesWf :=
  .ite (.update h) (.ite (.resetScope h) (.startDrain h))

theorem State.memoriesWf.writeBrgRst (h : s.memoriesWf) : (s.writeBrgRst v).memoriesWf :=
  .ite (.writePlain h) (.ite (.put h) (.beginReset (.writePlain h)))

theorem Out.memoriesWf.rstGo {target : Nat} (h : s.memoriesWf) : (s.rstGo scope target).memoriesWf :=
  .next (.ite (.writeBrgRst h) (.gatedError h))

theorem Out.memoriesWf.execDrainEnd (h : s.memoriesWf) : Out.memoriesWf (execDrainEnd s) := by
  fun_cases Machine.execDrainEnd s
  exacts [.next (.when .resetScope h), .next h]

theorem Out.memoriesWf.execDrainLimitExpire (h : s.memoriesWf) : Out.memoriesWf (execDrainLimitExpire s) := by
  fun_cases Machine.execDrainLimitExpire s
  exacts [.next (.ite (.resetScope (.addMax h)) h), .next h]

theorem State.memoriesWf.endAbsorb (h : s.memoriesWf) : (s.endAbsorb c).memoriesWf := .ite (.put (.setCore h)) h

theorem State.memoriesWf.resetPanels (h : s.memoriesWf) : (s.resetPanels r).memoriesWf := .resetKeys (.update h)

theorem State.memoriesWf.nextReset (h : s.memoriesWf) : s.nextReset.memoriesWf := by
  fun_cases State.nextReset s
  exacts [.beginReset (.update h), h]

theorem State.memoriesWf.endReset (h : s.memoriesWf) : (s.endReset r us).memoriesWf :=
  .nextReset (.update (.put (.put h)))

theorem Out.memoriesWf.execResetPhaseEnd {core : Option Lcn} (h : s.memoriesWf) :
    Out.memoriesWf (execResetPhaseEnd core us s) := by
  fun_cases Machine.execResetPhaseEnd core us s
  exacts [.next (.endReset (.endAbsorb h)), .next (.unless .endAbsorb h), .next (.endAbsorb h), .next h,
    .next (.endReset (.resetPanels (.foldl .endAbsorb h))), .next h]

theorem State.memoriesWf.clearLdHost (h : s.memoriesWf) : (s.clearLdHost ld).memoriesWf := .update (.resetKeys h)

theorem State.memoriesWf.refillDarn (h : s.memoriesWf) : s.refillDarn.memoriesWf := .foldl (.when .update) h

theorem State.memoriesWf.writeDarnCmd (h : s.memoriesWf) : (s.writeDarnCmd v).memoriesWf :=
  .unless (fun h => .when .update (.update h)) (.writePlain h)

theorem State.memoriesWf.unwatch (h : s.memoriesWf) : (s.unwatch p).memoriesWf := .update h

theorem State.memoriesWf.startDarn (h : s.memoriesWf) : (s.startDarn p).memoriesWf := by
  unfold State.startDarn
  refine .ite (.refillDarn (.unwatch h)) ?_
  split
  · exact .refillDarn (.unwatch (.queueSection (.addBad h)))
  refine .refillDarn ?_
  split
  · exact .haltOrder (.update h)
  · exact .update h

theorem Out.memoriesWf.execDarnAction (h : s.memoriesWf) : Out.memoriesWf (execDarnAction s) := by
  fun_cases Machine.execDarnAction s
  exacts [.next h, .next h, .next (.startDarn (.update h))]

theorem Out.memoriesWf.execDarnCopyTimeout (h : s.memoriesWf) : Out.memoriesWf (execDarnCopyTimeout c s) := by
  fun_cases Machine.execDarnCopyTimeout c s
  exacts [.next h, .next h, .next (.put (.update h))]

theorem State.memoriesWf.loseCopies (h : s.memoriesWf) : (s.loseCopies lost).memoriesWf :=
  .foldl (fun h => .foldl (fun h => .setThread (.recordTrap h)) (.resetWindows (.put h))) (.unless .loseCores h)

theorem Out.memoriesWf.execDarnQuiesced (h : s.memoriesWf) : Out.memoriesWf (execDarnQuiesced s) := by
  fun_cases Machine.execDarnQuiesced s
  exacts [.next h, .next h, .next h, .next (.update (.queueSection (.applyRepair (.loseCopies h))))]

theorem State.memoriesWf.releaseDarn (h : s.memoriesWf) : (s.releaseDarn d).memoriesWf := by
  fun_cases State.releaseDarn s d
  exacts [.update h, .foldl .spoolIssue (.resumeOrder (.update h))]

theorem State.memoriesWf.loseFenced (h : s.memoriesWf) : (s.loseFenced d).memoriesWf := by
  fun_cases State.loseFenced s d
  exacts [h, .wipeCores (.failLostRings (.foldl .loseThreads h)) .., h]

theorem State.memoriesWf.wakeReset (h : s.memoriesWf) : s.wakeReset.memoriesWf := by
  fun_cases State.wakeReset s
  exacts [.beginReset h, h, h]

theorem Out.memoriesWf.execDarnResume (h : s.memoriesWf) : Out.memoriesWf (execDarnResume us s) := by
  fun_cases Machine.execDarnResume us s
  exacts [.next h, .next h, .next h,
    .next (.wakeReset (.refillDarn (.unwatch (.darnEvent (.update (.put (.releaseDarn (.loseFenced h))))))))]

theorem State.memoriesWf.fenceInHole (h : s.memoriesWf) : (s.fenceInHole d).memoriesWf := by
  fun_cases State.fenceInHole s d
  exacts [.queueSection (.applyRepair h), h, h]

theorem Out.memoriesWf.execDarnAbandon (h : s.memoriesWf) : Out.memoriesWf (execDarnAbandon s) := by
  fun_cases Machine.execDarnAbandon s
  exacts [.next h, .next h, .next (.wakeReset (.update (.releaseDarn (.fenceInHole (.when .loseCores (.addSat h))))))]

/-! ### Machine/Control -/

theorem State.memoriesWf.branch {regs : List RegRef} {link : Option (Fin 32)} {target : Thread → Word}
    (h : s.memoriesWf) : (s.branch x regs link target).memoriesWf := by
  refine .issue (fun h => ?_) h
  split
  · exact .trap
  · exact .done (.setThread h)

theorem Out.memoriesWf.execInstructionFetchTrap (h : s.memoriesWf) :
    Out.memoriesWf (execInstructionFetchTrap c t s) := by
  fun_cases Machine.execInstructionFetchTrap c t s
  exacts [.next h, .next h, .next (.trap (.ite (.countFailure (.addSat h)) h))]

/-! ### Machine/Deadlock -/

theorem State.memoriesWf.putSnap (h : s.memoriesWf) : (s.putSnap panel n q kind).memoriesWf :=
  .put (.put (.put (.put (.put (.put h)))))

theorem State.memoriesWf.clearSnap (h : s.memoriesWf) : (s.clearSnap panel).memoriesWf := .put (.foldl .put h)

theorem State.memoriesWf.reportDeadlock {id : Nat} (h : s.memoriesWf) :
    (s.reportDeadlock panel bobbins o id l).memoriesWf :=
  .raise (.put (.put (.put (.put (.put (.foldl .putSnap (.clearSnap h)))))))

theorem Out.memoriesWf.execDeadlockDetect (h : s.memoriesWf) :
    Out.memoriesWf (execDeadlockDetect panel bobbins slot moved s) := by
  fun_cases Machine.execDeadlockDetect panel bobbins slot moved s
  exacts [.next h, .next h, .next h, .next (.addWrap h), .next (.reportDeadlock (.addWrap h))]

theorem State.memoriesWf.releaseSnapshot (h : s.memoriesWf) : (s.releaseSnapshot panel).memoriesWf :=
  .ite (.clearSnap (.put h)) h

/-! ### Machine/Reset -/

theorem State.memoriesWf.resetBlock (h : s.memoriesWf) : (s.resetBlock b keep).memoriesWf := .resetKeys h

theorem State.memoriesWf.resetI3c (h : s.memoriesWf) : s.resetI3c.memoriesWf := .update (.put (.put (.put h)))

theorem State.memoriesWf.noteCause (h : s.memoriesWf) : (s.noteCause code detail delayed merged).memoriesWf :=
  .put (.put (.put (.put h)))

theorem State.memoriesWf.assertSource (h : s.memoriesWf) : (s.assertSource code detail held merged).memoriesWf :=
  .ite (.resetI3c (.put (.noteCause (.ite (.put (.put h)) (.addWrap h))))) (.update (.put (.noteCause (.unless .update
    (.ite (.put (.put h)) (.addWrap h))))))

theorem State.memoriesWf.writeRstCtl (h : s.memoriesWf) : (s.writeRstCtl v).memoriesWf :=
  .ite (.put (.put h)) (.ite (.put h) (.ite (.assertSource h) (.when .assertSource h)))

theorem Out.memoriesWf.execResetSourceWithdrawn (h : s.memoriesWf) :
    Out.memoriesWf (execResetSourceWithdrawn code s) := by
  fun_cases Machine.execResetSourceWithdrawn code s
  exacts [.next h, .next (.update h)]

theorem State.memoriesWf.resetStoreBlock (h : s.memoriesWf) : s.resetStoreBlock.memoriesWf :=
  .put (.update (.resetBlock h))

theorem Out.memoriesWf.execWritePulseEnd (h : s.memoriesWf) : Out.memoriesWf (execWritePulseEnd us header s) := by
  have hs : (if s.nvsResetWaits then s.resetStoreBlock else s).memoriesWf := .when .resetStoreBlock h
  unfold Machine.execWritePulseEnd
  dsimp only
  split
  · exact .next hs
  refine .ite (.next hs) (.next (.update (.cutWrite (.put ?_))))
  split
  · exact .setSect hs
  · exact hs

theorem State.memoriesWf.abortAll (h : s.memoriesWf) : s.abortAll.memoriesWf :=
  .update (.foldl (.when .endOrder) (.failRings h))

theorem State.memoriesWf.allComputeOff (h : s.memoriesWf) : s.allComputeOff.memoriesWf := by
  fun_cases State.allComputeOff s
  exacts [.update (.put (.put (.update (.foldl (fun h => .setDomain (.put h)) (.wipeCores (.abortAll h) ..))))),
    .put (.put (.update (.foldl (fun h => .setDomain (.put h)) (.wipeCores (.abortAll h) ..))))]

theorem State.memoriesWf.allTransitOff (h : s.memoriesWf) : s.allTransitOff.memoriesWf :=
  .update (.updateDistances (.resetBlock (.resetBlock (.foldl (fun h => .parkReason (.transitOff h)) h))))

theorem State.memoriesWf.allOpticsOff (h : s.memoriesWf) : s.allOpticsOff.memoriesWf :=
  .update (.resetKeys (.foldl .setDomain h))

theorem State.memoriesWf.hostLogicOff (h : s.memoriesWf) : s.hostLogicOff.memoriesWf :=
  .update (.put (.setDomain (.resetBlock (.hostLinkDown h))))

theorem State.memoriesWf.hostOpticsOff (h : s.memoriesWf) : s.hostOpticsOff.memoriesWf := .update (.setDomain h)

theorem State.memoriesWf.managementHeld (h : s.memoriesWf) : s.managementHeld.memoriesWf := by
  obtain ⟨-, -, -, hfirmware, -⟩ := h
  obtain ⟨hsram, histore, hpat, -, hbuf⟩ := State.reset_memoriesWf
  exact ⟨hsram, histore, hpat, hfirmware, hbuf⟩

theorem State.memoriesWf.assertAction (h : s.memoriesWf) : (s.assertAction r k).memoriesWf := by
  fun_cases State.assertAction s r k
  exacts [.allComputeOff h, h, .allTransitOff h, h, .allOpticsOff h, h, .hostLogicOff h, h, .hostOpticsOff h, h,
    .managementHeld h, h]

theorem Out.memoriesWf.execResetAssertStep (h : s.memoriesWf) : Out.memoriesWf (execResetAssertStep s) := by
  fun_cases Machine.execResetAssertStep s
  exacts [.next h, .next h, .next h, .next (.update (.assertAction (.when .put h)))]

theorem State.memoriesWf.managementUp (h : s.memoriesWf) : s.managementUp.memoriesWf := .put (.put (.foldl .put h))

theorem State.memoriesWf.storeUp (h : s.memoriesWf) : s.storeUp.memoriesWf :=
  .unless .put (.foldl .put (.put (.update (.loadStore h))))

theorem State.memoriesWf.verifyFirmware (h : s.memoriesWf) : (s.verifyFirmware k0 k1).memoriesWf := by
  unfold State.verifyFirmware
  dsimp only
  split
  · exact .put (.put (.put (.put (.put h))))
  · exact .put (.put (.put (.put (.put (.put (.put (.put (.put (.put (.put h))))))))))

theorem State.memoriesWf.opticsUp (h : s.memoriesWf) : (s.opticsUp g).memoriesWf := .foldl .putBit (.setDomain h)

theorem State.memoriesWf.releaseAction (h : s.memoriesWf) : (s.releaseAction r k0 k1).memoriesWf := by
  fun_cases State.releaseAction s r k0 k1
  exacts [.managementUp h, .storeUp h, .verifyFirmware h, h, .setDomain h, .put (.put (.setDomain h)), .opticsUp h]

theorem Out.memoriesWf.execResetReleaseStep (h : s.memoriesWf) : Out.memoriesWf (execResetReleaseStep k0 k1 s) := by
  fun_cases Machine.execResetReleaseStep k0 k1 s
  exacts [.next h, .next h, .next (.update (.when .pendIbi (.releaseAction (.put h)))),
    .next (.update (.when .pendIbi (.releaseAction (.put h)))),
    .next (.update (.put (.when .pendIbi (.releaseAction (.put h)))))]

theorem State.memoriesWf.resetWaf (h : s.memoriesWf) : s.resetWaf.memoriesWf := .resetBlock h

theorem State.memoriesWf.resetClk (h : s.memoriesWf) : s.resetClk.memoriesWf := .resetBlock h

theorem State.memoriesWf.resetTrd (h : s.memoriesWf) : s.resetTrd.memoriesWf := .resetBlock h

theorem State.memoriesWf.resetBrg (h : s.memoriesWf) : s.resetBrg.memoriesWf := .resetBlock h

theorem State.memoriesWf.resetPwr (h : s.memoriesWf) : s.resetPwr.memoriesWf :=
  .pendIbi (.put (.update (.resetBlock h)))

theorem Out.memoriesWf.resetByBlock {f : State → State} (hf : ∀ {s : State}, s.memoriesWf → (f s).memoriesWf)
    (h : s.memoriesWf) : (s.resetByBlock f).memoriesWf :=
  .next (.when hf h)

theorem State.memoriesWf.resetNvs (h : s.memoriesWf) : s.resetNvs.memoriesWf :=
  .ite (.update (.put h)) (.resetStoreBlock h)

theorem State.memoriesWf.writeRstBlock (h : s.memoriesWf) : (s.writeRstBlock v).memoriesWf :=
  .ite h (.when .resetBrg (.when .resetMarker (.when .resetNvs (.when .resetIntegrity (.when .resetTrd
    (.when .resetPwr (.when .resetClk (.when .resetWaf h))))))))

/-! ### Machine/Power -/

theorem State.memoriesWf.decideUnpark (h : s.memoriesWf) : (s.decideUnpark f).memoriesWf := .when .update h

theorem State.memoriesWf.endCapPark (h : s.memoriesWf) : (s.endCapPark f).memoriesWf :=
  .ite (.decideUnpark (.parkReason h)) h

theorem State.memoriesWf.goLevel (h : s.memoriesWf) : (s.goLevel l).memoriesWf :=
  .foldl (.unless .parkField) (.foldl .endCapPark (.put (.put h)))

theorem State.memoriesWf.showUnattain (h : s.memoriesWf) : (s.showUnattain cap met).memoriesWf :=
  .ite (.when .put h) (.ite (.pendIbi (.raise (.put h))) h)

theorem Out.memoriesWf.execPowerEvaluation (h : s.memoriesWf) :
    Out.memoriesWf (execPowerEvaluation clean below met s) :=
  .next (.noteFault (.showUnattain (.put (.unless .goLevel (.when .update (.put h))))))

theorem State.memoriesWf.warnField (h : s.memoriesWf) : (s.warnField f).memoriesWf :=
  .ite (.parkField h) (.when .beginMigration (.update h))

theorem State.memoriesWf.abandonMigration (h : s.memoriesWf) : (s.abandonMigration f).memoriesWf := by
  fun_cases State.abandonMigration s f
  exacts [.resumeOrder (.put (.update h)), .put (.update h), h, h]

theorem Out.memoriesWf.execThermalSample (h : s.memoriesWf) : Out.memoriesWf (execThermalSample f t0 t1 t2 t3 s) :=
  .ite (.next (.noteFault (.put h))) (.next (.noteFault (.when (fun h => .declareHole (.parkReason h)) (.when
    (fun h => .raiseField (.parkField (.abandonMigration h))) (.ite (.warnField (.raiseField (.put (.put h)))) (.when
    .warnField (.put h)))))))

theorem Out.memoriesWf.execThermalClear (h : s.memoriesWf) : Out.memoriesWf (execThermalClear f s) :=
  .ite (.next (.when .decideUnpark (.put (.parkReason (.parkReason h))))) (.next h)

theorem State.memoriesWf.writePwrField (h : s.memoriesWf) : (s.writePwrField f v).memoriesWf :=
  .when .decideUnpark (.when (fun h => .when .decideUnpark (.parkReason h)) (.ite (.parkField (.put h)) (.parkReason
    (.put h))))

theorem Out.memoriesWf.pwrFieldGo (h : s.memoriesWf) : (s.pwrFieldGo f v).memoriesWf :=
  .next (.ite (.noteFault (.writePwrField h)) (.gatedError h))

theorem State.memoriesWf.writeTherm (h : s.memoriesWf) : (s.writeTherm v).memoriesWf :=
  .ite h (.noteFault (.writePlain h))

theorem State.memoriesWf.writeParkOrder (h : s.memoriesWf) : (s.writeParkOrder n v).memoriesWf :=
  .unless .writePlain h

/-! ### Machine/Trust -/

theorem State.memoriesWf.endUpdate (h : s.memoriesWf) : (s.endUpdate code).memoriesWf :=
  .unless (fun h => .put (.put h)) (.put h)

theorem State.memoriesWf.checkSlot (h : s.memoriesWf) : (s.checkSlot slot k).memoriesWf := .put (.put h)

theorem State.memoriesWf.updateOp (h : s.memoriesWf) : (s.updateOp op off k).memoriesWf := by
  fun_cases State.updateOp s op off k
  exacts [.endUpdate h, .endUpdate (.programSlot h ..), .endUpdate (.checkSlot h), .endUpdate (.put h), .endUpdate h]

theorem State.memoriesWf.writeUpdCmd (h : s.memoriesWf) : (s.writeUpdCmd v k).memoriesWf :=
  .when .updateOp (.writePlain h)

theorem State.memoriesWf.flushStore (h : s.memoriesWf) : s.flushStore.memoriesWf := .foldl (.when .queueSection) h

theorem State.memoriesWf.writeNvsCtl (h : s.memoriesWf) : (s.writeNvsCtl v).memoriesWf :=
  .ite (.resetNvs h) (.when .flushStore h)

theorem State.memoriesWf.setSpdm (h : s.memoriesWf) : (s.setSpdm ld x).memoriesWf := .update h

theorem State.memoriesWf.spdmRequest (h : s.memoriesWf) : (s.spdmRequest ld n ok f len data).memoriesWf :=
  .ite h (.ite (.answerHost (.setSpdm h)) (.answerHost h))

/-! ### Machine/RegWrite -/

theorem State.memoriesWf.writeCoreCtl (h : s.memoriesWf) : (s.writeCoreCtl c v).memoriesWf :=
  .ite (.softReset h) (.foldl (.when .haltThread) (.foldl (.when .resumeThread) (.writePlain h)))

theorem State.memoriesWf.writeSrCmd (h : s.memoriesWf) : (s.writeSrCmd c v).memoriesWf :=
  .ite (.put h) (.when .reseed (.writePlain h))

theorem State.memoriesWf.writeCoreReg (h : s.memoriesWf) : (s.writeCoreReg r c n t v).memoriesWf := by
  fun_cases State.writeCoreReg s r c n t v
  exacts [.writeCoreCtl h, .writeAccOwn h, .writeSeed h, .writeSrCmd h, .writeLane h, .writeCmpCmd h, .writeSelCmd h,
    .writeSplCmd h, .signal h, .writePatCtl h, .writePatLoad h, .writeRingRegister h, .writeRingRegister h,
    .writeRingCmd h, .writePlain h]

theorem State.memoriesWf.writeMrkCtl (h : s.memoriesWf) : (s.writeMrkCtl v).memoriesWf :=
  .ite (.resetMarker h) (.unless .put (.writePlain h))

theorem State.memoriesWf.writeMigrate (h : s.memoriesWf) : (s.writeMigrate v).memoriesWf := .unless .beginMigration h

theorem State.memoriesWf.writeRingSetup (h : s.memoriesWf) : (s.writeRingSetup j v).memoriesWf := .unless .setUpRing h

theorem State.memoriesWf.writeSelCtl (h : s.memoriesWf) : (s.writeSelCtl p v).memoriesWf :=
  .ite (.resetPort h) (.when .trainPort (.writePlain h))

theorem State.memoriesWf.writeBlken (h : s.memoriesWf) : (s.writeBlken v).memoriesWf :=
  .foldl (.when .put) (.writePlain h)

theorem State.memoriesWf.writeFabCtl (h : s.memoriesWf) : (s.writeFabCtl f v).memoriesWf :=
  .ite (.resetFab h) (.writePlain h)

theorem State.memoriesWf.resetMgt (h : s.memoriesWf) : s.resetMgt.memoriesWf := .update h

theorem State.memoriesWf.freeCheck (h : s.memoriesWf) : s.freeCheck.2.memoriesWf :=
  .free (w := 3) (.free (w := 32) h)

theorem State.memoriesWf.writeRingPtr (h : s.memoriesWf) : (s.writeRingPtr ld v).memoriesWf :=
  .when .withdraw (.writeFldAll h)

theorem State.memoriesWf.writeLdCfg (h : s.memoriesWf) : (s.writeLdCfg ld v).memoriesWf := .unless .writePlain h

theorem State.memoriesWf.writeCxlReg (h : s.memoriesWf) : (s.writeCxlReg r u n v).memoriesWf := by
  fun_cases State.writeCxlReg s r u n v
  exacts [.writeLdCfg h, .writeLdPart h, .writeFmwin h, .writeMsix h, .writeRing h, .writeRingPtr h, .writeEvq h,
    .writePlain h]

theorem State.memoriesWf.writeBlockReg (h : s.memoriesWf) : (s.writeBlockReg r u n v).memoriesWf := by
  unfold State.writeBlockReg
  split
  exacts [.writeMrkCtl h, .writeMigrate h, .writeRingSetup h, .writeFabCtl h, .when .releaseSnapshot h,
    .writeSelCtl h, .ite (.resetIntegrity h) (.writeIntCtl h), .writeDigestCfg h, .writeBrgCmd h, .writeBrgRst h,
    .writeDarnCmd h, .writeRstCtl h, .writeRstBlock h, .writeBlken h, .writeClkCtl h, .pushTicks (.free (w := 32) h),
    .ite (.resetPwr h) (.writePlain h), .writeTherm h, .writeParkOrder h, .writePwrField h, .writeNvsCtl h,
    .writeUpdCmd (.freeCheck h), .when .resetMgt h, .writePlain h]

theorem Out.memoriesWf.writeReg (h : s.memoriesWf) : (s.writeReg r u n t v).memoriesWf := by
  refine .ite (.writeCue h) (.ite (.writeCue h) (.ite .fault (.next ?_)))
  split
  · exact .writeCoreReg h
  · exact .writeCxlReg h
  · exact .noteFault (.writeBlockReg h)

theorem State.memoriesWf.readSpace (h : s.memoriesWf) : (s.readSpace p).2.memoriesWf := by
  unfold State.readSpace
  split
  · exact h
  · exact .free (w := 64) h

theorem Out.memoriesWf.writeSpace (h : s.memoriesWf) : (s.writeSpace o p t v).memoriesWf := by
  fun_cases State.writeSpace s o p t v
  exacts [.next h, .writeReg h, .next (.writeWindow h), .next (.ite (.writeUpdBuf h ..) h)]

theorem Out.memoriesWf.hostWriteAt (h : s.memoriesWf) : (s.hostWriteAt ld o v).memoriesWf :=
  .ite (.next (.when .ctlError h)) (.ite (.next (.gatedError h)) (.writeSpace h))

/-! ### Machine/Module -/

theorem State.memoriesWf.takeAddress (h : s.memoriesWf) : (s.takeAddress a).memoriesWf := .put (.put h)

theorem Out.memoriesWf.execEntdaa (h : s.memoriesWf) : Out.memoriesWf (execEntdaa addr others s) :=
  .ite (.next h) (.ite (.next (.takeAddress (.free (w := 7) h))) (.next (.takeAddress h)))

theorem Out.memoriesWf.ccc {f : State → State} (hf : ∀ {s : State}, s.memoriesWf → (f s).memoriesWf)
    (h : s.memoriesWf) : (s.ccc len data f).memoriesWf :=
  .next (.ite (.answerHost (hf h)) (.when .answerHost h))

theorem Out.memoriesWf.execGetstatus (h : s.memoriesWf) : Out.memoriesWf (execGetstatus s) :=
  .ite (.ccc (fun h => h) (.free (w := 16) h)) (.ccc (fun h => h) h)

theorem Out.memoriesWf.execIbi {wins : Bool} (h : s.memoriesWf) : Out.memoriesWf (execIbi wins s) := by
  fun_cases Machine.execIbi wins s
  exacts [.next h, .next (.answerHost (.update h)), .next h]

theorem State.memoriesWf.respond (h : s.memoriesWf) : (s.respond seq status data).memoriesWf := .update h

theorem Out.memoriesWf.mgtCommand {f : State → State × List Nat} {refused : Bool}
    (hf : ∀ {s : State}, s.memoriesWf → (f s).1.memoriesWf) (h : s.memoriesWf) :
    (s.mgtCommand seq refused badLength badRange f).memoriesWf :=
  .ite (.next h) (.ite (.next (.respond (.addWrap h))) (.ite (.next (.respond (.addWrap h)))
    (.ite (.next (.respond (.addWrap h))) (.next (.respond (hf (.addWrap h)))))))

theorem Out.memoriesWf.execGetStatus (h : s.memoriesWf) : Out.memoriesWf (execGetStatus seq args s) :=
  .mgtCommand (fun h => h) h

theorem Out.memoriesWf.execSetCap (h : s.memoriesWf) : Out.memoriesWf (execSetCap seq args s) := by
  unfold Machine.execSetCap
  exact .mgtCommand (fun h => .put (.put h)) h

theorem Out.memoriesWf.execGetPower (h : s.memoriesWf) : Out.memoriesWf (execGetPower seq args s) :=
  .mgtCommand (fun h => h) h

theorem Out.memoriesWf.execGetTherm (h : s.memoriesWf) : Out.memoriesWf (execGetTherm seq args s) := by
  unfold Machine.execGetTherm
  exact .mgtCommand (fun h => h) h

theorem Out.memoriesWf.execGetCoolant (h : s.memoriesWf) :
    Out.memoriesWf (execGetCoolant seq args inlet outlet s) := by
  unfold Machine.execGetCoolant
  exact .mgtCommand (fun h => h) (.when (fun h => .put (.put h)) h)

theorem Out.memoriesWf.execReadReg (h : s.memoriesWf) : Out.memoriesWf (execReadReg seq args s) :=
  .ite (.next (.respond (.gatedError (.addWrap h)))) (.mgtCommand .readSpace h)

theorem Out.memoriesWf.execFwBegin (h : s.memoriesWf) : Out.memoriesWf (execFwBegin seq args s) := by
  unfold Machine.execFwBegin
  exact .mgtCommand (fun h => .update (.put h)) h

theorem Out.memoriesWf.execFwChunk (h : s.memoriesWf) : Out.memoriesWf (execFwChunk seq args s) := by
  unfold Machine.execFwChunk
  dsimp only
  split
  · exact .mgtCommand (fun h => h) h
  · exact .mgtCommand (fun h => .programSlot h ..) h

theorem Out.memoriesWf.execFwFinish (h : s.memoriesWf) : Out.memoriesWf (execFwFinish seq args check s) := by
  unfold Machine.execFwFinish
  split
  · exact .mgtCommand (fun h => h) h
  · exact .mgtCommand .checkSlot h

theorem Out.memoriesWf.execGetId (h : s.memoriesWf) : Out.memoriesWf (execGetId seq args s) :=
  .mgtCommand (fun h => h) h

theorem Out.memoriesWf.execMgtResponseRead (h : s.memoriesWf) : Out.memoriesWf (execMgtResponseRead s) := by
  fun_cases Machine.execMgtResponseRead s <;> exact .next (.when .answerHost h)

theorem Out.memoriesWf.execMgtBusArbitrate {eligible : BitVec 8} (h : s.memoriesWf) :
    Out.memoriesWf (execMgtBusArbitrate eligible lk more s) := by
  fun_cases Machine.execMgtBusArbitrate eligible lk more s
  exacts [.next h, .next (.update (.when .addSat (.when .addSat h)))]

/-! ### Machine/Memory -/

theorem State.memoriesWf.access {act : Thread → Target → Word → State → Act}
    (hact : ∀ {th g a} {s : State}, s.memoriesWf → (act th g a s).memoriesWf) (h : s.memoriesWf) :
    (s.access x q act).memoriesWf := by
  refine .issue (fun h => ?_) h
  dsimp only
  split
  · exact .trap
  · exact hact (.setThread h)

theorem State.memoriesWf.sendAccess (h : s.memoriesWf) :
    (s.sendAccess x pc a op typ opc flits body f w4).memoriesWf :=
  .send (.takeTag h)

theorem State.memoriesWf.loadOp (h : s.memoriesWf) : (s.loadOp x size signed rd a pi f off).memoriesWf := by
  refine .access (fun h => ?_) h
  split
  · exact .ite (.late (.tileFailed h)) (.done (.setThread h))
  · exact .done (.setThread (.readSpace h))
  · exact .done (.sendAccess h)

theorem Act.memoriesWf.storeWindow (h : s.memoriesWf) : (s.storeWindow c t o v next).memoriesWf := by
  unfold State.storeWindow
  dsimp only
  split
  case _ heq =>
    have h := (Out.memoriesWf.writeSpace h).of_next heq
    split
    · exact .ite (.gone h) (.done h)
    · exact .done h
  · exact .done h

theorem Act.memoriesWf.storeAt (h : s.memoriesWf) : (s.storeAt x pc next n f g a v).memoriesWf := by
  unfold State.storeAt
  dsimp only
  split
  · exact .ite (.late (.tileFailed h)) (.done (.stored (.writeSram (.foldDigest h) ..)))
  · exact .storeWindow (.foldDigest h)
  · exact .ite (.done (.foldDigest h)) (.done (.sendAccess (.foldDigest h)))

theorem State.memoriesWf.atomicAt (h : s.memoriesWf) : (s.atomicAt c off bytes op x y).2.memoriesWf := .writeSram h ..

theorem State.memoriesWf.amo (h : s.memoriesWf) : (s.amo op x w4 rd a pi f off).memoriesWf := by
  refine .access (fun h => ?_) h
  dsimp only
  split
  · exact .ite (.late (.tileFailed h)) (.done (.setThread (.stored (.atomicAt (.foldDigest h)))))
  · exact .done (.sendAccess (.foldDigest h))

theorem Out.memoriesWf.execTileLd (h : s.memoriesWf) : Out.memoriesWf (execTileLd x td a pi f off s) := by
  refine .next (.access (fun h => ?_) h)
  split
  · exact .ite (.late (.tileFailed h)) (.done (.setThread h))
  · exact .done (.sendAccess h)

theorem Out.memoriesWf.execTileSt (h : s.memoriesWf) : Out.memoriesWf (execTileSt x td a pi f off s) := by
  refine .next (.access (fun h => ?_) h)
  dsimp only
  split
  · exact .done (.stored (.writeTile (.foldDigest h)))
  · exact .ite (.done (.foldDigest h)) (.done (.sendAccess (.foldDigest h)))

/-! ### Machine/Packet -/

theorem Out.memoriesWf.serveBlock {f : Packet → State → Out}
    (hf : ∀ {a} {s : State}, s.memoriesWf → (f a s).memoriesWf) (h : s.memoriesWf) :
    (s.serveBlock p f).memoriesWf :=
  .ite (.next h) (.ite (.next (.replyErr (.dropPacket h))) (.ite (.next (.hostMemRequest (.dropPacket h))) (hf
    (.dropPacket h))))

theorem State.memoriesWf.readRegisters (h : s.memoriesWf) : (s.readRegisters p).memoriesWf :=
  .ite (.replyErr h) (.ite (.replyErr (.gatedError h)) (.reply (.readSpace h)))

theorem Out.memoriesWf.writeRegisters (h : s.memoriesWf) : (s.writeRegisters p).memoriesWf := by
  have hw {o place} : (s.writeSpace o place p.sth p.body).memoriesWf := .writeSpace h
  refine .ite (.next (.replyErr h)) (.ite (.next (.replyErr (.gatedError h))) ?_)
  split
  case _ heq => exact .next (.replyAck (hw.of_next heq))
  · exact hw

theorem State.memoriesWf.badTarget (h : s.memoriesWf) : (s.badTarget c p tile).memoriesWf := .replyErr (.tileFailed h)

theorem State.memoriesWf.serveRead (h : s.memoriesWf) : (s.serveRead c p).memoriesWf :=
  .ite (.badTarget h) (.ite (.reply h) (.reply h))

theorem State.memoriesWf.serveWrite (h : s.memoriesWf) : (s.serveWrite c p).memoriesWf :=
  .ite (.replyAck (.writeTile (.spoolSave h))) (.ite (.badTarget h) (.replyAck (.writeSram h ..)))

theorem State.memoriesWf.serveAtomic (h : s.memoriesWf) : (s.serveAtomic c p).memoriesWf :=
  .ite (.badTarget h) (.reply (.atomicAt h))

theorem Out.memoriesWf.execRd (h : s.memoriesWf) : Out.memoriesWf (execRd pkt s) := by
  fun_cases Machine.execRd pkt s
  exacts [.next h, .serveBlock (fun h => .next (.readRegisters h)) h,
    .next (.serve (fun h => .ite (.readRegisters h) (.guarded .serveRead h)) h)]

theorem Out.memoriesWf.execWr (h : s.memoriesWf) : Out.memoriesWf (execWr pkt s) := by
  unfold Machine.execWr
  split
  · exact .next h
  refine .ite (.serveBlock .writeRegisters h) (.ite (.ite .fault (.next (.serve (fun h => ?_) h)))
    (.next (.serve (.guarded .serveWrite) h)))
  split
  case _ heq => exact (Out.memoriesWf.writeRegisters h).of_next heq
  · exact h

theorem State.memoriesWf.packetSignal (h : s.memoriesWf) : (s.packetSignal c p).memoriesWf := by
  unfold State.packetSignal
  exact .signal h

theorem Out.memoriesWf.execTsigPacket (h : s.memoriesWf) : Out.memoriesWf (execTsigPacket pkt s) := by
  fun_cases Machine.execTsigPacket pkt s
  exacts [.next h, .next (.unless (.serve (fun h => .guarded (fun h => .replyAck (.packetSignal h)) h)) h)]

theorem State.memoriesWf.castOn (h : s.memoriesWf) : (s.castOn p arg).memoriesWf :=
  .ite (.setPacket h) (.reply (.dropPacket h))

theorem State.memoriesWf.castAt (h : s.memoriesWf) : (s.castAt c p).memoriesWf := by
  fun_cases State.castAt s c p
  exacts [.castOn (.gatedError h), .castOn h, .castOn (.writeTile h)]

theorem Out.memoriesWf.execNcastPacket (h : s.memoriesWf) : Out.memoriesWf (execNcastPacket pkt s) := by
  unfold Machine.execNcastPacket
  split
  · exact .next h
  refine .next ?_
  split
  · exact .castOn h
  split
  · exact h
  · exact .ite h (.ite (.badPacket (.dropPacket h)) (.castAt h))

theorem State.memoriesWf.failTag (h : s.memoriesWf) : (s.failTag c g e).memoriesWf := .trapResponse h

theorem State.memoriesWf.legAnswer {place : Nat} (h : s.memoriesWf) : (s.legAnswer c p place bad).memoriesWf := by
  fun_cases State.legAnswer s c p place bad
  exacts [.lateReply h, .failTag (.endTag h), .endTag h, .setTag h, h]

theorem State.memoriesWf.deliverReply {f : Tag → State → State}
    (hf : ∀ {g} {s : State}, s.memoriesWf → (f g s).memoriesWf) (h : s.memoriesWf) :
    (s.deliverReply c p bad f).memoriesWf := by
  unfold State.deliverReply
  split
  · refine .answer (fun h => ?_) h
    split
    · exact .failTag h
    · exact hf h
  · exact .legAnswer h
  · exact .spoolAnswer h
  · exact .ringAnswer h
  · exact h
  · exact h
  · exact h

theorem State.memoriesWf.writeAnswer (h : s.memoriesWf) : (s.writeAnswer c g v).memoriesWf := .setThread h

theorem Out.memoriesWf.execProber (h : s.memoriesWf) : Out.memoriesWf (execProber pkt s) := by
  refine .next (.receive (fun h => .deliverReply (fun h => ?_) h) h)
  split
  · exact .setThread (.free (w := 32) h)
  · exact h

/-! ### Machine/Predicate -/

theorem State.memoriesWf.compare (h : s.memoriesWf) : (s.compare x pd rs1 rs2 k).memoriesWf := .issueLocal h

theorem State.memoriesWf.compareImm (h : s.memoriesWf) : (s.compareImm x pd rs1 i k).memoriesWf := .issueLocal h

theorem State.memoriesWf.logic (h : s.memoriesWf) : (s.logic x pd pa pb f).memoriesWf := .issueLocal h

/-! ### Machine/Scalar -/

theorem State.memoriesWf.scalar (h : s.memoriesWf) : (s.scalar x rd rs1 w32 b f needs).memoriesWf := .issueLocal h

theorem State.memoriesWf.sysValue (h : s.memoriesWf) : (s.sysValue c t sel).2.memoriesWf := by
  fun_cases State.sysValue s c t sel
  exacts [h, h, h, .free (w := 64) h, h, .free (w := 16) h, h, h, h]

/-! ### Dispatch -/

/-- Every command keeps the canonical form of the memories. -/
theorem Out.memoriesWf.exec (h : s.memoriesWf) (i : Instr) : Out.memoriesWf (exec i s) := by
  cases i with
  | aadd | asub | aset | aget | aaddi | alocal | acore | tackLd | sel | lhi => exact .next (.issueLocal h)
  | tagTimeout => exact .execTagTimeout h
  | tagQuarantineEnd => exact .execTagQuarantineEnd h
  | coreSwRst => exact .next (.when .softReset h)
  | threadHalt => exact .next (.when .haltThread h)
  | threadResume => exact .next (.when .resumeThread h)
  | accOwnWrite => exact .next (.ifWindow .writeAccOwn h)
  | reseed => exact .next (.ifWindow .reseed h)
  | reseedComplete => exact .next (.settle (.setCore h))
  | srseedWrite => exact .execSrseedWrite h
  | tackValueWrite => exact .next (.ifWindow .signal h)
  | nvsSectionWrite => exact .execNvsSectionWrite h
  | nvsWriteDurable => exact .execNvsWriteDurable h
  | spoolPost => exact .next (.ifWindow .writeSplCmd h)
  | spoolTake => exact .execSpoolTake h
  | spoolOpTimeout => exact .execSpoolOpTimeout h
  | spoolComplete => exact .execSpoolComplete h
  | tadd | tsub | tmul => exact .next (.binary h)
  | tfma => exact .execTfma h
  | tmin | tmax => exact .next (.binaryExact h)
  | tsel | tins | tsplat => exact .next (.tileOp .putT h)
  | tcmpm => exact .next (.tileOp (fun h => .putT (.setFlags h)) h)
  | tcmpAny | tcmpAll => exact .next (.comparePred h)
  | tabs | tneg | tmov => exact .next (.unaryRaw h)
  | tredSum | tredMax => exact .next (.reduce h)
  | texp2 | trcp | trsqrt => exact .next (.special h)
  | ttr => exact .next (.tileOp (fun h => .foldl .putT h) h)
  | ttwosum | ttwoprod => exact .next (.pair h)
  | tcvt => exact .execTcvt h
  | text => exact .next (.tileOp .setThread h)
  | tmma => exact .execTmma h
  | tensorArrayStart => exact .execTensorArrayStart h
  | tensorArrayComplete => exact .execTensorArrayComplete h
  | walkerLeadIn => exact .execWalkerLeadIn h
  | walkerPassRead => exact .execWalkerPassRead h
  | cread => exact .execCread h
  | cwrite => exact .execCwrite h
  | czero => exact .execCzero h
  | compressorStart => exact .next (.ifWindow .writeCmpCmd h)
  | compressorDone => exact .next (.when .compress h)
  | selectionStart => exact .next (.ifWindow .writeSelCmd h)
  | selectionDone => exact .execSelectionDone h
  | heldMsgPlace => exact .execHeldMsgPlace h
  | msend => exact .execMsend h
  | mpoll => exact .execMpoll h
  | mfree => exact .execMfree h
  | nsum => exact .execNsum h
  | ncast => exact .execNcast h
  | nprobe => exact .execNprobe h
  | translationMiss => exact .ite (.next h) (.next (.pump (.update h)))
  | routerForward => exact .execRouterForward h
  | tsigAdd | tsigSet | tsigAddR | tsigSetR => exact .next (.tsig h)
  | twaitGe | twaitEq => exact .next (.twait h)
  | dupDigestArrival => exact .execDupDigestArrival h
  | patternLoad => exact .next (.ifWindow .writePatLoad h)
  | patternLoadDone => exact .execPatternLoadDone h
  | switchRequest => exact .next (.ifWindow .writePatCtl h)
  | switchRun => exact .execSwitchRun h
  | steerPair => exact .execSteerPair h
  | nsumPacket => exact .next (.serve .takeContribution h)
  | nsumMergeSend => exact .execNsumMergeSend h
  | nsuma => exact .execNsuma h
  | ringSetup => exact .next (.ite (.setUpRing h) (.gatedError h))
  | reduce | share => exact .next (.ifWindow .writeRingCmd h)
  | ringOpTimeout => exact .next (.ite h (.ringAnswer (.dropRingOp h)))
  | ringInboxComplete => exact .execRingInboxComplete h
  | digestNow => exact .next (.ite (.writeDigestCfg h) (.gatedError h))
  | nowDigestDone => exact .execNowDigestDone h
  | ringVerdict => exact .execRingVerdict h
  | ringQuiet => exact .execRingQuiet h
  | ringVerdictApply => exact .execRingVerdictApply h
  | ringLayoutWrite => exact .next (.ifWindow .writeRingRegister h)
  | ringEntryTake => exact .execRingEntryTake h
  | cutWaitEnd => exact .execCutWaitEnd h
  | wdraw => exact .next (.ite (.withdraw h) (.gatedError h))
  | cutOrderSettle => exact .execCutOrderSettle h
  | cutPlacement => exact .execCutPlacement h
  | cutReplace => exact .execCutReplace h
  | cutLoadComplete => exact .execCutLoadComplete h
  | mrkMigrate => exact .ite (.next (.gatedError h)) (.ite (.next h) (.next (.beginMigration h)))
  | mrkSwRst => exact .next (.ite (.resetMarker h) (.gatedError h))
  | selRequest => exact .execSelRequest h
  | selSwRst => exact .next (.ifClocked .resetPort h)
  | attachmentRouterFailure => exact .next (.unless .failPort h)
  | selArbitrate => exact .execSelArbitrate h
  | selFrameReceive => exact .execSelFrameReceive h
  | selFrameFail => exact .next (.checkFails h)
  | selNak => exact .next (.takeNak h)
  | selAckStall => exact .ite (.next h) (.next (.startReplay h))
  | selReplayFail => exact .execSelReplayFail h
  | selLaneBad => exact .next (.laneBad (.countLane h))
  | selAlignmentMarker => exact .ite (.next h) (.next (.when .laneBad (.countLane (.setPort h))))
  | selRetrainDone => exact .execSelRetrainDone h
  | selRspTimeout => exact .execSelRspTimeout h
  | selTagRelease => exact .execSelTagRelease h
  | selTrain => exact .next (.ifClocked .trainPort h)
  | selTrainDone => exact .execSelTrainDone h
  | ldPartWrite => exact .control .writeLdPart h
  | ldFmwinWrite => exact .control .writeFmwin h
  | ldMsixWrite => exact .control .writeMsix h
  | apertureSelect => exact .ownWrite .writePlain h
  | ringEnable => exact .ownWrite .writeRing h
  | evqEnable => exact .ownWrite .writeEvq h
  | dbRing => exact .ite (.next h) (.ite (.next (.put h)) (.next (.put h)))
  | dbEvq => exact .ite (.next (.put h)) (.next h)
  | eventPost => exact .execEventPost h
  | trapWindowEnd => exact .execTrapWindowEnd h
  | cxlMemRead => exact .execCxlMemRead h
  | cxlMemWrite => exact .execCxlMemWrite h
  | hostMemAnswer => exact .execHostMemAnswer h
  | hostMemTimeout => exact .execHostMemTimeout h
  | hostSnoop | unsupportedCcc => exact .next (.when .answerHost h)
  | beaconWord => exact .execBeaconWord h
  | fibreBad => exact .ite (.next h) (.ite (.next (.update h)) (.next (.downTrain (.update h))))
  | linkRecovery => exact .execLinkRecovery h
  | hostLinkReplay => exact .next (.when .leaveL0 h)
  | hostLinkEpisodeLimit => exact .next (.when .hostLinkDown h)
  | hostLinkL0 => exact .execHostLinkL0 h
  | linkDown => exact .next (.unless .hostLinkDown h)
  | hotReset => exact .ite (.next h) (.next (.put (.resetKeys (.hostLinkDown h))))
  | ldBind => exact .next (.unless .put h)
  | cxlCacheMemEnable => exact .next (.put (.put h))
  | getLdInfo | getLdAllocations | setLdAllocations => exact .fmCommand h
  | seamFlitFail => exact .execSeamFlitFail h
  | seamNak => exact .ite (.next (.countReplay (.setLink h))) (.next h)
  | seamReplayFail => exact .execSeamReplayFail h
  | seamRetrainDone => exact .execSeamRetrainDone h
  | seamReplayPass => exact .ite (.next (.setLink h)) (.next h)
  | fabSwRst => exact .next (.ifClocked .resetFab h)
  | migrationQuiesced => exact .execMigrationQuiesced h
  | ringMigrationTimeout => exact .execRingMigrationTimeout h
  | transitFail | transitTrip => exact .next (.when .declareHole h)
  | sweepCuePlace => exact .execSweepCuePlace h
  | testGroupDone => exact .execTestGroupDone h
  | testRunTimeout => exact .execTestRunTimeout h
  | watchEntryExpire => exact .execWatchEntryExpire h
  | watchListSave => exact .next (.when .queueSection h)
  | intSwRst => exact .next (.ifClocked .resetIntegrity h)
  | clockSwitch | stopSwitchRestart => exact .next (.writeClkCtl h)
  | pllLock => exact .ite (.next h) (.next (.restart (.put h)))
  | pllLockLoss => exact .ite (.next (.update (.put (.stopSwitch (.put h))))) (.next (.put h))
  | refLost => exact .next (.ite (.put (.put (.put h))) h)
  | refDetect => exact .next (.when .refPresent h)
  | stitchTargetWrite => exact .ite .fault (.next (.put h))
  | stitchSequenceStart => exact .next (.startSequence h)
  | stitchRailGood => exact .execStitchRailGood h
  | stitchSequenceEnd => exact .execStitchSequenceEnd h
  | clkobsSelect => exact .ite .fault (.next (.writePlain h))
  | treadleTick => exact .ite (.next h) (.ite (.next (.addSat h)) (.next (.addTicks h)))
  | trdPush => exact .next (.ifClocked .pushTicks h)
  | treadleStall => exact .next (.when .put h)
  | treadleCopyAdvance => exact .ite (.next h) (.next (.foldl .makeDue (.update h)))
  | cueWrite => exact .ite (.writeCue h) (.next (.gatedError h))
  | cueFire => exact .execCueFire h
  | transitOn | seamTrain | topoCheck | computeOn | topoAccept | seamRetrain => exact .brgGo h
  | brgCommandComplete => exact .execBrgCommandComplete h
  | distanceTableBuilt => exact .next (.ite (.put (.updateDistances h)) h)
  | brgRstCore | brgRstPanel | brgRstPartition | brgRstWafer => exact .rstGo h
  | drainEnd => exact .execDrainEnd h
  | drainLimitExpire => exact .execDrainLimitExpire h
  | resetPhaseEnd => exact .execResetPhaseEnd h
  | functionLevelReset => exact .next (.ite (.update (.clearLdHost h)) (.beginReset (.clearLdHost h)))
  | darnRequest => exact .next (.ite (.writeDarnCmd h) (.gatedError h))
  | darnAction => exact .execDarnAction h
  | darnCopyTimeout => exact .execDarnCopyTimeout h
  | darnQuiesced => exact .execDarnQuiesced h
  | darnResume => exact .execDarnResume h
  | darnAbandon => exact .execDarnAbandon h
  | nop => exact .next (.issue .done h)
  | br | jal | jalr => exact .next (.branch h)
  | end_ => exact .next (.issue (fun h => .done (.setThread h)) h)
  | trap => exact .next (.issue (fun h => .trap) h)
  | instructionFetchTrap => exact .execInstructionFetchTrap h
  | deadlockDetect => exact .execDeadlockDetect h
  | dlSnapshotRelease => exact .next (.ifClocked .releaseSnapshot h)
  | powerOn => exact .next (.assertSource (.resetKeys h))
  | supply | pinReset => exact .next (.assertSource h)
  | i3cTargetReset | i3cPeriphReset | watchdog => exact .next (.when .assertSource h)
  | hostModule | hostFabric | rstSwRst => exact .next (.writeRstCtl h)
  | resetSourceWithdrawn => exact .execResetSourceWithdrawn h
  | writePulseEnd => exact .execWritePulseEnd h
  | resetAssertStep => exact .execResetAssertStep h
  | resetReleaseStep => exact .execResetReleaseStep h
  | rstBlockWaf => exact .resetByBlock .resetWaf h
  | rstBlockClk => exact .resetByBlock .resetClk h
  | rstBlockPwr => exact .resetByBlock .resetPwr h
  | rstBlockTrd => exact .resetByBlock .resetTrd h
  | rstBlockInt => exact .resetByBlock .resetIntegrity h
  | rstBlockMrk => exact .resetByBlock .resetMarker h
  | rstBlockBrg => exact .resetByBlock .resetBrg h
  | rstBlockNvs => exact .resetByBlock .resetNvs h
  | powerSample => exact .next (.update (.put (.put (.put (.noteThrottles h)))))
  | powerEvaluation => exact .execPowerEvaluation h
  | unpark => exact .next (.when .update h)
  | unparkDone => exact .ite (.next h) (.next (.raiseField (.computeUp (.update h))))
  | thermalSample => exact .execThermalSample h
  | thermalClear => exact .execThermalClear h
  | computeTrip => exact .next (.ite (.noteFault (.parkField (.countTrip h))) h)
  | opticsTrip => exact .next (.ite (.foldl .failPort (.setDomain h)) h)
  | hostAttachTrip => exact .next (.ite (.unless .hostLinkDown (.setDomain h)) h)
  | pwrPark | clrTrip | pwrUnpark => exact .pwrFieldGo h
  | pwrSwRst => exact .next (.ite (.resetPwr h) (.gatedError h))
  | chunk | fwUpdateFinish | raiseMinver => exact .next (.writeUpdCmd h)
  | lifeUpdate => exact .next (.ite (.queueSection (.update h)) h)
  | flush | nvsSwRst => exact .next (.writeNvsCtl h)
  | getVersion | getCapabilities | negotiateAlgorithms | getDigests | getCertificate | challenge | getMeasurements |
    keyExchange | finish | endSession | heartbeat =>
    exact .next (.spdmRequest h)
  | ideKm => exact .next (.when .update (.spdmRequest h))
  | registerWrite => exact .hostWriteAt h
  | entdaa => exact .execEntdaa h
  | rstdaa => exact .next (.ite (.put (.put h)) h)
  | enec => exact .ccc .put h
  | disec => exact .ccc (fun h => .update (.put h)) h
  | getpid | getbcr | getdcr | getmwl | getmrl => exact .ccc (fun h => h) h
  | getstatus => exact .execGetstatus h
  | rstact => exact .ccc .update h
  | ibi => exact .execIbi h
  | getStatus => exact .execGetStatus h
  | setCap => exact .execSetCap h
  | getPower => exact .execGetPower h
  | getTherm => exact .execGetTherm h
  | getCoolant => exact .execGetCoolant h
  | readReg => exact .execReadReg h
  | fwBegin => exact .execFwBegin h
  | fwChunk => exact .execFwChunk h
  | fwFinish => exact .execFwFinish h
  | getId => exact .execGetId h
  | mgtResponseRead => exact .execMgtResponseRead h
  | mgtBusArbitrate => exact .execMgtBusArbitrate h
  | mgtSwRst => exact .next (.ifClocked .resetMgt h)
  | ld | ldu => exact .next (.loadOp h)
  | st => exact .ite .fault (.next (.access .storeAt h))
  | amoadd | amoswap | amoand | amoor | amoxor | amomin | amomax | amocas => exact .next (.amo h)
  | tileLd => exact .execTileLd h
  | tileSt => exact .execTileSt h
  | rd => exact .execRd h
  | wr => exact .execWr h
  | amo => exact .next (.serve (fun h => .guarded .serveAtomic h) h)
  | msg => exact .next (.serve (fun h => .guarded .takeMessage h) h)
  | tsigPacket => exact .execTsigPacket h
  | probe => exact .next (.serve .reply h)
  | ncastPacket => exact .execNcastPacket h
  | rdr | ack => exact .next (.receive (fun h => .deliverReply .writeAnswer h) h)
  | err | unb | rstr | ncasta => exact .next (.receive (fun h => .deliverReply (fun h => h) h) h)
  | prober => exact .execProber h
  | cmpEq | cmpNe | cmpLt | cmpGe | cmpLtu | cmpGeu => exact .next (.compare h)
  | cmpiEq | cmpiNe | cmpiLt | cmpiGe | cmpiLtu | cmpiGeu | cmpiGt | cmpiLe | cmpiGtu | cmpiLeu =>
    exact .next (.compareImm h)
  | pand | por | pxor | pandn | pnot => exact .next (.logic h)
  | add | sub | and | or | xor | sll | srl | sra | mul | div | divu | rem | remu | min | max | minu | maxu | clz |
    popc =>
    exact .next (.scalar h)
  | rdsys => exact .next (.issue (fun h => .done (.setThread (.sysValue h))) h)

theorem Out.memoriesWf.step (h : s.memoriesWf) : Out.memoriesWf (step s) := by
  unfold Machine.step
  split
  · exact .next h
  · exact .exec (.update h) _

/-- Settles O59: the front command's rule, read off the dispatch, says it of the state the step answers. -/
theorem stepKeepsMemories : Obligations.StepKeepsMemories := by
  unfold Obligations.StepKeepsMemories
  intro s t h hstep
  exact (Out.memoriesWf.step h).of_next hstep

end Sys2Proof.Machine
end

section
/-!
PROOFS. What stalls, settling, issue traps and injection leave of the state: the rules that the statements on threads,
tags and core control share.
-/

namespace Sys2Proof.Machine

/-! ### Two changes of one thread -/

theorem State.setThread_setThread_of_st (s : State) (c : Lcn) (t : Fin 4) {a b : Thread} (ha : a.st ≠ .stopped)
    (hb : b.st ≠ .stopped) : (s.setThread c t a).setThread c t b = s.setThread c t b := by
  have reset_st {th : Thread} (h : th.st ≠ .stopped) : th ≠ Thread.reset := by
    rintro rfl
    exact h rfl
  rw [State.setThread, State.setThread, mset_mset _ _ _ (reset_st ha) (reset_st hb)]
  rfl

theorem State.thread_congr {s t : State} (h : t.threads = s.threads) (c : Lcn) (n : Fin 4) :
    t.thread c n = s.thread c n := by
  rw [State.thread, h, State.thread]

theorem State.core_congr {s t : State} (h : t.cores = s.cores) (c : Lcn) : t.core c = s.core c := by
  rw [State.core, h, State.core]

theorem State.get_congr {s t : State} (h : t.regs = s.regs) (f : Fld) (u n : Nat) : t.get f u n = s.get f u n := by
  rw [State.get, h, State.get]

theorem State.otherThreadsKept_setThread (s : State) (c : Lcn) (n : Fin 4) (th : Thread) :
    s.otherThreadsKept (s.setThread c n th) c n := fun _ _ h => s.thread_setThread_other th h

/-! ### Stalls (02 Table 2.7) -/

/-- A stall changes the thread and the counters of time. -/
theorem State.stallThread_eq (s : State) (c : Lcn) (n : Fin 4) (reason : Nat) (wants : List RegRef) :
    ∃ ticked, s.stallThread c n reason wants =
      { s.setThread c n { s.thread c n with st := .stalled, stall := reason, wants } with ticked } := by
  unfold State.stallThread
  split <;> exact ⟨_, rfl⟩

/-- Nothing differs but that a thread is STALLED, and counters of time. -/
theorem State.stallThread_only (s : State) (c : Lcn) (n : Fin 4) (reason : Nat) (wants : List RegRef) :
    (s.stallThread c n reason wants).thread c n = { s.thread c n with st := .stalled, stall := reason, wants } ∧
      s.otherThreadsKept (s.stallThread c n reason wants) c n ∧
      { s.stallThread c n reason wants with threads := s.threads, ticked := s.ticked } = s := by
  obtain ⟨ticked, h⟩ := s.stallThread_eq c n reason wants
  rw [h]
  exact ⟨s.thread_setThread_same .., s.otherThreadsKept_setThread c n _, rfl⟩

/-! ### Threads that go on (02 Table 2.3) -/

theorem State.threadsSettled.refl (s : State) (c : Lcn) : s.threadsSettled s c := fun _ _ => .inl rfl

theorem State.threadsSettled.trans {s t u : State} {c : Lcn} (h : s.threadsSettled t c) (h' : t.threadsSettled u c) :
    s.threadsSettled u c := by
  intro d m
  obtain hu | ⟨hd, hst, hu⟩ := h' d m
  · rw [hu]
    exact h d m
  · obtain ht | ⟨-, -, ht⟩ := h d m
    · rw [ht] at hst hu
      exact .inr ⟨hd, hst, hu⟩
    · rw [ht] at hst
      cases hst

theorem State.threadsSettled.congr_left {s s' t : State} {c : Lcn} (h : s.threadsSettled t c)
    (hs : s'.threads = s.threads) : s'.threadsSettled t c := by
  intro d m
  rw [State.thread_congr hs]
  exact h d m

/-- A thread that is not STALLED stays as it is. -/
theorem State.threadsSettled.keeps {s t : State} {c d : Lcn} {m : Fin 4} (h : s.threadsSettled t c)
    (hst : (s.thread d m).st ≠ .stalled) : t.thread d m = s.thread d m :=
  (h d m).resolve_right fun h => hst h.2.1

theorem State.unstall_eq (s : State) (c : Lcn) (n : Fin 4) : ∃ threads, s.unstall c n = { s with threads } := by
  unfold State.unstall
  split <;> exact ⟨_, rfl⟩

theorem State.threadsSettled_unstall (s : State) (c : Lcn) (n : Fin 4) : s.threadsSettled (s.unstall c n) c := by
  intro d m
  unfold State.unstall
  split
  · next h =>
    by_cases hdm : d = c ∧ m = n
    · obtain ⟨rfl, rfl⟩ := hdm
      exact .inr ⟨rfl, h.1, s.thread_setThread_same ..⟩
    · exact .inl (s.thread_setThread_other _ hdm)
  · exact .inl rfl

theorem State.thread_unstall_other (s : State) (c : Lcn) {n m : Fin 4} (h : m ≠ n) :
    (s.unstall c n).thread c m = s.thread c m := by
  unfold State.unstall
  split
  · exact s.thread_setThread_other _ fun e => h e.2
  · rfl

theorem State.settle_eq (s : State) (c : Lcn) : ∃ threads, s.settle c = { s with threads } :=
  List.foldlRecOn (motive := fun t : State => ∃ threads, t = { s with threads }) allThreads
    (fun s t => s.unstall c t) ⟨s.threads, rfl⟩ fun t ⟨_, ht⟩ n _ => by
    obtain ⟨threads, h⟩ := t.unstall_eq c n
    exact ⟨threads, by rw [h, ht]⟩

theorem State.threadsSettled_settle (s : State) (c : Lcn) : s.threadsSettled (s.settle c) c :=
  List.foldlRecOn (motive := fun t : State => s.threadsSettled t c) allThreads (fun s t => s.unstall c t)
    (.refl s c) fun t ht n _ => ht.trans (t.threadsSettled_unstall c n)

/-- Whether a stall has cleared depends on the core, the registers and the thread alone, but where it waits for a tag. -/
theorem State.stallClears_congr {s t : State} {c : Lcn} {m : Fin 4} (hcore : t.core c = s.core c)
    (hregs : t.regs = s.regs) (hth : t.thread c m = s.thread c m) (h2 : (s.thread c m).stall ≠ 2)
    (h3 : (s.thread c m).stall ≠ 3) : t.stallClears c m = s.stallClears c m := by
  have hacc : t.accsFree c m = s.accsFree c m := by
    simp only [State.accsFree, hcore, State.get_congr hregs]
  simp only [State.stallClears, hcore, hth, hacc]
  split
  · rfl
  · next h => exact absurd h h2
  · next h => exact absurd h h3
  · rfl
  · rfl
  · rfl

theorem State.foldl_unstall_running {c : Lcn} {m : Fin 4} (l : List (Fin 4)) (hm : m ∈ l) : ∀ s : State,
    (s.thread c m).st = .stalled → (s.thread c m).stall ≠ 2 → (s.thread c m).stall ≠ 3 → s.stallClears c m = true →
      ((l.foldl (fun s n => s.unstall c n) s).thread c m).st = .running := by
  induction l with
  | nil => cases hm
  | cons n l ih =>
    intro s hst h2 h3 hclears
    rw [List.foldl_cons]
    by_cases hn : m = n
    · subst hn
      have hrun : (s.unstall c m).thread c m = { s.thread c m with st := .running } := by
        rw [State.unstall, if_pos ⟨hst, hclears⟩, State.thread_setThread_same]
      have hkept : (s.unstall c m).threadsSettled (l.foldl (fun s n => s.unstall c n) (s.unstall c m)) c :=
        List.foldlRecOn (motive := fun t : State => (s.unstall c m).threadsSettled t c) l (fun s n => s.unstall c n)
          (.refl _ c) fun t ht n _ => ht.trans (t.threadsSettled_unstall c n)
      rw [hkept.keeps (by simp [hrun]), hrun]
    · have hth := s.thread_unstall_other c hn
      obtain ⟨threads, heq⟩ := s.unstall_eq c n
      have hclears' : (s.unstall c n).stallClears c m = true := by
        rw [State.stallClears_congr (s := s) (by rw [heq]; rfl) (by rw [heq]) hth h2 h3, hclears]
      refine ih ((List.mem_cons.1 hm).resolve_left hn) _ ?_ ?_ ?_ hclears' <;> rwa [hth]

theorem mem_allThreads : ∀ m : Fin 4, m ∈ allThreads := by decide

/-- A stalled thread whose reason has gone and is no wait for a tag is RUNNING once its core has settled. -/
theorem State.settle_running {s : State} {c : Lcn} {m : Fin 4} (hst : (s.thread c m).st = .stalled)
    (h2 : (s.thread c m).stall ≠ 2) (h3 : (s.thread c m).stall ≠ 3) (hclears : s.stallClears c m = true) :
    ((s.settle c).thread c m).st = .running :=
  State.foldl_unstall_running allThreads (mem_allThreads m) s hst h2 h3 hclears

/-! ### What is offered, with less -/

theorem State.offers.mono {s : State} {x : Issue} {regs regs' : List RegRef} {len len' : Nat} (h : s.offers x regs len)
    (hregs : regs' ⊆ regs) (hlen : len' ≤ len) : s.offers x regs' len' := by
  obtain ⟨hcan, hend, hshut, hheld, hclear⟩ := h
  exact ⟨hcan, by omega, hshut, hheld, fun r hr => hclear r (hregs hr)⟩

theorem State.ready.mono {s : State} {x : Issue} {regs regs' : List RegRef} {len len' : Nat} (h : s.ready x regs len)
    (hregs : regs' ⊆ regs) (hlen : len' ≤ len) : s.ready x regs' len' := ⟨h.1.mono hregs hlen, h.2⟩

/-- A thread that can issue is RUNNING or STALLED. -/
theorem State.canIssue_st {s : State} {c : Lcn} {n : Fin 4} (h : s.canIssue c n = true) :
    (s.thread c n).st = .running ∨ (s.thread c n).st = .stalled := by
  simp only [State.canIssue, Bool.and_eq_true, Bool.or_eq_true, decide_eq_true_eq] at h
  exact h.1.1.1

/-! ### Issue traps (03 R134, R136) -/

theorem firstTrap_none {l : List (Bool × TrapInfo)} (h : ∀ e ∈ l, e.1 = false) : firstTrap l = none := by
  have hnil : l.filter (fun e => e.1) = [] := List.filter_eq_nil_iff.2 fun e he => by simp [h e he]
  rw [firstTrap, hnil]
  rfl

theorem firstTrap_head (r : TrapInfo) (l : List (Bool × TrapInfo)) :
    ∃ multi, firstTrap ((true, r) :: l) = some { r with multi := multi } := by
  rw [firstTrap, List.filter_cons_of_pos rfl, List.map_cons]
  cases (l.filter fun e => e.1).map (·.2) with
  | nil => exact ⟨r.multi, rfl⟩
  | cons _ _ => exact ⟨true, rfl⟩

/-- What a trap brings once it is recorded: the core's other threads halt and an event is raised, as CORE_TRAPCTL says
(03 R134, R138). -/
def State.announceTrap (s : State) (c : Lcn) (n : Fin 4) : State :=
  let s := if s.flag F.CORE_TRAPCTL_STOP_CORE c.toNat then
      allThreads.foldl (fun s u => if u = n then s else s.haltThread c u) s
    else s
  if s.flag F.CORE_TRAPCTL_EVT_EN c.toNat then s.raiseTrap c n else s

theorem State.trap_eq {s : State} {c : Lcn} {n : Fin 4} (h : (s.thread c n).st ≠ .trapped) (r : TrapInfo) :
    s.trap c n r = ((s.recordTrap c n r).setThread c n
      { s.thread c n with st := .trapped, wait := none, stall := 0 }).announceTrap c n := by
  cases hst : (s.thread c n).st with
  | trapped => exact absurd hst h
  | _ =>
    simp only [State.trap, hst]
    rfl

/-- The trap of an instruction is taken as if its thread had stood as it was before the issue. -/
theorem State.trap_issuing {s : State} {x : Issue} (h : s.canIssue x.core x.thread = true) (r : TrapInfo) :
    (s.setThread x.core x.thread (s.issuer x).issuing).trap x.core x.thread r = s.trap x.core x.thread r := by
  have hst : (s.thread x.core x.thread).st ≠ .trapped := by
    obtain h | h := State.canIssue_st h <;> simp [h]
  rw [State.trap_eq hst, State.trap_eq (by simp), State.thread_setThread_same]
  exact congrArg (fun u : State => u.announceTrap x.core x.thread)
    (State.setThread_setThread_of_st (s.recordTrap x.core x.thread r) x.core x.thread (by simp) (by simp))

/-- An instruction of a ready thread that meets an issue trap. -/
theorem State.issue_traps {s : State} {x : Issue} {regs : List RegRef} {len : Nat} (h : s.ready x regs len)
    (act : Thread → State → Act) (always : Bool) (needs : Needs) {r : TrapInfo}
    (ha : act (s.issuer x).issuing (s.setThread x.core x.thread (s.issuer x).issuing) = .trap r) :
    s.issue x len regs none act always needs = s.trap x.core x.thread r := by
  rw [State.issue_trap h act always needs ha, State.trap_issuing h.1.1]

end Sys2Proof.Machine
end

section
/-!
PROOFS. The register files of a thread and the system values that rdsys reads (O4).
-/

namespace Sys2Proof.Machine

/-! ### Register files (02 R46, Table 2.1) -/

theorem mget_mset_fin {α : Type} [DecidableEq α] {n : Nat} (d : α) (m : PMap α) (r q : Fin n) (v : α) :
    mget d (mset d m r v) q = if q = r then v else mget d m q := by
  split
  · next h => rw [h, mget_mset_same]
  · next h => exact mget_mset_other d d m v fun e => h (Fin.ext e)

theorem Thread.writeS_of_ne (th : Thread) {r : Fin 32} (hr : r ≠ 0) (v : Word) :
    th.writeS r v = { th with s := mset 0 th.s r.val v } := by
  rw [Thread.writeS, if_neg hr]

theorem Thread.writeP_of_ne (th : Thread) {r : Fin 8} (hr : r ≠ 0) (v : Bool) :
    th.writeP r v = { th with p := (th.writeP r v).p } := by
  rw [Thread.writeP, if_neg hr]

@[simp] theorem Thread.readP_zero (th : Thread) : th.readP 0 = true := rfl

theorem Thread.readS_writeS (th : Thread) {r : Fin 32} (hr : r ≠ 0) (q : Fin 32) (v : Word) :
    (th.writeS r v).readS q = if q = r then v else th.readS q := by
  rw [th.writeS_of_ne hr]
  simp only [Thread.readS, mget_mset_fin]
  by_cases hq : q = 0
  · simp [hq, hr.symm]
  · simp [hq]

/-! ### System values (03 R106, Table 3.5) -/

/-- An instruction that writes s[RD], and may have taken free values before. -/
theorem State.issue_writesS {s : State} {x : Issue} {rd : Fin 32} (h : s.ready x [.s rd])
    (act : Thread → State → Act) (v : Word) (n : Nat)
    (ha : ∀ th u, th = (s.issuer x).issuing → u = s.setThread x.core x.thread th →
      act th u = .done ({ u with freeCtr := n }.setThread x.core x.thread (th.writeS rd v)) (th.pc + 4)) :
    s.issue x 4 [.s rd] none act =
      { s with freeCtr := n }.after x ((s.issuer x).writeS rd v) ((s.issuer x).pc + 4) := by
  rw [State.issue_done h act false .none (ha _ _ rfl rfl)]
  simp only [State.retire, State.thread_setThread_same, State.after, Thread.issuing_pc]
  have hrun : ((s.issuer x).issuing.writeS rd v).st = .running := by simp
  rw [← Thread.issuing_writeS_retiredAt]
  unfold Thread.retiredAt
  generalize (s.issuer x).issuing.writeS rd v = th at hrun ⊢
  obtain ⟨⟩ := th
  cases hrun
  rw [State.setThread_setThread _ _ _ rfl rfl]
  exact State.setThread_setThread { s with freeCtr := n } _ _ rfl rfl

/-- rdsys of a selector that answers a value and takes no free one. -/
theorem State.rdsys_gives {s : State} {x : Issue} {rd : Fin 32} (h : s.ready x [.s rd]) {sel : Fin 8} {v : Word}
    (hv : ∀ th, (s.setThread x.core x.thread th).sysValue x.core x.thread sel = (v, s.setThread x.core x.thread th)) :
    exec (.rdsys x rd sel) s = .next (s.after x ((s.issuer x).writeS rd v) ((s.issuer x).pc + 4)) := by
  change Host.Outcome.next _ = _
  rw [State.issue_writesS (n := s.freeCtr) (v := v) h]
  rintro th u rfl rfl
  simp only [hv]
  rfl

/-- rdsys of a selector that takes one free value. -/
theorem State.rdsys_givesFree {s : State} {x : Issue} {rd : Fin 32} (h : s.ready x [.s rd]) {sel : Fin 8} {v : Word}
    (hv : ∀ th, (s.setThread x.core x.thread th).sysValue x.core x.thread sel =
      (v, { s.setThread x.core x.thread th with freeCtr := s.freeCtr + 1 })) :
    exec (.rdsys x rd sel) s =
      .next ({ s with freeCtr := s.freeCtr + 1 }.after x ((s.issuer x).writeS rd v) ((s.issuer x).pc + 4)) := by
  change Host.Outcome.next _ = _
  rw [State.issue_writesS (n := s.freeCtr + 1) (v := v) h]
  rintro th u rfl rfl
  simp only [hv]

/-- A running copy of the treadle count with its phase below. -/
theorem treadleCopy_eq (copy : Nat) (phase : BitVec 16) :
    phase.zeroExtend 64 ||| BitVec.ofNat 64 (copy * 2 ^ 16) = BitVec.ofNat 48 copy ++ phase := by
  refine BitVec.eq_of_getLsbD_eq fun i hi => ?_
  rw [BitVec.getLsbD_append]
  simp only [BitVec.getLsbD_or, BitVec.getLsbD_setWidth, BitVec.getLsbD_ofNat, Nat.testBit_mul_two_pow, hi]
  by_cases h : i < 16
  · simp [h, Nat.not_le.2 h]
  · simp [h, Nat.not_lt.1 h, show i - 16 < 48 by omega]

theorem seenLcn_eq (s : State) (c : Lcn) :
    s.seenLcn c = if s.get F.INT_DUPSTAT_SHADOW c.toNat = 1 then c ^^^ 0x80000 else c := by
  simp [State.seenLcn, State.flag]

/-- Settles O4: the register files are sparse maps that read back what was written, and each selector of rdsys is one
row of `State.sysValue`. -/
theorem registerFilesAndSystemValues : Obligations.RegisterFilesAndSystemValues := by
  unfold Obligations.RegisterFilesAndSystemValues
  refine ⟨⟨fun th v b => ⟨rfl, rfl, rfl, rfl⟩, fun th r q v hr => ?_, fun th r q v => ?_, fun th r q v hr => ?_,
    fun th r q v => ?_⟩, fun x rd s h => ?_⟩
  · refine ⟨th.readS_writeS hr q v, ?_⟩
    rw [th.writeS_of_ne hr]
    exact ⟨fun _ => rfl, fun _ => rfl, fun _ => rfl, rfl, rfl⟩
  · exact ⟨mget_mset_fin 0 th.a r q v, fun _ => rfl, fun _ => rfl, fun _ => rfl, rfl, rfl⟩
  · refine ⟨?_, ?_⟩
    · by_cases hq : q = 0
      · rw [hq, if_neg hr.symm]
        rfl
      · exact th.readP_writeP r q v hq
    · rw [th.writeP_of_ne hr]
      exact ⟨fun _ => rfl, fun _ => rfl, fun _ => rfl, rfl, rfl⟩
  · exact ⟨mget_mset_fin 0 th.t r q v, fun _ => rfl, fun _ => rfl, fun _ => rfl, rfl, rfl⟩
  · intro _ seen gives givesFree copy
    have hseen : s.seenLcn x.core = seen := seenLcn_eq s x.core
    refine ⟨State.rdsys_gives h fun th => ?_, State.rdsys_gives h fun th => ?_, State.rdsys_gives h fun _ => rfl,
      ⟨Config.freeBits 64 s.freeCtr, State.rdsys_givesFree h fun _ => rfl⟩, fun hadv => State.rdsys_gives h fun th => ?_,
      fun hadv => ⟨Config.freeBits 16 s.freeCtr, State.rdsys_givesFree h fun th => ?_⟩,
      State.rdsys_gives h fun _ => rfl, State.rdsys_gives h fun _ => rfl, State.rdsys_gives h fun _ => rfl⟩
    · change (BitVec.ofNat 64 (threadId (s.seenLcn x.core) x.thread), _) = _
      rw [hseen, threadId, Nat.mul_comm]
    · change (BitVec.ofNat 64 (s.seenLcn x.core).toNat, _) = _
      rw [hseen, BitVec.ofNat_toNat]
    · exact if_pos hadv
    · rw [← treadleCopy_eq]
      exact if_neg (Nat.not_lt.2 hadv)

end Sys2Proof.Machine
end

section
/-!
PROOFS. Guards, waits for registers and contentions (O12).
-/

namespace Sys2Proof.Machine

variable {s : State} {x : Issue}

/-! ### Instructions whose guard is false (02 R54, 03 R98) -/

/-- An instruction whose guard is false, whatever it takes of the registers and bytes that were offered, only moves on. -/
theorem State.issue_skips {all regs : List RegRef} {len : Nat} (ho : s.offers x all 8)
    (hg : (s.issuer x).guard x = false) (hregs : regs ⊆ all) (hlen : len ≤ 8) {lacks : Option Nat} (hl : lacks = none)
    (act : Thread → State → Act) (needs : Needs) :
    s.issue x len regs lacks act false needs = s.after x (s.issuer x) ((s.issuer x).pc + len) := by
  rw [hl, State.issue_skipped (ho.mono hregs hlen) hg]

/-- An instruction that may need a tag lacks nothing where its thread can take one. -/
theorem tagOrNone_none {own : Bool} {lacks : Option Nat} (h : lacks = none) :
    (if own = true then none else lacks) = none := by
  rw [h, ite_self]

theorem State.accessStall_none (ht : s.tagStall x.core x.thread = none) (a : Word) (bytes : Nat) (atomic : Bool) :
    s.accessStall x a bytes atomic = none := tagOrNone_none ht

theorem State.storeFaults_unguarded (hg : (s.issuer x).guard x = false) (q : MemAccess) (rd : Fin 32) :
    s.storeFaults x q rd = false := by
  have hg' : (s.thread x.core x.thread).guard x = false := hg
  simp [State.storeFaults, hg']

/-! Loads, atomics and tile accesses are accesses. -/

theorem exec_ld_access (s : State) (x : Issue) (size : Size) (rd : Fin 32) (a : Fin 16) (pi f : Bool) (off : Off) :
    ∃ act, exec (.ld x size rd a pi f off) s = .next (s.access x
      { len := off.len, regs := [.s rd], a, pi, off := off.value size.bytes, bytes := size.bytes } act) := by
  change ∃ act, Host.Outcome.next (State.loadOp ..) = _
  unfold State.loadOp
  exact ⟨_, rfl⟩

theorem exec_amoadd_access (s : State) (x : Issue) (w4 : Bool) (rd : Fin 32) (a : Fin 16) (pi f : Bool) (off : Off) :
    ∃ act, exec (.amoadd x w4 rd a pi f off) s = .next (s.access x
      { len := off.len, regs := [.s rd], a, pi, off := off.value (amoBytes w4), bytes := amoBytes w4, atomic := true }
      act) := by
  change ∃ act, Host.Outcome.next (State.amo ..) = _
  unfold State.amo
  exact ⟨_, rfl⟩

theorem exec_tileLd_access (s : State) (x : Issue) (td : Fin 8) (a : Fin 16) (pi f : Bool) (off : TileOff) :
    ∃ act, exec (.tileLd x td a pi f off) s = .next (s.access x
      { len := off.len, regs := [.t td], a, pi, off := off.value, bytes := 256, tPipe := true } act) := by
  change ∃ act, execTileLd .. = _
  unfold execTileLd
  exact ⟨_, rfl⟩

theorem exec_tileSt_access (s : State) (x : Issue) (td : Fin 8) (a : Fin 16) (pi f : Bool) (off : TileOff) :
    ∃ act, exec (.tileSt x td a pi f off) s = .next (s.access x
      { len := off.len, regs := [.t td], a, pi, off := off.value, bytes := 256, writes := true, tPipe := true } act) := by
  change ∃ act, execTileSt .. = _
  unfold execTileSt
  exact ⟨_, rfl⟩

/-! ### Instructions whose register waits for an answer (03 R115) -/

theorem State.fetchStop_none (hcan : s.canIssue x.core x.thread = true)
    (hshut : s.windowShut x.core (s.issuer x).pc = false) : s.fetchStop x.core (s.thread x.core x.thread).pc 4 = none := by
  simp only [State.canIssue, Bool.and_eq_true, decide_eq_true_eq] at hcan
  rw [State.fetchStop, if_neg (by simpa [State.issuer] using hshut), if_neg (by omega)]

/-- An instruction that reads or writes a register for which an answer is to come waits for every such register. -/
theorem State.holdUp_pending (hheld : x.held = []) {r : RegRef} (hr : (s.core x.core).isPending x.thread r = true)
    {regs : List RegRef} (hmem : r ∈ regs) (lacks : Option Nat) (needs : Needs) :
    s.holdUp x regs lacks needs = some (1, regs.filter fun r => (s.core x.core).isPending x.thread r) := by
  have hne : regs.filter (fun r => (s.core x.core).isPending x.thread r) ≠ [] :=
    List.ne_nil_of_mem (List.mem_filter.2 ⟨hmem, hr⟩)
  simp [State.holdUp, hheld, hne]

theorem State.issue_pending (hcan : s.canIssue x.core x.thread = true)
    (hshut : s.windowShut x.core (s.issuer x).pc = false) (hheld : x.held = []) {r : RegRef}
    (hr : (s.core x.core).isPending x.thread r = true) {regs : List RegRef} (hmem : r ∈ regs) (lacks : Option Nat)
    (act : Thread → State → Act) (always : Bool) (needs : Needs) :
    s.issue x 4 regs lacks act always needs =
      s.stallThread x.core x.thread 1 (regs.filter fun r => (s.core x.core).isPending x.thread r) := by
  simp only [State.issue, hcan, State.fetchStop_none hcan hshut, State.holdUp_pending hheld hr hmem, Bool.not_true,
    Bool.false_eq_true, if_false]

/-- The thread is STALLED with reason 1 on registers that all wait, `r` among them, and nothing else differs. -/
def State.waitsFor (s : State) (x : Issue) (r : RegRef) (i : Instr) : Prop :=
  ∃ t wants, exec i s = .next t ∧ t.issuer x = { s.issuer x with st := .stalled, stall := 1, wants } ∧ r ∈ wants ∧
    (∀ r ∈ wants, (s.core x.core).isPending x.thread r = true) ∧ s.otherThreadsKept t x.core x.thread ∧
    { t with threads := s.threads, ticked := s.ticked } = s

theorem State.waitsFor_of_issue (hcan : s.canIssue x.core x.thread = true)
    (hshut : s.windowShut x.core (s.issuer x).pc = false) (hheld : x.held = []) {r : RegRef}
    (hr : (s.core x.core).isPending x.thread r = true) {i : Instr} {regs : List RegRef} {lacks : Option Nat}
    {act : Thread → State → Act} {always : Bool} {needs : Needs}
    (hexec : exec i s = .next (s.issue x 4 regs lacks act always needs)) (hmem : r ∈ regs) : s.waitsFor x r i := by
  obtain ⟨hth, hothers, hrest⟩ := s.stallThread_only x.core x.thread 1
    (regs.filter fun r => (s.core x.core).isPending x.thread r)
  rw [State.issue_pending hcan hshut hheld hr hmem] at hexec
  exact ⟨_, _, hexec, hth, List.mem_filter.2 ⟨hmem, hr⟩, fun r hr => (List.mem_filter.1 hr).2, hothers, hrest⟩

theorem State.storeFaults_pending (hheld : x.held = []) {r : Fin 32}
    (hr : (s.core x.core).isPending x.thread (.s r) = true) {q : MemAccess} (hq : .s r ∈ q.regs) :
    s.storeFaults x q r = false := by
  simp [State.storeFaults, State.holdUp_pending hheld hr hq]

/-! ### Loads that meet a contention (02 R61, R62; 06 R225) -/

/-- An address in the seen SRAM of the core leads there. -/
theorem State.target_own {c : Lcn} {a : Word} {k : Nat} (ha : a.toNat = (s.seenLcn c).toNat * 2 ^ 16 + k)
    (hk : k < 2 ^ 16) : s.target c a = .own k := by
  have hlt := (s.seenLcn c).isLt
  have htop : a.toNat / 2 ^ 48 = 0 := by omega
  have hzero : bits a.toNat 47 36 = 0 := by simp only [bits]; omega
  have hlcn : BitVec.ofNat 20 (bits a.toNat 35 16) = s.seenLcn c := by
    apply BitVec.eq_of_toNat_eq
    simp only [bits, BitVec.toNat_ofNat]
    omega
  have hoff : a.toNat % 65536 = k := by omega
  simp only [State.target, htop, hzero, hlcn, hoff, if_true]

/-- A contention of the ports or the pipes: the instruction issues, or it loses its cc. -/
theorem State.issue_contends {regs : List RegRef} {len : Nat} (h : s.offers x regs len) {k : Contention}
    (hbuffer : k ≠ .buffer) (hsource : k ≠ .source) (act : Thread → State → Act) (tPipe : Bool) :
    s.issue { x with held := [k] } len regs none act false (.read tPipe) =
      if (s.contend x (.read tPipe) k).1 then (s.contend x (.read tPipe) k).2.stallThread x.core x.thread 4
      else (s.contend x (.read tPipe) k).2.issues x len act false := by
  have hold : s.holdUp { x with held := [k] } regs none (.read tPipe) = none := by
    simp [State.holdUp, h.clear, hbuffer.symm, hsource.symm]
  have hcontend : s.contend { x with held := [k] } (.read tPipe) k = s.contend x (.read tPipe) k := rfl
  simp only [State.issue, h.1, h.fetch, hold, State.contends, hcontend, Bool.not_true, Bool.false_eq_true, if_false]
  have hissues (u : State) : u.issues { x with held := [k] } len act false = u.issues x len act false := rfl
  cases hlost : (s.contend x (.read tPipe) k).1 <;> simp [hlost, hissues]

/-- The effect of an access: its issue traps, the address register with PI, and what it does at its target. -/
def accessAct (x : Issue) (q : MemAccess) (act : Thread → Target → Word → State → Act) (th : Thread) (s : State) : Act :=
  match s.accessTrap x.core th.pc (q.address th) q.bytes q.atomic with
  | some r => .trap r
  | none => act th (s.target x.core (q.address th)) (q.address th)
      (s.setThread x.core x.thread (th.postIncrement q.a q.pi q.off))

theorem State.access_eq (s : State) (x : Issue) (q : MemAccess) (act : Thread → Target → Word → State → Act) :
    s.access x q act = s.issue x q.len q.regs (s.accessStall x (q.address (s.issuer x)) q.bytes q.atomic)
      (accessAct x q act) false (s.accessNeeds x q (q.address (s.issuer x))) := rfl

/-- A read of the core's own SRAM takes the read port and no tag. -/
theorem State.access_own {q : MemAccess} (hq : q.writes = false) {k : Nat}
    (hown : s.target x.core (q.address (s.issuer x)) = .own k) (act : Thread → Target → Word → State → Act) :
    s.access x q act = s.issue x q.len q.regs none (accessAct x q act) false (.read q.tPipe) := by
  have hstall : s.accessStall x (q.address (s.issuer x)) q.bytes q.atomic = none := by
    simp [State.accessStall, hown, Target.isOwn]
  have hneeds : s.accessNeeds x q (q.address (s.issuer x)) = .read q.tPipe := by
    simp [State.accessNeeds, hown, hq]
  rw [State.access_eq, hstall, hneeds]

theorem State.access_loses {q : MemAccess} (h : s.offers x q.regs q.len) (hq : q.writes = false) {k : Nat}
    (hown : s.target x.core (q.address (s.issuer x)) = .own k) {j : Contention} (hbuffer : j ≠ .buffer)
    (hsource : j ≠ .source) (hlost : (s.contend x (.read q.tPipe) j).1 = true)
    (act : Thread → Target → Word → State → Act) :
    s.access { x with held := [j] } q act =
      (s.contend x (.read q.tPipe) j).2.stallThread x.core x.thread 4 := by
  rw [State.access_own (x := { x with held := [j] }) hq hown, State.issue_contends h hbuffer hsource, if_pos hlost]

/-- A read that wins issues as one that meets nothing would in the state that the arbitration leaves. -/
theorem State.access_wins {q : MemAccess} (h : s.offers x q.regs q.len) (hq : q.writes = false) {k : Nat}
    (hown : s.target x.core (q.address (s.issuer x)) = .own k) {j : Contention} (hbuffer : j ≠ .buffer)
    (hsource : j ≠ .source) {u : State} (hwon : s.contend x (.read q.tPipe) j = (false, u))
    (hu : u.offers x q.regs q.len) (hown' : u.target x.core (q.address (u.issuer x)) = .own k)
    (act : Thread → Target → Word → State → Act) :
    s.access { x with held := [j] } q act = u.access { x with held := [] } q act := by
  have hx : u.offers { x with held := [] } q.regs q.len := ⟨hu.1, hu.2.1, hu.2.2.1, rfl, hu.2.2.2.2⟩
  rw [State.access_own (x := { x with held := [j] }) hq hown, State.issue_contends h hbuffer hsource, hwon,
    State.access_own (x := { x with held := [] }) hq hown', State.issue_issues hx]
  rfl

/-- A load that loses its cc: its thread is STALLED with reason 4, its core is left by the arbitration, and SRAM,
registers and fabric are as before. -/
def State.losesCc (s : State) (x : Issue) (i : Instr) (k : Core) : Prop :=
  ∃ t, exec i s = .next t ∧ t.issuer x = { s.issuer x with st := .stalled, stall := 4, wants := [] } ∧
    t.core x.core = k ∧ s.otherThreadsKept t x.core x.thread ∧ t.sram = s.sram ∧ t.regs = s.regs ∧ t.fab = s.fab

theorem State.losesCc_of_contend {i : Instr} {u : State} {k : Core}
    (hexec : exec i s = .next (u.stallThread x.core x.thread 4)) (hcore : u.core x.core = k)
    (hthreads : u.threads = s.threads) (hsram : u.sram = s.sram) (hregs : u.regs = s.regs) (hfab : u.fab = s.fab) :
    s.losesCc x i k := by
  obtain ⟨ticked, h⟩ := u.stallThread_eq x.core x.thread 4 []
  rw [h] at hexec
  refine ⟨_, hexec, ?_, hcore, fun d m hdm => ?_, hsram, hregs, hfab⟩
  · exact (u.thread_setThread_same ..).trans (by rw [State.thread_congr hthreads]; rfl)
  · exact (u.thread_setThread_other _ hdm).trans (State.thread_congr hthreads d m)

/-- The core that the arbitration leaves has the same tags and the same switch. -/
theorem State.offers_setCore {regs : List RegRef} {len : Nat} (h : s.offers x regs len) {k : Core}
    (htags : k.tags = (s.core x.core).tags) (hswitch : k.switch = (s.core x.core).switch) :
    (s.setCore x.core k).offers x regs len := by
  obtain ⟨hcan, hend, hshut, hheld, hclear⟩ := h
  refine ⟨hcan, hend, ?_, hheld, fun r hr => ?_⟩
  · rw [← hshut, State.windowShut, State.windowShut, State.core_setCore_same, hswitch]
    rfl
  · rw [← hclear r hr, State.core_setCore_same, Core.isPending, Core.isPending, Core.heldTags, Core.heldTags, htags]

theorem State.core_bankConflict_lost {c : Lcn} {mine other : Fin 3} (h : (s.core c).losesBank mine other = true) :
    (s.bankConflict c mine other).core c = { s.core c with
      portLost := mset 0 (mset 0 (s.core c).portLost mine (mget 0 (s.core c).portLost mine + 1)) other 0 } := by
  simp only [State.bankConflict, h, if_true]
  exact s.core_setCore_same ..

theorem State.contend_pipe (s : State) (x : Issue) : s.contend x (.read false) .pipe =
    ((s.core x.core).tPipeLost,
      s.setCore x.core { s.core x.core with tPipeLost := !(s.core x.core).tPipeLost }) := by
  cases h : (s.core x.core).tPipeLost <;> simp [State.contend, h]

theorem State.contend_bank {other : Fin 3} (hne : other ≠ 0) (hlost : (s.core x.core).losesBank 0 other = true) :
    s.contend x (.read false) (.bank other) = (true, s.bankConflict x.core 0 other) := by
  change (if 0 = other then (false, s) else ((s.core x.core).losesBank 0 other, s.bankConflict x.core 0 other)) = _
  rw [if_neg hne.symm, hlost]

/-! Loads from the core's own SRAM. -/

section
variable {rd : Fin 32} {a : Fin 16} {size : Size} {off : Off} (ho : s.offers x [.s rd] off.len) {k : Nat}
  (hown : s.target x.core ((s.issuer x).address a false (off.value size.bytes)) = .own k) {j : Contention}
  (hbuffer : j ≠ .buffer) (hsource : j ≠ .source)
include ho hown hbuffer hsource

theorem exec_ld_loses (f : Bool) {u : State} (hlost : s.contend x (.read false) j = (true, u)) :
    exec (.ld { x with held := [j] } size rd a false f off) s = .next (u.stallThread x.core x.thread 4) := by
  obtain ⟨act, hld⟩ := exec_ld_access s { x with held := [j] } size rd a false f off
  rw [hld, State.access_loses ho rfl hown hbuffer hsource (by rw [hlost]), hlost]

theorem exec_ld_wins (f : Bool) {c : Core} (htags : c.tags = (s.core x.core).tags)
    (hswitch : c.switch = (s.core x.core).switch) (hwon : s.contend x (.read false) j = (false, s.setCore x.core c)) :
    exec (.ld { x with held := [j] } size rd a false f off) s =
      exec (.ld { x with held := [] } size rd a false f off) (s.setCore x.core c) := by
  change Host.Outcome.next (State.loadOp ..) = .next (State.loadOp ..)
  unfold State.loadOp
  exact congrArg Host.Outcome.next
    (State.access_wins ho rfl hown hbuffer hsource hwon (State.offers_setCore ho htags hswitch) hown _)

end

/-! ### The settlement -/

/-- Settles O12: an instruction is one `State.issue`, and a false guard (`issue_skips`), a register that waits
(`waitsFor_of_issue`) and a lost cc (`exec_ld_loses`, `exec_ld_wins`) are decided before its effect. -/
theorem guardsAndPendingRegisters : Obligations.GuardsAndPendingRegisters := by
  unfold Obligations.GuardsAndPendingRegisters
  intro x s rd rs1 rs2 a td ta tb pd th skips
  refine ⟨fun ho ht hg => ?guard, fun hcan hshut hheld hr => ?pending, fun size f off k ho hk hlt => ?contention⟩
  case guard =>
    have skip {i : Instr} {regs : List RegRef} {len : Nat} {lacks : Option Nat} {act : Thread → State → Act}
        {needs : Needs} (hexec : exec i s = .next (s.issue x len regs lacks act false needs))
        (hl : lacks = none := by rfl) (hregs : regs ⊆ [.s rd, .s rs1, .s rs2, .t td, .t ta, .t tb] := by simp)
        (hlen : len ≤ 8 := by decide) : skips i len := by
      rw [State.issue_skips ho hg hregs hlen hl] at hexec
      exact hexec
    have access {i : Instr} {q : MemAccess} {act : Thread → Target → Word → State → Act}
        (hexec : exec i s = .next (s.access x q act))
        (hregs : q.regs ⊆ [.s rd, .s rs1, .s rs2, .t td, .t ta, .t tb]) (hlen : q.len ≤ 8) : skips i q.len :=
      skip hexec (State.accessStall_none ht _ _ _) hregs hlen
    obtain ⟨_, hld⟩ := exec_ld_access s x .d rd a true false (.off32 1)
    obtain ⟨_, hamo⟩ := exec_amoadd_access s x true rd a false false (.off6 0)
    obtain ⟨_, htld⟩ := exec_tileLd_access s x td a true false (.off8 1)
    obtain ⟨_, htst⟩ := exec_tileSt_access s x td a false false (.off32 256)
    have hst : exec (.st x .d rd a true true (.off6 1)) s = _ := if_neg (by simp [State.storeFaults_unguarded hg])
    have hfour : 4 ≤ 8 := by decide
    exact ⟨skip rfl, skip rfl, skip rfl, skip rfl, skip rfl, skip rfl, skip rfl, access hld (by simp) (le_refl 8),
      access hst (by simp [storeAccess]) hfour, access hamo (by simp) hfour, skip rfl, fun _ => skip rfl,
      fun _ => skip rfl, skip rfl, skip rfl, fun _ => skip rfl, access htld (by simp) hfour,
      access htst (by simp) (le_refl 8), skip rfl, skip rfl (tagOrNone_none ht), skip rfl, skip rfl (tagOrNone_none ht),
      skip rfl⟩
  case pending =>
    have wait {i : Instr} {regs : List RegRef} {lacks : Option Nat} {act : Thread → State → Act} {always : Bool}
        {needs : Needs} (hexec : exec i s = .next (s.issue x 4 regs lacks act always needs))
        (hmem : .s rs1 ∈ regs := by simp) : s.waitsFor x (.s rs1) i :=
      State.waitsFor_of_issue hcan hshut hheld hr hexec hmem
    obtain ⟨_, hld⟩ := exec_ld_access s x .d rs1 a false false (.off6 0)
    obtain ⟨_, hamo⟩ := exec_amoadd_access s x false rs1 a false false (.off6 0)
    have hst : exec (.st x .b rs1 a false false (.off6 0)) s = _ :=
      if_neg (by simp [State.storeFaults_pending hheld hr, storeAccess])
    exact ⟨wait rfl, wait rfl, wait rfl, wait rfl, wait hld, wait hst (by simp [storeAccess]), wait hamo, wait rfl,
      wait rfl, wait rfl⟩
  case contention =>
    intro held lost c
    have hown : s.target x.core ((s.issuer x).address a false (off.value size.bytes)) = .own k := s.target_own hk hlt
    refine ⟨?_, fun hpipe => ?_, fun hpipe => ?_, fun other hbank hne => ?_⟩
    · exact State.losesCc_of_contend (exec_ld_loses ho hown (by simp) (by simp) f rfl) rfl rfl rfl rfl rfl
    · have hcontend := s.contend_pipe x
      rw [hpipe] at hcontend
      exact State.losesCc_of_contend (exec_ld_loses ho hown (by simp) (by simp) f hcontend) (State.core_setCore_same ..)
        rfl rfl rfl rfl
    · have hcontend := s.contend_pipe x
      rw [hpipe] at hcontend
      exact exec_ld_wins ho hown (by simp) (by simp) f rfl rfl hcontend
    · have hother : (0 : Nat) ≠ other.val := fun e => hne (Fin.ext e.symm)
      refine ⟨mset 0 (mset 0 c.portLost 0 (mget 0 c.portLost 0 + 1)) other.val 0,
        State.losesCc_of_contend (exec_ld_loses ho hown (by simp) (by simp) f (State.contend_bank hne hbank))
          (State.core_bankConflict_lost hbank) rfl rfl rfl rfl, ?_, mget_mset_same ..⟩
      rw [mget_mset_other _ _ _ _ hother, mget_mset_same]

end Sys2Proof.Machine
end

section
/-!
PROOFS. The tensor queue (O21).
-/

namespace Sys2Proof.Machine

variable {s : State} {x : Issue}

/-! ### Descriptors (06 R212, R217) -/

/-- A stripe header that 06 R217 accepts by itself. -/
def Stripe.fits (h : Stripe) (mx : Bool) : Prop :=
  h.form < 2 ∧ h.reservedZero = true ∧ 1 ≤ h.span ∧ h.span ≤ 128 ∧
    (h.form = 0 → h.count = 0 ∧ h.base + h.span ≤ 256) ∧
    (h.form = 1 → h.count ≤ h.span ∧ h.base + h.count ≤ 255) ∧ (mx = false → h.xbase = 0) ∧
    (let n := if h.form = 0 then h.span else h.count
     mx = true → 0 < n → h.xbase + (n - 1) / 16 ≤ 255)

/-- A region of a stripe ends by tile 255 (06 R217). -/
theorem Stripe.runsPast_eq_false_iff (h : Stripe) (mx : Bool) : h.runsPast mx = false ↔
    (if h.form = 0 then h.base + h.span - 1 else h.base + h.count) ≤ 255 ∧
      (mx = true → 0 < h.tiles → h.xbase + (h.tiles - 1) / 16 ≤ 255) := by
  cases mx <;> simp [Stripe.runsPast, imp_iff_not_or]

theorem Stripe.malformed_eq_false_iff (h : Stripe) (mx : Bool) : h.malformed mx = false ↔ h.fits mx := by
  have hmx : (!mx && decide (h.xbase ≠ 0)) = false ↔ (mx = false → h.xbase = 0) := by cases mx <;> simp
  simp only [Stripe.malformed, Bool.or_eq_false_iff, hmx, h.runsPast_eq_false_iff mx, decide_eq_false_iff_not,
    Bool.not_eq_false', Stripe.fits, Stripe.tiles]
  by_cases h0 : h.form = 0
  · simp only [h0, if_true, decide_eq_false_iff_not]
    grind
  · simp only [h0, if_false, decide_eq_false_iff_not]
    grind

theorem s24Permitted_iff {fmt : Fin 13} : s24Permitted fmt.val = true ↔ fmt.val ≤ 7 ∨ 0xB ≤ fmt.val := by
  have := fmt.isLt
  simp only [s24Permitted, Bool.or_eq_true, decide_eq_true_eq, beq_iff_eq]
  omega

theorem mxPermitted_iff {fmt : Fin 13} : mxPermitted fmt.val = true ↔ fmt.val ≤ 5 ∨ 0xB ≤ fmt.val := by
  have := fmt.isLt
  simp only [mxPermitted, Bool.or_eq_true, decide_eq_true_eq, beq_iff_eq]
  omega

theorem sparseMalformed_eq_false_iff {d : Nat} (hd : d ≠ 0) (a b : Tile) (fmt : Fin 13) (mx : Bool)
    (ts : Fin 8) : sparseMalformed d a b fmt.val mx ts.val = false ↔
      d % 2 = 1 ∧ d < 512 ∧ (stripeOf a (d / 2 % 16)).fits mx ∧ (stripeOf b (d / 32 % 16)).fits mx ∧
        (stripeOf a (d / 2 % 16)).span = (stripeOf b (d / 32 % 16)).span ∧
        ¬((stripeOf a (d / 2 % 16)).s24 = true ∧ (stripeOf b (d / 32 % 16)).s24 = true) ∧
        ((stripeOf a (d / 2 % 16)).s24 = true ∨ (stripeOf b (d / 32 % 16)).s24 = true → fmt.val ≤ 7 ∨ 0xB ≤ fmt.val) ∧
        (mx = true → ts = 0) := by
  rw [← Stripe.malformed_eq_false_iff, ← Stripe.malformed_eq_false_iff, ← s24Permitted_iff]
  rcases Nat.mod_two_eq_zero_or_one d with hodd | hodd
  · simp [sparseMalformed, hodd, hd]
  · have hbits : bits d 4 1 = d / 2 % 16 ∧ bits d 8 5 = d / 32 % 16 := ⟨rfl, rfl⟩
    simp only [sparseMalformed, hodd, hbits, if_neg one_ne_zero, Bool.or_eq_false_iff, decide_eq_false_iff_not,
      Nat.not_le, not_not, true_and, and_assoc]
    generalize stripeOf a (d / 2 % 16) = ha
    generalize stripeOf b (d / 32 % 16) = hb
    cases ha.s24 <;> cases hb.s24 <;> cases mx <;> simp

/-! ### TMMA at issue (04 R149, R156; 02 R56, R85) -/

/-- The queue entry of a tmma of a thread. -/
def tmmaEntry (x : Issue) (th : Thread) (cd : Fin 4) (ta tb : Fin 8) (fmt : Fin 13) (rm : Fin 3) (z ng : Bool)
    (long : Bool × Fin 8 × Nat) : Product :=
  { thread := x.thread, pc := th.pc, cd, a := th.readT ta, b := th.readT tb, scales := th.readT long.2.1, fmt := fmt.val,
    rm := rm.val, z, ng, mx := long.1, sparse := long.2.2 }

/-- The issue traps of a tmma of a thread. -/
def State.tmmaTrap (s : State) (x : Issue) (th : Thread) (cd : Fin 4) (ta tb : Fin 8) (fmt : Fin 13) (rm : Fin 3)
    (long : Bool × Fin 8 × Nat) : Option TrapInfo :=
  firstTrap (s.ownerTrap x.core x.thread th.pc cd.val fmt.val ::
    (tmmaSubs cd.val fmt.val rm.val long.1
      (sparseMalformed long.2.2 (th.readT ta) (th.readT tb) fmt.val long.1 long.2.1.val)).map
      fun e => (e.2, { cause := 0x10, sub := e.1, pc := th.pc }))

/-- The effect of a tmma. -/
def tmmaAct (x : Issue) (cd : Fin 4) (ta tb : Fin 8) (fmt : Fin 13) (rm : Fin 3) (z ng : Bool)
    (long : Bool × Fin 8 × Nat) (len : Nat) (th : Thread) (s : State) : Act :=
  match s.tmmaTrap x th cd ta tb fmt rm long with
  | some r => .trap r
  | none => .done (s.setCore x.core { s.core x.core with
      queue := (s.core x.core).queue ++ [tmmaEntry x th cd ta tb fmt rm z ng long] }) (th.pc + len)

theorem exec_tmma (x : Issue) (cd : Fin 4) (ta tb : Fin 8) (fmt : Fin 13) (rm : Fin 3) (z ng : Bool)
    (form : Option (Bool × Fin 8 × BitVec 16)) (s : State) :
    exec (.tmma x cd ta tb fmt rm z ng form) s = .next (s.issue x (if form.isSome then 8 else 4)
      ([.t ta, .t tb] ++ if (tmmaLong form).1 && (tmmaLong form).2.2 == 0 then [.t (tmmaLong form).2.1] else [])
      (if rm.val = 2 ∧ (s.core x.core).reseeding = true then some 8
        else if 2 ≤ (s.core x.core).queue.length then some 5 else none)
      (tmmaAct x cd ta tb fmt rm z ng (tmmaLong form) (if form.isSome then 8 else 4))) := rfl

/-- The accumulators that a tmma names are its thread's (02 R85). -/
def State.ownsAccs (s : State) (x : Issue) (cd : Fin 4) (fmt : Fin 13) : Prop :=
  s.owner x.core cd.val = x.thread ∧ (fmt.val = 9 ∧ cd.val % 2 = 0 → s.owner x.core (cd.val + 1) = x.thread)

/-- A format and a mode that 04 Table 4.11 allows. -/
def tmmaAllowed (cd : Fin 4) (fmt : Fin 13) (rm : Fin 3) (mx : Bool) : Prop :=
  fmt.val ≠ 0xA ∧ ¬(fmt.val = 9 ∧ cd.val % 2 = 1) ∧ (mx = true → fmt.val ≤ 5 ∨ 0xB ≤ fmt.val) ∧
    ¬(fmt.val = 2 ∧ mx = false ∧ rm.val ≠ 0)

theorem State.ownerTrap_owned {cd : Fin 4} {fmt : Fin 13} (h : s.ownsAccs x cd fmt) (pc : Nat) :
    s.ownerTrap x.core x.thread pc cd.val fmt.val = (false, { cause := 8, sub := 0, pc }) := by
  have hnone : (namedAccs cd.val fmt.val).find? (fun k => decide (s.owner x.core k ≠ x.thread)) = none := by
    rw [namedAccs]
    split
    · next hpair => simp [h.1, h.2 hpair]
    · simp [h.1]
  rw [State.ownerTrap, hnone]

theorem State.ownerTrap_first {cd : Fin 4} {fmt : Fin 13} (h : s.owner x.core cd.val ≠ x.thread) (pc : Nat) :
    s.ownerTrap x.core x.thread pc cd.val fmt.val = (true, { cause := 8, sub := 0, pc, info := cd.val }) := by
  have hsome : (namedAccs cd.val fmt.val).find? (fun k => decide (s.owner x.core k ≠ x.thread)) = some cd.val := by
    rw [namedAccs]
    split <;> simp [h]
  rw [State.ownerTrap, hsome]

theorem tmmaSubs_allowed {cd : Fin 4} {fmt : Fin 13} {rm : Fin 3} {mx : Bool} (h : tmmaAllowed cd fmt rm mx) (bad : Bool) :
    tmmaSubs cd.val fmt.val rm.val mx bad = [(0, false), (2, false), (3, false), (4, false), (7, bad)] := by
  obtain ⟨hint, hpair, hmx, hrm⟩ := h
  rw [← mxPermitted_iff] at hmx
  have hrm' : (fmt.val == 2 && !mx && rm.val != 0) = false := by
    rw [Bool.eq_false_iff]
    simpa [and_assoc] using hrm
  have hmx' : (mx && !mxPermitted fmt.val) = false := by
    rw [Bool.eq_false_iff]
    simpa using hmx
  have hpair' : (fmt.val == 9 && cd.val % 2 == 1) = false := by
    rw [Bool.eq_false_iff]
    simpa using hpair
  simp [tmmaSubs, hrm', hmx', hpair', hint]

variable {th : Thread} {cd : Fin 4} {ta tb ts : Fin 8} {fmt : Fin 13} {rm : Fin 3} {z ng mx : Bool} {d : Nat}

/-- An allowed tmma of the owner of its accumulators traps for its descriptor alone. -/
theorem State.tmmaTrap_allowed (hown : s.ownsAccs x cd fmt) (hallowed : tmmaAllowed cd fmt rm mx) :
    s.tmmaTrap x th cd ta tb fmt rm (mx, ts, d) =
      if sparseMalformed d (th.readT ta) (th.readT tb) fmt.val mx ts.val = true then
        some { cause := 0x10, sub := 7, pc := th.pc } else none := by
  simp only [State.tmmaTrap, State.ownerTrap_owned hown, tmmaSubs_allowed hallowed]
  cases sparseMalformed d (th.readT ta) (th.readT tb) fmt.val mx ts.val <;> rfl

theorem State.tmmaTrap_notOwner (hown : s.owner x.core cd.val ≠ x.thread) (long : Bool × Fin 8 × Nat) :
    ∃ multi, s.tmmaTrap x th cd ta tb fmt rm long =
      some { cause := 8, sub := 0, pc := th.pc, info := cd.val, multi } := by
  rw [State.tmmaTrap, State.ownerTrap_first hown]
  exact firstTrap_head _ _

/-- A tmma of a ready thread that no reseed holds. -/
theorem exec_tmma_ready (h : s.ready x [.t ta, .t tb, .t ts] 8) (hseed : rm.val = 2 → (s.core x.core).reseeding = false)
    {form : Option (Bool × Fin 8 × BitVec 16)} (hform : tmmaLong form = (mx, ts, d)) :
    ∃ regs, s.ready x regs (if form.isSome then 8 else 4) ∧ exec (.tmma x cd ta tb fmt rm z ng form) s =
      .next (s.issue x (if form.isSome then 8 else 4) regs (if 2 ≤ (s.core x.core).queue.length then some 5 else none)
        (tmmaAct x cd ta tb fmt rm z ng (mx, ts, d) (if form.isSome then 8 else 4))) := by
  have hfree : ¬(rm.val = 2 ∧ (s.core x.core).reseeding = true) := fun e => by simp [hseed e.1] at e
  have hregs : [.t ta, .t tb] ++ (if mx && d == 0 then [.t ts] else []) ⊆ [RegRef.t ta, .t tb, .t ts] := by
    cases mx && d == 0 <;> simp
  refine ⟨_, h.mono hregs (by split <;> decide), ?_⟩
  rw [exec_tmma, if_neg hfree, hform]

theorem exec_tmma_full (h : s.ready x [.t ta, .t tb, .t ts] 8) (hseed : rm.val = 2 → (s.core x.core).reseeding = false)
    (hfull : 2 ≤ (s.core x.core).queue.length) {form : Option (Bool × Fin 8 × BitVec 16)}
    (hform : tmmaLong form = (mx, ts, d)) :
    exec (.tmma x cd ta tb fmt rm z ng form) s = .next (s.stallThread x.core x.thread 5) := by
  obtain ⟨regs, hready, hexec⟩ := exec_tmma_ready (cd := cd) (fmt := fmt) (z := z) (ng := ng) h hseed hform
  rw [hexec, if_pos hfull, State.issue_stalled hready.1]

theorem exec_tmma_room (h : s.ready x [.t ta, .t tb, .t ts] 8) (hseed : rm.val = 2 → (s.core x.core).reseeding = false)
    (hroom : (s.core x.core).queue.length < 2) {form : Option (Bool × Fin 8 × BitVec 16)}
    (hform : tmmaLong form = (mx, ts, d)) :
    ∃ regs, s.ready x regs (if form.isSome then 8 else 4) ∧ exec (.tmma x cd ta tb fmt rm z ng form) s =
      .next (s.issue x (if form.isSome then 8 else 4) regs none
        (tmmaAct x cd ta tb fmt rm z ng (mx, ts, d) (if form.isSome then 8 else 4))) := by
  obtain ⟨regs, hready, hexec⟩ := exec_tmma_ready (cd := cd) (fmt := fmt) (z := z) (ng := ng) h hseed hform
  rw [if_neg (Nat.not_le.2 hroom)] at hexec
  exact ⟨regs, hready, hexec⟩

/-- Nothing differs but that the thread has retired and its core's queue has one entry more. -/
def State.queues (s : State) (x : Issue) (len : Nat) (q : Product) (i : Instr) : Prop :=
  ∃ t, exec i s = .next t ∧ t.issuer x = (s.issuer x).retiredAt ((s.issuer x).pc + len) ∧
    t.core x.core = { s.core x.core with queue := (s.core x.core).queue ++ [q] } ∧
    s.otherThreadsKept t x.core x.thread ∧ (∀ d, d ≠ x.core → t.core d = s.core d) ∧
    { t with threads := s.threads, cores := s.cores } = s

/-- An allowed tmma of the owner of its accumulators with a descriptor that is not malformed. -/
theorem exec_tmma_queues (h : s.ready x [.t ta, .t tb, .t ts] 8) (hseed : rm.val = 2 → (s.core x.core).reseeding = false)
    (hroom : (s.core x.core).queue.length < 2) {form : Option (Bool × Fin 8 × BitVec 16)}
    (hform : tmmaLong form = (mx, ts, d)) (hown : s.ownsAccs x cd fmt) (hallowed : tmmaAllowed cd fmt rm mx)
    (hdesc : sparseMalformed d ((s.issuer x).readT ta) ((s.issuer x).readT tb) fmt.val mx ts.val = false) :
    s.queues x (if form.isSome then 8 else 4) (tmmaEntry x (s.issuer x) cd ta tb fmt rm z ng (mx, ts, d))
      (.tmma x cd ta tb fmt rm z ng form) := by
  obtain ⟨regs, hready, hexec⟩ := exec_tmma_room (cd := cd) (fmt := fmt) (z := z) (ng := ng) h hseed hroom hform
  have htrap : (s.setThread x.core x.thread (s.issuer x).issuing).tmmaTrap x (s.issuer x).issuing cd ta tb fmt rm
      (mx, ts, d) = none := (State.tmmaTrap_allowed (s := s) hown hallowed).trans (by simp [hdesc])
  rw [State.issue_done hready _ false .none (by rw [tmmaAct, htrap])] at hexec
  refine ⟨_, hexec, ?_, ?_, ?_, ?_, rfl⟩
  · simp [State.retire, State.issuer, Thread.retiredAt, Thread.issuing]
  · simp [State.retire, tmmaEntry]
  · intro e m hem
    simp [State.retire, State.thread_setThread_other _ _ hem]
  · intro e he
    simp [State.retire, State.core_setCore_other _ _ he]

theorem exec_tmma_traps (h : s.ready x [.t ta, .t tb, .t ts] 8) (hseed : rm.val = 2 → (s.core x.core).reseeding = false)
    (hroom : (s.core x.core).queue.length < 2) {form : Option (Bool × Fin 8 × BitVec 16)}
    (hform : tmmaLong form = (mx, ts, d)) {r : TrapInfo}
    (htrap : s.tmmaTrap x (s.issuer x) cd ta tb fmt rm (mx, ts, d) = some r) :
    exec (.tmma x cd ta tb fmt rm z ng form) s = .next (s.trap x.core x.thread r) := by
  obtain ⟨regs, hready, hexec⟩ := exec_tmma_room (cd := cd) (fmt := fmt) (z := z) (ng := ng) h hseed hroom hform
  have htrap' : (s.setThread x.core x.thread (s.issuer x).issuing).tmmaTrap x (s.issuer x).issuing cd ta tb fmt rm
      (mx, ts, d) = some r := htrap
  rw [hexec, State.issue_traps hready _ false .none (by rw [tmmaAct, htrap'])]

/-! ### The array takes the head (04 R157, R158; 06 R227) -/

theorem Product.ready_of {q : Product}
    (h : q.sparse = 0 ∨ ∃ w, q.walk = some w ∧ (w.bad ≠ none ∨ w.pairs = [] ∨ w.reads ≠ [])) : q.ready = true := by
  unfold Product.ready
  obtain h | ⟨w, hw, h⟩ := h
  · rw [if_pos h]
  · split
    · rfl
    · simp only [hw, Bool.or_eq_true, Option.isSome_iff_ne_none, List.isEmpty_iff, Bool.not_eq_true',
        List.isEmpty_eq_false_iff]
      tauto

theorem exec_tensorArrayStart {c : Lcn} {q : Product} {rest : List Product} (harray : (s.core c).array = none)
    (hqueue : (s.core c).queue = q :: rest) (hq : q.ready = true) :
    exec (.tensorArrayStart c) s =
      .next ((s.setCore c { s.core c with array := some q, queue := rest }).settle c) := by
  change execTensorArrayStart c s = _
  simp only [execTensorArrayStart, harray, hqueue, hq, if_true]

theorem tensorArrayStart_takesHead {c : Lcn} {q : Product} {rest : List Product} (harray : (s.core c).array = none)
    (hqueue : (s.core c).queue = q :: rest) (hq : q.ready = true) :
    ∃ t, exec (.tensorArrayStart c) s = .next t ∧ t.core c = { s.core c with array := some q, queue := rest } ∧
      (∀ d, d ≠ c → t.core d = s.core d) ∧ s.threadsSettled t c ∧
      (∀ m, (s.thread c m).st = .stalled → (s.thread c m).stall = 5 → rest.length < 2 → (t.thread c m).st = .running) ∧
      { t with cores := s.cores, threads := s.threads } = s := by
  have hexec := exec_tensorArrayStart harray hqueue hq
  have hsettled := (s.setCore c { s.core c with array := some q, queue := rest }).threadsSettled_settle c
  have hruns (m : Fin 4) (hst : (s.thread c m).st = .stalled) (hstall : (s.thread c m).stall = 5) (hrest : rest.length < 2) :
      (((s.setCore c { s.core c with array := some q, queue := rest }).settle c).thread c m).st = .running := by
    refine State.settle_running hst (by simp [hstall]) (by simp [hstall]) ?_
    simp [State.stallClears, hstall, hrest]
  obtain ⟨threads, heq⟩ := (s.setCore c { s.core c with array := some q, queue := rest }).settle_eq c
  rw [heq] at hexec hsettled hruns
  exact ⟨_, hexec, s.core_setCore_same .., fun d hd => s.core_setCore_other _ hd, hsettled, hruns, rfl⟩

/-- Settles O21: tmma meets a full queue (`exec_tmma_full`), a trap (`exec_tmma_traps`) or queues its product
(`exec_tmma_queues`), and the array takes the head of the queue (`tensorArrayStart_takesHead`). -/
theorem tensorQueue : Obligations.TensorQueue := by
  unfold Obligations.TensorQueue
  refine ⟨?_, fun c s q rest harray hqueue hq => tensorArrayStart_takesHead harray hqueue (Product.ready_of hq)⟩
  intro x cd ta tb ts fmt rm z ng mx long s h hseed form hshort th i pair owns
  have hform : tmmaLong form = (mx, ts, 0) := by
    cases long with
    | true => rfl
    | false =>
      obtain ⟨rfl, rfl⟩ := hshort rfl
      rfl
  have hlen : (if form.isSome then 8 else 4) = if long then 8 else 4 := by cases long <;> rfl
  refine ⟨fun hfull => ?_, fun hroom hown hint hpair hmx hrm => ?_, fun hroom hown => ?_,
    fun desc _ hdesc hroom hown hint hpair hmx hrm => ?_⟩
  · obtain ⟨hth, hothers, hrest⟩ := s.stallThread_only x.core x.thread 5 []
    exact ⟨_, exec_tmma_full h hseed hfull hform, hth, hothers, hrest⟩
  · rw [← hlen]
    exact exec_tmma_queues h hseed hroom hform hown ⟨hint, hpair, hmx, hrm⟩ rfl
  · obtain ⟨multi, htrap⟩ := State.tmmaTrap_notOwner (th := s.issuer x) (ta := ta) (tb := tb) (rm := rm) hown (mx, ts, 0)
    exact ⟨multi, exec_tmma_traps h hseed hroom hform htrap⟩
  · intro d ha hb fits ok j
    have hd : d ≠ 0 := fun e => hdesc (BitVec.eq_of_toNat_eq e)
    have hok : sparseMalformed d (th.readT ta) (th.readT tb) fmt.val mx ts.val = false ↔ ok :=
      sparseMalformed_eq_false_iff hd (th.readT ta) (th.readT tb) fmt mx ts
    refine ⟨fun hgood => exec_tmma_queues h hseed hroom rfl hown ⟨hint, hpair, hmx, hrm⟩ (hok.2 hgood),
      fun hbad => exec_tmma_traps h hseed hroom rfl ?_⟩
    rw [State.tmmaTrap_allowed hown ⟨hint, hpair, hmx, hrm⟩, if_pos (by simpa using mt hok.1 hbad)]

end Sys2Proof.Machine
end

section
/-!
PROOFS. Seeds, lanes, owners and tack values as a core's window writes them (O36).
-/

namespace Sys2Proof.Machine

variable {s : State} {c : Lcn}

/-! ### Writes in the window of a backed core (02 R88, R89) -/

/-- A write in a core's window with the core's clocks on has its effect. -/
theorem State.ifWindow_clocked (hb : s.backed c = true) (hc : s.clocked c = true) {r : Reg}
    (hr : r.place.block = .core) (n : Nat) (f : State → State) : s.ifWindow r c n f = f s := by
  have hcore : BitVec.ofNat 20 c.toNat = c := by simp
  rw [State.ifWindow, if_pos hb, State.ifClocked, if_pos (by rw [hr, State.blockClocked, hcore, hc, Bool.true_or])]

/-- A write in a core's window with the core's clocks off is a GATED error, but for CORE_CTL. -/
theorem State.ifWindow_gated (hb : s.backed c = true) (hc : s.clocked c = false) {r : Reg}
    (hr : r.place.block = .core) (hctl : r ≠ .CORE_CTL) (n : Nat) (f : State → State) :
    s.ifWindow r c n f = s.gatedError (regOffset r c.toNat n) := by
  have hcore : BitVec.ofNat 20 c.toNat = c := by simp
  rw [State.ifWindow, if_pos hb, State.ifClocked_off]
  rw [hr, State.blockClocked, hcore, hc, Bool.false_or]
  simpa using hctl

/-! ### Quiet cores and lanes (05 R194, R197, R202) -/

theorem State.quiet_iff (s : State) (c : Lcn) : s.quiet c = true ↔
    (∀ n, (s.thread c n).st = .stopped ∨ (s.thread c n).st = .halted ∨ (s.thread c n).st = .trapped) ∧
      (s.core c).queue = [] ∧ (s.core c).array = none := by
  have hrest (n : Fin 4) : (match (s.thread c n).st with
      | .stopped | .halted | .trapped => true
      | _ => false) = true ↔
      (s.thread c n).st = .stopped ∨ (s.thread c n).st = .halted ∨ (s.thread c n).st = .trapped := by
    cases (s.thread c n).st <;> simp
  simp only [State.quiet, Bool.and_eq_true, List.all_eq_true, List.isEmpty_iff, Option.isNone_iff_eq_none, and_assoc]
  refine and_congr_left fun _ => ?_
  exact ⟨fun h n => (hrest n).1 (h n (mem_allThreads n)), fun h n _ => (hrest n).2 (h n)⟩

theorem State.lane_setLane_same (s : State) (c : Lcn) (l : Nat) (v : Word) : (s.setLane c l v).lane c l = v :=
  mget_mset_same ..

theorem State.lane_setCore (s : State) (c : Lcn) (k : Core) (d : Lcn) (l : Nat) :
    (s.setCore c k).lane d l = s.lane d l := rfl

theorem State.lane_setLane_other (s : State) {c d : Lcn} {l m : Nat} (v : Word) (hl : l < 256) (hm : m < 256)
    (h : ¬(d = c ∧ m = l)) : (s.setLane c l v).lane d m = s.lane d m := by
  refine mget_mset_other _ _ _ _ fun e => h ⟨BitVec.eq_of_toNat_eq ?_, ?_⟩ <;> omega

/-- Lanes of a core set one by one: each reads what it was set to, the others as before. -/
theorem State.lane_foldl_setLane (c : Lcn) (v : Nat → Word) (l : List Nat) (hl : ∀ n ∈ l, n < 256) : ∀ s : State,
    (∀ d m, m < 256 → (l.foldl (fun s n => s.setLane c n (v n)) s).lane d m =
      if d = c ∧ m ∈ l then v m else s.lane d m) := by
  induction l with
  | nil => simp
  | cons n l ih =>
    intro s d m hm
    have hn : n < 256 := hl n (by simp)
    rw [List.foldl_cons, ih (fun k hk => hl k (by simp [hk])) _ d m hm]
    by_cases hin : d = c ∧ m ∈ l
    · simp [hin]
    · rw [if_neg hin]
      by_cases hdm : d = c ∧ m = n
      · obtain ⟨rfl, rfl⟩ := hdm
        simp [State.lane_setLane_same]
      · rw [State.lane_setLane_other _ _ hn hm hdm, if_neg]
        rintro ⟨hd, hmem⟩
        obtain h | h := List.mem_cons.1 hmem
        · exact hdm ⟨hd, h⟩
        · exact hin ⟨hd, h⟩

theorem State.foldl_setLane_rest (c : Lcn) (v : Nat → Word) (l : List Nat) (s : State) :
    { l.foldl (fun s n => s.setLane c n (v n)) s with lanes := s.lanes } = s :=
  List.foldlRecOn (motive := fun t : State => { t with lanes := s.lanes } = s) l _ rfl fun _ ht _ _ => ht

/-- The value that seeding gives a lane does not depend on the lanes. -/
theorem State.foldl_seedLane (c : Lcn) (seed : Word) (s : State) (l : List Nat) : ∀ t : State,
    (∀ n, t.laneNumber c n = s.laneNumber c n) →
      l.foldl (fun t n => t.setLane c n (seedLane seed (t.laneNumber c n))) t =
        l.foldl (fun t n => t.setLane c n (seedLane seed (s.laneNumber c n))) t := by
  induction l with
  | nil =>
    intro t _
    rw [List.foldl_nil, List.foldl_nil]
  | cons n l ih =>
    intro t ht
    have hset (v : Word) (m : Nat) : (t.setLane c n v).laneNumber c m = t.laneNumber c m := rfl
    rw [List.foldl_cons, List.foldl_cons, ht]
    exact ih _ fun m => (hset _ m).trans (ht m)

/-- Seeding sets the lanes of its core, each by its logical number (05 R194, R197). -/
theorem State.seedAll_lanes (s : State) (c : Lcn) :
    (∀ d l, l < 256 → (s.seedAll c).lane d l =
      if d = c then seedLane (BitVec.ofNat 64 (s.get F.CORE_SRSEED_SEED c.toNat)) (s.laneNumber c l) else s.lane d l) ∧
    { s.seedAll c with lanes := s.lanes } = s := by
  have hmem (n : Nat) : n ∈ List.range 256 ↔ n < 256 := List.mem_range
  unfold State.seedAll
  generalize List.range 256 = l at hmem
  simp only
  rw [State.foldl_seedLane c _ s l s fun _ => rfl]
  refine ⟨fun d m hm => ?_, State.foldl_setLane_rest c _ l s⟩
  rw [State.lane_foldl_setLane c _ l (fun n => (hmem n).1) s d m hm]
  simp [hmem, hm]

theorem State.reseed_eq (hq : s.quiet c = true) :
    s.reseed c = (s.seedAll c).setCore c { (s.seedAll c).core c with reseeding := true } := by
  unfold State.reseed
  generalize s.seedAll c = t
  rw [if_pos hq]

/-- A quiet core's RESEED: its 256 lanes seeded from SEED, and the reseed running (05 R197, R198). -/
theorem State.reseed_quiet (hq : s.quiet c = true) :
    (∀ l, l < 256 → (s.reseed c).lane c l =
      seedLane (BitVec.ofNat 64 (s.get F.CORE_SRSEED_SEED c.toNat)) (s.laneNumber c l)) ∧
    (∀ d l, d ≠ c → l < 256 → (s.reseed c).lane d l = s.lane d l) ∧ ((s.reseed c).core c).reseeding = true ∧
    { s.reseed c with lanes := s.lanes, cores := s.cores } = s := by
  obtain ⟨hlane, hrest⟩ := s.seedAll_lanes c
  rw [State.reseed_eq hq]
  generalize s.seedAll c = t at hlane hrest
  refine ⟨fun l hl => ?_, fun d l hd hl => ?_, by rw [State.core_setCore_same],
    congrArg (fun u : State => { u with cores := s.cores }) hrest⟩
  · rw [State.lane_setCore, hlane c l hl, if_pos rfl]
  · rw [State.lane_setCore, hlane d l hl, if_neg hd]

theorem State.reseed_busy (hq : ¬s.quiet c = true) : s.reseed c = s.put F.CORE_SRCMD_REJ 1 c.toNat := if_neg hq

/-! ### Accumulator owners (02 R86) -/

theorem State.writeOwner_unused (harray : (s.core c).array = none) (hqueue : (s.core c).queue = [])
    (hnext : (s.core c).accNext = []) (i owner : Nat) :
    s.writeOwner c i owner = (s.put F.CORE_ACC_OWN_OWNER_k owner c.toNat i).setCore c (s.core c) := by
  have hk : { s.core c with accNext := delKey (s.core c).accNext i } = s.core c := by
    rw [hnext]
    exact congrArg (fun l => { s.core c with accNext := l }) hnext.symm
  have huse : (s.core c).accInUse i = false := by simp [Core.accInUse, harray, hqueue]
  simp only [State.writeOwner, huse, Bool.false_and, Bool.false_eq_true, if_false]
  exact congrArg ((s.put F.CORE_ACC_OWN_OWNER_k owner c.toNat i).setCore c) hk

/-- Owners written one by one where no product is queued or runs and no owner is deferred. -/
theorem State.foldl_writeOwner_unused (v : Nat) (l : List Nat) (hl : ∀ i ∈ l, i < 4) : ∀ {s : State},
    (s.core c).array = none → (s.core c).queue = [] → (s.core c).accNext = [] →
    let t := l.foldl (fun s i => s.writeOwner c i (v / 4 ^ i % 4)) s
    (∀ k, k < 4 → t.get F.CORE_ACC_OWN_OWNER_k c.toNat k =
      if k ∈ l then v / 4 ^ k % 4 else s.get F.CORE_ACC_OWN_OWNER_k c.toNat k) ∧
      s.fieldsKept t [F.CORE_ACC_OWN_OWNER_k] ∧ (∀ d, t.core d = s.core d) ∧
      { t with regs := s.regs, cores := s.cores } = s := by
  induction l with
  | nil => exact fun _ _ _ => ⟨by simp, fun _ _ _ _ _ _ => rfl, fun _ => rfl, rfl⟩
  | cons i l ih =>
    intro s harray hqueue hnext
    have hi : i < 4 := hl i (by simp)
    have hcu : c.toNat < 2 ^ 20 := c.isLt
    rw [List.foldl_cons, State.writeOwner_unused harray hqueue hnext]
    set u := (s.put F.CORE_ACC_OWN_OWNER_k (v / 4 ^ i % 4) c.toNat i).setCore c (s.core c) with hu
    have hcore (d : Lcn) : u.core d = s.core d := by
      by_cases hd : d = c
      · rw [hd, hu, State.core_setCore_same]
      · rw [hu, State.core_setCore_other _ _ hd, State.core_put]
    obtain ⟨howner, hkept, hcores, hrest⟩ := ih (fun k hk => hl k (by simp [hk])) (s := u)
      (by rw [hcore, harray]) (by rw [hcore, hqueue]) (by rw [hcore, hnext])
    refine ⟨fun k hk => ?_, fun f m n hf hm hn => ?_, fun d => (hcores d).trans (hcore d), ?_⟩
    · rw [howner k hk]
      by_cases hkl : k ∈ l
      · simp [hkl]
      · rw [if_neg hkl]
        by_cases hki : k = i
        · subst hki
          simp [hu, F.CORE_ACC_OWN_OWNER_k]
        · rw [if_neg (by simp [hki, hkl]), hu, State.get_setCore,
            State.get_put_place _ _ (by simp [hki]) hcu hcu (by omega) (by omega)]
    · rw [hkept f m n hf hm hn, hu, State.get_setCore]
      exact s.fieldsKept_put _ _ hcu (by omega) f m n hf hm hn
    · exact congrArg (fun t : State => { t with regs := s.regs, cores := s.cores }) hrest

/-! ### The settlement -/

/-- The end of a reseed: threads that waited for the draws go on (05 R198). -/
theorem exec_reseedComplete (s : State) (c : Lcn) :
    ∃ t, exec (.reseedComplete c) s = .next t ∧ t.core c = { s.core c with reseeding := false } ∧
      (∀ d, d ≠ c → t.core d = s.core d) ∧ s.threadsSettled t c ∧
      (∀ m, (s.thread c m).st = .stalled → (s.thread c m).stall = 8 → (t.core c).drawsHeld = false →
        (t.thread c m).st = .running) ∧
      { t with cores := s.cores, threads := s.threads } = s := by
  set u := s.setCore c { s.core c with reseeding := false } with hu
  have hcore : u.core c = { s.core c with reseeding := false } := s.core_setCore_same ..
  have hsettled := u.threadsSettled_settle c
  have hruns (m : Fin 4) (hst : (s.thread c m).st = .stalled) (hstall : (s.thread c m).stall = 8)
      (hdraws : (u.core c).drawsHeld = false) : ((u.settle c).thread c m).st = .running := by
    have hth : u.thread c m = s.thread c m := rfl
    refine State.settle_running (s := u) hst (by simp [hth, hstall]) (by simp [hth, hstall]) ?_
    simp [State.stallClears, hth, hstall, hdraws]
  have hexec : exec (.reseedComplete c) s = .next (u.settle c) := rfl
  obtain ⟨threads, heq⟩ := u.settle_eq c
  rw [heq] at hexec hsettled hruns
  exact ⟨_, hexec, hcore, fun d hd => s.core_setCore_other _ hd, hsettled, hruns, rfl⟩

/-- Settles O36: each command is a write in a core's window (`ifWindow_clocked`, `ifWindow_gated`), and what it does to a
quiet core is read off the lanes, the seed and the owners one by one. -/
theorem seedsAndOwners : Obligations.SeedsAndOwners := by
  unfold Obligations.SeedsAndOwners
  intro s c hb u isQuiet rejected seen mixed
  have hquiet : s.quiet c = true ↔ isQuiet := s.quiet_iff c
  have hseen : s.seenLcn c = seen := by simp [State.seenLcn, State.flag, seen, u]
  refine ⟨fun hc => ?_, fun hc => ?_, exec_reseedComplete s c⟩
  · have write {i : Instr} {r : Reg} {n : Nat} {f : State → State} (hexec : exec i s = .next (s.ifWindow r c n f))
        (hr : r.place.block = .core) : exec i s = .next (f s) := by
      rw [hexec, State.ifWindow_clocked hb hc hr]
    have hreseed : exec (.reseed c) s = .next (s.reseed c) := write (f := fun s => s.reseed c) rfl rfl
    have hseed (v : Word) : exec (.srseedWrite c none v) s = .next (s.writeSeed c v) :=
      write (r := .CORE_SRSEED) (f := fun s => s.writeSeed c v) rfl rfl
    have hlane (l : Fin 256) (v : Word) : exec (.srseedWrite c (some l) v) s = .next (s.writeLane c l v) :=
      write (r := .CORE_SRLANEl) (f := fun s => s.writeLane c l v) rfl rfl
    refine ⟨fun hq => ⟨?_, fun v => ?_, fun l v => ?_⟩, fun hq => ⟨?_, fun v => ?_, fun l v => ?_⟩,
      fun v hqueue harray hnext => ?_, fun n v => write (n := n.val) (f := fun s => s.signal c n true v 2 0) rfl rfl⟩
    · obtain ⟨hlanes, hothers, hseeding, hrest⟩ := State.reseed_quiet (hquiet.2 hq)
      refine ⟨_, hreseed, fun l hl => ?_, hothers, hseeding, hrest⟩
      rw [hlanes l hl, State.laneNumber, hseen]
      rfl
    · rw [hseed, State.writeSeed, if_pos (hquiet.2 hq)]
    · rw [hlane, State.writeLane, if_pos (hquiet.2 hq)]
      exact ⟨_, rfl, s.lane_setLane_same .., fun m hm hne => s.lane_setLane_other v l.isLt hm fun h => hne h.2, rfl⟩
    · exact hreseed.trans (congrArg Host.Outcome.next (State.reseed_busy (mt hquiet.1 hq)))
    · exact (hseed v).trans (congrArg Host.Outcome.next (if_neg (mt hquiet.1 hq)))
    · exact (hlane l v).trans (congrArg Host.Outcome.next (if_neg (mt hquiet.1 hq)))
    · obtain ⟨howner, hkept, hcores, hrest⟩ := State.foldl_writeOwner_unused v.toNat (List.range 4)
        (fun i => List.mem_range.1) harray hqueue hnext
      refine ⟨_, write rfl rfl, fun k hk => ?_, hkept, hcores, hrest⟩
      exact (howner k hk).trans (if_pos (List.mem_range.2 hk))
  · have gated {i : Instr} {r : Reg} {n : Nat} {f : State → State} (hexec : exec i s = .next (s.ifWindow r c n f))
        (hr : r.place.block = .core) (hctl : r ≠ .CORE_CTL) : ∃ off, exec i s = .next (s.gatedError off) :=
      ⟨_, by rw [hexec, State.ifWindow_gated hb hc hr hctl]⟩
    refine ⟨gated rfl rfl (by decide), fun l v => ?_, fun v => gated rfl rfl (by decide),
      fun n v => gated rfl rfl (by decide)⟩
    cases l with
    | none => exact gated rfl rfl (by decide)
    | some l => exact gated rfl rfl (by decide)

end Sys2Proof.Machine
end

section
/-!
PROOFS. What injections and replies leave of the state, and the end of a request tag: the rules that replies at a
thread, tag timers and core resets share.
-/

namespace Sys2Proof.Machine

/-! ### Injections and replies (08 R289, R304, R312 to R316) -/

/-- The register fields that an injection changes: the marks of a field, and a core's outstanding requests. -/
def injectionFields : List Fld := [F.FAB_MARKS_MARKS, F.FAB_MARKS_SAT, F.FAB_WIN_OUT]

theorem State.fieldsKept.refl (s : State) (l : List Fld) : s.fieldsKept s l := fun _ _ _ _ _ _ => rfl

theorem State.fieldsKept.trans_same {s t u : State} {l : List Fld} (h : s.fieldsKept t l) (h' : t.fieldsKept u l) :
    s.fieldsKept u l := fun f n m hf hn hm => (h' f n m hf hn hm).trans (h f n m hf hn hm)

theorem State.fieldsKept.mono {s t : State} {l l' : List Fld} (h : s.fieldsKept t l) (hl : l ⊆ l') :
    s.fieldsKept t l' := fun f n m hf hn hm => h f n m (fun hmem => hf (List.map_subset _ hl hmem)) hn hm

theorem State.fieldsKept_of_regs {s t : State} (h : t.regs = s.regs) (l : List Fld) : s.fieldsKept t l :=
  fun f u n _ _ _ => State.get_congr h f u n

/-- A count with its sticky flag changes these two fields. -/
theorem State.fieldsKept_addSat_at (s : State) (f sat : Fld) (k : Nat) {u : Nat} (hu : u < 2 ^ 20) :
    s.fieldsKept (s.addSat f sat k u) [f, sat] := by
  unfold State.addSat
  split
  · exact (s.fieldsKept_put f _ hu (by norm_num)).mono (by simp)
  · exact (s.fieldsKept_put f _ hu (by norm_num)).trans (State.fieldsKept_put _ sat 1 hu (by norm_num))

theorem State.addSat_eq (s : State) (f sat : Fld) (k u : Nat) : ∃ regs, s.addSat f sat k u = { s with regs } := by
  unfold State.addSat
  split <;> exact ⟨_, rfl⟩

/-- What injections and replies can change: packets with new numbers come, and the windows and the counts of marks
move. -/
structure State.injects (s t : State) : Prop where
  rest : ∃ regs fab spoolWin, t = { s with regs, fab, spoolWin }
  kept : s.fieldsKept t injectionFields
  next : s.fab.nextId ≤ t.fab.nextId
  ids : ∀ q ∈ t.fab.pkts, (∃ r ∈ s.fab.pkts, r.id = q.id) ∨ s.fab.nextId ≤ q.id

theorem State.injects.refl (s : State) : s.injects s where
  rest := ⟨_, _, _, rfl⟩
  kept := .refl s _
  next := le_rfl
  ids := fun q hq => .inl ⟨q, hq, rfl⟩

theorem State.injects.trans {s t u : State} (h : s.injects t) (h' : t.injects u) : s.injects u where
  rest := by
    obtain ⟨_, _, _, ht⟩ := h.rest
    obtain ⟨_, _, _, hu⟩ := h'.rest
    exact ⟨_, _, _, by rw [hu, ht]⟩
  kept := h.kept.trans_same h'.kept
  next := h.next.trans h'.next
  ids := fun q hq => by
    obtain ⟨r, hr, hid⟩ | hnew := h'.ids q hq
    · rw [← hid]
      exact h.ids r hr
    · exact .inr (h.next.trans hnew)

theorem State.injects_foldl {α : Type} (f : State → α → State) (h : ∀ (s : State) (a : α), s.injects (f s a))
    (l : List α) (s : State) : s.injects (l.foldl f s) :=
  List.foldlRecOn (motive := s.injects) l f (.refl s) fun t ht a _ => ht.trans (h t a)

/-- Packets dropped, or replaced under their own numbers. -/
theorem State.injects_pkts (s : State) (pkts : List Packet) (h : ∀ q ∈ pkts, ∃ r ∈ s.fab.pkts, r.id = q.id) :
    s.injects { s with fab := { s.fab with pkts } } where
  rest := ⟨_, _, _, rfl⟩
  kept := State.fieldsKept_of_regs rfl _
  next := le_rfl
  ids := fun q hq => .inl (h q hq)

theorem State.injects_dropPacket (s : State) (id : Nat) : s.injects (s.dropPacket id) :=
  s.injects_pkts _ fun q hq => ⟨q, List.mem_of_mem_filter hq, rfl⟩

theorem State.injects_setPacket (s : State) (p : Packet) : s.injects (s.setPacket p) := by
  refine s.injects_pkts _ fun q hq => ?_
  obtain ⟨r, hr, rfl⟩ := List.mem_map.1 hq
  refine ⟨r, hr, ?_⟩
  split
  · assumption
  · rfl

theorem State.injects_countInjection (s : State) (p : Packet) : s.injects (s.countInjection p) := by
  have hu : s.injects { s with fab := { s.fab with injected := s.fab.injected + 1, caches := s.cachesAfter p } } :=
    { rest := ⟨_, _, _, rfl⟩, kept := State.fieldsKept_of_regs rfl _, next := le_rfl, ids := fun q hq => .inl ⟨q, hq, rfl⟩ }
  simp only [State.countInjection]
  split
  · have hpos : fieldOf p.pos < 2 ^ 20 := by
      have := p.pos.isLt
      unfold fieldOf
      omega
    have hkept := State.fieldsKept_addSat_at { s with fab := { s.fab with
      injected := s.fab.injected + 1, caches := s.cachesAfter p } } F.FAB_MARKS_MARKS F.FAB_MARKS_SAT 1 hpos
    obtain ⟨regs, heq⟩ := State.addSat_eq { s with fab := { s.fab with
      injected := s.fab.injected + 1, caches := s.cachesAfter p } } F.FAB_MARKS_MARKS F.FAB_MARKS_SAT 1 (fieldOf p.pos)
    rw [heq] at hkept ⊢
    exact ⟨⟨_, _, _, rfl⟩, hkept.mono (by simp [injectionFields]), le_rfl, fun q hq => .inl ⟨q, hq, rfl⟩⟩
  · exact hu

theorem State.injects_countOut (s : State) (p : Packet) : s.injects (s.countOut p) := by
  unfold State.countOut
  split
  · exact .refl s
  · split
    · exact ⟨⟨_, _, _, rfl⟩, State.fieldsKept_of_regs rfl _, le_rfl, fun q hq => .inl ⟨q, hq, rfl⟩⟩
    · exact ⟨⟨_, _, _, rfl⟩, (s.fieldsKept_put _ _ p.src.isLt (by norm_num)).mono (by simp [injectionFields]), le_rfl,
        fun q hq => .inl ⟨q, hq, rfl⟩⟩

theorem State.injects_putReply (s : State) (p : Packet) : s.injects (s.putReply p) := by
  have hadd (q : Packet) (hq : q.id = s.fab.nextId) : s.injects { s with fab := { s.fab with
      pkts := s.fab.pkts ++ [q], nextId := s.fab.nextId + 1 } } :=
    { rest := ⟨_, _, _, rfl⟩, kept := State.fieldsKept_of_regs rfl _, next := Nat.le_succ _
      ids := fun r hr => (List.mem_append.1 hr).imp (fun hr => ⟨r, hr, rfl⟩) fun hr => by
        rw [List.mem_singleton.1 hr, hq] }
  simp only [State.putReply]
  split
  · exact (hadd _ rfl).trans (State.injects_countInjection _ _)
  · exact hadd _ rfl

theorem State.injects_replyAs (s : State) (q : Packet) (bulk : Bool) (pos : Lcn) (typ : PacketType)
    (opc arg flits body : Nat) : s.injects (s.replyAs q bulk pos typ opc arg flits body) := by
  simp only [State.replyAs]
  split
  · exact .refl s
  · exact s.injects_putReply _

theorem State.injects_turnBack (s : State) (p : Packet) : s.injects (s.turnBack p) := by
  unfold State.turnBack
  split
  · exact s.injects_dropPacket p.id
  · exact (s.injects_dropPacket p.id).trans (State.injects_replyAs ..)

theorem State.injects_tryInject (s : State) (p : Packet) : s.injects (s.tryInject p) := by
  unfold State.tryInject
  split
  · exact .refl s
  · split
    · exact s.injects_turnBack p
    · split
      · exact ((s.injects_setPacket _).trans (State.injects_countInjection _ p)).trans (State.injects_countOut _ p)
      · exact .refl s

theorem State.injects_pump (s : State) (c : Lcn) : s.injects (s.pump c) :=
  State.injects_foldl _ (fun s p => s.injects_tryInject p) _ s

/-! What an injection leaves, field by field. -/

section
variable {s t : State} (h : s.injects t)
include h

theorem State.injects.threads : t.threads = s.threads := by
  obtain ⟨_, _, _, rfl⟩ := h.rest
  rfl

theorem State.injects.cores : t.cores = s.cores := by
  obtain ⟨_, _, _, rfl⟩ := h.rest
  rfl

theorem State.injects.sram : t.sram = s.sram := by
  obtain ⟨_, _, _, rfl⟩ := h.rest
  rfl

end

/-! ### The end of a tag (02 R72, R78) -/

theorem State.tagAt_congr {s t : State} {c : Lcn} (h : (t.core c).tags = (s.core c).tags) (n : Nat) :
    t.tagAt c n = s.tagAt c n := by
  rw [State.tagAt, h, State.tagAt]

theorem State.tagAt_setTag_same (s : State) (c : Lcn) (n : Nat) (g : Tag) : (s.setTag c n g).tagAt c n = g := by
  rw [State.tagAt, State.setTag, State.core_setCore_same, mget_mset_same]

theorem State.tagAt_setTag_other (s : State) (c : Lcn) {n m : Nat} (g : Tag) (h : m ≠ n) :
    (s.setTag c n g).tagAt c m = s.tagAt c m := by
  rw [State.tagAt, State.setTag, State.core_setCore_same, mget_mset_other _ _ _ _ h, State.tagAt]

/-- The end of a tag: it is free with its generation advanced, the core's other tags are as before, packets keep their
numbers, and stalled threads whose reason has gone are RUNNING. -/
structure State.endsTag (s t : State) (c : Lcn) (n : Nat) : Prop where
  freed : t.tagAt c n = { gen := ((s.tagAt c n).gen + 1) % 16 }
  others : ∀ m, m ≠ n → t.tagAt c m = s.tagAt c m
  settled : s.threadsSettled t c
  sram : t.sram = s.sram
  ids : ∀ q ∈ t.fab.pkts, (∃ r ∈ s.fab.pkts, r.id = q.id) ∨ s.fab.nextId ≤ q.id
  runs : ∀ m, (s.thread c m).st = .stalled → (s.thread c m).stall = 1 → (s.thread c m).wants ≠ [] →
    (∀ r ∈ (s.thread c m).wants, (t.core c).isPending m r = false) → (t.thread c m).st = .running

theorem State.endsTag_endTag (s : State) (c : Lcn) (n : Nat) : s.endsTag (s.endTag c n) c n := by
  have hinj := (s.setTag c n (s.tagAt c n).release).injects_pump c
  unfold State.endTag
  generalize (s.setTag c n (s.tagAt c n).release).pump c = u at hinj
  have hcore : u.core c = (s.setTag c n (s.tagAt c n).release).core c := State.core_congr hinj.cores c
  have hthread (d : Lcn) (m : Fin 4) : u.thread d m = s.thread d m := State.thread_congr hinj.threads d m
  have hsettled : s.threadsSettled (u.settle c) c := (u.threadsSettled_settle c).congr_left hinj.threads.symm
  have hruns (m : Fin 4) (hst : (s.thread c m).st = .stalled) (hstall : (s.thread c m).stall = 1)
      (hwants : (s.thread c m).wants ≠ []) (hclear : ∀ r ∈ (s.thread c m).wants, (u.core c).isPending m r = false) :
      ((u.settle c).thread c m).st = .running := by
    rw [← hthread] at hst hstall hwants hclear
    refine State.settle_running hst (by simp [hstall]) (by simp [hstall]) ?_
    have hany : ((u.thread c m).wants.any fun r => (u.core c).isPending m r) = false := by
      simpa using hclear
    simp [State.stallClears, hstall, hany, hwants]
  obtain ⟨threads, heq⟩ := u.settle_eq c
  rw [heq] at hsettled hruns ⊢
  refine ⟨?_, fun m hm => ?_, hsettled, hinj.sram, hinj.ids, hruns⟩
  · exact (State.tagAt_congr (congrArg Core.tags hcore) n).trans (s.tagAt_setTag_same c n _)
  · exact (State.tagAt_congr (congrArg Core.tags hcore) m).trans (s.tagAt_setTag_other c _ hm)

end Sys2Proof.Machine
end

section
/-!
PROOFS. Replies at a thread (O30).
-/

namespace Sys2Proof.Machine

variable {s u : State} {c : Lcn} {p : Packet}

/-! ### A reply taken from the fabric (08 R299, R313, R314) -/

/-- The window of a core after a reply to one of its threads: registers, and no tag. -/
theorem State.windowReply_thread (s : State) (hp : p.sender = .thread) :
    ∃ regs cores, s.windowReply p = { s with regs, cores } ∧
      ∀ d, ((s.windowReply p).core d).tags = (s.core d).tags := by
  have htags (v : State) (hv : ∃ regs, v = { s with regs }) (m n : Nat) (d : Lcn) :
      ((v.setCore p.dst { s.core p.dst with markFence := m, unmarked := n }).core d).tags = (s.core d).tags := by
    obtain ⟨regs, rfl⟩ := hv
    by_cases hd : d = p.dst
    · rw [hd, State.core_setCore_same]
    · rw [State.core_setCore_other _ _ hd]
      rfl
  have hmarks : ∃ regs, (if (p.ce || p.cm) = true then s.addSat F.FAB_WIN_MARKS F.FAB_WIN_SAT 1 p.dst.toNat else s) =
      { s with regs } := by
    split
    · exact State.addSat_eq ..
    · exact ⟨_, rfl⟩
  simp only [State.windowReply, Packet.engineWindow, hp]
  generalize (if (p.ce || p.cm) = true then s.addSat F.FAB_WIN_MARKS F.FAB_WIN_SAT 1 p.dst.toNat else s) = v at hmarks
  obtain ⟨regs, rfl⟩ := hmarks
  exact ⟨_, _, rfl, htags _ ⟨_, rfl⟩ _ _⟩

/-- The state in which a core's interface has taken a reply to a thread. -/
def State.taken (s : State) (c : Lcn) (p : Packet) : State := ((s.dropPacket p.id).windowReply p).pump c

theorem State.replyFor.mem (h : s.replyFor c p) : p ∈ s.fab.pkts := List.mem_of_find?_eq_some h.1

theorem State.replyFor.receive (h : s.replyFor c p) (f : Lcn → Packet → State → State) :
    s.receive p.id p.typ f = f c p (s.taken c p) := by
  obtain ⟨hat, hcore, habsorb, hgood, hsender, hdst, -⟩ := h
  have habsorb' : ((s.dropPacket p.id).core c).absorbing = false := habsorb
  have hpump (t : State) : t.pumpFor p = t.pump c := by
    rw [State.pumpFor, Packet.engineWindow, hsender, ← hdst]
  simp [State.receive, hat, hcore, habsorb', hgood, hpump, State.taken]

/-- What the taking of a reply leaves. -/
structure State.takes (s u : State) (c : Lcn) (p : Packet) : Prop where
  threads : u.threads = s.threads
  sram : u.sram = s.sram
  tags : ∀ n, u.tagAt c n = s.tagAt c n
  gone : ∀ q ∈ u.fab.pkts, q.id ≠ p.id
  next : p.id < u.fab.nextId

theorem State.replyFor.takes (h : s.replyFor c p) (hn : s.numbered) : s.takes (s.taken c p) c p := by
  obtain ⟨regs, cores, heq, htags⟩ := (s.dropPacket p.id).windowReply_thread h.2.2.2.2.1
  have hinj := ((s.dropPacket p.id).windowReply p).injects_pump c
  rw [heq] at hinj htags
  have hid := hn p h.mem
  rw [State.taken, heq]
  refine ⟨hinj.threads, hinj.sram, fun n => ?_, fun q hq => ?_, lt_of_lt_of_le hid hinj.next⟩
  · refine State.tagAt_congr ?_ n
    rw [State.core_congr hinj.cores, htags]
    rfl
  · obtain ⟨r, hr, hrq⟩ | hnew := hinj.ids q hq
    · rw [← hrq]
      simpa using (List.mem_filter.1 hr).2
    · exact fun e => absurd (e ▸ hnew) (Nat.not_le.2 hid)

/-! ### The tag that a reply ends (02 R72, R78) -/

/-- A reply's tag has ended and the reply is gone: nothing else differs of SRAM, tags and threads but that stalled threads
whose reason has gone are RUNNING. -/
structure State.ended (s u : State) (c : Lcn) (p : Packet) : Prop where
  freed : u.tagAt c p.tag = { gen := ((s.tagAt c p.tag).gen + 1) % 16 }
  others : ∀ n, n ≠ p.tag → u.tagAt c n = s.tagAt c n
  gone : ∀ q, q ∈ u.fab.pkts → q.id ≠ p.id
  sram : u.sram = s.sram
  settled : s.threadsSettled u c
  runs : ∀ m, (s.thread c m).st = .stalled → (s.thread c m).stall = 1 → (s.thread c m).wants ≠ [] →
    (∀ r ∈ (s.thread c m).wants, (u.core c).isPending m r = false) → (u.thread c m).st = .running

theorem State.takes.ended (h : s.takes u c p) : s.ended (u.endTag c p.tag) c p := by
  have hend := u.endsTag_endTag c p.tag
  have hthread (m : Fin 4) : u.thread c m = s.thread c m := State.thread_congr h.threads c m
  refine ⟨by rw [hend.freed, h.tags], fun n hne => (hend.others n hne).trans (h.tags n), fun q hq => ?_,
    hend.sram.trans h.sram, hend.settled.congr_left h.threads.symm, fun m => ?_⟩
  · obtain ⟨r, hr, hrq⟩ | hnew := hend.ids q hq
    · exact hrq ▸ h.gone r hr
    · exact fun e => absurd (e ▸ hnew) (Nat.not_le.2 h.next)
  · rw [← hthread]
    exact hend.runs m

/-- A reply to a thread is delivered to the operation that holds its tag: in a state in which the tag has ended, what the
operation asks is done, or the trap that the reply brings is taken. -/
theorem State.replyFor.delivers (h : s.replyFor c p) (hn : s.numbered) : ∃ u, s.ended u c p ∧
    ∀ (bad : Packet → Option (Nat × Nat × Nat)) (f : Lcn → Packet → Tag → State → State),
      (bad p = none → s.receive p.id p.typ (fun c p s => s.deliverReply c p (bad p) (f c p)) =
        f c p (s.tagAt c p.tag) u) ∧
      (∀ e, bad p = some e → s.receive p.id p.typ (fun c p s => s.deliverReply c p (bad p) (f c p)) =
        u.failTag c (s.tagAt c p.tag) e) := by
  have htakes := h.takes hn
  refine ⟨_, htakes.ended, fun bad f => ?_⟩
  rw [h.receive]
  obtain ⟨-, -, -, -, hsender, hdst, hst, hgen, hwent⟩ := h
  have hanswered : (s.taken c p).answered c p = some (s.tagAt c p.tag) := by
    simp only [State.answered, htakes.tags]
    exact if_pos ⟨hst, hgen, hwent, hdst⟩
  refine ⟨fun hbad => ?_, fun e hbad => ?_⟩ <;>
    simp only [State.deliverReply, hsender, State.answer, hanswered, hbad]

/-! ### Values written by a reply (02 R79, 03 R115) -/

/-- A change of a thread's registers: it does not look at the thread's state and does not change it. -/
structure Thread.RegisterWrite (w : Thread → Thread) : Prop where
  commutes : ∀ th st, w { th with st } = { w th with st }
  st : ∀ th, (w th).st = th.st
  stall : ∀ th, (w th).stall = th.stall
  wants : ∀ th, (w th).wants = th.wants

theorem Thread.registerWrite_id : Thread.RegisterWrite fun th => th :=
  ⟨fun _ _ => rfl, fun _ => rfl, fun _ => rfl, fun _ => rfl⟩

theorem Thread.registerWrite_writeS (rd : Fin 32) (v : Word) : Thread.RegisterWrite fun th => th.writeS rd v := by
  unfold Thread.writeS
  refine ⟨fun th st => ?_, fun th => ?_, fun th => ?_, fun th => ?_⟩ <;> split <;> rfl

theorem Thread.registerWrite_writeT (td : Fin 8) (v : Tile) : Thread.RegisterWrite fun th => th.writeT td v :=
  ⟨fun _ _ => rfl, fun _ => rfl, fun _ => rfl, fun _ => rfl⟩

/-- The tag of the reply is free, and the reply is gone. -/
def State.freedBy (s u : State) (c : Lcn) (p : Packet) : Prop :=
  u.tagAt c p.tag = { gen := ((s.tagAt c p.tag).gen + 1) % 16 } ∧ (∀ n, n ≠ p.tag → u.tagAt c n = s.tagAt c n) ∧
    (∀ q, q ∈ u.fab.pkts → q.id ≠ p.id) ∧ u.sram = s.sram

/-- A reply leaves the thread that holds its tag as `th`, and frees the tag. -/
def State.replyWrites (s : State) (c : Lcn) (p : Packet) (i : Instr) (th : Thread) : Prop :=
  ∃ t, exec i s = .next t ∧ s.freedBy t c p ∧ (s.setThread c (s.tagAt c p.tag).thread th).threadsSettled t c ∧
    (th.st = .stalled → th.stall = 1 → th.wants ≠ [] →
      (∀ r ∈ th.wants, (t.core c).isPending (s.tagAt c p.tag).thread r = false) →
      (t.thread c (s.tagAt c p.tag).thread).st = .running)

/-- A reply frees its tag and brings a response trap of the operation that held it. -/
def State.replyTraps (s : State) (c : Lcn) (p : Packet) (i : Instr) (e : Nat × Nat × Nat) : Prop :=
  ∃ u, exec i s = .next (u.trapResponse c (s.tagAt c p.tag).thread ((s.tagAt c p.tag).trapInfo e.1 e.2.1 e.2.2)) ∧
    s.freedBy u c p ∧ s.threadsSettled u c

theorem State.ended.freedBy (h : s.ended u c p) : s.freedBy u c p := ⟨h.freed, h.others, h.gone, h.sram⟩

/-- The tag of a reply has ended, and its thread has a register written. -/
theorem State.ended.replyWrites (h : s.ended u c p) {w : Thread → Thread} (hw : Thread.RegisterWrite w) {i : Instr}
    (hexec : exec i s = .next (u.setThread c (s.tagAt c p.tag).thread (w (u.thread c (s.tagAt c p.tag).thread)))) :
    s.replyWrites c p i (w (s.thread c (s.tagAt c p.tag).thread)) := by
  refine ⟨_, hexec, ⟨h.freed, h.others, h.gone, h.sram⟩, fun d m => ?_, ?_⟩
  · by_cases hdm : d = c ∧ m = (s.tagAt c p.tag).thread
    · obtain ⟨rfl, rfl⟩ := hdm
      rw [State.thread_setThread_same, State.thread_setThread_same]
      obtain hsame | ⟨-, hst, hran⟩ := h.settled d (s.tagAt d p.tag).thread
      · exact .inl (by rw [hsame])
      · exact .inr ⟨rfl, (hw.st _).trans hst, by rw [hran, hw.commutes]⟩
    · rw [State.thread_setThread_other _ _ hdm, State.thread_setThread_other _ _ hdm]
      exact h.settled d m
  · rw [hw.st, hw.stall, hw.wants, State.thread_setThread_same, hw.st]
    exact h.runs _

/-- A value read from the low bits, as a signed number. -/
theorem toSigned_eq_toInt (w v : Nat) (hw : 0 < w) : toSigned w v = (BitVec.ofNat w v).toInt := by
  obtain ⟨k, rfl⟩ : ∃ k, w = k + 1 := ⟨w - 1, by omega⟩
  rw [BitVec.toInt_eq_toNat_cond, BitVec.toNat_ofNat, toSigned, Nat.add_sub_cancel]
  have hpow : 2 ^ (k + 1) = 2 * 2 ^ k := Nat.pow_succ'
  by_cases h : 2 ^ k ≤ v % 2 ^ (k + 1)
  · rw [if_pos h, if_neg (by omega)]
    push_cast
    rfl
  · rw [if_neg h, if_pos (by omega)]
    push_cast
    rfl

/-- A loaded value is extended from its highest bit where it is signed (03 R108). -/
theorem extendLoad_eq {n : Nat} (hn : 0 < n) (signed : Bool) (v : Nat) :
    extendLoad n signed v =
      if signed then BitVec.ofInt 64 (toSigned (8 * n) v) else BitVec.ofNat 64 (v % 2 ^ (8 * n)) := by
  cases signed with
  | false => simp [extendLoad]
  | true =>
    have hsign : BitVec.ofInt 64 (toSigned (8 * n) v) = (BitVec.ofNat (8 * n) v).signExtend 64 := by
      rw [toSigned_eq_toInt _ _ (by omega)]
      rfl
    rw [if_pos rfl, hsign]
    have hmsb : (BitVec.ofNat (8 * n) v).msb = v.testBit (8 * n - 1) := by
      rw [BitVec.msb_eq_getLsbD_last, BitVec.getLsbD_ofNat, decide_eq_true (by omega), Bool.true_and]
    refine BitVec.eq_of_getLsbD_eq fun i hi => ?_
    rw [BitVec.getLsbD_signExtend, hmsb, BitVec.getLsbD_ofNat]
    cases hbit : v.testBit (8 * n - 1)
    · simp only [extendLoad, hbit, Bool.and_false, Bool.false_eq_true, if_false, BitVec.getLsbD_ofNat,
        Nat.testBit_mod_two_pow, hi, decide_true, Bool.true_and]
      by_cases hlow : i < 8 * n <;> simp only [hlow, decide_true, decide_false, Bool.true_and, Bool.false_and, if_true,
        if_false]
    · simp only [extendLoad, hbit, Bool.and_true, if_true, BitVec.getLsbD_or, BitVec.getLsbD_ofNat,
        BitVec.getLsbD_shiftLeft, BitVec.getLsbD_allOnes, hi, decide_true, Bool.true_and]
      by_cases hlow : i < 8 * n
      · simp only [hlow, decide_true, Bool.not_true, Bool.false_and, Bool.or_false, Bool.true_and, if_true]
      · simp only [hlow, decide_false, Bool.not_false, Bool.true_and, if_false, decide_eq_true (by omega : i - 8 * n < 64),
          Bool.or_true]

/-- The value that a reply writes for an operation. -/
theorem Thread.registerWrite_writeAnswer (op : TagOp) (v : Nat) : Thread.RegisterWrite fun th => th.writeAnswer op v := by
  unfold Thread.writeAnswer
  cases op
  case load rd n signed => exact Thread.registerWrite_writeS rd _
  case tileLoad td => exact Thread.registerWrite_writeT td _
  case amo rd w4 => exact Thread.registerWrite_writeS rd _
  all_goals exact Thread.registerWrite_id

/-- What PROBER writes for the operation of its tag. -/
def State.writeProbe (c : Lcn) (p : Packet) (g : Tag) (s : State) : State :=
  match g.op with
  | .nprobe rd => (s.free 32).2.setThread c g.thread (((s.free 32).2.thread c g.thread).writeS rd
      (BitVec.ofNat 64 ((s.free 32).1.toNat * 2 ^ 32 + p.arg % 2 ^ 17)))
  | _ => s

theorem exec_prober (s : State) (pkt : Nat) : exec (.prober pkt) s =
    .next (s.receive pkt .prober fun c p s => s.deliverReply c p none fun g s => s.writeProbe c p g) := rfl

theorem State.thread_setThread_self (s : State) (c d : Lcn) (n m : Fin 4) :
    (s.setThread c n (s.thread c n)).thread d m = s.thread d m := by
  by_cases hdm : d = c ∧ m = n
  · obtain ⟨rfl, rfl⟩ := hdm
    exact State.thread_setThread_same ..
  · exact State.thread_setThread_other _ _ hdm

/-! ### The replies, kind by kind -/

section
variable (h : s.replyFor c p) (hn : s.numbered)
include h hn

/-- RDR and ACK write what the operation of their tag asks. -/
theorem State.replyFor.answers {i : Instr} (hexec : exec i s = .next (s.receive p.id p.typ fun c p s =>
      s.deliverReply c p none fun g s => s.writeAnswer c g p.body)) :
    s.replyWrites c p i ((s.thread c (s.tagAt c p.tag).thread).writeAnswer (s.tagAt c p.tag).op p.body) := by
  obtain ⟨u, hended, hu⟩ := h.delivers hn
  refine hended.replyWrites (Thread.registerWrite_writeAnswer _ _) (hexec.trans ?_)
  rw [(hu (fun _ => none) fun c p g s => s.writeAnswer c g p.body).1 rfl]
  rfl

/-- ERR, UNB and RSTR, and an acknowledgement of a broadcast with a bad core, bring a trap. -/
theorem State.replyFor.fails {i : Instr} {bad : Packet → Option (Nat × Nat × Nat)} {e : Nat × Nat × Nat}
    (hbad : bad p = some e)
    (hexec : exec i s = .next (s.receive p.id p.typ fun c p s => s.deliverReply c p (bad p) fun _ s => s)) :
    s.replyTraps c p i e := by
  obtain ⟨u, hended, hu⟩ := h.delivers hn
  refine ⟨u, hexec.trans ?_, hended.freedBy, hended.settled⟩
  rw [(hu bad fun _ _ _ s => s).2 e hbad]
  rfl

/-- PROBER writes its counts beside a free value. -/
theorem State.replyFor.probes (htyp : p.typ = .prober) {rd : Fin 32} (hop : (s.tagAt c p.tag).op = .nprobe rd) :
    ∃ cc : BitVec 32, s.replyWrites c p (.prober p.id) ((s.thread c (s.tagAt c p.tag).thread).writeS rd
      (BitVec.ofNat 64 (cc.toNat * 2 ^ 32 + p.arg % 2 ^ 17))) := by
  obtain ⟨u, hended, hu⟩ := h.delivers hn
  have hfree : s.ended (u.free 32).2 c p :=
    ⟨hended.freed, hended.others, hended.gone, hended.sram, hended.settled, hended.runs⟩
  refine ⟨(u.free 32).1, hfree.replyWrites (Thread.registerWrite_writeS rd _) ?_⟩
  rw [exec_prober, ← htyp, (hu (fun _ => none) State.writeProbe).1 rfl, State.writeProbe, hop]

/-- NCASTA with no bad core leaves its thread's registers. -/
theorem State.replyFor.castAnswers (htyp : p.typ = .ncasta) (hgood : castTrap p.arg = none) :
    s.replyWrites c p (.ncasta p.id) (s.thread c (s.tagAt c p.tag).thread) := by
  obtain ⟨u, hended, hu⟩ := h.delivers hn
  refine ⟨u, ?_, hended.freedBy, ?_, hended.runs _⟩
  · change execNcasta p.id s = _
    rw [execNcasta, ← htyp, (hu (fun p => castTrap p.arg) fun _ _ _ s => s).1 hgood]
  · intro d m
    rw [State.thread_setThread_self]
    exact hended.settled d m

end

/-! ### Traps that replies bring (03 Table 3.13; 08 Table 8.3) -/

theorem errTrap_of_other {arg : Nat} (hlow : arg % 256 ∉ [8, 0x20, 0x21])
    (hcontrol : ¬(0x40 ≤ arg % 256 ∧ arg % 256 ≤ 0x46)) (hlink : ¬(0x50 ≤ arg % 256 ∧ arg % 256 ≤ 0x54)) :
    errTrap arg = (5, 0, arg % 256) := by
  simp only [List.mem_cons, List.not_mem_nil, or_false, not_or] at hlow
  obtain ⟨h8, h20, h21⟩ := hlow
  simp [errTrap, h8, h20, h21, hcontrol, hlink]

theorem errTrap_of_control {arg : Nat} (hlo : 0x40 ≤ arg % 256) (hhi : arg % 256 ≤ 0x46) :
    errTrap arg = (5, 2, arg % 256) := by
  unfold errTrap
  rw [if_neg (by omega), if_neg (by omega), if_neg (by omega), if_pos ⟨hlo, hhi⟩]

theorem errTrap_of_link {arg : Nat} (hlo : 0x50 ≤ arg % 256) (hhi : arg % 256 ≤ 0x54) :
    errTrap arg = (5, 3, arg % 256) := by
  unfold errTrap
  rw [if_neg (by omega), if_neg (by omega), if_neg (by omega), if_neg (by omega), if_pos ⟨hlo, hhi⟩]

theorem castTrap_good {arg : Nat} (hgood : ¬(arg.testBit 8 ∨ arg.testBit 9)) : castTrap arg = none := by
  simp only [not_or, Bool.not_eq_true] at hgood
  simp [castTrap, hgood]

theorem castTrap_code {arg : Nat} (hbad : arg.testBit 8 ∨ arg.testBit 9) (hcode : arg.testBit 10 = true) :
    castTrap arg = some (5, if arg / 2 ^ 12 % 256 = 8 then 1 else 0, arg / 2 ^ 12 % 256) := by
  have hany : (arg.testBit 8 || arg.testBit 9) = true := by simpa using hbad
  have hbits : bits arg 19 12 = arg / 2 ^ 12 % 256 := rfl
  simp [castTrap, hany, hcode, hbits, bit]

theorem castTrap_unbacked {arg : Nat} (hbad : arg.testBit 8 ∨ arg.testBit 9) (hcode : arg.testBit 10 = false) :
    castTrap arg = some (4, arg / 2 ^ 12 % 4, arg / 2 ^ 20 % 2 ^ 20) := by
  have hany : (arg.testBit 8 || arg.testBit 9) = true := by simpa using hbad
  have hsub : bits arg 19 12 % 4 = arg / 2 ^ 12 % 4 := Nat.mod_mod_of_dvd _ (by norm_num)
  have hcore : bits arg 39 20 = arg / 2 ^ 20 % 2 ^ 20 := rfl
  simp [castTrap, hany, hcode, hsub, hcore]

/-! ### The statement -/

section
variable (h : s.replyFor c p) (hn : s.numbered)
include h hn

theorem State.replyFor.rdr (htyp : p.typ = .rdr) {op : TagOp} (hop : (s.tagAt c p.tag).op = op) :
    s.replyWrites c p (.rdr p.id) ((s.thread c (s.tagAt c p.tag).thread).writeAnswer op p.body) := by
  rw [← hop]
  exact h.answers hn (by rw [htyp]; rfl)

theorem State.replyFor.ack (htyp : p.typ = .ack) {op : TagOp} (hop : (s.tagAt c p.tag).op = op) :
    s.replyWrites c p (.ack p.id) ((s.thread c (s.tagAt c p.tag).thread).writeAnswer op p.body) := by
  rw [← hop]
  exact h.answers hn (by rw [htyp]; rfl)

theorem State.replyFor.err (htyp : p.typ = .err) (e : Nat × Nat × Nat) (he : errTrap p.arg = e) :
    s.replyTraps c p (.err p.id) e := by
  have hfail : p.failure = e := by rw [← he]; simp only [Packet.failure, htyp]
  exact h.fails hn (bad := fun p => some p.failure) (congrArg some hfail) (by rw [htyp]; rfl)

theorem State.replyFor.unb (htyp : p.typ = .unb) : s.replyTraps c p (.unb p.id) (4, p.arg % 4, p.src.toNat) := by
  have hfail : p.failure = (4, p.arg % 4, p.src.toNat) := by simp only [Packet.failure, htyp]
  exact h.fails hn (bad := fun p => some p.failure) (congrArg some hfail) (by rw [htyp]; rfl)

theorem State.replyFor.rstr (htyp : p.typ = .rstr) : s.replyTraps c p (.rstr p.id) (5, 0, 4) := by
  have hfail : p.failure = (5, 0, 4) := by simp only [Packet.failure, htyp]
  exact h.fails hn (bad := fun p => some p.failure) (congrArg some hfail) (by rw [htyp]; rfl)

theorem State.replyFor.ncasta (htyp : p.typ = .ncasta) (e : Nat × Nat × Nat) (he : castTrap p.arg = some e) :
    s.replyTraps c p (.ncasta p.id) e :=
  h.fails hn (bad := fun p => castTrap p.arg) he (by rw [htyp]; rfl)

end

/-- Settles O30: a reply at a thread is taken, ends its tag, and then writes what the tag's operation asks, or brings the
trap of its code. -/
theorem repliesAtAThread : Obligations.RepliesAtAThread := by
  unfold Obligations.RepliesAtAThread
  intro s c p h hn g freed writes traps th
  refine ⟨fun htyp => ⟨fun rd n signed hop hsize => ?load, fun td hop => h.rdr hn htyp hop⟩,
    fun htyp => ⟨fun hop => ?ack, fun rd w4 hop => ?amo⟩, fun rd htyp hop => h.probes hn htyp hop, fun htyp => ?err,
    h.unb hn, h.rstr hn, fun htyp => ?cast⟩
  case load =>
    rw [← extendLoad_eq (by omega)]
    exact h.rdr hn htyp hop
  case ack =>
    obtain hop | hop | hop | hop := hop <;> exact h.ack hn htyp hop
  case amo =>
    have hvalue : BitVec.ofInt 64 (toSigned (if w4 then 32 else 64) p.body) = extendLoad (amoBytes w4) true p.body := by
      rw [extendLoad_eq (by cases w4 <;> decide), if_pos rfl]
      cases w4 <;> rfl
    rw [hvalue]
    exact h.ack hn htyp hop
  case err =>
    refine ⟨fun hcode => ?_, fun hcode => ?_, fun hcode => ?_, fun hlo hhi => ?_, fun hlo hhi => ?_,
      fun hlow hcontrol hlink => ?_⟩
    · exact h.err hn htyp (6, 2, 0) (by simp [errTrap, hcode])
    · exact h.err hn htyp (6, 1, p.arg / 256 % 256) (by simp [errTrap, hcode])
    · exact h.err hn htyp (5, 1, 8) (by simp [errTrap, hcode])
    · exact h.err hn htyp (5, 2, p.arg % 256) (errTrap_of_control hlo hhi)
    · exact h.err hn htyp (5, 3, p.arg % 256) (errTrap_of_link hlo hhi)
    · exact h.err hn htyp (5, 0, p.arg % 256) (errTrap_of_other hlow hcontrol hlink)
  case cast =>
    refine ⟨fun hgood => h.castAnswers hn htyp (castTrap_good hgood), fun hbad hcode => ?_, fun hbad hcode => ?_⟩
    · exact h.ncasta hn htyp (5, if p.arg / 2 ^ 12 % 256 = 8 then 1 else 0, p.arg / 2 ^ 12 % 256)
        (castTrap_code hbad hcode)
    · exact h.ncasta hn htyp (4, p.arg / 2 ^ 12 % 4, p.arg / 2 ^ 20 % 2 ^ 20) (castTrap_unbacked hbad hcode)

end Sys2Proof.Machine
end

section
/-!
PROOFS. Tag timers, halts and resumes, and the core reset (O35).
-/

namespace Sys2Proof.Machine

variable {s : State} {c : Lcn}

/-! ### Tag timers (02 R76, R78; 03 R119) -/

theorem exec_tagTimeout_held (n : Fin 64) (hretry : s.retryIndication = false) (hst : (s.tagAt c n).st = .held) :
    let g := s.tagAt c n
    let u := (s.setTag c n { g with st := .quarantine }).put F.CORE_STAT_TIMEOUT 1 c.toNat
    ((s.thread c g.thread).st = .stopped → exec (.tagTimeout c n) s = .next u) ∧
      ((s.thread c g.thread).st ≠ .stopped → exec (.tagTimeout c n) s = .next (u.trap c g.thread
        { cause := 7, sub := 0, resp := true, pc := g.pc, info := n.val + g.gen * 64, addr := g.addr.toNat })) := by
  intro g u
  have hexec : exec (.tagTimeout c n) s = match (u.thread c g.thread).st with
      | .stopped => .next u
      | _ => .next (u.trap c g.thread (g.trapInfo 7 0 (n.val + g.gen * 64))) := by
    change execTagTimeout c n s = _
    simp only [execTagTimeout, hretry, hst, Bool.false_eq_true, if_false]
    rfl
  have hthread : u.thread c g.thread = s.thread c g.thread := rfl
  rw [hexec, hthread]
  constructor
  · intro hstopped
    rw [hstopped]
  · intro hrun
    split
    · contradiction
    · rfl

/-- A tag that a core reset left behind returns to the pool (16 R574). -/
theorem exec_tagTimeout_orphan (n : Fin 64) (hretry : s.retryIndication = false) (hst : (s.tagAt c n).st = .orphan) :
    exec (.tagTimeout c n) s = .next (s.setTag c n { gen := (s.tagAt c n).gen }) := by
  change execTagTimeout c n s = _
  simp only [execTagTimeout, hretry, hst, Bool.false_eq_true, if_false]

theorem exec_tagQuarantineEnd (n : Fin 64) (hst : (s.tagAt c n).st = .quarantine) :
    exec (.tagQuarantineEnd c n) s = .next (s.endTag c n) := by
  change execTagQuarantineEnd c n s = _
  simp only [execTagQuarantineEnd, hst]
  rfl

/-! ### Halts and resumes (02 R49, R50) -/

theorem State.haltThread_of_runs {n : Fin 4} (h : (s.thread c n).st = .running ∨ (s.thread c n).st = .stalled ∨
    (s.thread c n).st = .waiting) :
    s.haltThread c n = s.setThread c n { s.thread c n with st := .halted, former := (s.thread c n).st } := by
  unfold State.haltThread
  obtain h | h | h := h <;> simp only [h]

theorem State.haltThread_of_rests {n : Fin 4} (h : (s.thread c n).st = .stopped ∨ (s.thread c n).st = .halted ∨
    (s.thread c n).st = .trapped) : s.haltThread c n = s := by
  unfold State.haltThread
  obtain h | h | h := h <;> simp only [h]

/-- A halted thread that waits for no tack. -/
theorem State.resumeThread_former {n : Fin 4} (hst : (s.thread c n).st = .halted) (hwait : (s.thread c n).wait = none) :
    s.resumeThread c n = (s.setThread c n { s.thread c n with st := (s.thread c n).former }).unstall c n := by
  simp only [State.resumeThread, hst, hwait]

/-- A halted thread that waits for a tack evaluates its wait again. -/
theorem State.resumeThread_waiter {n : Fin 4} {w : Wait} (hst : (s.thread c n).st = .halted)
    (hwait : (s.thread c n).wait = some w) : s.resumeThread c n = s.setThread c n
      (if w.holds (s.tack c w.tack) then { s.thread c n with st := .running, wait := none }
        else { s.thread c n with st := .waiting }) := by
  simp only [State.resumeThread, hst, hwait, apply_ite (s.setThread c n)]

theorem State.resumeThread_other {n : Fin 4} (hst : (s.thread c n).st ≠ .halted) : s.resumeThread c n = s := by
  simp only [State.resumeThread]

/-- A wait holds where its tack equals the operand, or is not below it as a difference of 32 bits (03 R128). -/
theorem Wait.holds_iff (w : Wait) (v : BitVec 32) :
    w.holds v = true ↔ if w.eq then v = w.operand else 0 ≤ (v - w.operand).toInt := by
  unfold Wait.holds
  cases w.eq
  · simp [BitVec.msb_eq_toInt]
  · simp

/-- Halts and resumes of the threads of a backed core. -/
theorem exec_threadHalt_resume (n : Fin 4) (hb : s.backed c = true) :
    exec (.threadHalt c n) s = .next (s.haltThread c n) ∧ exec (.threadResume c n) s = .next (s.resumeThread c n) :=
  ⟨congrArg Host.Outcome.next (if_pos hb), congrArg Host.Outcome.next (if_pos hb)⟩

/-- A resumed thread that was STALLED goes on where the reason of its stall has gone. -/
theorem State.unstall_resumed (s : State) (c : Lcn) (n : Fin 4) :
    let back := s.setThread c n { s.thread c n with st := (s.thread c n).former }
    ((s.thread c n).former ≠ .stalled ∨ back.stallClears c n = false → back.unstall c n = back) ∧
      ((s.thread c n).former = .stalled → back.stallClears c n = true →
        back.unstall c n = s.setThread c n { s.thread c n with st := .running }) := by
  intro back
  have hback : back.thread c n = { s.thread c n with st := (s.thread c n).former } := s.thread_setThread_same ..
  refine ⟨fun hkeep => ?_, fun hformer hclears => ?_⟩
  · refine if_neg fun ⟨hstalled, hclears⟩ => ?_
    rw [hback] at hstalled
    obtain hformer | hclosed := hkeep
    · exact hformer hstalled
    · exact Bool.false_ne_true (hclosed.symm.trans hclears)
  · rw [State.unstall, if_pos ⟨by rw [hback]; exact hformer, hclears⟩, hback]
    exact s.setThread_setThread_of_st c n (by simp [hformer]) (by simp)

/-! ### Filtered maps -/

section
variable {α β : Type} (m : PMap α) {k : Nat}

theorem findKey_filter_kept (p : Nat → Bool) (h : p k = true) : findKey (m.filter fun e => p e.1) k = findKey m k := by
  induction m with
  | nil => rfl
  | cons e r ih =>
    by_cases hp : p e.1 = true
    · simp only [List.filter_cons, hp, if_true, findKey, ih]
    · have hk : k ≠ e.1 := fun heq => hp (heq ▸ h)
      simp only [List.filter_cons, hp, Bool.false_eq_true, if_false, ih, findKey, hk]

theorem findKey_filter_dropped (p : Nat → Bool) (h : p k = false) : findKey (m.filter fun e => p e.1) k = none := by
  induction m with
  | nil => rfl
  | cons e r ih =>
    by_cases hp : p e.1 = true
    · have hk : k ≠ e.1 := fun heq => Bool.false_ne_true (h.symm.trans (heq ▸ hp))
      simp only [List.filter_cons, hp, if_true, findKey, hk, if_false, ih]
    · simp only [List.filter_cons, hp, Bool.false_eq_true, if_false, ih]

theorem findKey_map (f : α → β) : findKey (m.map fun e => (e.1, f e.2)) k = (findKey m k).map f := by
  induction m with
  | nil => rfl
  | cons e r ih =>
    rw [List.map_cons, findKey, findKey, ih]
    split <;> rfl

theorem mget_filter_kept (d : α) (p : Nat → Bool) (h : p k = true) : mget d (m.filter fun e => p e.1) k = mget d m k := by
  rw [mget, findKey_filter_kept m p h, mget]

theorem mget_filter_dropped (d : α) (p : Nat → Bool) (h : p k = false) : mget d (m.filter fun e => p e.1) k = d := by
  rw [mget, findKey_filter_dropped m p h, Option.getD_none]

end

/-! ### Destination tiles of a stopped engine (06 R232, R239, R242) -/

/-- A tile that an engine was writing when a core reset stopped it. -/
def State.undone (s : State) (c : Lcn) (n : Nat) : Prop :=
  (s.get F.SPX_CMP_STAT_BUSY c.toNat = 1 ∧ s.get F.SPX_CMP_CMD_DST c.toNat ≤ n ∧
      n < s.get F.SPX_CMP_CMD_DST c.toNat + s.get F.SPX_CMP_CMD_SPAN c.toNat) ∨
    ((s.core c).sel ≠ none ∧ n = s.get F.SPX_SEL_CMD_IDX c.toNat) ∨
    (∃ r, r ∈ s.spool ∧ r.isGather = true ∧ r.core = c ∧ ∃ e, e ∈ r.gather ∧ e.2 % 65536 / 256 = n)

theorem State.mem_undoneTiles {n : Nat} : n ∈ s.undoneTiles c ↔ n < 256 ∧ s.undone c n := by
  rw [State.undoneTiles, List.mem_filter, List.mem_range, State.undone]
  refine and_congr_right fun _ => ?_
  simp [State.flag, Option.isSome_iff_ne_none, and_assoc, or_assoc]

/-- A freed tile: its bytes and the counter of free values. -/
theorem State.freeTile_eq (s : State) (c : Lcn) (k : Nat) :
    ∃ sram freeCtr, s.freeTile c k = { s with sram, freeCtr } := ⟨_, _, rfl⟩

theorem State.freeTile_bytes (s : State) (c : Lcn) (k : Nat) :
    (s.freeTile c k).sram = writeLE s.sram 0 (sramAddr c (k * 256)) (s.free 2048).1.toNat 256 := by
  simp only [State.freeTile, State.free]

theorem State.freeTile_sram (s : State) (c : Lcn) {k a : Nat} (hk : k < 256)
    (ha : a / 65536 ≠ c.toNat ∨ a % 65536 / 256 ≠ k) : mget 0 (s.freeTile c k).sram a = mget 0 s.sram a := by
  rw [State.freeTile_bytes, mget_writeLE_other]
  unfold sramAddr
  omega

/-- Freed tiles: no other byte, and nothing beside SRAM and the counter of free values. -/
theorem State.foldl_freeTile (s : State) (c : Lcn) (l : List Nat) (hl : ∀ k ∈ l, k < 256) :
    (∃ sram freeCtr, l.foldl (fun s n => s.freeTile c n) s = { s with sram, freeCtr }) ∧
      ∀ a, a / 65536 ≠ c.toNat ∨ a % 65536 / 256 ∉ l →
        mget 0 (l.foldl (fun s n => s.freeTile c n) s).sram a = mget 0 s.sram a := by
  refine List.foldlRecOn (motive := fun t : State => (∃ sram freeCtr, t = { s with sram, freeCtr }) ∧
    ∀ a, a / 65536 ≠ c.toNat ∨ a % 65536 / 256 ∉ l → mget 0 t.sram a = mget 0 s.sram a) l _
    ⟨⟨s.sram, s.freeCtr, rfl⟩, fun _ _ => rfl⟩ fun t ⟨⟨_, _, ht⟩, hsram⟩ k hk => ⟨?_, fun a ha => ?_⟩
  · obtain ⟨sram, freeCtr, heq⟩ := t.freeTile_eq c k
    exact ⟨sram, freeCtr, by rw [heq, ht]⟩
  · rw [State.freeTile_sram t c (hl k hk) (ha.imp_right fun h e => h (e ▸ hk)), hsram a ha]

/-! ### The stages of a core reset (16 R574) -/

theorem State.failRingOf_eq (s : State) (c : Lcn) : ∃ rings, s.failRingOf c = { s with rings } := by
  simp only [State.failRingOf]
  split
  · split <;> exact ⟨_, rfl⟩
  · exact ⟨_, rfl⟩

/-- The state of a core reset once its engines are stopped, its ring has failed and the requests in its landing slots are
answered. -/
def State.enginesStopped (s : State) (c : Lcn) : State :=
  ((s.core c).landing ++ (s.core c).digests).foldl (fun s l => s.refuseLanding l)
    (((s.undoneTiles c).foldl (fun s n => s.freeTile c n) s).failRingOf c)

/-- The state of a core reset once the core's threads, lanes, registers and queues are gone. -/
def State.cleared (s : State) (c : Lcn) : State :=
  { s.resetKeys (resetsWithCore c) with
    threads := s.threads.filter fun e => !decide (e.1 / 4 = c.toNat)
    lanes := s.lanes.filter fun e => !decide (e.1 / 256 = c.toNat)
    spoolWin := delKey s.spoolWin (512 + c.toNat)
    spool := s.spool.filter fun r => !(r.isGather && r.core == c)
    fab := { s.fab with pkts := s.fab.pkts.filter fun p => !p.waitsInCore c } }

theorem State.coreReset_eq (s : State) (c : Lcn) : s.coreReset c =
    (((s.enginesStopped c).cleared c).put F.FAB_WIN_W (((s.enginesStopped c).cleared c).get F.FAB_WINCFG_W_MAX (fieldOf c)) c.toNat).setCore
      c (s.core c).afterReset := by
  rfl

/-- What the stop of a core's engines leaves: threads, lanes, cores and memories, but for the tiles that were not done. -/
structure State.stopsEngines (s u : State) (c : Lcn) : Prop where
  rest : ∃ regs fab spoolWin rings sram freeCtr, u = { s with regs, fab, spoolWin, rings, sram, freeCtr }
  kept : s.fieldsKept u injectionFields
  sram : ∀ a, a / 65536 ≠ c.toNat ∨ a % 65536 / 256 ∉ s.undoneTiles c → mget 0 u.sram a = mget 0 s.sram a

theorem State.stopsEngines_enginesStopped (s : State) (c : Lcn) : s.stopsEngines (s.enginesStopped c) c := by
  have hlt : ∀ k ∈ s.undoneTiles c, k < 256 := fun k hk => (State.mem_undoneTiles.1 hk).1
  obtain ⟨⟨sram, freeCtr, htiles⟩, hsram⟩ := s.foldl_freeTile c (s.undoneTiles c) hlt
  rw [State.enginesStopped, htiles]
  rw [htiles] at hsram
  obtain ⟨rings, hrings⟩ := State.failRingOf_eq { s with sram, freeCtr } c
  rw [hrings]
  have hinj := State.injects_foldl (fun s l => s.refuseLanding l) (fun s q => s.injects_replyAs ..)
    ((s.core c).landing ++ (s.core c).digests) { s with sram, freeCtr, rings }
  have hkept := hinj.kept
  obtain ⟨regs, fab, spoolWin, heq⟩ := hinj.rest
  rw [heq] at hkept ⊢
  exact ⟨⟨regs, fab, spoolWin, rings, sram, freeCtr, rfl⟩, hkept, hsram⟩

/-! ### A core after its reset (16 R574) -/

/-- The fields that a core reset returns to their reset values: its window's but the tree entries. -/
theorem resetsWithCore_fldKey (c : Lcn) (f : Fld) {u n : Nat} (hu : u < 2 ^ 20) (hn : n < 2 ^ 12) :
    resetsWithCore c (fldKey f u n) = (decide (f.id < coreFieldCount) && decide (u = c.toNat) &&
      !(decide (F.FAB_TREEn_A_TREE.id ≤ f.id) && decide (f.id ≤ F.FAB_TREEn_B_TACK.id))) := by
  have hid : fldKey f u n / 2 ^ 32 = f.id := by
    unfold fldKey
    omega
  have hunit : fldKey f u n / 2 ^ 12 % 2 ^ 20 = u := by
    unfold fldKey
    omega
  simp only [resetsWithCore, hid, hunit]

theorem State.get_cleared_reset (s : State) (c : Lcn) {f : Fld} {u n : Nat} (h : resetsWithCore c (fldKey f u n) = true) :
    (s.cleared c).get f u n = f.rst u n :=
  mget_filter_dropped s.regs _ (fun k => !resetsWithCore c k) (by rw [h]; rfl)

theorem State.get_cleared_kept (s : State) (c : Lcn) {f : Fld} {u n : Nat} (h : resetsWithCore c (fldKey f u n) = false) :
    (s.cleared c).get f u n = s.get f u n :=
  mget_filter_kept s.regs _ (fun k => !resetsWithCore c k) (by rw [h]; rfl)

theorem threadId_core (c : Lcn) (n : Fin 4) : threadId c n / 4 = c.toNat := by
  have := n.isLt
  unfold threadId
  omega

theorem State.thread_cleared_same (s : State) (c : Lcn) (n : Fin 4) : (s.cleared c).thread c n = Thread.reset :=
  mget_filter_dropped s.threads _ (fun k => !decide (k / 4 = c.toNat)) (by rw [threadId_core, decide_eq_true rfl]; rfl)

theorem State.thread_cleared_other (s : State) {c d : Lcn} (h : d ≠ c) (n : Fin 4) :
    (s.cleared c).thread d n = s.thread d n :=
  mget_filter_kept s.threads _ (fun k => !decide (k / 4 = c.toNat)) (by
    rw [threadId_core, decide_eq_false fun e => h (BitVec.eq_of_toNat_eq e)]
    rfl)

theorem State.lane_cleared_same (s : State) (c : Lcn) {l : Nat} (hl : l < 256) :
    (s.cleared c).lane c l = seedLane 0 (c.toNat * 256 + l) := by
  have hkey : (c.toNat * 256 + l) / 256 = c.toNat := by omega
  exact mget_filter_dropped s.lanes _ (fun k => !decide (k / 256 = c.toNat)) (by rw [hkey, decide_eq_true rfl]; rfl)

theorem State.lane_cleared_other (s : State) {c d : Lcn} (h : d ≠ c) {l : Nat} (hl : l < 256) :
    (s.cleared c).lane d l = s.lane d l := by
  have hkey : (d.toNat * 256 + l) / 256 = d.toNat := by omega
  refine mget_filter_kept s.lanes _ (fun k => !decide (k / 256 = c.toNat)) ?_
  rw [hkey, decide_eq_false fun e => h (BitVec.eq_of_toNat_eq e)]
  rfl

/-- A tag that was held stays with its operation until the late answer, with its generation advanced. -/
theorem Core.afterReset_tag (k : Core) {n : Nat} (h : (mget {} k.tags n).st = .held) :
    mget {} k.afterReset.tags n = { mget {} k.tags n with st := .orphan, gen := ((mget {} k.tags n).gen + 1) % 16 } := by
  have htags : k.afterReset.tags = k.tags.map fun e => (e.1, e.2.orphaned) := rfl
  rw [mget] at h
  rw [htags, mget, mget, findKey_map]
  cases hfind : findKey k.tags n with
  | none =>
    rw [hfind] at h
    cases h
  | some g =>
    rw [hfind] at h
    simp only [Option.map_some, Option.getD_some] at h ⊢
    simp only [Tag.orphaned, h]

/-- A register field after a core reset is as it was cleared, but for FAB_WIN.W. -/
theorem State.get_coreReset (s : State) (c : Lcn) {f : Fld} {u n : Nat} (hw : f.id ≠ F.FAB_WIN_W.id) (hu : u < 2 ^ 20)
    (hn : n < 2 ^ 12) : (s.coreReset c).get f u n = ((s.enginesStopped c).cleared c).get f u n := by
  rw [State.coreReset_eq, State.get_setCore, State.get_put_field _ _ hw c.isLt hu (by norm_num) hn]

theorem State.get_coreReset_reset (s : State) (c : Lcn) {f : Fld} {n : Nat} (hcore : f.id < coreFieldCount)
    (htree : ¬(F.FAB_TREEn_A_TREE.id ≤ f.id ∧ f.id ≤ F.FAB_TREEn_B_TACK.id)) (hw : f.id ≠ F.FAB_WIN_W.id)
    (hn : n < 2 ^ 12) : (s.coreReset c).get f c.toNat n = f.rst c.toNat n := by
  rw [State.get_coreReset s c hw c.isLt hn]
  refine State.get_cleared_reset _ c ?_
  rw [resetsWithCore_fldKey c f c.isLt hn]
  simp only [hcore, decide_true, Bool.true_and, Bool.not_eq_true', Bool.and_eq_false_iff, decide_eq_false_iff_not]
  exact not_and_or.1 htree

/-- A field that no core reset clears is as it was before the reset. -/
theorem State.get_cleared_enginesStopped (s : State) (c : Lcn) {f : Fld} {u n : Nat}
    (hf : f.id ∉ injectionFields.map Fld.id) (hreset : resetsWithCore c (fldKey f u n) = false) (hu : u < 2 ^ 20)
    (hn : n < 2 ^ 12) : ((s.enginesStopped c).cleared c).get f u n = s.get f u n := by
  rw [State.get_cleared_kept _ c hreset, (s.stopsEngines_enginesStopped c).kept f u n hf hu hn]

/-- The tree entries stay (08 R336). -/
theorem State.get_coreReset_tree (s : State) (c : Lcn) {f : Fld} {n : Nat} (hlo : F.FAB_TREEn_A_TREE.id ≤ f.id)
    (hhi : f.id ≤ F.FAB_TREEn_B_TACK.id) (hn : n < 2 ^ 12) : (s.coreReset c).get f c.toNat n = s.get f c.toNat n := by
  have hlast : f.id ≤ 115 := hhi
  have hw : f.id ≠ F.FAB_WIN_W.id := Nat.ne_of_lt (Nat.lt_of_le_of_lt hlast (by decide))
  have hf : f.id ∉ injectionFields.map Fld.id := fun hmem =>
    absurd hlast (Nat.not_le.2 ((by decide : ∀ i ∈ injectionFields.map Fld.id, 115 < i) _ hmem))
  rw [State.get_coreReset s c hw c.isLt hn, State.get_cleared_enginesStopped s c hf ?_ c.isLt hn]
  rw [resetsWithCore_fldKey c f c.isLt hn, decide_eq_true hlo, decide_eq_true hhi, Bool.and_self, Bool.not_true,
    Bool.and_false]

/-- The injection window takes W_MAX of its field. -/
theorem State.get_coreReset_window (s : State) (c : Lcn) :
    (s.coreReset c).get F.FAB_WIN_W c.toNat = s.get F.FAB_WINCFG_W_MAX (fieldOf c) % 2 ^ F.FAB_WIN_W.width := by
  have hfield : fieldOf c < 2 ^ 20 := by
    have := c.isLt
    unfold fieldOf
    omega
  have hreset : resetsWithCore c (fldKey F.FAB_WINCFG_W_MAX (fieldOf c) 0) = false := by
    rw [resetsWithCore_fldKey c _ hfield (by norm_num), decide_eq_false (by decide), Bool.false_and, Bool.false_and]
  rw [State.coreReset_eq, State.get_setCore, State.get_put_same,
    State.get_cleared_enginesStopped s c (by decide) hreset hfield (by norm_num)]

theorem State.core_coreReset_same (s : State) (c : Lcn) : (s.coreReset c).core c = (s.core c).afterReset := by
  rw [State.coreReset_eq, State.core_setCore_same]

theorem State.thread_coreReset (s : State) (c d : Lcn) (n : Fin 4) :
    (s.coreReset c).thread d n = if d = c then Thread.reset else s.thread d n := by
  have hread : (s.coreReset c).thread d n = ((s.enginesStopped c).cleared c).thread d n := by
    rw [State.coreReset_eq]
    rfl
  obtain ⟨_, _, _, _, _, _, hstopped⟩ := (s.stopsEngines_enginesStopped c).rest
  rw [hread]
  split
  · next h => rw [h, State.thread_cleared_same]
  · next h =>
    rw [State.thread_cleared_other _ h, hstopped]
    rfl

theorem State.lane_coreReset (s : State) (c d : Lcn) {l : Nat} (hl : l < 256) :
    (s.coreReset c).lane d l = if d = c then seedLane 0 (c.toNat * 256 + l) else s.lane d l := by
  have hread : (s.coreReset c).lane d l = ((s.enginesStopped c).cleared c).lane d l := by
    rw [State.coreReset_eq]
    rfl
  obtain ⟨_, _, _, _, _, _, hstopped⟩ := (s.stopsEngines_enginesStopped c).rest
  rw [hread]
  split
  · next h => rw [h, State.lane_cleared_same _ c hl]
  · next h =>
    rw [State.lane_cleared_other _ h hl, hstopped]
    rfl

theorem State.core_coreReset_other (s : State) {c d : Lcn} (h : d ≠ c) : (s.coreReset c).core d = s.core d := by
  obtain ⟨_, _, _, _, _, _, hstopped⟩ := (s.stopsEngines_enginesStopped c).rest
  rw [State.coreReset_eq, State.core_setCore_other _ _ h, hstopped]
  rfl

/-- Memories keep their contents, but for the tiles of stopped engines, and their checks. -/
theorem State.memories_coreReset (s : State) (c : Lcn) :
    (∀ a, a / 65536 ≠ c.toNat ∨ ¬s.undone c (a % 65536 / 256) → mget 0 (s.coreReset c).sram a = mget 0 s.sram a) ∧
      (s.coreReset c).damaged = s.damaged ∧ (s.coreReset c).badTiles = s.badTiles ∧
      (s.coreReset c).istore = s.istore ∧ (s.coreReset c).istoreBad = s.istoreBad ∧
      (s.coreReset c).patStore = s.patStore := by
  have hstops := s.stopsEngines_enginesStopped c
  have hsram := hstops.sram
  obtain ⟨_, _, _, _, _, _, hstopped⟩ := hstops.rest
  rw [State.coreReset_eq]
  rw [hstopped] at hsram ⊢
  exact ⟨fun a ha => hsram a (ha.imp_right fun h hmem => h (State.mem_undoneTiles.1 hmem).2), rfl, rfl, rfl, rfl, rfl⟩

/-! ### The settlement -/

/-- A core reset asked for by SW_RST is performed on a backed core outside a scope that is reset. -/
theorem exec_coreSwRst_backed (hb : s.backed c = true)
    (hfree : ∀ r, s.partialReset = some r → r.phase = 0 ∨ s.inScope r c = false) :
    exec (.coreSwRst c) s = .next (s.coreReset c) := by
  have hsoft : s.softReset c = s.coreReset c := by
    unfold State.softReset
    split
    · next r hr =>
      refine if_neg fun ⟨hphase, hscope⟩ => ?_
      obtain h | h := hfree r hr
      · exact hphase h
      · exact Bool.false_ne_true (h.symm.trans hscope)
    · rfl
  have hexec : exec (.coreSwRst c) s = .next (if s.backed c then s.softReset c else s) := rfl
  rw [hexec, if_pos hb, hsoft]

theorem exec_coreSwRst_scoped {r : PartialReset} (hr : s.partialReset = some r) (hphase : r.phase ≠ 0)
    (hscope : s.inScope r c = true) : exec (.coreSwRst c) s = .next s := by
  have hsoft : s.softReset c = s := by
    simp only [State.softReset, hr]
    exact if_pos ⟨hphase, hscope⟩
  have hexec : exec (.coreSwRst c) s = .next (if s.backed c then s.softReset c else s) := rfl
  rw [hexec, hsoft, ite_self]

/-- Settles O35: tag timers by the state of their tag, halts and resumes by the state of their thread, and the core reset by
its stages (engines stopped, the core's maps cleared, the core written). -/
theorem tagTimersHaltsAndCoreReset : Obligations.TagTimersHaltsAndCoreReset := by
  unfold Obligations.TagTimersHaltsAndCoreReset
  refine ⟨⟨fun s c n hretry => ?tags, fun s c n hb => ?threads⟩, fun s c => ?reset⟩
  case tags =>
    refine ⟨exec_tagTimeout_held n hretry, exec_tagTimeout_orphan n hretry, fun hst => ?_⟩
    have hend := s.endsTag_endTag c n
    exact ⟨_, exec_tagQuarantineEnd n hst, hend.freed, hend.others, hend.settled, hend.sram⟩
  case threads =>
    obtain ⟨hhalt, hresume⟩ := exec_threadHalt_resume n hb
    obtain ⟨hback, hgo⟩ := s.unstall_resumed c n
    refine ⟨fun hst => ?_, fun hst => ?_, fun hst hwait => ⟨fun hkeep => ?_, fun hformer hclears => ?_⟩,
      fun w hst hwait => ⟨fun hmet => ?_, fun hmet => ?_⟩, fun hst => ?_⟩
    · rw [hhalt, State.haltThread_of_runs hst]
    · rw [hhalt, State.haltThread_of_rests hst]
    · rw [hresume, State.resumeThread_former hst hwait, hback hkeep]
    · rw [hresume, State.resumeThread_former hst hwait, hgo hformer hclears]
    · have hholds : w.holds (s.tack c w.tack) = true := (w.holds_iff _).2 hmet
      rw [hresume, State.resumeThread_waiter hst hwait, if_pos hholds]
    · have hfails : ¬w.holds (s.tack c w.tack) = true := mt (w.holds_iff _).1 hmet
      rw [hresume, State.resumeThread_waiter hst hwait, if_neg hfails]
    · rw [hresume, State.resumeThread_other hst]
  case reset =>
    refine ⟨fun hb => ?_, fun r hr hphase hscope => exec_coreSwRst_scoped hr hphase hscope, fun hb hfree => ?_⟩
    · exact congrArg Host.Outcome.next (if_neg (by rw [hb]; exact Bool.false_ne_true))
    have hcore := s.core_coreReset_same c
    refine ⟨_, exec_coreSwRst_backed hb hfree, fun n => ?_, fun l hl => ?_, fun k => ?_, by rw [hcore]; rfl,
      by rw [hcore]; rfl, by rw [hcore]; rfl, by rw [hcore]; rfl, fun n hheld => ?_,
      fun f n hlow htree hw hn => s.get_coreReset_reset c hlow htree hw hn, s.get_coreReset_window c,
      fun f n hlo hhi hn => s.get_coreReset_tree c hlo hhi hn,
      fun d hd => ⟨s.core_coreReset_other hd, fun n => ?_, fun l hl => ?_⟩, s.memories_coreReset c⟩
    · rw [State.thread_coreReset, if_pos rfl]
    · rw [State.lane_coreReset _ _ _ hl, if_pos rfl]
    · rw [State.acc, hcore]
      rfl
    · rw [State.tagAt, hcore]
      exact (s.core c).afterReset_tag hheld
    · rw [State.thread_coreReset, if_neg hd]
    · rw [State.lane_coreReset _ _ _ hl, if_neg hd]

end Sys2Proof.Machine
end

section
/-!
PROOFS. Division, remainder, selection and bit counts (O2, O3).
-/

namespace Sys2Proof.Machine

/-- A two-operand scalar operation of a ready thread writes its result and moves the thread on. -/
theorem State.scalar_ready {s : State} {x : Issue} {rd rs1 : Fin 32} {b : Src2}
    (h : s.ready x ([.s rd, .s rs1] ++ match b with | .reg r => [RegRef.s r] | _ => []) b.len) (w32 : Bool)
    (f : (w : Nat) → BitVec w → BitVec w → BitVec w) (needs : Needs) :
    s.scalar x rd rs1 w32 b f needs =
      s.after x ((s.issuer x).writeS rd (alu f w32 ((s.issuer x).readS rs1) ((s.issuer x).src2 b)))
        ((s.issuer x).pc + b.len) := by
  have hlocal := fun regs (hr : s.ready x regs b.len) => State.issueLocal_ready hr
    (fun th _ => th.writeS rd (alu f w32 (th.readS rs1) (th.src2 b))) needs (by simp)
  cases b <;> exact (hlocal _ h).trans (by simp [State.after])

/-! ### Division (03 R104) -/

theorem divOp_eq : divOp = fun w (a b : BitVec w) =>
    if b = 0 then BitVec.allOnes w
    else if a = BitVec.intMin w ∧ b = BitVec.allOnes w then BitVec.intMin w
    else BitVec.ofInt w (a.toInt.tdiv b.toInt) := by
  funext w a b
  simp only [divOp]
  split
  · rfl
  · split
    case isTrue h =>
      obtain ⟨rfl, rfl⟩ := h
      rw [← BitVec.neg_one_eq_allOnes, BitVec.intMin_sdiv_neg_one]
    case isFalse h =>
      apply BitVec.eq_of_toInt_eq
      rw [BitVec.toInt_sdiv, BitVec.toInt_ofInt]

theorem remOp_eq : remOp = fun w (a b : BitVec w) =>
    if b = 0 then a
    else if a = BitVec.intMin w ∧ b = BitVec.allOnes w then 0
    else BitVec.ofInt w (a.toInt.tmod b.toInt) := by
  funext w a b
  simp only [remOp]
  split
  · rfl
  · split
    case isTrue hb h =>
      obtain ⟨rfl, rfl⟩ := h
      have hw : 0 < w := Nat.pos_of_ne_zero fun h0 => hb (by subst h0; rfl)
      apply BitVec.eq_of_toInt_eq
      rw [BitVec.toInt_srem, BitVec.toInt_allOnes, if_pos hw, Int.tmod_neg, Int.tmod_one]
      exact BitVec.toInt_zero.symm
    case isFalse h =>
      rw [← BitVec.toInt_srem, BitVec.ofInt_toInt]

theorem divuOp_eq : divuOp = fun w (a b : BitVec w) =>
    if b = 0 then BitVec.allOnes w else BitVec.ofNat w (a.toNat / b.toNat) := by
  funext w a b
  rw [← BitVec.toNat_udiv, BitVec.ofNat_toNat, BitVec.setWidth_eq]
  rfl

theorem remuOp_eq : remuOp = fun w (a b : BitVec w) =>
    if b = 0 then a else BitVec.ofNat w (a.toNat % b.toNat) := by
  funext w a b
  rw [← BitVec.toNat_umod, BitVec.ofNat_toNat, BitVec.setWidth_eq]
  rfl

/-- Settles O2: each command is one scalar operation, and the four operations are those of R104 (`divOp_eq`, `remOp_eq`,
`divuOp_eq`, `remuOp_eq`). -/
theorem divisionAndRemainder : Obligations.DivisionAndRemainder := by
  unfold Obligations.DivisionAndRemainder
  intro x rd rs1 w32 b s h
  refine ⟨?_, ?_, ?_, ?_⟩
  · exact congrArg _ ((State.scalar_ready h w32 divOp .divider).trans (by rw [divOp_eq]; rfl))
  · exact congrArg _ ((State.scalar_ready h w32 remOp .divider).trans (by rw [remOp_eq]; rfl))
  · exact congrArg _ ((State.scalar_ready h w32 divuOp .divider).trans (by rw [divuOp_eq]; rfl))
  · exact congrArg _ ((State.scalar_ready h w32 remuOp .divider).trans (by rw [remuOp_eq]; rfl))

/-! ### Bit counts (03 Table 3.4) -/

theorem popCount_eq : ∀ w v : Nat, popCount w v = ((List.range w).filter fun i => v.testBit i).length
  | 0, _ => rfl
  | w + 1, v => by
    rw [popCount, popCount_eq w (v / 2), List.range_succ_eq_map, List.filter_cons, List.filter_map, Nat.testBit_zero]
    have hshift : ((fun i => v.testBit i) ∘ Nat.succ) = fun i => (v / 2).testBit i := by
      funext i; exact Nat.testBit_succ v i
    rw [hshift]
    rcases Nat.mod_two_eq_zero_or_one v with h | h <;> simp [h, Nat.add_comm]

theorem popCount_le : ∀ w v : Nat, popCount w v ≤ w
  | 0, _ => le_rfl
  | w + 1, v => by
    have := popCount_le w (v / 2)
    rw [popCount]; omega

theorem leadingZeros_eq (w v : Nat) :
    leadingZeros w v = if v % 2 ^ w = 0 then w else w - 1 - Nat.log2 (v % 2 ^ w) := by
  unfold leadingZeros
  split <;> omega

theorem leadingZeros_le (w v : Nat) : leadingZeros w v ≤ w := Nat.sub_le _ _

/-- A count of bits at either width is the count itself: it lies far below the sign bit. -/
theorem alu_count (n : Nat → Nat → Nat) (hn : ∀ w v, n w v ≤ w) (w32 : Bool)
    (a b : Word) :
    alu (fun w a _ => BitVec.ofNat w (n w a.toNat)) w32 a b =
      BitVec.ofNat 64 (n (if w32 then 32 else 64) (a.toNat % 2 ^ (if w32 then 32 else 64))) := by
  cases w32
  · simp only [alu, Bool.false_eq_true, if_false]
    rw [Nat.mod_eq_of_lt a.isLt]
  · simp only [alu, if_true, BitVec.toNat_setWidth]
    have hle := hn 32 (a.toNat % 2 ^ 32)
    generalize n 32 (a.toNat % 2 ^ 32) = k at hle
    interval_cases k <;> rfl

/-- A choice between the operands, at either width. -/
theorem alu_choice (g w32 : Bool) (a b : Word) :
    alu (fun _ a b => if g then a else b) w32 a b = if w32 then sext32 (if g then a else b) else if g then a else b := by
  cases g <;> cases w32 <;> rfl

/-- Settles O3: sel issues whatever its guard is (`issueLocal_offers`), and the counts are the model's own at either width
(`alu_count`). -/
theorem selectAndBitCounts : Obligations.SelectAndBitCounts := by
  unfold Obligations.SelectAndBitCounts
  refine ⟨fun x rd rs1 w32 b s h => ?_, fun x rd rs1 w32 s h => ?_, fun x rd rs1 imm s h => ?_⟩
  · have hlocal := fun regs (hr : s.offers x regs b.len) => State.issueLocal_offers (always := true) hr (.inl rfl)
      (fun th _ => th.writeS rd (alu (fun _ a b => if th.guard x then a else b) w32 (th.readS rs1) (th.src2 b))) .none
      (by simp)
    cases b <;> exact congrArg _ ((hlocal _ h).trans (by rw [alu_choice]; simp [State.after]))
  · have hscalar := fun f => State.scalar_ready (b := .imm7 0) h w32 f .none
    refine ⟨congrArg _ ((hscalar _).trans ?_), congrArg _ ((hscalar _).trans ?_)⟩
    · rw [alu_count leadingZeros leadingZeros_le, leadingZeros_eq, Nat.mod_mod]
      rfl
    · rw [alu_count popCount popCount_le, popCount_eq]
      rfl
  · refine congrArg _ ((State.issueLocal_ready h _ .none (by simp)).trans ?_)
    have hjoin : ∀ v : Word, (imm.zeroExtend 64 <<< 32) ||| (v.truncate 32).zeroExtend 64 = imm ++ v.truncate 32 := by
      intro v
      refine BitVec.eq_of_getLsbD_eq fun i hi => ?_
      rw [BitVec.getLsbD_append]
      by_cases hlow : i < 32 <;> simp [hlow, hi]
    simp [State.after, hjoin]

end Sys2Proof.Machine
end

section
/-!
PROOFS. Two statements that fail (O27, O32), each with the state that refutes it.
-/

namespace Sys2Proof.Machine

/-! ### A module with one thread -/

/-- Field 0 is up and core 5 of it is clocked. -/
def oneCore : State :=
  let s := (State.reset.setDomain 0 true).setDomain 64 true
  let s := (s.put F.CLK_FLDf_CTL_CMP_EN 1 0).put F.CLK_FLDf_CTL_TRN_EN 1 0
  s.put F.CORE_CTL_CLK_EN 1 5

/-- That module with a given thread 0 on core 5, RUNNING. -/
def oneThread (th : Thread) : State := oneCore.setThread 5 0 { th with st := .running }

/-- An unguarded instruction of thread 0 of core 5. -/
def issue5 : Issue := ⟨5, 0, 0, false, []⟩

/-- No packet stands in the fabric, so that every one is numbered and every interface clear. -/
theorem State.numbered_of_empty {s : State} (h : s.fab.pkts = []) : s.numbered := by
  intro p hp
  simp [h] at hp

theorem State.interfaceClear_of_empty {s : State} (h : s.fab.pkts = []) (c : Lcn) : s.interfaceClear c := by
  intro q hq
  simp [h] at hq

/-! ### O27: a tack beyond the core's 32 -/

/-- A thread that sends 240 bytes of its own SRAM to the bobbin at 0 of core 6. -/
def longSender : State := oneThread { s := [(2, 0x60000), (3, 240)], a := [(1, 0x50000)] }

/-- The number of a tack that no core has, at which the key of TACK_STATEn_VALUE is that of FAB_MARKS_MARKS of core 5's
field. -/
def noTack : Nat := fldKey F.FAB_MARKS_MARKS 0 0 - fldKey F.TACK_STATEn_VALUE 5 0

theorem longSender_ready : longSender.ready issue5 [.s 2, .s 3] := by
  unfold State.ready State.offers
  decide +kernel

theorem longSender_pkts : longSender.fab.pkts = [] := rfl

/-- The message's 35 flits are more than a field's threshold: its injection is marked and counted. -/
theorem longSender_marks : ∃ t, exec (.msend issue5 3 2 1 false) longSender = .next t ∧
    t.get F.TACK_STATEn_VALUE 5 noTack ≠ longSender.get F.TACK_STATEn_VALUE 5 noTack :=
  ⟨_, rfl, by decide +kernel⟩

/-- Refutes O27: the statement says of every number m that TACK_STATEn_VALUE reads as before, also of numbers that no tack
has. The register fields of the model stand in one map, and at `noTack` the key of TACK_STATEn_VALUE of core 5 is that of
FAB_MARKS_MARKS of its field: the injection of a message of 240 bytes is marked, and the count has moved. -/
theorem not_remoteSignalsAndMessages : ¬ Obligations.RemoteSignalsAndMessages := by
  unfold Obligations.RemoteSignalsAndMessages
  rintro ⟨hsend, -⟩
  obtain ⟨-, hmsend, -⟩ := hsend issue5 false 2 3 longSender longSender_ready
    (State.numbered_of_empty longSender_pkts) (State.interfaceClear_of_empty longSender_pkts 5) (by decide +kernel)
  obtain ⟨t, hexec, -, -, -, -, -, -, -, htacks, -⟩ := hmsend 3 1 6 0 0 rfl (by decide +kernel) (by decide)
    (by decide) (by decide +kernel) (by decide +kernel) (by decide +kernel) (by decide) (by decide +kernel)
    (fun j _ _ => by simp [show longSender.damaged = [] from rfl]) (by decide +kernel) (by decide +kernel)
    (by decide +kernel)
  obtain ⟨t', hexec', hmoved⟩ := longSender_marks
  obtain rfl : t' = t := Host.Outcome.next.inj (hexec'.symm.trans hexec)
  exact hmoved (htacks noTack)

/-! ### O32: a span with a gusset core -/

/-- A thread that casts the first tile of its own SRAM to two cores of column 128: the core of row 111, whose segment is
relocated, so that its cores are written apart, and the gusset core of row 112. -/
def columnCaster : State :=
  { oneThread { s := [(1, 2 ^ 28 + 2 * 2 ^ 20 + 113792), (2, 0)], a := [(1, 0x50000)] } with
    relocations := [⟨111, 1, 1, 0, 0⟩] }

theorem columnCaster_ready : columnCaster.ready issue5 [.s 1, .s 2] := by
  unfold State.ready State.offers
  decide +kernel

theorem columnCaster_pkts : columnCaster.fab.pkts = [] := rfl

/-- The sender's own interface answers the leg to the gusset core: no write of the tile is under way to it. -/
theorem columnCaster_sends : ∃ t, exec (.ncast issue5 1 1 2 false) columnCaster = .next t ∧
    t.fab.pkts.all (fun q => decide (¬(q.typ = PacketType.wr ∧ q.dst = 114816))) = true :=
  ⟨_, rfl, by decide +kernel⟩

/-- Refutes O32: a span whose cores are written apart may hold a gusset core. The sender's own interface then answers the leg
to it with UNB, and no write of the tile to it is in the fabric. -/
theorem not_fabricInstructions : ¬ Obligations.FabricInstructions := by
  unfold Obligations.FabricInstructions
  intro h
  obtain ⟨hsent, -⟩ := h issue5 1 1 2 false 0 columnCaster columnCaster_ready
    (State.numbered_of_empty columnCaster_pkts) (State.interfaceClear_of_empty columnCaster_pkts 5)
  obtain ⟨-, -, hcolumn⟩ := hsent (by decide +kernel) (by decide +kernel)
    (by simp [show columnCaster.damaged = [] from rfl])
  obtain ⟨t, hexec, -, -, -, -, -, hlegs⟩ := hcolumn (by decide +kernel) (by decide +kernel) (by decide +kernel)
    (by decide +kernel)
  obtain ⟨q, hq, htyp, -, hdst, -⟩ := hlegs 1 (by decide +kernel)
  obtain ⟨t', hexec', hnone⟩ := columnCaster_sends
  obtain rfl : t' = t := Host.Outcome.next.inj (hexec'.symm.trans hexec)
  have hgusset : q.dst = 114816 := hdst.trans (by decide +kernel)
  simpa [htyp, hgusset] using List.all_eq_true.1 hnone q hq

end Sys2Proof.Machine
end

section
/-!
PROOFS. Predicates and address arithmetic (O5).
-/

namespace Sys2Proof.Machine

/-! ### Instructions that write one register -/

section
variable {s : State} {x : Issue} {regs : List RegRef} {len : Nat}

theorem State.issueLocal_writesS (h : s.ready x regs len) (rd : Fin 32) (v : Thread → State → Word) :
    s.issueLocal x len regs (fun th u => th.writeS rd (v th u)) =
      s.after x ((s.issuer x).writeS rd (v (s.issuer x).issuing (s.setThread x.core x.thread (s.issuer x).issuing)))
        ((s.issuer x).pc + len) :=
  (State.issueLocal_ready h _ .none (by simp)).trans (by simp [State.after])

theorem State.issueLocal_writesA (h : s.ready x regs len) (ad : Fin 16) (v : Thread → State → Word) :
    s.issueLocal x len regs (fun th u => th.writeA ad (v th u)) =
      s.after x ((s.issuer x).writeA ad (v (s.issuer x).issuing (s.setThread x.core x.thread (s.issuer x).issuing)))
        ((s.issuer x).pc + len) :=
  (State.issueLocal_ready h _ .none (by simp)).trans (by simp [State.after])

theorem State.issueLocal_writesP (h : s.ready x regs len) (pd : Fin 8) (v : Thread → Bool) :
    s.issueLocal x len regs (fun th _ => th.writeP pd (v th)) =
      s.after x ((s.issuer x).writeP pd (v (s.issuer x).issuing)) ((s.issuer x).pc + len) :=
  (State.issueLocal_ready h _ .none (by simp)).trans (by simp [State.after])

end

/-! ### Conditions (03 Table 3.17) -/

/-- The condition of a compare, over the values as integers or as naturals. -/
theorem Cond.holds_eq (k : Cond) (a b : Word) : k.holds a b = match k with
    | .eq => decide (a.toNat = b.toNat)
    | .ne => decide (a.toNat ≠ b.toNat)
    | .lt => decide (a.toInt < b.toInt)
    | .ge => decide (b.toInt ≤ a.toInt)
    | .ltu => decide (a.toNat < b.toNat)
    | .geu => decide (b.toNat ≤ a.toNat)
    | .gt => decide (b.toInt < a.toInt)
    | .le => decide (a.toInt ≤ b.toInt)
    | .gtu => decide (b.toNat < a.toNat)
    | .leu => decide (a.toNat ≤ b.toNat) := by
  have hsigned : ∀ a b : Word, (!a.slt b) = decide (b.toInt ≤ a.toInt) := fun a b => by
    rw [BitVec.slt, ← decide_not, decide_eq_decide]; exact Int.not_lt
  have hunsigned : ∀ a b : Word, (!a.ult b) = decide (b.toNat ≤ a.toNat) := fun a b => by
    rw [BitVec.ult, ← decide_not, decide_eq_decide]; exact Nat.not_lt
  cases k with
  | eq => exact decide_eq_decide.2 BitVec.toNat_inj.symm
  | ne => exact decide_eq_decide.2 (not_congr BitVec.toNat_inj.symm)
  | lt | ltu | gt | gtu => rfl
  | ge | le => exact hsigned _ _
  | geu | leu => exact hunsigned _ _

theorem State.compare_ready {s : State} {x : Issue} {rs1 rs2 : Fin 32} (h : s.ready x [.s rs1, .s rs2]) (pd : Fin 8)
    (k : Cond) : s.compare x pd rs1 rs2 k =
      s.after x ((s.issuer x).writeP pd (k.holds ((s.issuer x).readS rs1) ((s.issuer x).readS rs2)))
        ((s.issuer x).pc + 4) :=
  State.issueLocal_writesP h pd fun th => k.holds (th.readS rs1) (th.readS rs2)

theorem State.compareImm_ready {s : State} {x : Issue} {rs1 : Fin 32} {i : CmpImm} (h : s.ready x [.s rs1] i.len)
    (pd : Fin 8) (k : Cond) : s.compareImm x pd rs1 i k =
      s.after x ((s.issuer x).writeP pd (k.holds ((s.issuer x).readS rs1) i.value)) ((s.issuer x).pc + i.len) :=
  State.issueLocal_writesP h pd fun th => k.holds (th.readS rs1) i.value

theorem State.logic_ready {s : State} {x : Issue} (h : s.ready x []) (pd pa pb : Fin 8) (f : Bool → Bool → Bool) :
    s.logic x pd pa pb f =
      s.after x ((s.issuer x).writeP pd (f ((s.issuer x).readP pa) ((s.issuer x).readP pb))) ((s.issuer x).pc + 4) :=
  State.issueLocal_writesP h pd fun th => f (th.readP pa) (th.readP pb)

/-! ### Address arithmetic (03 Table 3.6) -/

theorem aadd_value (a v : Word) (n : Nat) : a + v <<< n = BitVec.ofNat 64 (a.toNat + v.toNat * 2 ^ n) := by
  apply BitVec.eq_of_toNat_eq
  simp [BitVec.toNat_add, BitVec.toNat_shiftLeft, Nat.shiftLeft_eq]

theorem asub_value (a v : Word) (n : Nat) : a - v <<< n = BitVec.ofInt 64 (a.toNat - v.toNat * 2 ^ n) := by
  have hshift : v <<< n = BitVec.ofInt 64 (v.toNat * 2 ^ n : Nat) := by
    rw [BitVec.ofInt_natCast]
    apply BitVec.eq_of_toNat_eq
    simp [Nat.shiftLeft_eq]
  have ha : BitVec.ofInt 64 a.toNat = a := by rw [BitVec.ofInt_natCast, BitVec.ofNat_toNat, BitVec.setWidth_eq]
  rw [Int.sub_eq_add_neg, BitVec.ofInt_add, BitVec.ofInt_neg, ha, ← BitVec.sub_eq_add_neg, hshift]
  push_cast
  rfl

theorem alocal_value (c : Lcn) (v : Word) :
    BitVec.ofNat 64 (c.toNat * 65536) + (v &&& 0xFFFF) = BitVec.ofNat 64 (c.toNat * 2 ^ 16 + v.toNat % 2 ^ 16) := by
  have hlow : (v &&& 0xFFFF).toNat = v.toNat % 2 ^ 16 := by
    rw [BitVec.toNat_and]; exact Nat.and_two_pow_sub_one_eq_mod v.toNat 16
  apply BitVec.eq_of_toNat_eq
  rw [BitVec.toNat_add, hlow]
  simp

/-- The three parts of an address, joined as bits and as numbers. -/
theorem ofNat_parts (a : BitVec 28) (b : BitVec 20) (c : BitVec 16) :
    (a ++ b ++ c : BitVec 64) = BitVec.ofNat 64 (a.toNat * 2 ^ 36 + b.toNat * 2 ^ 16 + c.toNat) := by
  apply BitVec.eq_of_toNat_eq
  rw [BitVec.toNat_append, BitVec.toNat_append, ← Nat.shiftLeft_add_eq_or_of_lt b.isLt,
    ← Nat.shiftLeft_add_eq_or_of_lt c.isLt, Nat.shiftLeft_eq, Nat.shiftLeft_eq, BitVec.toNat_ofNat, Nat.mod_eq_of_lt]
  · ring
  · omega

theorem getLsbD_lowMask (i : Nat) : (0xFFFFF#64).getLsbD i = decide (i < 20) := by
  have h : (0xFFFFF#64).getLsbD i = (decide (i < 64) && (2 ^ 20 - 1).testBit i) := BitVec.getLsbD_ofNat 64 _ i
  rw [h, Nat.testBit_two_pow_sub_one]
  by_cases hi : i < 20 <;> simp [hi]
  omega

theorem acore_value (a v : Word) : (a &&& ~~~(0xFFFFF#64 <<< 16)) ||| ((v &&& 0xFFFFF#64) <<< 16) =
    BitVec.ofNat 64 (a.toNat / 2 ^ 36 * 2 ^ 36 + v.toNat % 2 ^ 20 * 2 ^ 16 + a.toNat % 2 ^ 16) := by
  have hparts : BitVec.ofNat 64 (a.toNat / 2 ^ 36 * 2 ^ 36 + v.toNat % 2 ^ 20 * 2 ^ 16 + a.toNat % 2 ^ 16) =
      (a.extractLsb' 36 28 ++ v.truncate 20 ++ a.truncate 16 : BitVec 64) := by
    rw [ofNat_parts, BitVec.extractLsb'_toNat, BitVec.toNat_setWidth, BitVec.toNat_setWidth, Nat.shiftRight_eq_div_pow,
      Nat.mod_eq_of_lt (a := a.toNat / 2 ^ 36) (by omega)]
  rw [hparts]
  refine BitVec.eq_of_getLsbD_eq fun i hi => ?_
  simp only [BitVec.getLsbD_append, BitVec.getLsbD_or, BitVec.getLsbD_and, BitVec.getLsbD_not, BitVec.getLsbD_shiftLeft,
    getLsbD_lowMask, BitVec.getLsbD_setWidth, BitVec.getLsbD_extractLsb']
  by_cases h1 : i < 16
  · simp [h1, hi]
  · by_cases h2 : i - 16 < 20
    · simp [h1, hi, h2]
    · have h3 : 36 + (i - 16 - 20) = i := by omega
      have h4 : i - 16 - 20 < 28 := by omega
      simp [h1, hi, h2, h3, h4]

/-- Settles O5: each command writes one register of its thread (`issueLocal_writesP`, `issueLocal_writesA`,
`issueLocal_writesS`), with the condition of its row (`Cond.holds_eq`) or the sum of its row (`aadd_value` and its kin). -/
theorem predicatesAndAddresses : Obligations.PredicatesAndAddresses := by
  unfold Obligations.PredicatesAndAddresses
  refine ⟨⟨fun x pd rs1 rs2 s h => ?_, fun x pd rs1 i s h => ?_⟩, fun x pd pa pb s h => ?_,
    fun x ad as_ sr sh s h => ?_, fun x ad as_ i s h => ?_⟩
  · have hrow := fun k => (State.compare_ready h pd k).trans
      (congrArg (fun v => s.after x ((s.issuer x).writeP pd v) _) (Cond.holds_eq k _ _))
    exact ⟨congrArg _ (hrow .eq), congrArg _ (hrow .ne), congrArg _ (hrow .lt), congrArg _ (hrow .ge),
      congrArg _ (hrow .ltu), congrArg _ (hrow .geu)⟩
  · have hrow := fun k => (State.compareImm_ready h pd k).trans
      (congrArg (fun v => s.after x ((s.issuer x).writeP pd v) _) (Cond.holds_eq k _ _))
    cases i <;> exact ⟨congrArg _ (hrow .eq), congrArg _ (hrow .ne), congrArg _ (hrow .lt), congrArg _ (hrow .ge),
      congrArg _ (hrow .ltu), congrArg _ (hrow .geu), congrArg _ (hrow .gt), congrArg _ (hrow .le),
      congrArg _ (hrow .gtu), congrArg _ (hrow .leu)⟩
  · have hrow := fun pb f => State.logic_ready h pd pa pb f
    have hxor : ∀ a b : Bool, (a != b) = decide (a ≠ b) := by decide
    exact ⟨congrArg _ (hrow pb _), congrArg _ (hrow pb _), congrArg _ ((hrow pb _).trans (by rw [hxor])),
      congrArg _ (hrow pb _), congrArg _ (hrow 0 _)⟩
  · have hwrite := fun v => State.issueLocal_writesA h ad v
    refine ⟨congrArg _ ((hwrite _).trans ?_), congrArg _ ((hwrite _).trans ?_), congrArg _ (hwrite _),
      congrArg _ (State.issueLocal_writesS h sr _), congrArg _ ((hwrite _).trans ?_), congrArg _ ((hwrite _).trans ?_)⟩
    · rw [aadd_value]
      rfl
    · rw [asub_value]
      rfl
    · rw [alocal_value, seenLcn_eq]
      rfl
    · exact congrArg (fun v => s.after x ((s.issuer x).writeA ad v) _) (acore_value _ _)
  · have hwrite := State.issueLocal_writesA h ad fun th _ => th.readA as_ + i.value
    cases i <;> exact congrArg _ hwrite

end Sys2Proof.Machine
end

section
/-!
PROOFS. Branches, end, trap and the instruction-fetch trap (O10).
-/

namespace Sys2Proof.Machine

section
variable {s : State} {x : Issue} {regs : List RegRef} {len : Nat}

/-- An instruction of a ready thread that leaves its thread, RUNNING, in a state where it had it at issue. -/
theorem State.issue_after (h : s.ready x regs len) (act : Thread → State → Act) (always : Bool) (needs : Needs)
    {u : State} {th : Thread} {pc : Nat} (hth : th.st = .running)
    (ha : act (s.issuer x).issuing (s.setThread x.core x.thread (s.issuer x).issuing) =
      .done (u.setThread x.core x.thread th) pc) :
    s.issue x len regs none act always needs = u.after x th pc := by
  rw [State.issue_done h act always needs ha, State.retire, State.thread_setThread_same, State.after]
  obtain ⟨⟩ := th
  cases hth
  exact State.setThread_setThread u x.core x.thread rfl rfl

/-- What a thread that issues leaves of its own state in passing. -/
theorem State.after_setThread {th₀ th : Thread} (h₀ : th₀.st = .running) (pc : Nat) :
    (s.setThread x.core x.thread th₀).after x th pc = s.after x th pc :=
  State.setThread_setThread s x.core x.thread h₀ rfl

end

/-! ### Branches (03 R118) -/

theorem branchTrap_none {pc : Nat} {target : Word} (hin : target.toNat ≤ 0x1FFC) (hal : target.toNat % 4 = 0) :
    branchTrap pc target = none :=
  firstTrap_none fun e he => by
    simp only [List.mem_cons, List.not_mem_nil, or_false] at he
    rcases he with rfl | rfl
    · exact decide_eq_false (Nat.not_lt.2 hin)
    · exact decide_eq_false (not_not.2 hal)

theorem branchTrap_outside (pc : Nat) {target : Word} (hout : 0x1FFC < target.toNat) :
    ∃ multi, branchTrap pc target = some { cause := 1, sub := 0, pc, addr := target.toNat, multi } := by
  rw [branchTrap, decide_eq_true hout]
  exact firstTrap_head _ _

theorem branchTrap_misaligned {pc : Nat} {target : Word} (hin : target.toNat ≤ 0x1FFC) (hal : target.toNat % 4 ≠ 0) :
    branchTrap pc target = some { cause := 1, sub := 1, pc, addr := target.toNat } := by
  rw [branchTrap, decide_eq_false (Nat.not_lt.2 hin), decide_eq_true hal]
  rfl

theorem relative_eq (pc : Nat) {w : Nat} (off : BitVec w) : relative pc off = BitVec.ofInt 64 (pc + 4 * off.toInt) := by
  rw [relative, BitVec.ofInt_add, BitVec.ofInt_mul, BitVec.mul_comm (BitVec.ofInt 64 4)]
  rfl

/-- The thread that a taken branch leaves: with its link written. -/
def Thread.linked (th : Thread) : Option (Fin 32) → Thread
  | some rd => th.writeS rd (BitVec.ofNat 64 (th.pc + 4))
  | none => th

theorem Thread.linked_st (th : Thread) (link : Option (Fin 32)) : (th.linked link).st = th.st := by
  cases link with
  | none => rfl
  | some rd => exact th.writeS_st rd _

theorem Thread.issuing_linked_retiredAt (th : Thread) (link : Option (Fin 32)) (pc : Nat) :
    (th.issuing.linked link).retiredAt pc = (th.linked link).retiredAt pc := by
  cases link with
  | none => rfl
  | some rd => exact th.issuing_writeS_retiredAt rd _ pc

section
variable {s : State} {x : Issue} {regs : List RegRef}

/-- A branch of a ready thread to a legal target. -/
theorem State.branch_taken (h : s.ready x regs) (link : Option (Fin 32)) (target : Thread → Word)
    (hissue : target (s.issuer x).issuing = target (s.issuer x)) (hin : (target (s.issuer x)).toNat ≤ 0x1FFC)
    (hal : (target (s.issuer x)).toNat % 4 = 0) :
    s.branch x regs link target = s.after x ((s.issuer x).linked link) (target (s.issuer x)).toNat := by
  have hact := branchTrap_none (pc := (s.issuer x).issuing.pc) hin hal
  refine (State.issue_after h _ false .none (((s.issuer x).issuing.linked_st link).trans rfl)
    (by dsimp only; rw [hissue, hact]; cases link <;> rfl)).trans ?_
  rw [State.after_setThread rfl, State.after, State.after, Thread.issuing_linked_retiredAt]

/-- A branch of a ready thread whose target brings a trap. -/
theorem State.branch_traps (h : s.ready x regs) (link : Option (Fin 32)) (target : Thread → Word)
    (hissue : target (s.issuer x).issuing = target (s.issuer x)) {r : TrapInfo}
    (ht : branchTrap (s.issuer x).pc (target (s.issuer x)) = some r) :
    s.branch x regs link target = s.trap x.core x.thread r :=
  State.issue_traps h _ false .none (by dsimp only; rw [hissue, Thread.issuing_pc, ht])

end

/-! ### The instruction-fetch trap (02 R68; 03 R96, R97; 15 R537) -/

/-- Classes 0xB to 0xF hold no instruction. -/
theorem legalWord_unassigned {w : Nat} (imm : Nat) (h : w / 2 ^ 28 ∈ [11, 12, 13, 14, 15]) : legalWord w imm = false := by
  have hbits : bits w 31 28 = w / 2 ^ 28 := by
    simp only [List.mem_cons, List.not_mem_nil, or_false] at h
    rw [bits]
    omega
  simp only [List.mem_cons, List.not_mem_nil, or_false] at h
  rw [legalWord, hbits]
  rcases h with h | h | h | h | h <;> rw [h] <;> rfl

section
variable {s : State} {c : Lcn} {pc : Nat}

theorem State.fetchTrap_outside (h : 0x1FFC < pc) :
    s.fetchTrap c pc = some ({ cause := 1, sub := 0, pc := pc % 8192, addr := pc }, false) := by
  simp [State.fetchTrap, h]

theorem State.fetchTrap_parity (hin : pc ≤ 0x1FFC) (hp : s.parityBad c pc = true) :
    s.fetchTrap c pc = some ({ cause := 1, sub := 2, pc, info := s.fetch c pc, addr := pc }, true) := by
  simp [State.fetchTrap, Nat.not_lt.2 hin, hp, Nat.mod_eq_of_lt (show pc < 8192 by omega)]

theorem State.fetchTrap_unassigned (hin : pc ≤ 0x1FFC) (hp : s.parityBad c pc = false)
    (hw : s.fetch c pc / 2 ^ 28 ∈ [11, 12, 13, 14, 15]) :
    s.fetchTrap c pc = some ({ cause := 1, sub := 2, pc, info := s.fetch c pc, addr := pc }, false) := by
  simp [State.fetchTrap, Nat.not_lt.2 hin, hp, legalWord_unassigned _ hw, Nat.mod_eq_of_lt (show pc < 8192 by omega)]

/-- The fetch of a thread that runs on a clocked, backed core. -/
theorem exec_instructionFetchTrap {n : Fin 4} (hst : (s.thread c n).st = .running ∨ (s.thread c n).st = .stalled)
    (hclk : s.clocked c = true) (hb : s.backed c = true) {r : TrapInfo} {parity : Bool}
    (ht : s.fetchTrap c (s.thread c n).pc = some (r, parity)) :
    exec (.instructionFetchTrap c n) s = .next ((if parity then
      (s.addSat F.INT_CSUMSTAT_PARITY F.INT_CSUMSTAT_SAT 1 c.toNat).countFailure c 9 0 else s).trap c n r) := by
  change execInstructionFetchTrap c n s = _
  have hruns : ((s.thread c n).st == .running || (s.thread c n).st == .stalled) = true := by
    rcases hst with h | h <;> rw [h] <;> rfl
  simp [execInstructionFetchTrap, hruns, hclk, hb, ht]

end

/-- Settles O10: branches by their target (`branch_cases`), end as the one write of its thread, and the fetch trap by the word
(`exec_instructionFetchTrap`). -/
theorem controlFlow : Obligations.ControlFlow := by
  unfold Obligations.ControlFlow
  refine ⟨?branches, ?ends, ?traps, ?fetch⟩
  case branches =>
    intro x s th branches link
    have hbranch : ∀ {i regs l target}, exec i s = .next (s.branch x regs l target) → s.ready x regs →
        target th.issuing = target th → branches i (target th) (th.linked l) := by
      intro i regs l target hexec h hissue
      refine ⟨fun hin hal => ?_, fun hout => ?_, fun hin hal => ?_⟩
      · exact hexec.trans (congrArg _ (State.branch_taken h l target hissue hin hal))
      · obtain ⟨multi, ht⟩ := branchTrap_outside th.pc hout
        exact ⟨multi, hexec.trans (congrArg _ (State.branch_traps h l target hissue ht))⟩
      · exact hexec.trans (congrArg _ (State.branch_traps h l target hissue (branchTrap_misaligned hin hal)))
    refine ⟨fun h => ?_, fun off h => ?_, fun rd off h => ?_, fun rd rs1 h => ?_⟩
    · exact congrArg _ (State.issue_after (u := s) (th := th.issuing) h _ false .none rfl rfl)
    · rw [← relative_eq]
      exact hbranch (l := none) (target := fun th => relative th.pc off) rfl h rfl
    · rw [← relative_eq]
      exact hbranch (l := some rd) (target := fun th => relative th.pc off) rfl h rfl
    · exact hbranch (l := some rd) (target := fun th => th.readS rs1) rfl h rfl
  case ends =>
    intro x s h th
    have hdone := State.issue_done h
      (fun th u => .done (u.setThread x.core x.thread { th with st := .stopped }) (th.pc + 4)) false .none rfl
    refine ⟨_, congrArg Host.Outcome.next hdone, ?_, fun c u hne => ?_, ?_⟩
    · simp only [State.retire, State.issuer, State.thread_setThread_same]
      rfl
    · rw [State.retire, State.thread_setThread_other _ _ hne, State.thread_setThread_other _ _ hne,
        State.thread_setThread_other _ _ hne]
    · simp only [State.retire, State.setThread]
  case traps =>
    intro x code s h
    exact congrArg _ (State.issue_traps h _ false .none rfl)
  case fetch =>
    intro c n s th shut word hst hclk hb
    refine ⟨fun hout => ?_, fun hin hgood hw => ?_, fun hin hopen hbad => ?_⟩
    · exact exec_instructionFetchTrap hst hclk hb (State.fetchTrap_outside hout)
    · have hp : s.parityBad c th.pc = false := by
        rcases hgood with h | h
        · simp [State.parityBad, show s.windowShut c th.pc = true from h]
        · simp [State.parityBad, h]
      exact exec_instructionFetchTrap hst hclk hb (State.fetchTrap_unassigned hin hp hw)
    · have hp : s.parityBad c th.pc = true := by
        simp [State.parityBad, Bool.eq_false_iff.2 hopen, hbad]
      exact exec_instructionFetchTrap hst hclk hb (State.fetchTrap_parity hin hp)

end Sys2Proof.Machine
end

section
/-!
PROOFS. Trap entry (O11).
-/

namespace Sys2Proof.Machine

variable {s : State} {c : Lcn} {n : Fin 4}

/-- Two states that differ in registers, threads, events and the windows of folded trap events alone. -/
def State.trapOnly (s t : State) : Prop :=
  { t with regs := s.regs, threads := s.threads, events := s.events, trapWindows := s.trapWindows } = s

theorem State.trapOnly.trans {s t u : State} (h : s.trapOnly t) (h' : t.trapOnly u) : s.trapOnly u := by
  unfold State.trapOnly at *
  rw [← h'] at h
  exact h

theorem State.trapOnly_put (s : State) (f : Fld) (v u n : Nat) : s.trapOnly (s.put f v u n) := by
  simp only [State.trapOnly, State.put]

theorem State.trapOnly_setThread (s : State) (c : Lcn) (n : Fin 4) (th : Thread) : s.trapOnly (s.setThread c n th) := by
  simp only [State.trapOnly, State.setThread]

/-! ### What a trap records -/

theorem State.recordTrap_only (r : TrapInfo) : s.trapOnly (s.recordTrap c n r) :=
  (((((((State.trapOnly_put _ _ _ _ _).trans (State.trapOnly_put _ _ _ _ _)).trans (State.trapOnly_put _ _ _ _ _)).trans
    (State.trapOnly_put _ _ _ _ _)).trans (State.trapOnly_put _ _ _ _ _)).trans (State.trapOnly_put _ _ _ _ _)).trans
    (State.trapOnly_put _ _ _ _ _)).trans (State.trapOnly_put _ _ _ _ _)

/-- The trap registers of the thread that has trapped. -/
theorem State.get_recordTrap_same (r : TrapInfo) (hcause : r.cause < 2 ^ 8) (hsub : r.sub < 2 ^ 4) (hpc : r.pc < 2 ^ 13)
    (hinfo : r.info < 2 ^ 32) (haddr : r.addr < 2 ^ 64) :
    let t := s.recordTrap c n r
    t.get F.CORE_TRAPn_CAUSE c.toNat n = r.cause ∧ t.get F.CORE_TRAPn_SUB c.toNat n = r.sub ∧
      t.get F.CORE_TRAPn_RESP c.toNat n = (if r.resp then 1 else 0) ∧
      t.get F.CORE_TRAPn_MULTI c.toNat n = (if r.multi then 1 else 0) ∧ t.get F.CORE_TRAPn_VALID c.toNat n = 1 ∧
      t.get F.CORE_TRAPn_PC c.toNat n = r.pc ∧ t.get F.CORE_TRAPn_INFO c.toNat n = r.info ∧
      t.get F.CORE_TRAP_ADDRn_ADDR c.toNat n = r.addr := by
  have hu : c.toNat < 2 ^ 20 := c.isLt
  have hn : n.val < 2 ^ 12 := by omega
  have hother : ∀ {s : State} {f g : Fld} (v : Nat), g.id ≠ f.id →
      (s.put f v c.toNat n.val).get g c.toNat n.val = s.get g c.toNat n.val :=
    fun v h => State.get_put_field _ v h hu hu hn hn
  have hbit : ∀ b : Bool, bit b % 2 ^ 1 = if b then 1 else 0 := by decide
  refine ⟨?_, ?_, ?_, ?_, ?_, ?_, ?_, ?_⟩ <;> unfold State.recordTrap
  · iterate 7 rw [hother _ (by decide)]
    exact (State.get_put_same _ _ _ _ _).trans (Nat.mod_eq_of_lt hcause)
  · iterate 6 rw [hother _ (by decide)]
    exact (State.get_put_same _ _ _ _ _).trans (Nat.mod_eq_of_lt hsub)
  · iterate 5 rw [hother _ (by decide)]
    exact (State.get_put_same _ _ _ _ _).trans (hbit r.resp)
  · iterate 4 rw [hother _ (by decide)]
    exact (State.get_put_same _ _ _ _ _).trans (hbit r.multi)
  · iterate 3 rw [hother _ (by decide)]
    exact State.get_put_same _ _ _ _ _
  · iterate 2 rw [hother _ (by decide)]
    exact (State.get_put_same _ _ _ _ _).trans (Nat.mod_eq_of_lt hpc)
  · rw [hother _ (by decide)]
    exact (State.get_put_same _ _ _ _ _).trans (Nat.mod_eq_of_lt hinfo)
  · exact (State.get_put_same _ _ _ _ _).trans (Nat.mod_eq_of_lt haddr)

/-- The fields that a trap writes. -/
def trapFields : List Fld :=
  [F.CORE_TRAPn_CAUSE, F.CORE_TRAPn_SUB, F.CORE_TRAPn_RESP, F.CORE_TRAPn_MULTI, F.CORE_TRAPn_VALID, F.CORE_TRAPn_PC,
   F.CORE_TRAPn_INFO, F.CORE_TRAP_ADDRn_ADDR]

/-- The trap registers of the other threads, and the core's other registers. -/
theorem State.get_recordTrap_other (r : TrapInfo) {f : Fld} {k : Nat} (hk : k < 2 ^ 12)
    (h : f.id ∉ trapFields.map Fld.id ∨ k ≠ n.val) : (s.recordTrap c n r).get f c.toNat k = s.get f c.toNat k := by
  have hother : ∀ {s : State} {g : Fld} (v : Nat), g.id ∈ trapFields.map Fld.id →
      (s.put g v c.toNat n.val).get f c.toNat k = s.get f c.toNat k := by
    intro s g v hg
    rcases h with hf | hkn
    · exact State.get_put_field _ v (fun e => hf (e ▸ hg)) c.isLt c.isLt (by omega) hk
    · refine State.get_put_key s v fun e => hkn ?_
      simp only [fldKey] at e
      omega
  unfold State.recordTrap
  iterate 8 rw [hother _ (by decide)]

theorem State.thread_recordTrap (r : TrapInfo) (d : Lcn) (m : Fin 4) :
    (s.recordTrap c n r).thread d m = s.thread d m := by
  simp [State.recordTrap]

/-! ### What a trap brings -/

/-- A thread is halted by a request, or rests. -/
theorem ThreadState.runs_or_rests (st : ThreadState) :
    (st = .running ∨ st = .stalled ∨ st = .waiting) ∨ (st = .stopped ∨ st = .halted ∨ st = .trapped) := by
  cases st <;> decide

/-- A thread that a halt request has met. -/
def Thread.halted (th : Thread) : Thread :=
  if th.st = .running ∨ th.st = .stalled ∨ th.st = .waiting then { th with st := .halted, former := th.st } else th

theorem State.thread_haltThread (s : State) (c : Lcn) (m : Fin 4) (d : Lcn) (k : Fin 4) :
    (s.haltThread c m).thread d k = if d = c ∧ k = m then (s.thread d k).halted else s.thread d k := by
  unfold Thread.halted
  by_cases hruns : (s.thread c m).st = .running ∨ (s.thread c m).st = .stalled ∨ (s.thread c m).st = .waiting
  · rw [State.haltThread_of_runs hruns]
    split
    case isTrue h =>
      obtain ⟨rfl, rfl⟩ := h
      rw [State.thread_setThread_same, if_pos hruns]
    case isFalse h => exact State.thread_setThread_other _ _ h
  · rw [State.haltThread_of_rests ((s.thread c m).st.runs_or_rests.resolve_left hruns)]
    split
    case isTrue h =>
      obtain ⟨rfl, rfl⟩ := h
      rw [if_neg hruns]
    case isFalse h => rfl

theorem State.haltThread_only (s : State) (c : Lcn) (m : Fin 4) :
    s.trapOnly (s.haltThread c m) ∧ (s.haltThread c m).regs = s.regs := by
  rcases (s.thread c m).st.runs_or_rests with h | h
  · rw [State.haltThread_of_runs h]
    exact ⟨rfl, rfl⟩
  · rw [State.haltThread_of_rests h]
    exact ⟨rfl, rfl⟩

/-- The other threads of a core halt. -/
def State.haltOthers (s : State) (c : Lcn) (n : Fin 4) (l : List (Fin 4)) : State :=
  l.foldl (fun s u => if u = n then s else s.haltThread c u) s

theorem State.haltOthers_only (c : Lcn) (n : Fin 4) : ∀ (l : List (Fin 4)) (s : State),
    s.trapOnly (s.haltOthers c n l) ∧ (s.haltOthers c n l).regs = s.regs
  | [], _ => ⟨rfl, rfl⟩
  | m :: l, s => by
    rw [State.haltOthers, List.foldl_cons]
    by_cases h : m = n
    · rw [if_pos h]
      exact State.haltOthers_only c n l s
    · rw [if_neg h]
      obtain ⟨honly, hregs⟩ := State.haltOthers_only c n l (s.haltThread c m)
      obtain ⟨hhalt, hhregs⟩ := s.haltThread_only c m
      exact ⟨hhalt.trans honly, hregs.trans hhregs⟩

theorem State.thread_haltOthers (c : Lcn) (n : Fin 4) (d : Lcn) (m : Fin 4) : ∀ (l : List (Fin 4)), l.Nodup →
    ∀ s : State, (s.haltOthers c n l).thread d m =
      if d = c ∧ m ∈ l ∧ m ≠ n then (s.thread d m).halted else s.thread d m
  | [], _, _ => by simp [State.haltOthers]
  | k :: l, hl, s => by
    obtain ⟨hk, hl⟩ := List.nodup_cons.1 hl
    rw [State.haltOthers, List.foldl_cons, ← State.haltOthers, State.thread_haltOthers c n d m l hl]
    by_cases hkn : k = n
    · subst hkn
      by_cases hmk : m = k <;> simp [hmk]
    · by_cases hmk : m = k
      · subst hmk
        simp [hkn, hk, State.thread_haltThread]
      · simp [hkn, hmk, State.thread_haltThread]

/-- The event of a trap: no thread changes, and no register but the overflow flags of the event queues. -/
theorem State.raiseTrap_only (s : State) (c : Lcn) (n : Fin 4) :
    s.trapOnly (s.raiseTrap c n) ∧ (s.raiseTrap c n).threads = s.threads ∧
      ∀ (f : Fld) (u k : Nat), f.id < 64 → u < 2 ^ 20 → k < 2 ^ 12 → (s.raiseTrap c n).get f u k = s.get f u k := by
  unfold State.raiseTrap
  split
  case h_1 => exact ⟨rfl, rfl, fun _ _ _ _ _ _ => rfl⟩
  case h_2 slot o _ =>
    split
    case h_2 => exact ⟨rfl, rfl, fun _ _ _ _ _ _ => rfl⟩
    case h_1 =>
      have hlost : ∀ (f g : Fld) (u k ld : Nat), f.id < 64 → u < 2 ^ 20 → k < 2 ^ 12 → 64 ≤ g.id →
          fldKey f u k ≠ fldKey g ld 0 := by
        intro f g u k ld hf hu hk hg
        simp only [fldKey]
        omega
      unfold State.raise State.raiseEvent
      split
      · refine ⟨rfl, rfl, fun f u k hf hu hk => ?_⟩
        change (State.loseEvent s o.ld).get f u k = _
        rw [State.loseEvent, State.addMax, State.get_put_key _ _ (hlost f _ u k o.ld hf hu hk (by decide)),
          State.get_put_key _ _ (hlost f _ u k o.ld hf hu hk (by decide))]
      · exact ⟨rfl, rfl, fun _ _ _ _ _ _ => rfl⟩

/-- What a trap brings once it is recorded. -/
theorem State.announceTrap_only (s : State) (c : Lcn) (n : Fin 4) :
    s.trapOnly (s.announceTrap c n) ∧
      (∀ d m, (s.announceTrap c n).thread d m =
        if s.flag F.CORE_TRAPCTL_STOP_CORE c.toNat = true ∧ d = c ∧ m ≠ n then (s.thread d m).halted
        else s.thread d m) ∧
      ∀ (f : Fld) (u k : Nat), f.id < 64 → u < 2 ^ 20 → k < 2 ^ 12 → (s.announceTrap c n).get f u k = s.get f u k := by
  have hraise : ∀ t : State, s.trapOnly t → t.regs = s.regs →
      let e := if t.flag F.CORE_TRAPCTL_EVT_EN c.toNat then t.raiseTrap c n else t
      s.trapOnly e ∧ (∀ d m, e.thread d m = t.thread d m) ∧
        ∀ (f : Fld) (u k : Nat), f.id < 64 → u < 2 ^ 20 → k < 2 ^ 12 → e.get f u k = s.get f u k := by
    intro t honly hregs e
    have hget : ∀ f u k, t.get f u k = s.get f u k := fun f u k => by rw [State.get, hregs]; rfl
    obtain ⟨hro, hrt, hrg⟩ := t.raiseTrap_only c n
    by_cases he : t.flag F.CORE_TRAPCTL_EVT_EN c.toNat = true
    · simp only [e, if_pos he]
      exact ⟨honly.trans hro, fun d m => by rw [State.thread, hrt]; rfl,
        fun f u k hf hu hk => (hrg f u k hf hu hk).trans (hget f u k)⟩
    · simp only [e, if_neg he]
      exact ⟨honly, fun _ _ => trivial, fun f u k _ _ _ => hget f u k⟩
  unfold State.announceTrap
  by_cases hstop : s.flag F.CORE_TRAPCTL_STOP_CORE c.toNat = true
  · obtain ⟨honly, hregs⟩ := State.haltOthers_only c n allThreads s
    obtain ⟨ho, ht, hg⟩ := hraise _ honly hregs
    simp only [if_pos hstop]
    refine ⟨ho, fun d m => (ht d m).trans ?_, hg⟩
    rw [State.thread_haltOthers c n d m allThreads (by decide)]
    simp [hstop, mem_allThreads m]
  · obtain ⟨ho, ht, hg⟩ := hraise s rfl rfl
    simp only [if_neg hstop]
    refine ⟨ho, fun d m => (ht d m).trans ?_, hg⟩
    simp [hstop]

/-- Settles O11: a trap is its record (`get_recordTrap_same`), its own thread's new state, and what it brings
(`announceTrap_only`). -/
theorem trapEntry : Obligations.TrapEntry := by
  unfold Obligations.TrapEntry
  intro s c n r th u
  refine ⟨fun hst hcause hsub hpc hinfo haddr => ?_, fun hst => ?_, fun hst => ?_, fun hst => ?_⟩
  · intro t
    have htrap : t = _ := State.trap_eq hst r
    rw [htrap]
    generalize hrec : (s.recordTrap c n r).setThread c n { th with st := .trapped, wait := none, stall := 0 } = v
    have hget : ∀ f u k, v.get f u k = (s.recordTrap c n r).get f u k := fun f u k => by rw [← hrec]; rfl
    obtain ⟨honly, hthread, hkept⟩ := v.announceTrap_only c n
    have hown : ∀ (f : Fld) (m : Fin 4), f.id < 64 →
        (v.announceTrap c n).get f u m = (s.recordTrap c n r).get f u m :=
      fun f m hf => (hkept f u m hf c.isLt (by omega)).trans (hget f u m)
    have hstop : v.flag F.CORE_TRAPCTL_STOP_CORE u = decide (s.get F.CORE_TRAPCTL_STOP_CORE u = 1) := by
      rw [State.flag, hget, State.get_recordTrap_other r (by decide) (.inl (by decide))]
    obtain ⟨hc, hs, hr, hm, hv, hp, hi, ha⟩ := State.get_recordTrap_same (s := s) (n := n) r hcause hsub hpc hinfo haddr
    refine ⟨(hown _ n (by decide)).trans hc, (hown _ n (by decide)).trans hs, (hown _ n (by decide)).trans hr,
      (hown _ n (by decide)).trans hm, (hown _ n (by decide)).trans hv, (hown _ n (by decide)).trans hp,
      (hown _ n (by decide)).trans hi, (hown _ n (by decide)).trans ha, ?_, fun m hmn => ?_, fun d m hd => ?_,
      fun m hmn => ⟨?_, ?_⟩, ?_⟩
    · rw [hthread, if_neg (by simp), ← hrec, State.thread_setThread_same]
    · have hvm : v.thread c m = s.thread c m := by
        rw [← hrec, State.thread_setThread_other _ _ (by simp [hmn]), State.thread_recordTrap]
      rw [hthread, hvm, hstop, Thread.halted]
      by_cases hs : s.get F.CORE_TRAPCTL_STOP_CORE u = 1 <;> simp [hs, hmn]
    · rw [hthread, if_neg (by simp [hd]), ← hrec, State.thread_setThread_other _ _ (by simp [hd]),
        State.thread_recordTrap]
    · exact (hown _ m (by decide)).trans (State.get_recordTrap_other r (by omega) (.inr (Fin.val_ne_of_ne hmn)))
    · exact (hown _ m (by decide)).trans (State.get_recordTrap_other r (by omega) (.inr (Fin.val_ne_of_ne hmn)))
    · refine State.trapOnly.trans (t := v) ?_ honly
      rw [← hrec]
      exact (State.recordTrap_only r).trans (State.trapOnly_setThread _ _ _ _)
  · simp only [State.trap, show (s.thread c n).st = .trapped from hst]
    rfl
  · simp only [State.trapResponse, show (s.thread c n).st = .stopped from hst]
    rfl
  · unfold State.trapResponse
    cases h : (s.thread c n).st with
    | stopped => exact absurd h hst
    | running | stalled | waiting | halted | trapped => rfl

end Sys2Proof.Machine
end

section
/-!
PROOFS. Polls and frees of a bobbin (O28), with the rules that the instructions on own SRAM share.
-/

namespace Sys2Proof.Machine

section
variable {s : State} {x : Issue} {regs : List RegRef} {len : Nat}

/-- An instruction of a ready thread that leaves its thread with the registers and the fields of `th'`. -/
theorem State.issue_leaves (h : s.ready x regs len) (act : Thread → State → Act) (always : Bool) (needs : Needs)
    {u : State} {th th' : Thread} {pc : Nat} (hst : th.st = .running) (hth : th.retiredAt pc = th'.retiredAt pc)
    (ha : act (s.issuer x).issuing (s.setThread x.core x.thread (s.issuer x).issuing) =
      .done (u.setThread x.core x.thread th) pc) :
    s.issue x len regs none act always needs = u.after x th' pc := by
  rw [State.issue_after h act always needs hst ha, State.after, State.after, hth]

/-- An instruction of a ready thread that issues and whose own access then brings a response trap. -/
theorem State.issue_late (h : s.ready x regs len) (act : Thread → State → Act) (always : Bool) (needs : Needs)
    {u : State} {pc : Nat} {r : TrapInfo}
    (ha : act (s.issuer x).issuing (s.setThread x.core x.thread (s.issuer x).issuing) =
      .late (u.setThread x.core x.thread (s.issuer x).issuing) pc r) :
    s.issue x len regs none act always needs =
      (u.after x (s.issuer x) pc).trap x.core x.thread { r with resp := true } := by
  have hact : act { s.thread x.core x.thread with st := .running, stall := 0 }
      (s.setThread x.core x.thread { s.thread x.core x.thread with st := .running, stall := 0 }) =
        .late (u.setThread x.core x.thread (s.issuer x).issuing) pc r := ha
  rw [State.issue_enacts h.1 (.inr h.2)]
  simp only [State.enact, hact]
  have hretire : (u.setThread x.core x.thread (s.issuer x).issuing).retire x.core x.thread pc =
      u.after x (s.issuer x) pc := by
    rw [State.retire, State.thread_setThread_same]
    exact State.setThread_setThread u x.core x.thread rfl rfl
  rw [hretire, State.trapResponse, State.after, State.thread_setThread_same]
  rfl

end

theorem firstTrap_one (b : Bool) (r : TrapInfo) : firstTrap [(b, r)] = if b then some r else none := by
  cases b <;> rfl

theorem State.ownOffset_own {s : State} {c : Lcn} {a : Word} {k : Nat} (ha : a.toNat = (s.seenLcn c).toNat * 2 ^ 16 + k)
    (hk : k < 2 ^ 16) : s.ownOffset c a = some k := by
  rw [State.ownOffset, State.target_own ha hk]

/-- Every byte lies in a tile that passes its check. -/
theorem State.badAmong_none {s : State} {c : Lcn} {off n : Nat}
    (h : ∀ j, off ≤ j → j < off + n → s.tileGood c (j / 256) = true) : s.badAmong c off n = none := by
  rw [State.badAmong]
  split
  · rfl
  · rw [List.find?_eq_none]
    intro t ht
    simp only [List.mem_cons, List.not_mem_nil, or_false] at ht
    rcases ht with rfl | rfl
    · simp [h off le_rfl (by omega)]
    · simp [h (off + n - 1) (by omega) (by omega)]

/-! ### The bobbin that an instruction names (09 R357) -/

section
variable {s : State} {x : Issue} {a : Fin 16} {k : Nat}

theorem State.bobbinTrap_eq (ha : ((s.issuer x).readA a).toNat = (s.seenLcn x.core).toNat * 2 ^ 16 + k)
    (hk : k < 2 ^ 16) (hal : k % 32 = 0) (hgood : s.tileGood x.core (k / 256) = true) :
    s.bobbinTrap x (s.issuer x) a =
      if (s.bobbin x.core k).enable && (s.bobbin x.core k).formed then none
      else some { cause := 9, sub := 1, pc := (s.issuer x).pc, addr := ((s.issuer x).readA a).toNat } := by
  simp only [State.bobbinTrap, State.ownOffset_own ha hk, firstTrap_one, hal, hgood]
  cases (s.bobbin x.core k).enable && (s.bobbin x.core k).formed <;> simp

end

/-! A write of a register and the issue pass each other by. -/

theorem Thread.writeS_issuing (th : Thread) (r : Fin 32) (v : Word) :
    th.issuing.writeS r v = (th.writeS r v).issuing := by
  unfold Thread.writeS; split <;> rfl

theorem Thread.writeP_issuing (th : Thread) (r : Fin 8) (v : Bool) :
    th.issuing.writeP r v = (th.writeP r v).issuing := by
  unfold Thread.writeP; split <;> rfl

theorem Thread.writeA_issuing (th : Thread) (r : Fin 16) (v : Word) :
    th.issuing.writeA r v = (th.writeA r v).issuing := rfl

theorem Thread.writeT_issuing (th : Thread) (r : Fin 8) (v : Tile) :
    th.issuing.writeT r v = (th.writeT r v).issuing := rfl

/-! What a change of a thread passes by. -/

theorem State.setThread_issuing (s : State) (c : Lcn) (n : Fin 4) (th : Thread) {th' : Thread} (h : th'.st = .running) :
    (s.setThread c n th.issuing).setThread c n th' = s.setThread c n th' :=
  s.setThread_setThread c n rfl h

section
variable (s : State) (c d : Lcn) (n : Fin 4) (th : Thread)

@[simp] theorem State.tileGood_setThread (tile : Nat) : (s.setThread c n th).tileGood d tile = s.tileGood d tile := rfl
@[simp] theorem State.readSram_setThread (off k : Nat) : (s.setThread c n th).readSram d off k = s.readSram d off k := rfl
@[simp] theorem State.bobbin_setThread (off : Nat) : (s.setThread c n th).bobbin d off = s.bobbin d off := rfl
@[simp] theorem State.seenLcn_setThread : (s.setThread c n th).seenLcn d = s.seenLcn d := rfl
@[simp] theorem State.flag_setThread (f : Fld) (u k : Nat) : (s.setThread c n th).flag f u k = s.flag f u k := rfl
@[simp] theorem State.badAmong_setThread (off k : Nat) :
    (s.setThread c n th).badAmong d off k = s.badAmong d off k := rfl
@[simp] theorem State.releasedHead_setThread (b : Bobbin) :
    (s.setThread c n th).releasedHead d b = s.releasedHead d b := rfl
@[simp] theorem State.bobbinTrap_setThread (x : Issue) (a : Fin 16) (th' : Thread) :
    (s.setThread c n th).bobbinTrap x th'.issuing a = s.bobbinTrap x th' a := rfl

theorem State.setCore_setThread (k : Core) :
    (s.setThread c n th).setCore d k = (s.setCore d k).setThread c n th := rfl

theorem State.noteBobbin_setThread (off : Nat) (b : Bool) :
    (s.setThread c n th).noteBobbin d off (some b) = (s.noteBobbin d off (some b)).setThread c n th :=
  s.setCore_setThread ..

theorem State.put_setThread (f : Fld) (v u k : Nat) :
    (s.setThread c n th).put f v u k = (s.put f v u k).setThread c n th := rfl

theorem State.noteWrite_setThread (tile : Nat) :
    (s.setThread c n th).noteWrite d tile = (s.noteWrite d tile).setThread c n th := by
  rw [State.noteWrite, State.noteWrite, State.core_setThread]
  by_cases h : ((s.core d).queue.isEmpty && (s.core d).array.isNone) = true
  · simp only [if_pos h]
  · simp only [if_neg h, State.setCore_setThread]

theorem State.writeSram_setThread (off v k : Nat) :
    (s.setThread c n th).writeSram d off v k = (s.writeSram d off v k).setThread c n th := by
  rw [State.writeSram, State.noteWrite_setThread]
  rfl

end

/-! ### mpoll (03 R125, R126; 09 R358, R360) -/

section
variable {s : State} {x : Issue} {pd : Fin 8} {a : Fin 16} {k : Nat}
  (ha : ((s.issuer x).readA a).toNat = (s.seenLcn x.core).toNat * 2 ^ 16 + k) (hk : k < 2 ^ 16) (hal : k % 32 = 0)
  (hgood : s.tileGood x.core (k / 256) = true)
include ha hk hal hgood

theorem exec_mpoll_refused (h : s.ready x [.s 31])
    (hbad : ((s.bobbin x.core k).enable && (s.bobbin x.core k).formed) = false) :
    exec (.mpoll x pd a) s = .next (s.trap x.core x.thread
      { cause := 9, sub := 1, pc := (s.issuer x).pc, addr := ((s.issuer x).readA a).toNat }) := by
  have htrap := State.bobbinTrap_eq ha hk hal hgood
  exact congrArg Host.Outcome.next (State.issue_traps h _ false .none (by simp [htrap, hbad]))

theorem exec_mfree_refused (h : s.ready x [])
    (hbad : ((s.bobbin x.core k).enable && (s.bobbin x.core k).formed) = false) :
    exec (.mfree x a) s = .next (s.trap x.core x.thread
      { cause := 9, sub := 1, pc := (s.issuer x).pc, addr := ((s.issuer x).readA a).toNat }) := by
  have htrap := State.bobbinTrap_eq ha hk hal hgood
  exact congrArg Host.Outcome.next (State.issue_traps h _ false .none (by simp [htrap, hbad]))

variable (hb : ((s.bobbin x.core k).enable && (s.bobbin x.core k).formed) = true)
include hb

/-- The checks of a poll or a free that the statement's bobbin passes. -/
theorem State.bobbin_passes : s.bobbinTrap x (s.issuer x) a = none ∧ ((s.issuer x).readA a).toNat % 65536 = k :=
  ⟨by rw [State.bobbinTrap_eq ha hk hal hgood, if_pos hb], by omega⟩

theorem exec_mpoll_empty (h : s.ready x [.s 31]) (hready : (s.bobbin x.core k).ready = 0) :
    exec (.mpoll x pd a) s = .next ((s.noteBobbin x.core k (some true)).after x ((s.issuer x).writeP pd false)
      ((s.issuer x).pc + 4)) := by
  obtain ⟨htrap, hoff⟩ := State.bobbin_passes ha hk hal hgood hb
  refine congrArg Host.Outcome.next (State.issue_leaves (th := (s.issuer x).issuing.writeP pd false) h _ false .none
    (by simp) (by simp) ?_)
  simp [htrap, hoff, hgood, hready, State.noteBobbin_setThread, State.setThread_issuing]

variable (hready : (s.bobbin x.core k).ready ≠ 0) {handler : Nat}
include hready

/-- A handler that is not marked valid brings the message trap behind the poll. -/
theorem exec_mpoll_invalid (h : s.ready x [.s 31])
    (hrec : s.tileGood x.core (((s.bobbin x.core k).base * 256 + (s.bobbin x.core k).head) / 256) = true)
    (hh : s.readSram x.core ((s.bobbin x.core k).base * 256 + (s.bobbin x.core k).head + 2) 1 % 64 = handler)
    (hvalid : s.flag F.BOB_HANDLERn_VALID x.core.toNat handler = false) :
    exec (.mpoll x pd a) s = .next ((s.after x (s.issuer x) ((s.issuer x).pc + 4)).trap x.core x.thread
      { cause := 9, sub := 2, resp := true, pc := (s.issuer x).pc, info := handler,
        addr := ((s.issuer x).readA a).toNat }) := by
  obtain ⟨htrap, hoff⟩ := State.bobbin_passes ha hk hal hgood hb
  refine congrArg Host.Outcome.next (State.issue_late (u := s)
    (r := ⟨9, 2, false, (s.issuer x).pc, handler, ((s.issuer x).readA a).toNat, false⟩) h _ false .none ?_)
  simp [htrap, hoff, hgood, hready, hrec, hh, hvalid]

theorem exec_mpoll_dispatches (h : s.ready x [.s 31])
    (hrec : s.tileGood x.core (((s.bobbin x.core k).base * 256 + (s.bobbin x.core k).head) / 256) = true)
    (hh : s.readSram x.core ((s.bobbin x.core k).base * 256 + (s.bobbin x.core k).head + 2) 1 % 64 = handler)
    (hvalid : s.flag F.BOB_HANDLERn_VALID x.core.toNat handler = true) :
    exec (.mpoll x pd a) s = .next ((s.noteBobbin x.core k (some false)).after x
      ((((s.issuer x).writeP pd true).writeS 31 (BitVec.ofNat 64 ((s.issuer x).pc + 4))).writeA 15
        (BitVec.ofNat 64 ((s.seenLcn x.core).toNat * 65536 +
          ((s.bobbin x.core k).base * 256 + (s.bobbin x.core k).head) + 16)))
      (s.get F.BOB_HANDLERn_ADDR x.core.toNat handler * 4)) := by
  obtain ⟨htrap, hoff⟩ := State.bobbin_passes ha hk hal hgood hb
  refine congrArg Host.Outcome.next (State.issue_leaves h _ false .none ?_ ?_
    (th := (((s.issuer x).issuing.writeP pd true).writeS 31 (BitVec.ofNat 64 ((s.issuer x).pc + 4))).writeA 15
      (BitVec.ofNat 64 ((s.seenLcn x.core).toNat * 65536 +
          ((s.bobbin x.core k).base * 256 + (s.bobbin x.core k).head) + 16))) ?_)
  · simp
  · rw [Thread.writeP_issuing, Thread.writeS_issuing, Thread.writeA_issuing, Thread.issuing_retiredAt]
  · simp [htrap, hoff, hgood, hready, hrec, hh, hvalid, State.noteBobbin_setThread, State.setThread_issuing]

end

/-! ### mfree (09 R361) -/

section
variable {s : State} {x : Issue} {a : Fin 16} {k : Nat} (h : s.ready x [])
  (ha : ((s.issuer x).readA a).toNat = (s.seenLcn x.core).toNat * 2 ^ 16 + k) (hk : k < 2 ^ 16) (hal : k % 32 = 0)
  (hgood : s.tileGood x.core (k / 256) = true)
  (hb : ((s.bobbin x.core k).enable && (s.bobbin x.core k).formed) = true)
include h ha hk hal hgood hb

theorem exec_mfree_empty (hready : (s.bobbin x.core k).ready = 0) :
    exec (.mfree x a) s = .next ((s.put F.BOB_STAT_FREE_EMPTY 1 x.core.toNat).after x (s.issuer x)
      ((s.issuer x).pc + 4)) := by
  obtain ⟨htrap, hoff⟩ := State.bobbin_passes ha hk hal hgood hb
  refine congrArg Host.Outcome.next (State.issue_leaves (th := (s.issuer x).issuing) h _ false .none rfl rfl ?_)
  simp [htrap, hoff, hgood, hready, State.put_setThread]

theorem exec_mfree_releases (hready : (s.bobbin x.core k).ready ≠ 0)
    (hrec : ∀ j, (s.bobbin x.core k).base * 256 + (s.bobbin x.core k).head ≤ j →
      j < (s.bobbin x.core k).base * 256 + (s.bobbin x.core k).head + 8 → s.tileGood x.core (j / 256) = true) :
    exec (.mfree x a) s = .next ((s.writeStatus x.core k { s.bobbin x.core k with
      head := s.releasedHead x.core (s.bobbin x.core k), ready := (s.bobbin x.core k).ready - 1 }).after x (s.issuer x)
      ((s.issuer x).pc + 4)) := by
  obtain ⟨htrap, hoff⟩ := State.bobbin_passes ha hk hal hgood hb
  refine congrArg Host.Outcome.next (State.issue_leaves (th := (s.issuer x).issuing) h _ false .none rfl rfl ?_)
  simp [htrap, hoff, hgood, hready, State.badAmong_none hrec, State.writeStatus, State.writeSram_setThread]

end

/-- Settles O28: a poll or a free by the state of its bobbin: refused (`exec_mpoll_refused`), with no record
(`exec_mpoll_empty`), or with one (`exec_mpoll_dispatches`, `exec_mfree_releases`). -/
theorem pollAndFree : Obligations.PollAndFree := by
  unfold Obligations.PollAndFree
  intro x pd a k s h th c seen ha hk hal hgood b record handler
  have ha' : (th.readA a).toNat = (s.seenLcn c).toNat * 2 ^ 16 + k := by rw [seenLcn_eq]; exact ha
  have hread : ∀ off n, s.readSram c off n = readLE s.sram 0 (c.toNat * 2 ^ 16 + off) n := fun _ _ => rfl
  have hfree : s.ready x [] := h.mono (by simp) le_rfl
  refine ⟨fun hen hf => ⟨fun hready => ?empty, fun hready hrec => ?record⟩, fun hbad => ?refused⟩
  case empty =>
    have hb : (b.enable && b.formed) = true := by rw [hen, hf]; rfl
    exact ⟨exec_mpoll_empty ha' hk hal hgood hb h hready, exec_mfree_empty hfree ha' hk hal hgood hb hready⟩
  case record =>
    have hb : (b.enable && b.formed) = true := by rw [hen, hf]; rfl
    have hh : s.readSram c (record + 2) 1 % 64 = handler := by
      rw [hread, ← Nat.add_assoc]
    refine ⟨fun hvalid => ?_, fun hvalid => ?_, fun hgoods => ?_⟩
    · rw [exec_mpoll_dispatches ha' hk hal hgood hb hready h hrec hh (decide_eq_true hvalid), seenLcn_eq]
      rfl
    · exact exec_mpoll_invalid ha' hk hal hgood hb hready h hrec hh (decide_eq_false hvalid)
    · intro after wrapped marker head
      have hhead : s.releasedHead c b = head := by
        simp only [State.releasedHead, Bobbin.size, hread, ← Nat.add_assoc, head, marker, wrapped, after,
          record, b]
      rw [exec_mfree_releases hfree ha' hk hal hgood hb hready hgoods, hhead]
  case refused =>
    have hb : (b.enable && b.formed) = false := by
      rcases hbad with h | h <;> simp [h]
    exact ⟨exec_mpoll_refused ha' hk hal hgood h hb, exec_mfree_refused ha' hk hal hgood hfree hb⟩

end Sys2Proof.Machine
end

section
/-!
PROOFS. The issue traps of accesses (O9).
-/

namespace Sys2Proof.Machine

/-! ### Where an address leads (03 Table 3.8) -/

/-- An address that 03 Table 3.8 gives a target. -/
def Mapped (v : Nat) : Prop :=
  (v / 2 ^ 48 = 0 ∧ v < 2 ^ 36) ∨ (v / 2 ^ 48 = 1 ∧ v % 2 ^ 48 < 2 ^ 46) ∨ v / 2 ^ 48 = 2 ∨ v / 2 ^ 48 = 0xFF

section
variable (s : State) (c : Lcn) (a : Word)

theorem State.target_sram (h : a.toNat < 2 ^ 36) : s.target c a =
    if BitVec.ofNat 20 (a.toNat / 2 ^ 16) = s.seenLcn c then .own (a.toNat % 65536)
    else .remote (BitVec.ofNat 20 (a.toNat / 2 ^ 16)) := by
  have htop : a.toNat / 2 ^ 48 = 0 := by omega
  have hzero : bits a.toNat 47 36 = 0 := by rw [bits]; omega
  have hcore : bits a.toNat 35 16 = a.toNat / 2 ^ 16 := by rw [bits]; omega
  simp only [State.target, htop, hzero, hcore, if_true]

theorem State.target_far (htop : a.toNat / 2 ^ 48 = 1) (h : a.toNat % 2 ^ 48 < 2 ^ 46) : s.target c a = .far := by
  have hzero : bits a.toNat 47 46 = 0 := by rw [bits]; omega
  simp only [State.target, htop, hzero]
  rfl

theorem State.target_host (htop : a.toNat / 2 ^ 48 = 2) : s.target c a = .host := by
  simp only [State.target, htop]
  rfl

theorem State.target_space (htop : a.toNat / 2 ^ 48 = 0xFF) :
    (∃ o, s.target c a = .ownWindow o) ∨ s.target c a = .registers := by
  simp only [State.target, htop]
  rw [if_neg (by decide), if_neg (by decide), if_neg (by decide), if_pos trivial]
  split_ifs
  · exact .inl ⟨_, rfl⟩
  · exact .inl ⟨_, rfl⟩
  · exact .inr rfl

theorem State.target_nowhere (h : ¬Mapped a.toNat) : s.target c a = .nowhere := by
  simp only [Mapped, not_or, not_and] at h
  obtain ⟨hsram, hfar, hhost, hspace⟩ := h
  simp only [State.target]
  by_cases h0 : a.toNat / 2 ^ 48 = 0
  · have hne : bits a.toNat 47 36 ≠ 0 := by
      have := hsram h0
      rw [bits]; omega
    simp only [h0, hne, if_true, if_false]
  · by_cases h1 : a.toNat / 2 ^ 48 = 1
    · have hne : bits a.toNat 47 46 ≠ 0 := by
        have := hfar h1
        rw [bits]; omega
      simp only [h1, hne]
      rfl
    · simp only [h0, h1, hhost, hspace, if_false]

variable {a}

theorem State.target_mapped (h : Mapped a.toNat) : s.target c a ≠ .nowhere := by
  rcases h with ⟨_, h⟩ | ⟨htop, h⟩ | htop | htop
  · rw [s.target_sram c a h]
    split <;> exact Target.noConfusion
  · rw [s.target_far c a htop h]
    exact Target.noConfusion
  · rw [s.target_host c a htop]
    exact Target.noConfusion
  · rcases s.target_space c a htop with ⟨o, h⟩ | h <;> rw [h] <;> exact Target.noConfusion

/-- A target refuses atomics outside SRAM, and other sizes than 8 bytes in register space. -/
theorem State.refuses_iff (h : Mapped a.toNat) (n : Nat) (atomic : Bool) :
    (s.target c a).refuses n atomic = true ↔
      (atomic = true ∧ a.toNat / 2 ^ 48 ≠ 0) ∨ (a.toNat / 2 ^ 48 = 0xFF ∧ n ≠ 8) := by
  rcases h with ⟨htop, h⟩ | ⟨htop, h⟩ | htop | htop
  · rw [s.target_sram c a h, htop]
    split <;> simp [Target.refuses]
  · rw [s.target_far c a htop h, htop]
    simp [Target.refuses]
  · rw [s.target_host c a htop, htop]
    simp [Target.refuses]
  · rcases s.target_space c a htop with ⟨o, h⟩ | h <;> rw [h, htop] <;> simp [Target.refuses]

/-- The core that an address outside the issuing core's own SRAM and window names. -/
theorem State.target_names {d : Lcn} (hown : d ≠ s.seenLcn c) (hcd : d ≠ c)
    (h : a.toNat / 2 ^ 48 = 0 ∧ a.toNat / 2 ^ 16 = d.toNat ∨ a.toNat / 2 ^ 48 = 0xFF ∧
      0x100000000 + d.toNat * 0x4000 ≤ a.toNat % 2 ^ 48 ∧ a.toNat % 2 ^ 48 < 0x100000000 + (d.toNat + 1) * 0x4000) :
    (s.target c a).core a = some d := by
  have hd : d.toNat < 2 ^ 20 := d.isLt
  have hdc : d.toNat ≠ c.toNat := fun h => hcd (BitVec.eq_of_toNat_eq h)
  rcases h with ⟨htop, hlcn⟩ | ⟨htop, hlo, hhi⟩
  · rw [s.target_sram c a (by omega), hlcn, BitVec.ofNat_toNat, BitVec.setWidth_eq, if_neg hown]
    rfl
  · have hregs : s.target c a = .registers := by
      simp only [State.target, htop]
      rw [if_neg (by decide), if_neg (by decide), if_neg (by decide), if_pos trivial, if_neg (by omega), if_neg (by omega)]
    have hcore : registerCore (a.toNat % 2 ^ 48) = some d := by
      rw [registerCore, if_pos (by omega)]
      have : (a.toNat % 2 ^ 48 - 0x100000000) / 0x4000 = d.toNat := by omega
      rw [this, BitVec.ofNat_toNat, BitVec.setWidth_eq]
    rw [hregs]
    exact hcore

end

/-! ### The first trap of an access (03 R111, R136) -/

/-- The gusset core that a target names. -/
def Target.gusset (g : Target) (a : Word) : Option Lcn :=
  match g.core a with
  | some d => if isGusset d then some d else none
  | none => none

theorem Target.gusset_of_core {g : Target} {a : Word} {d : Lcn} (hd : g.core a = some d) (hg : isGusset d = true) :
    g.gusset a = some d := by
  simp only [Target.gusset, hd, hg, if_true]

theorem firstTrap_skip (r : TrapInfo) (l : List (Bool × TrapInfo)) : firstTrap ((false, r) :: l) = firstTrap l := rfl

section
variable {s : State} {c : Lcn} {pc : Nat} {a : Word} {n : Nat} {atomic : Bool}

theorem State.accessTrap_misaligned (h : a.toNat % n ≠ 0) : ∃ multi, s.accessTrap c pc a n atomic =
    some { cause := 2, sub := 0, pc, info := n, addr := a.toNat, multi } := by
  rw [State.accessTrap, bne_iff_ne.2 h]
  exact firstTrap_head _ _

theorem State.accessTrap_unmapped (hal : a.toNat % n = 0) (h : ¬Mapped a.toNat) : ∃ multi,
    s.accessTrap c pc a n atomic = some { cause := 3, sub := 0, pc, addr := a.toNat, multi } := by
  simp only [State.accessTrap, hal, bne_self_eq_false, firstTrap_skip, s.target_nowhere c a h, beq_self_eq_true]
  exact firstTrap_head _ _

theorem State.accessTrap_mapped (hal : a.toNat % n = 0) (h : Mapped a.toNat) : s.accessTrap c pc a n atomic =
    let gusset := (s.target c a).gusset a
    firstTrap [((s.target c a).refuses n atomic, { cause := 3, sub := 1, pc, addr := a.toNat }),
      (gusset.isSome, { cause := 4, sub := 0, pc, info := (gusset.getD 0).toNat, addr := a.toNat })] := by
  have hne : (s.target c a == Target.nowhere) = false := beq_eq_false_iff_ne.2 (s.target_mapped c h)
  simp only [State.accessTrap, hal, bne_self_eq_false, hne, firstTrap_skip]
  rfl

theorem State.accessTrap_excluded (hal : a.toNat % n = 0) (h : Mapped a.toNat)
    (hex : (s.target c a).refuses n atomic = true) : ∃ multi,
    s.accessTrap c pc a n atomic = some { cause := 3, sub := 1, pc, addr := a.toNat, multi } := by
  simp only [State.accessTrap_mapped hal h, hex]
  exact firstTrap_head _ _

theorem State.accessTrap_gusset (hal : a.toNat % n = 0) (h : Mapped a.toNat)
    (hex : (s.target c a).refuses n atomic = false) {d : Lcn} (hd : (s.target c a).core a = some d)
    (hg : isGusset d = true) :
    s.accessTrap c pc a n atomic = some { cause := 4, sub := 0, pc, info := d.toNat, addr := a.toNat } := by
  simp only [State.accessTrap_mapped hal h, hex, firstTrap_skip, Target.gusset_of_core hd hg]
  rfl

end

/-! ### The accesses that trap -/

section
variable {s : State} {x : Issue}

/-- An instruction is an access where it has not faulted. -/
def State.offersAccess (s : State) (x : Issue) (i : Instr) (q : MemAccess) : Prop :=
  (s.accessTrap x.core (s.issuer x).pc (q.address (s.issuer x)) q.bytes q.atomic).isSome = true →
    ∃ act, exec i s = .next (s.access x q act)

/-- An access of a ready thread that meets an issue trap has no effect but the trap. -/
theorem State.access_traps {q : MemAccess} (h : s.ready x q.regs q.len) {r : TrapInfo}
    (ht : s.accessTrap x.core (s.issuer x).pc (q.address (s.issuer x)) q.bytes q.atomic = some r)
    {i : Instr} (hi : s.offersAccess x i q) : exec i s = .next (s.trap x.core x.thread r) := by
  obtain ⟨act, hexec⟩ := hi (by rw [ht]; rfl)
  have hstall : s.accessStall x (q.address (s.issuer x)) q.bytes q.atomic = none := by
    have ht' : s.accessTrap x.core (s.thread x.core x.thread).pc (q.address (s.issuer x)) q.bytes q.atomic = some r := ht
    simp [State.accessStall, ht']
  have hact : accessAct x q act (s.issuer x).issuing (s.setThread x.core x.thread (s.issuer x).issuing) = .trap r := by
    have ht' : (s.setThread x.core x.thread (s.issuer x).issuing).accessTrap x.core (s.issuer x).issuing.pc
        (q.address (s.issuer x).issuing) q.bytes q.atomic = some r := ht
    simp only [accessAct, ht']
  rw [hexec, State.access_eq, hstall, State.issue_traps h _ false _ hact]

/-- What 03 R111 asks of an access with an effective address, `n` bytes wide: the trap that it takes. -/
def State.trapRules (s : State) (x : Issue) (i : Instr) (ea : Word) (n : Nat) (atomic : Bool) : Prop :=
  let traps (cause sub info : Nat) : Prop := ∃ multi, exec i s =
    .next (s.trap x.core x.thread { cause, sub, pc := (s.issuer x).pc, info, addr := ea.toNat, multi })
  let refused := (s.target x.core ea).refuses n atomic
  (ea.toNat % n ≠ 0 → traps 2 0 n) ∧ (ea.toNat % n = 0 → ¬Mapped ea.toNat → traps 3 0 0) ∧
    (ea.toNat % n = 0 → Mapped ea.toNat → refused = true → traps 3 1 0) ∧
    ∀ d, ea.toNat % n = 0 → Mapped ea.toNat → refused = false → (s.target x.core ea).core ea = some d →
      isGusset d = true → traps 4 0 d.toNat

theorem State.access_trapRules {q : MemAccess} (h : s.ready x q.regs q.len) {i : Instr} (hi : s.offersAccess x i q) :
    s.trapRules x i (q.address (s.issuer x)) q.bytes q.atomic := by
  refine ⟨fun hal => ?_, fun hal hmap => ?_, fun hal hmap href => ?_, fun d hal hmap href hd hg => ?_⟩
  · obtain ⟨multi, ht⟩ := State.accessTrap_misaligned (s := s) (c := x.core) (pc := (s.issuer x).pc) (atomic := q.atomic) hal
    exact ⟨multi, State.access_traps h ht hi⟩
  · obtain ⟨multi, ht⟩ := State.accessTrap_unmapped (s := s) (c := x.core) (pc := (s.issuer x).pc) (atomic := q.atomic)
      hal hmap
    exact ⟨multi, State.access_traps h ht hi⟩
  · obtain ⟨multi, ht⟩ := State.accessTrap_excluded (pc := (s.issuer x).pc) hal hmap href
    exact ⟨multi, State.access_traps h ht hi⟩
  · exact ⟨false, State.access_traps h (State.accessTrap_gusset hal hmap href hd hg) hi⟩

end

/-! ### The instructions that are accesses -/

section
variable (s : State) (x : Issue) (a : Fin 16) (pi f : Bool)

theorem offersAccess_load (signed : Bool) (size : Size) (rd : Fin 32) (off : Off) {i : Instr}
    (hi : exec i s = .next (s.loadOp x size signed rd a pi f off)) : s.offersAccess x i
      { len := off.len, regs := [.s rd], a, pi, off := off.value size.bytes, bytes := size.bytes } := by
  intro _
  rw [hi]
  unfold State.loadOp
  exact ⟨_, rfl⟩

/-- A store whose access traps writes no register, so that none of its values is undefined. -/
theorem offersAccess_store (size : Size) (rd : Fin 32) (off : Off) :
    s.offersAccess x (.st x size rd a pi f off) (storeAccess size rd a pi off) := by
  intro ht
  have ht' : (s.accessTrap x.core (s.thread x.core x.thread).pc ((storeAccess size rd a pi off).address
      (s.thread x.core x.thread)) (storeAccess size rd a pi off).bytes false).isNone = false := by
    rw [← Option.not_isSome]
    exact (Bool.not_eq_false' ..).mpr ht
  have hfault : s.storeFaults x (storeAccess size rd a pi off) rd = false := by
    simp only [State.storeFaults, ht', Bool.and_false, Bool.false_and]
  change ∃ act, execSt .. = _
  rw [execSt, hfault]
  exact ⟨_, rfl⟩

theorem offersAccess_amo (op : Nat) (w4 : Bool) (rd : Fin 32) (off : Off) {i : Instr}
    (hi : exec i s = .next (s.amo op x w4 rd a pi f off)) : s.offersAccess x i
      { len := off.len, regs := if op = 7 then [.s rd, .s (Fin.ofNat 32 (rd.val + 1))] else [.s rd], a, pi,
        off := off.value (amoBytes w4), bytes := amoBytes w4, atomic := true } := by
  intro _
  rw [hi]
  unfold State.amo
  exact ⟨_, rfl⟩

end

/-- The next register of an even one. -/
theorem Fin.next_eq {rd r1 : Fin 32} (h : r1.val = rd.val + 1) : Fin.ofNat 32 (rd.val + 1) = r1 := by
  apply Fin.ext
  rw [← h]
  exact Nat.mod_eq_of_lt r1.isLt

/-- Settles O9: each instruction is an access, whose first trap is by the address (`accessTrap_misaligned` and its kin). A
gusset core issues nothing, so that the core of the issuing thread is another one. -/
theorem accessTraps : Obligations.AccessTraps := by
  unfold Obligations.AccessTraps
  intro x a pi f s o th ea top window mapped excluded gusset traps rules
  have hrules : ∀ {i : Instr} {q : MemAccess}, s.ready x q.regs q.len → s.offersAccess x i q → q.a = a → q.pi = pi →
      q.off = o → rules i q.bytes q.atomic := by
    intro i q h hi ha hpi hoff
    have hea : (q.address th).toNat = ea := by rw [MemAccess.address, ha, hpi, hoff]; rfl
    obtain ⟨hmis, hunm, hexc, hgus⟩ := State.access_trapRules h hi
    have hrefuse := fun hm => s.refuses_iff x.core (a := q.address th) hm q.bytes q.atomic
    have hcore : isGusset x.core = false := by
      have hcan := h.1.1
      simp only [State.canIssue, State.backed, Bool.and_eq_true, Bool.not_eq_true'] at hcan
      obtain ⟨⟨-, ⟨⟨hg, -⟩, -⟩, -⟩, -⟩ := hcan
      exact hg
    have hnames := fun d hown hcd => s.target_names x.core (a := q.address th) (d := d) hown hcd
    rw [hea] at hmis hunm hexc hgus hrefuse hnames
    refine ⟨hmis, hunm, fun hal hmap hex => hexc hal hmap ((hrefuse hmap).2 hex), fun d hal hmap hex hd => ?_⟩
    obtain ⟨hg, hplace, hown⟩ := hd
    refine hgus d hal hmap (Bool.eq_false_iff.2 (mt (hrefuse hmap).1 hex)) (hnames d ?_ ?_ hplace) hg
    · rw [seenLcn_eq]
      exact hown
    · rintro rfl
      rw [hcore] at hg
      exact Bool.false_ne_true hg
  refine ⟨fun size rd off h hoff => ⟨?_, ?_, ?_⟩, fun td off h hoff => ⟨?_, ?_⟩, ?_⟩
  · exact hrules h (offersAccess_load s x a pi f true size rd off rfl) rfl rfl hoff.symm
  · exact hrules h (offersAccess_load s x a pi f false size rd off rfl) rfl rfl hoff.symm
  · exact hrules h (offersAccess_store s x a pi f size rd off) rfl rfl hoff.symm
  · exact hrules h (fun _ => exec_tileLd_access s x td a pi f off) rfl rfl hoff.symm
  · exact hrules h (fun _ => exec_tileSt_access s x td a pi f off) rfl rfl hoff.symm
  · intro w4 rd r1 off h n hoff
    have hone : s.ready x [.s rd] off.len := h.mono (by simp) le_rfl
    have hamo := fun op (hop : op ≠ 7) {i} hi => hrules (i := i) (by rw [if_neg hop]; exact hone)
      (offersAccess_amo s x a pi f op w4 rd off hi) rfl rfl hoff.symm
    refine ⟨hamo 0 (by decide) rfl, hamo 1 (by decide) rfl, hamo 2 (by decide) rfl, hamo 3 (by decide) rfl,
      hamo 4 (by decide) rfl, hamo 5 (by decide) rfl, hamo 6 (by decide) rfl, fun hr _ => ?_⟩
    refine hrules ?_ (offersAccess_amo s x a pi f 7 w4 rd off rfl) rfl rfl hoff.symm
    rw [if_pos rfl, Fin.next_eq hr]
    exact h

end Sys2Proof.Machine
end

section
/-!
PROOFS. Loads, stores and atomics of the own SRAM (O6, O7).
-/

namespace Sys2Proof.Machine

/-! ### Bytes (02 R58) -/

theorem readLE_lt (m : PMap Byte) (d : Byte) : ∀ n a : Nat, readLE m d a n < 256 ^ n
  | 0, _ => Nat.one_pos
  | n + 1, a => by
    have hb : (mget d m a).toNat < 256 := (mget d m a).isLt
    have := readLE_lt m d n (a + 1)
    rw [readLE, pow_succ]
    omega

/-- What a byte reads as after some bytes are written. -/
theorem mget_writeLE (d : Byte) : ∀ (n : Nat) (m : PMap Byte) (a v b : Nat), mget d (writeLE m d a v n) b =
    if a ≤ b ∧ b < a + n then BitVec.ofNat 8 (v / 256 ^ (b - a)) else mget d m b
  | 0, m, a, v, b => by
    rw [if_neg (by omega)]
    rfl
  | n + 1, m, a, v, b => by
    rw [writeLE, mget_writeLE d n]
    by_cases hab : b = a
    · subst hab
      rw [if_neg (by omega), if_pos (by omega), mget_mset_same, Nat.sub_self, pow_zero, Nat.div_one]
    · rw [mget_mset_other _ _ _ _ hab]
      by_cases hin : a + 1 ≤ b ∧ b < a + 1 + n
      · obtain ⟨k, hk⟩ : ∃ k, b - a = k + 1 := ⟨b - a - 1, by omega⟩
        have hk' : b - (a + 1) = k := by omega
        rw [if_pos hin, if_pos (by omega), hk, hk', pow_succ', Nat.div_div_eq_div_mul]
      · rw [if_neg hin, if_neg (by omega)]

/-- A byte of the low bytes of a value. -/
theorem byte_mod (v : Nat) {i n : Nat} (h : i < n) :
    BitVec.ofNat 8 (v % 256 ^ n / 256 ^ i) = BitVec.ofNat 8 (v / 256 ^ i) := by
  obtain ⟨j, rfl⟩ : ∃ j, n = i + (j + 1) := ⟨n - i - 1, by omega⟩
  apply BitVec.eq_of_toNat_eq
  rw [BitVec.toNat_ofNat, BitVec.toNat_ofNat, pow_add, Nat.mod_mul_right_div_self, pow_succ',
    Nat.mod_mul_right_mod]

/-- The bytes of an access, as a power of 256. -/
theorem two_pow_eight_mul (n : Nat) : 2 ^ (8 * n) = 256 ^ n := by rw [Nat.pow_mul]

/-! ### Accesses of the own SRAM -/

section
variable {s : State} {x : Issue} {q : MemAccess} {k : Nat}

theorem Thread.postIncrement_issuing (th : Thread) (a : Fin 16) (pi : Bool) (off : Word) :
    th.issuing.postIncrement a pi off = (th.postIncrement a pi off).issuing := by
  cases pi <;> rfl

/-- An aligned address of the own SRAM brings no trap. -/
theorem State.accessTrap_own {c : Lcn} {a : Word} (hown : s.target c a = .own k) {n : Nat} (hal : a.toNat % n = 0)
    (pc : Nat) (atomic : Bool) : s.accessTrap c pc a n atomic = none := by
  have halign : (a.toNat % n != 0) = false := by rw [hal]; rfl
  simp only [State.accessTrap, hown, halign, firstTrap_skip, Target.refuses]
  rfl

/-- An access of a ready thread to its own SRAM: what it does there decides. -/
theorem State.access_ownSram (h : s.ready x q.regs q.len)
    (hown : s.target x.core (q.address (s.issuer x)) = .own k) (hal : (q.address (s.issuer x)).toNat % q.bytes = 0)
    (act : Thread → Target → Word → State → Act) {u : State} {th th' : Thread} {pc : Nat} (hst : th.st = .running)
    (hth : th.retiredAt pc = th'.retiredAt pc)
    (ha : act (s.issuer x).issuing (.own k) (q.address (s.issuer x))
        (s.setThread x.core x.thread ((s.issuer x).postIncrement q.a q.pi q.off).issuing) =
      .done (u.setThread x.core x.thread th) pc) :
    s.access x q act = u.after x th' pc := by
  have hstall : s.accessStall x (q.address (s.issuer x)) q.bytes q.atomic = none := by
    rw [State.accessStall, hown]
    exact if_pos (Bool.or_true _)
  rw [State.access_eq, hstall]
  refine State.issue_leaves h _ false _ hst hth ?_
  have htrap : (s.setThread x.core x.thread (s.issuer x).issuing).accessTrap x.core (s.issuer x).issuing.pc
      (q.address (s.issuer x).issuing) q.bytes q.atomic = none := State.accessTrap_own hown hal _ _
  have htarget : (s.setThread x.core x.thread (s.issuer x).issuing).target x.core (q.address (s.issuer x).issuing) =
      .own k := hown
  simp only [accessAct, htrap, htarget, Thread.postIncrement_issuing]
  rw [State.setThread_setThread _ _ _ rfl rfl]
  exact ha

end

/-! ### Digests, notes and messages under way -/

section
variable {s : State} {c : Lcn} {n : Fin 4}

/-- An operation joins its thread's digest, on a core that runs a copy of a DUP order; nothing else changes. -/
theorem State.foldDigest_setThread (s : State) (c : Lcn) (n : Fin 4) {th : Thread} (hst : th.st = .running)
    (typ dst addr data len : Nat) : ∃ dg, (s.setThread c n th).foldDigest c n typ dst addr data len =
        s.setThread c n { th with digest := dg } ∧ (s.get F.INT_DUPSTAT_DUP c.toNat ≠ 1 → dg = th.digest) := by
  rw [State.foldDigest, State.flag_setThread]
  by_cases hdup : s.flag F.INT_DUPSTAT_DUP c.toNat = true
  · rw [if_pos hdup, State.thread_setThread_same]
    exact ⟨_, s.setThread_setThread c n hst hst, fun h => absurd (of_decide_eq_true hdup) h⟩
  · rw [if_neg hdup]
    exact ⟨th.digest, rfl, fun _ => rfl⟩

theorem State.core_noteWrite (s : State) (c : Lcn) (tile : Nat) : ∃ q a, (s.noteWrite c tile).core c =
      { s.core c with queue := q, array := a } ∧
    ((s.core c).queue = [] ∧ (s.core c).array = none → (s.noteWrite c tile).core c = s.core c) := by
  rw [State.noteWrite]
  by_cases h : ((s.core c).queue.isEmpty && (s.core c).array.isNone) = true
  · simp only [if_pos h]
    exact ⟨_, _, rfl, fun _ => trivial⟩
  · simp only [if_neg h]
    rw [State.core_setCore_same]
    refine ⟨_, _, rfl, fun ⟨hq, ha⟩ => absurd ?_ h⟩
    rw [hq, ha]
    rfl

theorem State.core_noteWrite_other {d : Lcn} (h : d ≠ c) (tile : Nat) : (s.noteWrite c tile).core d = s.core d := by
  rw [State.noteWrite]
  split
  · rfl
  · exact State.core_setCore_other _ _ h

/-- What of a state a store to a core's own SRAM may change. -/
def State.storeOnly (s t : State) : Prop :=
  { t with threads := s.threads, cores := s.cores, sram := s.sram, fab := s.fab, freeCtr := s.freeCtr } = s

theorem State.storeOnly.trans {s t u : State} (h : s.storeOnly t) (h' : t.storeOnly u) : s.storeOnly u := by
  unfold State.storeOnly at *
  rw [← h'] at h
  exact h

theorem State.storeOnly_setThread (s : State) (c : Lcn) (n : Fin 4) (th : Thread) :
    s.storeOnly (s.setThread c n th) := by
  simp only [State.storeOnly, State.setThread]

theorem State.noteWrite_only (s : State) (c : Lcn) (tile : Nat) : s.storeOnly (s.noteWrite c tile) ∧
    (s.noteWrite c tile).threads = s.threads ∧ (s.noteWrite c tile).sram = s.sram ∧
    (s.noteWrite c tile).fab = s.fab ∧ (s.noteWrite c tile).freeCtr = s.freeCtr := by
  rw [State.noteWrite]
  split
  · exact ⟨rfl, rfl, rfl, rfl, rfl⟩
  · simp only [State.storeOnly, State.setCore, and_self]

/-! The message whose payload a store may reach. -/

theorem State.sentUnder_setThread (s : State) (c : Lcn) (n : Fin 4) (th : Thread) (off k : Nat) :
    (s.setThread c n th).sentUnder c n off k = s.sentUnder c n off k := by
  rw [State.sentUnder, State.sentUnder, State.core_setThread]
  cases (s.core c).sent with
  | none => rfl
  | some m =>
    by_cases hm : m.thread = n
    · simp [hm]
    · have hth : (s.setThread c n th).thread c m.thread = s.thread c m.thread :=
        s.thread_setThread_other th (by simp [hm])
      simp only [hth]

theorem State.sentUnder_congr {w : State} (hsent : (w.core c).sent = (s.core c).sent) (hthreads : w.threads = s.threads)
    (off k : Nat) : w.sentUnder c n off k = s.sentUnder c n off k := by
  rw [State.sentUnder, State.sentUnder, hsent]
  simp only [State.thread_congr hthreads]

theorem State.stored_none {off k : Nat} (h : s.sentUnder c n off k = none) : s.stored c n off k = s := by
  rw [State.stored, h]

/-- The packet of a message as a free bit says that a store in its time has changed it (03 R124). -/
def State.mixed (s : State) (c : Lcn) (off k : Nat) (m : SentMsg) : State :=
  let lo := max off m.off
  let n := min (off + k) (m.off + m.len) - lo
  let at_ := 2 ^ (128 + 8 * (lo - m.off))
  match s.fab.pkts.find? fun p => p.id == m.pkt with
  | some p =>
    if (s.free 1).1 = 1 then
      (s.free 1).2.setPacket { p with body := p.body - p.body / at_ % 2 ^ (8 * n) * at_ + s.readSram c lo n * at_ }
    else (s.free 1).2
  | none => (s.free 1).2

theorem State.stored_some {off k : Nat} {m : SentMsg} (h : s.sentUnder c n off k = some m) :
    s.stored c n off k = s.mixed c off k m := by
  rw [State.stored, h]
  rfl

theorem State.mixed_setThread (s : State) (c d : Lcn) (n : Fin 4) (th : Thread) (off k : Nat) (m : SentMsg) :
    (s.setThread c n th).mixed d off k m = (s.mixed d off k m).setThread c n th := by
  simp only [State.mixed]
  cases hp : s.fab.pkts.find? (fun p => p.id == m.pkt) with
  | none =>
    have hp' : (s.setThread c n th).fab.pkts.find? (fun p => p.id == m.pkt) = none := hp
    simp only [hp']
    rfl
  | some p =>
    have hp' : (s.setThread c n th).fab.pkts.find? (fun p => p.id == m.pkt) = some p := hp
    simp only [hp']
    by_cases hb : (s.free 1).1 = 1
    · have hb' : ((s.setThread c n th).free 1).1 = 1 := hb
      simp only [hb, hb', if_true]
      rfl
    · have hb' : ¬((s.setThread c n th).free 1).1 = 1 := hb
      simp only [hb, hb', if_false]
      rfl

theorem State.stored_setThread (s : State) (c : Lcn) (n : Fin 4) (th : Thread) (off k : Nat) :
    (s.setThread c n th).stored c n off k = (s.stored c n off k).setThread c n th := by
  cases h : s.sentUnder c n off k with
  | none => rw [State.stored_none h, State.stored_none (by rw [State.sentUnder_setThread, h])]
  | some m =>
    rw [State.stored_some h, State.stored_some (by rw [State.sentUnder_setThread, h]), State.mixed_setThread]

theorem State.stored_only (s : State) (c : Lcn) (n : Fin 4) (off k : Nat) : s.storeOnly (s.stored c n off k) ∧
    (s.stored c n off k).threads = s.threads ∧ (s.stored c n off k).cores = s.cores ∧
    (s.stored c n off k).sram = s.sram ∧ (s.stored c n off k).damaged = s.damaged ∧
    (s.stored c n off k).badTiles = s.badTiles := by
  cases h : s.sentUnder c n off k with
  | none =>
    rw [State.stored_none h]
    exact ⟨rfl, rfl, rfl, rfl, rfl, rfl⟩
  | some m =>
    rw [State.stored_some h, State.mixed]
    split
    · split
      · simp only [State.storeOnly, State.setPacket, State.free, and_self]
      · simp only [State.storeOnly, State.free, and_self]
    · simp only [State.storeOnly, State.free, and_self]

end

/-! ### What a store leaves -/

section
variable {s w : State} {x : Issue} {k v n : Nat} {th : Thread} {pc : Nat}

/-- A write of a core's own SRAM that a thread retires: the bytes, the thread, and what is as before. -/
theorem State.store_spec (tile : Nat) (hsram : w.sram = writeLE s.sram 0 (sramAddr x.core k) v n)
    (hthreads : w.threads = s.threads) (hcores : w.cores = (s.noteWrite x.core tile).cores) (hfab : w.fab = s.fab)
    (hfree : w.freeCtr = s.freeCtr) :
    let t := (w.stored x.core x.thread k n).after x th pc
    (∀ b, mget 0 t.sram b = if x.core.toNat * 2 ^ 16 + k ≤ b ∧ b < x.core.toNat * 2 ^ 16 + k + n then
        BitVec.ofNat 8 (v / 256 ^ (b - (x.core.toNat * 2 ^ 16 + k))) else mget 0 s.sram b) ∧
      t.issuer x = th.retiredAt pc ∧ (∀ c u, ¬(c = x.core ∧ u = x.thread) → t.thread c u = s.thread c u) ∧
      (∀ c, c ≠ x.core ∨ (s.core c).queue = [] ∧ (s.core c).array = none → t.core c = s.core c) ∧
      (s.sentUnder x.core x.thread k n = none → t.fab = s.fab ∧ t.freeCtr = s.freeCtr) ∧ w.storeOnly t ∧
      t.damaged = w.damaged ∧ t.badTiles = w.badTiles := by
  intro t
  obtain ⟨honly, hst, hsc, hss, hsd, hsb⟩ := w.stored_only x.core x.thread k n
  have hcore : ∀ c, t.core c = (s.noteWrite x.core tile).core c :=
    fun c => State.core_congr (hsc.trans hcores) c
  refine ⟨fun b => ?_, State.thread_setThread_same .., fun c u hcu => ?_, fun c hc => ?_, fun hnone => ?_,
    honly.trans (State.storeOnly_setThread ..), hsd, hsb⟩
  · change mget 0 (w.stored x.core x.thread k n).sram b = _
    rw [hss, hsram, mget_writeLE]
    rfl
  · exact (State.thread_setThread_other _ _ hcu).trans (State.thread_congr (hst.trans hthreads) c u)
  · rw [hcore]
    by_cases hcx : c = x.core
    · subst hcx
      obtain ⟨q, a, -, hkept⟩ := s.core_noteWrite x.core tile
      exact hkept (hc.resolve_left (not_not.2 rfl))
    · exact State.core_noteWrite_other hcx tile
  · obtain ⟨q, a, hnote, -⟩ := s.core_noteWrite x.core tile
    have hsent : (w.core x.core).sent = (s.core x.core).sent := by
      rw [State.core_congr hcores, hnote]
    have hsame : w.stored x.core x.thread k n = w :=
      State.stored_none (by rw [State.sentUnder_congr hsent hthreads, hnone])
    change (w.stored x.core x.thread k n).fab = s.fab ∧ (w.stored x.core x.thread k n).freeCtr = s.freeCtr
    rw [hsame]
    exact ⟨hfab, hfree⟩

theorem State.writeSram_only (s : State) (c : Lcn) (off v n : Nat) : s.storeOnly (s.writeSram c off v n) ∧
    (s.writeSram c off v n).threads = s.threads ∧ (s.writeSram c off v n).fab = s.fab ∧
    (s.writeSram c off v n).freeCtr = s.freeCtr := by
  obtain ⟨honly, hthreads, -, hfab, hfree⟩ := s.noteWrite_only c (off / 256)
  refine ⟨?_, hthreads, hfab, hfree⟩
  exact honly.trans rfl

end

/-! ### The instructions -/

section
variable {s : State} {x : Issue} {a : Fin 16} {pi f : Bool} {k : Nat}

/-- An offset in a core's SRAM is aligned as its address is. -/
theorem aligned_of_offset {a d k n : Nat} (ha : a = d * 2 ^ 16 + k) (hn : n ∣ 2 ^ 16) (hk : k % n = 0) : a % n = 0 := by
  rw [ha]
  exact Nat.mod_eq_zero_of_dvd (Nat.dvd_add (Dvd.dvd.mul_left hn d) (Nat.dvd_of_mod_eq_zero hk))

theorem bytes_dvd (size : Size) : size.bytes ∣ 2 ^ 16 := by cases size <;> decide

theorem bytes_pos (size : Size) : 0 < size.bytes := by cases size <;> decide

/-- What a load takes from its instruction. -/
def loadAccess (size : Size) (rd : Fin 32) (a : Fin 16) (pi : Bool) (off : Off) : MemAccess :=
  { len := off.len, regs := [.s rd], a, pi, off := off.value size.bytes, bytes := size.bytes }

/-- What a tile access takes from its instruction. -/
def tileAccess (td : Fin 8) (a : Fin 16) (pi writes : Bool) (off : TileOff) : MemAccess :=
  { len := off.len, regs := [.t td], a, pi, off := off.value, bytes := 256, writes, tPipe := true }

/-- What an atomic takes from its instruction. -/
def amoAccess (op : Nat) (w4 : Bool) (rd : Fin 32) (a : Fin 16) (pi : Bool) (off : Off) : MemAccess :=
  { len := off.len, regs := if op = 7 then [.s rd, .s (Fin.ofNat 32 (rd.val + 1))] else [.s rd], a, pi,
    off := off.value (amoBytes w4), bytes := amoBytes w4, atomic := true }

theorem State.loadOp_own {size : Size} {rd : Fin 32} {off : Off} (signed : Bool) (h : s.ready x [.s rd] off.len)
    (hown : s.target x.core ((s.issuer x).address a pi (off.value size.bytes)) = .own k)
    (hal : ((s.issuer x).address a pi (off.value size.bytes)).toNat % size.bytes = 0)
    (hgood : s.tileGood x.core (k / 256) = true) :
    s.loadOp x size signed rd a pi f off =
      s.after x (((s.issuer x).postIncrement a pi (off.value size.bytes)).writeS rd
        (extendLoad size.bytes signed (s.readSram x.core k size.bytes))) ((s.issuer x).pc + off.len) := by
  unfold State.loadOp
  refine State.access_ownSram (q := loadAccess size rd a pi off) h hown hal _
    (th := (((s.issuer x).postIncrement a pi (off.value size.bytes)).writeS rd
      (extendLoad size.bytes signed (s.readSram x.core k size.bytes))).issuing) rfl rfl ?_
  simp only [State.tileGood_setThread, hgood, State.thread_setThread_same, State.readSram_setThread,
    Thread.writeS_issuing, Bool.not_true, Bool.false_eq_true, if_false]
  rw [State.setThread_issuing _ _ _ _ rfl]
  rfl

theorem exec_tileLd_own {td : Fin 8} {off : TileOff} (h : s.ready x [.t td] off.len)
    (hown : s.target x.core ((s.issuer x).address a pi off.value) = .own k)
    (hal : ((s.issuer x).address a pi off.value).toNat % 256 = 0) (hgood : s.tileGood x.core (k / 256) = true) :
    exec (.tileLd x td a pi f off) s = .next (s.after x (((s.issuer x).postIncrement a pi off.value).writeT td
      (s.readTile x.core (k / 256))) ((s.issuer x).pc + off.len)) := by
  refine congrArg Host.Outcome.next (State.access_ownSram (q := tileAccess td a pi false off) h hown hal _
    (th := (((s.issuer x).postIncrement a pi off.value).writeT td (s.readTile x.core (k / 256))).issuing) rfl
    (Thread.issuing_retiredAt _ ((s.issuer x).pc + off.len)) ?_)
  simp only [State.tileGood_setThread, hgood, State.thread_setThread_same, Thread.writeT_issuing, Bool.not_true,
    Bool.false_eq_true, if_false]
  rw [State.setThread_issuing _ _ _ _ rfl]
  rfl

/-- A store to the own SRAM leaves the bytes, and its thread with a digest of its operations. -/
theorem exec_st_own {size : Size} {rd : Fin 32} {off : Off} (h : s.ready x [.s rd] off.len)
    (hown : s.target x.core ((s.issuer x).address a pi (off.value size.bytes)) = .own k)
    (hal : ((s.issuer x).address a pi (off.value size.bytes)).toNat % size.bytes = 0)
    (hgood : s.tileGood x.core (k / 256) = true) :
    ∃ dg, (s.get F.INT_DUPSTAT_DUP x.core.toNat ≠ 1 → dg = (s.issuer x).digest) ∧
      exec (.st x size rd a pi f off) s = .next (((s.writeSram x.core k
          (((s.issuer x).readS rd).toNat % 2 ^ (8 * size.bytes)) size.bytes).stored x.core x.thread k size.bytes).after x
        { (s.issuer x).postIncrement a pi (off.value size.bytes) with digest := dg } ((s.issuer x).pc + off.len)) := by
  have hown' : s.target x.core ((storeAccess size rd a pi off).address (s.thread x.core x.thread)) = .own k := hown
  have hfault : s.storeFaults x (storeAccess size rd a pi off) rd = false := by
    simp only [State.storeFaults, hown', Bool.and_false]
  obtain ⟨dg, hfold, hdg⟩ := s.foldDigest_setThread x.core x.thread
    (th := ((s.issuer x).postIncrement a pi (off.value size.bytes)).issuing) rfl 1
    (digestCore ((s.issuer x).address a pi (off.value size.bytes)))
    ((s.issuer x).address a pi (off.value size.bytes)).toNat
    (((s.issuer x).readS rd).toNat % 2 ^ (8 * size.bytes)) size.bytes
  have hdigest : ((s.issuer x).postIncrement a pi (off.value size.bytes)).digest = (s.issuer x).digest := by
    cases pi <;> rfl
  refine ⟨dg, fun hdup => (hdg hdup).trans hdigest, ?_⟩
  change execSt .. = _
  rw [execSt, hfault]
  refine congrArg Host.Outcome.next (State.access_ownSram (q := storeAccess size rd a pi off) h hown hal _
    (th := { ((s.issuer x).postIncrement a pi (off.value size.bytes)).issuing with digest := dg }) rfl rfl ?_)
  have hbytes : (storeAccess size rd a pi off).bytes = size.bytes := rfl
  simp only [State.storeAt, hbytes, State.tileGood_setThread, hgood, Bool.not_true, Bool.false_eq_true, if_false]
  refine (congrArg (fun u : State => Act.done ((u.writeSram x.core k _ size.bytes).stored x.core x.thread k size.bytes) _)
    hfold).trans ?_
  rw [State.writeSram_setThread, State.stored_setThread]
  rfl

theorem State.sram_writeTile (s : State) (c : Lcn) (tile : Nat) (v : Tile) :
    (s.writeTile c tile v).sram = writeLE s.sram 0 (sramAddr c (tile * 256)) v.toNat 256 := by
  rw [State.writeTile, State.writeSram]

theorem State.writeTile_only (s : State) (c : Lcn) (tile : Nat) (v : Tile) : { s.writeTile c tile v with
    threads := s.threads, cores := s.cores, sram := s.sram, damaged := s.damaged, badTiles := s.badTiles,
    fab := s.fab, freeCtr := s.freeCtr } = s :=
  congrArg (fun u : State => { u with damaged := s.damaged, badTiles := s.badTiles })
    (s.writeSram_only c (tile * 256) v.toNat 256).1

theorem State.writeTile_setThread (s : State) (c d : Lcn) (n : Fin 4) (th : Thread) (tile : Nat) (v : Tile) :
    (s.setThread c n th).writeTile d tile v = (s.writeTile d tile v).setThread c n th := by
  rw [State.writeTile, State.writeSram_setThread]
  rfl

/-- A tile store to the own SRAM, whatever the checksum of the tile. -/
theorem exec_tileSt_own {td : Fin 8} {off : TileOff} (h : s.ready x [.t td] off.len)
    (hown : s.target x.core ((s.issuer x).address a pi off.value) = .own k)
    (hal : ((s.issuer x).address a pi off.value).toNat % 256 = 0) :
    ∃ dg, (s.get F.INT_DUPSTAT_DUP x.core.toNat ≠ 1 → dg = (s.issuer x).digest) ∧
      exec (.tileSt x td a pi f off) s = .next (((s.writeTile x.core (k / 256) ((s.issuer x).readT td)).stored
          x.core x.thread k 256).after x
        { (s.issuer x).postIncrement a pi off.value with digest := dg } ((s.issuer x).pc + off.len)) := by
  obtain ⟨dg, hfold, hdg⟩ := s.foldDigest_setThread x.core x.thread
    (th := ((s.issuer x).postIncrement a pi off.value).issuing) rfl 1 (digestCore ((s.issuer x).address a pi off.value))
    ((s.issuer x).address a pi off.value).toNat ((s.issuer x).readT td).toNat 256
  have hdigest : ((s.issuer x).postIncrement a pi off.value).digest = (s.issuer x).digest := by
    cases pi <;> rfl
  refine ⟨dg, fun hdup => (hdg hdup).trans hdigest, ?_⟩
  refine congrArg Host.Outcome.next (State.access_ownSram (q := tileAccess td a pi true off) h hown hal _
    (th := { ((s.issuer x).postIncrement a pi off.value).issuing with digest := dg }) rfl rfl ?_)
  refine (congrArg (fun u : State => Act.done ((u.writeTile x.core (k / 256) _).stored x.core x.thread k 256) _)
    hfold).trans ?_
  rw [State.writeTile_setThread, State.stored_setThread]
  rfl

/-- The value that an atomic leaves in the own SRAM. -/
def State.amoNew (s : State) (x : Issue) (op : Nat) (w4 : Bool) (rd : Fin 32) (k : Nat) : BitVec (8 * amoBytes w4) :=
  amoApply op (BitVec.ofNat (8 * amoBytes w4) (s.readSram x.core k (amoBytes w4)))
    (BitVec.ofNat (8 * amoBytes w4) (((s.issuer x).readS rd).toNat % 2 ^ (8 * amoBytes w4)))
    (BitVec.ofNat (8 * amoBytes w4)
      (if op = 7 then ((s.issuer x).readS (Fin.ofNat 32 (rd.val + 1))).toNat % 2 ^ (8 * amoBytes w4) else 0))

/-- An atomic on the own SRAM: the new value in its bytes, the old one in RD. -/
theorem State.amo_own {op : Nat} {w4 : Bool} {rd : Fin 32} {off : Off}
    (h : s.ready x (amoAccess op w4 rd a pi off).regs off.len)
    (hown : s.target x.core ((s.issuer x).address a pi (off.value (amoBytes w4))) = .own k)
    (hal : ((s.issuer x).address a pi (off.value (amoBytes w4))).toNat % amoBytes w4 = 0)
    (hgood : s.tileGood x.core (k / 256) = true) :
    ∃ dg, (s.get F.INT_DUPSTAT_DUP x.core.toNat ≠ 1 → dg = (s.issuer x).digest) ∧
      s.amo op x w4 rd a pi f off = ((s.writeSram x.core k (s.amoNew x op w4 rd k).toNat (amoBytes w4)).stored
          x.core x.thread k (amoBytes w4)).after x
        ({ (s.issuer x).postIncrement a pi (off.value (amoBytes w4)) with digest := dg }.writeS rd
          (extendLoad (amoBytes w4) true (s.readSram x.core k (amoBytes w4)))) ((s.issuer x).pc + off.len) := by
  have hdigest : ((s.issuer x).postIncrement a pi (off.value (amoBytes w4))).digest = (s.issuer x).digest := by
    cases pi <;> rfl
  obtain ⟨dg, hfold, hdg⟩ := s.foldDigest_setThread x.core x.thread
    (th := ((s.issuer x).postIncrement a pi (off.value (amoBytes w4))).issuing) rfl 2
    (digestCore ((s.issuer x).address a pi (off.value (amoBytes w4))))
    ((s.issuer x).address a pi (off.value (amoBytes w4))).toNat
    (((s.issuer x).readS rd).toNat % 2 ^ (8 * amoBytes w4) +
      (if op = 7 then ((s.issuer x).readS (Fin.ofNat 32 (rd.val + 1))).toNat % 2 ^ (8 * amoBytes w4) else 0) * 2 ^ 64)
    (if op = 7 then 8 + amoBytes w4 else amoBytes w4)
  refine ⟨dg, fun hdup => (hdg hdup).trans hdigest, ?_⟩
  unfold State.amo
  refine State.access_ownSram (q := amoAccess op w4 rd a pi off) h hown hal _
    (th := ({ (s.issuer x).postIncrement a pi (off.value (amoBytes w4)) with digest := dg }.writeS rd
      (extendLoad (amoBytes w4) true (s.readSram x.core k (amoBytes w4)))).issuing) rfl (Thread.issuing_retiredAt _ _) ?_
  simp only [State.tileGood_setThread, hgood, Bool.not_true, Bool.false_eq_true, if_false, Thread.issuing_readS]
  refine (congrArg (fun u : State =>
    let r := u.atomicAt x.core k (amoBytes w4) op (((s.issuer x).readS rd).toNat % 2 ^ (8 * amoBytes w4))
      (if op = 7 then ((s.issuer x).readS (Fin.ofNat 32 (rd.val + 1))).toNat % 2 ^ (8 * amoBytes w4) else 0)
    let w := r.2.stored x.core x.thread k (amoBytes w4)
    Act.done (w.setThread x.core x.thread ((w.thread x.core x.thread).writeS rd (extendLoad (amoBytes w4) true r.1)))
      ((s.issuer x).pc + off.len)) hfold).trans ?_
  simp only [State.atomicAt, State.readSram_setThread, State.writeSram_setThread, State.stored_setThread,
    State.thread_setThread_same]
  have hissuing : ({ ((s.issuer x).postIncrement a pi (off.value (amoBytes w4))).issuing with digest := dg } : Thread) =
    ({ (s.issuer x).postIncrement a pi (off.value (amoBytes w4)) with digest := dg } : Thread).issuing := rfl
  rw [hissuing, Thread.writeS_issuing, State.setThread_issuing _ _ _ _ rfl]
  rfl

end

theorem State.tileGood_of {s : State} {c : Lcn} {k : Nat} (h : c.toNat * 256 + k / 256 ∉ s.damaged) :
    s.tileGood c (k / 256) = true := by
  simpa [State.tileGood, tileKey] using h

/-- Settles O6: loads (`loadOp_own`, `exec_tileLd_own`) and stores (`exec_st_own`, `exec_tileSt_own`) are accesses of the
own SRAM, and `store_spec` says what a store leaves. -/
theorem ownSramLoadsAndStores : Obligations.OwnSramLoadsAndStores := by
  unfold Obligations.OwnSramLoadsAndStores
  refine ⟨?loads, ?stores⟩
  case loads =>
    intro x a pi f s o k th seen hea hk hsum moved bytes
    have hgood := State.tileGood_of hsum
    have hown : s.target x.core (th.address a pi o) = .own k := State.target_own (by rw [seenLcn_eq]; exact hea) hk
    refine ⟨fun size rd off h hal ho => ?_, fun td off h hal ho => ?_⟩
    · have ho' : off.value size.bytes = o := ho.symm
      intro next v
      have hv : v < 2 ^ (8 * size.bytes) := by rw [two_pow_eight_mul]; exact readLE_lt ..
      have hload := fun signed => State.loadOp_own (pi := pi) (f := f) signed h (by rw [ho']; exact hown)
        (by rw [ho']; exact aligned_of_offset hea (bytes_dvd size) hal) hgood
      simp only [ho', extendLoad_eq (bytes_pos size)] at hload
      refine ⟨congrArg _ (hload true), congrArg _ ((hload false).trans ?_)⟩
      have hval : s.readSram x.core k size.bytes % 2 ^ (8 * size.bytes) = v := Nat.mod_eq_of_lt hv
      rw [hval]
      rfl
    · have ho' : off.value = o := ho.symm
      have hload := exec_tileLd_own (pi := pi) (f := f) h (by rw [ho']; exact hown)
        (by rw [ho']; exact aligned_of_offset hea (by decide) hal) hgood
      have htile : k / 256 * 256 = k := by omega
      rw [State.readTile, htile, ho'] at hload
      exact hload
  case stores =>
    intro x a pi f s o k th seen hea hk tile moved stored
    have hown : s.target x.core (th.address a pi o) = .own k := State.target_own (by rw [seenLcn_eq]; exact hea) hk
    refine ⟨fun size rd off h hal hsum ho => ?_, fun td off h hal ho => ?_⟩
    · have ho' : off.value size.bytes = o := ho.symm
      obtain ⟨dg, hdg, hexec⟩ := exec_st_own (pi := pi) (f := f) h (by rw [ho']; exact hown)
        (by rw [ho']; exact aligned_of_offset hea (bytes_dvd size) hal) (State.tileGood_of hsum)
      rw [ho'] at hexec
      obtain ⟨honly, hthreads, hfab, hfree⟩ := s.writeSram_only x.core k ((th.readS rd).toNat % 2 ^ (8 * size.bytes))
        size.bytes
      obtain ⟨hbytes, hissuer, hothers, hcores, hmsg, hrest, -, -⟩ := State.store_spec (s := s)
        (th := { moved with digest := dg }) (pc := th.pc + off.len) (n := size.bytes) (k / 256) rfl hthreads rfl hfab hfree
      refine ⟨_, hexec, ⟨fun b => (hbytes b).trans ?_, ⟨dg, hissuer, hdg⟩, hothers, hcores, hmsg⟩, honly.trans hrest⟩
      split
      case isTrue hb => rw [two_pow_eight_mul, byte_mod _ (by omega)]
      case isFalse hb => rfl
    · have ho' : off.value = o := ho.symm
      obtain ⟨dg, hdg, hexec⟩ := exec_tileSt_own (pi := pi) (f := f) h (by rw [ho']; exact hown)
        (by rw [ho']; exact aligned_of_offset hea (by decide) hal)
      rw [ho'] at hexec
      have htile : k / 256 * 256 = k := by omega
      obtain ⟨honly, hthreads, hfab, hfree⟩ := s.writeSram_only x.core (k / 256 * 256) (th.readT td).toNat 256
      obtain ⟨hbytes, hissuer, hothers, hcores, hmsg, hrest, hdamaged, hbad⟩ := State.store_spec (s := s)
        (w := s.writeTile x.core (k / 256) (th.readT td)) (th := { moved with digest := dg }) (pc := th.pc + off.len)
        (n := 256) (k := k) (v := (th.readT td).toNat) (k / 256 * 256 / 256)
        (by rw [State.sram_writeTile, htile]) hthreads rfl hfab hfree
      refine ⟨_, hexec, ⟨hbytes, ⟨dg, hissuer, hdg⟩, hothers, hcores, hmsg⟩, hdamaged, hbad, ?_⟩
      exact (congrArg (fun u : State => { u with
        threads := s.threads, cores := s.cores, sram := s.sram, damaged := s.damaged, badTiles := s.badTiles,
        fab := s.fab, freeCtr := s.freeCtr }) hrest).trans (s.writeTile_only x.core (k / 256) (th.readT td))

theorem amoBytes_dvd (w4 : Bool) : amoBytes w4 ∣ 2 ^ 16 := by cases w4 <;> decide

theorem amoBytes_pos (w4 : Bool) : 0 < amoBytes w4 := by cases w4 <;> decide

/-- The smaller and the larger of two signed values, whichever of two equal ones is named. -/
theorem amoApply_min {w : Nat} (a b y : BitVec w) : amoApply 5 a b y = if a.toInt ≤ b.toInt then a else b := by
  change (if a.slt b then a else b) = _
  rw [BitVec.slt]
  simp only [decide_eq_true_eq]
  by_cases h : a.toInt = b.toInt
  · rw [BitVec.eq_of_toInt_eq h, ite_self, ite_self]
  · exact if_congr (by omega) rfl rfl

theorem amoApply_max {w : Nat} (a b y : BitVec w) : amoApply 6 a b y = if a.toInt ≤ b.toInt then b else a := by
  change (if b.slt a then a else b) = _
  rw [BitVec.slt]
  simp only [decide_eq_true_eq]
  by_cases h : a.toInt ≤ b.toInt
  · rw [if_pos h, if_neg (by omega)]
  · rw [if_neg h, if_pos (by omega)]

theorem amoApply_add {w : Nat} (a b y : BitVec w) : amoApply 0 a b y = BitVec.ofNat w (a.toNat + b.toNat) := by
  change a + b = _
  rw [← BitVec.toNat_inj, BitVec.toNat_add, BitVec.toNat_ofNat]

/-- Settles O7: each atomic is one read-modify-write of its bytes (`amo_own`), and `store_spec` says what it leaves. -/
theorem ownSramAtomics : Obligations.OwnSramAtomics := by
  unfold Obligations.OwnSramAtomics
  intro x w4 rd a pi f off s k th n o seen hea hk hal hsum moved w old v leaves
  have hown : s.target x.core (th.address a pi o) = .own k := State.target_own (by rw [seenLcn_eq]; exact hea) hk
  have hvalue : ∀ r, BitVec.ofNat (8 * amoBytes w4) ((th.readS r).toNat % 2 ^ (8 * amoBytes w4)) =
      (th.readS r).truncate (8 * amoBytes w4) := by
    intro r
    apply BitVec.eq_of_toNat_eq
    rw [BitVec.toNat_ofNat, Nat.mod_mod, BitVec.toNat_setWidth]
  have hamo : ∀ (op : Nat) {i : Instr} {new : BitVec (8 * amoBytes w4)}, exec i s = .next (s.amo op x w4 rd a pi f off) →
      s.ready x (amoAccess op w4 rd a pi off).regs off.len → s.amoNew x op w4 rd k = new → leaves i new := by
    intro op i new hi h hnew
    obtain ⟨dg, hdg, hexec⟩ := State.amo_own (f := f) h hown (aligned_of_offset hea (amoBytes_dvd w4) hal)
      (State.tileGood_of hsum)
    have hload : extendLoad (amoBytes w4) true (s.readSram x.core k (amoBytes w4)) = BitVec.ofInt 64 old.toInt := by
      rw [extendLoad_eq (amoBytes_pos w4), if_pos rfl, toSigned_eq_toInt _ _ (by have := amoBytes_pos w4; omega)]
      rfl
    rw [hnew, hload] at hexec
    obtain ⟨honly, hthreads, hfab, hfree⟩ := s.writeSram_only x.core k new.toNat (amoBytes w4)
    obtain ⟨hbytes, hissuer, hothers, hcores, hmsg, hrest, -, -⟩ := State.store_spec (s := s)
      (th := { moved with digest := dg }.writeS rd (BitVec.ofInt 64 old.toInt)) (pc := th.pc + off.len)
      (n := amoBytes w4) (k / 256) rfl hthreads rfl hfab hfree
    exact ⟨_, hi.trans (congrArg _ hexec), hbytes, ⟨dg, hissuer, hdg⟩, hothers, hcores, hmsg, honly.trans hrest⟩
  refine ⟨fun h => ?_, fun r1 _ hr h => ?_⟩
  · have hnew : ∀ op, op ≠ 7 → s.amoNew x op w4 rd k = amoApply op old v 0 := by
      intro op hop
      rw [State.amoNew, if_neg hop, hvalue]
      rfl
    refine ⟨hamo 0 rfl h ?_, hamo 1 rfl h ?_, hamo 2 rfl h ?_, hamo 3 rfl h ?_, hamo 4 rfl h ?_, hamo 5 rfl h ?_,
      hamo 6 rfl h ?_⟩ <;> rw [hnew _ (by decide)]
    · exact amoApply_add old v 0
    · rfl
    · rfl
    · rfl
    · rfl
    · exact amoApply_min old v 0
    · exact amoApply_max old v 0
  · refine hamo 7 rfl ?_ ?_
    · have hregs : (amoAccess 7 w4 rd a pi off).regs = [.s rd, .s r1] := by rw [amoAccess, if_pos rfl, Fin.next_eq hr]
      rw [hregs]
      exact h
    · rw [State.amoNew, if_pos rfl, hvalue, hvalue, Fin.next_eq hr]
      rfl

end Sys2Proof.Machine
end

section
/-!
PROOFS. Signals of the own core's tacks, waits and loads of a tack (O26).
-/

namespace Sys2Proof.Machine

/-! ### One change of each thread of a core -/

/-- Changes of a core's threads one after the other, which leave the registers alone, are one change of each. -/
theorem State.thread_foldl {c : Lcn} {F : State → Fin 4 → State} {G : State → Thread → Thread}
    (hthread : ∀ s m d k, (F s m).thread d k = if d = c ∧ k = m then G s (s.thread d k) else s.thread d k)
    (hG : ∀ s m, G (F s m) = G s) (d : Lcn) (k : Fin 4) : ∀ (l : List (Fin 4)), l.Nodup → ∀ s : State,
      (l.foldl F s).thread d k = if d = c ∧ k ∈ l then G s (s.thread d k) else s.thread d k
  | [], _, s => by simp
  | m :: l, hl, s => by
    obtain ⟨hm, hl⟩ := List.nodup_cons.1 hl
    rw [List.foldl_cons, State.thread_foldl hthread hG d k l hl, hthread, hG]
    by_cases hk : k = m
    · subst hk
      simp [hm]
    · simp [hk]

/-! ### Signals (09 R366 to R368) -/

section
variable {s : State} {c : Lcn} {n : Fin 32} {v : BitVec 32}

/-- A thread once a tack that it may wait on has a value. -/
def Thread.woken (th : Thread) (n : Fin 32) (v : BitVec 32) : Thread :=
  match th.wait with
  | some w => if w.tack = n ∧ th.st = .waiting ∧ w.holds v = true then { th with st := .running, wait := none } else th
  | none => th

theorem State.thread_wake (s : State) (c : Lcn) (n : Fin 32) (m : Fin 4) (d : Lcn) (k : Fin 4) :
    (s.wake c n m).thread d k = if d = c ∧ k = m then (s.thread d k).woken n (s.tack c n) else s.thread d k := by
  by_cases h : d = c ∧ k = m
  · obtain ⟨rfl, rfl⟩ := h
    rw [if_pos ⟨rfl, rfl⟩, State.wake, Thread.woken]
    cases (s.thread d k).wait with
    | none => rfl
    | some w =>
      dsimp only
      split
      · rw [State.thread_setThread_same]
      · rfl
  · rw [if_neg h, State.wake]
    cases (s.thread c m).wait with
    | none => rfl
    | some w =>
      dsimp only
      split
      · exact State.thread_setThread_other _ _ h
      · rfl

theorem State.wake_eq (s : State) (c : Lcn) (n : Fin 32) (m : Fin 4) :
    ∃ threads, s.wake c n m = { s with threads } := by
  unfold State.wake
  dsimp only
  split
  · split
    · exact ⟨_, rfl⟩
    · exact ⟨s.threads, rfl⟩
  · exact ⟨s.threads, rfl⟩

theorem State.wakes_eq (c : Lcn) (n : Fin 32) : ∀ (l : List (Fin 4)) (s : State),
    ∃ threads, l.foldl (fun s m => s.wake c n m) s = { s with threads }
  | [], s => ⟨s.threads, rfl⟩
  | m :: l, s => by
    obtain ⟨threads, hfold⟩ := State.wakes_eq c n l (s.wake c n m)
    obtain ⟨threads', hwake⟩ := s.wake_eq c n m
    exact ⟨threads, by rw [List.foldl_cons, hfold, hwake]⟩

/-- The fields of a tack that a signal writes. -/
def signalFields : List Fld :=
  [F.TACK_STATEn_VALUE, F.TACK_STATEn_SIGNALLED, F.TACK_STATEn_LKIND, F.TACK_STATEn_LTID]

/-- The tack's registers of a signal, before any waiter wakes. -/
def State.signalled (s : State) (c : Lcn) (n : Fin 32) (set : Bool) (v : BitVec 32) (lkind ltid : Nat) : State :=
  (((s.put F.TACK_STATEn_VALUE (if set then v else s.tack c n + v).toNat c.toNat n.val).put F.TACK_STATEn_SIGNALLED 1
    c.toNat n.val).put F.TACK_STATEn_LKIND lkind c.toNat n.val).put F.TACK_STATEn_LTID ltid c.toNat n.val

theorem State.signal_wakes (s : State) (c : Lcn) (n : Fin 32) (set : Bool) (v : BitVec 32) (lkind ltid : Nat) :
    s.signal c n set v lkind ltid =
      allThreads.foldl (fun s m => s.wake c n m) (s.signalled c n set v lkind ltid) := rfl

/-- A signal changes the registers of its tack, and then threads alone. -/
theorem State.signal_eq (s : State) (c : Lcn) (n : Fin 32) (set : Bool) (v : BitVec 32) (lkind ltid : Nat) :
    ∃ threads, s.signal c n set v lkind ltid = { s.signalled c n set v lkind ltid with threads } := by
  rw [State.signal_wakes]
  exact State.wakes_eq c n allThreads _

theorem State.value_signalled (s : State) (c : Lcn) (n : Fin 32) (set : Bool) (v : BitVec 32) (lkind ltid : Nat) :
    (s.signalled c n set v lkind ltid).get F.TACK_STATEn_VALUE c.toNat n =
      (if set then v else s.tack c n + v).toNat := by
  have hother : ∀ {s : State} {f : Fld} (v : Nat), F.TACK_STATEn_VALUE.id ≠ f.id →
      (s.put f v c.toNat n.val).get F.TACK_STATEn_VALUE c.toNat n.val = s.get F.TACK_STATEn_VALUE c.toNat n.val :=
    fun v h => State.get_put_field _ v h c.isLt c.isLt (by omega) (by omega)
  rw [State.signalled, hother _ (by decide), hother _ (by decide), hother _ (by decide), State.get_put_same]
  exact Nat.mod_eq_of_lt (BitVec.isLt _)

theorem State.signalled_regs (s : State) (c : Lcn) (n : Fin 32) (set : Bool) (v : BitVec 32) {lkind ltid : Nat}
    (hk : lkind < 4) (ht : ltid < 2 ^ 22) :
    let t := s.signalled c n set v lkind ltid
    t.get F.TACK_STATEn_VALUE c.toNat n = (if set then v else s.tack c n + v).toNat ∧
      t.get F.TACK_STATEn_SIGNALLED c.toNat n = 1 ∧ t.get F.TACK_STATEn_LKIND c.toNat n = lkind ∧
      t.get F.TACK_STATEn_LTID c.toNat n = ltid ∧
      (∀ m : Fin 32, m ≠ n → t.get F.TACK_STATEn_VALUE c.toNat m = s.get F.TACK_STATEn_VALUE c.toNat m) ∧
      s.fieldsKept t signalFields := by
  have hu : c.toNat < 2 ^ 20 := c.isLt
  have hn : n.val < 2 ^ 12 := by omega
  have hother : ∀ {s : State} {f g : Fld} (v : Nat), g.id ≠ f.id →
      (s.put f v c.toNat n.val).get g c.toNat n.val = s.get g c.toNat n.val :=
    fun v h => State.get_put_field _ v h hu hu hn hn
  intro t
  refine ⟨s.value_signalled c n set v lkind ltid, ?_, ?_, ?_, fun m hm => ?_, ?_⟩
  · simp only [t, State.signalled]
    iterate 2 rw [hother _ (by decide)]
    exact State.get_put_same _ _ _ _ _
  · simp only [t, State.signalled]
    rw [hother _ (by decide)]
    exact (State.get_put_same _ _ _ _ _).trans (Nat.mod_eq_of_lt hk)
  · exact (State.get_put_same _ _ _ _ _).trans (Nat.mod_eq_of_lt ht)
  · have hm' : m.val < 2 ^ 12 := by omega
    simp only [t, State.signalled]
    iterate 3 rw [State.get_put_field _ _ (by decide) hu hu hn hm']
    exact State.get_put_place _ _ (by simpa using Fin.val_ne_of_ne hm) hu hu hn hm'
  · exact (((State.fieldsKept_put _ _ _ hu hn).trans (State.fieldsKept_put _ _ _ hu hn)).trans
      (State.fieldsKept_put _ _ _ hu hn)).trans (State.fieldsKept_put _ _ _ hu hn)

/-- The threads of a core after a signal. -/
theorem State.thread_signal (s : State) (c : Lcn) (n : Fin 32) (set : Bool) (v : BitVec 32) (lkind ltid : Nat) (d : Lcn)
    (k : Fin 4) : (s.signal c n set v lkind ltid).thread d k =
      if d = c then (s.thread d k).woken n (if set then v else s.tack c n + v) else s.thread d k := by
  have htack : ∀ (u : State) (m : Fin 4), (u.wake c n m).tack c n = u.tack c n := fun u m => by
    obtain ⟨threads, h⟩ := u.wake_eq c n m
    rw [h]
    rfl
  have hvalue : (s.signalled c n set v lkind ltid).tack c n = if set then v else s.tack c n + v := by
    rw [State.tack, State.value_signalled, BitVec.ofNat_toNat, BitVec.setWidth_eq]
  rw [State.signal_wakes,
    State.thread_foldl (G := fun u th => th.woken n (u.tack c n)) (fun u m d k => u.thread_wake c n m d k)
    (fun u m => by rw [htack]) d k allThreads (by decide), hvalue]
  simp only [mem_allThreads k, and_true]
  rfl

end

/-! ### The signals of a thread -/

section
variable {s : State} {x : Issue}

/-- The count of a signal by the ends of the active pattern is the core's own (10 R392). -/
theorem State.countSignal_eq (s : State) (c target : Lcn) (tack : Fin 32) (v : BitVec 32) :
    ∃ cores, s.countSignal c target tack v = { s with cores } ∧
      ∀ d, { ({ s with cores } : State).core d with ends := (s.core d).ends } = s.core d := by
  unfold State.countSignal
  dsimp only
  split
  · exact ⟨s.cores, rfl, fun d => rfl⟩
  · refine ⟨_, rfl, fun d => ?_⟩
    change { (State.setCore s c _).core d with ends := (s.core d).ends } = s.core d
    by_cases hd : d = c
    · subst hd
      rw [State.core_setCore_same]
    · rw [State.core_setCore_other _ _ hd]

/-- The state in which a thread's signal of its own core is applied: an add is counted first. -/
def State.beforeSignal (s : State) (x : Issue) (tack : Fin 32) (set : Bool) (v : BitVec 32) : State :=
  if set then s else s.countSignal x.core (s.seenLcn x.core) tack v

theorem State.beforeSignal_eq (s : State) (x : Issue) (tack : Fin 32) (set : Bool) (v : BitVec 32) :
    ∃ cores, s.beforeSignal x tack set v = { s with cores } ∧
      ∀ d, { ({ s with cores } : State).core d with ends := (s.core d).ends } = s.core d := by
  cases set with
  | true => exact ⟨s.cores, rfl, fun _ => rfl⟩
  | false => exact s.countSignal_eq x.core (s.seenLcn x.core) tack v

/-- The state that an instruction sees when it issues. -/
def State.issued (s : State) (x : Issue) : State := s.setThread x.core x.thread (s.issuer x).issuing

/-- A signal of the own core by a thread that then retires. -/
def State.signalBy (s : State) (x : Issue) (tack : Fin 32) (set : Bool) (v : BitVec 32) (pc : Nat) : State :=
  (s.signal x.core tack set v 0 (threadId x.core x.thread)).retire x.core x.thread pc

/-- A thread that waits for the tack goes on where its wait now holds. -/
theorem Thread.woken_waiter {th : Thread} {n : Fin 32} {v : BitVec 32} {w : Wait} (hw : th.wait = some w)
    (hst : th.st = .waiting) (hmet : w.tack = n ∧ w.holds v = true) :
    th.woken n v = { th with st := .running, wait := none } := by
  simp only [Thread.woken, hw]
  exact if_pos ⟨hmet.1, hst, hmet.2⟩

theorem Thread.woken_other {th : Thread} {n : Fin 32} {v : BitVec 32}
    (h : ∀ w, th.wait = some w → th.st = .waiting → ¬(w.tack = n ∧ w.holds v = true)) : th.woken n v = th := by
  rw [Thread.woken]
  cases hw : th.wait with
  | none => rfl
  | some w => exact if_neg fun ⟨hn, hst, hv⟩ => h w hw hst ⟨hn, hv⟩

/-- What a thread's signal of its own core leaves. -/
theorem State.signalBy_spec (s : State) (x : Issue) (tack : Fin 32) (set : Bool) (v : BitVec 32)
    (pc : Nat) :
    let t := ((s.issued x).beforeSignal x tack set v).signalBy x tack set v pc
    let new := if set then v else s.tack x.core tack + v
    t.get F.TACK_STATEn_VALUE x.core.toNat tack = new.toNat ∧ t.get F.TACK_STATEn_SIGNALLED x.core.toNat tack = 1 ∧
      t.get F.TACK_STATEn_LKIND x.core.toNat tack = 0 ∧
      t.get F.TACK_STATEn_LTID x.core.toNat tack = threadId x.core x.thread ∧
      (∀ n : Fin 32, n ≠ tack → t.get F.TACK_STATEn_VALUE x.core.toNat n = s.get F.TACK_STATEn_VALUE x.core.toNat n) ∧
      s.fieldsKept t signalFields ∧ t.issuer x = (s.issuer x).retiredAt pc ∧
      (∀ d m, ¬(d = x.core ∧ m = x.thread) →
        t.thread d m = if d = x.core then (s.thread d m).woken tack new else s.thread d m) ∧
      (∀ d, { t.core d with ends := (s.core d).ends } = s.core d) ∧
      { t with threads := s.threads, regs := s.regs, cores := s.cores } = s := by
  intro t new
  obtain ⟨cores, hbefore, hcores⟩ := (s.issued x).beforeSignal_eq x tack set v
  have hid : threadId x.core x.thread < 2 ^ 22 := by
    have := x.core.isLt
    rw [threadId]; omega
  set u : State := { s.issued x with cores } with hu
  obtain ⟨hvalue, hset, hkind, hltid, hothers, hkept⟩ := u.signalled_regs x.core tack set v (lkind := 0) (by decide) hid
  obtain ⟨threads, hsignal⟩ := u.signal_eq x.core tack set v 0 (threadId x.core x.thread)
  have hthread : ∀ d m, (u.signal x.core tack set v 0 (threadId x.core x.thread)).thread d m =
      if d = x.core then ((s.issued x).thread d m).woken tack new else (s.issued x).thread d m :=
    fun d m => u.thread_signal x.core tack set v 0 (threadId x.core x.thread) d m
  have hissuer : (u.signal x.core tack set v 0 (threadId x.core x.thread)).thread x.core x.thread =
      (s.issuer x).issuing := by
    rw [hthread, if_pos rfl, State.issued, State.thread_setThread_same]
    exact Thread.woken_other fun w _ hst => absurd hst (by simp)
  have ht : t = (u.signal x.core tack set v 0 (threadId x.core x.thread)).setThread x.core x.thread
      ((s.issuer x).retiredAt pc) := by
    simp only [t, hbefore, State.signalBy, State.retire, hissuer]
    rfl
  rw [hsignal] at ht
  refine ⟨by rw [ht]; exact hvalue, by rw [ht]; exact hset, by rw [ht]; exact hkind, by rw [ht]; exact hltid,
    fun n hn => by rw [ht]; exact hothers n hn, by rw [ht]; exact hkept,
    by rw [ht]; exact State.thread_setThread_same .., fun d m hdm => ?_, fun d => by rw [ht]; exact hcores d,
    by rw [ht]; simp only [State.signalled, State.put, State.setThread, hu, State.issued]⟩
  rw [ht, State.thread_setThread_other _ _ hdm, ← hsignal, hthread, State.issued, State.thread_setThread_other _ _ hdm]

/-- A signal of a ready thread whose target is its own core, outside a DUP copy. -/
theorem State.tsig_own {tack rs1 : Fin 32} {rs2 : Option (Fin 32)} {set f : Bool}
    (h : s.ready x (match rs2 with | none => [.s rs1] | some r => [.s rs1, .s r]))
    (hdup : s.flag F.INT_DUPSTAT_DUP x.core.toNat = false) (hgusset : isGusset (s.seenLcn x.core) = false)
    (htarget : (match rs2 with | none => s.seenLcn x.core | some r => ((s.issuer x).readS r).truncate 20) =
      s.seenLcn x.core) :
    s.tsig x tack set rs1 rs2 f =
      ((s.issued x).beforeSignal x tack set (((s.issuer x).readS rs1).truncate 32)).signalBy x tack set
        (((s.issuer x).readS rs1).truncate 32) ((s.issuer x).pc + 4) := by
  have htrap : ∀ pc, signalTrap (s.seenLcn x.core) pc = none := by
    intro pc
    rw [signalTrap, hgusset]
    rfl
  have hstall : ∀ (d : Lcn) (pc : Nat), d = s.seenLcn x.core → (if (signalTrap d pc).isSome ||
      (d == s.seenLcn x.core && !s.flag F.INT_DUPSTAT_DUP x.core.toNat) then none
      else s.tagStall x.core x.thread) = none := by
    rintro d pc rfl
    rw [hdup, beq_self_eq_true]
    exact if_pos (Bool.or_true _)
  cases rs2 with
  | none =>
    unfold State.tsig
    dsimp only
    rw [hstall _ _ rfl]
    refine State.issue_done h _ false .none ?_
    simp only [htrap, hdup, beq_self_eq_true, Bool.false_eq_true, if_false, if_true]
    rfl
  | some r =>
    have hseen : ((s.thread x.core x.thread).readS r).truncate 20 = s.seenLcn x.core := htarget
    have hissuing : ((s.issuer x).issuing.readS r).truncate 20 = s.seenLcn x.core := htarget
    unfold State.tsig
    dsimp only
    rw [hstall _ _ hseen]
    refine State.issue_done h _ false .none ?_
    simp only [hissuing, htrap, hdup, beq_self_eq_true, Bool.false_eq_true, if_false, if_true]
    rfl

theorem State.tickWait_eq (s : State) (c : Lcn) (n : Fin 4) (tack : Nat) :
    ∃ l, s.tickWait c n tack = { s with ticked := l } := by
  unfold State.tickWait
  dsimp only
  split
  · exact ⟨_, rfl⟩
  · exact ⟨s.ticked, rfl⟩

/-- A wait of a ready thread that holds falls through. -/
theorem State.twait_holds {tack rs1 : Fin 32} {eq : Bool} (h : s.ready x [.s rs1])
    (hw : ({ tack, operand := ((s.issuer x).readS rs1).truncate 32, eq } : Wait).holds (s.tack x.core tack) = true) :
    s.twait x tack rs1 eq = s.after x (s.issuer x) ((s.issuer x).pc + 4) := by
  refine State.issue_leaves (u := s) (th := (s.issuer x).issuing) h _ false .none rfl rfl ?_
  exact if_pos hw

/-- One that does not leaves its thread WAITING behind it. -/
theorem State.twait_waits {tack rs1 : Fin 32} {eq : Bool} (h : s.ready x [.s rs1])
    (hw : ({ tack, operand := ((s.issuer x).readS rs1).truncate 32, eq } : Wait).holds (s.tack x.core tack) = false) :
    { s.twait x tack rs1 eq with ticked := s.ticked } = s.setThread x.core x.thread { s.issuer x with
      st := .waiting, wait := some { tack, operand := ((s.issuer x).readS rs1).truncate 32, eq },
      pc := (s.issuer x).pc + 4, retired := (s.issuer x).retired + 1, stall := 0 } := by
  have hdone : s.twait x tack rs1 eq = (((s.setThread x.core x.thread (s.issuer x).issuing).setThread x.core x.thread
      { (s.issuer x).issuing with
        st := .waiting, wait := some { tack, operand := ((s.issuer x).readS rs1).truncate 32, eq } }).tickWait x.core
      x.thread tack.val).retire x.core x.thread ((s.issuer x).pc + 4) :=
    State.issue_done h _ false .none (if_neg (by rw [Bool.not_eq_true]; exact hw))
  obtain ⟨l, htick⟩ := State.tickWait_eq ((s.setThread x.core x.thread (s.issuer x).issuing).setThread x.core x.thread
    { (s.issuer x).issuing with
      st := .waiting, wait := some { tack, operand := ((s.issuer x).readS rs1).truncate 32, eq } })
    x.core x.thread tack.val
  rw [hdone, htick, State.setThread_setThread_of_st _ _ _ (by simp) (by simp)]
  have hthread : ∀ W : Thread, ({ s.setThread x.core x.thread W with ticked := l } : State).thread x.core x.thread = W :=
    s.thread_setThread_same x.core x.thread
  simp only [State.retire, hthread]
  exact State.setThread_setThread_of_st s x.core x.thread (by simp) (by simp)

end

/-- Settles O26: a signal of the own core is its tack's registers and the waiters that it meets (`tsig_own`,
`signalled_regs`, `thread_signal`), and a wait falls through or leaves its thread WAITING. -/
theorem localTacks : Obligations.LocalTacks := by
  unfold Obligations.LocalTacks
  intro x tack rs1 rs2 f s h th c u v old met signals waits
  have h1 : s.ready x [.s rs1] := h.mono (by simp) le_rfl
  have hmet : ∀ (w : Wait) (n : BitVec 32), met w n ↔ w.tack = tack ∧ w.holds n = true :=
    fun w n => and_congr_right fun _ => (w.holds_iff n).symm
  refine ⟨fun hdup => ?signals, ?_, ?_, ?_⟩
  case signals =>
    intro seen hgusset
    have hseen : s.seenLcn c = seen := seenLcn_eq s c
    have hdup' : s.flag F.INT_DUPSTAT_DUP c.toNat = false := decide_eq_false hdup
    have hgusset' : isGusset (s.seenLcn c) = false := by rw [hseen]; exact hgusset
    have hsignals : ∀ (set : Bool) {i : Instr}, exec i s = .next (((s.issued x).beforeSignal x tack set v).signalBy x
        tack set v (th.pc + 4)) → signals i (if set then v else old + v) := by
      intro set i hexec
      obtain ⟨hvalue, hset, hkind, hltid, hothers, hkept, hissuer, hthreads, hcores, hrest⟩ :=
        s.signalBy_spec x tack set v (th.pc + 4)
      refine ⟨_, hexec, hvalue, hset, hkind, ?_, hothers, hissuer, fun m hm w hw hst hmeets => ?_,
        fun m hm hnone => ?_, fun d m hd => ?_, hkept, hcores, hrest⟩
      · rw [hltid, threadId]
        exact congrArg (· + x.thread.val) (Nat.mul_comm ..)
      · rw [hthreads c m (fun h => hm h.2), if_pos rfl]
        exact Thread.woken_waiter hw hst ((hmet w _).1 hmeets)
      · rw [hthreads c m (fun h => hm h.2), if_pos rfl]
        exact Thread.woken_other fun w hw hst hmeets => hnone w hw hst ((hmet w _).2 hmeets)
      · rw [hthreads d m (fun h => hd h.1), if_neg hd]
    refine ⟨hsignals false (congrArg Host.Outcome.next ?_), hsignals true (congrArg Host.Outcome.next ?_),
      fun hd => ⟨hsignals false (congrArg Host.Outcome.next ?_), hsignals true (congrArg Host.Outcome.next ?_)⟩⟩
    · exact State.tsig_own h1 hdup' hgusset' rfl
    · exact State.tsig_own h1 hdup' hgusset' rfl
    · exact State.tsig_own h hdup' hgusset' (hd.trans hseen.symm)
    · exact State.tsig_own h hdup' hgusset' (hd.trans hseen.symm)
  · refine ⟨fun hw => congrArg _ (State.twait_holds h1 ?_), fun hw => ⟨_, rfl, State.twait_waits h1 ?_⟩⟩
    · exact (Wait.holds_iff _ _).2 hw
    · exact Bool.eq_false_iff.2 (mt (Wait.holds_iff _ _).1 hw)
  · refine ⟨fun hw => congrArg _ (State.twait_holds h1 ?_), fun hw => ⟨_, rfl, State.twait_waits h1 ?_⟩⟩
    · exact (Wait.holds_iff _ _).2 hw
    · exact Bool.eq_false_iff.2 (mt (Wait.holds_iff _ _).1 hw)
  · exact congrArg _ (State.issueLocal_writesS h1 rs1 _)

end Sys2Proof.Machine
end

section
/-!
PROOFS. Requests at a core's SRAM and tacks, and their replies (O29).
-/

namespace Sys2Proof.Machine

/-! ### A packet taken from the fabric, and what is done beside the fabric -/

section
variable {s : State} {id : Nat} {c : Lcn}

theorem State.dropPacket_ite {P : Prop} {_ : Decidable P} (s t : State) (id : Nat) :
    (if P then s else t).dropPacket id = if P then s.dropPacket id else t.dropPacket id :=
  apply_ite (fun u : State => u.dropPacket id) P s t

theorem State.put_dropPacket (s : State) (id : Nat) (f : Fld) (v u n : Nat) :
    (s.dropPacket id).put f v u n = (s.put f v u n).dropPacket id := rfl

theorem State.addSat_dropPacket (s : State) (id : Nat) (f sat : Fld) (k u n satn : Nat) :
    (s.dropPacket id).addSat f sat k u n satn = (s.addSat f sat k u n satn).dropPacket id := by
  unfold State.addSat
  rw [State.dropPacket_ite]
  rfl

theorem State.writeSram_dropPacket (s : State) (id : Nat) (c : Lcn) (off v n : Nat) :
    (s.dropPacket id).writeSram c off v n = (s.writeSram c off v n).dropPacket id := by
  have hcore : (s.dropPacket id).core c = s.core c := rfl
  simp only [State.writeSram, State.noteWrite, hcore]
  split <;> rfl

theorem State.writeTile_dropPacket (s : State) (id : Nat) (c : Lcn) (tile : Nat) (v : Tile) :
    (s.dropPacket id).writeTile c tile v = (s.writeTile c tile v).dropPacket id := by
  simp only [State.writeTile, State.writeSram_dropPacket]
  rfl

theorem State.spoolSave_dropPacket (s : State) (id : Nat) (p : Packet) (c : Lcn) (tile : Nat) :
    (s.dropPacket id).spoolSave p c tile = (s.spoolSave p c tile).dropPacket id := by
  have hat : ∀ i, (s.dropPacket id).spoolAt i = s.spoolAt i := fun _ => rfl
  simp only [State.spoolSave, hat]
  split
  · split <;> rfl
  · rfl

theorem State.wake_dropPacket (s : State) (id : Nat) (c : Lcn) (n : Fin 32) (m : Fin 4) :
    (s.dropPacket id).wake c n m = (s.wake c n m).dropPacket id := by
  have hthread : (s.dropPacket id).thread c m = s.thread c m := rfl
  have htack : (s.dropPacket id).tack c n = s.tack c n := rfl
  simp only [State.wake, hthread, htack]
  split
  · split <;> rfl
  · rfl

theorem State.signal_dropPacket (s : State) (id : Nat) (c : Lcn) (n : Fin 32) (set : Bool) (v : BitVec 32)
    (lkind ltid : Nat) :
    (s.dropPacket id).signal c n set v lkind ltid = (s.signal c n set v lkind ltid).dropPacket id := by
  have hwakes : ∀ (l : List (Fin 4)) (u : State), l.foldl (fun s m => s.wake c n m) (u.dropPacket id) =
      (l.foldl (fun s m => s.wake c n m) u).dropPacket id := by
    intro l
    induction l with
    | nil => intro u; rfl
    | cons m l ih => intro u; rw [List.foldl_cons, State.wake_dropPacket, ih, List.foldl_cons]
  rw [State.signal_wakes, State.signal_wakes]
  exact hwakes allThreads (s.signalled c n set v lkind ltid)

theorem State.raise_dropPacket (s : State) (id kind ld d detail0 detail1 : Nat) :
    (s.dropPacket id).raise kind ld d detail0 detail1 = (s.raise kind ld d detail0 detail1).dropPacket id := by
  simp only [State.raise, State.raiseEvent, State.get_dropPacket, State.dropPacket_ite]
  rfl

theorem State.raiseField_dropPacket (s : State) (id kind f detail0 detail1 : Nat) :
    (s.dropPacket id).raiseField kind f detail0 detail1 = (s.raiseField kind f detail0 detail1).dropPacket id := by
  have howner : ∀ u : State, (u.dropPacket id).ownerOf f = u.ownerOf f := fun _ => rfl
  simp only [State.raiseField, State.raise_dropPacket, howner]
  split
  · split <;> rfl
  · rfl

theorem State.enterFailure_dropPacket (s : State) (id : Nat) (at_ : Position) (lcn cause : Nat) :
    (s.dropPacket id).enterFailure at_ lcn cause = (s.enterFailure at_ lcn cause).dropPacket id := by
  have hdisplaced : (s.dropPacket id).displaced = s.displaced := rfl
  simp only [State.enterFailure, State.dropPacket_watch, State.addSat_dropPacket, hdisplaced]
  split
  · rfl
  · split
    · rfl
    · split <;> rfl

theorem State.condemn_dropPacket (s : State) (id : Nat) (at_ : Position) :
    (s.dropPacket id).condemn at_ = ((s.condemn at_).1.dropPacket id, (s.condemn at_).2) := by
  have hin : ∀ e, (s.dropPacket id).inWindow e = s.inWindow e := fun _ => rfl
  have hflag : (s.dropPacket id).flag F.INT_CTL_FENCE_EN = s.flag F.INT_CTL_FENCE_EN := rfl
  simp only [State.condemn, State.dropPacket_watch, State.addSat_dropPacket, State.get_dropPacket, hin, hflag]
  split
  · split
    · split <;> rfl
    · rfl
  · rfl

theorem State.countFailure_dropPacket (s : State) (id : Nat) (c : Lcn) (cause tile : Nat) :
    (s.dropPacket id).countFailure c cause tile = (s.countFailure c cause tile).dropPacket id := by
  have hpos : (s.dropPacket id).positionOf c = s.positionOf c := rfl
  have hin : ∀ (u : State) e, (u.dropPacket id).inWindow e = u.inWindow e := fun _ _ => rfl
  simp only [State.countFailure, State.addSat_dropPacket, State.enterFailure_dropPacket, State.condemn_dropPacket,
    State.raiseField_dropPacket, State.dropPacket_watch, hpos, hin]

/-- The detection registers of a failed check (15 R531). -/
def State.detected (s : State) (c : Lcn) (tile cause : Nat) : State :=
  let s := s.addSat F.INT_CSUMSTAT_DETECT F.INT_CSUMSTAT_SAT 1 c.toNat
  ((s.put F.INT_CSUMLAST_TILE tile c.toNat).put F.INT_CSUMLAST_CAUSE cause c.toNat).put F.INT_CSUMLAST_TR s.now c.toNat

/-- A tile joins those whose BAD bit is set. -/
def State.markBad (s : State) (c : Lcn) (tile : Nat) : State := { s with badTiles := s.badTiles ++ [tileKey c tile] }

theorem State.tileFailed_detected (s : State) (c : Lcn) (tile cause : Nat) : s.tileFailed c tile cause =
    if (s.detected c tile cause).badTiles.contains (tileKey c tile) then s.detected c tile cause
    else ((s.detected c tile cause).countFailure c cause tile).markBad c tile := rfl

theorem State.tileFailed_dropPacket (s : State) (id : Nat) (c : Lcn) (tile cause : Nat) :
    (s.dropPacket id).tileFailed c tile cause = (s.tileFailed c tile cause).dropPacket id := by
  have hnow : ∀ u : State, (u.dropPacket id).now = u.now := fun _ => rfl
  have hdetected : (s.dropPacket id).detected c tile cause = (s.detected c tile cause).dropPacket id := by
    simp only [State.detected, State.addSat_dropPacket, State.put_dropPacket, hnow]
  rw [State.tileFailed_detected, State.tileFailed_detected, hdetected, State.countFailure_dropPacket,
    State.dropPacket_ite]
  rfl

theorem State.gatedError_dropPacket (s : State) (id off : Nat) :
    (s.dropPacket id).gatedError off = (s.gatedError off).dropPacket id := by
  simp only [State.gatedError, State.addSat_dropPacket, State.put_dropPacket]

end

/-! ### The way back of a reply (08 R304, R313) -/

/-- What the way back of a reply depends on is as before: the holes, the transit domains, and the relocated segments. -/
def State.wayKept (s t : State) : Prop :=
  t.relocations = s.relocations ∧ t.get F.FAB_HOLEMAP_HOLES = s.get F.FAB_HOLEMAP_HOLES ∧
    t.get F.PWR_DOMSTATn_ON 0 1 = s.get F.PWR_DOMSTATn_ON 0 1

section
variable {s t w : State} {u n : Nat}

theorem State.wayKept.refl (s : State) : s.wayKept s := ⟨rfl, rfl, rfl⟩

theorem State.wayKept.trans (h : s.wayKept t) (h' : t.wayKept w) : s.wayKept w :=
  ⟨h'.1.trans h.1, h'.2.1.trans h.2.1, h'.2.2.trans h.2.2⟩

theorem State.wayKept_of_regs (hr : t.relocations = s.relocations) (h : t.regs = s.regs) : s.wayKept t := by
  refine ⟨hr, ?_, ?_⟩ <;> simp only [State.get, h]

/-- A register write beside the holes and the domains. -/
theorem State.wayKept_put (s : State) {f : Fld} (v : Nat) (hu : u < 2 ^ 20) (hn : n < 2 ^ 12)
    (hf : F.FAB_HOLEMAP_HOLES.id ≠ f.id ∧ F.PWR_DOMSTATn_ON.id ≠ f.id := by decide) : s.wayKept (s.put f v u n) :=
  ⟨rfl, State.get_put_field s v hf.1 hu (by decide) hn (by decide),
    State.get_put_field s v hf.2 hu (by decide) hn (by decide)⟩

theorem State.wayKept_addSat (s : State) {f sat : Fld} (k : Nat) {satn : Nat} (hu : u < 2 ^ 20) (hn : n < 2 ^ 12)
    (hsatn : satn < 2 ^ 12)
    (hf : F.FAB_HOLEMAP_HOLES.id ≠ f.id ∧ F.PWR_DOMSTATn_ON.id ≠ f.id := by decide)
    (hsat : F.FAB_HOLEMAP_HOLES.id ≠ sat.id ∧ F.PWR_DOMSTATn_ON.id ≠ sat.id := by decide) :
    s.wayKept (s.addSat f sat k u n satn) := by
  unfold State.addSat
  split
  · exact s.wayKept_put _ hu hn hf
  · exact (s.wayKept_put _ hu hn hf).trans (State.wayKept_put _ _ hu hsatn hsat)

theorem State.transit_index (pos : Lcn) : (64 + fieldOf pos) / 64 = 1 := by
  have := pos.isLt
  rw [fieldOf]
  omega

theorem State.repliesTo_of_wayKept {c pos : Lcn} (h : s.repliesTo c pos) (hk : s.wayKept t) : t.repliesTo c pos := by
  obtain ⟨hreloc, hholes, hdom⟩ := hk
  obtain ⟨hhole, htransit⟩ := h
  have hroute : t.routeTarget c = s.routeTarget c := by
    simp only [State.routeTarget, State.relocationOf, hreloc]
  refine ⟨?_, ?_⟩
  · rw [hroute, State.isHole, hholes]
    exact hhole
  · rw [State.transitOn, State.domainOn, State.transit_index, hdom, ← State.transit_index pos]
    exact htransit

/-- A reply that can be sent, once its request has left the fabric. -/
theorem State.reply_answeredBy {p : Packet} (h : s.repliesTo p.src p.pos) (typ : PacketType)
    (opc arg flits body : Nat) :
    (s.dropPacket p.id).reply p p.pos typ opc arg flits body = s.answeredBy p typ opc arg flits body := by
  obtain ⟨hhole, htransit⟩ := h
  have hcond : (s.isHole (fieldOf (s.routeTarget p.src)) || !s.transitOn (fieldOf p.pos)) = false := by
    rw [hhole, htransit]
    exact rfl
  exact if_neg (by rw [Bool.not_eq_true]; exact hcond)

end

/-! ### What the effects of requests leave of it -/

section
variable {s : State} {c : Lcn}

theorem State.wayKept_writeSram (s : State) (c : Lcn) (off v n : Nat) : s.wayKept (s.writeSram c off v n) := by
  refine State.wayKept_of_regs ?_ ?_ <;> simp only [State.writeSram, State.noteWrite] <;> split <;> rfl

theorem State.wayKept_writeTile (s : State) (c : Lcn) (tile : Nat) (v : Tile) : s.wayKept (s.writeTile c tile v) := by
  have hwrite := s.wayKept_writeSram c (tile * 256) v.toNat 256
  unfold State.writeTile
  generalize s.writeSram c (tile * 256) v.toNat 256 = w at hwrite ⊢
  exact hwrite.trans (State.wayKept_of_regs rfl rfl)

theorem State.wayKept_spoolSave (s : State) (p : Packet) (c : Lcn) (tile : Nat) : s.wayKept (s.spoolSave p c tile) := by
  unfold State.spoolSave
  split
  · split <;> exact .refl _
  · exact .refl _

theorem State.wayKept_signal (s : State) (c : Lcn) (n : Fin 32) (set : Bool) (v : BitVec 32) (lkind ltid : Nat) :
    s.wayKept (s.signal c n set v lkind ltid) := by
  have hu : c.toNat < 2 ^ 20 := c.isLt
  have hn : n.val < 2 ^ 12 := by omega
  obtain ⟨threads, h⟩ := s.signal_eq c n set v lkind ltid
  rw [h]
  exact ((((s.wayKept_put _ hu hn).trans (State.wayKept_put _ _ hu hn)).trans (State.wayKept_put _ _ hu hn)).trans
    (State.wayKept_put _ _ hu hn)).trans (State.wayKept_of_regs rfl rfl)

theorem State.wayKept_raise (s : State) {kind ld id detail0 detail1 : Nat} (hld : ld < 2 ^ 20) :
    s.wayKept (s.raise kind ld id detail0 detail1) := by
  unfold State.raise State.raiseEvent
  split
  · exact (s.wayKept_put _ hld (by decide)).trans (State.wayKept_put _ _ hld (by decide))
  · exact .refl _

theorem State.ownerOf_lt {s : State} {f k : Nat} (h : s.ownerOf f = some k) : k < 16 :=
  List.mem_range.1 (List.mem_of_find?_eq_some h)

theorem State.wayKept_raiseField (s : State) (kind f detail0 detail1 : Nat) :
    s.wayKept (s.raiseField kind f detail0 detail1) := by
  have hzero : s.wayKept (s.raise kind 0 0 detail0 detail1) := s.wayKept_raise (by decide)
  unfold State.raiseField
  dsimp only
  split
  case h_1 k hk =>
    split
    · exact hzero
    · exact hzero.trans (State.wayKept_raise _ (by have := State.ownerOf_lt hk; omega))
  case h_2 => exact hzero

theorem State.wayKept_enterFailure (s : State) (at_ : Position) (lcn cause : Nat) :
    s.wayKept (s.enterFailure at_ lcn cause) := by
  have hsat : s.wayKept (s.addSat F.INT_STAT_DISPLACED F.INT_STAT_SAT 1) :=
    s.wayKept_addSat 1 (by decide) (by decide) (by decide)
  unfold State.enterFailure
  dsimp only
  split
  · exact .refl _
  · split
    · exact .refl _
    · split <;> exact hsat

theorem State.wayKept_condemn (s : State) (at_ : Position) : s.wayKept (s.condemn at_).1 := by
  have hsat : s.wayKept (s.addSat F.INT_STAT_CONDEMNED F.INT_STAT_SAT 1) :=
    s.wayKept_addSat 1 (by decide) (by decide) (by decide)
  unfold State.condemn
  dsimp only
  split
  · split
    · split
      · exact hsat
      · exact s.wayKept_put _ (by decide) (by decide)
    · exact .refl _
  · exact .refl _

theorem State.wayKept_countFailure (s : State) (c : Lcn) {cause : Nat} (tile : Nat) (hcause : cause < 2 ^ 12) :
    s.wayKept (s.countFailure c cause tile) := by
  have hu : c.toNat < 2 ^ 20 := c.isLt
  exact ((((s.wayKept_addSat 1 hu (by decide) (by decide)).trans
    (State.wayKept_addSat _ 1 (by decide) hcause hcause)).trans (State.wayKept_enterFailure _ _ _ _)).trans
    (State.wayKept_condemn _ _)).trans (State.wayKept_raiseField _ _ _ _ _)

theorem State.wayKept_tileFailed (s : State) (c : Lcn) (tile : Nat) {cause : Nat} (hcause : cause < 2 ^ 12) :
    s.wayKept (s.tileFailed c tile cause) := by
  have hu : c.toNat < 2 ^ 20 := c.isLt
  have hdetected : s.wayKept (s.detected c tile cause) :=
    (((s.wayKept_addSat 1 hu (by decide) (by decide)).trans (State.wayKept_put _ _ hu (by decide))).trans
      (State.wayKept_put _ _ hu (by decide))).trans (State.wayKept_put _ _ hu (by decide))
  rw [State.tileFailed_detected]
  split
  · exact hdetected
  · exact (hdetected.trans (State.wayKept_countFailure _ c tile hcause)).trans (.refl _)

theorem State.wayKept_gatedError (s : State) (off : Nat) : s.wayKept (s.gatedError off) :=
  (s.wayKept_addSat 1 (by decide) (by decide) (by decide)).trans (State.wayKept_put _ _ (by decide) (by decide))

end

/-! ### Requests that a core takes -/

section
variable {s t : State} {c : Lcn} {p : Packet}

/-- A request stands whole at the backed core that it is for, whose interface takes it. -/
def State.admitsRequest (s : State) (c : Lcn) (p : Packet) : Prop :=
  s.atDest p.id p.typ = some p ∧ p.toBlock = false ∧ s.servingCore p.pos = some c ∧ p.dst = c ∧ p.good = true ∧
    s.accepts c p = true ∧ s.inReset c p = false

theorem State.admitsRequest_of_serves (h : s.serves c p) : s.admitsRequest c p := by
  obtain ⟨hat, hblock, hcore, hdst, hgood, haccepts, hreset, -, -⟩ := h
  exact ⟨hat, hblock, hcore, hdst, hgood, haccepts, hreset⟩

/-- A request that is taken leaves the fabric and is handed on. -/
theorem State.serve_admitted (h : s.admitsRequest c p) (f : Lcn → Packet → State → State) :
    s.serve p.id p.typ f = f c p (s.dropPacket p.id) := by
  obtain ⟨hat, hblock, hcore, hdst, hgood, haccepts, hreset⟩ := h
  have hreset' : (s.dropPacket p.id).inReset c p = false := hreset
  simp only [State.serve, hat, hblock, hcore, haccepts, hgood, hdst, hreset', Bool.false_eq_true, if_false,
    Bool.not_true, ne_eq, not_true_eq_false]

/-- A request to memory within the partition, whose core's clocks run, has its effect. -/
theorem State.guarded_serves (h : s.serves c p) (f : State → State) :
    (s.dropPacket p.id).guarded c p f = f (s.dropPacket p.id) := by
  obtain ⟨-, -, -, -, -, -, -, hpart, hclk⟩ := h
  have hpart' : (s.dropPacket p.id).inPartition p.ld (fieldOf c) = true := hpart
  have hclk' : (s.dropPacket p.id).clocked c = true := hclk
  simp only [State.guarded, hpart', hclk', Bool.not_true, Bool.false_eq_true, if_false]

/-- The reply to a request that has had its effect. -/
theorem State.reply_after (h : s.repliesTo p.src p.pos) (hk : s.wayKept t) (typ : PacketType)
    (opc arg flits body : Nat) :
    (t.dropPacket p.id).reply p p.pos typ opc arg flits body = t.answeredBy p typ opc arg flits body :=
  State.reply_answeredBy (State.repliesTo_of_wayKept h hk) typ opc arg flits body

theorem State.badTarget_answers (h : s.repliesTo p.src p.pos) (tile : Nat) :
    (s.dropPacket p.id).badTarget c p tile = (s.tileFailed c tile 2).answeredBy p .err 0 (0x21 + tile * 256) 0 0 := by
  rw [State.badTarget, State.tileFailed_dropPacket, State.replyErr]
  exact State.reply_after h (s.wayKept_tileFailed c tile (by decide)) ..

theorem State.tileGood_dropPacket (s : State) (id : Nat) (c : Lcn) (tile : Nat) :
    (s.dropPacket id).tileGood c tile = s.tileGood c tile := rfl

theorem State.readSram_dropPacket (s : State) (id : Nat) (c : Lcn) (off n : Nat) :
    (s.dropPacket id).readSram c off n = s.readSram c off n := rfl

theorem State.readTile_toNat (s : State) (c : Lcn) (tile : Nat) :
    (s.readTile c tile).toNat = s.readSram c (tile * 256) 256 := by
  rw [State.readTile, BitVec.toNat_ofNat]
  refine Nat.mod_eq_of_lt ((readLE_lt _ _ _ _).trans_eq ?_)
  rw [← two_pow_eight_mul]

theorem State.serveRead_good (h : s.repliesTo p.src p.pos) (hopc : p.opc < 8)
    (hgood : s.tileGood c (p.arg % 65536 / 256) = true) (hal : sizeOf p.opc = 256 → p.arg % 65536 % 256 = 0) :
    (s.dropPacket p.id).serveRead c p = s.answeredBy p .rdr p.opc 0 (if sizeOf p.opc = 256 then 32 else 1)
      (s.readSram c (p.arg % 65536) (sizeOf p.opc)) := by
  have hreply := fun flits body => State.reply_answeredBy h .rdr (p.opc % 8) 0 flits body
  rw [Nat.mod_eq_of_lt hopc] at hreply
  simp only [State.serveRead, State.tileGood_dropPacket, hgood, Bool.not_true, Bool.false_eq_true, if_false,
    Nat.mod_eq_of_lt hopc, hreply, State.readTile_toNat, State.readSram_dropPacket]
  by_cases hsize : sizeOf p.opc = 256
  · have htile : p.arg % 65536 / 256 * 256 = p.arg % 65536 := by have := hal hsize; omega
    rw [if_pos hsize, if_pos hsize, htile, hsize]
  · rw [if_neg hsize, if_neg hsize]

theorem State.serveRead_bad (h : s.repliesTo p.src p.pos) (hbad : s.tileGood c (p.arg % 65536 / 256) = false) :
    (s.dropPacket p.id).serveRead c p = (s.tileFailed c (p.arg % 65536 / 256) 2).answeredBy p .err 0
      (0x21 + p.arg % 65536 / 256 * 256) 0 0 := by
  simp only [State.serveRead, State.tileGood_dropPacket, hbad, Bool.not_false, if_true]
  exact State.badTarget_answers h _

theorem State.serveWrite_bytes (h : s.repliesTo p.src p.pos) (hsize : sizeOf p.opc ≠ 256)
    (hgood : s.tileGood c (p.arg % 65536 / 256) = true) :
    (s.dropPacket p.id).serveWrite c p = (s.writeSram c (p.arg % 65536) (p.body % 2 ^ (8 * sizeOf p.opc))
      (sizeOf p.opc)).answeredBy p .ack 0 0 0 0 := by
  simp only [State.serveWrite, if_neg hsize, State.tileGood_dropPacket, hgood, Bool.not_true, Bool.false_eq_true,
    if_false, State.writeSram_dropPacket]
  exact State.reply_after h (s.wayKept_writeSram ..) ..

theorem State.serveWrite_tile (h : s.repliesTo p.src p.pos) (hsize : sizeOf p.opc = 256) :
    (s.dropPacket p.id).serveWrite c p = ((s.spoolSave p c (p.arg % 65536 / 256)).writeTile c (p.arg % 65536 / 256)
      (BitVec.ofNat 2048 p.body)).answeredBy p .ack 0 0 0 0 := by
  simp only [State.serveWrite, if_pos hsize, State.spoolSave_dropPacket, State.writeTile_dropPacket]
  exact State.reply_after h ((s.wayKept_spoolSave ..).trans (State.wayKept_writeTile ..)) ..

theorem State.serveAtomic_good (h : s.repliesTo p.src p.pos) (hgood : s.tileGood c (p.arg % 65536 / 256) = true) :
    let n := amoBytes (p.arg.testBit 63)
    let old := s.readSram c (p.arg % 65536) n
    (s.dropPacket p.id).serveAtomic c p = (s.writeSram c (p.arg % 65536) (amoApply p.opc (BitVec.ofNat (8 * n) old)
      (BitVec.ofNat (8 * n) (p.body % 2 ^ 64)) (BitVec.ofNat (8 * n) (p.body / 2 ^ 64))).toNat n).answeredBy p .ack 0 0 1
        old := by
  intro n old
  simp only [State.serveAtomic, State.tileGood_dropPacket, hgood, Bool.not_true, Bool.false_eq_true, if_false,
    State.atomicAt, State.writeSram_dropPacket, State.readSram_dropPacket]
  exact State.reply_after h (s.wayKept_writeSram ..) ..

theorem State.packetSignal_thread (h : s.repliesTo p.src p.pos) (hsender : p.sender = .thread) :
    ((s.dropPacket p.id).packetSignal c p).replyAck p = (s.signal c (Fin.ofNat 32 p.arg) (decide (p.opc = 1))
      (BitVec.ofNat 32 (p.arg / 2 ^ 32)) 0 (4 * p.src.toNat + p.sth.val)).answeredBy p .ack 0 0 0 0 := by
  have hid : threadId p.src p.sth = 4 * p.src.toNat + p.sth.val := by rw [threadId, Nat.mul_comm]
  simp only [State.packetSignal, hsender, hid, State.signal_dropPacket]
  exact State.reply_after h (s.wayKept_signal ..) ..

theorem sizeOf_eq_256 {opc : Nat} (h : opc ≤ 4) : sizeOf opc = 256 ↔ opc = 4 := by
  interval_cases opc <;> decide

theorem amoBytes_toNat (s : State) (c : Lcn) (off n : Nat) :
    (BitVec.ofNat (8 * n) (s.readSram c off n)).toNat = s.readSram c off n := by
  rw [BitVec.toNat_ofNat, two_pow_eight_mul]
  exact Nat.mod_eq_of_lt (readLE_lt ..)

theorem exec_rd_core (h : s.admitsRequest c p) (htyp : p.typ = .rd) (hwin : p.toWindow = false) :
    exec (.rd p.id) s = .next ((s.dropPacket p.id).guarded c p fun s => s.serveRead c p) := by
  obtain ⟨hat, hblock, -⟩ := id h
  have hserve := State.serve_admitted h fun c p s =>
    if p.toWindow then s.readRegisters p else s.guarded c p fun s => s.serveRead c p
  rw [htyp] at hat hserve
  change execRd .. = _
  simp only [execRd, hat, hblock, hserve, hwin, Bool.false_eq_true, if_false]

theorem exec_wr_core (h : s.admitsRequest c p) (htyp : p.typ = .wr) (hwin : p.toWindow = false) :
    exec (.wr p.id) s = .next ((s.dropPacket p.id).guarded c p fun s => s.serveWrite c p) := by
  obtain ⟨hat, hblock, -⟩ := id h
  have hserve := State.serve_admitted h fun c p s => s.guarded c p fun s => s.serveWrite c p
  rw [htyp] at hat hserve
  change execWr .. = _
  simp only [execWr, hat, hblock, hserve, hwin, Bool.false_eq_true, if_false]

theorem exec_amo_core (h : s.admitsRequest c p) (htyp : p.typ = .amo) :
    exec (.amo p.id) s = .next ((s.dropPacket p.id).guarded c p fun s => s.serveAtomic c p) := by
  have hserve := State.serve_admitted h fun c p s => s.guarded c p fun s => s.serveAtomic c p
  rw [htyp] at hserve
  exact congrArg Host.Outcome.next hserve

theorem exec_tsigPacket_core (h : s.admitsRequest c p) (htyp : p.typ = .tsig) (hopc : p.opc ≠ 8) :
    exec (.tsigPacket p.id) s = .next ((s.dropPacket p.id).guarded c p fun s => (s.packetSignal c p).replyAck p) := by
  obtain ⟨hat, -⟩ := id h
  have hserve := State.serve_admitted h fun c p s => s.guarded c p fun s => (s.packetSignal c p).replyAck p
  rw [htyp] at hat hserve
  change execTsigPacket .. = _
  simp only [execTsigPacket, hat, if_neg hopc, hserve]

theorem exec_probe_core (h : s.admitsRequest c p) (htyp : p.typ = .probe) :
    exec (.probe p.id) s = .next ((s.dropPacket p.id).reply p p.pos .prober 0
      (p.hops % 4096 + p.seams % 32 * 4096) 0 0) := by
  have hserve := State.serve_admitted h fun _ p s =>
    s.reply p p.pos .prober 0 (p.hops % 4096 + p.seams % 32 * 4096) 0 0
  rw [htyp] at hserve
  exact congrArg Host.Outcome.next hserve

end

/-- Settles O29: a request that its core takes leaves the fabric and has its effect (`serve_admitted`, `guarded_serves`),
which is beside the fabric and the way back (`…_dropPacket`, `wayKept_…`), and then its reply is put (`reply_after`). -/
theorem requestsAtACore : Obligations.RequestsAtACore := by
  unfold Obligations.RequestsAtACore
  intro s c p hreply off tile bytes size flits
  have hsize : p.opc ≤ 4 → sizeOf p.opc = size := by
    intro hopc
    have hcases : p.opc = 0 ∨ p.opc = 1 ∨ p.opc = 2 ∨ p.opc = 3 ∨ p.opc = 4 := by omega
    rcases hcases with h | h | h | h | h <;> simp only [size, h] <;> rfl
  refine ⟨fun hserves hwin => ⟨?rd, ?wr, ?wrTile, ?amo, ?tsig, ?probe⟩, ?refused⟩
  case rd =>
    intro htyp hopc
    have hexec := exec_rd_core (State.admitsRequest_of_serves hserves) htyp hwin
    rw [State.guarded_serves hserves] at hexec
    refine ⟨fun hgood hal => hexec.trans (congrArg _ ?_), fun hbad => hexec.trans (congrArg _ ?_)⟩
    · have hread := State.serveRead_good (c := c) hreply (by omega) (State.tileGood_of hgood)
        (fun h256 => hal.resolve_left (not_not.2 ((hsize hopc).symm.trans h256)))
      rw [hsize hopc] at hread
      exact hread
    · refine State.serveRead_bad hreply ?_
      simpa [State.tileGood, tileKey] using hbad
  case wr =>
    intro htyp hopc hgood
    have hexec := exec_wr_core (State.admitsRequest_of_serves hserves) htyp hwin
    rw [State.guarded_serves hserves] at hexec
    have hwrite := State.serveWrite_bytes (c := c) hreply (by rw [Ne, sizeOf_eq_256 (by omega)]; omega)
      (State.tileGood_of hgood)
    rw [hsize (by omega)] at hwrite
    exact hexec.trans (congrArg _ hwrite)
  case wrTile =>
    intro htyp hopc _
    have hexec := exec_wr_core (State.admitsRequest_of_serves hserves) htyp hwin
    rw [State.guarded_serves hserves] at hexec
    exact hexec.trans (congrArg _ (State.serveWrite_tile hreply ((sizeOf_eq_256 hopc.le).2 hopc)))
  case amo =>
    intro htyp hopc hgood n old x y new
    have hexec := exec_amo_core (State.admitsRequest_of_serves hserves) htyp
    rw [State.guarded_serves hserves] at hexec
    have hnew : amoApply p.opc old x y = new := by
      have hcases : p.opc = 0 ∨ p.opc = 1 ∨ p.opc = 2 ∨ p.opc = 3 ∨ p.opc = 4 ∨ p.opc = 5 ∨ p.opc = 6 ∨ p.opc = 7 := by
        omega
      rcases hcases with h | h | h | h | h | h | h | h <;> simp only [new, h, amoApply, BitVec.slt, decide_eq_true_eq]
    have hold : old.toNat = s.readSram c off n := amoBytes_toNat s c off n
    rw [hold, ← hnew]
    exact hexec.trans (congrArg _ (State.serveAtomic_good hreply (State.tileGood_of hgood)))
  case tsig =>
    intro htyp hopc hsender
    have hexec := exec_tsigPacket_core (State.admitsRequest_of_serves hserves) htyp (by omega)
    rw [State.guarded_serves hserves] at hexec
    exact hexec.trans (congrArg _ (State.packetSignal_thread hreply hsender))
  case probe =>
    intro htyp
    exact (exec_probe_core (State.admitsRequest_of_serves hserves) htyp).trans
      (congrArg _ (State.reply_answeredBy hreply ..))
  case refused =>
    intro hblock hwin hat hcore hdst hgood haccepts hreset htyp
    have hexec := exec_wr_core ⟨hat, hblock, hcore, hdst, hgood, haccepts, hreset⟩ htyp hwin
    refine ⟨fun hpart => hexec.trans (congrArg _ ?_), fun hpart hclk => hexec.trans (congrArg _ ?_)⟩
    · have hpart' : (s.dropPacket p.id).inPartition p.ld (fieldOf c) = false := hpart
      simp only [State.guarded, hpart', Bool.not_false, if_true]
      exact State.reply_answeredBy hreply ..
    · have hpart' : (s.dropPacket p.id).inPartition p.ld (fieldOf c) = true := hpart
      have hclk' : (s.dropPacket p.id).clocked c = false := hclk
      simp only [State.guarded, hpart', hclk', Bool.not_true, Bool.not_false, Bool.false_eq_true, if_false, if_true,
        State.gatedCore, State.gatedError_dropPacket]
      exact State.reply_after hreply (s.wayKept_gatedError _) ..

end Sys2Proof.Machine
end

section
/-!
PROOFS. Accesses of another core's SRAM: a tag taken and one request sent (O8).
-/

namespace Sys2Proof.Machine

/-! ### Injection keeps every request (08 R289, R312) -/

/-- The request of a packet, wherever it stands: what injection does not set. -/
def Packet.sameRequest (p q : Packet) : Prop :=
  { q with injected := p.injected, side := p.side, cm := p.cm, inj := p.inj } = p

theorem Packet.sameRequest.eq {p q : Packet} (h : p.sameRequest q) :
    { q with injected := p.injected, side := p.side, cm := p.cm, inj := p.inj } = p := h

theorem Packet.sameRequest.id {p q : Packet} (h : p.sameRequest q) : q.id = p.id := by
  have hid := congrArg Packet.id h.eq
  exact hid

section
variable {s t : State} {p q r : Packet} {c : Lcn}

theorem State.joined_sameRequest (s : State) (h : p.sameRequest r) : p.sameRequest (s.joined r) := h

theorem State.pkts_countInjection (s : State) (p : Packet) : (s.countInjection p).fab.pkts = s.fab.pkts := by
  unfold State.countInjection
  dsimp only
  split
  · obtain ⟨regs, h⟩ := State.addSat_eq { s with fab := { s.fab with
      injected := s.fab.injected + 1, caches := s.cachesAfter p } } F.FAB_MARKS_MARKS F.FAB_MARKS_SAT 1 (fieldOf p.pos)
    rw [h]
  · rfl

theorem State.pkts_countOut (s : State) (p : Packet) : (s.countOut p).fab.pkts = s.fab.pkts := by
  unfold State.countOut
  split
  · rfl
  · split <;> rfl

theorem State.mem_setPacket (hq : q ∈ s.fab.pkts) :
    ∃ q' ∈ (s.setPacket r).fab.pkts, q' = if q.id = r.id then r else q :=
  ⟨_, List.mem_map_of_mem hq, rfl⟩

/-- What waits in an interface and can reach its destination, is offered: nothing is lost, and every request is kept. -/
theorem State.tryInject_keeps (hdst : s.isHole (fieldOf r.dst) = false) (hrt : s.isHole (fieldOf r.rt) = false)
    (hr : r.id = p.id → p.sameRequest r) (hq : ∃ q ∈ s.fab.pkts, p.sameRequest q) :
    (∃ q ∈ (s.tryInject r).fab.pkts, p.sameRequest q) ∧
      (s.tryInject r).fab.pkts.length = s.fab.pkts.length := by
  have hturn : (s.isHole (fieldOf r.dst) && !r.typ.isReply || s.isHole (fieldOf r.rt)) = false := by
    rw [hdst, hrt]
    rfl
  unfold State.tryInject
  rw [hturn]
  by_cases hin : r.injected = true
  · rw [if_pos hin]
    exact ⟨hq, rfl⟩
  · rw [if_neg hin, if_neg Bool.false_ne_true]
    by_cases hmay : s.mayInject r = true
    · rw [if_pos hmay, State.pkts_countOut, State.pkts_countInjection]
      obtain ⟨q, hmem, hsame⟩ := hq
      obtain ⟨q', hmem', rfl⟩ := State.mem_setPacket (r := s.joined r) hmem
      refine ⟨⟨_, hmem', ?_⟩, List.length_map ..⟩
      split
      case isTrue hid => exact s.joined_sameRequest (hr (hid.symm.trans hsame.id))
      case isFalse => exact hsame
    · rw [if_neg hmay]
      exact ⟨hq, rfl⟩

theorem State.injects.isHole (h : s.injects t) (f : Nat) : t.isHole f = s.isHole f := by
  rw [State.isHole, h.kept _ 0 0 (by decide) (by decide) (by decide), State.isHole]

theorem State.tryInjects_keep : ∀ (l : List Packet) (s : State),
    (∀ r ∈ l, s.isHole (fieldOf r.dst) = false ∧ s.isHole (fieldOf r.rt) = false ∧ (r.id = p.id → p.sameRequest r)) →
    (∃ q ∈ s.fab.pkts, p.sameRequest q) →
    (∃ q ∈ (l.foldl (fun s p => s.tryInject p) s).fab.pkts, p.sameRequest q) ∧
      (l.foldl (fun s p => s.tryInject p) s).fab.pkts.length = s.fab.pkts.length
  | [], s, _, hq => ⟨hq, rfl⟩
  | r :: l, s, hl, hq => by
    obtain ⟨hdst, hrt, hr⟩ := hl r List.mem_cons_self
    obtain ⟨hq', hlen⟩ := State.tryInject_keeps hdst hrt hr hq
    obtain ⟨hq'', hlen'⟩ := State.tryInjects_keep l (s.tryInject r) (fun r' hr' => by
      rw [(s.injects_tryInject r).isHole, (s.injects_tryInject r).isHole]
      exact hl r' (List.mem_cons_of_mem _ hr')) hq'
    exact ⟨hq'', hlen'.trans hlen⟩

/-- The packet of a request of a thread as it enters its interface. -/
def State.entering (s : State) (p : Packet) : Packet := { p with id := s.fab.nextId, injected := false }

/-- A request sent where nothing lies in a hole: one packet more, and what injection leaves (08 R304, R317). -/
theorem State.send_spec (hsender : p.sender = .thread) (hdst : s.isHole (fieldOf p.dst) = false)
    (hrt : s.isHole (fieldOf p.rt) = false) (hnum : s.numbered) (hclear : s.interfaceClear p.src) :
    (∃ q ∈ (s.send p).fab.pkts, (s.entering p).sameRequest q) ∧
      (s.send p).fab.pkts.length = s.fab.pkts.length + 1 ∧ (s.send p).sram = s.sram ∧ (s.send p).threads = s.threads ∧
      (s.send p).cores = s.cores := by
  have hreach : s.unreachable (s.entering p) = none := by
    have hor : (s.isHole (fieldOf p.dst) || s.isHole (fieldOf p.rt)) = false := by rw [hdst, hrt]; rfl
    simp only [State.unreachable, State.entering, hor, hsender]
    rfl
  have hsend : s.send p = (s.enqueue (s.entering p)).pump p.src := by
    unfold State.send
    dsimp only
    rw [← State.entering, hreach]
  have hinj := (s.enqueue (s.entering p)).injects_pump p.src
  have hwaiting : ∀ r ∈ (s.enqueue (s.entering p)).fab.pkts.filter fun q => !q.injected && q.src == p.src,
      s.isHole (fieldOf r.dst) = false ∧ s.isHole (fieldOf r.rt) = false ∧
        (r.id = (s.entering p).id → (s.entering p).sameRequest r) := by
    intro r hr
    obtain ⟨hmem, hwait⟩ := List.mem_filter.1 hr
    rw [Bool.and_eq_true, Bool.not_eq_true', beq_iff_eq] at hwait
    rcases List.mem_append.1 hmem with hold | hnew
    · obtain ⟨hd, ht⟩ := hclear r hold hwait.1 hwait.2
      exact ⟨hd, ht, fun hid => absurd hid (hnum r hold).ne⟩
    · rw [List.mem_singleton.1 hnew]
      exact ⟨hdst, hrt, fun _ => rfl⟩
  obtain ⟨hkept, hlength⟩ := State.tryInjects_keep _ (s.enqueue (s.entering p)) hwaiting
    ⟨s.entering p, List.mem_append_right _ (List.mem_singleton.2 rfl), rfl⟩
  rw [hsend]
  exact ⟨hkept, hlength.trans List.length_append, hinj.sram, hinj.threads, hinj.cores⟩

end

/-! ### An access sent (02 R71, R72; 03 R110) -/

section
variable {s u : State} {x : Issue} {d : Lcn} {k : Nat} {ad : Word}

/-- An address in the SRAM of a core. -/
theorem Word.sram_core (had : ad.toNat = d.toNat * 2 ^ 16 + k) (hk : k < 2 ^ 16) :
    ad.toNat < 2 ^ 36 ∧ BitVec.ofNat 20 (ad.toNat / 65536) = d ∧ ad.toNat % 65536 = k := by
  have hd := d.isLt
  refine ⟨by omega, ?_, by omega⟩
  apply BitVec.eq_of_toNat_eq
  rw [BitVec.toNat_ofNat]
  omega

theorem State.target_remote {c : Lcn} (had : ad.toNat = d.toNat * 2 ^ 16 + k) (hk : k < 2 ^ 16) (hd : d ≠ s.seenLcn c) :
    s.target c ad = .remote d := by
  obtain ⟨hlt, hcore, -⟩ := Word.sram_core had hk
  rw [s.target_sram c ad hlt]
  change (if BitVec.ofNat 20 (ad.toNat / 65536) = _ then _ else Target.remote (BitVec.ofNat 20 (ad.toNat / 65536))) = _
  rw [hcore, if_neg hd]

theorem State.accessRoute_sram {c : Lcn} (had : ad.toNat = d.toNat * 2 ^ 16 + k) (hk : k < 2 ^ 16) :
    s.accessRoute c ad.toNat = (s.reachedLcn c d, s.routeTarget (s.reachedLcn c d), (s.reachedLcn c d).toNat) := by
  obtain ⟨hlt, hcore, -⟩ := Word.sram_core had hk
  simp only [State.accessRoute, State.memoryRoute, if_pos hlt, hcore]

/-- The tag that a thread takes for an access of a core's SRAM. -/
def State.accessTag (s : State) (x : Issue) (pc : Nat) (ad : Word) (op : TagOp) (dst : Lcn) : Tag :=
  { st := .held, gen := (s.tagAt x.core (s.core x.core).nextTag).gen, thread := x.thread, pc, addr := ad, op,
    dest := dst.toNat, dst, others := [], pkt := s.fab.nextId }

/-- The state once that tag is taken. -/
def State.tagged (s : State) (x : Issue) (g : Tag) : State :=
  s.setCore x.core { s.core x.core with
    lastTag := x.thread.val, tags := mset {} (s.core x.core).tags (s.core x.core).nextTag g }

theorem State.tagAt_tagged (s : State) (x : Issue) (g : Tag) (m : Nat) : (s.tagged x g).tagAt x.core m =
    if m = (s.core x.core).nextTag then g else s.tagAt x.core m := by
  rw [State.tagAt, State.tagged, State.core_setCore_same]
  by_cases hm : m = (s.core x.core).nextTag
  · rw [if_pos hm, hm, mget_mset_same]
  · rw [if_neg hm, mget_mset_other _ _ _ _ hm, State.tagAt]

/-- The request packet of an access of a core's SRAM. -/
def State.accessPacket (s : State) (x : Issue) (dst : Lcn) (k : Nat) (typ : PacketType) (opc flits body : Nat)
    (f w4 : Bool) : Packet :=
  { s.requestTo x typ dst (s.core x.core).nextTag (s.tagAt x.core (s.core x.core).nextTag).gen with
    f, opc, arg := dst.toNat * 65536 + k + bit w4 * 2 ^ 63, flits, body }

theorem State.sendAccess_sram (had : ad.toNat = d.toNat * 2 ^ 16 + k) (hk : k < 2 ^ 16) (pc : Nat) (op : TagOp)
    (typ : PacketType) (opc flits body : Nat) (f w4 : Bool) :
    s.sendAccess x pc ad op typ opc flits body f w4 =
      (s.tagged x (s.accessTag x pc ad op (s.reachedLcn x.core d))).send
        (s.accessPacket x (s.reachedLcn x.core d) k typ opc flits body f w4) := by
  obtain ⟨hlt, -, hoff⟩ := Word.sram_core had hk
  have harg : ∀ c : Lcn, accessArg c ad.toNat = c.toNat * 65536 + k := fun c => by rw [accessArg, if_pos hlt, hoff]
  have hroute : ∀ (k : Core) (c : Lcn), (s.setCore x.core k).routeTarget c = s.routeTarget c := fun _ _ => rfl
  have hld : ∀ (k : Core) (c : Lcn), (s.setCore x.core k).ldOf c = s.ldOf c := fun _ _ => rfl
  simp only [State.sendAccess, State.accessRoute_sram had hk, harg, State.takeTag, hroute, hld, State.tagged,
    State.accessTag, State.accessPacket, State.tagAt, State.requestTo]

/-- What an access that is sent leaves: its tag is held, one packet more carries its request, and the rest of the cores,
the threads and the SRAM are as before. -/
structure State.sends (s t : State) (x : Issue) (g : Tag) (p : Packet) : Prop where
  sram : t.sram = s.sram
  threads : t.threads = s.threads
  tag : t.tagAt x.core (s.core x.core).nextTag = g
  tags : ∀ m, m ≠ (s.core x.core).nextTag → t.tagAt x.core m = s.tagAt x.core m
  cores : ∀ c, c ≠ x.core → t.core c = s.core c
  packet : ∃ q ∈ t.fab.pkts, (s.entering p).sameRequest q
  count : t.fab.pkts.length = s.fab.pkts.length + 1

theorem State.sends_sendAccess (had : ad.toNat = d.toNat * 2 ^ 16 + k) (hk : k < 2 ^ 16)
    (hdst : s.isHole (fieldOf (s.reachedLcn x.core d)) = false)
    (hrt : s.isHole (fieldOf (s.routeTarget (s.reachedLcn x.core d))) = false) (hnum : s.numbered)
    (hclear : s.interfaceClear x.core) (pc : Nat) (op : TagOp) (typ : PacketType) (opc flits body : Nat) (f w4 : Bool) :
    s.sends (s.sendAccess x pc ad op typ opc flits body f w4) x (s.accessTag x pc ad op (s.reachedLcn x.core d))
      (s.accessPacket x (s.reachedLcn x.core d) k typ opc flits body f w4) := by
  rw [State.sendAccess_sram had hk]
  obtain ⟨hpacket, hlength, hsram, hthreads, hcores⟩ :=
    State.send_spec (s := s.tagged x (s.accessTag x pc ad op (s.reachedLcn x.core d)))
      (p := s.accessPacket x (s.reachedLcn x.core d) k typ opc flits body f w4) rfl hdst hrt hnum hclear
  have htag : ∀ m, State.tagAt _ x.core m = _ := fun m => (State.tagAt_congr
    (congrArg Core.tags (State.core_congr hcores x.core)) m).trans (s.tagAt_tagged x _ m)
  exact
    { sram := hsram
      threads := hthreads
      tag := (htag _).trans (if_pos rfl)
      tags := fun m hm => (htag m).trans (if_neg hm)
      cores := fun c hc => (State.core_congr hcores c).trans (State.core_setCore_other _ _ hc)
      packet := hpacket
      count := hlength }

end

/-! ### The accesses -/

section
variable {s : State} {x : Issue} {q : MemAccess} {d : Lcn} {k : Nat}

/-- An aligned address in the SRAM of another core that is no gusset core brings no trap. -/
theorem State.accessTrap_remote {c : Lcn} {a : Word} (htarget : s.target c a = .remote d) (hg : isGusset d = false)
    {n : Nat} (hal : a.toNat % n = 0) (pc : Nat) (atomic : Bool) : s.accessTrap c pc a n atomic = none := by
  have hmapped : Mapped a.toNat := by
    by_contra h
    exact Target.noConfusion (htarget.symm.trans (s.target_nowhere c a h))
  have hgusset : (Target.remote d).gusset a = if isGusset d then some d else none := rfl
  have hsize : (Target.remote d).refuses n atomic = false := rfl
  rw [State.accessTrap_mapped hal hmapped, htarget]
  simp only [hsize, hgusset, hg, Bool.false_eq_true, if_false, firstTrap_skip]
  rfl

/-- An access of a ready thread to another core's SRAM, with a tag in the pool: what it does there decides. -/
theorem State.access_remoteSram (h : s.ready x q.regs q.len)
    (htarget : s.target x.core (q.address (s.issuer x)) = .remote d) (hg : isGusset d = false)
    (hal : (q.address (s.issuer x)).toNat % q.bytes = 0) (htags : s.tagStall x.core x.thread = none)
    (act : Thread → Target → Word → State → Act) {w : State} {pc : Nat}
    (ha : act (s.issuer x).issuing (.remote d) (q.address (s.issuer x))
        (s.setThread x.core x.thread ((s.issuer x).postIncrement q.a q.pi q.off).issuing) = .done w pc) :
    s.access x q act = w.retire x.core x.thread pc := by
  have hstall : s.accessStall x (q.address (s.issuer x)) q.bytes q.atomic = none := by
    rw [State.accessStall, htags]
    exact ite_self _
  rw [State.access_eq, hstall]
  refine State.issue_done h _ false _ ?_
  have htrap : (s.setThread x.core x.thread (s.issuer x).issuing).accessTrap x.core (s.issuer x).issuing.pc
      (q.address (s.issuer x).issuing) q.bytes q.atomic = none := State.accessTrap_remote htarget hg hal _ _
  have htarget' : (s.setThread x.core x.thread (s.issuer x).issuing).target x.core (q.address (s.issuer x).issuing) =
      .remote d := htarget
  simp only [accessAct, htrap, htarget', Thread.postIncrement_issuing]
  rw [State.setThread_setThread _ _ _ rfl rfl]
  exact ha

/-- The state in which a thread has sent an access of memory and retired. -/
def State.accessed (s : State) (x : Issue) (th : Thread) (ad : Word) (op : TagOp) (typ : PacketType)
    (opc flits body : Nat) (f w4 : Bool) (pc : Nat) : State :=
  ((s.setThread x.core x.thread th.issuing).sendAccess x (s.issuer x).pc ad op typ opc flits body f w4).retire
    x.core x.thread pc

variable {a : Fin 16} {pi f : Bool}

theorem State.loadOp_remote {size : Size} {rd : Fin 32} {off : Off} (signed : Bool) (h : s.ready x [.s rd] off.len)
    (htarget : s.target x.core ((s.issuer x).address a pi (off.value size.bytes)) = .remote d)
    (hg : isGusset d = false) (hal : ((s.issuer x).address a pi (off.value size.bytes)).toNat % size.bytes = 0)
    (htags : s.tagStall x.core x.thread = none) :
    s.loadOp x size signed rd a pi f off = s.accessed x ((s.issuer x).postIncrement a pi (off.value size.bytes))
      ((s.issuer x).address a pi (off.value size.bytes)) (.load rd size.bytes signed) .rd (sizeCode size.bytes) 0 0 f
      false ((s.issuer x).pc + off.len) := by
  unfold State.loadOp
  exact State.access_remoteSram (q := loadAccess size rd a pi off) h htarget hg hal htags _ rfl

theorem exec_tileLd_remote {td : Fin 8} {off : TileOff} (h : s.ready x [.t td] off.len)
    (htarget : s.target x.core ((s.issuer x).address a pi off.value) = .remote d)
    (hg : isGusset d = false) (hal : ((s.issuer x).address a pi off.value).toNat % 256 = 0)
    (htags : s.tagStall x.core x.thread = none) :
    exec (.tileLd x td a pi f off) s = .next (s.accessed x ((s.issuer x).postIncrement a pi off.value)
      ((s.issuer x).address a pi off.value) (.tileLoad td) .rd 4 0 0 f false ((s.issuer x).pc + off.len)) :=
  congrArg Host.Outcome.next
    (State.access_remoteSram (q := tileAccess td a pi false off) h htarget hg hal htags _ rfl)

theorem State.shadowAnswers_remote (s : State) (c : Lcn) : s.shadowAnswers c (.remote d) = false := Bool.and_false _

theorem exec_st_remote {size : Size} {rd : Fin 32} {off : Off} (h : s.ready x [.s rd] off.len)
    (htarget : s.target x.core ((s.issuer x).address a pi (off.value size.bytes)) = .remote d)
    (hg : isGusset d = false) (hal : ((s.issuer x).address a pi (off.value size.bytes)).toNat % size.bytes = 0)
    (htags : s.tagStall x.core x.thread = none) :
    ∃ dg, (s.get F.INT_DUPSTAT_DUP x.core.toNat ≠ 1 → dg = (s.issuer x).digest) ∧
      exec (.st x size rd a pi f off) s = .next (s.accessed x
        { (s.issuer x).postIncrement a pi (off.value size.bytes) with digest := dg }
        ((s.issuer x).address a pi (off.value size.bytes)) .store .wr (sizeCode size.bytes) 1
        (((s.issuer x).readS rd).toNat % 2 ^ (8 * size.bytes)) f false ((s.issuer x).pc + off.len)) := by
  have htarget' : s.target x.core ((storeAccess size rd a pi off).address (s.thread x.core x.thread)) = .remote d :=
    htarget
  have hfault : s.storeFaults x (storeAccess size rd a pi off) rd = false := by
    simp only [State.storeFaults, htarget', Bool.and_false]
  obtain ⟨dg, hfold, hdg⟩ := s.foldDigest_setThread x.core x.thread
    (th := ((s.issuer x).postIncrement a pi (off.value size.bytes)).issuing) rfl 1
    (digestCore ((s.issuer x).address a pi (off.value size.bytes)))
    ((s.issuer x).address a pi (off.value size.bytes)).toNat
    (((s.issuer x).readS rd).toNat % 2 ^ (8 * size.bytes)) size.bytes
  have hdigest : ((s.issuer x).postIncrement a pi (off.value size.bytes)).digest = (s.issuer x).digest := by
    cases pi <;> rfl
  refine ⟨dg, fun hdup => (hdg hdup).trans hdigest, ?_⟩
  change execSt .. = _
  rw [execSt, hfault]
  refine congrArg Host.Outcome.next
    (State.access_remoteSram (q := storeAccess size rd a pi off) h htarget hg hal htags _ ?_)
  simp only [State.storeAt, State.shadowAnswers_remote, Bool.false_eq_true, if_false]
  exact congrArg (fun u : State => Act.done (u.sendAccess x (s.issuer x).pc
    ((s.issuer x).address a pi (off.value size.bytes)) .store .wr (sizeCode size.bytes) 1
    (((s.issuer x).readS rd).toNat % 2 ^ (8 * size.bytes)) f) ((s.issuer x).pc + off.len)) hfold

theorem exec_tileSt_remote {td : Fin 8} {off : TileOff} (h : s.ready x [.t td] off.len)
    (htarget : s.target x.core ((s.issuer x).address a pi off.value) = .remote d)
    (hg : isGusset d = false) (hal : ((s.issuer x).address a pi off.value).toNat % 256 = 0)
    (htags : s.tagStall x.core x.thread = none) :
    ∃ dg, (s.get F.INT_DUPSTAT_DUP x.core.toNat ≠ 1 → dg = (s.issuer x).digest) ∧
      exec (.tileSt x td a pi f off) s = .next (s.accessed x
        { (s.issuer x).postIncrement a pi off.value with digest := dg }
        ((s.issuer x).address a pi off.value) .tileStore .wr 4 32 ((s.issuer x).readT td).toNat f false
        ((s.issuer x).pc + off.len)) := by
  obtain ⟨dg, hfold, hdg⟩ := s.foldDigest_setThread x.core x.thread
    (th := ((s.issuer x).postIncrement a pi off.value).issuing) rfl 1 (digestCore ((s.issuer x).address a pi off.value))
    ((s.issuer x).address a pi off.value).toNat ((s.issuer x).readT td).toNat 256
  have hdigest : ((s.issuer x).postIncrement a pi off.value).digest = (s.issuer x).digest := by
    cases pi <;> rfl
  refine ⟨dg, fun hdup => (hdg hdup).trans hdigest, ?_⟩
  refine congrArg Host.Outcome.next
    (State.access_remoteSram (q := tileAccess td a pi true off) h htarget hg hal htags _ ?_)
  simp only [State.shadowAnswers_remote, Bool.false_eq_true, if_false]
  exact congrArg (fun u : State => Act.done (u.sendAccess x (s.issuer x).pc ((s.issuer x).address a pi off.value)
    .tileStore .wr 4 32 ((s.issuer x).readT td).toNat f) ((s.issuer x).pc + off.len)) hfold

/-- What an atomic sends: its operand, and above it the value that a comparison writes. -/
def State.amoData (s : State) (x : Issue) (op : Nat) (w4 : Bool) (rd : Fin 32) : Nat :=
  ((s.issuer x).readS rd).toNat % 2 ^ (8 * amoBytes w4) +
    (if op = 7 then ((s.issuer x).readS (Fin.ofNat 32 (rd.val + 1))).toNat % 2 ^ (8 * amoBytes w4) else 0) * 2 ^ 64

theorem State.amo_remote {op : Nat} {w4 : Bool} {rd : Fin 32} {off : Off}
    (h : s.ready x (amoAccess op w4 rd a pi off).regs off.len)
    (htarget : s.target x.core ((s.issuer x).address a pi (off.value (amoBytes w4))) = .remote d)
    (hg : isGusset d = false)
    (hal : ((s.issuer x).address a pi (off.value (amoBytes w4))).toNat % amoBytes w4 = 0)
    (htags : s.tagStall x.core x.thread = none) :
    ∃ dg, (s.get F.INT_DUPSTAT_DUP x.core.toNat ≠ 1 → dg = (s.issuer x).digest) ∧
      s.amo op x w4 rd a pi f off = s.accessed x
        { (s.issuer x).postIncrement a pi (off.value (amoBytes w4)) with digest := dg }
        ((s.issuer x).address a pi (off.value (amoBytes w4))) (.amo rd w4) .amo op (if op = 7 then 2 else 1)
        (s.amoData x op w4 rd) f w4 ((s.issuer x).pc + off.len) := by
  obtain ⟨dg, hfold, hdg⟩ := s.foldDigest_setThread x.core x.thread
    (th := ((s.issuer x).postIncrement a pi (off.value (amoBytes w4))).issuing) rfl 2
    (digestCore ((s.issuer x).address a pi (off.value (amoBytes w4))))
    ((s.issuer x).address a pi (off.value (amoBytes w4))).toNat (s.amoData x op w4 rd)
    (if op = 7 then 8 + amoBytes w4 else amoBytes w4)
  have hdigest : ((s.issuer x).postIncrement a pi (off.value (amoBytes w4))).digest = (s.issuer x).digest := by
    cases pi <;> rfl
  refine ⟨dg, fun hdup => (hdg hdup).trans hdigest, ?_⟩
  unfold State.amo
  refine State.access_remoteSram (q := amoAccess op w4 rd a pi off) h htarget hg hal htags _ ?_
  exact congrArg (fun u : State => Act.done (u.sendAccess x (s.issuer x).pc
    ((s.issuer x).address a pi (off.value (amoBytes w4))) (.amo rd w4) .amo op (if op = 7 then 2 else 1)
    (s.amoData x op w4 rd) f w4) ((s.issuer x).pc + off.len)) hfold

end

theorem reachedLcn_eq (s : State) (c d : Lcn) :
    s.reachedLcn c d = if s.get F.INT_DUPSTAT_SHADOW c.toNat = 1 then d ^^^ 0x80000 else d := by
  simp only [State.reachedLcn, State.flag, decide_eq_true_eq]

/-- What a remote access leaves, its thread included. -/
theorem State.accessed_spec {s : State} {x : Issue} {d : Lcn} {k : Nat} {ad : Word}
    (had : ad.toNat = d.toNat * 2 ^ 16 + k) (hk : k < 2 ^ 16)
    (hdst : s.isHole (fieldOf (s.reachedLcn x.core d)) = false)
    (hrt : s.isHole (fieldOf (s.routeTarget (s.reachedLcn x.core d))) = false) (hnum : s.numbered)
    (hclear : s.interfaceClear x.core) (th : Thread) (op : TagOp) (typ : PacketType) (opc flits body : Nat) (f w4 : Bool)
    (pc : Nat) :
    let t := s.accessed x th ad op typ opc flits body f w4 pc
    t.sram = s.sram ∧
      t.tagAt x.core (s.core x.core).nextTag = s.accessTag x (s.issuer x).pc ad op (s.reachedLcn x.core d) ∧
      (∀ m, m ≠ (s.core x.core).nextTag → t.tagAt x.core m = s.tagAt x.core m) ∧
      (∀ c, c ≠ x.core → t.core c = s.core c) ∧
      (∃ q ∈ t.fab.pkts,
        (s.entering (s.accessPacket x (s.reachedLcn x.core d) k typ opc flits body f w4)).sameRequest q) ∧
      t.fab.pkts.length = s.fab.pkts.length + 1 ∧ t.issuer x = th.retiredAt pc ∧
      ∀ c m, ¬(c = x.core ∧ m = x.thread) → t.thread c m = s.thread c m := by
  intro t
  have hsends := State.sends_sendAccess (s := s.setThread x.core x.thread th.issuing) had hk hdst hrt hnum hclear
    (s.issuer x).pc op typ opc flits body f w4
  have hthread := State.thread_congr hsends.threads
  refine ⟨hsends.sram, hsends.tag, hsends.tags, hsends.cores, hsends.packet, hsends.count, ?_, fun c m hcm => ?_⟩
  · refine (State.thread_setThread_same ..).trans ?_
    rw [hthread, State.thread_setThread_same]
    exact Thread.issuing_retiredAt th pc
  · refine (State.thread_setThread_other _ _ hcm).trans ?_
    rw [hthread]
    exact State.thread_setThread_other _ _ hcm

/-- Settles O8: an access of another core's SRAM takes the lowest free tag and sends one request (`sends_sendAccess`),
which injection keeps (`tryInjects_keep`); each instruction is such an access (`access_remoteSram`). -/
theorem remoteAccesses : Obligations.RemoteAccesses := by
  unfold Obligations.RemoteAccesses
  intro x a pi f s o d seen k th ea hseen hea hk hd hg target hdst hrt hnum hclear htags moved n sent
  have htarget : s.target x.core ea = .remote d := State.target_remote hea hk (by rw [seenLcn_eq, ← hseen]; exact hd)
  have hreached : s.reachedLcn x.core d = target := reachedLcn_eq s x.core d
  have hsent : ∀ {i : Instr} {len opc flits body top : Nat} {op : TagOp} {typ : PacketType} (w4 : Bool) {dg : Word},
      (s.get F.INT_DUPSTAT_DUP x.core.toNat ≠ 1 → dg = th.digest) → bit w4 * 2 ^ 63 = top →
      exec i s = .next (s.accessed x { moved with digest := dg } ea op typ opc flits body f w4 (th.pc + len)) →
      sent i len op typ opc flits body top := by
    intro i len opc flits body top op typ w4 dg hdg htop hexec
    obtain ⟨hsram, htag, hothers, hcores, ⟨q, hq, hsame⟩, hcount, hissuer, hthreads⟩ := State.accessed_spec hea hk
      (by rw [hreached]; exact hdst) (by rw [hreached]; exact hrt) hnum hclear { moved with digest := dg } op typ opc
      flits body f w4 (th.pc + len)
    rw [hreached] at htag hsame
    refine ⟨_, hexec, hsram, congrArg Tag.st htag, congrArg Tag.thread htag, congrArg Tag.op htag, congrArg Tag.pc htag,
      congrArg Tag.addr htag, congrArg Tag.dst htag, hothers, hcores, ⟨q, hq, hsame.id, ?_⟩, hcount,
      ⟨dg, hissuer, hdg⟩, hthreads⟩
    have hfields := hsame.eq
    rw [← htop]
    refine ⟨congrArg Packet.typ hfields, congrArg Packet.dst hfields, congrArg Packet.src hfields,
      congrArg Packet.sth hfields, congrArg Packet.tag hfields, congrArg Packet.gen hfields, congrArg Packet.f hfields,
      congrArg Packet.opc hfields, congrArg Packet.arg hfields, congrArg Packet.flits hfields,
      congrArg Packet.body hfields⟩
  have hkept : moved = { moved with digest := th.digest } := by
    simp only [moved]
    cases pi <;> rfl
  refine ⟨fun size rd off h hal ho => ?_, fun td off h hal ho => ?_, fun w4 rd r1 off h hal ho => ?_⟩
  · have ho' : off.value size.bytes = o := ho.symm
    have hal' : ea.toNat % size.bytes = 0 := aligned_of_offset hea (bytes_dvd size) hal
    intro len code
    have hcode : sizeCode size.bytes = code := by cases size <;> rfl
    have hload := fun signed => State.loadOp_remote (a := a) (pi := pi) (f := f) (d := d) signed h
      (by rw [ho']; exact htarget) hg (by rw [ho']; exact hal') htags
    obtain ⟨dg, hdg, hstore⟩ := exec_st_remote (a := a) (pi := pi) (f := f) (d := d) h
      (by rw [ho']; exact htarget) hg (by rw [ho']; exact hal') htags
    rw [ho', hcode] at hload hstore
    refine ⟨hsent false (fun _ => rfl) (Nat.zero_mul _) ?_, hsent false (fun _ => rfl) (Nat.zero_mul _) ?_,
      hsent false hdg (Nat.zero_mul _) hstore⟩
    · rw [← hkept]
      exact congrArg Host.Outcome.next (hload true)
    · rw [← hkept]
      exact congrArg Host.Outcome.next (hload false)
  · have ho' : off.value = o := ho.symm
    have hal' : ea.toNat % 256 = 0 := aligned_of_offset hea (by decide) hal
    intro len
    have hload := exec_tileLd_remote (a := a) (pi := pi) (f := f) (d := d) h (by rw [ho']; exact htarget) hg
      (by rw [ho']; exact hal') htags
    obtain ⟨dg, hdg, hstore⟩ := exec_tileSt_remote (a := a) (pi := pi) (f := f) (d := d) h
      (by rw [ho']; exact htarget) hg (by rw [ho']; exact hal') htags
    rw [ho'] at hload hstore
    refine ⟨hsent false (fun _ => rfl) (Nat.zero_mul _) ?_, hsent false hdg (Nat.zero_mul _) hstore⟩
    rw [← hkept]
    exact hload
  · have ho' : off.value (amoBytes w4) = o := ho.symm
    have hal' : ea.toNat % amoBytes w4 = 0 := aligned_of_offset hea (amoBytes_dvd w4) hal
    intro len w v top
    have hwidth : 8 * amoBytes w4 = w := by cases w4 <;> rfl
    have htop : bit w4 * 2 ^ 63 = top := by
      cases w4
      · exact Nat.zero_mul _
      · exact Nat.one_mul _
    have hamo : ∀ (op : Nat) {i : Instr} {flits body : Nat}, exec i s = .next (s.amo op x w4 rd a pi f off) →
        s.ready x (amoAccess op w4 rd a pi off).regs off.len → (if op = 7 then 2 else 1) = flits →
        s.amoData x op w4 rd = body → sent i len (.amo rd w4) .amo op flits body top := by
      intro op i flits body hi hready hflits hbody
      obtain ⟨dg, hdg, hexec⟩ := State.amo_remote (f := f) (d := d) hready (by rw [ho']; exact htarget) hg
        (by rw [ho']; exact hal') htags
      rw [ho', hflits, hbody] at hexec
      exact hsent w4 hdg htop (hi.trans (congrArg Host.Outcome.next hexec))
    have hone : ∀ (op : Nat) {i : Instr}, op ≠ 7 → exec i s = .next (s.amo op x w4 rd a pi f off) →
        sent i len (.amo rd w4) .amo op 1 v top := by
      intro op i hop hi
      refine hamo op hi ?_ (if_neg hop) ?_
      · have hregs : (amoAccess op w4 rd a pi off).regs = [.s rd] := if_neg hop
        rw [hregs]
        exact h.mono (by simp) le_rfl
      · rw [State.amoData, if_neg hop, Nat.zero_mul, hwidth]
        rfl
    refine ⟨hone 0 (by decide) rfl, hone 1 (by decide) rfl, hone 2 (by decide) rfl, hone 3 (by decide) rfl,
      hone 4 (by decide) rfl, hone 5 (by decide) rfl, hone 6 (by decide) rfl, fun hr _ => hamo 7 rfl ?_ rfl ?_⟩
    · have hregs : (amoAccess 7 w4 rd a pi off).regs = [.s rd, .s r1] := by rw [amoAccess, if_pos rfl, Fin.next_eq hr]
      rw [hregs]
      exact h
    · rw [State.amoData, if_pos rfl, Fin.next_eq hr, hwidth]

end Sys2Proof.Machine
end

section
/-!
PROOFS. The tile class: how an elementwise instruction retires or traps, which sticky flags it raises, and how elements
stand in a tile.
-/

namespace Sys2Proof.Machine

/-! ### Sticky flags (04 Table 4.12, 05 R206) -/

section
variable (s : State) (c : Lcn)

/-- The SRC bit of a thread set where a condition holds. -/
def State.stickBit (s : State) (f : Fld) (c : Lcn) (n : Fin 4) (b : Bool) : State :=
  if b then s.putBit f n.val true c.toNat else s

/-- The flags of an instruction are those without a thread, then the SRC bits. -/
theorem State.setFlags_some (n : Fin 4) (g : TFlags) : s.setFlags c (some n) g =
    ((s.setFlags c none g).stickBit F.CORE_TSTAT_SRC c n g.any).stickBit F.CORE_FMTCTL_SRC c n (g.clamp || g.nanlost) :=
  rfl

theorem State.get_stick_same (f : Fld) (b : Bool) (hw : f.width = 1) :
    (s.stick f c.toNat b).get f c.toNat = if b then 1 else s.get f c.toNat := by
  cases b with
  | false => rfl
  | true => exact (s.get_put_same f 1 c.toNat 0).trans (by rw [hw]; rfl)

theorem State.fieldsKept_stick (f : Fld) (b : Bool) : s.fieldsKept (s.stick f c.toNat b) [f] := by
  cases b with
  | false => exact fun _ _ _ _ _ _ => rfl
  | true => exact s.fieldsKept_put f 1 c.isLt (by norm_num)

theorem State.fieldsKept_stickBit (f : Fld) (n : Fin 4) (b : Bool) : s.fieldsKept (s.stickBit f c n b) [f] := by
  cases b with
  | false => exact fun _ _ _ _ _ _ => rfl
  | true => exact s.fieldsKept_put f _ c.isLt (by norm_num)

theorem State.get_stick_other {f g : Fld} (b : Bool) (h : g.id ≠ f.id) :
    (s.stick f c.toNat b).get g c.toNat = s.get g c.toNat :=
  s.fieldsKept_stick c f b g c.toNat 0 (by simpa using h) c.isLt (by norm_num)

theorem State.get_stickBit_other {f g : Fld} (n : Fin 4) (b : Bool) (h : g.id ≠ f.id) :
    (s.stickBit f c n b).get g c.toNat = s.get g c.toNat :=
  s.fieldsKept_stickBit c f n b g c.toNat 0 (by simpa using h) c.isLt (by norm_num)

/-- A bit of four set in a number: it reads 1, the other three as before. -/
theorem testBit_setBit (v : Nat) (n m : Fin 4) :
    ((if v.testBit n = true then v else v + 2 ^ n.val) % 2 ^ 4).testBit m = (v.testBit m || decide (m = n)) := by
  have hlow (k : Fin 4) : v.testBit k = (v % 16).testBit k := by
    rw [show 16 = 2 ^ 4 from rfl, Nat.testBit_mod_two_pow, decide_eq_true k.isLt, Bool.true_and]
  have hsum : (if v.testBit n = true then v else v + 2 ^ n.val) % 2 ^ 4 =
      (if (v % 16).testBit n = true then v % 16 else v % 16 + 2 ^ n.val) % 16 := by
    rw [hlow]
    split <;> simp
  have hsmall : ∀ (r : Fin 16) (n m : Fin 4),
      ((if r.val.testBit n = true then r.val else r.val + 2 ^ n.val) % 16).testBit m =
        (r.val.testBit m || decide (m = n)) := by decide
  rw [hsum, hlow m]
  exact hsmall ⟨v % 16, Nat.mod_lt _ (by norm_num)⟩ n m

theorem State.testBit_stickBit (f : Fld) (n : Fin 4) (b : Bool) (hw : f.width = 4) (m : Fin 4) :
    ((s.stickBit f c n b).get f c.toNat).testBit m = ((s.get f c.toNat).testBit m || (decide (m = n) && b)) := by
  cases b with
  | false => simp [State.stickBit]
  | true =>
    rw [Bool.and_true, ← testBit_setBit]
    exact congrArg (fun v : Nat => v.testBit m) ((s.get_put_same f _ c.toNat 0).trans (by rw [hw]; rfl))

/-- Exactly the flags given are raised. -/
theorem State.raisedBy_setFlags (n : Fin 4) (g : TFlags) : s.raisedBy (s.setFlags c (some n) g) c n g := by
  rw [State.setFlags_some]
  refine ⟨?_, ?_, ?_, ?_, ?_, ?_, ?_, ?_, fun m => ?_, fun m => ?_⟩ <;>
    simp (disch := decide) only [State.setFlags, State.testBit_stickBit, State.get_stickBit_other,
      State.get_stick_same, State.get_stick_other]

theorem State.fieldsKept_setFlags (n : Fin 4) (g : TFlags) : s.fieldsKept (s.setFlags c (some n) g) flagFields :=
  have h {t : State} {l : List Fld} (ht : s.fieldsKept t l) (f : Fld) (b : Bool) :
      s.fieldsKept (t.stick f c.toNat b) (l ++ [f]) := ht.trans (t.fieldsKept_stick c f b)
  have hnone : s.fieldsKept (s.setFlags c none g) [F.CORE_TSTAT_NV, F.CORE_TSTAT_OF, F.CORE_TSTAT_FLUSH,
      F.CORE_TSTAT_LOWINEX, F.CORE_TSTAT_INTWRAP, F.CORE_TSTAT_CVTSAT, F.CORE_FMTCTL_CLAMP, F.CORE_FMTCTL_NANLOST] :=
    h (h (h (h (h (h (h (s.fieldsKept_stick c _ _) _ _) _ _) _ _) _ _) _ _) _ _) _ _
  have hall := (hnone.trans (State.fieldsKept_stickBit _ c F.CORE_TSTAT_SRC n g.any)).trans
    (State.fieldsKept_stickBit _ c F.CORE_FMTCTL_SRC n (g.clamp || g.nanlost))
  fun f u m hf hu hm => hall f u m (by simp [flagFields] at hf ⊢; tauto) hu hm

/-- Raising flags changes nothing but registers. -/
theorem State.setFlags_rest (n : Fin 4) (g : TFlags) : { s.setFlags c (some n) g with regs := s.regs } = s := by
  have hstick {t : State} (ht : { t with regs := s.regs } = s) (f : Fld) (u : Nat) (b : Bool) :
      { t.stick f u b with regs := s.regs } = s := by cases b <;> exact ht
  have hbit {t : State} (ht : { t with regs := s.regs } = s) (f : Fld) (b : Bool) :
      { t.stickBit f c n b with regs := s.regs } = s := by cases b <;> exact ht
  exact hbit (hbit (hstick (hstick (hstick (hstick (hstick (hstick (hstick (hstick rfl
    _ _ _) _ _ _) _ _ _) _ _ _) _ _ _) _ _ _) _ _ _) _ _ _) _ _) _ _

end

/-! ### Instructions that retire or trap (04 R164, R178) -/

section
variable {s : State} {x : Issue} {regs : List RegRef} {len rm : Nat} {subs : List (Nat × Bool)}

theorem formatTrap_none (pc : Nat) (h : ∀ e ∈ subs, e.2 = false) : formatTrap pc subs = none :=
  firstTrap_none fun e he => by
    obtain ⟨a, ha, rfl⟩ := List.mem_map.1 he
    exact h a ha

/-- The first condition that holds is the one recorded. -/
theorem formatTrap_first (pc sub : Nat) {before : List (Nat × Bool)} (h : ∀ e ∈ before, e.2 = false)
    (rest : List (Nat × Bool)) :
    ∃ multi, formatTrap pc (before ++ (sub, true) :: rest) = some { cause := 0x10, sub, pc, multi } := by
  have hskip (l : List (Bool × TrapInfo)) :
      firstTrap (before.map (fun e => (e.2, { cause := 0x10, sub := e.1, pc })) ++ l) = firstTrap l := by
    rw [firstTrap, firstTrap, List.filter_append, List.filter_eq_nil_iff.2, List.nil_append]
    intro e he
    obtain ⟨a, ha, rfl⟩ := List.mem_map.1 he
    simp [h a ha]
  rw [formatTrap, List.map_append, hskip]
  exact firstTrap_head _ _

/-- An elementwise instruction of a ready thread that no condition of 04 Table 4.11 stops. -/
theorem State.tileOp_after (h : s.ready x regs len) (hhold : s.drawHold x.core rm = none)
    (hsubs : ∀ e ∈ subs, e.2 = false) {act : Thread → State → State} {u : State} {th : Thread} (hth : th.st = .running)
    (hact : act (s.issuer x).issuing (s.issued x) = u.setThread x.core x.thread th) :
    s.tileOp x regs rm subs act len = u.after x th ((s.issuer x).pc + len) := by
  rw [State.tileOp, hhold]
  refine State.issue_after h _ false .none hth ?_
  simp only [formatTrap_none _ hsubs]
  exact congrArg (Act.done · _) hact

/-- One that only writes a tile register. -/
theorem State.tileOp_writesT (h : s.ready x regs len) (hhold : s.drawHold x.core rm = none)
    (hsubs : ∀ e ∈ subs, e.2 = false) (td : Fin 8) (v : Thread → Tile) :
    s.tileOp x regs rm subs (fun th u => u.putT x td (v th)) len =
      s.after x ((s.issuer x).writeT td (v (s.issuer x).issuing)) ((s.issuer x).pc + len) := by
  have hact : (s.issued x).putT x td (v (s.issuer x).issuing) = (s.issued x).setThread x.core x.thread
      ((s.issuer x).issuing.writeT td (v (s.issuer x).issuing)) := by
    rw [State.putT, State.issued, State.thread_setThread_same]
  rw [State.tileOp_after h hhold hsubs (by simp) hact, State.issued, State.after_setThread rfl, State.after, State.after,
    Thread.issuing_writeT_retiredAt]

/-- One that a condition of 04 Table 4.11 stops: the first in rising order is recorded. -/
theorem State.tileOp_traps (h : s.ready x regs len) (hhold : s.drawHold x.core rm = none) (sub : Nat)
    {before rest : List (Nat × Bool)} (hbefore : ∀ e ∈ before, e.2 = false) (hsubs : subs = before ++ (sub, true) :: rest)
    (act : Thread → State → State) :
    ∃ multi, s.tileOp x regs rm subs act len =
      s.trap x.core x.thread { cause := 0x10, sub, pc := (s.issuer x).pc, multi } := by
  obtain ⟨multi, hfirst⟩ := formatTrap_first (s.issuer x).pc sub hbefore rest
  refine ⟨multi, ?_⟩
  rw [State.tileOp, hhold]
  refine State.issue_traps h _ false .none ?_
  simp only [Thread.issuing_pc, hsubs, hfirst]

/-- An instruction has changed its thread and raised flags, and nothing else. -/
def State.raises (s t : State) (x : Issue) (th : Thread) (pc : Nat) (g : TFlags) : Prop :=
  t.issuer x = th.retiredAt pc ∧ s.otherThreadsKept t x.core x.thread ∧ s.raisedBy t x.core x.thread g ∧
    s.fieldsKept t flagFields ∧ { t with threads := s.threads, regs := s.regs } = s

/-- One that raises flags and changes its thread. -/
theorem State.tileOp_raises (h : s.ready x regs len) (hhold : s.drawHold x.core rm = none)
    (hsubs : ∀ e ∈ subs, e.2 = false) {act : Thread → State → State} {g : TFlags} {th th' : Thread}
    (hth : th.st = .running) (hretired : ∀ pc, th.retiredAt pc = th'.retiredAt pc)
    (hact : act (s.issuer x).issuing (s.issued x) =
      ((s.issued x).setFlags x.core (some x.thread) g).setThread x.core x.thread th) :
    s.raises (s.tileOp x regs rm subs act len) x th' ((s.issuer x).pc + len) g := by
  rw [State.tileOp_after h hhold hsubs hth hact, State.after, hretired]
  have hrest := (s.issued x).setFlags_rest x.core x.thread g
  have hraised := (s.issued x).raisedBy_setFlags x.core x.thread g
  have hkept := (s.issued x).fieldsKept_setFlags x.core x.thread g
  generalize (s.issued x).setFlags x.core (some x.thread) g = u at *
  have hthreads : u.threads = (s.issued x).threads := (congrArg State.threads hrest :)
  refine ⟨State.thread_setThread_same .., fun d m hdm => ?_, hraised, hkept, ?_⟩
  · rw [State.thread_setThread_other _ _ hdm, State.thread_congr hthreads, State.issued,
      State.thread_setThread_other _ _ hdm]
  · exact congrArg (fun t : State => { t with threads := s.threads }) hrest

end

/-! ### Elements of a tile (04 R142, R145, Table 4.1) -/

theorem packBits_lt (w : Nat) (l : List Nat) : packBits w l < 2 ^ (w * l.length) := by
  induction l with
  | nil => simp [packBits]
  | cons v l ih =>
    change v % 2 ^ w + 2 ^ w * packBits w l < _
    have hv : v % 2 ^ w < 2 ^ w := Nat.mod_lt _ (by positivity)
    calc v % 2 ^ w + 2 ^ w * packBits w l < 2 ^ w * (packBits w l + 1) := by rw [Nat.mul_add]; omega
      _ ≤ 2 ^ w * 2 ^ (w * l.length) := Nat.mul_le_mul_left _ ih
      _ = 2 ^ (w * (v :: l).length) := by rw [← Nat.pow_add, List.length_cons, Nat.mul_add, Nat.mul_one, Nat.add_comm]

/-- Number `e` of packed numbers. -/
theorem packBits_elem (w : Nat) (l : List Nat) (e : Nat) :
    packBits w l / 2 ^ (w * e) % 2 ^ w = (l[e]?.getD 0) % 2 ^ w := by
  induction l generalizing e with
  | nil => simp [packBits]
  | cons v l ih =>
    change (v % 2 ^ w + 2 ^ w * packBits w l) / 2 ^ (w * e) % 2 ^ w = _
    cases e with
    | zero => simp
    | succ e =>
      have hv : v % 2 ^ w < 2 ^ w := Nat.mod_lt _ (by positivity)
      rw [Nat.mul_add, Nat.mul_one, Nat.add_comm (w * e), Nat.pow_add, ← Nat.div_div_eq_div_mul,
        Nat.add_mul_div_left _ _ (by positivity), Nat.div_eq_of_lt hv, Nat.zero_add, ih, List.getElem?_cons_succ]

theorem tileElem_lt (fmt : Nat) (t : Tile) (e : Nat) : tileElem fmt t e < 2 ^ fmtWidth fmt :=
  Nat.mod_lt _ (by positivity)

theorem fmt_fits : ∀ fmt : Fin 13, fmtWidth fmt.val * fmtCount fmt.val ≤ 2048 := by decide

theorem toNat_ofNat_of_lt {w k v : Nat} (hv : v < 2 ^ k) (hk : k ≤ w) : (BitVec.ofNat w v).toNat = v := by
  rw [BitVec.toNat_ofNat, Nat.mod_eq_of_lt (hv.trans_le (Nat.pow_le_pow_right (by norm_num) hk))]

theorem packTile_toNat (fmt : Fin 13) {l : List Nat} (hl : l.length = fmtCount fmt.val) :
    (packTile fmt.val l).toNat = packBits (fmtWidth fmt.val) l :=
  toNat_ofNat_of_lt (packBits_lt _ l) (hl ▸ fmt_fits fmt)

/-- An element of a tile of elements reads back, cut to its width. -/
theorem tileElem_packTile (fmt : Fin 13) {l : List Nat} (hl : l.length = fmtCount fmt.val) (e : Nat) :
    tileElem fmt.val (packTile fmt.val l) e = (l[e]?.getD 0) % 2 ^ fmtWidth fmt.val := by
  rw [tileElem, packTile_toNat fmt hl, packBits_elem]

/-- A tile of elements leaves the bytes that its format does not use zero (04 R145). -/
theorem packTile_lt (fmt : Fin 13) {l : List Nat} (hl : l.length = fmtCount fmt.val) :
    (packTile fmt.val l).toNat < 2 ^ (fmtWidth fmt.val * fmtCount fmt.val) := by
  rw [packTile_toNat fmt hl, ← hl]
  exact packBits_lt _ l

/-- A tile whose elements are given by their number. -/
def tileOf (fmt : Nat) (g : Nat → Nat) : Tile := packTile fmt ((List.range (fmtCount fmt)).map g)

theorem tileElem_tileOf (fmt : Fin 13) (g : Nat → Nat) {e : Nat} (he : e < fmtCount fmt.val) :
    tileElem fmt.val (tileOf fmt.val g) e = g e % 2 ^ fmtWidth fmt.val := by
  rw [tileOf, tileElem_packTile fmt (by simp)]
  simp [he]

theorem tileOf_lt (fmt : Fin 13) (g : Nat → Nat) :
    (tileOf fmt.val g).toNat < 2 ^ (fmtWidth fmt.val * fmtCount fmt.val) :=
  packTile_lt fmt (by simp)

end Sys2Proof.Machine
end

section
/-!
PROOFS. The tile-format traps (O20).
-/

namespace Sys2Proof.Machine

/-- No draw holds back an instruction under another rounding mode than RM = 2. -/
theorem State.drawHold_of_ne (s : State) (c : Lcn) {rm : Nat} (h : rm ≠ 2) : s.drawHold c rm = none := if_neg fun e => h e.1

/-- A thread that no draw holds back under RM = 2 is held back under no rounding mode. -/
theorem State.drawHold_none {s : State} {c : Lcn} (h : s.drawHold c 2 = none) (rm : Nat) : s.drawHold c rm = none := by
  by_cases hrm : rm = 2
  · rw [hrm, h]
  · exact s.drawHold_of_ne c hrm

/-- Settles O20: every row is an elementwise instruction whose first condition that holds is the one named
(`State.tileOp_traps`). -/
theorem tileFormatTraps : Obligations.TileFormatTraps := by
  unfold Obligations.TileFormatTraps
  intro x td ta tb s h hhold traps
  have hregs : ∀ t : Fin 8, RegRef.t t ∈ (List.range 8).map fun i => RegRef.t (Fin.ofNat 8 i) := by decide
  have hall {ts : List (Fin 8)} : ts.map RegRef.t ⊆
      ((List.range 8).map fun i => RegRef.t (Fin.ofNat 8 i)) ++ [.t td, .t ta, .t tb] := fun r hr => by
    obtain ⟨t, -, rfl⟩ := List.mem_map.1 hr
    exact List.mem_append_left _ (hregs t)
  have htraps {i : Instr} {ts : List (Fin 8)} {rm : Nat} {subs before rest : List (Nat × Bool)} {len sub : Nat}
      {act : Thread → State → State} (hi : exec i s = .next (s.tileOp x (ts.map RegRef.t) rm subs act len))
      (hlen : len ≤ 8) (hsubs : subs = before ++ (sub, true) :: rest) (hbefore : ∀ e ∈ before, e.2 = false) :
      traps i sub := by
    obtain ⟨multi, ht⟩ := State.tileOp_traps (h.mono hall hlen) (State.drawHold_none hhold rm) sub hbefore hsubs act
    exact ⟨multi, hi.trans (congrArg _ ht)⟩
  have hfirst {i : Instr} {ts : List (Fin 8)} {rm : Nat} {rest : List (Nat × Bool)} {len sub : Nat}
      {act : Thread → State → State}
      (hi : exec i s = .next (s.tileOp x (ts.map RegRef.t) rm ((sub, true) :: rest) act len)) (hlen : len ≤ 8) :
      traps i sub := htraps (before := []) hi hlen rfl (by simp)
  refine ⟨fun fmt hfmt rm => ?unsupported, fun rm => ?formats, fun hodd => ?groups, ?int8, ?int32, ?reciprocal, ?root, ?part,
    ?ratio⟩
  case unsupported =>
    have harith : (!arithFmts.contains fmt.val) = true := by revert hfmt; revert fmt; decide
    have hsubs (rest : List (Nat × Bool)) : (0, !arithFmts.contains fmt.val) :: rest = [] ++ (0, true) :: rest := by
      rw [harith]; rfl
    have hbinary {i : Instr} {act : Thread → State → State} (hi : exec i s = .next
        (s.tileOp x [.t td, .t ta, .t tb] rm.val (elementSubs arithFmts fmt.val rm.val) act)) : traps i 0 :=
      htraps (ts := [td, ta, tb]) hi (by decide) (hsubs _) (by simp)
    refine ⟨hbinary rfl, hbinary rfl, hbinary rfl, hbinary rfl, hbinary rfl, fun cond => ⟨?_, ?_, ?_⟩⟩
    · exact htraps (ts := [td, ta, tb]) rfl (by decide) (hsubs _) (by simp)
    · exact htraps (ts := [ta, tb]) rfl (by decide) (hsubs _) (by simp)
    · exact htraps (ts := [ta, tb]) rfl (by decide) (hsubs _) (by simp)
  case formats =>
    exact ⟨hfirst (ts := [td, ta, tb]) rfl (by decide), hfirst (ts := [td, ta, tb]) rfl (by decide),
      hfirst (ts := [td, ta]) rfl (by decide), hfirst (ts := [td, ta]) rfl (by decide),
      hfirst (ts := [td, Fin.ofNat 8 (td.val + 1), ta, tb]) rfl (by decide),
      hfirst (ts := [Fin.ofNat 8 (ta.val + 0), Fin.ofNat 8 (td.val + 0)]) rfl (by decide),
      hfirst (ts := [td, ta]) rfl (by decide)⟩
  case groups =>
    have hpair : (td.val % 2 == 1) = true := beq_iff_eq.2 hodd
    have hgroup : (decide (ta.val % 2 ≠ 0) || decide (td.val % 2 ≠ 0)) = true := by simp [hodd]
    refine ⟨?_, ?_, ?_⟩
    · exact htraps (ts := [td, Fin.ofNat 8 (td.val + 1), ta, tb]) (before := [(0, false)]) rfl (by decide)
        (by rw [hpair]; rfl) (by simp)
    · exact htraps (ts := [td, Fin.ofNat 8 (td.val + 1), ta, tb]) (before := [(0, false)]) rfl (by decide)
        (by rw [hpair]; rfl) (by simp)
    · exact htraps (ts := [Fin.ofNat 8 (ta.val + 0), Fin.ofNat 8 (ta.val + 1), Fin.ofNat 8 (td.val + 0),
        Fin.ofNat 8 (td.val + 1)]) (before := [(0, false)]) (rest := [(4, false)]) rfl (by decide)
        (congrArg (fun b => [(0, false), (1, b), (4, false)]) hgroup) (by simp)
  case int8 => exact htraps (ts := [td, ta, tb]) (before := [(0, false)]) rfl (by decide) rfl (by simp)
  case int32 => exact htraps (ts := [td, ta]) (before := [(0, false)]) rfl (by decide) rfl (by simp)
  case reciprocal => exact htraps (ts := [td, ta]) (before := [(0, false)]) rfl (by decide) rfl (by simp)
  case root => exact htraps (ts := [td, ta]) (before := [(0, false)]) rfl (by decide) rfl (by simp)
  case part => exact htraps (ts := [td, ta]) (before := [(0, false), (4, false)]) rfl (by decide) rfl (by simp)
  case ratio => exact htraps (ts := [td, ta]) (before := [(0, false), (4, false), (5, false)]) rfl (by decide) rfl (by simp)

end Sys2Proof.Machine
end

section
/-!
PROOFS. The statements that count draws past 48 bits (O13, O17, O19, O22, O23), each with the state that refutes it.
CORE_SRDRAWS.DRAWS has 48 bits (05 Table 5.9) and the model's counter wraps there; `State.roundedIn` counts modulo 2^64.
-/

namespace Sys2Proof.Machine

/-- The module whose thread 0 of core 5 runs, with the core's count of draws at its greatest value. -/
def lastDraw (th : Thread) : State := (oneThread th).put F.CORE_SRDRAWS_DRAWS (2 ^ 48 - 1) 5

theorem lastDraw_ready : (lastDraw {}).ready issue5 [.t 0, .t 1, .t 2] 8 := by
  unfold State.ready State.offers
  decide +kernel

theorem lastDraw_hold : (lastDraw {}).drawHold 5 2 = none := by decide +kernel

/-- A step takes draws when the count stands at its greatest value: as `State.roundedIn` counts them the count then reads at
least 2^48. -/
theorem State.roundedIn.draws_past {s t : State} {c : Lcn} {f : Fp} {n : Nat} {g : Nat → Nat × Num}
    {out : List (Nat × TFlags)} (h : s.roundedIn t c f 2 ((List.range n).map g) out)
    (hlast : s.get F.CORE_SRDRAWS_DRAWS c.toNat = 2 ^ 48 - 1) (hn : n ∈ Set.Ioc 0 256) (hfin : (g 0).2.isFin = true) :
    2 ^ 48 ≤ t.get F.CORE_SRDRAWS_DRAWS c.toNat := by
  obtain ⟨-, -, -, -, hcount⟩ := h
  set drawing := ((List.range n).map g).filter fun e => decide (2 = 2) && e.2.isFin
  replace hcount : t.get F.CORE_SRDRAWS_DRAWS c.toNat = if drawing.length = 0 then s.get F.CORE_SRDRAWS_DRAWS c.toNat
      else (s.get F.CORE_SRDRAWS_DRAWS c.toNat + drawing.length) % 2 ^ 64 := hcount
  have hle : drawing.length ≤ 256 := (List.length_filter_le _ _).trans (by simpa using hn.2)
  have hpos : 0 < drawing.length := List.length_pos_of_mem (a := g 0) <| List.mem_filter.2
    ⟨List.mem_map_of_mem (List.mem_range.2 hn.1), by rw [hfin]; rfl⟩
  rw [if_neg hpos.ne', hlast] at hcount
  omega

/-- A command that draws ends with a count of 48 bits, where the count stood at its greatest value. -/
def State.wraps (s : State) (c : Lcn) (i : Instr) : Prop :=
  s.get F.CORE_SRDRAWS_DRAWS c.toNat = 2 ^ 48 - 1 ∧
    ∃ t, exec i s = .next t ∧ t.get F.CORE_SRDRAWS_DRAWS c.toNat < 2 ^ 48

/-- Such a command has not rounded as `State.roundedIn` says. -/
theorem State.wraps.not_roundedIn {s t : State} {c : Lcn} {i : Instr} {f : Fp} {n : Nat} {g : Nat → Nat × Num}
    {out : List (Nat × TFlags)} (h : s.wraps c i) (hexec : exec i s = .next t) (hn : n ∈ Set.Ioc 0 256)
    (hfin : (g 0).2.isFin = true) : ¬s.roundedIn t c f 2 ((List.range n).map g) out := by
  intro hrounded
  obtain ⟨hlast, t', hexec', hlow⟩ := h
  obtain rfl : t' = t := Host.Outcome.next.inj (hexec'.symm.trans hexec)
  exact absurd (hrounded.draws_past hlast hn hfin) (Nat.not_le.2 hlow)

theorem tadd_wraps : (lastDraw {}).wraps 5 (.tadd issue5 2 0 1 9 2) :=
  ⟨by decide +kernel, _, rfl, by decide +kernel⟩

/-- Refutes O13: the first tadd of FP64 elements with RM = 2 after 2^48 - 1 draws takes 32 draws, and the count wraps to 31. -/
theorem not_tileArithmetic : ¬ Obligations.TileArithmetic := by
  unfold Obligations.TileArithmetic
  intro h
  obtain ⟨-, -, -, hfloat⟩ := h issue5 2 0 1 9 2 (lastDraw {}) (lastDraw_ready.mono (by simp) (by norm_num)) lastDraw_hold
  obtain ⟨⟨t, out, hexec, hrounded, -⟩, -⟩ := hfloat _ (by decide) rfl
  exact tadd_wraps.not_roundedIn hexec (by decide) (by decide +kernel) hrounded

theorem tredSum_wraps : (lastDraw {}).wraps 5 (.tredSum issue5 2 0 8 2) :=
  ⟨by decide +kernel, _, rfl, by decide +kernel⟩

/-- Refutes O17: a tred.sum of FP32 rows with RM = 2 takes 16 draws, and a count of 2^48 - 1 wraps to 15. -/
theorem not_tileReductions : ¬ Obligations.TileReductions := by
  unfold Obligations.TileReductions
  intro h
  obtain ⟨-, hfloat⟩ := h issue5 2 0 8 2 (lastDraw {}) (lastDraw_ready.mono (by simp) (by norm_num)) lastDraw_hold
  obtain ⟨⟨t, out, hexec, hrounded, -⟩, -⟩ := hfloat _ (by decide) rfl
  exact tredSum_wraps.not_roundedIn hexec (by decide) (by decide +kernel) hrounded

theorem tcvt_wraps : (lastDraw {}).wraps 5 (.tcvt issue5 2 0 9 9 2 0) :=
  ⟨by decide +kernel, _, rfl, by decide +kernel⟩

/-- Refutes O19: a tcvt of FP64 elements into FP64 with RM = 2 takes 32 draws, and a count of 2^48 - 1 wraps to 31. -/
theorem not_conversion : ¬ Obligations.Conversion := by
  unfold Obligations.Conversion
  intro h
  obtain ⟨t, v, out, hexec, hrounded, -⟩ := h issue5 2 0 9 9 2 0 (lastDraw {}) (by decide) (by decide)
    (lastDraw_ready.mono (by simp) (by norm_num)) lastDraw_hold (by decide) (by decide) (by decide)
  exact tcvt_wraps.not_roundedIn hexec (by decide) (by decide +kernel) (hrounded _ rfl)

/-- The array of core 5 runs an FP64 product with RM = 2. -/
def drawingProduct : Product :=
  { thread := 0, pc := 0, cd := 0, a := 0, b := 0, scales := 0, fmt := 9, rm := 2, z := true, ng := false, mx := false,
    sparse := 0 }

def drawingArray : State := (lastDraw {}).setCore 5 { array := some drawingProduct }

theorem product_wraps : drawingArray.wraps 5 (.tensorArrayComplete 5) :=
  ⟨by decide +kernel, _, rfl, by decide +kernel⟩

/-- Refutes O22: an FP64 product with RM = 2 takes 256 draws, and a count of 2^48 - 1 wraps to 255. -/
theorem not_denseProducts : ¬ Obligations.DenseProducts := by
  unfold Obligations.DenseProducts
  intro h
  obtain ⟨-, hfloat⟩ := h 5 drawingArray drawingProduct (by decide +kernel) rfl
  obtain ⟨t, out, hexec, -, hrounded, -⟩ := hfloat (by decide) (by decide) (by decide) (by decide) _ rfl
  exact product_wraps.not_roundedIn hexec (by decide) (by decide +kernel) hrounded

theorem cread_wraps : (lastDraw {}).wraps 5 (.cread issue5 0 0 0 8 2) :=
  ⟨by decide +kernel, _, rfl, by decide +kernel⟩

/-- Refutes O23: a cread of 64 FP32 elements with RM = 2 takes 64 draws, and a count of 2^48 - 1 wraps to 63. -/
theorem not_accumulatorMoves : ¬ Obligations.AccumulatorMoves := by
  unfold Obligations.AccumulatorMoves
  intro h
  obtain ⟨hread, -⟩ := h issue5 0 0 0 8 2 (lastDraw {}) (by decide) (fun k hk => by
    obtain rfl | ⟨hpair, -⟩ := hk
    · decide +kernel
    · exact absurd hpair (by decide))
  obtain ⟨-, -, hfloat⟩ := hread (lastDraw_ready.mono (by simp) (by norm_num)) lastDraw_hold
  obtain ⟨t, v, out, hexec, -, hrounded, -⟩ := hfloat _ rfl (by decide)
  exact cread_wraps.not_roundedIn hexec (by decide) (by decide +kernel) hrounded

end Sys2Proof.Machine
end

section
/-!
PROOFS. The values of numbers, and the formats with infinities and wide exponents: what encodes to what (05 R180 to R192).
-/

namespace Sys2Proof.Machine

/-! ### The value of a number -/

/-- The value of a finite number, 0 for the others. -/
def Num.value : Num → ℚ
  | .fin neg m e => valueOf neg m e
  | _ => 0

theorem valueOf_eq_scaled {neg : Bool} {m : Nat} {e e0 : Int} (h : m = 0 ∨ e0 ≤ e) :
    valueOf neg m e = ((Num.fin neg m e).scaled e0 : ℚ) * (2 : ℚ) ^ e0 := by
  obtain rfl | he := h
  · simp [valueOf, Num.scaled]
  · have hpow : (2 : ℚ) ^ e = (2 : ℚ) ^ (e - e0).toNat * (2 : ℚ) ^ e0 := by
      rw [← zpow_natCast, Int.toNat_of_nonneg (by omega), ← zpow_add₀ two_ne_zero, sub_add_cancel]
    rw [valueOf, hpow, Num.scaled]
    cases neg <;> simp [mul_assoc]

theorem minExponent_le_left {a b : Bool} {m n : Nat} {e f : Int} (hm : m ≠ 0) :
    minExponent [.fin a m e, .fin b n f] ≤ e := by
  by_cases hn : n = 0 <;> simp [minExponent, hm, hn]

theorem minExponent_le_right {a b : Bool} {m n : Nat} {e f : Int} (hn : n ≠ 0) :
    minExponent [.fin a m e, .fin b n f] ≤ f := by
  by_cases hm : m = 0 <;> simp [minExponent, hm, hn]

/-- Finite numbers compare as their values. -/
theorem Num.less_fin_iff {a b : Bool} {m n : Nat} {e f : Int} :
    (Num.fin a m e).less (.fin b n f) = true ↔ valueOf a m e < valueOf b n f := by
  set e0 := minExponent [.fin a m e, .fin b n f]
  have hm : m = 0 ∨ e0 ≤ e := (eq_or_ne m 0).imp_right minExponent_le_left
  have hn : n = 0 ∨ e0 ≤ f := (eq_or_ne n 0).imp_right minExponent_le_right
  rw [valueOf_eq_scaled hm, valueOf_eq_scaled hn, mul_lt_mul_iff_left₀ (by positivity), Int.cast_lt]
  exact decide_eq_true_iff

theorem valueOf_false (m : Nat) (e : Int) : valueOf false m e = m * (2 : ℚ) ^ e := by
  rw [valueOf, if_neg (by simp), one_mul]

/-- A magnitude lies between the powers of two of its highest bit. -/
theorem valueOf_bounds {k : Nat} (hk : k ≠ 0) (q : Int) :
    (2 : ℚ) ^ ((Nat.log2 k : Int) + q) ≤ valueOf false k q ∧ valueOf false k q < (2 : ℚ) ^ ((Nat.log2 k : Int) + q + 1) := by
  have hlo : 2 ^ Nat.log2 k ≤ k := Nat.log2_self_le hk
  have hhi : k < 2 ^ (Nat.log2 k + 1) := Nat.lt_log2_self
  have hpos : (0 : ℚ) < 2 ^ q := by positivity
  rw [valueOf_false, add_right_comm, zpow_add₀ two_ne_zero, zpow_add₀ two_ne_zero]
  constructor
  · exact mul_le_mul_of_nonneg_right (by exact_mod_cast hlo) hpos.le
  · exact mul_lt_mul_of_pos_right (by exact_mod_cast hhi) hpos

/-! ### Formats with infinities, but for FP8 -/

/-- A format of FP16, BF16, FP32 and FP64's kind: infinities under the all-ones exponent, a bias in the middle of the
exponents, and no saturation. -/
structure Fp.Wide (f : Fp) : Prop where
  ieee : f.specials = .ieee
  plain : (f.exp == 5 && f.man == 2) = false
  bias : 2 ^ f.exp = 2 * f.bias + 2
  bias_pos : 0 < f.bias
  man_pos : 0 < f.man

theorem fpOf_wide {code : Nat} {f : Fp} (hcode : code ∈ [0x6, 0x7, 0x8, 0x9]) (hf : fpOf code = some f) :
    f.Wide ∧ fmtWidth code = f.exp + f.man + 1 := by
  simp only [List.mem_cons, List.not_mem_nil, or_false] at hcode
  obtain rfl | rfl | rfl | rfl := hcode <;> cases hf <;> exact ⟨⟨rfl, rfl, rfl, by decide, by decide⟩, rfl⟩

/-- The encoding with a sign, an exponent field and a mantissa field. -/
def Fp.fields (f : Fp) (neg : Bool) (E M : Nat) : Nat := (if neg then f.signBit else 0) + E * 2 ^ f.man + M

/-- What an encoding with these fields stands for, and whether the input flush meets it. -/
def Fp.numOf (f : Fp) (neg : Bool) (E M : Nat) : Num × Bool :=
  if E = 2 ^ f.exp - 1 then (if M = 0 then .inf neg else .nan, false)
  else if E = 0 then
    if f.flush && M != 0 then (.fin neg 0 0, true) else (.fin neg M (f.minExp - f.man), false)
  else (.fin neg (M + 2 ^ f.man) ((E : Int) - f.bias - f.man), false)

theorem Fp.fields_lt (f : Fp) (neg : Bool) {E M : Nat} (hE : E < 2 ^ f.exp) (hM : M < 2 ^ f.man) :
    f.fields neg E M < 2 ^ (f.exp + f.man + 1) := by
  have hEM : (E + 1) * 2 ^ f.man ≤ 2 ^ f.exp * 2 ^ f.man := Nat.mul_le_mul_right _ hE
  rw [Nat.add_mul, Nat.one_mul, ← Nat.pow_add] at hEM
  have hsign : (if neg then f.signBit else 0) ≤ 2 ^ (f.exp + f.man) := by
    cases neg
    · exact Nat.zero_le _
    · exact le_rfl
  rw [Fp.fields, Nat.pow_succ]
  omega

theorem Fp.exists_fields (f : Fp) {x : Nat} (hx : x < 2 ^ (f.exp + f.man + 1)) :
    ∃ neg E M, E < 2 ^ f.exp ∧ M < 2 ^ f.man ∧ x = f.fields neg E M := by
  refine ⟨decide (x / 2 ^ f.man / 2 ^ f.exp = 1), x / 2 ^ f.man % 2 ^ f.exp, x % 2 ^ f.man,
    Nat.mod_lt _ (by positivity), Nat.mod_lt _ (by positivity), ?_⟩
  have htop : x / 2 ^ f.man / 2 ^ f.exp < 2 := by
    rw [Nat.div_div_eq_div_mul, ← Nat.pow_add, Nat.div_lt_iff_lt_mul (by positivity), Nat.add_comm f.man,
      ← Nat.pow_succ']
    exact hx
  have hx' := Nat.div_add_mod x (2 ^ f.man)
  have hE := Nat.div_add_mod (x / 2 ^ f.man) (2 ^ f.exp)
  have hsign : (if decide (x / 2 ^ f.man / 2 ^ f.exp = 1) = true then f.signBit else 0) =
      2 ^ f.exp * (x / 2 ^ f.man / 2 ^ f.exp) * 2 ^ f.man := by
    obtain h | h := Nat.le_one_iff_eq_zero_or_eq_one.1 (Nat.lt_succ_iff.1 htop)
    · simp [h]
    · simp [h, Fp.signBit, Nat.pow_add]
  rw [Fp.fields, hsign, ← Nat.add_mul, hE, Nat.mul_comm, hx']

section
variable {f : Fp} {neg : Bool} {E M : Nat} (hE : E < 2 ^ f.exp) (hM : M < 2 ^ f.man)

include hE hM

theorem Fp.fields_div_signBit : f.fields neg E M / 2 ^ (f.exp + f.man) = if neg then 1 else 0 := by
  have hlow : E * 2 ^ f.man + M < 2 ^ (f.exp + f.man) := by
    have hEM : (E + 1) * 2 ^ f.man ≤ 2 ^ f.exp * 2 ^ f.man := Nat.mul_le_mul_right _ hE
    rw [Nat.add_mul, Nat.one_mul, ← Nat.pow_add] at hEM
    omega
  rw [Fp.fields, Nat.add_assoc]
  cases neg with
  | false => simp [Nat.div_eq_of_lt hlow]
  | true => simp [Fp.signBit, Nat.div_eq_of_lt hlow]

theorem Fp.Wide.decode_fields (hf : f.Wide) : f.decode (f.fields neg E M) = f.numOf neg E M := by
  have hsign : (f.fields neg E M).testBit (f.exp + f.man) = neg := by
    rw [Nat.testBit_eq_decide_div_mod_eq, Fp.fields_div_signBit hE hM]
    cases neg <;> rfl
  have hman : f.fields neg E M % 2 ^ f.man = M := by
    rw [Fp.fields, Nat.add_mod, Nat.add_mul_mod_self_right, Nat.mod_eq_of_lt hM]
    cases neg <;> simp [Fp.signBit, Nat.pow_add, Nat.mod_eq_of_lt hM]
  have hexp : f.fields neg E M / 2 ^ f.man % 2 ^ f.exp = E := by
    have hdiv : f.fields neg E M / 2 ^ f.man = (if neg then 2 ^ f.exp else 0) + E := by
      have hsum : f.fields neg E M = M + 2 ^ f.man * ((if neg then 2 ^ f.exp else 0) + E) := by
        rw [Fp.fields, Nat.mul_add]
        cases neg <;> simp [Fp.signBit, Nat.pow_add] <;> ring
      rw [hsum, Nat.add_mul_div_left _ _ (by positivity), Nat.div_eq_of_lt hM, Nat.zero_add]
    rw [hdiv]
    cases neg <;> simp [Nat.mod_eq_of_lt hE]
  simp only [Fp.decode, hsign, hman, hexp, hf.ieee, Fp.numOf]

end

/-- The largest finite value. -/
theorem Fp.Wide.maxFinite {f : Fp} (hf : f.Wide) : f.maxFinite = (2 ^ f.man - 1 + 2 ^ f.man, (f.bias : Int) - f.man) := by
  have hbias := hf.bias
  have hpos := hf.bias_pos
  have hman : 0 < 2 ^ f.man := by positivity
  have hmax : f.maxBits = f.fields false (2 ^ f.exp - 2) (2 ^ f.man - 1) := by
    have hinf : f.infBits = (2 ^ f.exp - 2 + 1) * 2 ^ f.man := by
      rw [Fp.infBits]
      congr 1
      omega
    simp only [Fp.maxBits, hf.ieee, hinf, Fp.fields, Nat.add_mul, Nat.one_mul]
    simp
    omega
  have hdecode : (f.decode f.maxBits).1 = .fin false (2 ^ f.man - 1 + 2 ^ f.man) ((2 ^ f.exp - 2 : Nat) - f.bias - f.man) := by
    rw [hmax, hf.decode_fields (by omega) (by omega), Fp.numOf, if_neg (by omega), if_neg (by omega)]
  rw [Fp.maxFinite, hdecode]
  simp only [Prod.mk.injEq, true_and]
  omega

/-- A value is beyond the largest finite one. -/
theorem Fp.Wide.beyond_iff {f : Fp} (hf : f.Wide) (k : Nat) (q : Int) :
    (Num.fin false f.maxFinite.1 f.maxFinite.2).less (.fin false k q) = true ↔
      ((2 ^ f.man - 1 + 2 ^ f.man : Nat) : ℚ) * (2 : ℚ) ^ ((f.bias : Int) - f.man) < valueOf false k q := by
  rw [hf.maxFinite, Num.less_fin_iff, valueOf_false]

/-! ### Rounding a value that the format holds (05 R190 to R192) -/

theorem splitAt_same (m : Nat) (e : Int) : splitAt m e e = (m, 0, 0) := by simp [splitAt]

theorem roundsToUpper_exact (draw lo : Nat) : roundsToUpper 0 draw lo 0 0 = false := by simp [roundsToUpper]

theorem Fp.round_zero (f : Fp) (sat : Bool) (rm draw : Nat) (neg : Bool) (e : Int) :
    f.round sat rm draw neg 0 e = (f.fields neg 0 0, {}) := by
  simp [Fp.round, Fp.fields]

/-- A magnitude that stands at the format's spacing and in its range is encoded as it is. -/
theorem Fp.Wide.round_exact {f : Fp} (hf : f.Wide) {m : Nat} {e : Int} (hm : m ≠ 0)
    (hq : (if f.flush then (Nat.log2 m : Int) + e - f.man else max ((Nat.log2 m : Int) + e - f.man) (f.minExp - f.man)) = e)
    (hmax : valueOf false m e ≤ ((2 ^ f.man - 1 + 2 ^ f.man : Nat) : ℚ) * (2 : ℚ) ^ ((f.bias : Int) - f.man))
    (hmin : f.flush = true → (2 : ℚ) ^ f.minExp ≤ valueOf false m e) (sat : Bool) (draw : Nat) (neg : Bool) :
    f.round sat 0 draw neg m e = (f.encodeMag neg m e, {}) := by
  have hbeyond : (Num.fin false f.maxFinite.1 f.maxFinite.2).less (.fin false m e) = false :=
    Bool.eq_false_iff.2 (mt (hf.beyond_iff m e).1 (not_lt.2 hmax))
  have hflush : (f.flush && m != 0 && (Num.fin false m e).less (.fin false 1 f.minExp)) = false := by
    cases hfl : f.flush with
    | false => rfl
    | true =>
      have hnot : (Num.fin false m e).less (.fin false 1 f.minExp) = false :=
        Bool.eq_false_iff.2 (mt Num.less_fin_iff.1 (not_lt.2 (by simpa [valueOf_false] using hmin hfl)))
      simp [hnot]
  simp only [Fp.round, if_neg hm, hq, splitAt_same, roundsToUpper_exact, hbeyond, hflush, Bool.false_eq_true, if_false]

section
variable {f : Fp} {E M : Nat} (hf : f.Wide) (hM : M < 2 ^ f.man) (sat : Bool) (draw : Nat) (neg : Bool)
include hf hM

/-- A normal value rounds to its own encoding. -/
theorem Fp.Wide.round_normal (hlo : E ≠ 0) (hhi : E < 2 ^ f.exp - 1) :
    f.round sat 0 draw neg (M + 2 ^ f.man) ((E : Int) - f.bias - f.man) = (f.fields neg E M, {}) := by
  have hbias := hf.bias
  have hpos : 0 < 2 ^ f.man := by positivity
  have hlog : Nat.log2 (M + 2 ^ f.man) = f.man :=
    (Nat.log2_eq_iff (by omega)).2 ⟨by omega, by rw [Nat.pow_succ]; omega⟩
  have hmin : f.minExp - f.man ≤ (E : Int) - f.bias - f.man := by rw [Fp.minExp]; omega
  rw [hf.round_exact (by omega)]
  · have hnormal : ¬((f.man : Int) + ((E : Int) - f.bias - f.man) < f.minExp) := by omega
    have hexp : ((f.man : Int) + ((E : Int) - f.bias - f.man) + f.bias).toNat = E := by omega
    rw [Fp.encodeMag, if_neg (by omega), hlog]
    simp only [if_neg hnormal, hexp, le_refl, if_true, Nat.sub_self, Nat.pow_zero, Nat.mul_one, Fp.fields,
      Nat.add_mod_right, Nat.mod_eq_of_lt hM]
  · rw [hlog]
    split
    · omega
    · omega
  · rw [valueOf_false]
    refine mul_le_mul (by exact_mod_cast (by omega : M + 2 ^ f.man ≤ 2 ^ f.man - 1 + 2 ^ f.man))
      (zpow_le_zpow_right₀ one_le_two (by omega)) (by positivity) (by positivity)
  · intro _
    have hbound := (valueOf_bounds (k := M + 2 ^ f.man) (by omega) ((E : Int) - f.bias - f.man)).1
    rw [hlog] at hbound
    exact (zpow_le_zpow_right₀ one_le_two (by omega)).trans hbound

/-- A subnormal value rounds to its own encoding where subnormals are kept. -/
theorem Fp.Wide.round_subnormal (hflush : f.flush = false) (h0 : M ≠ 0) :
    f.round sat 0 draw neg M (f.minExp - f.man) = (f.fields neg 0 M, {}) := by
  have hlog : Nat.log2 M < f.man := (Nat.log2_lt h0).2 hM
  have hbias := hf.bias_pos
  rw [hf.round_exact h0]
  · rw [Fp.encodeMag, if_neg h0, if_pos (by omega), Fp.fields, Nat.zero_mul, Nat.add_zero]
  · rw [hflush, if_neg (by simp), max_eq_right (by omega)]
  · rw [valueOf_false]
    refine mul_le_mul (by exact_mod_cast (by omega : M ≤ 2 ^ f.man - 1 + 2 ^ f.man))
      (zpow_le_zpow_right₀ one_le_two (by rw [Fp.minExp]; omega)) (by positivity) (by positivity)
  · rw [hflush]
    simp

end

/-- A number that is no NaN encodes to what it was decoded from, but for the input flush. -/
theorem Fp.Wide.encode_decode {f : Fp} (hf : f.Wide) {x : Nat} (hx : x < 2 ^ (f.exp + f.man + 1))
    (hnan : (f.decode x).1 ≠ .nan) (sat : Bool) (draw : Nat) :
    f.encode sat 0 draw (f.decode x).1 =
      (if (f.decode x).2 then x / 2 ^ (f.exp + f.man) * 2 ^ (f.exp + f.man) else x, {}) := by
  obtain ⟨neg, E, M, hE, hM, rfl⟩ := f.exists_fields hx
  rw [hf.decode_fields hE hM] at hnan ⊢
  rw [Fp.fields_div_signBit hE hM]
  unfold Fp.numOf at hnan ⊢
  split at hnan
  · next htop =>
    have hM0 : M = 0 := by
      by_contra h0
      simp [h0] at hnan
    have hinf : (2 ^ f.exp - 1) * 2 ^ f.man = f.infBits := rfl
    simp [htop, hM0, Fp.encode, hf.ieee, Bool.and_assoc, hf.plain, Fp.fields, hinf]
  · next htop =>
    rw [if_neg htop]
    by_cases hE0 : E = 0
    · subst hE0
      rw [if_pos rfl]
      by_cases hfl : (f.flush && M != 0) = true
      · rw [if_pos hfl]
        refine (f.round_zero sat 0 draw neg 0).trans ?_
        cases neg <;> simp [Fp.fields, Fp.signBit]
      · rw [if_neg hfl]
        by_cases hM0 : M = 0
        · subst hM0
          exact f.round_zero sat 0 draw neg _
        · have hkept : f.flush = false := by simpa [hM0] using hfl
          exact hf.round_subnormal hM sat draw neg hkept hM0
    · rw [if_neg hE0]
      exact hf.round_normal hM sat draw neg hE0 (by omega)

end Sys2Proof.Machine
end

section
/-!
PROOFS. Minima, maxima and compares of tiles (O16).
-/

namespace Sys2Proof.Machine

/-! ### The order of numbers (04 R167) -/

/-- Below, as the order of numbers with infinities has it; no NaN is below or above anything. -/
def Num.below (u v : Num) : Prop :=
  match u, v with
  | .fin _ _ _, .fin _ _ _ => u.value < v.value
  | .inf true, .inf false | .inf true, .fin _ _ _ | .fin _ _ _, .inf false => True
  | _, _ => False

/-- An element reads as a number: finite, an infinity or a NaN. -/
def Num.ordinary (v : Num) : Prop := v ≠ .nan ∧ v ≠ .invalid

theorem Num.less_iff_below {u v : Num} (hu : u.ordinary) (hv : v.ordinary) : u.less v = true ↔ u.below v := by
  obtain ⟨hu, hu'⟩ := hu
  obtain ⟨hv, hv'⟩ := hv
  match u, v with
  | .nan, _ => exact absurd rfl hu
  | .invalid, _ => exact absurd rfl hu'
  | _, .nan => exact absurd rfl hv
  | _, .invalid => exact absurd rfl hv'
  | .fin _ _ _, .fin _ _ _ => exact Num.less_fin_iff
  | .inf true, .inf true => simp [Num.less, Num.below]
  | .inf true, .inf false => simp [Num.less, Num.below]
  | .inf false, .inf true => simp [Num.less, Num.below]
  | .inf false, .inf false => simp [Num.less, Num.below]
  | .inf true, .fin _ _ _ => simp [Num.less, Num.below]
  | .inf false, .fin _ _ _ => simp [Num.less, Num.below]
  | .fin _ _ _, .inf true => simp [Num.less, Num.below]
  | .fin _ _ _, .inf false => simp [Num.less, Num.below]

theorem Num.below_asymm {u v : Num} (h : u.below v) : ¬v.below u := by
  unfold Num.below at h
  split at h
  · exact lt_asymm h
  · exact id
  · exact id
  · exact id
  · exact h.elim

theorem Num.not_below_self (u : Num) : ¬u.below u := fun h => Num.below_asymm h h

/-- No finite number of the same value is below or above. -/
theorem Num.not_below_of_value_eq {u v : Num} (hu : u.isFin = true) (hv : v.isFin = true) (h : u.value = v.value) :
    ¬u.below v := by
  obtain ⟨⟩ | ⟨⟩ | ⟨⟩ | ⟨a, m, e⟩ := u <;> try cases hu
  obtain ⟨⟩ | ⟨⟩ | ⟨⟩ | ⟨b, n, f⟩ := v <;> try cases hv
  exact h.not_lt

theorem Num.isNan_iff (u : Num) : u.isNan = true ↔ u = .nan := by cases u <;> simp [Num.isNan]

/-- The smaller or the larger of two numbers. -/
def Num.extreme (smaller : Bool) (u v : Num) : Num := if smaller then u.min v else u.max v

theorem Num.extreme_nan {u v : Num} (h : u = .nan ∨ v = .nan) (smaller : Bool) : Num.extreme smaller u v = .nan := by
  have hnan : (u.isNan || v.isNan) = true := by simpa [Num.isNan_iff] using h
  cases smaller <;> simp [Num.extreme, Num.min, Num.max, hnan]

/-- Where neither is a NaN, the smaller or larger is one of the two that no other exceeds, and of two zeros the one whose
sign the rule prefers. -/
theorem Num.extreme_spec {u v : Num} (hu : u.ordinary) (hv : v.ordinary) (smaller : Bool) :
    let r := Num.extreme smaller u v
    (r = u ∨ r = v) ∧ (if smaller then ¬u.below r ∧ ¬v.below r else ¬r.below u ∧ ¬r.below v) ∧
      (u.isFin = true ∧ u.value = 0 → v.isFin = true ∧ v.value = 0 →
        r.sign = if smaller then u.sign || v.sign else u.sign && v.sign) := by
  have hnan : (u.isNan || v.isNan) = false := by
    simp [Bool.eq_false_iff, Num.isNan_iff, hu.1, hv.1]
  have huv := Num.less_iff_below hu hv
  have hvu := Num.less_iff_below hv hu
  have hzero (hu0 : u.isFin = true ∧ u.value = 0) (hv0 : v.isFin = true ∧ v.value = 0) : ¬u.below v ∧ ¬v.below u :=
    ⟨Num.not_below_of_value_eq hu0.1 hv0.1 (hu0.2.trans hv0.2.symm),
      Num.not_below_of_value_eq hv0.1 hu0.1 (hv0.2.trans hu0.2.symm)⟩
  have hu' := u.not_below_self
  have hv' := v.not_below_self
  simp only [Num.extreme, Num.min, Num.max, hnan, Bool.false_eq_true, if_false]
  by_cases hlt : u.below v
  · have hgt := Num.below_asymm hlt
    rw [if_pos (huv.2 hlt), if_pos (huv.2 hlt)]
    cases smaller with
    | true => exact ⟨.inl rfl, ⟨hu', hgt⟩, fun hu0 hv0 => absurd hlt (hzero hu0 hv0).1⟩
    | false => exact ⟨.inr rfl, ⟨hgt, hv'⟩, fun hu0 hv0 => absurd hlt (hzero hu0 hv0).1⟩
  · rw [if_neg (mt huv.1 hlt), if_neg (mt huv.1 hlt)]
    by_cases hgt : v.below u
    · rw [if_pos (hvu.2 hgt), if_pos (hvu.2 hgt)]
      cases smaller with
      | true => exact ⟨.inr rfl, ⟨hlt, hv'⟩, fun hu0 hv0 => absurd hgt (hzero hu0 hv0).2⟩
      | false => exact ⟨.inl rfl, ⟨hu', hlt⟩, fun hu0 hv0 => absurd hgt (hzero hu0 hv0).2⟩
    · rw [if_neg (mt hvu.1 hgt), if_neg (mt hvu.1 hgt)]
      cases smaller <;> cases hsign : u.sign <;> simp [hsign, hlt, hgt, hu', hv']

/-! ### Compares -/

/-- What a compare condition says of two numbers: 0 equal, 1 less, 2 less or equal, 3 unordered (04 R167, 05 R184). -/
def Num.compares (cond : Nat) (u v : Num) : Prop :=
  let nan := u = .nan ∨ v = .nan
  match cond with
  | 0 => ¬nan ∧ ¬u.below v ∧ ¬v.below u
  | 1 => ¬nan ∧ u.below v
  | 2 => ¬nan ∧ ¬v.below u
  | _ => nan

theorem Fp.decode_valid (f : Fp) (x : Nat) : (f.decode x).1 ≠ .invalid := by
  unfold Fp.decode
  dsimp only
  split <;> split_ifs <;> simp

theorem decodeElem_valid (fmt x : Nat) : (decodeElem fmt x).1 ≠ .invalid := by
  unfold decodeElem
  split
  · exact Fp.decode_valid _ x
  · simp

theorem condHolds_iff (fmt a b : Nat) (cond : Fin 4) :
    (condHolds fmt cond.val a b).1 = true ↔ Num.compares cond.val (decodeElem fmt a).1 (decodeElem fmt b).1 := by
  have ha := decodeElem_valid fmt a
  have hb := decodeElem_valid fmt b
  unfold condHolds Num.compares
  dsimp only
  generalize (decodeElem fmt a).1 = u at *
  generalize (decodeElem fmt b).1 = v at *
  by_cases hnan : u = .nan ∨ v = .nan
  · have hun : (u.isNan || v.isNan) = true := by simpa [Num.isNan_iff] using hnan
    match cond with
    | 0 | 1 | 2 | 3 => simp [hun, hnan]
  · have hun : (u.isNan || v.isNan) = false := by
      rw [Bool.eq_false_iff]
      simpa [Num.isNan_iff] using hnan
    obtain ⟨hu, hv⟩ := not_or.1 hnan
    have huv := Num.less_iff_below ⟨hu, ha⟩ ⟨hv, hb⟩
    have hvu := Num.less_iff_below ⟨hv, hb⟩ ⟨hu, ha⟩
    match cond with
    | 0 | 1 | 2 | 3 => simp [hun, hnan, ← huv, ← hvu]

end Sys2Proof.Machine
end

section
/-!
PROOFS. The results of minima and maxima, element by element, and the settlement of O16.
-/

namespace Sys2Proof.Machine

/-! ### Numbers that differ in how a zero is written -/

/-- The same number, but that a zero may be written with another exponent. -/
def Num.sameAs (u v : Num) : Prop := u = v ∨ ∃ neg e f, u = .fin neg 0 e ∧ v = .fin neg 0 f

theorem Num.sameAs.sign {u v : Num} (h : u.sameAs v) : u.sign = v.sign := by
  obtain rfl | ⟨neg, e, f, rfl, rfl⟩ := h <;> rfl

theorem valueOf_zero (neg : Bool) (e : Int) : valueOf neg 0 e = 0 := by simp [valueOf]

theorem Num.sameAs.below_left {u v : Num} (h : u.sameAs v) (w : Num) : u.below w ↔ v.below w := by
  obtain rfl | ⟨neg, e, f, rfl, rfl⟩ := h
  · rfl
  · match w with
    | .fin _ _ _ => simp [Num.below, Num.value, valueOf_zero]
    | .inf true | .inf false | .nan | .invalid => rfl

theorem Num.sameAs.below_right {u v : Num} (h : u.sameAs v) (w : Num) : w.below u ↔ w.below v := by
  obtain rfl | ⟨neg, e, f, rfl, rfl⟩ := h
  · rfl
  · match w with
    | .fin _ _ _ => simp [Num.below, Num.value, valueOf_zero]
    | .inf true | .inf false | .nan | .invalid => rfl

/-! ### The bits of the smaller or larger element -/

/-- An element as the input flush leaves it: a flushed subnormal is the zero of its sign (05 R182). -/
def flushedBits (fmt raw : Nat) : Nat :=
  if (decodeElem fmt raw).2 then raw / 2 ^ (fmtWidth fmt - 1) * 2 ^ (fmtWidth fmt - 1) else raw

/-- What tmin or tmax leaves of two elements that are no NaN (04 R167). -/
def Picked (fmt : Nat) (smaller : Bool) (a b out : Nat) : Prop :=
  let u := (decodeElem fmt a).1
  let v := (decodeElem fmt b).1
  let r := (decodeElem fmt out).1
  (out = flushedBits fmt a ∨ out = flushedBits fmt b) ∧
    (if smaller then ¬u.below r ∧ ¬v.below r else ¬r.below u ∧ ¬r.below v) ∧
    (u.isFin = true ∧ u.value = 0 → v.isFin = true ∧ v.value = 0 →
      r.sign = if smaller then u.sign || v.sign else u.sign && v.sign)

/-- One of the two elements, as flushed, whose number is the smaller or larger of the two. -/
theorem picked_of {fmt a b p : Nat} {smaller : Bool} (ha : (decodeElem fmt a).1 ≠ .nan) (hb : (decodeElem fmt b).1 ≠ .nan)
    (hp : p = a ∨ p = b)
    (hextreme : (decodeElem fmt p).1 = Num.extreme smaller (decodeElem fmt a).1 (decodeElem fmt b).1)
    (hsame : (decodeElem fmt (flushedBits fmt p)).1.sameAs (decodeElem fmt p).1) :
    Picked fmt smaller a b (flushedBits fmt p) := by
  obtain ⟨-, horder, hsign⟩ := Num.extreme_spec ⟨ha, decodeElem_valid fmt a⟩ ⟨hb, decodeElem_valid fmt b⟩ smaller
  rw [← hextreme] at horder hsign
  refine ⟨hp.imp (congrArg _) (congrArg _), ?_, fun hu hv => hsame.sign.trans (hsign hu hv)⟩
  cases smaller <;> simpa [hsame.below_left, hsame.below_right] using horder

/-! Integer elements. -/

theorem decodeElem_int {fmt : Nat} (h : fpOf fmt = none) (x : Nat) : decodeElem fmt x =
    (.fin (decide (toSigned (fmtWidth fmt) x < 0)) (toSigned (fmtWidth fmt) x).natAbs 0, false) := by
  simp [decodeElem, h]

theorem value_int {fmt : Nat} (h : fpOf fmt = none) (x : Nat) :
    (decodeElem fmt x).1.value = toSigned (fmtWidth fmt) x := by
  rw [decodeElem_int h]
  generalize toSigned (fmtWidth fmt) x = v
  have habs : ((v.natAbs : Nat) : ℚ) = |(v : ℚ)| := by rw [← Int.cast_abs, Int.abs_eq_natAbs, Int.cast_natCast]
  by_cases hv : v < 0
  · simp [Num.value, valueOf, hv, abs_of_neg (Int.cast_lt_zero.2 hv : (v : ℚ) < 0)]
  · simp [Num.value, valueOf, hv, abs_of_nonneg (Int.cast_nonneg (not_lt.1 hv) : (0 : ℚ) ≤ v)]

/-- The smaller or larger of two signed elements. -/
def pickSigned (smaller : Bool) (w a b : Nat) : Nat := if smaller then minSigned w a b else maxSigned w a b

theorem pickSigned_picked {fmt : Nat} (h : fpOf fmt = none) (smaller : Bool) (a b : Nat) :
    Picked fmt smaller a b (pickSigned smaller (fmtWidth fmt) a b) := by
  have hnan (x : Nat) : (decodeElem fmt x).1 ≠ .nan := by simp [decodeElem_int h]
  have hkept (p : Nat) : flushedBits fmt p = p := by simp [flushedBits, decodeElem_int h]
  have hless (x y : Nat) : (decodeElem fmt x).1.less (decodeElem fmt y).1 = true ↔
      toSigned (fmtWidth fmt) x < toSigned (fmtWidth fmt) y := by
    rw [← Int.cast_lt (R := ℚ), ← value_int h, ← value_int h, decodeElem_int h, decodeElem_int h]
    exact Num.less_fin_iff
  have hisNan (x : Nat) : (decodeElem fmt x).1.isNan = false := by simp [decodeElem_int h, Num.isNan]
  have hpick : (pickSigned smaller (fmtWidth fmt) a b = a ∨ pickSigned smaller (fmtWidth fmt) a b = b) ∧
      (decodeElem fmt (pickSigned smaller (fmtWidth fmt) a b)).1 =
        Num.extreme smaller (decodeElem fmt a).1 (decodeElem fmt b).1 := by
    have heq (hab : toSigned (fmtWidth fmt) a = toSigned (fmtWidth fmt) b) : decodeElem fmt a = decodeElem fmt b := by
      rw [decodeElem_int h, decodeElem_int h, hab]
    simp only [Num.extreme, Num.min, Num.max, hisNan, hless, Bool.or_self, Bool.false_eq_true, if_false]
    obtain hab | hab | hab := lt_trichotomy (toSigned (fmtWidth fmt) a) (toSigned (fmtWidth fmt) b)
    · cases smaller <;> simp [pickSigned, minSigned, maxSigned, hab, hab.not_gt]
    · cases smaller <;> simp [pickSigned, minSigned, maxSigned, hab, heq hab]
    · cases smaller <;> simp [pickSigned, minSigned, maxSigned, hab, hab.not_gt]
  have hres := picked_of (hnan a) (hnan b) hpick.1 hpick.2 (.inl (by rw [hkept]))
  rwa [hkept] at hres

/-! Floating-point elements. -/

theorem decodeElem_fp {fmt : Nat} {f : Fp} (h : fpOf fmt = some f) (x : Nat) : decodeElem fmt x = f.decode x := by
  simp [decodeElem, h]

theorem Fp.numOf_flushed {f : Fp} {neg : Bool} {E M : Nat} (h : (f.numOf neg E M).2 = true) :
    (f.numOf neg E M).1 = .fin neg 0 0 := by
  unfold Fp.numOf at h ⊢
  split_ifs at h ⊢
  rfl

/-- A flushed element reads as the number that was flushed to. -/
theorem Fp.Wide.decode_flushed {f : Fp} (hf : f.Wide) {x : Nat} (hx : x < 2 ^ (f.exp + f.man + 1)) :
    (f.decode (if (f.decode x).2 then x / 2 ^ (f.exp + f.man) * 2 ^ (f.exp + f.man) else x)).1.sameAs (f.decode x).1 := by
  obtain ⟨neg, E, M, hE, hM, rfl⟩ := f.exists_fields hx
  by_cases hflush : (f.decode (f.fields neg E M)).2 = true
  · have hzero : (if neg = true then 1 else 0) * 2 ^ (f.exp + f.man) = f.fields neg 0 0 := by
      cases neg <;> simp [Fp.fields, Fp.signBit]
    have htop : ¬(0 = 2 ^ f.exp - 1) := by
      have := hf.bias
      have := hf.bias_pos
      omega
    rw [if_pos hflush, Fp.fields_div_signBit hE hM, hzero, hf.decode_fields (by positivity) (by positivity)]
    rw [hf.decode_fields hE hM] at hflush ⊢
    exact .inr ⟨neg, f.minExp - f.man, 0, by simp [Fp.numOf, htop], Fp.numOf_flushed hflush⟩
  · rw [if_neg hflush]
    exact .inl rfl

/-- The bits of a minimum or maximum in a format, encoded from the numbers. -/
theorem Fp.Wide.encode_extreme {fmt : Nat} {f : Fp} (hf : f.Wide) (hfmt : fpOf fmt = some f)
    (hw : fmtWidth fmt = f.exp + f.man + 1) {a b : Nat} (ha : a < 2 ^ fmtWidth fmt) (hb : b < 2 ^ fmtWidth fmt)
    (hna : (f.decode a).1 ≠ .nan) (hnb : (f.decode b).1 ≠ .nan) (smaller sat : Bool) :
    let r := f.encode sat 0 0 (Num.extreme smaller (f.decode a).1 (f.decode b).1)
    Picked fmt smaller a b r.1 ∧ r.1 < 2 ^ fmtWidth fmt ∧ r.2 = {} := by
  have hpick : ∃ p, (p = a ∨ p = b) ∧ (f.decode p).1 = Num.extreme smaller (f.decode a).1 (f.decode b).1 := by
    obtain h | h := (Num.extreme_spec ⟨hna, f.decode_valid a⟩ ⟨hnb, f.decode_valid b⟩ smaller).1
    · exact ⟨a, .inl rfl, h.symm⟩
    · exact ⟨b, .inr rfl, h.symm⟩
  obtain ⟨p, hp, hextreme⟩ := hpick
  have hlt : p < 2 ^ (f.exp + f.man + 1) := by
    rw [← hw]
    obtain rfl | rfl := hp <;> assumption
  have hnp : (f.decode p).1 ≠ .nan := by obtain rfl | rfl := hp <;> assumption
  have hbits : flushedBits fmt p = if (f.decode p).2 then p / 2 ^ (f.exp + f.man) * 2 ^ (f.exp + f.man) else p := by
    rw [flushedBits, decodeElem_fp hfmt, hw, Nat.add_sub_cancel]
  have hres := hf.encode_decode hlt hnp sat 0
  rw [← hbits, hextreme] at hres
  intro r
  rw [show r = (flushedBits fmt p, {}) from hres]
  refine ⟨picked_of (by rwa [decodeElem_fp hfmt]) (by rwa [decodeElem_fp hfmt]) hp
    (by simpa only [decodeElem_fp hfmt] using hextreme) ?_, ?_, rfl⟩
  · rw [decodeElem_fp hfmt, decodeElem_fp hfmt, hbits]
    exact hf.decode_flushed hlt
  · rw [hbits, hw]
    split
    · exact (Nat.div_mul_le_self _ _).trans_lt hlt
    · exact hlt

/-! ### The instructions -/

section
variable {s : State} {x : Issue}

/-- Elements rounded without draws leave the state as it is. -/
theorem State.roundAll_noDraw (s : State) (c : Lcn) (f : Fp) {rm : Nat} (hrm : rm ≠ 2) (l : List Exact) :
    s.roundAll c f rm l =
      (l.map fun e => (f.encode (s.flag F.CORE_FMTCTL_FP8_SAT c.toNat) rm 0 e.val).1,
        l.foldr (fun e g => TFlags.or
          (let r := (f.encode (s.flag F.CORE_FMTCTL_FP8_SAT c.toNat) rm 0 e.val).2
           { r with flush := r.flush || e.flushed }) g) {}, s) := by
  induction l with
  | nil => rfl
  | cons e l ih => simp [State.roundAll, State.roundOne, hrm, ih]

/-- The thread as it issues, once it has raised flags. -/
theorem State.thread_setFlags (s : State) (x : Issue) (g : TFlags) :
    ((s.issued x).setFlags x.core (some x.thread) g).thread x.core x.thread = (s.issuer x).issuing := by
  have hthreads : ((s.issued x).setFlags x.core (some x.thread) g).threads = (s.issued x).threads :=
    (congrArg State.threads ((s.issued x).setFlags_rest x.core x.thread g) :)
  rw [State.thread_congr hthreads, State.issued, State.thread_setThread_same]

/-- A tile register written by a thread that has raised flags. -/
theorem State.putT_setFlags (s : State) (x : Issue) (g : TFlags) (td : Fin 8) (v : Tile) :
    ((s.issued x).setFlags x.core (some x.thread) g).putT x td v =
      ((s.issued x).setFlags x.core (some x.thread) g).setThread x.core x.thread ((s.issuer x).issuing.writeT td v) := by
  rw [State.putT, State.thread_setFlags]

/-- Two elements in which an input was flushed. -/
def flushes (fmt a b : Nat) : Bool := (decodeElem fmt a).2 || (decodeElem fmt b).2

/-- The FLUSH flag of a tile operation on two operands. -/
def flushFlag (fmt : Nat) (a b : Tile) : TFlags :=
  { flush := (List.range (fmtCount fmt)).any fun e => flushes fmt (tileElem fmt a e) (tileElem fmt b e) }

theorem condAll_eq (fmt cond : Nat) (a b : Tile) : condAll fmt cond a b =
    (List.range (fmtCount fmt)).map fun e => condHolds fmt cond (tileElem fmt a e) (tileElem fmt b e) := by
  simp [condAll, elemPairs]

theorem condFlags_eq (fmt cond : Nat) (a b : Tile) :
    condFlags ((List.range (fmtCount fmt)).map fun e => condHolds fmt cond (tileElem fmt a e) (tileElem fmt b e)) =
      flushFlag fmt a b := by
  rw [condFlags, List.any_map]
  rfl

/-- Flags of which each is at most FLUSH, together. -/
theorem foldr_or_flush {α : Type} {r : α → TFlags} {p : α → Bool} (l : List α) (h : ∀ e ∈ l, r e = { flush := p e }) :
    l.foldr (fun e g => (r e).or g) {} = { flush := l.any p } := by
  induction l with
  | nil => rfl
  | cons e l ih =>
    rw [List.foldr_cons, ih fun a ha => h a (by simp [ha]), h e (by simp), List.any_cons]
    rfl

theorem elementSubs_clear {fmts : List Nat} {fmt : Fin 13} {rm : Fin 3} (hfmt : fmt.val ∈ fmts)
    (hrm : ¬(rm.val = 2 ∧ (fmt.val = 0x2 ∨ fmt.val = 0xA))) : ∀ e ∈ elementSubs fmts fmt.val rm.val, e.2 = false := by
  have hint : (rm.val == 2 && fmtIsInt fmt.val) = false := by
    rw [Bool.eq_false_iff]
    simpa [fmtIsInt] using hrm
  have hin : (!fmts.contains fmt.val) = false := by simpa using hfmt
  intro e he
  simp only [elementSubs, List.mem_cons, List.not_mem_nil, or_false] at he
  obtain rfl | rfl := he
  · exact hin
  · exact hint

/-- The formats of Table 4.5's arithmetic that are no integer formats. -/
theorem float_of_arith {code : Nat} {f : Fp} (h : code ∈ [0x2, 0x6, 0x7, 0x8, 0x9, 0xA]) (hf : fpOf code = some f) :
    code ∈ [0x6, 0x7, 0x8, 0x9] := by
  have hint : code ≠ 0x2 ∧ code ≠ 0xA := by constructor <;> rintro rfl <;> cases hf
  simp only [List.mem_cons, List.not_mem_nil, or_false] at h ⊢
  tauto

/-- A minimum or maximum raises no flag as it is encoded. -/
theorem Fp.Wide.encode_extreme_flags {f : Fp} (hf : f.Wide) {code : Nat} (hfmt : fpOf code = some f)
    (hw : fmtWidth code = f.exp + f.man + 1) {a b : Nat} (ha : a < 2 ^ fmtWidth code) (hb : b < 2 ^ fmtWidth code)
    (smaller sat : Bool) : (f.encode sat 0 0 (Num.extreme smaller (f.decode a).1 (f.decode b).1)).2 = {} := by
  by_cases hnan : (f.decode a).1 = .nan ∨ (f.decode b).1 = .nan
  · rw [Num.extreme_nan hnan, Fp.encode, hf.ieee]
    rfl
  · obtain ⟨hna, hnb⟩ := not_or.1 hnan
    exact (hf.encode_extreme hfmt hw ha hb hna hnb smaller sat).2.2

/-- What tmin or tmax leaves of two elements: the canonical NaN, or the bits of one (04 R167). -/
def extremeBits (fmt : Nat) (sat smaller : Bool) (a b : Nat) : Nat :=
  match fpOf fmt with
  | some f => (f.encode sat 0 0 (Num.extreme smaller (f.decode a).1 (f.decode b).1)).1
  | none => pickSigned smaller (fmtWidth fmt) a b

variable {td ta tb : Fin 8} {fmt : Fin 13} {rm : Fin 3}

theorem State.binaryExact_raises (h : s.ready x [.t td, .t ta, .t tb]) (hhold : s.drawHold x.core rm.val = none)
    (hfmt : fmt.val ∈ [0x2, 0x6, 0x7, 0x8, 0x9, 0xA]) (hrm : ¬(rm.val = 2 ∧ (fmt.val = 0x2 ∨ fmt.val = 0xA)))
    (smaller : Bool) :
    let th := s.issuer x
    s.raises (s.binaryExact x td ta tb fmt rm (Num.extreme smaller) (pickSigned smaller)) x
      (th.writeT td (tileOf fmt.val fun e => extremeBits fmt.val (s.flag F.CORE_FMTCTL_FP8_SAT x.core.toNat) smaller
        (tileElem fmt.val (th.readT ta) e) (tileElem fmt.val (th.readT tb) e)))
      (th.pc + 4) (flushFlag fmt.val (th.readT ta) (th.readT tb)) := by
  have harith : fmt.val ∈ arithFmts := by simpa [arithFmts, or_comm, or_assoc, or_left_comm] using hfmt
  refine State.tileOp_raises h hhold (elementSubs_clear harith hrm) (by simp)
    (fun pc => Thread.issuing_writeT_retiredAt _ _ _ pc) ?_
  rw [← State.putT_setFlags]
  cases hf : fpOf fmt.val with
  | none =>
    have hflags : flushFlag fmt.val ((s.issuer x).readT ta) ((s.issuer x).readT tb) = {} := by
      simp [flushFlag, flushes, decodeElem_int hf]
    rw [hflags]
    simp only [extremeBits, hf, elemPairs, List.map_map, Thread.issuing_readT]
    rfl
  | some f =>
    simp only [State.writeRounded, State.roundAll_noDraw _ _ _ (by decide : (0 : Nat) ≠ 2), elemPairs, List.map_map,
      List.foldr_map, Thread.issuing_readT]
    obtain ⟨hwide, hw⟩ := fpOf_wide (code := fmt.val) (float_of_arith hfmt hf) hf
    rw [foldr_or_flush (p := fun e => flushes fmt.val (tileElem fmt.val ((s.issuer x).readT ta) e)
      (tileElem fmt.val ((s.issuer x).readT tb) e))]
    · simp only [extremeBits, hf]
      rfl
    · intro e _
      simp only [Function.comp, hwide.encode_extreme_flags hf hw (tileElem_lt _ _ _) (tileElem_lt _ _ _), flushes,
        decodeElem_fp hf, Bool.false_or]

theorem arithFmts_contains (hfmt : fmt.val ∈ [0x2, 0x6, 0x7, 0x8, 0x9, 0xA]) :
    ∀ e ∈ [(0, !arithFmts.contains fmt.val)], e.2 = false := by
  have harith : fmt.val ∈ arithFmts := by simpa [arithFmts, or_comm, or_assoc, or_left_comm] using hfmt
  simpa using harith

/-- tcmpm writes all ones where the condition holds. -/
theorem exec_tcmpm_raises (h : s.ready x [.t td, .t ta, .t tb]) (hfmt : fmt.val ∈ [0x2, 0x6, 0x7, 0x8, 0x9, 0xA])
    (cond : Fin 4) :
    let th := s.issuer x
    ∃ t, exec (.tcmpm x td ta tb fmt cond) s = .next t ∧ s.raises t x (th.writeT td (tileOf fmt.val fun e =>
        if (condHolds fmt.val cond.val (tileElem fmt.val (th.readT ta) e) (tileElem fmt.val (th.readT tb) e)).1 then
          2 ^ fmtWidth fmt.val - 1 else 0))
      (th.pc + 4) (flushFlag fmt.val (th.readT ta) (th.readT tb)) := by
  refine ⟨_, rfl, State.tileOp_raises h (s.drawHold_of_ne _ (by decide)) (arithFmts_contains hfmt) (by simp)
    (fun pc => Thread.issuing_writeT_retiredAt _ _ _ pc) ?_⟩
  simp only [← State.putT_setFlags, Thread.issuing_readT, condFlags_eq, condAll_eq, List.map_map]
  rfl

/-- A compare of all elements writes its predicate. -/
theorem State.comparePred_raises (h : s.ready x [.t td, .t ta, .t tb])
    (hfmt : fmt.val ∈ [0x2, 0x6, 0x7, 0x8, 0x9, 0xA]) (cond : Fin 4) (pd : Fin 8) (f : List Bool → Bool) :
    let th := s.issuer x
    s.raises (s.comparePred x pd ta tb fmt cond f) x (th.writeP pd (f ((List.range (fmtCount fmt.val)).map fun e =>
        (condHolds fmt.val cond.val (tileElem fmt.val (th.readT ta) e) (tileElem fmt.val (th.readT tb) e)).1)))
      (th.pc + 4) (flushFlag fmt.val (th.readT ta) (th.readT tb)) := by
  refine State.tileOp_raises (h.mono (by simp) le_rfl) (s.drawHold_of_ne _ (by decide)) (arithFmts_contains hfmt)
    (by simp) (fun pc => Thread.issuing_writeP_retiredAt _ _ _ pc) ?_
  simp only [Thread.issuing_readT, condFlags_eq, condAll_eq, State.thread_setFlags, List.map_map]
  rfl

end

/-- The canonical NaNs of 05 Table 5.2. -/
theorem fpOf_nanBits {fmt : Fin 13} {f : Fp} (hfmt : fmt.val ∈ [0x6, 0x7, 0x8, 0x9]) (hf : fpOf fmt.val = some f) :
    f.nanBits < 2 ^ fmtWidth fmt.val ∧ f.nanBits = (match fmt.val with
      | 0x6 => 0x7E00
      | 0x7 => 0x7FC0
      | 0x8 => 0x7FC0_0000
      | _ => 0x7FF8_0000_0000_0000) := by
  simp only [List.mem_cons, List.not_mem_nil, or_false] at hfmt
  obtain h | h | h | h := hfmt <;> rw [h] at hf ⊢ <;> cases hf <;> exact ⟨by decide, rfl⟩

/-- An element that tmin or tmax leaves: the canonical NaN where either is a NaN, and one of the two otherwise. -/
theorem extremeBits_spec {fmt : Fin 13} (hfmt : fmt.val ∈ [0x2, 0x6, 0x7, 0x8, 0x9, 0xA]) {a b : Nat}
    (ha : a < 2 ^ fmtWidth fmt.val) (hb : b < 2 ^ fmtWidth fmt.val) (sat smaller : Bool) :
    let out := extremeBits fmt.val sat smaller a b
    out < 2 ^ fmtWidth fmt.val ∧
      ((decodeElem fmt.val a).1 = .nan ∨ (decodeElem fmt.val b).1 = .nan → out = (match fmt.val with
        | 0x6 => 0x7E00
        | 0x7 => 0x7FC0
        | 0x8 => 0x7FC0_0000
        | _ => 0x7FF8_0000_0000_0000)) ∧
      ((decodeElem fmt.val a).1 ≠ .nan → (decodeElem fmt.val b).1 ≠ .nan → Picked fmt.val smaller a b out) := by
  unfold extremeBits
  cases hf : fpOf fmt.val with
  | none =>
    have hpicked := pickSigned_picked hf smaller a b
    have hlt : pickSigned smaller (fmtWidth fmt.val) a b < 2 ^ fmtWidth fmt.val := by
      unfold pickSigned minSigned maxSigned
      split_ifs <;> assumption
    exact ⟨hlt, by simp [decodeElem_int hf], fun _ _ => hpicked⟩
  | some f =>
    obtain ⟨hwide, hw⟩ := fpOf_wide (float_of_arith hfmt hf) hf
    simp only [decodeElem_fp hf]
    by_cases hnan : (f.decode a).1 = .nan ∨ (f.decode b).1 = .nan
    · obtain ⟨hlt, hbits⟩ := fpOf_nanBits (float_of_arith hfmt hf) hf
      rw [Num.extreme_nan hnan]
      exact ⟨hlt, fun _ => hbits, fun hna hnb => absurd hnan (not_or.2 ⟨hna, hnb⟩)⟩
    · obtain ⟨hna, hnb⟩ := not_or.1 hnan
      obtain ⟨hpicked, hlt, -⟩ := hwide.encode_extreme hf hw ha hb hna hnb smaller sat
      exact ⟨hlt, fun h => absurd h hnan, fun _ _ => hpicked⟩

/-- Settles O16. -/
theorem tileComparesAndExtremes : Obligations.TileComparesAndExtremes := by
  unfold Obligations.TileComparesAndExtremes
  intro x td ta tb pd fmt s hfmt th w n va vb value flushed canonicalNan lt holds flush raises
  have hholds (cond : Fin 4) (e : Nat) : (condHolds fmt.val cond.val (tileElem fmt.val (th.readT ta) e)
      (tileElem fmt.val (th.readT tb) e)).1 = true ↔ holds cond.val e := condHolds_iff fmt.val _ _ cond
  have hraises {t : State} {th' : Thread} {g : TFlags} (h : s.raises t x th' (th.pc + 4) g) :
      raises t g ∧ t.issuer x = th'.retiredAt (th.pc + 4) := by
    obtain ⟨hth, hothers, hraised, hkept, hrest⟩ := h
    exact ⟨⟨hothers, hraised, hkept, hrest⟩, hth⟩
  refine ⟨fun cond h => ⟨?mask, ?any, ?all⟩, fun rm h hhold hrm => ?extremes⟩
  case mask =>
    obtain ⟨t, hexec, hres⟩ := exec_tcmpm_raises h hfmt cond
    obtain ⟨hr, hth⟩ := hraises hres
    have hones : (2 ^ w - 1) % 2 ^ w = 2 ^ w - 1 := Nat.mod_eq_of_lt (Nat.sub_lt (by positivity) (by norm_num))
    refine ⟨t, _, hexec, hr, hth, fun e he => ⟨fun hc => ?_, fun hc => ?_⟩⟩
    · rw [tileElem_tileOf fmt _ he, if_pos ((hholds cond e).2 hc), hones]
    · rw [tileElem_tileOf fmt _ he, if_neg (mt (hholds cond e).1 hc), Nat.zero_mod]
  case any =>
    obtain ⟨hr, hth⟩ := hraises (State.comparePred_raises h hfmt cond pd fun l => l.any id)
    have hany (p : Nat → Bool) : ((List.range n).map p).any id = true ↔ ∃ e, e < n ∧ p e = true := by simp
    exact ⟨_, _, rfl, hr, hth, (hany _).trans (exists_congr fun e => and_congr_right fun _ => hholds cond e)⟩
  case all =>
    obtain ⟨hr, hth⟩ := hraises (State.comparePred_raises h hfmt cond pd fun l => l.all id)
    have hall (p : Nat → Bool) : ((List.range n).map p).all id = true ↔ ∀ e, e < n → p e = true := by simp
    exact ⟨_, _, rfl, hr, hth, (hall _).trans (forall₂_congr fun e _ => hholds cond e)⟩
  case extremes =>
    intro picks
    have hpicks {i : Instr} {smaller : Bool} (hi : exec i s =
        .next (s.binaryExact x td ta tb fmt rm (Num.extreme smaller) (pickSigned smaller))) : picks i smaller := by
      obtain ⟨hr, hth⟩ := hraises (State.binaryExact_raises h hhold hfmt hrm smaller)
      refine ⟨_, _, hi, hr, hth, fun e he => ?_⟩
      obtain ⟨hlt, hnan, hpicked⟩ := extremeBits_spec hfmt (tileElem_lt fmt.val (th.readT ta) e)
        (tileElem_lt fmt.val (th.readT tb) e) (s.flag F.CORE_FMTCTL_FP8_SAT x.core.toNat) smaller
      dsimp only
      rw [tileElem_tileOf fmt _ he, Nat.mod_eq_of_lt hlt]
      exact ⟨hnan, hpicked⟩
    exact ⟨hpicks (smaller := true) rfl, hpicks (smaller := false) rfl⟩

end Sys2Proof.Machine
end

section
/-!
PROOFS. The special functions texp2, trcp and trsqrt (O18).
-/

namespace Sys2Proof.Machine

/-! ### Elements (04 Table 4.6) -/

/-- A special function's result is invalid: trsqrt of −infinity and below zero. -/
def specialInvalid (op : Nat) (v : Num) : Bool :=
  match specialFunction op v with
  | .inl r => r.isInvalid
  | .inr _ => false

/-- Rounding a finite value never raises NV. -/
theorem Fp.round_nv (f : Fp) (sat : Bool) (rm draw : Nat) (neg : Bool) (m : Nat) (e : Int) :
    (f.round sat rm draw neg m e).2.nv = false := by
  have hover : (f.overflow sat neg).2.nv = false := by
    unfold Fp.overflow
    dsimp only
    split <;> split_ifs <;> rfl
  unfold Fp.round
  generalize (if neg then f.signBit else 0) = sign
  by_cases hm : m = 0
  · rw [if_pos hm]
  · rw [if_neg hm]
    dsimp only
    generalize (if roundsToUpper rm draw _ _ _ = true then _ else _) = k
    generalize (if f.flush = true then _ else _) = q
    split_ifs
    · exact hover
    · rfl
    · rfl

/-- NV is raised where the result is invalid. -/
theorem Fp.encode_nv (f : Fp) (sat : Bool) (rm draw : Nat) (v : Num) : (f.encode sat rm draw v).2.nv = v.isInvalid := by
  cases v with
  | nan => rfl
  | invalid => rfl
  | inf neg =>
    unfold Fp.encode
    dsimp only
    split <;> split_ifs <;> rfl
  | fin neg m e => exact f.round_nv sat rm draw neg m e

theorem specialElem_nv (op fmt : Nat) (f : Fp) (raw : Nat) :
    (specialElem op fmt f raw).2.nv = specialInvalid op (f.decode raw).1 := by
  unfold specialElem specialInvalid
  dsimp only
  cases h : specialFunction op (f.decode raw).1 with
  | inl v => exact f.encode_nv false 0 0 v
  | inr b =>
    dsimp only
    split
    · exact f.round_nv ..
    · exact f.round_nv ..

theorem specialElem_flush (op fmt : Nat) (f : Fp) {raw : Nat} (h : (f.decode raw).2 = true) :
    (specialElem op fmt f raw).2.flush = true := by
  simp [specialElem, h]

/-- A special value of Table 4.6 is encoded. -/
theorem specialElem_inl {op fmt : Nat} {f : Fp} {raw : Nat} {v : Num} (h : specialFunction op (f.decode raw).1 = .inl v) :
    (specialElem op fmt f raw).1 = (f.encode false 0 0 v).1 := by
  simp [specialElem, h]

/-! ### The instructions -/

@[simp] theorem TFlags.or_nv (a b : TFlags) : (a.or b).nv = (a.nv || b.nv) := rfl
@[simp] theorem TFlags.or_flush (a b : TFlags) : (a.or b).flush = (a.flush || b.flush) := rfl

theorem foldl_or_nv {α : Type} (r : α → TFlags) (l : List α) (g : TFlags) :
    (l.foldl (fun a e => a.or (r e)) g).nv = (g.nv || l.any fun e => (r e).nv) := by
  induction l generalizing g with
  | nil => simp
  | cons e l ih => simp [ih, Bool.or_assoc]

theorem foldl_or_flush {α : Type} (r : α → TFlags) (l : List α) (g : TFlags) :
    (l.foldl (fun a e => a.or (r e)) g).flush = (g.flush || l.any fun e => (r e).flush) := by
  induction l generalizing g with
  | nil => simp
  | cons e l ih => simp [ih, Bool.or_assoc]

section
variable {s : State} {x : Issue} {td ta : Fin 8} {fmt : Fin 13} {f : Fp}

/-- The flags of a special function over a tile. -/
def specialFlags (op fmt : Nat) (f : Fp) (a : Tile) : TFlags :=
  (tileElems fmt a).foldl (fun g raw => g.or (specialElem op fmt f raw).2) {}

theorem State.special_raises (h : s.ready x [.t td, .t ta]) (hfmt : fmt.val ∈ [0x6, 0x7, 0x8]) (hf : fpOf fmt.val = some f)
    (op : Nat) :
    let th := s.issuer x
    s.raises (s.special x td ta fmt 0 op) x
      (th.writeT td (tileOf fmt.val fun e => (specialElem op fmt.val f (tileElem fmt.val (th.readT ta) e)).1))
      (th.pc + 4) (specialFlags op fmt.val f (th.readT ta)) := by
  have hsubs : ∀ e ∈ [(0, !([0x6, 0x7, 0x8] : List Nat).contains fmt.val), (4, (0 : Fin 3).val != 0)], e.2 = false := by
    have hin : ([0x6, 0x7, 0x8] : List Nat).contains fmt.val = true := List.contains_iff_mem.2 hfmt
    simp only [hin]
    decide
  refine State.tileOp_raises h (s.drawHold_of_ne _ (by decide)) hsubs (by simp)
    (fun pc => Thread.issuing_writeT_retiredAt _ _ _ pc) ?_
  simp only [← State.putT_setFlags, hf, Thread.issuing_readT, List.map_map, List.foldl_map, tileElems, specialFlags]
  rfl

/-- What a special function leaves: the table's values where it has one, NV where an input is invalid, FLUSH where one was
flushed. -/
theorem State.special_spec (h : s.ready x [.t td, .t ta]) (hfmt : fmt.val ∈ [0x6, 0x7, 0x8]) (hf : fpOf fmt.val = some f)
    {op : Nat} {table : Num → Option Nat} {invalid : Num → Bool}
    (htable : ∀ v r, table v = some r → ∃ w, specialFunction op v = .inl w ∧ (f.encode false 0 0 w).1 = r ∧
      r < 2 ^ fmtWidth fmt.val)
    (hinvalid : ∀ v, specialInvalid op v = invalid v) :
    let th := s.issuer x
    let u := x.core.toNat
    let raw (e : Nat) := tileElem fmt.val (th.readT ta) e
    let t := s.special x td ta fmt 0 op
    ∃ v, t.issuer x = (th.writeT td v).retiredAt (th.pc + 4) ∧
      (∀ e r, e < fmtCount fmt.val → table (decodeElem fmt.val (raw e)).1 = some r → tileElem fmt.val v e = r) ∧
      ((∃ e, e < fmtCount fmt.val ∧ invalid (decodeElem fmt.val (raw e)).1 = true) → t.get F.CORE_TSTAT_NV u = 1) ∧
      ((∀ e, e < fmtCount fmt.val → invalid (decodeElem fmt.val (raw e)).1 = false) →
        t.get F.CORE_TSTAT_NV u = s.get F.CORE_TSTAT_NV u) ∧
      ((∃ e, e < fmtCount fmt.val ∧ (decodeElem fmt.val (raw e)).2 = true) → t.get F.CORE_TSTAT_FLUSH u = 1) ∧
      s.otherThreadsKept t x.core x.thread ∧ s.fieldsKept t flagFields ∧
      { t with threads := s.threads, regs := s.regs } = s := by
  intro th u raw t
  obtain ⟨hth, hothers, ⟨hnv, -, hflush, -⟩, hkept, hrest⟩ := State.special_raises h hfmt hf op
  have hnvFlag : (specialFlags op fmt.val f (th.readT ta)).nv =
      (List.range (fmtCount fmt.val)).any fun e => invalid (f.decode (raw e)).1 := by
    simp only [specialFlags, foldl_or_nv, tileElems, List.any_map, Bool.false_or, Function.comp_def, specialElem_nv, hinvalid]
    rfl
  have hflushFlag : (specialFlags op fmt.val f (th.readT ta)).flush =
      (List.range (fmtCount fmt.val)).any fun e => (specialElem op fmt.val f (raw e)).2.flush := by
    simp only [specialFlags, foldl_or_flush, tileElems, List.any_map, Bool.false_or, Function.comp_def]
    rfl
  simp only [decodeElem_fp hf]
  refine ⟨_, hth, fun e r he hr => ?_, fun ⟨e, he, hinv⟩ => ?_, fun hclear => ?_, fun ⟨e, he, hfl⟩ => ?_, hothers, hkept, hrest⟩
  · obtain ⟨w, hw, hbits, hlt⟩ := htable _ r hr
    rw [tileElem_tileOf fmt _ he, specialElem_inl hw, hbits, Nat.mod_eq_of_lt hlt]
  · refine hnv.trans (if_pos ?_)
    rw [hnvFlag]
    exact List.any_eq_true.2 ⟨e, List.mem_range.2 he, hinv⟩
  · refine hnv.trans (if_neg ?_)
    rw [hnvFlag, List.any_eq_true]
    rintro ⟨e, he, hinv⟩
    exact Bool.false_ne_true ((hclear e (List.mem_range.1 he)).symm.trans hinv)
  · refine hflush.trans (if_pos ?_)
    rw [hflushFlag]
    exact List.any_eq_true.2 ⟨e, List.mem_range.2 he, specialElem_flush op fmt.val f hfl⟩

end

/-- The special encodings of the formats that the special functions take (05 Tables 5.1 and 5.2). -/
theorem specialFmt_bits {fmt : Fin 13} {f : Fp} (hfmt : fmt.val ∈ [0x6, 0x7, 0x8]) (hf : fpOf fmt.val = some f) :
    f.infBits = (match fmt.val with | 0x6 => 0x7C00 | 0x7 => 0x7F80 | _ => 0x7F80_0000) ∧
    f.nanBits = (match fmt.val with | 0x6 => 0x7E00 | 0x7 => 0x7FC0 | _ => 0x7FC0_0000) ∧
    (f.encode false 0 0 (.fin false 1 0)).1 = (match fmt.val with | 0x6 => 0x3C00 | 0x7 => 0x3F80 | _ => 0x3F80_0000) ∧
    f.signBit = 2 ^ (fmtWidth fmt.val - 1) ∧ f.nanBits < 2 ^ fmtWidth fmt.val ∧
    f.signBit + f.infBits < 2 ^ fmtWidth fmt.val ∧ (f.encode false 0 0 (.fin false 1 0)).1 < 2 ^ fmtWidth fmt.val := by
  simp only [List.mem_cons, List.not_mem_nil, or_false] at hfmt
  obtain h | h | h := hfmt <;> rw [h] at hf ⊢ <;> cases hf <;> decide

/-- Settles O18. -/
theorem specialFunctions : Obligations.SpecialFunctions := by
  unfold Obligations.SpecialFunctions
  intro x td ta fmt s hfmt h th u val sign infinity canonicalNan one signed special
  obtain ⟨f, hf⟩ : ∃ f, fpOf fmt.val = some f := by
    simp only [List.mem_cons, List.not_mem_nil, or_false] at hfmt
    obtain h | h | h := hfmt <;> exact ⟨_, by rw [h]; rfl⟩
  obtain ⟨hinf, hnan, hone, hsign, hnanlt, hinflt, honelt⟩ : f.infBits = infinity ∧ f.nanBits = canonicalNan ∧
      (f.encode false 0 0 (.fin false 1 0)).1 = one ∧ f.signBit = sign ∧ _ ∧ _ ∧ _ := specialFmt_bits hfmt hf
  rw [hnan] at hnanlt
  rw [hsign, hinf] at hinflt
  rw [hone] at honelt
  have hwide : f.Wide := (fpOf_wide (by simp only [List.mem_cons, List.not_mem_nil, or_false] at hfmt ⊢; tauto) hf).1
  have hspecial {op : Nat} {i : Instr} {table : Machine.Num → Option Nat} {invalid : Machine.Num → Bool}
      (hi : exec i s = .next (s.special x td ta fmt 0 op))
      (htable : ∀ v r, table v = some r → ∃ w, specialFunction op v = .inl w ∧ (f.encode false 0 0 w).1 = r ∧
        r < 2 ^ fmtWidth fmt.val)
      (hinvalid : ∀ v, specialInvalid op v = invalid v) : special i table invalid := by
    obtain ⟨v, hv⟩ := State.special_spec h hfmt hf htable hinvalid
    exact ⟨_, v, hi, hv⟩
  clear_value special
  have hencNan : (f.encode false 0 0 .nan).1 = canonicalNan ∧ canonicalNan < 2 ^ fmtWidth fmt.val :=
    ⟨hnan, hnanlt⟩
  have hencInf (neg : Bool) : (f.encode false 0 0 (.inf neg)).1 = signed neg infinity ∧
      signed neg infinity < 2 ^ fmtWidth fmt.val := by
    have henc : (f.encode false 0 0 (.inf neg)).1 = (if neg then f.signBit else 0) + f.infBits := by
      simp [Fp.encode, hwide.ieee]
    rw [henc, hsign, hinf]
    cases neg with
    | true => exact ⟨rfl, hinflt⟩
    | false => exact ⟨Nat.zero_add _, (Nat.le_add_left _ _).trans_lt hinflt⟩
  have hencZero (neg : Bool) (e : Int) : (f.encode false 0 0 (.fin neg 0 e)).1 = signed neg 0 ∧
      signed neg 0 < 2 ^ fmtWidth fmt.val := by
    have henc : (f.encode false 0 0 (.fin neg 0 e)).1 = if neg then f.signBit else 0 := by
      simp [Fp.encode, Fp.round]
    rw [henc, hsign]
    cases neg with
    | true => exact ⟨rfl, (Nat.le_add_right _ _).trans_lt hinflt⟩
    | false => exact ⟨rfl, by positivity⟩
  refine ⟨hspecial rfl ?exp2 ?noneExp, hspecial rfl ?rcp ?noneRcp, hspecial rfl ?rsqrt ?belowZero⟩
  case exp2 =>
    intro v r hr
    match v, hr with
    | .nan, rfl | .invalid, rfl => exact ⟨_, rfl, hencNan⟩
    | .inf true, rfl => exact ⟨_, rfl, hencZero false 0⟩
    | .inf false, rfl => exact ⟨_, rfl, hencInf false⟩
    | .fin neg 0 e, rfl => exact ⟨_, rfl, hone, honelt⟩
  case noneExp =>
    intro v
    match v with
    | .nan | .invalid | .inf true | .inf false => rfl
    | .fin neg 0 e | .fin neg (m + 1) e => rfl
  case rcp =>
    intro v r hr
    match v, hr with
    | .nan, rfl | .invalid, rfl => exact ⟨_, rfl, hencNan⟩
    | .inf neg, rfl => exact ⟨_, rfl, hencZero neg 0⟩
    | .fin neg 0 e, rfl => exact ⟨_, rfl, hencInf neg⟩
  case noneRcp =>
    intro v
    match v with
    | .nan | .invalid | .inf neg => rfl
    | .fin neg 0 e | .fin neg (m + 1) e => rfl
  case rsqrt =>
    intro v r hr
    match v, hr with
    | .nan, rfl | .invalid, rfl => exact ⟨_, rfl, hencNan⟩
    | .inf true, rfl => exact ⟨_, rfl, hencNan⟩
    | .inf false, rfl => exact ⟨_, rfl, hencZero false 0⟩
    | .fin neg 0 e, rfl => exact ⟨_, rfl, hencInf neg⟩
    | .fin true (m + 1) e, rfl => exact ⟨_, rfl, hencNan⟩
  case belowZero =>
    intro v
    match v with
    | .nan | .invalid | .inf true | .inf false => rfl
    | .fin true 0 e | .fin false 0 e | .fin true (m + 1) e | .fin false (m + 1) e => rfl

end Sys2Proof.Machine
end

section
/-!
PROOFS. Raw-bit tile operations, scalars and elements, transposes and error-compensating pairs (O15).
-/

namespace Sys2Proof.Machine

/-! ### Operations on raw bits (05 R183) -/

section
variable {s : State} {x : Issue} {regs : List RegRef} {rm : Nat} {subs : List (Nat × Bool)}

theorem mem_allFmts {fmt : Fin 13} (h : fmt.val ≤ 0xA) : fmt.val ∈ allFmts := by
  simp only [allFmts, List.mem_cons, List.not_mem_nil, or_false]
  omega

/-- An instruction that gives every element of a tile register, and zero beyond the elements. -/
def State.givesElems (s : State) (x : Issue) (td : Fin 8) (fmt : Nat) (g : Nat → Nat) (i : Instr) : Prop :=
  ∃ v : Tile, exec i s = .next (s.after x ((s.issuer x).writeT td v) ((s.issuer x).pc + 4)) ∧
    (∀ e, e < fmtCount fmt → tileElem fmt v e = g e % 2 ^ fmtWidth fmt) ∧ v.toNat < 2 ^ (fmtWidth fmt * fmtCount fmt)

theorem State.givesElems_tileOp (h : s.ready x regs) (hhold : s.drawHold x.core rm = none) (hsubs : ∀ e ∈ subs, e.2 = false)
    {td : Fin 8} {v : Thread → Tile} {i : Instr}
    (hi : exec i s = .next (s.tileOp x regs rm subs fun th u => u.putT x td (v th))) {fmt : Fin 13} {g g' : Nat → Nat}
    (hv : v (s.issuer x).issuing = tileOf fmt.val g')
    (hg : ∀ e, g' e % 2 ^ fmtWidth fmt.val = g e % 2 ^ fmtWidth fmt.val) : s.givesElems x td fmt.val g i := by
  refine ⟨_, hi.trans (congrArg _ (State.tileOp_writesT h hhold hsubs td v)), fun e he => ?_, ?_⟩
  · rw [hv, tileElem_tileOf fmt _ he, hg]
  · rw [hv]
    exact tileOf_lt fmt g'

/-- A one-operand operation on raw bits. -/
theorem State.givesElems_unaryRaw {td ta : Fin 8} {fmt : Fin 13} {rm : Fin 3} (h : s.ready x [.t td, .t ta])
    (hhold : s.drawHold x.core rm.val = none) (hfmt : fmt.val ≤ 0xA)
    (hrm : ¬(rm.val = 2 ∧ (fmt.val = 0x2 ∨ fmt.val = 0xA))) {f : Nat → Nat} {i : Instr}
    (hi : exec i s = .next (s.unaryRaw x td ta fmt rm f)) {g : Nat → Nat}
    (hg : ∀ e, f (tileElem fmt.val ((s.issuer x).readT ta) e) % 2 ^ fmtWidth fmt.val = g e % 2 ^ fmtWidth fmt.val) :
    s.givesElems x td fmt.val g i :=
  State.givesElems_tileOp h hhold (elementSubs_clear (mem_allFmts hfmt) hrm) hi
    (by simp only [tileElems, List.map_map]; rfl) hg

end

theorem tileElems_set (fmt : Nat) (t : Tile) (i v : Nat) :
    packTile fmt ((tileElems fmt t).set i v) = tileOf fmt fun e => if e = i then v else tileElem fmt t e := by
  refine congrArg (packTile fmt) (List.ext_getElem (by simp [tileElems]) fun e he _ => ?_)
  simp [tileElems, List.getElem_set, eq_comm]

theorem replicate_eq_map_range (n v : Nat) : List.replicate n v = (List.range n).map fun _ => v := by
  rw [List.map_const', List.length_range]

/-- A signed value written to a scalar register. -/
theorem ofNat_ofSigned (v : Int) : BitVec.ofNat 64 (ofSigned 64 v) = BitVec.ofInt 64 v := by
  refine BitVec.eq_of_toNat_eq ?_
  rw [BitVec.toNat_ofNat, BitVec.toNat_ofInt, ofSigned]
  exact Nat.mod_eq_of_lt (by omega)

theorem fmtIsInt_iff (fmt : Nat) : fmtIsInt fmt = true ↔ fmt = 0x2 ∨ fmt = 0xA := by simp [fmtIsInt]

/-- The raw-bit operations and the moves of elements. -/
theorem tileMoves_elements (x : Issue) (td ta tb : Fin 8) (fmt : Fin 13) (rm : Fin 3) (s : State) (hfmt : fmt.val ≤ 0xA) :
    let th := s.issuer x
    let w := fmtWidth fmt.val
    let integer := fmt.val = 0x2 ∨ fmt.val = 0xA
    let a (e : Nat) := tileElem fmt.val (th.readT ta) e
    let b (e : Nat) := tileElem fmt.val (th.readT tb) e
    let d (e : Nat) := tileElem fmt.val (th.readT td) e
    let gives (i : Instr) (g : Nat → Nat) : Prop := s.givesElems x td fmt.val g i
    s.ready x [.t td, .t ta, .t tb] → s.drawHold x.core rm.val = none → ¬(rm.val = 2 ∧ integer) →
      gives (.tmov x td ta fmt rm) a ∧
      gives (.tsel x td ta tb fmt rm) (fun e => if d e = 0 then b e else a e) ∧
      (¬integer → gives (.tabs x td ta fmt rm) (fun e => a e % 2 ^ (w - 1)) ∧
        gives (.tneg x td ta fmt rm) (fun e => a e + 2 ^ (w - 1))) ∧
      (integer → gives (.tabs x td ta fmt rm) (fun e => (toSigned w (a e)).natAbs) ∧
        gives (.tneg x td ta fmt rm) (fun e => 2 ^ w - a e)) := by
  intro th w integer a b d gives h hhold hrm
  have h' : s.ready x [.t td, .t ta] := h.mono (by simp) le_rfl
  have hunary {f : Nat → Nat} {i : Instr} (hi : exec i s = .next (s.unaryRaw x td ta fmt rm f)) {g : Nat → Nat}
      (hg : ∀ e, f (a e) % 2 ^ w = g e % 2 ^ w) : gives i g := State.givesElems_unaryRaw h' hhold hfmt hrm hi hg
  refine ⟨hunary rfl fun _ => rfl, ?_, fun hfl => ?_, fun hint => ?_⟩
  · exact State.givesElems_tileOp h hhold (elementSubs_clear (mem_allFmts hfmt) hrm) rfl
      (by simp only [elemPairs, List.map_map]; rfl) fun _ => rfl
  · have hisInt : fmtIsInt fmt.val = false := Bool.eq_false_iff.2 (mt (fmtIsInt_iff _).1 hfl)
    exact ⟨hunary rfl fun e => by rw [hisInt]; rfl, hunary rfl fun e => by rw [hisInt]; exact Nat.mod_mod _ _⟩
  · have hisInt : fmtIsInt fmt.val = true := (fmtIsInt_iff _).2 hint
    refine ⟨hunary rfl fun e => ?_, hunary rfl fun e => by rw [hisInt]; exact Nat.mod_mod _ _⟩
    rw [hisInt, if_pos rfl, ofSigned]
    norm_cast
    exact Nat.mod_mod _ _

/-- The moves between scalar registers and elements. -/
theorem tileMoves_scalars (x : Issue) (td : Fin 8) (rs1 rs2 rd : Fin 32) (fmt : Fin 13) (s : State) (hfmt : fmt.val ≤ 0xA)
    (h : s.ready x [.t td, .s rs1, .s rs2, .s rd]) :
    let th := s.issuer x
    let w := fmtWidth fmt.val
    let d (e : Nat) := tileElem fmt.val (th.readT td) e
    let at_ := (th.readS rs2).toNat % fmtCount fmt.val
    let low := (th.readS rs1).toNat
    s.givesElems x td fmt.val (fun e => if e = at_ then low else d e) (.tins x td rs1 rs2 fmt) ∧
    s.givesElems x td fmt.val (fun _ => low) (.tsplat x td rs1 fmt) ∧
    exec (.text x td rd rs2 fmt) s = .next (s.after x
      (th.writeS rd (if fmt.val = 0x2 ∨ fmt.val = 0xA then BitVec.ofInt 64 (toSigned w (d at_))
        else BitVec.ofNat 64 (d at_))) (th.pc + 4)) := by
  have hhold : s.drawHold x.core 0 = none := s.drawHold_of_ne _ (by decide)
  have hsubs : ∀ e ∈ [(0, !allFmts.contains fmt.val)], e.2 = false := by
    have hin : allFmts.contains fmt.val = true := List.contains_iff_mem.2 (mem_allFmts hfmt)
    simp only [hin]
    decide
  refine ⟨?_, ?_, ?_⟩
  · exact State.givesElems_tileOp (h.mono (by simp) le_rfl) hhold hsubs rfl (tileElems_set ..) fun _ => rfl
  · exact State.givesElems_tileOp (h.mono (by simp) le_rfl) hhold hsubs rfl
      (congrArg (packTile fmt.val) (replicate_eq_map_range _ _)) fun _ => rfl
  · have hact : (s.issued x).thread x.core x.thread = (s.issuer x).issuing := State.thread_setThread_same ..
    refine congrArg _ ((State.tileOp_after (h.mono (by simp) le_rfl) hhold hsubs (th := (s.issuer x).issuing.writeS rd _)
      (by simp) (by rw [hact])).trans ?_)
    rw [State.issued, State.after_setThread rfl, State.after, State.after, Thread.issuing_writeS_retiredAt]
    by_cases hint : fmtIsInt fmt.val = true
    · rw [if_pos hint, if_pos ((fmtIsInt_iff _).1 hint), ofNat_ofSigned]
      rfl
    · rw [if_neg hint, if_neg (mt (fmtIsInt_iff _).2 hint)]
      rfl

/-! ### Transposes (04 R171, Table 4.7) -/

section
variable {r : Nat → Fin 8} {v : Nat → Tile}

/-- Tile registers written one after the other. -/
def Thread.writeTs (th : Thread) (r : Nat → Fin 8) (v : Nat → Tile) (l : List Nat) : Thread :=
  l.foldl (fun th k => th.writeT (r k) (v k)) th

theorem Thread.writeTs_rest (l : List Nat) (th : Thread) : { th.writeTs r v l with t := th.t } = th :=
  List.foldlRecOn (motive := fun u : Thread => { u with t := th.t } = th) l _ rfl fun _ hu _ _ => hu

theorem Thread.readT_writeT (th : Thread) (r q : Fin 8) (v : Tile) :
    (th.writeT r v).readT q = if q = r then v else th.readT q := mget_mset_fin ..

theorem Thread.readT_writeTs_other {q : Fin 8} (l : List Nat) (hl : ∀ k ∈ l, q ≠ r k) (th : Thread) :
    (th.writeTs r v l).readT q = th.readT q :=
  List.foldlRecOn (motive := fun u : Thread => u.readT q = th.readT q) l _ rfl fun u hu k hk => by
    rw [Thread.readT_writeT, if_neg (hl k hk), hu]

theorem Thread.readT_writeTs {n : Nat} (hr : ∀ i j, i < n → j < n → r i = r j → i = j) {k : Nat} (hk : k < n) (th : Thread) :
    (th.writeTs r v (List.range n)).readT (r k) = v k := by
  induction n with
  | zero => omega
  | succ n ih =>
    rw [Thread.writeTs, List.range_succ, List.foldl_append, List.foldl_cons, List.foldl_nil, Thread.readT_writeT]
    by_cases hkn : k = n
    · rw [hkn, if_pos rfl]
    · rw [if_neg fun e => hkn (hr k n hk (by omega) e)]
      exact ih (fun i j hi hj => hr i j (by omega) (by omega)) (by omega)

theorem State.foldl_putT (s : State) (x : Issue) (l : List Nat) : ∀ {th : Thread}, th.st = .running →
    l.foldl (fun s k => s.putT x (r k) (v k)) (s.setThread x.core x.thread th) =
      s.setThread x.core x.thread (th.writeTs r v l) := by
  induction l with
  | nil => exact fun _ => rfl
  | cons k l ih =>
    intro th hth
    rw [List.foldl_cons, State.putT, State.thread_setThread_same, State.setThread_setThread _ _ _ hth (by simpa using hth)]
    exact ih (by simpa using hth)

end

/-- Where the elements of a square stand (04 Table 4.7). -/
theorem transposePlace_spec {fmt : Nat} (hfmt : fmt ∈ [0x0, 0x1, 0x2, 0x3, 0x4, 0x5, 0x6, 0x7, 0x8, 0xA]) {i j : Nat}
    (hi : i < (transposeGroup fmt).2) (hj : j < (transposeGroup fmt).2) :
    (transposePlace fmt i j).1 < (transposeGroup fmt).1 ∧ (transposePlace fmt i j).2 < fmtCount fmt ∧
      transposeIndex fmt (transposePlace fmt i j).1 (transposePlace fmt i j).2 = (i, j) := by
  simp only [List.mem_cons, List.not_mem_nil, or_false] at hfmt
  obtain rfl | rfl | rfl | rfl | rfl | rfl | rfl | rfl | rfl | rfl := hfmt <;>
    simp only [transposeGroup, transposePlace, transposeIndex, fmtCount, Prod.mk.injEq] at hi hj ⊢ <;> omega

/-- Element (i, j) of the square held in a group of tile registers. -/
def Thread.squareElem (th : Thread) (fmt : Nat) (t : Fin 8) (i j : Nat) : Nat :=
  tileElem fmt (th.readT (Fin.ofNat 8 (t.val + (transposePlace fmt i j).1))) (transposePlace fmt i j).2

/-- Tile `k` of a transposed group. -/
def Thread.transposedTile (th : Thread) (fmt : Nat) (ta : Fin 8) (k : Nat) : Tile :=
  tileOf fmt fun e => th.squareElem fmt ta (transposeIndex fmt k e).2 (transposeIndex fmt k e).1

/-- The registers of a group are distinct. -/
theorem groupRegs_injective (fmt : Nat) (t : Fin 8) {i j : Nat} (hi : i < (transposeGroup fmt).1)
    (hj : j < (transposeGroup fmt).1) (h : Fin.ofNat 8 (t.val + i) = Fin.ofNat 8 (t.val + j)) : i = j := by
  have hle : (transposeGroup fmt).1 ≤ 4 := by
    unfold transposeGroup
    split <;> decide
  have hval : (t.val + i) % 8 = (t.val + j) % 8 := congrArg Fin.val h
  omega

section
variable {s : State} {x : Issue} {td ta : Fin 8} {fmt : Fin 13} {rm : Fin 3}

/-- The thread after a transpose. -/
def Thread.transposed (th : Thread) (fmt : Nat) (td ta : Fin 8) : Thread :=
  th.writeTs (fun k => Fin.ofNat 8 (td.val + k)) (th.transposedTile fmt ta) (List.range (transposeGroup fmt).1)

/-- Element (i, j) of the transposed square is element (j, i) of the square, also where the groups are the same. -/
theorem Thread.transposed_squareElem (th : Thread)
    (hfmt : fmt.val ∈ [0x0, 0x1, 0x2, 0x3, 0x4, 0x5, 0x6, 0x7, 0x8, 0xA]) {i j : Nat}
    (hi : i < (transposeGroup fmt.val).2) (hj : j < (transposeGroup fmt.val).2) :
    (th.transposed fmt.val td ta).squareElem fmt.val td i j = th.squareElem fmt.val ta j i := by
  obtain ⟨hreg, hat, hindex⟩ := transposePlace_spec hfmt hi hj
  rw [Thread.squareElem, Thread.transposed,
    Thread.readT_writeTs (fun _ _ => groupRegs_injective fmt.val td) hreg, Thread.transposedTile,
    tileElem_tileOf fmt _ hat, hindex]
  exact Nat.mod_eq_of_lt (tileElem_lt ..)

theorem Thread.transposed_rest (th : Thread) : { th.transposed fmt.val td ta with t := th.t } = th :=
  Thread.writeTs_rest ..

theorem ttrSubs_clear (hfmt : fmt.val ∈ [0x0, 0x1, 0x2, 0x3, 0x4, 0x5, 0x6, 0x7, 0x8, 0xA])
    (hrm : ¬(rm.val = 2 ∧ (fmt.val = 0x2 ∨ fmt.val = 0xA))) {g : Nat} (hta : ta.val % g = 0) (htd : td.val % g = 0) :
    ∀ e ∈ [(0, !([0x0, 0x1, 0x2, 0x3, 0x4, 0x5, 0x6, 0x7, 0x8, 0xA] : List Nat).contains fmt.val),
      (1, decide (ta.val % g ≠ 0) || decide (td.val % g ≠ 0)), (4, rm.val == 2 && fmtIsInt fmt.val)], e.2 = false := by
  have hin : (!([0x0, 0x1, 0x2, 0x3, 0x4, 0x5, 0x6, 0x7, 0x8, 0xA] : List Nat).contains fmt.val) = false := by
    rw [List.contains_iff_mem.2 hfmt]
    rfl
  have hgroups : (decide (ta.val % g ≠ 0) || decide (td.val % g ≠ 0)) = false := by simp [hta, htd]
  have hint : (rm.val == 2 && fmtIsInt fmt.val) = false := by
    rw [Bool.eq_false_iff]
    simpa [fmtIsInt] using hrm
  simp only [hin, hgroups, hint]
  decide

/-- A transpose writes the group at TD and nothing else of its thread but the program counter. -/
theorem exec_ttr (hfmt : fmt.val ∈ [0x0, 0x1, 0x2, 0x3, 0x4, 0x5, 0x6, 0x7, 0x8, 0xA])
    (hrm : ¬(rm.val = 2 ∧ (fmt.val = 0x2 ∨ fmt.val = 0xA))) (hta : ta.val % (transposeGroup fmt.val).1 = 0)
    (htd : td.val % (transposeGroup fmt.val).1 = 0)
    (h : s.ready x (groupRegs ta (transposeGroup fmt.val).1 ++ groupRegs td (transposeGroup fmt.val).1))
    (hhold : s.drawHold x.core rm.val = none) :
    exec (.ttr x td ta fmt rm) s =
      .next (s.after x ((s.issuer x).issuing.transposed fmt.val td ta) ((s.issuer x).pc + 4)) := by
  have hst : ((s.issuer x).issuing.transposed fmt.val td ta).st = .running :=
    (congrArg Thread.st ((s.issuer x).issuing.transposed_rest (fmt := fmt) (td := td) (ta := ta)) :)
  exact congrArg _ (State.tileOp_after h hhold (ttrSubs_clear hfmt hrm hta htd) hst (s.foldl_putT x _ rfl))

end

end Sys2Proof.Machine
end

section
/-!
PROOFS. Error-compensating pairs, and the raw-bit tile instructions, transposes and pairs together (O15).
-/

namespace Sys2Proof.Machine

/-! ### Encodings fit their format -/

theorem Fp.sign_lt (f : Fp) (neg : Bool) : (if neg then f.signBit else 0) < 2 ^ (f.exp + f.man + 1) := by
  simpa [Fp.fields] using f.fields_lt neg (E := 0) (M := 0) (by positivity) (by positivity)

theorem Fp.inf_lt (f : Fp) (neg : Bool) : (if neg then f.signBit else 0) + f.infBits < 2 ^ (f.exp + f.man + 1) :=
  f.fields_lt neg (E := 2 ^ f.exp - 1) (M := 0) (Nat.sub_lt (by positivity) one_pos) (by positivity)

section
variable {f : Fp} (hf : f.Wide)
include hf

theorem Fp.Wide.nanBits_lt : f.nanBits < 2 ^ (f.exp + f.man + 1) := by
  have h := f.fields_lt false (E := 2 ^ f.exp - 1) (M := 2 ^ (f.man - 1)) (Nat.sub_lt (by positivity) one_pos)
    (Nat.pow_lt_pow_right one_lt_two (Nat.sub_lt hf.man_pos one_pos))
  simpa [Fp.fields, Fp.nanBits, Fp.infBits, hf.ieee] using h

/-- A magnitude that is not beyond the largest finite one has an exponent of the format. -/
theorem Fp.Wide.log2_le_bias {k : Nat} (hk : k ≠ 0) {q : Int}
    (h : (Num.fin false f.maxFinite.1 f.maxFinite.2).less (.fin false k q) = false) : (Nat.log2 k : Int) + q ≤ f.bias := by
  have hmax : valueOf false k q ≤ ((2 ^ f.man - 1 + 2 ^ f.man : Nat) : ℚ) * (2 : ℚ) ^ ((f.bias : Int) - f.man) :=
    not_lt.1 (mt (hf.beyond_iff k q).2 (Bool.eq_false_iff.1 h))
  have hpow : ((2 ^ f.man - 1 + 2 ^ f.man : Nat) : ℚ) < (2 : ℚ) ^ ((f.man : Int) + 1) := by
    have hpos : 0 < 2 ^ f.man := by positivity
    exact_mod_cast (by rw [Nat.pow_succ]; omega : 2 ^ f.man - 1 + 2 ^ f.man < 2 ^ (f.man + 1))
  have hlt : (2 : ℚ) ^ ((Nat.log2 k : Int) + q) < 2 ^ ((f.bias : Int) + 1) := by
    calc (2 : ℚ) ^ ((Nat.log2 k : Int) + q) ≤ valueOf false k q := (valueOf_bounds hk q).1
      _ ≤ ((2 ^ f.man - 1 + 2 ^ f.man : Nat) : ℚ) * (2 : ℚ) ^ ((f.bias : Int) - f.man) := hmax
      _ < (2 : ℚ) ^ ((f.man : Int) + 1) * (2 : ℚ) ^ ((f.bias : Int) - f.man) :=
        mul_lt_mul_of_pos_right hpow (by positivity)
      _ = 2 ^ ((f.bias : Int) + 1) := by
        rw [← zpow_add₀ two_ne_zero]
        congr 1
        ring
  have hexp := (zpow_lt_zpow_iff_right₀ one_lt_two).1 hlt
  omega

/-- A magnitude between the smallest normal one and the largest finite one is encoded in the format's bits. -/
theorem Fp.Wide.encodeMag_lt (neg : Bool) {k : Nat} {q : Int}
    (hmax : (Num.fin false f.maxFinite.1 f.maxFinite.2).less (.fin false k q) = false)
    (hmin : k ≠ 0 → (Num.fin false k q).less (.fin false 1 f.minExp) = false) :
    f.encodeMag neg k q < 2 ^ (f.exp + f.man + 1) := by
  have hbias := hf.bias
  rw [Fp.encodeMag]
  by_cases hk : k = 0
  · rw [if_pos hk]
    exact f.sign_lt neg
  · have hnormal : ¬((Nat.log2 k : Int) + q < f.minExp) := by
      have hle : (2 : ℚ) ^ f.minExp ≤ valueOf false k q := by
        simpa [valueOf_false] using not_lt.1 (mt Num.less_fin_iff.2 (Bool.eq_false_iff.1 (hmin hk)))
      have hexp := (zpow_lt_zpow_iff_right₀ one_lt_two).1 (hle.trans_lt (valueOf_bounds hk q).2)
      omega
    have htop := hf.log2_le_bias hk hmax
    simp only [if_neg hk, if_neg hnormal]
    exact f.fields_lt neg (by omega) (Nat.mod_lt _ (by positivity))

/-- A rounded value is encoded in the bits of a format that flushes. -/
theorem Fp.Wide.round_lt (hflush : f.flush = true) (rm draw : Nat) (neg : Bool) (m : Nat) (e : Int) :
    (f.round false rm draw neg m e).1 < 2 ^ (f.exp + f.man + 1) := by
  have hsign := f.sign_lt neg
  unfold Fp.round
  generalize (if neg then f.signBit else 0) = sign at hsign ⊢
  by_cases hm : m = 0
  · rw [if_pos hm]
    exact hsign
  · rw [if_neg hm]
    dsimp only
    generalize (if roundsToUpper rm draw _ _ _ = true then _ else _) = k
    generalize (if f.flush = true then _ else _) = q
    split_ifs with hbeyond hsmall
    · simp only [Fp.overflow, hf.ieee, Bool.false_and, Bool.false_eq_true, if_false]
      exact f.inf_lt neg
    · exact hsign
    · refine hf.encodeMag_lt neg (Bool.eq_false_iff.2 hbeyond) fun hk => Bool.eq_false_iff.2 fun hless => hsmall ?_
      simp [hflush, hk, hless]

/-- Any result is encoded in the bits of a format that flushes. -/
theorem Fp.Wide.encode_lt (hflush : f.flush = true) (rm draw : Nat) (v : Num) :
    (f.encode false rm draw v).1 < 2 ^ (f.exp + f.man + 1) := by
  cases v with
  | nan => exact hf.nanBits_lt
  | invalid => exact hf.nanBits_lt
  | inf neg =>
    simp only [Fp.encode, hf.ieee, Bool.false_and, Bool.false_eq_true, if_false]
    exact f.inf_lt neg
  | fin neg m e => exact hf.round_lt hflush rm draw neg m e

end

/-! ### The two parts (04 Table 4.8) -/

/-- The low part: the NaN again, zero by an infinity and where the high part is exact, or else the remainder rounded. -/
structure Fp.IsLow (f : Fp) (exact : Num) (h l : Nat) : Prop where
  of_nan : (f.decode h).1 = .nan → l = h
  of_inf : ∀ neg, (f.decode h).1 = .inf neg → l = 0
  of_exact : ∀ neg m q, (f.decode h).1 = .fin neg m q → ∀ n' q', sumNums [exact, .fin (!neg) m q] = .fin n' 0 q' → l = 0
  of_rest : ∀ neg m q, (f.decode h).1 = .fin neg m q → ∀ n' m' q', sumNums [exact, .fin (!neg) m q] = .fin n' m' q' →
    m' ≠ 0 → l = (f.encode false 0 0 (sumNums [exact, .fin (!neg) m q])).1

section
variable {f : Fp} (exact : Num) (flushed inputNan inputInf : Bool)

theorem pairParts_high : (pairParts f exact flushed inputNan inputInf).1 = (f.encode false 0 0 exact).1 := by
  unfold pairParts
  dsimp only
  split
  · rfl
  · rfl
  · split
    · split_ifs <;> rfl
    · rfl

theorem pairParts_low : f.IsLow exact (f.encode false 0 0 exact).1 (pairParts f exact flushed inputNan inputInf).2.1 := by
  unfold pairParts
  dsimp only
  generalize (f.encode false 0 0 exact).1 = h
  cases hh : (f.decode h).1 with
  | nan => constructor <;> simp [hh]
  | invalid => constructor <;> simp [hh]
  | inf neg => constructor <;> simp [hh]
  | fin neg m q =>
    constructor
    · simp [hh]
    · simp [hh]
    · intro neg' m' q' heq n r hr
      cases hh.symm.trans heq
      simp [Num.neg, hr]
    · intro neg' m' q' heq n k r hr hk
      cases hh.symm.trans heq
      simp [Num.neg, hr, hk, Fp.encode]

theorem pairParts_low_lt (hf : f.Wide) (hflush : f.flush = true) :
    (pairParts f exact flushed inputNan inputInf).2.1 < 2 ^ (f.exp + f.man + 1) := by
  unfold pairParts
  dsimp only
  split
  · exact hf.encode_lt hflush 0 0 exact
  · positivity
  · split
    · split_ifs
      · positivity
      · exact hf.round_lt hflush ..
    · positivity

end

/-! ### The instructions -/

theorem fpOf_pair {code : Nat} {f : Fp} (hcode : code = 0x8 ∨ code = 0x9) (hf : fpOf code = some f) :
    f.Wide ∧ fmtWidth code = f.exp + f.man + 1 ∧ f.flush = true := by
  obtain rfl | rfl := hcode
  · exact ⟨(fpOf_wide (by decide) hf).1, (fpOf_wide (by decide) hf).2, by cases hf; rfl⟩
  · exact ⟨(fpOf_wide (by decide) hf).1, (fpOf_wide (by decide) hf).2, by cases hf; rfl⟩

/-- The two parts of an element, with its flags. -/
def pairElem (f : Fp) (op : Num → Num → Num) (rawA rawB : Nat) : Nat × Nat × TFlags :=
  let a := f.decode rawA
  let b := f.decode rawB
  pairParts f (op a.1 b.1) (a.2 || b.2) (a.1.isNan || b.1.isNan)
    (a.1.isInf true || a.1.isInf false || b.1.isInf true || b.1.isInf false)

section
variable {s : State} {x : Issue} {td td1 ta tb : Fin 8} {fmt : Fin 13} {f : Fp}

/-- The flags of a pair operation over its tiles. -/
def pairFlags (fmt : Nat) (f : Fp) (op : Num → Num → Num) (a b : Tile) : TFlags :=
  (List.range (fmtCount fmt)).foldl (fun g e => g.or (pairElem f op (tileElem fmt a e) (tileElem fmt b e)).2.2) {}

/-- A pair operation writes the high parts to TD and the low ones to the register after it. -/
theorem State.pair_raises (h : s.ready x [.t td, .t td1, .t ta, .t tb]) (hfmt : fmt.val = 0x8 ∨ fmt.val = 0x9)
    (hf : fpOf fmt.val = some f) (heven : td.val % 2 = 0) (htd1 : td1.val = td.val + 1) (op : Num → Num → Num) :
    let th := s.issuer x
    let parts (e : Nat) := pairElem f op (tileElem fmt.val (th.readT ta) e) (tileElem fmt.val (th.readT tb) e)
    s.raises (s.pair x td ta tb fmt 0 op) x
      ((th.writeT td (tileOf fmt.val fun e => (parts e).1)).writeT td1 (tileOf fmt.val fun e => (parts e).2.1))
      (th.pc + 4) (pairFlags fmt.val f op (th.readT ta) (th.readT tb)) := by
  intro th parts
  have hnext : Fin.ofNat 8 (td.val + 1) = td1 := Fin.ext (by rw [← htd1]; exact Nat.mod_eq_of_lt td1.isLt)
  have hsubs : ∀ e ∈ [(0, !([0x8, 0x9] : List Nat).contains fmt.val), (1, td.val % 2 == 1), (4, (0 : Fin 3).val != 0)],
      e.2 = false := by
    have hin : ([0x8, 0x9] : List Nat).contains fmt.val = true := List.contains_iff_mem.2 (by simpa using hfmt)
    simp only [hin, heven]
    decide
  refine State.tileOp_raises (by rw [hnext]; exact h) (s.drawHold_of_ne _ (by decide)) hsubs
    (th := ((th.issuing.writeT td (tileOf fmt.val fun e => (parts e).1)).writeT td1
      (tileOf fmt.val fun e => (parts e).2.1))) (by simp) (fun _ => rfl) ?_
  simp only [hnext, hf, elemPairs, List.map_map, List.foldl_map, Thread.issuing_readT]
  rw [State.putT_setFlags, State.putT, State.thread_setThread_same, State.setThread_setThread _ _ _ (by simp) (by simp)]
  rfl

/-- What a pair operation leaves in its two registers. -/
theorem State.pair_spec (h : s.ready x [.t td, .t td1, .t ta, .t tb]) (hfmt : fmt.val = 0x8 ∨ fmt.val = 0x9)
    (hf : fpOf fmt.val = some f) (heven : td.val % 2 = 0) (htd1 : td1.val = td.val + 1) (op : Num → Num → Num) :
    let th := s.issuer x
    let exact (e : Nat) := op (f.decode (tileElem fmt.val (th.readT ta) e)).1 (f.decode (tileElem fmt.val (th.readT tb) e)).1
    ∃ hi lo g, s.raises (s.pair x td ta tb fmt 0 op) x ((th.writeT td hi).writeT td1 lo) (th.pc + 4) g ∧
      ∀ e, e < fmtCount fmt.val → tileElem fmt.val hi e = (f.encode false 0 0 (exact e)).1 ∧
        f.IsLow (exact e) (tileElem fmt.val hi e) (tileElem fmt.val lo e) := by
  intro th exact
  obtain ⟨hwide, hw, hflush⟩ := fpOf_pair hfmt hf
  refine ⟨_, _, _, State.pair_raises h hfmt hf heven htd1 op, fun e he => ?_⟩
  rw [tileElem_tileOf fmt _ he, tileElem_tileOf fmt _ he, hw]
  dsimp only [pairElem]
  rw [pairParts_high, Nat.mod_eq_of_lt (hwide.encode_lt hflush ..), Nat.mod_eq_of_lt (pairParts_low_lt _ _ _ _ hwide hflush)]
  exact ⟨rfl, pairParts_low ..⟩

end

/-! ### All together -/

section
variable {s : State} {x : Issue} {td ta : Fin 8} {fmt : Fin 13} {rm : Fin 3}

/-- Tile registers in a group and the side of its square (04 Table 4.7). -/
theorem transposeGroup_eq : ∀ fmt : Fin 13, fmt.val ∈ [0x0, 0x1, 0x2, 0x3, 0x4, 0x5, 0x6, 0x7, 0x8, 0xA] →
    transposeGroup fmt.val = (if fmt.val = 0x8 ∨ fmt.val = 0xA then 4 else
      if fmt.val = 0x5 ∨ fmt.val = 0x6 ∨ fmt.val = 0x7 then 2 else 1, if fmt.val = 0x5 then 32 else 16) := by
  decide

/-- Where an element of a square stands, by the columns that a tile holds. -/
theorem transposePlace_eq (hfmt : fmt.val ∈ [0x0, 0x1, 0x2, 0x3, 0x4, 0x5, 0x6, 0x7, 0x8, 0xA]) {i j : Nat}
    (hj : j < (transposeGroup fmt.val).2) :
    transposePlace fmt.val i j =
      if fmt.val = 0x5 then (i / 16, i % 16 * 32 + j)
      else (j / ((transposeGroup fmt.val).2 / (transposeGroup fmt.val).1),
        i * ((transposeGroup fmt.val).2 / (transposeGroup fmt.val).1) +
          j % ((transposeGroup fmt.val).2 / (transposeGroup fmt.val).1)) := by
  simp only [List.mem_cons, List.not_mem_nil, or_false] at hfmt
  obtain h | h | h | h | h | h | h | h | h | h := hfmt <;> rw [h] at hj ⊢ <;>
    simp only [transposeGroup, transposePlace] at hj ⊢ <;> simp <;> omega

/-- The square held in a group, by the columns that a tile holds. -/
theorem Thread.squareElem_eq (th : Thread) (hfmt : fmt.val ∈ [0x0, 0x1, 0x2, 0x3, 0x4, 0x5, 0x6, 0x7, 0x8, 0xA]) (t : Fin 8)
    (i : Nat) {j cols : Nat} (hcols : (transposeGroup fmt.val).2 / (transposeGroup fmt.val).1 = cols)
    (hj : j < (transposeGroup fmt.val).2) :
    th.squareElem fmt.val t i j =
      if fmt.val = 0x5 then tileElem fmt.val (th.readT (Fin.ofNat 8 (t.val + i / 16))) (i % 16 * 32 + j)
      else tileElem fmt.val (th.readT (Fin.ofNat 8 (t.val + j / cols))) (i * cols + j % cols) := by
  rw [Thread.squareElem, transposePlace_eq hfmt hj, hcols]
  split_ifs <;> rfl

end

/-- The transposes. -/
theorem tileMoves_transposes (x : Issue) (td ta : Fin 8) (fmt : Fin 13) (rm : Fin 3) (s : State)
    (hrm : ¬(rm.val = 2 ∧ (fmt.val = 0x2 ∨ fmt.val = 0xA)))
    (hfmt : fmt.val ∈ [0x0, 0x1, 0x2, 0x3, 0x4, 0x5, 0x6, 0x7, 0x8, 0xA]) :
    let g := if fmt.val = 0x8 ∨ fmt.val = 0xA then 4 else if fmt.val = 0x5 ∨ fmt.val = 0x6 ∨ fmt.val = 0x7 then 2 else 1
    let side := if fmt.val = 0x5 then 32 else 16
    let cols := side / g
    ta.val % g = 0 → td.val % g = 0 → s.ready x (groupRegs ta g ++ groupRegs td g) → s.drawHold x.core rm.val = none →
    let th := s.issuer x
    let square (th : Thread) (t : Fin 8) (i j : Nat) : Nat :=
      if fmt.val = 0x5 then tileElem fmt.val (th.readT (Fin.ofNat 8 (t.val + i / 16))) (i % 16 * 32 + j)
      else tileElem fmt.val (th.readT (Fin.ofNat 8 (t.val + j / cols))) (i * cols + j % cols)
    ∃ t, exec (.ttr x td ta fmt rm) s = .next t ∧
      (∀ i j, i < side → j < side → square (t.issuer x) td i j = square th ta j i) ∧
      (∀ r : Fin 8, (∀ k, k < g → r ≠ Fin.ofNat 8 (td.val + k)) → (t.issuer x).readT r = th.readT r) ∧
      (t.issuer x).s = th.s ∧ (t.issuer x).a = th.a ∧ (t.issuer x).p = th.p ∧ (t.issuer x).pc = th.pc + 4 ∧
      s.otherThreadsKept t x.core x.thread ∧ { t with threads := s.threads } = s := by
  intro g side cols hta htd h hhold th square
  have hg : (transposeGroup fmt.val).1 = g := congrArg Prod.fst (transposeGroup_eq fmt hfmt)
  have hside : (transposeGroup fmt.val).2 = side := congrArg Prod.snd (transposeGroup_eq fmt hfmt)
  have hcols : (transposeGroup fmt.val).2 / (transposeGroup fmt.val).1 = cols := by rw [hg, hside]
  have hsquare (u : Thread) (t : Fin 8) (i j : Nat) (hj : j < side) : square u t i j = u.squareElem fmt.val t i j :=
    (u.squareElem_eq hfmt t i hcols (hj.trans_eq hside.symm)).symm
  rw [← hg] at hta htd h
  have hrest := th.issuing.transposed_rest (fmt := fmt) (td := td) (ta := ta)
  have hth : (s.after x (th.issuing.transposed fmt.val td ta) (th.pc + 4)).issuer x =
      (th.issuing.transposed fmt.val td ta).retiredAt (th.pc + 4) := State.thread_setThread_same ..
  refine ⟨_, exec_ttr hfmt hrm hta htd h hhold, fun i j hi hj => ?_, fun r hr => ?_, ?_, ?_, ?_, ?_,
    s.otherThreadsKept_setThread x.core x.thread _, rfl⟩
  · rw [hsquare _ _ _ _ hj, hsquare _ _ _ _ hi, hth]
    exact th.issuing.transposed_squareElem hfmt (hi.trans_eq hside.symm) (hj.trans_eq hside.symm)
  · rw [hth]
    exact Thread.readT_writeTs_other _ (fun k hk => hr k ((List.mem_range.1 hk).trans_eq hg)) _
  · exact (congrArg Thread.s hth).trans (congrArg Thread.s hrest :)
  · exact (congrArg Thread.a hth).trans (congrArg Thread.a hrest :)
  · exact (congrArg Thread.p hth).trans (congrArg Thread.p hrest :)
  · exact congrArg Thread.pc hth

/-- Settles O15. -/
theorem tileMoves : Obligations.TileMoves := by
  unfold Obligations.TileMoves
  refine ⟨fun x td ta tb fmt rm s hfmt => ⟨?elements, ?scalars⟩, ?transposes, ?pairs⟩
  case elements => exact tileMoves_elements x td ta tb fmt rm s hfmt
  case scalars => exact fun rs1 rs2 rd h => tileMoves_scalars x td rs1 rs2 rd fmt s hfmt h
  case transposes => exact tileMoves_transposes
  case pairs =>
    intro x td td1 ta tb fmt f s hfmt hf heven htd1 h th va vb pair
    have hpair {i : Instr} (op : Num → Num → Num) (hi : exec i s = .next (s.pair x td ta tb fmt 0 op)) :
        pair i fun e => op (va e) (vb e) := by
      obtain ⟨hi', lo, g, ⟨hth, hothers, -, hkept, hrest⟩, hparts⟩ := State.pair_spec h hfmt hf heven htd1 op
      refine ⟨_, hi', lo, hi, hth, hothers, hkept, hrest, fun e he => ?_⟩
      obtain ⟨hhigh, hlow⟩ := hparts e he
      exact ⟨hhigh, hlow.of_nan, hlow.of_inf, fun neg m q hfin => ⟨hlow.of_exact neg m q hfin, hlow.of_rest neg m q hfin⟩⟩
    exact ⟨hpair (fun a b => sumNums [a, b]) rfl, hpair Num.mul rfl⟩

end Sys2Proof.Machine
end

section
/-!
PROOFS. Rounding to nearest and toward zero in every floating-point format (O14).
-/

namespace Sys2Proof.Machine

/-! ### The finite encodings, in the order of their magnitudes (05 R180, Table 5.2) -/

/-- The magnitude m × 2^e of the encoding `b`, its sign aside, where `b` is no special encoding. -/
def Fp.parts (f : Fp) (b : Nat) : Nat × Int :=
  if b / 2 ^ f.man = 0 then (b % 2 ^ f.man, f.minExp - f.man)
  else (b % 2 ^ f.man + 2 ^ f.man, ((b / 2 ^ f.man : Nat) : Int) - f.bias - f.man)

/-- The value of the encoding `b`, its sign aside. -/
def Fp.magnitude (f : Fp) (b : Nat) : ℚ := valueOf false (f.parts b).1 (f.parts b).2

/-- The largest finite encoding of each format of Table 5.2 is normal. -/
theorem fpOf_maxBits {code : Nat} {f : Fp} (hf : fpOf code = some f) : 2 ^ f.man ≤ f.maxBits := by
  unfold fpOf at hf
  split at hf <;> cases hf <;> decide

section
variable {f : Fp}

theorem Fp.maxBits_lt : f.maxBits < f.signBit := by
  have hsign : 0 < f.signBit := Nat.two_pow_pos _
  have hlt : f.infBits < f.signBit := by
    rw [Fp.infBits, Fp.signBit, Nat.pow_add]
    exact Nat.mul_lt_mul_of_pos_right (Nat.sub_lt (by positivity) one_pos) (by positivity)
  unfold Fp.maxBits
  split <;> omega

theorem Fp.magnitude_subnormal {M : Nat} (hM : M < 2 ^ f.man) : f.magnitude M = M * (2 : ℚ) ^ (f.minExp - f.man) := by
  rw [Fp.magnitude, Fp.parts, if_pos (Nat.div_eq_of_lt hM), valueOf_false, Nat.mod_eq_of_lt hM]

theorem Fp.magnitude_normal {E M : Nat} (hE : E ≠ 0) (hM : M < 2 ^ f.man) :
    f.magnitude (E * 2 ^ f.man + M) = ((M + 2 ^ f.man : Nat) : ℚ) * (2 : ℚ) ^ ((E : Int) - f.bias - f.man) := by
  have hdiv : (E * 2 ^ f.man + M) / 2 ^ f.man = E := by
    rw [Nat.mul_comm, Nat.mul_add_div (by positivity), Nat.div_eq_of_lt hM, Nat.add_zero]
  rw [Fp.magnitude, Fp.parts, hdiv, if_neg hE, valueOf_false, Nat.mul_add_mod_self_right, Nat.mod_eq_of_lt hM]

/-- The encoding after one with the mantissa field full is the first of the next exponent. -/
theorem Fp.magnitude_lt_succ (f : Fp) (b : Nat) : f.magnitude b < f.magnitude (b + 1) := by
  obtain ⟨E, M, hM, rfl⟩ : ∃ E M, M < 2 ^ f.man ∧ b = E * 2 ^ f.man + M :=
    ⟨b / 2 ^ f.man, b % 2 ^ f.man, Nat.mod_lt _ (by positivity), (Nat.div_add_mod' _ _).symm⟩
  have hpos : 0 < 2 ^ f.man := by positivity
  by_cases hnext : M + 1 < 2 ^ f.man
  · rw [Nat.add_assoc]
    by_cases hE : E = 0
    · rw [hE, Nat.zero_mul, Nat.zero_add, Nat.zero_add, Fp.magnitude_subnormal hM, Fp.magnitude_subnormal hnext]
      exact mul_lt_mul_of_pos_right (by exact_mod_cast Nat.lt_succ_self M) (by positivity)
    · rw [Fp.magnitude_normal hE hM, Fp.magnitude_normal hE hnext]
      exact mul_lt_mul_of_pos_right (by exact_mod_cast (by omega)) (by positivity)
  · have hcarry : E * 2 ^ f.man + M + 1 = (E + 1) * 2 ^ f.man + 0 := by rw [Nat.add_mul]; omega
    rw [hcarry, Fp.magnitude_normal E.succ_ne_zero hpos]
    by_cases hE : E = 0
    · have hexp : (((0 : Nat) + 1 : Nat) : Int) - f.bias - f.man = f.minExp - f.man := by rw [Fp.minExp]; omega
      rw [hE, Nat.zero_mul, Nat.zero_add, Fp.magnitude_subnormal hM, hexp]
      exact mul_lt_mul_of_pos_right (by exact_mod_cast (by omega)) (by positivity)
    · have hexp : ((E + 1 : Nat) : Int) - f.bias - f.man = 1 + ((E : Int) - f.bias - f.man) := by push_cast; ring
      rw [Fp.magnitude_normal hE hM, hexp, zpow_add₀ two_ne_zero, zpow_one, ← mul_assoc]
      exact mul_lt_mul_of_pos_right (by exact_mod_cast (by omega)) (by positivity)

theorem Fp.magnitude_minNormal : f.magnitude (2 ^ f.man) = (2 : ℚ) ^ f.minExp := by
  have h := Fp.magnitude_normal (f := f) (E := 1) (M := 0) one_ne_zero (by positivity)
  rw [Nat.one_mul, Nat.add_zero, Nat.zero_add, Nat.cast_pow, Nat.cast_two, ← zpow_natCast, ← zpow_add₀ two_ne_zero] at h
  rw [h, Fp.minExp]
  congr 1
  push_cast
  ring

theorem Fp.magnitude_strictMono (f : Fp) : StrictMono f.magnitude := strictMono_nat_of_lt_succ f.magnitude_lt_succ

/-- What an encoding that is not special stands for, and whether the input flush meets it. -/
def Fp.plainNum (f : Fp) (neg : Bool) (E M : Nat) : Num × Bool :=
  if E = 0 then if f.flush && M != 0 then (.fin neg 0 0, true) else (.fin neg M (f.minExp - f.man), false)
  else (.fin neg (M + 2 ^ f.man) ((E : Int) - f.bias - f.man), false)

/-- The encodings of infinities and NaNs. -/
def Fp.Special (f : Fp) (x : Nat) : Prop :=
  match f.specials with
  | .ieee => x / 2 ^ f.man % 2 ^ f.exp = 2 ^ f.exp - 1
  | .oneNan => x % f.signBit = f.signBit - 1
  | .none => False

theorem Fp.decode_plain {x : Nat} (h : ¬f.Special x) :
    f.decode x = f.plainNum (x.testBit (f.exp + f.man)) (x / 2 ^ f.man % 2 ^ f.exp) (x % 2 ^ f.man) := by
  cases hs : f.specials <;> simp only [Fp.Special, hs] at h <;> simp only [Fp.decode, hs]
  · exact if_neg h
  · exact if_neg h
  · rfl

theorem Fp.not_special_of_fin {x : Nat} {neg : Bool} {m : Nat} {e : Int} (h : (f.decode x).1 = .fin neg m e) :
    ¬f.Special x := by
  intro hx
  cases hs : f.specials <;> simp only [Fp.Special, hs] at hx <;> simp only [Fp.decode, hs, if_pos hx] at h
  · split_ifs at h
  · cases h

/-- The fields of a signed encoding. -/
theorem Fp.signed_fields (neg : Bool) {b : Nat} (hb : b < 2 ^ (f.exp + f.man)) :
    let x := (if neg then f.signBit else 0) + b
    x.testBit (f.exp + f.man) = neg ∧ x % f.signBit = b ∧ x / 2 ^ f.man % 2 ^ f.exp = b / 2 ^ f.man ∧
      x % 2 ^ f.man = b % 2 ^ f.man := by
  intro x
  have hlow : x % 2 ^ (f.exp + f.man) = b := by cases neg <;> simp [x, Fp.signBit, Nat.mod_eq_of_lt hb]
  refine ⟨?_, hlow, ?_, ?_⟩
  · cases neg
    · simp [x, Nat.testBit_lt_two_pow hb]
    · simp [x, Fp.signBit, Nat.testBit_two_pow_add_eq, Nat.testBit_lt_two_pow hb]
  · rw [← Nat.mod_mul_right_div_self, ← Nat.pow_add, Nat.add_comm f.man, hlow]
  · rw [← hlow, Nat.mod_mod_of_dvd _ (Nat.pow_dvd_pow 2 (Nat.le_add_left ..))]

/-- An encoding up to the largest finite one is not special. -/
theorem Fp.not_special (hmax : 2 ^ f.man ≤ f.maxBits) (neg : Bool) {b : Nat} (hb : b ≤ f.maxBits) :
    ¬f.Special ((if neg then f.signBit else 0) + b) := by
  have hpos : 0 < 2 ^ f.man := by positivity
  obtain ⟨-, hlow, hexp, -⟩ := f.signed_fields neg (hb.trans_lt f.maxBits_lt)
  cases hs : f.specials <;> simp only [Fp.maxBits, hs] at hmax hb <;> simp only [Fp.Special, hs, hlow, hexp]
  · have hinf : b < 2 ^ f.man * (2 ^ f.exp - 1) := by
      rw [Nat.mul_comm]
      exact (by omega : b < f.infBits)
    exact (Nat.div_lt_of_lt_mul hinf).ne
  · omega
  · exact not_false

/-- An encoding up to the largest finite one, and not flushed on input, stands for its magnitude. -/
theorem Fp.decode_finite (hmax : 2 ^ f.man ≤ f.maxBits) (neg : Bool) {b : Nat} (hb : b ≤ f.maxBits)
    (hkept : f.flush = true → b = 0 ∨ 2 ^ f.man ≤ b) :
    (f.decode ((if neg then f.signBit else 0) + b)).1 = .fin neg (f.parts b).1 (f.parts b).2 := by
  obtain ⟨hsign, -, hexp, hman⟩ := f.signed_fields neg (hb.trans_lt f.maxBits_lt)
  rw [Fp.decode_plain (Fp.not_special hmax neg hb), hsign, hexp, hman, Fp.plainNum, Fp.parts]
  by_cases h0 : b / 2 ^ f.man = 0
  · have hsmall : b < 2 ^ f.man := (Nat.div_eq_zero_iff_lt (by positivity)).1 h0
    have hflush : (f.flush && b % 2 ^ f.man != 0) = false := by
      cases hfl : f.flush
      · rfl
      · simp [(hkept hfl).resolve_right (by omega)]
    simp only [if_pos h0, hflush, Bool.false_eq_true, if_false]
  · simp only [if_neg h0]

/-- Every finite number read from an encoding has at most a hidden bit above the mantissa field, and is a multiple of the
smallest subnormal. -/
theorem Fp.decode_multiple {x : Nat} {neg : Bool} {k : Nat} {p : Int} (h : (f.decode x).1 = .fin neg k p) :
    k < 2 ^ (f.man + 1) ∧ (k = 0 ∨ f.minExp - f.man ≤ p) := by
  have hM : x % 2 ^ f.man < 2 ^ f.man := Nat.mod_lt _ (by positivity)
  rw [Fp.decode_plain (Fp.not_special_of_fin h), Fp.plainNum] at h
  rw [Nat.pow_succ, Fp.minExp]
  split_ifs at h with hE hflush <;> injection h with _ hk hp
  · omega
  · rw [Fp.minExp] at hp; omega
  · omega

/-- The largest finite value is that of the largest finite encoding. -/
theorem Fp.maxFinite_value (hmax : 2 ^ f.man ≤ f.maxBits) :
    valueOf false f.maxFinite.1 f.maxFinite.2 = f.magnitude f.maxBits := by
  have hdecode := Fp.decode_finite hmax false le_rfl fun _ => .inr hmax
  simp only [Bool.false_eq_true, if_false, Nat.zero_add] at hdecode
  simp only [Fp.maxFinite, hdecode, Fp.magnitude]

end

/-! ### A magnitude's encoding -/

section
variable {f : Fp} {k : Nat} {q : Int}

/-- A multiple of its own binade's spacing, shifted to that binade: a hidden bit above a mantissa field, of the same value. -/
theorem normalized_significand {w : Nat} (h0 : k ≠ 0) (hk : k ≤ 2 ^ (w + 1)) (q : Int) :
    ∃ M < 2 ^ w, (if Nat.log2 k ≤ w then k * 2 ^ (w - Nat.log2 k) else k / 2 ^ (Nat.log2 k - w)) = 2 ^ w + M ∧
      ((M + 2 ^ w : Nat) : ℚ) * (2 : ℚ) ^ ((Nat.log2 k : Int) + q - w) = valueOf false k q := by
  have hlo : 2 ^ Nat.log2 k ≤ k := Nat.log2_self_le h0
  by_cases hw : Nat.log2 k ≤ w
  · have hge : 2 ^ w ≤ k * 2 ^ (w - Nat.log2 k) := by
      calc 2 ^ w = 2 ^ Nat.log2 k * 2 ^ (w - Nat.log2 k) := by rw [← Nat.pow_add, Nat.add_sub_cancel' hw]
        _ ≤ k * 2 ^ (w - Nat.log2 k) := Nat.mul_le_mul_right _ hlo
    have hlt : k * 2 ^ (w - Nat.log2 k) < 2 ^ w + 2 ^ w := by
      calc k * 2 ^ (w - Nat.log2 k) < 2 ^ (Nat.log2 k + 1) * 2 ^ (w - Nat.log2 k) :=
            Nat.mul_lt_mul_of_pos_right Nat.lt_log2_self (by positivity)
        _ = 2 ^ w + 2 ^ w := by rw [← Nat.pow_add, Nat.add_right_comm, Nat.add_sub_cancel' hw, Nat.pow_succ, Nat.mul_two]
    refine ⟨k * 2 ^ (w - Nat.log2 k) - 2 ^ w, by omega, by rw [if_pos hw, Nat.add_sub_cancel' hge], ?_⟩
    rw [Nat.sub_add_cancel hge, valueOf_false, Nat.cast_mul, Nat.cast_pow, Nat.cast_two, mul_assoc, ← zpow_natCast,
      ← zpow_add₀ two_ne_zero, Nat.cast_sub hw]
    congr 2
    ring
  · have hpow : 2 ^ (w + 1) ≤ 2 ^ Nat.log2 k := Nat.pow_le_pow_right two_pos (by omega)
    obtain rfl : k = 2 ^ (w + 1) := by omega
    have hshift : w + 1 - w = 1 := by omega
    refine ⟨0, by positivity, ?_, ?_⟩
    · rw [if_neg hw, Nat.log2_two_pow, hshift, Nat.pow_one, Nat.pow_succ, Nat.mul_div_cancel _ two_pos, Nat.add_zero]
    · rw [Nat.log2_two_pow, valueOf_false, Nat.zero_add, Nat.pow_succ, Nat.cast_mul, Nat.cast_two, mul_assoc,
        ← zpow_one_add₀ two_ne_zero]
      congr 2
      push_cast
      ring

/-- A multiple of the spacing of the subnormals or of its own binade is encoded with its value. -/
theorem Fp.encodeMag_magnitude (hk : k ≤ 2 ^ (f.man + 1))
    (hsub : k ≠ 0 → (Nat.log2 k : Int) + q < f.minExp → q = f.minExp - f.man) (neg : Bool) :
    ∃ b, f.encodeMag neg k q = (if neg then f.signBit else 0) + b ∧ f.magnitude b = valueOf false k q := by
  have hpos : 0 < 2 ^ f.man := by positivity
  rw [Fp.encodeMag]
  by_cases h0 : k = 0
  · exact ⟨0, if_pos h0, by rw [Fp.magnitude_subnormal hpos, h0, valueOf_zero, Nat.cast_zero, zero_mul]⟩
  rw [if_neg h0]
  by_cases hlow : (Nat.log2 k : Int) + q < f.minExp
  · have hq := hsub h0 hlow
    have hM : k < 2 ^ f.man := (Nat.log2_lt h0).1 (by omega)
    exact ⟨k, if_pos hlow, by rw [Fp.magnitude_subnormal hM, valueOf_false, hq]⟩
  · obtain ⟨M, hM, hmant, hvalue⟩ := normalized_significand h0 hk q
    rw [Fp.minExp] at hlow
    refine ⟨((Nat.log2 k : Int) + q + f.bias).toNat * 2 ^ f.man + M, ?_, ?_⟩
    · simp only [Fp.minExp, if_neg hlow, hmant, Nat.add_mod_left, Nat.mod_eq_of_lt hM, Nat.add_assoc]
    · rw [Fp.magnitude_normal (by omega) hM, ← hvalue]
      congr 2
      omega

/-- A magnitude of the format's spacing and range is encoded as a finite value equal to it. -/
theorem Fp.decode_encodeMag (hmax : 2 ^ f.man ≤ f.maxBits) (hk : k ≤ 2 ^ (f.man + 1))
    (hsub : k ≠ 0 → (Nat.log2 k : Int) + q < f.minExp → q = f.minExp - f.man)
    (hbeyond : (Num.fin false f.maxFinite.1 f.maxFinite.2).less (.fin false k q) = false)
    (hflush : f.flush = true → k = 0 ∨ (2 : ℚ) ^ f.minExp ≤ valueOf false k q) (neg : Bool) :
    ∃ k' q', (f.decode (f.encodeMag neg k q)).1 = .fin neg k' q' ∧ valueOf false k' q' = valueOf false k q := by
  obtain ⟨b, henc, hvalue⟩ := Fp.encodeMag_magnitude hk hsub neg
  have hb : b ≤ f.maxBits := by
    rw [← f.magnitude_strictMono.le_iff_le, hvalue, ← Fp.maxFinite_value hmax]
    exact not_lt.1 (mt Num.less_fin_iff.2 (Bool.eq_false_iff.1 hbeyond))
  have hkept (hfl : f.flush = true) : b = 0 ∨ 2 ^ f.man ≤ b := by
    rw [← f.magnitude_strictMono.le_iff_le, ← f.magnitude_strictMono.injective.eq_iff, hvalue]
    refine (hflush hfl).imp (fun h0 => ?_) fun hge => ?_
    · rw [h0, valueOf_zero, Fp.magnitude_subnormal (by positivity), Nat.cast_zero, zero_mul]
    · exact f.magnitude_minNormal.trans_le hge
  exact ⟨_, _, henc ▸ Fp.decode_finite hmax neg hb hkept, hvalue⟩

end

/-! ### The neighbours of an exact value (05 R191, R192, Table 5.3) -/

theorem two_zpow_of_le {p q : Int} (h : q ≤ p) : (2 : ℚ) ^ p = ((2 ^ (p - q).toNat : Nat) : ℚ) * (2 : ℚ) ^ q := by
  rw [Nat.cast_pow, Nat.cast_two, ← zpow_natCast, ← zpow_add₀ two_ne_zero, Int.toNat_of_nonneg (by omega), sub_add_cancel]

/-- A magnitude split at a spacing: a multiple of it, and a fraction of it. -/
theorem splitAt_value (m : Nat) (e q : Int) : (splitAt m e q).2.1 < 2 ^ (splitAt m e q).2.2 ∧
    valueOf false m e = ((splitAt m e q).1 + ((splitAt m e q).2.1 : ℚ) / 2 ^ (splitAt m e q).2.2) * (2 : ℚ) ^ q := by
  rw [valueOf_false]
  unfold splitAt
  split_ifs with h
  · refine ⟨Nat.one_pos, ?_⟩
    rw [two_zpow_of_le h]
    push_cast
    ring
  · have hdiv : ((2 ^ (q - e).toNat * (m / 2 ^ (q - e).toNat) + m % 2 ^ (q - e).toNat : Nat) : ℚ) = m := by
      rw [Nat.div_add_mod]
    refine ⟨Nat.mod_lt _ (by positivity), ?_⟩
    rw [two_zpow_of_le (not_le.1 h).le, ← hdiv]
    push_cast
    field_simp

/-- RNE takes the upper neighbour only from the middle upward, and the lower one only up to the middle. -/
theorem roundsToUpper_nearest (draw lo rem sh : Nat) :
    if roundsToUpper 0 draw lo rem sh then 2 ^ sh ≤ 2 * rem else 2 * rem ≤ 2 ^ sh := by
  split_ifs with h <;> simp only [roundsToUpper, Bool.or_eq_true, Bool.and_eq_true, decide_eq_true_eq] at h
  · omega
  · omega

/-- The spacing of the neighbours of m × 2^e: that of its own binade, and no finer than that of the subnormals where they
are kept. -/
def Fp.spacing (f : Fp) (m : Nat) (e : Int) : Int :=
  if f.flush then (Nat.log2 m : Int) + e - f.man else max ((Nat.log2 m : Int) + e - f.man) (f.minExp - f.man)

/-- The lower neighbour of m × 2^e, as a multiple of the spacing. -/
def Fp.lower (f : Fp) (m : Nat) (e : Int) : Nat := (splitAt m e (f.spacing m e)).1

/-- The neighbour of m × 2^e that a rounding takes, as a multiple of the spacing. -/
def Fp.rounded (f : Fp) (rm draw m : Nat) (e : Int) : Nat :=
  if roundsToUpper rm draw (f.lower m e) (splitAt m e (f.spacing m e)).2.1 (splitAt m e (f.spacing m e)).2.2
  then f.lower m e + 1 else f.lower m e

section
variable {f : Fp} {m : Nat} {e : Int}

theorem Fp.spacing_cases (f : Fp) (m : Nat) (e : Int) : f.spacing m e = (Nat.log2 m : Int) + e - f.man ∨
    f.flush = false ∧ f.spacing m e = f.minExp - f.man ∧ (Nat.log2 m : Int) + e - f.man ≤ f.spacing m e := by
  unfold Fp.spacing
  cases f.flush
  · obtain h | h := le_total ((Nat.log2 m : Int) + e - f.man) (f.minExp - f.man)
    · exact .inr ⟨rfl, max_eq_right h, h.trans (le_max_right _ _)⟩
    · exact .inl (max_eq_left h)
  · exact .inl rfl

theorem Fp.minExp_le_spacing (f : Fp) (m : Nat) (e : Int) (hfl : f.flush = false) :
    f.minExp - f.man ≤ f.spacing m e := by
  rw [Fp.spacing, hfl]
  exact le_max_right _ _

/-- The exact value lies from the lower neighbour upward and below the upper one. -/
theorem Fp.lower_le_lt (f : Fp) (m : Nat) (e : Int) :
    valueOf false (f.lower m e) (f.spacing m e) ≤ valueOf false m e ∧
      valueOf false m e < valueOf false (f.lower m e + 1) (f.spacing m e) := by
  obtain ⟨hrem, hvalue⟩ := splitAt_value m e (f.spacing m e)
  rw [hvalue, valueOf_false, valueOf_false, mul_le_mul_iff_left₀ (by positivity), mul_lt_mul_iff_left₀ (by positivity),
    Fp.lower, Nat.cast_add, Nat.cast_one, add_lt_add_iff_left, div_lt_one (by positivity)]
  exact ⟨le_add_of_nonneg_right (by positivity), by exact_mod_cast hrem⟩

/-- The lower neighbour has no more bits than the format's significand. -/
theorem Fp.lower_lt (hm : m ≠ 0) : f.lower m e < 2 ^ (f.man + 1) := by
  have hq : (Nat.log2 m : Int) + e + 1 ≤ ((f.man + 1 : Nat) : Int) + f.spacing m e := by
    have := f.spacing_cases m e
    omega
  have hlt : valueOf false (f.lower m e) (f.spacing m e) < ((2 ^ (f.man + 1) : Nat) : ℚ) * 2 ^ f.spacing m e := by
    calc _ ≤ valueOf false m e := (f.lower_le_lt m e).1
      _ < (2 : ℚ) ^ ((Nat.log2 m : Int) + e + 1) := (valueOf_bounds hm e).2
      _ ≤ 2 ^ (((f.man + 1 : Nat) : Int) + f.spacing m e) := zpow_le_zpow_right₀ one_le_two hq
      _ = ((2 ^ (f.man + 1) : Nat) : ℚ) * 2 ^ f.spacing m e := by
        rw [zpow_add₀ two_ne_zero, zpow_natCast, Nat.cast_pow, Nat.cast_two]
  rw [valueOf_false] at hlt
  exact_mod_cast lt_of_mul_lt_mul_right hlt (by positivity)

/-- At the spacing of the value's own binade, the lower neighbour has the hidden bit. -/
theorem Fp.le_lower (hm : m ≠ 0) (hq : f.spacing m e = (Nat.log2 m : Int) + e - f.man) : 2 ^ f.man ≤ f.lower m e := by
  have hlt : ((2 ^ f.man : Nat) : ℚ) * 2 ^ f.spacing m e < valueOf false (f.lower m e + 1) (f.spacing m e) := by
    calc ((2 ^ f.man : Nat) : ℚ) * 2 ^ f.spacing m e = 2 ^ ((Nat.log2 m : Int) + e) := by
          rw [Nat.cast_pow, Nat.cast_two, ← zpow_natCast, ← zpow_add₀ two_ne_zero, hq, add_sub_cancel]
      _ ≤ valueOf false m e := (valueOf_bounds hm e).1
      _ < _ := (f.lower_le_lt m e).2
  rw [valueOf_false] at hlt
  exact Nat.lt_succ_iff.1 (by exact_mod_cast lt_of_mul_lt_mul_right hlt (by positivity))

/-- No encoding of the format stands for a magnitude between the two neighbours. -/
theorem Fp.not_between_neighbours (hm : m ≠ 0) {y : Nat} {n : Bool} {k : Nat} {p : Int} (hy : (f.decode y).1 = .fin n k p) :
    valueOf false k p ≤ valueOf false (f.lower m e) (f.spacing m e) ∨
      valueOf false (f.lower m e + 1) (f.spacing m e) ≤ valueOf false k p := by
  obtain ⟨hk, hp⟩ := Fp.decode_multiple hy
  simp only [valueOf_false]
  by_cases hqp : f.spacing m e ≤ p
  · rw [two_zpow_of_le hqp, ← mul_assoc, ← Nat.cast_mul, mul_le_mul_iff_left₀ (by positivity),
      mul_le_mul_iff_left₀ (by positivity), Nat.cast_le, Nat.cast_le]
    exact (Nat.lt_or_ge _ _).imp_left Nat.lt_succ_iff.1
  · left
    obtain rfl | hp := hp
    · rw [Nat.cast_zero, zero_mul]
      positivity
    have hq : f.spacing m e = (Nat.log2 m : Int) + e - f.man := by
      have := f.spacing_cases m e
      omega
    calc (k : ℚ) * 2 ^ p ≤ ((2 ^ f.man : Nat) : ℚ) * 2 * 2 ^ p :=
          mul_le_mul_of_nonneg_right (by exact_mod_cast hk.le) (by positivity)
      _ = ((2 ^ f.man : Nat) : ℚ) * 2 ^ (1 + p) := by rw [mul_assoc, ← zpow_one_add₀ two_ne_zero]
      _ ≤ (f.lower m e : ℚ) * 2 ^ f.spacing m e :=
          mul_le_mul (by exact_mod_cast Fp.le_lower hm hq) (zpow_le_zpow_right₀ one_le_two (by omega))
            (by positivity) (by positivity)

theorem Fp.rounded_towardZero (f : Fp) (draw m : Nat) (e : Int) : f.rounded 1 draw m e = f.lower m e := rfl

/-- RNE takes a neighbour that is at most half of the spacing away. -/
theorem Fp.rounded_nearest (f : Fp) (draw m : Nat) (e : Int) :
    f.rounded 0 draw m e = f.lower m e ∧
        2 * valueOf false m e ≤ valueOf false (f.lower m e) (f.spacing m e) + valueOf false (f.lower m e + 1) (f.spacing m e) ∨
      f.rounded 0 draw m e = f.lower m e + 1 ∧
        valueOf false (f.lower m e) (f.spacing m e) + valueOf false (f.lower m e + 1) (f.spacing m e) ≤ 2 * valueOf false m e := by
  obtain ⟨-, hvalue⟩ := splitAt_value m e (f.spacing m e)
  rw [Fp.rounded, Fp.lower, hvalue, valueOf_false, valueOf_false, ← add_mul, ← mul_assoc,
    mul_le_mul_iff_left₀ (by positivity), mul_le_mul_iff_left₀ (by positivity), Nat.cast_add, Nat.cast_one]
  generalize splitAt m e (f.spacing m e) = parts
  obtain ⟨lo, rem, sh⟩ := parts
  have hhalf := roundsToUpper_nearest draw lo rem sh
  dsimp only
  split_ifs at hhalf ⊢ with h
  · have hge : 1 ≤ 2 * ((rem : ℚ) / 2 ^ sh) := by
      rw [← mul_div_assoc, one_le_div (by positivity)]
      exact_mod_cast hhalf
    exact .inr ⟨rfl, by linarith⟩
  · have hle : 2 * ((rem : ℚ) / 2 ^ sh) ≤ 1 := by
      rw [← mul_div_assoc, div_le_one (by positivity)]
      exact_mod_cast hhalf
    exact .inl ⟨rfl, by linarith⟩

theorem Fp.rounded_cases (f : Fp) (rm draw m : Nat) (e : Int) :
    f.rounded rm draw m e = f.lower m e ∨ f.rounded rm draw m e = f.lower m e + 1 := by
  unfold Fp.rounded
  split_ifs
  · exact .inr rfl
  · exact .inl rfl

/-! ### The result (05 R191, Table 5.4) -/

theorem Fp.overflow_any (f : Fp) (sat neg : Bool) : (f.overflow sat neg).2.any = true := by
  unfold Fp.overflow
  dsimp only
  split <;> split_ifs <;> rfl

theorem Fp.round_eq (hm : m ≠ 0) (sat : Bool) (rm draw : Nat) (neg : Bool) : f.round sat rm draw neg m e =
    if (Num.fin false f.maxFinite.1 f.maxFinite.2).less (.fin false (f.rounded rm draw m e) (f.spacing m e)) then
      f.overflow sat neg
    else if f.flush && f.rounded rm draw m e != 0 &&
        (Num.fin false (f.rounded rm draw m e) (f.spacing m e)).less (.fin false 1 f.minExp) then
      (if neg then f.signBit else 0, { flush := true })
    else (f.encodeMag neg (f.rounded rm draw m e) (f.spacing m e), {}) :=
  if_neg hm

/-- A rounding that raises no flag gives a finite value of the exact value's sign, equal to the neighbour taken. -/
theorem Fp.decode_round (hmax : 2 ^ f.man ≤ f.maxBits) (hm : m ≠ 0) {sat : Bool} {rm draw : Nat} {neg : Bool}
    (h : (f.round sat rm draw neg m e).2.any = false) :
    ∃ k q, (f.decode (f.round sat rm draw neg m e).1).1 = .fin neg k q ∧
      valueOf false k q = valueOf false (f.rounded rm draw m e) (f.spacing m e) := by
  rw [Fp.round_eq hm] at h ⊢
  have hk := f.rounded_cases rm draw m e
  generalize f.rounded rm draw m e = k at h hk ⊢
  have hlt := Fp.lower_lt (f := f) (e := e) hm
  by_cases hbeyond : (Num.fin false f.maxFinite.1 f.maxFinite.2).less (.fin false k (f.spacing m e)) = true
  · rw [if_pos hbeyond, Fp.overflow_any] at h
    cases h
  by_cases hflush : (f.flush && k != 0 && (Num.fin false k (f.spacing m e)).less (.fin false 1 f.minExp)) = true
  · rw [if_neg hbeyond, if_pos hflush] at h
    cases h
  rw [if_neg hbeyond, if_neg hflush]
  have hkept (hfl : f.flush = true) : k = 0 ∨ (2 : ℚ) ^ f.minExp ≤ valueOf false k (f.spacing m e) := by
    simpa [hfl, Num.less_fin_iff, valueOf_false, or_iff_not_imp_left] using hflush
  refine Fp.decode_encodeMag hmax (by omega) (fun hk0 hlow => ?_) (Bool.eq_false_iff.2 hbeyond) hkept neg
  cases hfl : f.flush with
  | true =>
    have hmin := (hkept hfl).resolve_left hk0
    have hexp := (zpow_lt_zpow_iff_right₀ one_lt_two).1 (hmin.trans_lt (valueOf_bounds hk0 _).2)
    omega
  | false =>
    obtain hq | ⟨-, hq, -⟩ := f.spacing_cases m e
    · have hge := Fp.le_lower hm hq
      have hlog : f.man ≤ Nat.log2 k := (Nat.le_log2 hk0).2 (by omega)
      have hmin := f.minExp_le_spacing m e hfl
      omega
    · exact hq

end

/-- A neighbour of x at most half of the gap away is the nearest of all values outside the gap. -/
theorem abs_sub_le_of_nearer {x lo up r v : ℚ} (hx : lo ≤ x ∧ x < up) (hv : v ≤ lo ∨ up ≤ v)
    (hr : r = lo ∧ 2 * x ≤ lo + up ∨ r = up ∧ lo + up ≤ 2 * x) : |x - r| ≤ |x - v| := by
  obtain ⟨hlo, hup⟩ := hx
  have hnear : |x - r| ≤ x - lo ∧ |x - r| ≤ up - x := by
    obtain ⟨rfl, hhalf⟩ | ⟨rfl, hhalf⟩ := hr
    · rw [abs_of_nonneg (sub_nonneg.2 hlo)]
      exact ⟨le_rfl, by linarith⟩
    · rw [abs_of_neg (sub_neg.2 hup), neg_sub]
      exact ⟨by linarith, le_rfl⟩
  obtain hv | hv := hv
  · exact hnear.1.trans ((sub_le_sub_left hv x).trans (le_abs_self _))
  · exact hnear.2.trans ((sub_le_sub_right hv x).trans ((neg_sub x v).ge.trans (neg_le_abs _)))

/-- Settles O14. -/
theorem roundingIsNearest : Obligations.RoundingIsNearest := by
  unfold Obligations.RoundingIsNearest
  intro code f sat neg m e hf hm magnitude
  have hmax := fpOf_maxBits hf
  have hm0 : m ≠ 0 := hm.ne'
  have hx := f.lower_le_lt m e
  refine ⟨fun h => ?towardZero, fun h => ?nearest⟩
  case towardZero =>
    obtain ⟨k, q, hdecode, hvalue⟩ := Fp.decode_round hmax hm0 h
    rw [Fp.rounded_towardZero] at hvalue
    refine ⟨k, q, hdecode, hvalue.trans_le hx.1, ?_⟩
    rintro y _ ⟨n, k', q', hy, rfl⟩ hle
    rw [hvalue]
    exact (Fp.not_between_neighbours hm0 hy).resolve_right (hle.trans_lt hx.2).not_ge
  case nearest =>
    obtain ⟨k, q, hdecode, hvalue⟩ := Fp.decode_round hmax hm0 h
    refine ⟨k, q, hdecode, ?_⟩
    rintro y _ ⟨n, k', q', hy, rfl⟩
    refine abs_sub_le_of_nearer hx (Fp.not_between_neighbours hm0 hy) ?_
    rw [hvalue]
    exact (f.rounded_nearest 0 m e).imp (fun ⟨hr, hhalf⟩ => ⟨by rw [hr], hhalf⟩) fun ⟨hr, hhalf⟩ => ⟨by rw [hr], hhalf⟩

end Sys2Proof.Machine
end

section
/-!
PROOFS. A sparse product leaves what the dense products of its pairs leave, one after another (O25).
-/

namespace Sys2Proof.Machine

/-! ### The accumulators and the lanes of a core -/

/-- The accumulators of a core are as in another state. -/
def State.accsKept (s t : State) (c : Lcn) : Prop := ∀ k, t.acc c k = s.acc c k

/-- The lanes of a core are as in another state. -/
def State.lanesKept (s t : State) (c : Lcn) : Prop := ∀ l, t.lane c l = s.lane c l

section
variable {s t w : State} {c : Lcn}

theorem State.accsKept.trans (h : s.accsKept t c) (h' : t.accsKept w c) : s.accsKept w c :=
  fun k => (h' k).trans (h k)

theorem State.lanesKept.trans (h : s.lanesKept t c) (h' : t.lanesKept w c) : s.lanesKept w c :=
  fun l => (h' l).trans (h l)

theorem State.accsKept.symm (h : s.accsKept t c) : t.accsKept s c := fun k => (h k).symm

theorem State.accsKept_of_accs (h : (t.core c).accs = (s.core c).accs) : s.accsKept t c := fun k => by
  rw [State.acc, State.acc, h]

theorem State.lanesKept_of_lanes (h : t.lanes = s.lanes) : s.lanesKept t c := fun l => by
  rw [State.lane, State.lane, h]

theorem State.acc_setAcc (s : State) (c : Lcn) (k j : Nat) (v : Acc) :
    (s.setAcc c k v).acc c j = if j = k then v else s.acc c j := by
  rw [State.acc, State.setAcc, State.core_setCore_same]
  split
  · next h => rw [h, mget_mset_same]
  · next h => rw [mget_mset_other _ _ _ _ h, State.acc]

theorem State.lane_setLane (s : State) (c : Lcn) (l j : Nat) (v : Word) :
    (s.setLane c l v).lane c j = if j = l then v else s.lane c j := by
  rw [State.lane, State.setLane]
  split
  · next h => rw [h, mget_mset_same]
  · next h => rw [mget_mset_other _ _ _ _ (by omega), State.lane]

/-! ### The end of a product (02 R86) -/

theorem State.writeOwner_core (s : State) (c : Lcn) (i owner : Nat) :
    ∃ accNext, (s.writeOwner c i owner).core c = { s.core c with accNext } ∧
      (s.writeOwner c i owner).lanes = s.lanes := by
  unfold State.writeOwner
  dsimp only
  split <;> exact ⟨_, State.core_setCore_same .., rfl⟩

theorem State.settleOwners_core (s : State) (c : Lcn) :
    ∃ accNext, (s.settleOwners c).core c = { s.core c with accNext } ∧ (s.settleOwners c).lanes = s.lanes := by
  unfold State.settleOwners
  refine List.foldlRecOn (motive := fun t : State => ∃ accNext, t.core c = { s.core c with accNext } ∧
    t.lanes = s.lanes) _ _ ⟨_, rfl, rfl⟩ fun t ⟨a, ht, hl⟩ e _ => ?_
  split
  · exact ⟨a, ht, hl⟩
  · obtain ⟨b, hw, hwl⟩ := t.writeOwner_core c e.1 e.2
    exact ⟨b, by rw [hw, ht], hwl.trans hl⟩

/-- A product that ends frees the array, and leaves the rest of its core but for the owners, and every lane. -/
theorem State.endProduct_core (s : State) (c : Lcn) :
    ∃ accNext, (s.endProduct c).core c = { s.core c with array := none, accNext } ∧
      (s.endProduct c).lanes = s.lanes := by
  obtain ⟨accNext, hcore, hlanes⟩ := (s.setCore c { s.core c with array := none }).settleOwners_core c
  obtain ⟨threads, hsettle⟩ := ((s.setCore c { s.core c with array := none }).settleOwners c).settle_eq c
  rw [State.core_setCore_same] at hcore
  rw [State.endProduct, hsettle]
  exact ⟨accNext, hcore, hlanes⟩

theorem State.accsKept_endProduct (s : State) (c : Lcn) : s.accsKept (s.endProduct c) c := by
  obtain ⟨accNext, hcore, -⟩ := s.endProduct_core c
  exact State.accsKept_of_accs (by rw [hcore])

theorem State.lanesKept_endProduct (s : State) (c : Lcn) : s.lanesKept (s.endProduct c) c := by
  obtain ⟨accNext, -, hlanes⟩ := s.endProduct_core c
  exact State.lanesKept_of_lanes hlanes

theorem State.accsKept_of_regsOnly (h : s.regsOnly t) : s.accsKept t c := by
  have hcores : t.cores = s.cores := (congrArg State.cores h :)
  exact State.accsKept_of_accs (by rw [State.core_congr hcores])

theorem State.lanesKept_of_regsOnly (h : s.regsOnly t) : s.lanesKept t c :=
  State.lanesKept_of_lanes (congrArg State.lanes h :)

theorem State.regsOnly.ite {p : Prop} [Decidable p] (h : s.regsOnly t) (h' : s.regsOnly w) :
    s.regsOnly (if p then t else w) := by
  split
  · exact h
  · exact h'

theorem State.regsOnly_addSat (s : State) (f sat : Fld) (k u : Nat) : s.regsOnly (s.addSat f sat k u) := by
  obtain ⟨regs, h⟩ := s.addSat_eq f sat k u
  rw [h]
  rfl

theorem State.regsOnly_setFlags (s : State) (c : Lcn) (n : Fin 4) (g : TFlags) :
    s.regsOnly (s.setFlags c (some n) g) :=
  (congrArg s.setBack (s.setFlags_rest c n g) :)

/-! ### Accumulators read and written by a product (04 R146, R147) -/

theorem State.acc_writeAccs (s : State) (c : Lcn) (cd fmt v j : Nat) : (s.writeAccs c cd fmt v).acc c j =
    if fmt = 9 then
      if j = cd / 2 * 2 + 1 then BitVec.ofNat 8192 (v / 2 ^ 8192)
      else if j = cd / 2 * 2 then BitVec.ofNat 8192 v else s.acc c j
    else if j = cd then BitVec.ofNat 8192 v else s.acc c j := by
  simp only [State.writeAccs]
  split
  · simp only [State.acc_setAcc]
  · simp only [State.acc_setAcc]

theorem State.acc_writeAccs_zero (s : State) (c : Lcn) (cd fmt j : Nat) : (s.writeAccs c cd fmt 0).acc c j =
    if j = cd ∧ fmt ≠ 9 ∨ fmt = 9 ∧ j / 2 = cd / 2 then 0 else s.acc c j := by
  rw [State.acc_writeAccs]
  by_cases hfmt : fmt = 9
  · have hpair : (j = cd ∧ fmt ≠ 9 ∨ fmt = 9 ∧ j / 2 = cd / 2) ↔ j = cd / 2 * 2 + 1 ∨ j = cd / 2 * 2 := by omega
    rw [if_pos hfmt, Nat.zero_div, if_congr hpair rfl rfl, ite_or]
    rfl
  · have hone : (j = cd ∧ fmt ≠ 9 ∨ fmt = 9 ∧ j / 2 = cd / 2) ↔ j = cd := by omega
    rw [if_neg hfmt, if_congr hone rfl rfl]
    rfl

theorem State.lanesKept_writeAccs (s : State) (c : Lcn) (cd fmt v : Nat) : s.lanesKept (s.writeAccs c cd fmt v) c := by
  unfold State.writeAccs
  split <;> exact State.lanesKept_of_lanes rfl

theorem State.accsKept.writeAccs (h : s.accsKept t c) (cd fmt v : Nat) :
    (s.writeAccs c cd fmt v).accsKept (t.writeAccs c cd fmt v) c := fun k => by
  rw [State.acc_writeAccs, State.acc_writeAccs, h k]

theorem State.accsKept.readAccs (h : s.accsKept t c) (cd fmt : Nat) : t.readAccs c cd fmt = s.readAccs c cd fmt := by
  rw [State.readAccs, State.readAccs, h, h, h]

/-- The accumulators that a product names, written twice. -/
theorem State.accsKept_writeAccs_writeAccs (s : State) (c : Lcn) (cd fmt v w : Nat) :
    (s.writeAccs c cd fmt w).accsKept ((s.writeAccs c cd fmt v).writeAccs c cd fmt w) c := fun k => by
  simp only [State.acc_writeAccs]
  split
  · split
    · rfl
    · split <;> rfl
  · split <;> rfl

/-- A pair of words as one number, cut into its words. -/
theorem ofNat_pair {n : Nat} (a b : BitVec n) : BitVec.ofNat n (a.toNat + 2 ^ n * b.toNat) = a ∧
    BitVec.ofNat n ((a.toNat + 2 ^ n * b.toNat) / 2 ^ n) = b := by
  refine ⟨BitVec.eq_of_toNat_eq ?_, ?_⟩
  · rw [BitVec.toNat_ofNat, Nat.add_mul_mod_self_left, Nat.mod_eq_of_lt a.isLt]
  · rw [Nat.add_mul_div_left _ _ (Nat.two_pow_pos n), Nat.div_eq_of_lt a.isLt, Nat.zero_add, BitVec.ofNat_toNat,
      BitVec.setWidth_eq]

/-- A number of two words, put together again. -/
theorem pair_ofNat {n k v : Nat} (hv : v < 2 ^ k) (hk : k ≤ n + n) :
    (BitVec.ofNat n v).toNat + 2 ^ n * (BitVec.ofNat n (v / 2 ^ n)).toNat = v := by
  have hhigh : v / 2 ^ n < 2 ^ n := by
    rw [Nat.div_lt_iff_lt_mul (Nat.two_pow_pos n), ← Nat.pow_add]
    exact hv.trans_le (Nat.pow_le_pow_right two_pos hk)
  rw [BitVec.toNat_ofNat, BitVec.toNat_ofNat, Nat.mod_eq_of_lt hhigh, Nat.mod_add_div]

/-- Accumulators written with what they hold. -/
theorem State.accsKept_writeAccs_readAccs (s : State) (c : Lcn) (cd fmt : Nat) :
    s.accsKept (s.writeAccs c cd fmt (s.readAccs c cd fmt)) c := fun k => by
  obtain ⟨hlow, hhigh⟩ := ofNat_pair (s.acc c (cd / 2 * 2)) (s.acc c (cd / 2 * 2 + 1))
  rw [State.acc_writeAccs, State.readAccs]
  by_cases hfmt : fmt = 9
  · rw [if_pos hfmt, if_pos hfmt, hlow, hhigh]
    split
    · next hk => rw [hk]
    · split
      · next hk => rw [hk]
      · rfl
  · rw [if_neg hfmt, if_neg hfmt, BitVec.ofNat_toNat, BitVec.setWidth_eq]
    split
    · next hk => rw [hk]
    · rfl

/-- Accumulators read back, for a value of 256 elements. -/
theorem State.readAccs_writeAccs (s : State) (c : Lcn) (cd : Nat) {fmt v : Nat} (hv : v < 2 ^ (256 * accWidth fmt)) :
    (s.writeAccs c cd fmt v).readAccs c cd fmt = v := by
  simp only [State.readAccs, State.acc_writeAccs]
  by_cases hfmt : fmt = 9
  · have hne : cd / 2 * 2 ≠ cd / 2 * 2 + 1 := by omega
    simp only [if_pos hfmt, if_neg hne, if_true]
    exact pair_ofNat hv (by rw [accWidth, if_pos hfmt])
  · simp only [if_neg hfmt, if_true]
    exact toNat_ofNat_of_lt hv (by rw [accWidth, if_neg hfmt])

end

/-! ### Draws and passes (04 R150, R175; 05 R196) -/

section
variable {s t : State} {c : Lcn}

/-- A draw takes its value from its lane, moves the lane on, and counts. -/
theorem State.draw_eq (c : Lcn) (l : Nat) : ∃ (top : Word → Nat) (next : Word → Word), ∀ s : State,
    s.draw c l = (top (s.lane c l), (s.setLane c l (next (s.lane c l))).addWrap F.CORE_SRDRAWS_DRAWS 1 c.toNat) :=
  ⟨fun x => (x * 0x5851f42d4c957f2d + 0x14057b7ef767814f).toNat / 2 ^ 48,
    fun x => x * 0x5851f42d4c957f2d + 0x14057b7ef767814f, fun _ => rfl⟩

theorem State.draw_cores (s : State) (c : Lcn) (l : Nat) : (s.draw c l).2.cores = s.cores := by
  obtain ⟨top, next, hdraw⟩ := State.draw_eq c l
  rw [hdraw]
  rfl

theorem State.lanesKept.draw (h : s.lanesKept t c) (l : Nat) :
    (t.draw c l).1 = (s.draw c l).1 ∧ (s.draw c l).2.lanesKept (t.draw c l).2 c := by
  obtain ⟨top, next, hdraw⟩ := State.draw_eq c l
  have hlane (u : State) (j : Nat) :
      (u.draw c l).2.lane c j = if j = l then next (u.lane c l) else u.lane c j := by
    rw [hdraw, ← State.lane_setLane]
    rfl
  refine ⟨by rw [hdraw, hdraw, h], fun j => ?_⟩
  rw [hlane, hlane, h, h]

/-- A format that does not saturate. -/
theorem Fp.encode_sat {f : Fp} (hf : f.specials = .ieee) (hplain : (f.exp == 5 && f.man == 2) = false) (sat : Bool)
    (rm draw : Nat) (v : Num) : f.encode sat rm draw v = f.encode false rm draw v := by
  have hover (neg : Bool) : f.overflow sat neg = f.overflow false neg := by
    simp only [Fp.overflow, hf, hplain, Bool.and_false]
  match v with
  | .nan | .invalid => rfl
  | .inf neg => simp only [Fp.encode, hf, Bool.and_assoc, hplain, Bool.and_false]
  | .fin neg m e => simp only [Fp.encode, Fp.round, hover]

theorem State.lanesKept.roundOne (h : s.lanesKept t c) {f : Fp} (hf : f.specials = .ieee)
    (hplain : (f.exp == 5 && f.man == 2) = false) (rm : Nat) (x : Exact) :
    (t.roundOne c f rm x).1 = (s.roundOne c f rm x).1 ∧
      (s.roundOne c f rm x).2.2.lanesKept (t.roundOne c f rm x).2.2 c := by
  simp only [State.roundOne]
  rw [Fp.encode_sat hf hplain, Fp.encode_sat hf hplain (s.flag _ _)]
  split
  · obtain ⟨hvalue, hlanes⟩ := h.draw (x.lane % 256)
    exact ⟨by rw [hvalue], hlanes⟩
  · exact ⟨rfl, h⟩

theorem State.lanesKept.roundAll {f : Fp} (hf : f.specials = .ieee) (hplain : (f.exp == 5 && f.man == 2) = false)
    (rm : Nat) (l : List Exact) : ∀ {s t : State}, s.lanesKept t c →
    (t.roundAll c f rm l).1 = (s.roundAll c f rm l).1 ∧
      (s.roundAll c f rm l).2.2.lanesKept (t.roundAll c f rm l).2.2 c := by
  induction l with
  | nil => exact fun h => ⟨rfl, h⟩
  | cons x l ih =>
    intro s t h
    obtain ⟨hone, hlanes⟩ := h.roundOne hf hplain rm x
    obtain ⟨hrest, hlanes'⟩ := ih hlanes
    exact ⟨by rw [State.roundAll, State.roundAll, hone, hrest], hlanes'⟩

theorem State.roundAll_length (c : Lcn) (f : Fp) (rm : Nat) (l : List Exact) : ∀ s : State,
    (s.roundAll c f rm l).1.length = l.length := by
  induction l with
  | nil => exact fun _ => rfl
  | cons x l ih => exact fun s => congrArg (· + 1) (ih _)

theorem State.roundAll_cores (c : Lcn) (f : Fp) (rm : Nat) (l : List Exact) : ∀ s : State,
    (s.roundAll c f rm l).2.2.cores = s.cores := by
  induction l with
  | nil => exact fun _ => rfl
  | cons x l ih =>
    intro s
    refine (ih _).trans ?_
    simp only [State.roundOne]
    split
    · exact s.draw_cores c _
    · rfl

/-- What a pass does: an integer pass works on the old value alone, any other rounds 256 exact elements. -/
theorem State.pass_cases (c : Lcn) (p : Pass) (old : Nat) :
    (p.fmt = 2 ∧ ∀ s : State, s.pass c p old = ((integerPass p old).1, (integerPass p old).2, s)) ∨
      ∃ (f : Fp) (cells : List Exact), f.specials = .ieee ∧ (f.exp == 5 && f.man == 2) = false ∧ cells.length = 256 ∧
        ∀ s : State, s.pass c p old = (packBits (accWidth p.fmt) (s.roundAll c f p.rm cells).1,
          (s.roundAll c f p.rm cells).2.1, (s.roundAll c f p.rm cells).2.2) := by
  by_cases hint : p.fmt = 2 ∧ p.mx = false
  · exact .inl ⟨hint.1, fun s => if_pos hint⟩
  · refine .inr ⟨_, _, ?_, ?_, ?_, fun s => if_neg hint⟩
    · split <;> rfl
    · split <;> rfl
    · rw [List.length_map, List.length_range]

/-- A pass sees the lanes of its core alone. -/
theorem State.lanesKept.pass (h : s.lanesKept t c) (p : Pass) (old : Nat) :
    (t.pass c p old).1 = (s.pass c p old).1 ∧ (s.pass c p old).2.2.lanesKept (t.pass c p old).2.2 c := by
  obtain ⟨-, hpass⟩ | ⟨f, cells, hf, hplain, -, hpass⟩ := State.pass_cases c p old
  · rw [hpass, hpass]
    exact ⟨rfl, h⟩
  · obtain ⟨hvalue, hlanes⟩ := State.lanesKept.roundAll hf hplain p.rm cells h
    rw [hpass, hpass, hvalue]
    exact ⟨rfl, hlanes⟩

theorem State.pass_cores (s : State) (c : Lcn) (p : Pass) (old : Nat) : (s.pass c p old).2.2.cores = s.cores := by
  obtain ⟨-, hpass⟩ | ⟨f, cells, -, -, -, hpass⟩ := State.pass_cases c p old
  · rw [hpass]
  · rw [hpass]
    exact State.roundAll_cores ..

/-- A pass leaves a value of 256 elements. -/
theorem State.pass_lt (s : State) (c : Lcn) (p : Pass) (old : Nat) : (s.pass c p old).1 < 2 ^ (256 * accWidth p.fmt) := by
  obtain ⟨hfmt, hpass⟩ | ⟨f, cells, -, -, hlength, hpass⟩ := State.pass_cases c p old
  · rw [hpass, hfmt]
    refine (packBits_lt _ _).trans_eq ?_
    rw [List.length_map, List.length_map, List.length_range, accWidth, if_neg (by decide), Nat.mul_comm]
  · rw [hpass]
    refine (packBits_lt _ _).trans_eq ?_
    rw [State.roundAll_length, hlength, Nat.mul_comm]

/-! ### A product completes (04 R150; 06 R219 to R223) -/

/-- The pass of a dense product. -/
def Product.onePass (q : Product) : Pass :=
  { fmt := q.fmt, rm := q.rm, z := q.z, ng := q.ng, mx := q.mx, a := q.a, b := q.b, scales := q.scales, aS24 := false,
    bS24 := false }

/-- The dense product of a pair of a sparse product: the first of a run has the product's own Z. -/
def Product.ofPair (q : Product) (r : Tile × Tile × Tile) (first : Bool) : Product :=
  { q with a := r.1, b := r.2.1, scales := r.2.2, z := q.z && first, sparse := 0 }

theorem exec_tensorArrayComplete_dense {q : Product} (harray : (s.core c).array = some q) (hq : q.sparse = 0) :
    exec (.tensorArrayComplete c) s = .next (s.completeDense c q) := by
  change execTensorArrayComplete c s = _
  simp only [execTensorArrayComplete, harray, hq, if_true]

theorem exec_tensorArrayComplete_sparse {q : Product} {w : Walk} (harray : (s.core c).array = some q)
    (hq : q.sparse ≠ 0) (hwalk : q.walk = some w) (hread : w.reads.length = w.pairs.length) :
    exec (.tensorArrayComplete c) s = .next (s.completeSparse c q w) := by
  change execTensorArrayComplete c s = _
  simp only [execTensorArrayComplete, harray, hq, hwalk, hread, beq_self_eq_true, Bool.or_true, if_false, if_true]

/-- A dense product leaves the accumulators and lanes of its one pass. -/
theorem State.completeDense_leaves (s : State) (c : Lcn) (q : Product) {old : Nat}
    (hold : s.readAccs c q.cd.val q.fmt = old) :
    (s.writeAccs c q.cd.val q.fmt (s.pass c q.onePass old).1).accsKept (s.completeDense c q) c ∧
      (s.pass c q.onePass old).2.2.lanesKept (s.completeDense c q) c := by
  subst hold
  set r := s.pass c q.onePass (s.readAccs c q.cd.val q.fmt) with hr
  have hregs := (State.regsOnly_setFlags (r.2.2.writeAccs c q.cd.val q.fmt r.1) c q.thread r.2.1).trans
    (State.regsOnly_addSat _ F.CORE_TBUSY_BUSY F.CORE_TBUSY_SAT (fmtOccupancy q.fmt) c.toNat)
  have haccs : s.accsKept r.2.2 c := State.accsKept_of_accs (by rw [State.core_congr (s.pass_cores ..)])
  exact ⟨((haccs.writeAccs _ _ _).trans (State.accsKept_of_regsOnly hregs)).trans (State.accsKept_endProduct _ c),
    ((State.lanesKept_writeAccs _ _ _ _ _).trans (State.lanesKept_of_regsOnly hregs)).trans
      (State.lanesKept_endProduct _ c)⟩

end

/-- The dense product of a pair put into the array and completed. -/
def State.runPair (c : Lcn) (q : Product) (u : State) (e : (Tile × Tile × Tile) × Nat) : State :=
  match exec (.tensorArrayComplete c)
    (u.setCore c { u.core c with array := some (q.ofPair e.1 (decide (e.2 = 0))) }) with
  | .next v => v
  | _ => u

theorem State.runPair_eq (c : Lcn) (q : Product) (u : State) (r : Tile × Tile × Tile) (n : Nat) :
    State.runPair c q u (r, n) = (u.setCore c { u.core c with array := some (q.ofPair r (decide (n = 0))) }).completeDense c
      (q.ofPair r (decide (n = 0))) := by
  simp only [State.runPair]
  rw [exec_tensorArrayComplete_dense (by rw [State.core_setCore_same]) rfl]

/-- The passes of a sparse product over the value `old`, from the lanes of `w`, leave what the dense products of its pairs
leave in `u`, whose named accumulators hold that value and which has those lanes. -/
theorem State.runPairs_eq_runPasses (s : State) (c : Lcn) (q : Product) (l : List (Tile × Tile × Tile)) :
    ∀ (n old : Nat) (u w : State), (s.writeAccs c q.cd.val q.fmt old).accsKept u c →
      u.readAccs c q.cd.val q.fmt = old → w.lanesKept u c →
      let r := w.runPasses c q false false l (decide (n = 0)) old
      let run := (l.zipIdx n).foldl (State.runPair c q) u
      (s.writeAccs c q.cd.val q.fmt r.1).accsKept run c ∧ r.2.2.2.lanesKept run c := by
  induction l with
  | nil => exact fun n old u w haccs _ hlanes => ⟨haccs, hlanes⟩
  | cons p l ih =>
    intro n old u w haccs hold hlanes
    set first := decide (n = 0)
    set u' := u.setCore c { u.core c with array := some (q.ofPair p first) }
    have haccs' : u.accsKept u' c := State.accsKept_of_accs (by rw [State.core_setCore_same])
    have hlanes' : w.lanesKept u' c := hlanes.trans (State.lanesKept_of_lanes rfl)
    have hold' : u'.readAccs c q.cd.val q.fmt = old := (haccs'.readAccs _ _).trans hold
    obtain ⟨hvalue, hdraws⟩ := hlanes'.pass (q.ofPair p first).onePass old
    obtain ⟨hdense, hdense'⟩ := u'.completeDense_leaves c (q.ofPair p first) hold'
    rw [hvalue] at hdense
    have hpass : (s.writeAccs c q.cd.val q.fmt (w.pass c (q.ofPair p first).onePass old).1).accsKept
        (u'.completeDense c (q.ofPair p first)) c :=
      ((s.accsKept_writeAccs_writeAccs c q.cd.val q.fmt old _).trans ((haccs.trans haccs').writeAccs _ _ _)).trans hdense
    have hread := (hpass.readAccs q.cd.val q.fmt).trans (s.readAccs_writeAccs c _ (w.pass_lt c _ old))
    have hrest := ih (n + 1) _ _ _ hpass hread (hdraws.trans hdense')
    rw [List.zipIdx_cons, List.foldl_cons, State.runPair_eq]
    exact hrest

theorem State.runPasses_cores (c : Lcn) (q : Product) (sa sb : Bool) (l : List (Tile × Tile × Tile)) :
    ∀ (s : State) (first : Bool) (old : Nat), (s.runPasses c q sa sb l first old).2.2.2.cores = s.cores := by
  induction l with
  | nil => exact fun _ _ _ => rfl
  | cons r l ih => exact fun s first old => (ih _ _ _).trans (s.pass_cores ..)

/-- A sparse product none of whose tiles is bad or was written writes what its passes leave, or zero where it has no pair
and Z is 1; beside its registers it then only ends. -/
theorem State.completeSparse_eq (s : State) (c : Lcn) {q : Product} {w : Walk} (hbad : w.bad = none)
    (htouched : q.touched = []) (hsa : (stripeOf q.a (bits q.sparse 4 1)).s24 = false)
    (hsb : (stripeOf q.b (bits q.sparse 8 5)).s24 = false) :
    let r := s.runPasses c q false false w.reads true (s.readAccs c q.cd.val q.fmt)
    ∃ u, (r.2.2.2.writeAccs c q.cd.val q.fmt (if w.pairs.isEmpty && q.z then 0 else r.1)).regsOnly u ∧
      s.completeSparse c q w = u.endProduct c := by
  have hfree (v : Nat) (u : State) : u.sparseResult q v = (v, u) := by
    rw [State.sparseResult, if_neg (by simp [htouched])]
  simp only [State.completeSparse, hbad, hfree, hsa, hsb, Option.isNone_none, Bool.true_and]
  refine ⟨_, ?_, rfl⟩
  have hflags := fun u g => State.regsOnly_setFlags u c q.thread g
  have hcounts := fun u f sat k => State.regsOnly_addSat u f sat k c.toNat
  exact (((State.regsOnly.ite (hflags _ _) ((hflags _ _).trans ((hcounts _ F.SPX_DROP_CODE F.SPX_DROP_SAT _).trans
    (State.regsOnly_put _ _ _ _ _)))).trans (hcounts _ _ _ _)).trans (hcounts _ _ _ _)).trans (hcounts _ _ _ _)

theorem State.completeSparse_leaves (s : State) (c : Lcn) {q : Product} {w : Walk} (hbad : w.bad = none)
    (htouched : q.touched = []) (hsa : (stripeOf q.a (bits q.sparse 4 1)).s24 = false)
    (hsb : (stripeOf q.b (bits q.sparse 8 5)).s24 = false) :
    let r := s.runPasses c q false false w.reads true (s.readAccs c q.cd.val q.fmt)
    (s.writeAccs c q.cd.val q.fmt (if w.pairs.isEmpty && q.z then 0 else r.1)).accsKept (s.completeSparse c q w) c ∧
      r.2.2.2.lanesKept (s.completeSparse c q w) c ∧ ((s.completeSparse c q w).core c).array = none := by
  intro r
  obtain ⟨u, hregs, hend⟩ := s.completeSparse_eq c hbad htouched hsa hsb
  have haccs : s.accsKept r.2.2.2 c := State.accsKept_of_accs (by rw [State.core_congr (State.runPasses_cores ..)])
  obtain ⟨accNext, hcore, -⟩ := u.endProduct_core c
  rw [hend]
  exact ⟨((haccs.writeAccs _ _ _).trans (State.accsKept_of_regsOnly hregs)).trans (u.accsKept_endProduct c),
    ((State.lanesKept_writeAccs _ _ _ _ _).trans (State.lanesKept_of_regsOnly hregs)).trans (u.lanesKept_endProduct c),
    by rw [hcore]⟩

/-- Settles O25, by induction on the pairs: `State.runPairs_eq_runPasses`. -/
theorem sparseEqualsDense : Obligations.SparseEqualsDense := by
  unfold Obligations.SparseEqualsDense
  intro c s q w harray hsparse hwalk hbad hread htouched hsa hsb dense run
  have hexec := exec_tensorArrayComplete_sparse harray hsparse hwalk hread
  obtain ⟨haccs, hlanes, hnone⟩ := s.completeSparse_leaves c (w := w) hbad htouched hsa hsb
  refine ⟨_, hexec, hnone, fun hpairs => ?pairs, fun hpairs => ?noPair⟩
  case pairs =>
    obtain ⟨hruns, hruns'⟩ := s.runPairs_eq_runPasses c q w.reads 0 _ s s
      (s.accsKept_writeAccs_readAccs c q.cd.val q.fmt).symm rfl (State.lanesKept_of_lanes rfl)
    have hempty : (w.pairs.isEmpty && q.z) = false := by simp [hpairs]
    rw [hempty] at haccs
    exact ⟨fun k _ => (haccs k).trans (hruns k).symm, fun l _ => (hlanes l).trans (hruns' l).symm⟩
  case noPair =>
    have hreads : w.reads = [] := List.length_eq_zero_iff.1 (by rw [hread, hpairs]; rfl)
    rw [hreads, hpairs] at haccs
    rw [hreads] at hlanes
    refine ⟨fun k _ => (haccs k).trans ?_, fun l _ => hlanes l⟩
    cases hz : q.z with
    | false =>
      rw [if_neg (by simp)]
      exact s.accsKept_writeAccs_readAccs c q.cd.val q.fmt k
    | true =>
      simp only [List.isEmpty_nil, Bool.and_self, if_true, true_and]
      exact s.acc_writeAccs_zero c q.cd.val q.fmt k

end Sys2Proof.Machine
end

section
/-!
PROOFS. The walker's lead-in and its pass reads (O24), and what a failed check of a tile leaves.
-/

namespace Sys2Proof.Machine

/-! ### Failed checks of a tile (15 R531, R538 to R546) -/

/-- The register fields that a failed check of a tile may change. -/
def failureFields : List Fld :=
  [F.INT_CSUMSTAT_DETECT, F.INT_CSUMSTAT_SAT, F.INT_CSUMLAST_TILE, F.INT_CSUMLAST_CAUSE, F.INT_CSUMLAST_TR,
   F.INT_CSUMSTAT_COUNTED, F.INT_CAUSEc_COUNT, F.INT_CAUSEc_SAT, F.INT_STAT_DISPLACED, F.INT_STAT_SAT,
   F.INT_STAT_CONDEMNED, F.INT_STAT_WOULD_FENCE, F.CXL_LDk_EVQPTR_OVF, F.CXL_LDk_EVQPTR_LOST]

/-- What a failed check may change: its registers, the watch list, the queue of darning, the events, and BAD bits. -/
structure State.notesFailure (s t : State) : Prop where
  rest : ∃ regs watch darnQueue events badTiles, t = { s with regs, watch, darnQueue, events, badTiles }
  kept : s.fieldsKept t failureFields

section
variable {s t w : State} {u n : Nat}

theorem State.notesFailure.refl (s : State) : s.notesFailure s := ⟨⟨_, _, _, _, _, rfl⟩, .refl s _⟩

theorem State.notesFailure.trans (h : s.notesFailure t) (h' : t.notesFailure w) : s.notesFailure w := by
  obtain ⟨_, _, _, _, _, hw⟩ := h'.rest
  obtain ⟨_, _, _, _, _, ht⟩ := h.rest
  exact ⟨⟨_, _, _, _, _, by rw [hw, ht]⟩, h.kept.trans_same h'.kept⟩

theorem State.notesFailure_of_regs (hrest : ∃ watch darnQueue events badTiles,
    t = { s with watch, darnQueue, events, badTiles }) : s.notesFailure t := by
  obtain ⟨_, _, _, _, rfl⟩ := hrest
  exact ⟨⟨_, _, _, _, _, rfl⟩, State.fieldsKept_of_regs rfl _⟩

theorem State.notesFailure_put (s : State) {f : Fld} (v : Nat) (hu : u < 2 ^ 20) (hn : n < 2 ^ 12)
    (hf : f ∈ failureFields := by simp [failureFields]) : s.notesFailure (s.put f v u n) :=
  ⟨⟨_, _, _, _, _, rfl⟩, (s.fieldsKept_put f v hu hn).mono (by simpa using hf)⟩

theorem State.notesFailure_addSat (s : State) {f sat : Fld} (k : Nat) {satn : Nat} (hu : u < 2 ^ 20) (hn : n < 2 ^ 12)
    (hsatn : satn < 2 ^ 12) (hf : f ∈ failureFields := by simp [failureFields])
    (hsat : sat ∈ failureFields := by simp [failureFields]) :
    s.notesFailure (s.addSat f sat k u n satn) := by
  unfold State.addSat
  split
  · exact s.notesFailure_put _ hu hn hf
  · exact (s.notesFailure_put _ hu hn hf).trans (State.notesFailure_put _ _ hu hsatn hsat)

theorem State.notesFailure_raise (s : State) {kind ld id detail0 detail1 : Nat} (hld : ld < 2 ^ 20) :
    s.notesFailure (s.raise kind ld id detail0 detail1) := by
  unfold State.raise State.raiseEvent
  split
  · exact (s.notesFailure_put _ hld (by decide)).trans
      (State.notesFailure_put _ _ hld (by decide))
  · exact State.notesFailure_of_regs ⟨_, _, _, _, rfl⟩

theorem State.notesFailure_raiseField (s : State) (kind f detail0 detail1 : Nat) :
    s.notesFailure (s.raiseField kind f detail0 detail1) := by
  have hzero : s.notesFailure (s.raise kind 0 0 detail0 detail1) := s.notesFailure_raise (by decide)
  unfold State.raiseField
  dsimp only
  split
  case h_1 k hk =>
    split
    · exact hzero
    · exact hzero.trans (State.notesFailure_raise _ (by have := State.ownerOf_lt hk; omega))
  case h_2 => exact hzero

theorem State.notesFailure_enterFailure (s : State) (at_ : Position) (lcn cause : Nat) :
    s.notesFailure (s.enterFailure at_ lcn cause) := by
  have hsat : s.notesFailure (s.addSat F.INT_STAT_DISPLACED F.INT_STAT_SAT 1) :=
    s.notesFailure_addSat 1 (by decide) (by decide) (by decide)
  unfold State.enterFailure
  dsimp only
  split
  · exact State.notesFailure_of_regs ⟨_, _, _, _, rfl⟩
  · split
    · exact State.notesFailure_of_regs ⟨_, _, _, _, rfl⟩
    · split
      · exact hsat.trans (State.notesFailure_of_regs ⟨_, _, _, _, rfl⟩)
      · exact hsat

theorem State.notesFailure_condemn (s : State) (at_ : Position) : s.notesFailure (s.condemn at_).1 := by
  have hsat : s.notesFailure (s.addSat F.INT_STAT_CONDEMNED F.INT_STAT_SAT 1) :=
    s.notesFailure_addSat 1 (by decide) (by decide) (by decide)
  unfold State.condemn
  dsimp only
  split
  · split
    · split
      · exact hsat.trans (State.notesFailure_of_regs ⟨_, _, _, _, rfl⟩)
      · exact s.notesFailure_put _ (by decide) (by decide)
    · exact .refl _
  · exact .refl _

theorem State.notesFailure_countFailure (s : State) (c : Lcn) {cause : Nat} (tile : Nat) (hcause : cause < 2 ^ 12) :
    s.notesFailure (s.countFailure c cause tile) :=
  ((((s.notesFailure_addSat 1 c.isLt (by decide) (by decide)).trans
    (State.notesFailure_addSat _ 1 (by decide) hcause hcause)).trans
    (State.notesFailure_enterFailure _ _ _ _)).trans (State.notesFailure_condemn _ _)).trans
    (State.notesFailure_raiseField _ _ _ _ _)

theorem State.notesFailure_tileFailed (s : State) (c : Lcn) (tile : Nat) {cause : Nat} (hcause : cause < 2 ^ 12) :
    s.notesFailure (s.tileFailed c tile cause) := by
  have hput {t : State} (f : Fld) (v : Nat) (hf : f ∈ failureFields := by simp [failureFields]) : t.notesFailure (t.put f v c.toNat) :=
    t.notesFailure_put v c.isLt (by decide) hf
  have hdetected : s.notesFailure (s.detected c tile cause) :=
    (((s.notesFailure_addSat 1 c.isLt (by decide) (by decide)).trans
      (hput _ _)).trans (hput _ _)).trans
      (hput _ _)
  rw [State.tileFailed_detected]
  split
  · exact hdetected
  · exact (hdetected.trans (State.notesFailure_countFailure _ c tile hcause)).trans
      (State.notesFailure_of_regs ⟨_, _, _, _, rfl⟩)

end

/-! ### Counts at a core (02 R91) -/

section
variable {s t w : State} {c : Lcn}

/-- What a count with its sticky flag reads after it has counted. -/
theorem State.get_addSat (s : State) {f sat : Fld} (k : Nat) {u : Nat} (hid : f.id ≠ sat.id) (hwidth : sat.width = 1)
    (hu : u < 2 ^ 20) :
    (s.get f u + k < 2 ^ f.width → (s.addSat f sat k u).get f u = s.get f u + k ∧
      (s.addSat f sat k u).get sat u = s.get sat u) ∧
    (2 ^ f.width ≤ s.get f u + k → (s.addSat f sat k u).get f u = 2 ^ f.width - 1 ∧
      (s.addSat f sat k u).get sat u = 1) := by
  have hpos := Nat.two_pow_pos f.width
  have hother {t : State} {g h : Fld} (v : Nat) (hgh : g.id ≠ h.id) : (t.put h v u).get g u = t.get g u :=
    t.get_put_field v hgh hu hu (by decide) (by decide)
  rw [State.addSat]
  refine ⟨fun hlow => ?_, fun hhigh => ?_⟩
  · rw [if_pos (by omega)]
    exact ⟨(s.get_put_same ..).trans (Nat.mod_eq_of_lt hlow), hother _ hid.symm⟩
  · rw [if_neg (by omega), hother _ hid]
    refine ⟨(s.get_put_same ..).trans (Nat.mod_eq_of_lt (by omega)), (State.get_put_same ..).trans ?_⟩
    rw [hwidth]
    rfl

/-- The fields that a drop of list entries changes (06 R230). -/
def dropFields : List Fld := [F.SPX_DROP_IDX, F.SPX_DROP_SAT, F.SPX_DROP_SRC]

/-- Entries dropped by a product of a thread: counted up to the count's top, which sets SAT, with the thread's SRC bit. -/
structure State.dropped (s t : State) (c : Lcn) (m : Fin 4) (n : Nat) : Prop where
  below : n = 0 ∨ s.get F.SPX_DROP_IDX c.toNat + n < 2 ^ 32 →
    t.get F.SPX_DROP_IDX c.toNat = s.get F.SPX_DROP_IDX c.toNat + n ∧
      t.get F.SPX_DROP_SAT c.toNat = s.get F.SPX_DROP_SAT c.toNat
  top : 2 ^ 32 ≤ s.get F.SPX_DROP_IDX c.toNat + n → 0 < n →
    t.get F.SPX_DROP_IDX c.toNat = 2 ^ 32 - 1 ∧ t.get F.SPX_DROP_SAT c.toNat = 1
  src : ∀ k : Fin 4, (t.get F.SPX_DROP_SRC c.toNat).testBit k =
    ((s.get F.SPX_DROP_SRC c.toNat).testBit k || (decide (k = m) && decide (0 < n)))

theorem State.dropped_zero (h : ∀ f ∈ dropFields, t.get f c.toNat = s.get f c.toNat) (m : Fin 4) :
    s.dropped t c m 0 where
  below _ := ⟨h _ (by simp [dropFields]), h _ (by simp [dropFields])⟩
  top _ hpos := absurd hpos (Nat.lt_irrefl 0)
  src k := by rw [h _ (by simp [dropFields])]; simp

theorem State.dropped.trans {m : Fin 4} {a b : Nat} (h : s.dropped t c m a) (h' : t.dropped w c m b) :
    s.dropped w c m (a + b) where
  below hlow := by
    obtain ⟨hidx, hsat⟩ := h.below (by omega)
    obtain ⟨hidx', hsat'⟩ := h'.below (by omega)
    exact ⟨by omega, hsat'.trans hsat⟩
  top htop hpos := by
    by_cases hb : b = 0
    · obtain ⟨hidx, hsat⟩ := h.top (by omega) (by omega)
      obtain ⟨hidx', hsat'⟩ := h'.below (.inl hb)
      exact ⟨by omega, hsat'.trans hsat⟩
    · refine h'.top ?_ (by omega)
      by_cases hlow : a = 0 ∨ s.get F.SPX_DROP_IDX c.toNat + a < 2 ^ 32
      · obtain ⟨hidx, -⟩ := h.below hlow
        omega
      · obtain ⟨hidx, -⟩ := h.top (by omega) (by omega)
        omega
  src k := by
    rw [h'.src, h.src, Bool.or_assoc, ← Bool.and_or_distrib_left]
    congr 2
    rw [← Bool.decide_or]
    exact decide_eq_decide.2 Nat.add_pos_iff_pos_or_pos.symm

theorem State.countDrops_spec (s : State) (c : Lcn) (m : Fin 4) (n : Nat) : s.dropped (s.countDrops c m n) c m n ∧
    s.fieldsKept (s.countDrops c m n) dropFields ∧ ∃ regs, s.countDrops c m n = { s with regs } := by
  rw [State.countDrops]
  by_cases hn : n = 0
  · rw [if_pos hn, hn]
    exact ⟨State.dropped_zero (fun _ _ => rfl) m, .refl s _, s.regs, rfl⟩
  · rw [if_neg hn]
    set t := s.addSat F.SPX_DROP_IDX F.SPX_DROP_SAT n c.toNat with ht
    obtain ⟨hlow, htop⟩ := s.get_addSat (f := F.SPX_DROP_IDX) (sat := F.SPX_DROP_SAT) n (by decide) rfl c.isLt
    have hsrc := s.fieldsKept_addSat_at F.SPX_DROP_IDX F.SPX_DROP_SAT n c.isLt F.SPX_DROP_SRC c.toNat 0 (by decide)
      c.isLt (by decide)
    have hidx := t.get_stickBit_other c (f := F.SPX_DROP_SRC) (g := F.SPX_DROP_IDX) m true (by decide)
    have hsat := t.get_stickBit_other c (f := F.SPX_DROP_SRC) (g := F.SPX_DROP_SAT) m true (by decide)
    refine ⟨⟨fun h => ?_, fun h _ => ?_, fun k => ?_⟩, ?_, ?_⟩
    · exact ⟨hidx.trans (hlow (h.resolve_left hn)).1, hsat.trans (hlow (h.resolve_left hn)).2⟩
    · exact ⟨hidx.trans (htop h).1, hsat.trans (htop h).2⟩
    · refine (t.testBit_stickBit c F.SPX_DROP_SRC m true rfl k).trans ?_
      rw [hsrc, decide_eq_true (Nat.pos_of_ne_zero hn)]
    · exact (s.fieldsKept_addSat_at _ _ n c.isLt).trans (t.fieldsKept_stickBit c F.SPX_DROP_SRC m true)
    · obtain ⟨regs, hregs⟩ := s.addSat_eq F.SPX_DROP_IDX F.SPX_DROP_SAT n c.toNat
      rw [ht, hregs]
      exact ⟨_, rfl⟩

end

/-! ### The entries of a stripe (06 R230, Tables 6.2 and 6.5) -/

section
variable (h : Stripe) (t : Tile)

/-- The position that entry `n` of an index tile's list names. -/
def indexEntry (t : Tile) (n : Nat) : Nat := t.toNat / 2 ^ (8 * (16 + n)) % 256

/-- The lowest position that the walker accepts from entry `n` on: above every entry accepted before. -/
def Stripe.least (h : Stripe) (t : Tile) : Nat → Nat
  | 0 => 0
  | n + 1 => if h.span ≤ indexEntry t n ∨ indexEntry t n < h.least t n then h.least t n else indexEntry t n + 1

/-- The walker accepts an entry of an index tile's list. -/
def Stripe.accepts (h : Stripe) (t : Tile) (n : Nat) : Bool :=
  !decide (h.span ≤ indexEntry t n ∨ indexEntry t n < h.least t n)

/-- The state of the walker's pass over a list after its first `m` entries. -/
theorem Stripe.foldl_accepts (m : Nat) : (List.range m).foldl (fun (b : List (Nat × Nat) × Nat × Nat) n =>
      let p := indexEntry t n
      if h.span ≤ p ∨ p < b.2.2 then (b.1, b.2.1 + 1, b.2.2) else (b.1 ++ [(p, n)], b.2.1, p + 1)) ([], 0, 0) =
    (((List.range m).filter (h.accepts t)).map fun n => (indexEntry t n, n),
      ((List.range m).filter fun n => !h.accepts t n).length, h.least t m) := by
  induction m with
  | zero => rfl
  | succ m ih =>
    rw [List.range_succ, List.foldl_append, ih]
    by_cases hm : h.span ≤ indexEntry t m ∨ indexEntry t m < h.least t m
    · simp [hm, Stripe.accepts, Stripe.least]
    · simp [hm, Stripe.accepts, Stripe.least]

theorem Stripe.accepts_iff (n : Nat) :
    h.accepts t n = true ↔ indexEntry t n < h.span ∧ h.least t n ≤ indexEntry t n := by
  simp [Stripe.accepts]

theorem Stripe.least_le_iff (n p : Nat) : h.least t n ≤ p ↔ ∀ m, m < n → h.accepts t m = true → indexEntry t m < p := by
  induction n generalizing p with
  | zero => simp [Stripe.least]
  | succ n ih =>
    have hsplit (Q : Nat → Prop) : (∀ m, m < n + 1 → Q m) ↔ (∀ m, m < n → Q m) ∧ Q n := by
      simp only [Nat.lt_succ_iff_lt_or_eq, or_imp, forall_and, forall_eq]
    rw [hsplit, Stripe.least, ← ih]
    by_cases hn : h.accepts t n = true
    · have hbounds := (h.accepts_iff t n).1 hn
      rw [if_neg (by omega)]
      exact ⟨fun hp => ⟨by omega, fun _ => hp⟩, fun hp => hp.2 hn⟩
    · have hbounds := mt (h.accepts_iff t n).2 hn
      rw [if_pos (by omega)]
      simp [hn]

/-- The walker takes entry `n` of a stripe: any data tile of a dense one, an accepted entry of a sparse one's list. -/
def Stripe.takes (n : Nat) : Bool :=
  if h.form = 0 then decide (n < h.span) else decide (n < h.count) && h.accepts t n

/-- The position of entry `n`. -/
def Stripe.position (n : Nat) : Nat := if h.form = 0 then n else indexEntry t n

theorem Stripe.takes_iff (n : Nat) : h.takes t n = true ↔ if h.form = 0 then n < h.span
    else n < h.count ∧ indexEntry t n < h.span ∧ ∀ m, m < n → h.takes t m = true → indexEntry t m < indexEntry t n := by
  unfold Stripe.takes
  split
  · exact decide_eq_true_iff
  · rw [Bool.and_eq_true, decide_eq_true_iff, h.accepts_iff, h.least_le_iff]
    refine and_congr_right fun hn => and_congr_right fun _ => forall₂_congr fun m hm => ?_
    rw [Bool.and_eq_true, decide_eq_true_iff, and_iff_right (hm.trans hn)]

theorem Stripe.position_lt {m n : Nat} (hm : h.takes t m = true) (hn : h.takes t n = true) (hmn : m < n) :
    h.position t m < h.position t n := by
  rw [Stripe.takes_iff] at hn
  unfold Stripe.position
  split
  · exact hmn
  · next hform =>
    rw [if_neg hform] at hn
    exact hn.2.2 m hmn hm

theorem Stripe.position_inj {m n : Nat} (hm : h.takes t m = true) (hn : h.takes t n = true)
    (heq : h.position t m = h.position t n) : m = n := by
  obtain hlt | heq' | hlt := Nat.lt_trichotomy m n
  · have := h.position_lt t hm hn hlt
    omega
  · exact heq'
  · have := h.position_lt t hn hm hlt
    omega

/-- The entries of a stripe that the walker drops. -/
def Stripe.drops : Nat := if h.form = 0 then 0 else ((List.range h.count).filter fun n => !h.takes t n).length

theorem Stripe.entries_eq : h.entries t =
    (((List.range h.tiles).filter (h.takes t)).map fun n => (h.position t n, n), h.drops t) := by
  unfold Stripe.entries Stripe.drops Stripe.tiles Stripe.position Stripe.takes
  split
  · rw [List.filter_eq_self.2 (by simp)]
  · have haccepts : ∀ n ∈ List.range h.count, (decide (n < h.count) && h.accepts t n) = h.accepts t n := fun n hn => by
      rw [decide_eq_true (List.mem_range.1 hn), Bool.true_and]
    rw [List.filter_congr haccepts, List.filter_congr fun n hn => congrArg Bool.not (haccepts n hn)]
    exact congrArg (fun r => (r.1, r.2.1)) (h.foldl_accepts t h.count)

theorem Stripe.mem_entries {e : Nat × Nat} :
    e ∈ (h.entries t).1 ↔ h.takes t e.2 = true ∧ e.1 = h.position t e.2 := by
  have htiles (n : Nat) (hn : h.takes t n = true) : n < h.tiles := by
    rw [Stripe.takes_iff] at hn
    unfold Stripe.tiles
    split
    · next hform => rwa [if_pos hform] at hn
    · next hform =>
      rw [if_neg hform] at hn
      exact hn.1
  simp only [Stripe.entries_eq, List.mem_map, List.mem_filter, List.mem_range]
  constructor
  · rintro ⟨n, ⟨-, hn⟩, rfl⟩
    exact ⟨hn, rfl⟩
  · rintro ⟨hn, hp⟩
    exact ⟨e.2, ⟨htiles _ hn, hn⟩, Prod.ext hp.symm rfl⟩

end

/-- The pairs of two stripes are those of taken entries at one position. -/
theorem mem_pairStripes (ha hb : Stripe) (ta tb : Tile) (p : Nat × Nat × Nat × Nat) :
    p ∈ pairStripes ha hb (ha.entries ta).1 (hb.entries tb).1 ↔
      ∃ m n, ha.takes ta m = true ∧ hb.takes tb n = true ∧ ha.position ta m = hb.position tb n ∧
        p = (ha.dataTile m, hb.dataTile n, m, n) := by
  simp only [pairStripes, List.mem_filterMap, Option.map_eq_some_iff]
  constructor
  · rintro ⟨e, he, g, hg, rfl⟩
    obtain ⟨hte, hpe⟩ := (ha.mem_entries ta).1 he
    obtain ⟨htg, hpg⟩ := (hb.mem_entries tb).1 (List.mem_of_find?_eq_some hg)
    have hposition : g.1 = e.1 := by simpa using List.find?_some hg
    exact ⟨e.2, g.2, hte, htg, by rw [← hpe, ← hpg, hposition], rfl⟩
  · rintro ⟨m, n, hm, hn, hpos, rfl⟩
    refine ⟨(ha.position ta m, m), (ha.mem_entries ta).2 ⟨hm, rfl⟩, (hb.position tb n, n), ?_, rfl⟩
    have hmem : (hb.position tb n, n) ∈ (hb.entries tb).1 := (hb.mem_entries tb).2 ⟨hn, rfl⟩
    obtain ⟨g, hg⟩ : ∃ g, (hb.entries tb).1.find? (fun g => g.1 == ha.position ta m) = some g :=
      Option.isSome_iff_exists.1 (List.find?_isSome.2 ⟨_, hmem, by simp [hpos]⟩)
    obtain ⟨htg, hpg⟩ := (hb.mem_entries tb).1 (List.mem_of_find?_eq_some hg)
    have hposition : g.1 = ha.position ta m := by simpa using List.find?_some hg
    have hentry : g.2 = n := hb.position_inj tb htg hn (by rw [← hpg, hposition, hpos])
    rw [hg, ← hentry, ← hpg]

/-- The pairs stand in the order of A's entries. -/
theorem pairStripes_pairwise (ha hb : Stripe) (ta : Tile) (l : List (Nat × Nat)) :
    (pairStripes ha hb (ha.entries ta).1 l).Pairwise fun p r => p.2.2.1 < r.2.2.1 := by
  have hsorted : (ha.entries ta).1.Pairwise fun e g => e.2 < g.2 := by
    rw [Stripe.entries_eq, List.pairwise_map]
    exact List.pairwise_lt_range.filter _
  refine List.pairwise_filterMap.2 (hsorted.imp fun {e g} heg p hp r hr => ?_)
  obtain ⟨x, -, rfl⟩ := Option.map_eq_some_iff.1 hp
  obtain ⟨y, -, rfl⟩ := Option.map_eq_some_iff.1 hr
  exact heg

/-! ### The lead-in (06 R218, R230) -/

section
variable {s t u : State} {c : Lcn} {q : Product} {rest : List Product} {w : Walk}

/-- The head of the queue has a walk, and no other core, no thread and no byte of SRAM has changed. -/
def State.walksHead (s t : State) (c : Lcn) (q : Product) (rest : List Product) (w : Walk) : Prop :=
  t.core c = { s.core c with queue := { q with walk := some w } :: rest } ∧ (∀ d, d ≠ c → t.core d = s.core d) ∧
    t.sram = s.sram ∧ t.threads = s.threads

theorem State.walksHead_setHead (hqueue : (s.core c).queue = q :: rest)
    (hu : ∃ regs ticked, u = { s with regs, ticked }) (w : Walk) :
    s.walksHead (u.setHead c { q with walk := some w }) c q rest w := by
  obtain ⟨regs, ticked, rfl⟩ := hu
  refine ⟨?_, fun d hd => State.core_setCore_other _ _ hd, rfl, rfl⟩
  have hdrop : (({ s with regs, ticked } : State).core c).queue.drop 1 = rest := by
    change (s.core c).queue.drop 1 = rest
    rw [hqueue, List.drop_one, List.tail_cons]
  rw [State.setHead, State.core_setCore_same, hdrop]
  rfl

theorem State.walksHead.notesFailure (h : s.walksHead t c q rest w) (h' : t.notesFailure u) :
    s.walksHead u c q rest w := by
  obtain ⟨_, _, _, _, _, rfl⟩ := h'.rest
  exact h

/-- An index tile that passes its check, or none to read. -/
theorem State.readIndex_good {h : Stripe} (hgood : h.form ≠ 0 → s.tileGood c h.base = true) :
    ∃ t, s.readIndex c h = some t ∧ h.entries t = h.entries (s.readTile c h.base) := by
  unfold State.readIndex Stripe.entries
  by_cases hform : h.form = 0
  · simp only [if_pos hform]
    exact ⟨0, rfl, trivial⟩
  · simp only [if_neg hform, hgood hform, if_true]
    exact ⟨_, rfl, rfl⟩

theorem State.readIndex_bad {h : Stripe} (hbad : ¬(h.form ≠ 0 → s.tileGood c h.base = true)) :
    s.readIndex c h = none := by
  obtain ⟨hform, htile⟩ := Classical.not_imp.1 hbad
  rw [State.readIndex, if_neg hform, if_neg htile]

theorem State.readIndex_countDrops (s : State) (c : Lcn) (m : Fin 4) (n : Nat) (h : Stripe) :
    (s.countDrops c m n).readIndex c h = s.readIndex c h := by
  obtain ⟨-, -, regs, heq⟩ := s.countDrops_spec c m n
  rw [heq]
  rfl

theorem State.leadIn_pairs {ha hb : Stripe} (hha : ha = stripeOf q.a (bits q.sparse 4 1))
    (hhb : hb = stripeOf q.b (bits q.sparse 8 5)) (hgooda : ha.form ≠ 0 → s.tileGood c ha.base = true)
    (hgoodb : hb.form ≠ 0 → s.tileGood c hb.base = true) :
    let ta := s.readTile c ha.base
    let tb := s.readTile c hb.base
    s.leadIn c q = (((s.noteBanks c).countDrops c q.thread (ha.drops ta)).countDrops c q.thread (hb.drops tb)).setHead c
      { q with walk := some { pairs := pairStripes ha hb (ha.entries ta).1 (hb.entries tb).1 } } := by
  intro ta tb
  obtain ⟨xa, hxa, hea⟩ := State.readIndex_good (s := s.noteBanks c) hgooda
  obtain ⟨xb, hxb, heb⟩ := State.readIndex_good (s := s.noteBanks c) hgoodb
  have hda : (ha.entries xa).2 = ha.drops ta := by rw [hea]; exact congrArg Prod.snd (ha.entries_eq ta)
  have hdb : (hb.entries xb).2 = hb.drops tb := by rw [heb]; exact congrArg Prod.snd (hb.entries_eq tb)
  simp only [State.leadIn, ← hha, ← hhb, hxa, State.readIndex_countDrops, hxb, hda, hdb]
  rw [hea, heb]
  rfl

theorem State.leadIn_badA (hbad : ¬((stripeOf q.a (bits q.sparse 4 1)).form ≠ 0 →
      s.tileGood c (stripeOf q.a (bits q.sparse 4 1)).base = true)) :
    s.leadIn c q = ((s.noteBanks c).setHead c
      { q with walk := some { pairs := [], bad := some (stripeOf q.a (bits q.sparse 4 1)).base } }).tileFailed c
        (stripeOf q.a (bits q.sparse 4 1)).base 3 := by
  simp only [State.leadIn, State.readIndex_bad (s := s.noteBanks c) hbad]

theorem State.leadIn_badB {ha hb : Stripe} (hha : ha = stripeOf q.a (bits q.sparse 4 1))
    (hhb : hb = stripeOf q.b (bits q.sparse 8 5)) (hgooda : ha.form ≠ 0 → s.tileGood c ha.base = true)
    (hbad : ¬(hb.form ≠ 0 → s.tileGood c hb.base = true)) :
    s.leadIn c q = (((s.noteBanks c).countDrops c q.thread (ha.drops (s.readTile c ha.base))).setHead c
      { q with walk := some { pairs := [], bad := some hb.base } }).tileFailed c hb.base 3 := by
  obtain ⟨xa, hxa, hea⟩ := State.readIndex_good (s := s.noteBanks c) hgooda
  have hda : (ha.entries xa).2 = ha.drops (s.readTile c ha.base) := by
    rw [hea]
    exact congrArg Prod.snd (ha.entries_eq _)
  simp only [State.leadIn, ← hha, ← hhb, hxa, State.readIndex_countDrops, hda,
    State.readIndex_bad (s := s.noteBanks c) hbad]

theorem exec_walkerLeadIn (hqueue : (s.core c).queue = q :: rest) (hsparse : q.sparse ≠ 0) (hwalk : q.walk = none) :
    exec (.walkerLeadIn c) s = .next (s.leadIn c q) := by
  change execWalkerLeadIn c s = _
  simp only [execWalkerLeadIn, hqueue, hwalk]
  rw [if_pos ⟨hsparse, rfl⟩]

end

/-! ### A pass read (06 R228, R229, R692) -/

section
variable {s u : State} {c : Lcn} {q : Product} {w : Walk} {head : Bool}

/-- The product that a pass read is for: the head of the queue, or the running one. -/
def State.walked (s : State) (c : Lcn) (head : Bool) : Option Product :=
  if head then (s.core c).queue.head? else (s.core c).array

/-- That product replaced. -/
def State.setWalked (s : State) (c : Lcn) (head : Bool) (q : Product) : State :=
  if head then s.setHead c q else s.setCore c { s.core c with array := some q }

/-- Passes that are counted when a walk's next pass is read. -/
def Walk.countedBy (w : Walk) (head : Bool) : Nat := if head then w.counted else max w.counted (w.reads.length - 1)

/-- The core when that product is replaced. -/
def Core.withWalked (k : Core) (head : Bool) (q : Product) : Core :=
  if head then { k with queue := q :: k.queue.drop 1 } else { k with array := some q }

theorem State.setWalked_eq (s : State) (c : Lcn) (head : Bool) (q : Product) :
    s.setWalked c head q = s.setCore c ((s.core c).withWalked head q) := by
  cases head <;> rfl

/-- The count of passes at a read of a walk's next pass. -/
def State.readCount (s : State) (c : Lcn) (w : Walk) (head : Bool) : State :=
  if head then s else (s.countPasses c w).2

theorem State.countPasses_eq (s : State) (c : Lcn) (w : Walk) (head : Bool) :
    (if head then (w, s) else s.countPasses c w) = ({ w with counted := w.countedBy head }, s.readCount c w head) := by
  cases head with
  | true => rfl
  | false =>
    simp only [Bool.false_eq_true, if_false, State.readCount, State.countPasses, Walk.countedBy]
    split
    · next h => rw [Nat.max_eq_left h]
    · next h => rw [Nat.max_eq_right (by omega)]

theorem State.readCount_spec (s : State) (c : Lcn) (w : Walk) (head : Bool) :
    (∃ regs, s.readCount c w head = { s with regs }) ∧
      s.fieldsKept (s.readCount c w head) [F.SPX_PASSES_PASSES, F.SPX_PASSES_SAT] ∧
      (s.get F.SPX_PASSES_PASSES c.toNat + (w.countedBy head - w.counted) < 2 ^ 48 →
        (s.readCount c w head).get F.SPX_PASSES_PASSES c.toNat =
          s.get F.SPX_PASSES_PASSES c.toNat + (w.countedBy head - w.counted)) := by
  by_cases hsame : w.countedBy head = w.counted
  · have hkeep : s.readCount c w head = s := by
      cases head with
      | true => rfl
      | false =>
        have hle : w.reads.length - 1 ≤ w.counted := by simpa [Walk.countedBy] using hsame
        simp [State.readCount, State.countPasses, hle]
    rw [hkeep, hsame, Nat.sub_self]
    exact ⟨⟨_, rfl⟩, .refl s _, fun _ => rfl⟩
  · cases head with
    | true => exact absurd rfl hsame
    | false =>
      have hlt : w.counted < w.reads.length - 1 := by
        simp only [Walk.countedBy, Bool.false_eq_true, if_false] at hsame
        omega
      have hcount : s.readCount c w false =
          s.addSat F.SPX_PASSES_PASSES F.SPX_PASSES_SAT (w.countedBy false - w.counted) c.toNat := by
        simp [State.readCount, State.countPasses, Walk.countedBy, Nat.not_le.2 hlt, Nat.max_eq_right hlt.le]
      rw [hcount]
      exact ⟨s.addSat_eq .., s.fieldsKept_addSat_at _ _ _ c.isLt, fun h =>
        ((s.get_addSat (f := F.SPX_PASSES_PASSES) (sat := F.SPX_PASSES_SAT) _ (by decide) rfl c.isLt).1 h).1⟩

theorem exec_walkerPassRead (hq : s.walked c head = some q) (hwalk : q.walk = some w) (hbad : w.bad = none)
    (hhead : head = true → w.reads = []) :
    let r := ((s.readCount c w head).noteBanks c).readPass c q { w with counted := w.countedBy head }
    exec (.walkerPassRead c head) s = .next (r.2.setWalked c head { q with walk := some r.1 }) := by
  have hgo : (w.bad.isSome || (head && !w.reads.isEmpty)) = false := by
    rw [hbad]
    cases head with
    | true => simp [hhead rfl]
    | false => rfl
  change execWalkerPassRead c head s = _
  unfold State.walked at hq
  simp only [execWalkerPassRead, hq, hwalk, hgo, Bool.false_eq_true, if_false, State.countPasses_eq]
  cases head <;> rfl

theorem State.readPass_good {p : Nat × Nat × Nat × Nat} (hp : w.pairs[w.reads.length]? = some p)
    (hgood : ∀ k ∈ q.passTiles w w.reads.length, s.tileGood c k = true) :
    s.readPass c q w =
      ({ w with reads := w.reads ++ [(s.readTile c p.1, s.readTile c p.2.1, s.passScales c q p)] }, s) := by
  have hnone : (q.passTiles w w.reads.length).find? (fun t => !s.tileGood c t) = none :=
    List.find?_eq_none.2 fun k hk => by simp [hgood k hk]
  simp only [State.readPass, hp, hnone]

theorem State.readPass_bad {p : Nat × Nat × Nat × Nat} (hp : w.pairs[w.reads.length]? = some p) {pre post : List Nat}
    {k : Nat} (hread : q.passTiles w w.reads.length = pre ++ k :: post) (hpre : ∀ m ∈ pre, s.tileGood c m = true)
    (hk : s.tileGood c k = false) : s.readPass c q w = ({ w with bad := some k }, s.tileFailed c k 3) := by
  have hfirst : (q.passTiles w w.reads.length).find? (fun t => !s.tileGood c t) = some k :=
    List.find?_eq_some_iff_append.2 ⟨by simp [hk], pre, post, hread, fun m hm => by simp [hpre m hm]⟩
  simp only [State.readPass, hp, hfirst]

/-- A pass of a walk is read: its product goes on with another walk, and the passes completed are counted. -/
def State.readsPass (s t : State) (c : Lcn) (head : Bool) (q : Product) (w v : Walk) : Prop :=
  exec (.walkerPassRead c head) s = .next t ∧ t.core c = (s.core c).withWalked head { q with walk := some v } ∧
    (∀ d, d ≠ c → t.core d = s.core d) ∧ t.sram = s.sram ∧ t.threads = s.threads ∧
    (s.get F.SPX_PASSES_PASSES c.toNat + (w.countedBy head - w.counted) < 2 ^ 48 →
      t.get F.SPX_PASSES_PASSES c.toNat = s.get F.SPX_PASSES_PASSES c.toNat + (w.countedBy head - w.counted))

theorem State.readsPass_of {t : State} {v : Walk}
    (hexec : exec (.walkerPassRead c head) s = .next (t.setWalked c head { q with walk := some v }))
    (ht : ∃ regs ticked watch darnQueue events badTiles, t = { s with regs, ticked, watch, darnQueue, events, badTiles })
    (hcount : t.get F.SPX_PASSES_PASSES c.toNat = (s.readCount c w head).get F.SPX_PASSES_PASSES c.toNat) :
    s.readsPass (t.setWalked c head { q with walk := some v }) c head q w v := by
  obtain ⟨_, _, _, _, _, _, rfl⟩ := ht
  rw [State.setWalked_eq] at hexec ⊢
  refine ⟨hexec, State.core_setCore_same .., fun d hd => State.core_setCore_other _ _ hd, rfl, rfl, fun h => ?_⟩
  rw [State.get_setCore, hcount]
  exact (s.readCount_spec c w head).2.2 h

/-- What a pass read sees of the state: registers and counters of time aside, all of it. -/
theorem State.noteBanks_readCount (s : State) (c : Lcn) (w : Walk) (head : Bool) :
    ∃ regs ticked, (s.readCount c w head).noteBanks c = { s with regs, ticked } := by
  obtain ⟨⟨regs, hregs⟩, -⟩ := s.readCount_spec c w head
  exact ⟨regs, (s.noteBanks c).ticked, by rw [hregs]; rfl⟩

variable {p : Nat × Nat × Nat × Nat}

theorem walkerPassRead_good (hq : s.walked c head = some q) (hwalk : q.walk = some w) (hbad : w.bad = none)
    (hhead : head = true → w.reads = []) (hp : w.pairs[w.reads.length]? = some p)
    (hgood : ∀ k ∈ q.passTiles w w.reads.length, s.tileGood c k = true) :
    ∃ t, s.readsPass t c head q w { w with
        counted := w.countedBy head
        reads := w.reads ++ [(s.readTile c p.1, s.readTile c p.2.1, s.passScales c q p)] } ∧
      s.fieldsKept t [F.SPX_PASSES_PASSES, F.SPX_PASSES_SAT] ∧
      { t with regs := s.regs, cores := s.cores, ticked := s.ticked } = s := by
  have hexec := exec_walkerPassRead hq hwalk hbad hhead
  have hkept := (s.readCount_spec c w head).2.1
  obtain ⟨regs, ticked, hu⟩ := s.noteBanks_readCount c w head
  have hpass := State.readPass_good (s := (s.readCount c w head).noteBanks c) (c := c) (q := q)
    (w := { w with counted := w.countedBy head }) hp (by rw [hu]; exact hgood)
  rw [hpass] at hexec
  refine ⟨_, State.readsPass_of (v := { w with counted := _, reads := _ }) ?_ ⟨regs, ticked, _, _, _, _, hu⟩ rfl, ?_, ?_⟩
  · rw [hexec, hu]
    rfl
  · rw [State.setWalked_eq]
    exact hkept
  · rw [State.setWalked_eq, hu]
    rfl

theorem walkerPassRead_bad (hq : s.walked c head = some q) (hwalk : q.walk = some w) (hbad : w.bad = none)
    (hhead : head = true → w.reads = []) (hp : w.pairs[w.reads.length]? = some p) {pre post : List Nat} {k : Nat}
    (hread : q.passTiles w w.reads.length = pre ++ k :: post) (hpre : ∀ m ∈ pre, s.tileGood c m = true)
    (hk : s.tileGood c k = false) :
    ∃ t, s.readsPass t c head q w { w with counted := w.countedBy head, bad := some k } := by
  have hexec := exec_walkerPassRead hq hwalk hbad hhead
  obtain ⟨regs, ticked, hu⟩ := s.noteBanks_readCount c w head
  have hpass := State.readPass_bad (s := (s.readCount c w head).noteBanks c) (c := c) (q := q)
    (w := { w with counted := w.countedBy head }) hp hread (by rw [hu]; exact hpre) (by rw [hu]; exact hk)
  rw [hpass] at hexec
  have hfail := ((s.readCount c w head).noteBanks c).notesFailure_tileFailed c k (cause := 3) (by decide)
  obtain ⟨fregs, watch, darnQueue, events, badTiles, hrest⟩ := hfail.rest
  exact ⟨_, State.readsPass_of hexec ⟨fregs, ticked, watch, darnQueue, events, badTiles, by rw [hrest, hu]⟩
    (hfail.kept F.SPX_PASSES_PASSES c.toNat 0 (by decide) c.isLt (by decide))⟩

end

/-! ### The settlement -/

/-- A lead-in whose index tiles pass their checks. -/
theorem State.leadIn_good {s : State} {c : Lcn} {q : Product} {rest : List Product} {ha hb : Stripe}
    (hqueue : (s.core c).queue = q :: rest) (hha : ha = stripeOf q.a (bits q.sparse 4 1))
    (hhb : hb = stripeOf q.b (bits q.sparse 8 5)) (hgooda : ha.form ≠ 0 → s.tileGood c ha.base = true)
    (hgoodb : hb.form ≠ 0 → s.tileGood c hb.base = true) :
    let ta := s.readTile c ha.base
    let tb := s.readTile c hb.base
    s.walksHead (s.leadIn c q) c q rest { pairs := pairStripes ha hb (ha.entries ta).1 (hb.entries tb).1 } ∧
      s.dropped (s.leadIn c q) c q.thread (ha.drops ta + hb.drops tb) ∧ s.fieldsKept (s.leadIn c q) dropFields ∧
      { s.leadIn c q with regs := s.regs, cores := s.cores, ticked := s.ticked } = s := by
  intro ta tb
  rw [State.leadIn_pairs hha hhb hgooda hgoodb]
  obtain ⟨hdropa, hkepta, regsa, heqa⟩ := (s.noteBanks c).countDrops_spec c q.thread (ha.drops ta)
  set a := (s.noteBanks c).countDrops c q.thread (ha.drops ta)
  obtain ⟨hdropb, hkeptb, regsb, heqb⟩ := a.countDrops_spec c q.thread (hb.drops tb)
  set b := a.countDrops c q.thread (hb.drops tb)
  have hb : ∃ regs ticked, b = { s with regs, ticked } := ⟨regsb, (s.noteBanks c).ticked, by rw [heqb, heqa]; rfl⟩
  refine ⟨State.walksHead_setHead hqueue hb _, ?_, hkepta.trans_same hkeptb, ?_⟩
  · have hdrops := hdropa.trans hdropb
    exact ⟨hdrops.below, hdrops.top, hdrops.src⟩
  · obtain ⟨_, _, hb⟩ := hb
    rw [hb]
    rfl

/-- A lead-in that meets a bad index tile. -/
theorem State.leadIn_bad {s u t : State} {c : Lcn} {q : Product} {rest : List Product} {w : Walk} {tile n : Nat}
    (hqueue : (s.core c).queue = q :: rest) (hu : ∃ regs ticked, u = { s with regs, ticked })
    (hdrop : s.dropped u c q.thread n)
    (ht : t = (u.setHead c { q with walk := some w }).tileFailed c tile 3) :
    s.walksHead t c q rest w ∧ s.dropped t c q.thread n := by
  have hfail := (u.setHead c { q with walk := some w }).notesFailure_tileFailed c tile (cause := 3) (by decide)
  rw [← ht] at hfail
  refine ⟨(State.walksHead_setHead hqueue hu w).notesFailure hfail, ?_⟩
  have hkept (f : Fld) (hf : f.id ∉ failureFields.map Fld.id) : t.get f c.toNat = u.get f c.toNat :=
    hfail.kept f c.toNat 0 hf c.isLt (by decide)
  have hsame := State.dropped_zero (s := u) (t := t) (c := c) (by
    simp only [dropFields, List.forall_mem_cons]
    exact ⟨hkept _ (by decide), hkept _ (by decide), hkept _ (by decide), by simp⟩) q.thread
  exact hdrop.trans hsame

/-- Settles O24: a lead-in (`State.leadIn_good`, `State.leadIn_bad`, `mem_pairStripes`) and a pass read
(`exec_walkerPassRead`, `State.readPass_good`, `State.readPass_bad`). -/
theorem walker : Obligations.Walker := by
  unfold Obligations.Walker
  constructor
  · intro c s q rest hqueue hsparse hwalk u ha hb good value takes dropped position tile counts walks
    have hexec := exec_walkerLeadIn hqueue hsparse hwalk
    have hcounts {t : State} {n : Nat} (h : s.dropped t c q.thread n) : counts t n :=
      ⟨fun hlow => h.below (.inr hlow), h.top, h.src⟩
    have htakes (h : Stripe) : takes h (h.takes (s.readTile c h.base)) := h.takes_iff (s.readTile c h.base)
    refine ⟨fun hgooda hgoodb => ?_, fun hbad => ?_, fun hgood hbad => ?_⟩
    · obtain ⟨hhead, hdrops, hkept, hrest⟩ := State.leadIn_good hqueue (ha := ha) (hb := hb) rfl rfl hgooda hgoodb
      have hmem := mem_pairStripes ha hb (s.readTile c ha.base) (s.readTile c hb.base)
      have hsorted := pairStripes_pairwise ha hb (s.readTile c ha.base) (hb.entries (s.readTile c hb.base)).1
      generalize s.leadIn c q = t at *
      exact ⟨t, _, _, _, ⟨hexec, hhead⟩, htakes ha, htakes hb, hcounts hdrops, hmem, hsorted, hkept, hrest⟩
    · obtain ⟨hhead, hdrops⟩ := State.leadIn_bad (u := s.noteBanks c) hqueue ⟨s.regs, (s.noteBanks c).ticked, rfl⟩
        (State.dropped_zero (s := s) (t := s.noteBanks c) (fun _ _ => rfl) q.thread) (State.leadIn_badA hbad)
      exact ⟨_, ⟨hexec, hhead⟩, hcounts hdrops⟩
    · obtain ⟨hdrop, -, regs, heq⟩ := (s.noteBanks c).countDrops_spec c q.thread (ha.drops (s.readTile c ha.base))
      obtain ⟨hhead, hdrops⟩ := State.leadIn_bad hqueue ⟨regs, (s.noteBanks c).ticked, heq⟩
        ⟨hdrop.below, hdrop.top, hdrop.src⟩ (State.leadIn_badB (ha := ha) (hb := hb) rfl rfl hgood hbad)
      exact ⟨_, _, ⟨hexec, hhead⟩, htakes ha, hcounts hdrops⟩
  · intro c s head q w p hq hwalk hbad hhead hp ha hb scale before fresh read slot scales done reads
    have hpassTiles : q.passTiles w w.reads.length = read := by
      simp only [Product.passTiles, hp]
      rfl
    refine ⟨fun hgood => ?_, fun pre k post hpre hgood hk => ?_⟩
    · exact walkerPassRead_good hq hwalk hbad hhead hp (hpassTiles ▸ hgood)
    · exact walkerPassRead_bad hq hwalk hbad hhead hp (hpassTiles.trans hpre) hgood hk

end Sys2Proof.Machine
end

section
/-!
PROOFS. What writes of bytes and tiles of a core's SRAM leave, tile by tile and byte by byte.
-/

namespace Sys2Proof.Machine

/-! ### Bytes of a wafer SRAM address -/

section
variable {s t w : State} {c : Lcn}

theorem readLE_congr {d : Byte} {m m' : PMap Byte} : ∀ {n a : Nat}, (∀ i, i < n → mget d m (a + i) = mget d m' (a + i)) →
    readLE m d a n = readLE m' d a n
  | 0, _, _ => rfl
  | n + 1, a, h => by
    have htail : readLE m d (a + 1) n = readLE m' d (a + 1) n := readLE_congr fun i hi => by
      rw [Nat.add_assoc, Nat.add_comm 1]
      exact h (i + 1) (by omega)
    rw [readLE, readLE, htail, ← Nat.add_zero a, h 0 (by omega)]

theorem State.readSram_one (s : State) (c : Lcn) (j : Nat) :
    s.readSram c j 1 = (mget 0 s.sram (sramAddr c j)).toNat := by
  simp [State.readSram, readLE]

/-- Bytes that read as before, one by one, read as before together. -/
theorem State.readSram_congr {off n : Nat}
    (h : ∀ j, off ≤ j → j < off + n → t.readSram c j 1 = s.readSram c j 1) : t.readSram c off n = s.readSram c off n :=
  readLE_congr fun i hi => by
    have hj := h (off + i) (by omega) (by omega)
    rw [State.readSram_one, State.readSram_one] at hj
    have haddr : sramAddr c off + i = sramAddr c (off + i) := Nat.add_assoc ..
    rw [haddr]
    exact BitVec.eq_of_toNat_eq hj

theorem sramAddr_outside {d : Lcn} {off n j : Nat} (h : ¬(d = c ∧ off ≤ j ∧ j < off + n)) (hoff : off + n ≤ 2 ^ 16)
    (hj : j < 2 ^ 16) : sramAddr d j < sramAddr c off ∨ sramAddr c off + n ≤ sramAddr d j := by
  unfold sramAddr
  by_cases hd : d = c
  · have hj' : ¬(off ≤ j ∧ j < off + n) := fun hj => h ⟨hd, hj⟩
    rw [hd]
    omega
  · have hne : d.toNat ≠ c.toNat := fun e => hd (BitVec.eq_of_toNat_eq e)
    omega

/-! ### Stores into a set of bytes -/

/-- What stores into some bytes of a core leave: every other byte, the checks of tiles that hold none of the bytes, and
everything but the memory and the notes that the core's sparse products take. -/
structure State.stores (s t : State) (c : Lcn) (bytes : Nat → Prop) : Prop where
  rest : ∃ cores sram damaged badTiles, t = { s with cores, sram, damaged, badTiles }
  kept : ∀ d j, ¬(d = c ∧ bytes j) → j < 2 ^ 16 → t.readSram d j 1 = s.readSram d j 1
  good : ∀ k, (∀ j, j / 256 = k → ¬bytes j) → t.tileGood c k = s.tileGood c k

variable {A B : Nat → Prop}

theorem State.stores.refl (s : State) (c : Lcn) (A : Nat → Prop) : s.stores s c A where
  rest := ⟨_, _, _, _, rfl⟩
  kept := fun _ _ _ _ => rfl
  good := fun _ _ => rfl

theorem State.stores.trans (h : s.stores t c A) (h' : t.stores w c A) : s.stores w c A where
  rest := by
    obtain ⟨_, _, _, _, ht⟩ := h.rest
    obtain ⟨_, _, _, _, hw⟩ := h'.rest
    exact ⟨_, _, _, _, by rw [hw, ht]⟩
  kept := fun d j hj hlt => (h'.kept d j hj hlt).trans (h.kept d j hj hlt)
  good := fun k hk => (h'.good k hk).trans (h.good k hk)

theorem State.stores.mono (h : s.stores t c A) (hAB : ∀ j, A j → B j) : s.stores t c B where
  rest := h.rest
  kept := fun d j hj hlt => h.kept d j (fun hA => hj ⟨hA.1, hAB j hA.2⟩) hlt
  good := fun k hk => h.good k fun j hj hA => hk j hj (hAB j hA)

theorem State.stores.regs (h : s.stores t c A) : t.regs = s.regs := by
  obtain ⟨_, _, _, _, rfl⟩ := h.rest
  rfl

theorem State.stores.readSram_outside (h : s.stores t c A) {off n : Nat} (hA : ∀ j, off ≤ j → j < off + n → ¬A j)
    (hoff : off + n ≤ 2 ^ 16) : t.readSram c off n = s.readSram c off n :=
  State.readSram_congr fun j hlo hhi => h.kept c j (fun hj => hA j hlo hhi hj.2) (by omega)

/-- A tile none of whose bytes is stored reads as before. -/
theorem State.stores.readTile (h : s.stores t c A) {k : Nat} (hk : k < 256)
    (hA : ∀ j, k * 256 ≤ j → j < k * 256 + 256 → ¬A j) : t.readTile c k = s.readTile c k := by
  rw [State.readTile, h.readSram_outside hA (by omega), State.readTile]

theorem State.noteWrite_cores (s : State) (c : Lcn) (tile : Nat) : ∃ cores, s.noteWrite c tile = { s with cores } := by
  unfold State.noteWrite
  dsimp only
  split
  · exact ⟨_, rfl⟩
  · exact ⟨_, rfl⟩

theorem State.readSram_writeSram (s : State) (c : Lcn) (off v n : Nat) :
    (s.writeSram c off v n).readSram c off n = v % 256 ^ n :=
  readLE_writeLE 0 n s.sram (sramAddr c off) v

theorem State.stores_writeSram (s : State) (c : Lcn) {off n : Nat} (v : Nat) (hoff : off + n ≤ 2 ^ 16) :
    s.stores (s.writeSram c off v n) c (fun j => off ≤ j ∧ j < off + n) where
  rest := by
    obtain ⟨_, h⟩ := s.noteWrite_cores c (off / 256)
    exact ⟨_, _, _, _, by rw [State.writeSram, h]⟩
  kept := fun d j hj hlt => by
    rw [State.readSram_one, State.readSram_one]
    exact congrArg BitVec.toNat (mget_writeLE_other _ _ _ _ _ _ (sramAddr_outside hj hoff hlt))
  good := fun k _ => by
    obtain ⟨_, h⟩ := s.noteWrite_cores c (off / 256)
    rw [State.tileGood, State.writeSram, h]
    rfl

theorem tileKey_ne {k k' : Nat} (h : k ≠ k') : tileKey c k ≠ tileKey c k' := by
  unfold tileKey
  omega

theorem toNat_mod_bytes {n : Nat} (v : BitVec (8 * n)) : v.toNat % 256 ^ n = v.toNat := by
  rw [← two_pow_eight_mul]
  exact Nat.mod_eq_of_lt v.isLt

theorem State.readTile_writeTile (s : State) (c : Lcn) (k : Nat) (v : Tile) : (s.writeTile c k v).readTile c k = v := by
  apply BitVec.eq_of_toNat_eq
  rw [State.readTile_toNat, State.readSram, State.sram_writeTile, readLE_writeLE]
  exact toNat_mod_bytes (n := 256) v

theorem State.readSram_writeTile (s : State) (c d : Lcn) (k : Nat) (v : Tile) (off n : Nat) :
    (s.writeTile c k v).readSram d off n = (s.writeSram c (k * 256) v.toNat 256).readSram d off n := by
  simp only [State.readSram, State.writeTile]

theorem State.stores_writeTile (s : State) (c : Lcn) {k : Nat} (v : Tile) (hk : k < 256) :
    s.stores (s.writeTile c k v) c (fun j => k * 256 ≤ j ∧ j < k * 256 + 256) where
  rest := by
    obtain ⟨_, _, _, _, h⟩ := (s.stores_writeSram c v.toNat (off := k * 256) (n := 256) (by omega)).rest
    exact ⟨_, _, _, _, by rw [State.writeTile, h]⟩
  kept := fun d j hj hlt => by
    rw [State.readSram_writeTile]
    exact (s.stores_writeSram c v.toNat (off := k * 256) (n := 256) (by omega)).kept d j hj hlt
  good := fun m hm => by
    have hne : m ≠ k := fun e => hm (k * 256) (by omega) (by omega)
    simp only [State.tileGood, State.writeTile, List.contains_eq_mem, List.mem_erase_of_ne (tileKey_ne hne)]

/-- Tiles written upward read back, and nothing outside them changes. -/
theorem State.writeTiles_spec (c : Lcn) : ∀ (l : List Tile) (s : State) (k : Nat), k + l.length ≤ 256 →
    s.stores (s.writeTiles c k l) c (fun j => k * 256 ≤ j ∧ j < (k + l.length) * 256) ∧
      ∀ i v, l[i]? = some v → (s.writeTiles c k l).readTile c (k + i) = v
  | [], s, k, _ => ⟨.refl s c _, fun i v h => by simp at h⟩
  | v :: l, s, k, hk => by
    rw [List.length_cons] at hk
    obtain ⟨hrest, hreads⟩ := State.writeTiles_spec c l (s.writeTile c k v) (k + 1) (by omega)
    rw [List.length_cons]
    have hfirst := (s.stores_writeTile c (k := k) v (by omega)).mono
      (B := fun j => k * 256 ≤ j ∧ j < (k + (l.length + 1)) * 256) fun j hj => by omega
    rw [Nat.add_right_comm, Nat.add_assoc] at hrest
    have hothers := hrest.mono (B := fun j => k * 256 ≤ j ∧ j < (k + (l.length + 1)) * 256)
      fun j hj => ⟨by omega, hj.2⟩
    refine ⟨hfirst.trans hothers, fun i u h => ?_⟩
    · cases i with
      | zero =>
        obtain rfl : v = u := by simpa using h
        have hkept := hrest.readTile (k := k) (by omega) fun j hlo hhi => by omega
        rw [Nat.add_zero, State.writeTiles, hkept, State.readTile_writeTile]
      | succ i =>
        rw [List.getElem?_cons_succ] at h
        rw [State.writeTiles, ← hreads i u h, Nat.add_right_comm, Nat.add_assoc]

/-- A write of 16 bytes that checks its tile: the bytes, or a failure noted and nothing written. -/
theorem State.writePart_good {off n : Nat} (v : Nat) (h : s.tileGood c (off / 256) = true) :
    s.writePart c off v n = (true, s.writeSram c off v n) := if_pos h

theorem State.writePart_bad {off n : Nat} (v : Nat) (h : s.tileGood c (off / 256) = false) :
    s.writePart c off v n = (false, s.tileFailed c (off / 256) 4) := if_neg (by simp [h])

theorem State.notesFailure.readSram (h : s.notesFailure t) (d : Lcn) (off n : Nat) :
    t.readSram d off n = s.readSram d off n := by
  obtain ⟨_, _, _, _, _, rfl⟩ := h.rest
  rfl

end

end Sys2Proof.Machine
end

section
/-!
PROOFS. The commands of the compressor and of the selection engine: their writes, their checks and their ends.
-/

namespace Sys2Proof.Machine

/-! ### The end of a command (06 R233, R237, R240) -/

/-- The status fields of an engine that takes commands. -/
structure EngineStatus where
  busy : Fld
  done : Fld
  err : Fld
  code : Fld

def compressorStatus : EngineStatus :=
  ⟨F.SPX_CMP_STAT_BUSY, F.SPX_CMP_STAT_DONE, F.SPX_CMP_STAT_ERR, F.SPX_CMP_STAT_ERRCODE⟩

def selectionStatus : EngineStatus :=
  ⟨F.SPX_SEL_STAT_BUSY, F.SPX_SEL_STAT_DONE, F.SPX_SEL_STAT_ERR, F.SPX_SEL_STAT_ERRCODE⟩

namespace EngineStatus

variable (r : EngineStatus)

def fields : List Fld := [r.busy, r.done, r.err, r.code]

/-- Flags of one bit, apart from each other and from the tacks' registers. -/
structure Apart : Prop where
  apart : (r.fields.map (·.id)).Pairwise (· ≠ ·)
  tacks : ∀ f ∈ r.fields, f.id ∉ signalFields.map (·.id)
  flags : r.done.width = 1 ∧ r.err.width = 1

end EngineStatus

theorem compressorStatus_apart : compressorStatus.Apart := ⟨by decide, by decide, by decide⟩

theorem selectionStatus_apart : selectionStatus.Apart := ⟨by decide, by decide, by decide⟩

section
variable {s t w : State} {c : Lcn} {r : EngineStatus} {k : Nat} {e : Option Nat}

/-- A command's status at its end, before its tack is signalled. -/
def State.endStatus (s : State) (c : Lcn) (r : EngineStatus) (e : Option Nat) : State :=
  let s := (s.put r.busy 0 c.toNat).put r.done 1 c.toNat
  match e with
  | some n => (s.put r.err 1 c.toNat).put r.code n c.toNat
  | none => s

/-- The status that an ended command leaves. -/
structure State.endsStatus (s t : State) (c : Lcn) (r : EngineStatus) (e : Option Nat) : Prop where
  busy : t.get r.busy c.toNat = 0
  done : t.get r.done c.toNat = 1
  failed : ∀ n, e = some n → t.get r.err c.toNat = 1 ∧ t.get r.code c.toNat = n % 2 ^ r.code.width
  passed : e = none → t.get r.err c.toNat = s.get r.err c.toNat

/-- What an ended command leaves: its status, and one signal of its tack. -/
structure State.endsCommand (s t : State) (c : Lcn) (r : EngineStatus) (k : Nat) (e : Option Nat) : Prop extends
    s.endsStatus t c r e where
  value : t.get F.TACK_STATEn_VALUE c.toNat k = (s.get F.TACK_STATEn_VALUE c.toNat k + 1) % 2 ^ 32
  kind : t.get F.TACK_STATEn_LKIND c.toNat k = 1

theorem State.get_put_core (s : State) {f g : Fld} (v : Nat) (c : Lcn) (h : g.id ≠ f.id) :
    (s.put f v c.toNat).get g c.toNat = s.get g c.toNat :=
  State.get_put_field s v h c.isLt c.isLt (by decide) (by decide)

theorem State.fieldsKept_put_core (s : State) (f : Fld) (v : Nat) (c : Lcn) : s.fieldsKept (s.put f v c.toNat) [f] :=
  s.fieldsKept_put f v c.isLt (by decide)

theorem State.signalled_eq (s : State) (c : Lcn) (n : Fin 32) (set : Bool) (v : BitVec 32) (lkind ltid : Nat) :
    ∃ regs, s.signalled c n set v lkind ltid = { s with regs } := ⟨_, rfl⟩

theorem State.endStatus_regs (s : State) (c : Lcn) (r : EngineStatus) (e : Option Nat) :
    ∃ regs, s.endStatus c r e = { s with regs } := by
  cases e <;> exact ⟨_, rfl⟩

theorem State.fieldsKept_endStatus (s : State) (c : Lcn) (r : EngineStatus) (e : Option Nat) :
    s.fieldsKept (s.endStatus c r e) r.fields := by
  have hended := (s.fieldsKept_put_core r.busy 0 c).trans (State.fieldsKept_put_core _ r.done 1 c)
  cases e with
  | none => exact hended.mono (by simp [EngineStatus.fields])
  | some n =>
    exact ((hended.trans (State.fieldsKept_put_core _ r.err 1 c)).trans (State.fieldsKept_put_core _ r.code n c)).mono
      (by simp [EngineStatus.fields])

theorem State.endsStatus_endStatus (h : r.Apart) (s : State) (c : Lcn) (e : Option Nat) :
    s.endsStatus (s.endStatus c r e) c r e := by
  obtain ⟨hapart, -, hdone, herr⟩ := h
  simp only [EngineStatus.fields, List.map_cons, List.map_nil, List.pairwise_cons, List.mem_cons, List.not_mem_nil,
    or_false, forall_eq_or_imp, forall_eq] at hapart
  obtain ⟨⟨hbd, hbe, hbc⟩, ⟨hde, hdc⟩, hec, -⟩ := hapart
  cases e with
  | none =>
    refine ⟨?_, ?_, nofun, fun _ => ?_⟩
    · simp [State.endStatus, State.get_put_core, hbd]
    · simp [State.endStatus, hdone]
    · simp [State.endStatus, State.get_put_core, hbe.symm, hde.symm]
  | some n =>
    refine ⟨?_, ?_, fun m hm => ?_, nofun⟩
    · simp [State.endStatus, State.get_put_core, hbd, hbe, hbc]
    · simp [State.endStatus, State.get_put_core, hdone, hde, hdc]
    · cases hm
      simp [State.endStatus, State.get_put_core, herr, hec]

/-- The registers after a signal of a command's tack, once its status is set. -/
theorem State.endsCommand_signal (hr : r.Apart) (s : State) (c : Lcn) (e : Option Nat) (k : Nat)
    (hw : w.regs = (s.endStatus c r e).regs) :
    s.endsCommand (w.signal c (Fin.ofNat 32 k) false 1 1 0) c r (k % 32) e ∧
      s.fieldsKept (w.signal c (Fin.ofNat 32 k) false 1 1 0) (r.fields ++ signalFields) := by
  obtain ⟨hbusy, hdone, hfailed, hpassed⟩ := State.endsStatus_endStatus hr s c e
  have hkept := s.fieldsKept_endStatus c r e
  have hget := State.get_congr hw
  obtain ⟨_, hsignal⟩ := w.signal_eq c (Fin.ofNat 32 k) false 1 1 0
  obtain ⟨hvalue, -, hkind, -, -, hrest⟩ := w.signalled_regs c (Fin.ofNat 32 k) false 1 (lkind := 1) (ltid := 0) (by decide)
    (by decide)
  rw [hsignal]
  generalize w.signalled c (Fin.ofNat 32 k) false 1 1 0 = t at *
  have hstatus (f : Fld) (hf : f ∈ r.fields) : t.get f c.toNat = (s.endStatus c r e).get f c.toNat :=
    (hrest f c.toNat 0 (hr.tacks f hf) c.isLt (by decide)).trans (hget f c.toNat 0)
  obtain ⟨hb, hd, he, hc⟩ : r.busy ∈ r.fields ∧ r.done ∈ r.fields ∧ r.err ∈ r.fields ∧ r.code ∈ r.fields := by
    simp [EngineStatus.fields]
  have htack : (s.endStatus c r e).get F.TACK_STATEn_VALUE c.toNat (k % 32) =
      s.get F.TACK_STATEn_VALUE c.toNat (k % 32) := by
    refine hkept _ _ _ (fun hmem => ?_) c.isLt (by omega)
    obtain ⟨f, hf, hid⟩ := List.mem_map.1 hmem
    exact hr.tacks f hf (hid ▸ by decide)
  refine ⟨⟨⟨(hstatus _ hb).trans hbusy, (hstatus _ hd).trans hdone, fun n hn => ?_,
    fun hn => (hstatus _ he).trans (hpassed hn)⟩, hvalue.trans ?_, hkind⟩, fun f u n hf hu hn => ?_⟩
  · obtain ⟨herr, hcode⟩ := hfailed n hn
    exact ⟨(hstatus _ he).trans herr, (hstatus _ hc).trans hcode⟩
  · rw [State.tack, hget]
    change (BitVec.ofNat 32 ((s.endStatus c r e).get F.TACK_STATEn_VALUE c.toNat (k % 32)) + 1).toNat = _
    rw [htack]
    simp
  · rw [List.map_append, List.mem_append, not_or] at hf
    exact (hrest f u n hf.2 hu hn).trans ((hget f u n).trans (hkept f u n hf.1 hu hn))

/-- An end is one of an earlier state too, where the fields it counts from were the same. -/
theorem State.endsCommand.of_kept {l : List Fld} (h : t.endsCommand w c r k e) (hst : s.fieldsKept t l) (hk : k < 32)
    (herr : r.err.id ∉ l.map (·.id)) (hl : F.TACK_STATEn_VALUE.id ∉ l.map (·.id)) : s.endsCommand w c r k e where
  busy := h.busy
  done := h.done
  failed := h.failed
  passed := fun he => (h.passed he).trans (hst _ _ _ herr c.isLt (by decide))
  value := h.value.trans (by rw [hst _ _ _ hl c.isLt (by omega)])
  kind := h.kind

/-- COMPRESSOR: the end of a command. -/
theorem State.cmpEnd_spec (s : State) (c : Lcn) (e : Option Nat) :
    s.endsCommand (s.cmpEnd c e) c compressorStatus (s.get F.SPX_CMP_CMD_TACK c.toNat % 32) e ∧
      s.fieldsKept (s.cmpEnd c e) (compressorStatus.fields ++ signalFields) ∧
      ∃ regs threads, s.cmpEnd c e = { s with regs, threads } := by
  have heq : s.cmpEnd c e = (s.endStatus c compressorStatus e).signal c
      (Fin.ofNat 32 ((s.endStatus c compressorStatus e).get F.SPX_CMP_CMD_TACK c.toNat)) false 1 1 0 := by
    cases e <;> rfl
  have htack : (s.endStatus c compressorStatus e).get F.SPX_CMP_CMD_TACK c.toNat = s.get F.SPX_CMP_CMD_TACK c.toNat :=
    s.fieldsKept_endStatus c compressorStatus e _ _ _ (by decide) c.isLt (by decide)
  rw [heq, htack]
  obtain ⟨hends, hkept⟩ := State.endsCommand_signal compressorStatus_apart s c e (s.get F.SPX_CMP_CMD_TACK c.toNat)
    (w := s.endStatus c compressorStatus e) rfl
  obtain ⟨_, hstatus⟩ := s.endStatus_regs c compressorStatus e
  obtain ⟨_, hsignal⟩ := (s.endStatus c compressorStatus e).signal_eq c (Fin.ofNat 32 (s.get F.SPX_CMP_CMD_TACK c.toNat)) false
    1 1 0
  obtain ⟨_, hsignalled⟩ := (s.endStatus c compressorStatus e).signalled_eq c
    (Fin.ofNat 32 (s.get F.SPX_CMP_CMD_TACK c.toNat)) false 1 1 0
  exact ⟨hends, hkept, _, _, by rw [hsignal, hsignalled, hstatus]⟩

/-- SELECTION: the end of a command. -/
theorem State.selEnd_spec (s : State) (c : Lcn) (e : Option Nat) :
    s.endsCommand (s.selEnd c e) c selectionStatus (s.get F.SPX_SEL_CMD_TACK c.toNat % 32) e ∧
      s.fieldsKept (s.selEnd c e) (selectionStatus.fields ++ signalFields) ∧ ((s.selEnd c e).core c).sel = none ∧
      ∃ regs threads cores, s.selEnd c e = { s with regs, threads, cores } := by
  let w := s.endStatus c selectionStatus e
  let v := w.setCore c { w.core c with sel := none }
  have heq : s.selEnd c e = v.signal c (Fin.ofNat 32 (v.get F.SPX_SEL_CMD_TACK c.toNat)) false 1 1 0 := by
    cases e <;> rfl
  have hregs : v.regs = w.regs := rfl
  have htack : v.get F.SPX_SEL_CMD_TACK c.toNat = s.get F.SPX_SEL_CMD_TACK c.toNat :=
    (State.get_congr hregs _ _ _).trans
      (s.fieldsKept_endStatus c selectionStatus e _ _ _ (by decide) c.isLt (by decide))
  rw [heq, htack]
  obtain ⟨hends, hkept⟩ := State.endsCommand_signal selectionStatus_apart s c e (s.get F.SPX_SEL_CMD_TACK c.toNat) hregs
  obtain ⟨_, hsignal⟩ := v.signal_eq c (Fin.ofNat 32 (s.get F.SPX_SEL_CMD_TACK c.toNat)) false 1 1 0
  obtain ⟨_, hsignalled⟩ := v.signalled_eq c (Fin.ofNat 32 (s.get F.SPX_SEL_CMD_TACK c.toNat)) false 1 1 0
  have hv : v = { w with cores := v.cores } := rfl
  have hw : w = { s with regs := w.regs } := by
    obtain ⟨_, hstatus⟩ := s.endStatus_regs c selectionStatus e
    simp only [w]
    rw [hstatus]
  refine ⟨hends, hkept, ?_, _, _, v.cores, by rw [hsignal, hsignalled, hv, hw]⟩
  have hcore : (v.signal c (Fin.ofNat 32 (s.get F.SPX_SEL_CMD_TACK c.toNat)) false 1 1 0).core c = v.core c := by
    rw [hsignal]
    rfl
  rw [hcore, State.core_setCore_same]

end

end Sys2Proof.Machine
end

section
/-!
PROOFS. Writes of the command registers of the compressor and of the selection engine (O38, starts).
-/

namespace Sys2Proof.Machine

/-! ### Fields of a written command -/

section
variable {s t w : State} {c : Lcn} {v : Nat}

theorem Reg.Stands.get_writePlain_field {r : Reg} {u : Nat} (h : r.Stands u 0) (s : State) (v : Nat) {f : Fld}
    (hf : f ∈ r.fields) (hacc : f.acc = .rw) (hrep : f.rep = 1) :
    (s.writePlain r u 0 v).get f u = v / 2 ^ f.lo % 2 ^ f.width := by
  have hget := h.get_writePlain s v hf (j := 0) (by omega)
  simpa [hrep, Fld.written, hacc, Fld.slice] using hget

theorem cmpCmd_stands (c : Lcn) : Reg.SPX_CMP_CMD.Stands c.toNat 0 := ⟨by decide, c.isLt, by decide⟩

theorem selCmd_stands (c : Lcn) : Reg.SPX_SEL_CMD.Stands c.toNat 0 := ⟨by decide, c.isLt, by decide⟩

theorem State.regsOnly.kept (h : s.regsOnly t) : t.threads = s.threads ∧ t.sram = s.sram ∧ t.cores = s.cores := by
  have hkept {α : Type} (f : State → α) : f (s.setBack t) = f s := congrArg f h
  exact ⟨hkept State.threads, hkept State.sram, hkept State.cores⟩

/-! ### The compressor's checks (06 Table 6.7) -/

/-- The lowest code of a compressor command that Table 6.7 faults, 0 where it faults none. -/
def cmpCode (src dst span fmt hdr : Nat) (prune : Bool) : Nat :=
  if span = 0 ∨ 128 < span then 1 else if 256 < src + span then 2 else if 256 < dst + span then 3
    else if 10 < fmt ∨ (prune = true ∧ 7 < fmt) then 4
    else if (src < dst + span ∧ dst < src + span) ∨ (src < hdr + 1 ∧ hdr < src + span) ∨
      (dst < hdr + 1 ∧ hdr < dst + span) then 5 else 0

/-- A code as the checks give it. -/
def codeOr (code : Nat) : Option Nat := if code = 0 then none else some code

theorem someMeet_three (a b d : Nat × Nat) :
    someMeet [a, b, d] = (rangesMeet a b || rangesMeet a d || rangesMeet b d) := by
  simp [someMeet]

theorem cmpError_eq_codeOr (src dst span fmt hdr : Nat) (prune : Bool) :
    cmpError src dst span fmt prune hdr = codeOr (cmpCode src dst span fmt (hdr / 16) prune) := by
  have hsrc : 255 < src + span - 1 ↔ 256 < src + span := by omega
  have hdst : 255 < dst + span - 1 ↔ 256 < dst + span := by omega
  have hfmt : 10 < fmt ∨ (prune && !s24Permitted fmt) = true ↔ 10 < fmt ∨ (prune = true ∧ 7 < fmt) := by
    cases prune with
    | false => simp
    | true =>
      simp only [s24Permitted, Bool.true_and, Bool.not_eq_true', Bool.or_eq_false_iff, decide_eq_false_iff_not, beq_eq_false_iff_ne,
        true_and]
      omega
  have hmeet : someMeet [(src, span), (dst, span), (hdr / 16, 1)] = true ↔
      (src < dst + span ∧ dst < src + span) ∨ (src < hdr / 16 + 1 ∧ hdr / 16 < src + span) ∨
        (dst < hdr / 16 + 1 ∧ hdr / 16 < dst + span) := by
    simp [someMeet_three, rangesMeet, or_assoc]
  simp only [cmpError, cmpCode, hsrc, hdst, hfmt, hmeet]
  split_ifs <;> rfl

theorem cmpCode_lt (src dst span fmt hdr : Nat) (prune : Bool) : cmpCode src dst span fmt hdr prune < 2 ^ 4 := by
  unfold cmpCode
  split_ifs <;> decide

/-- The code of a compressor command's word. -/
def cmpWordCode (v : Nat) : Nat :=
  cmpCode (v % 2 ^ 8) (v / 2 ^ 8 % 2 ^ 8) (v / 2 ^ 16 % 2 ^ 8) (v / 2 ^ 24 % 2 ^ 4) (v / 2 ^ 40 % 2 ^ 12 / 16)
    (v.testBit 28)

/-- The fields of a written compressor command. -/
theorem State.get_cmpCmd (s : State) (c : Lcn) (v : Nat) :
    let w := s.writePlain .SPX_CMP_CMD c.toNat 0 v
    w.get F.SPX_CMP_CMD_SRC c.toNat = v % 2 ^ 8 ∧ w.get F.SPX_CMP_CMD_DST c.toNat = v / 2 ^ 8 % 2 ^ 8 ∧
      w.get F.SPX_CMP_CMD_SPAN c.toNat = v / 2 ^ 16 % 2 ^ 8 ∧ w.get F.SPX_CMP_CMD_FMT c.toNat = v / 2 ^ 24 % 2 ^ 4 ∧
      w.get F.SPX_CMP_CMD_PRUNE24 c.toNat = v / 2 ^ 28 % 2 ∧ w.get F.SPX_CMP_CMD_TACK c.toNat = v / 2 ^ 32 % 2 ^ 5 ∧
      w.get F.SPX_CMP_CMD_HDR16 c.toNat = v / 2 ^ 40 % 2 ^ 12 := by
  have hfield {f : Fld} (hacc : f.acc = .rw) (hrep : f.rep = 1)
      (hf : f ∈ Reg.SPX_CMP_CMD.fields := by simp [Reg.fields]) :=
    (cmpCmd_stands c).get_writePlain_field s v hf hacc hrep
  refine ⟨(hfield rfl rfl).trans ?_, hfield rfl rfl, hfield rfl rfl,
    hfield rfl rfl, hfield rfl rfl, hfield rfl rfl, hfield rfl rfl⟩
  rw [show F.SPX_CMP_CMD_SRC.lo = 0 from rfl, pow_zero, Nat.div_one]
  rfl

theorem flag_of_bit {f : Fld} {u k : Nat} (h : w.get f u = v / 2 ^ k % 2) : w.flag f u = v.testBit k := by
  rw [State.flag, h, Nat.testBit_eq_decide_div_mod_eq]

/-- A write of SPX_CMP_CMD on an engine that is not busy. -/
theorem State.writeCmpCmd_idle (hbusy : s.get F.SPX_CMP_STAT_BUSY c.toNat ≠ 1) (v : Nat) :
    let w := s.writePlain .SPX_CMP_CMD c.toNat 0 v
    s.writeCmpCmd c v = if v.testBit 63 then
        match codeOr (cmpWordCode v) with
        | some e => w.cmpEnd c (some e)
        | none => w.put F.SPX_CMP_STAT_BUSY 1 c.toNat
      else w := by
  intro w
  obtain ⟨hsrc, hdst, hspan, hfmt, hprune, -, hhdr⟩ := s.get_cmpCmd c v
  have hcode : cmpError (w.get F.SPX_CMP_CMD_SRC c.toNat) (w.get F.SPX_CMP_CMD_DST c.toNat)
      (w.get F.SPX_CMP_CMD_SPAN c.toNat) (w.get F.SPX_CMP_CMD_FMT c.toNat) (w.flag F.SPX_CMP_CMD_PRUNE24 c.toNat)
      (w.get F.SPX_CMP_CMD_HDR16 c.toNat) = codeOr (cmpWordCode v) := by
    rw [cmpError_eq_codeOr, hsrc, hdst, hspan, hfmt, hhdr, flag_of_bit hprune, cmpWordCode]
  rw [State.writeCmpCmd]
  dsimp only
  rw [if_neg (by simpa [State.flag] using hbusy), hcode]
  cases v.testBit 63 <;> rfl

theorem codeOr_cases (code : Nat) : (code = 0 ∧ codeOr code = none) ∨ (code ≠ 0 ∧ codeOr code = some code) := by
  by_cases h : code = 0 <;> simp [codeOr, h]

theorem Word.testBit_top (v : Word) : v.toNat.testBit 63 = v.msb := by
  rw [BitVec.msb_eq_getLsbD_last, BitVec.getLsbD]

/-- What a write of an engine's command register leaves: beside the command's own fields only status and tacks, no byte of
SRAM, and as `go` and the code of its checks say. -/
structure State.starts (s w t : State) (c : Lcn) (r : EngineStatus) (go : Bool) (code k : Nat) : Prop where
  fields : w.fieldsKept t (r.fields ++ signalFields)
  sram : t.sram = s.sram
  held : go = false → t = w
  runs : go = true → code = 0 → t.get r.busy c.toNat = 1 ∧ t.threads = s.threads
  faults : go = true → code ≠ 0 → s.endsCommand t c r k (some code)

theorem exec_compressorStart (hb : s.backed c = true) (hc : s.clocked c = true) (v : Word) :
    exec (.compressorStart c v) s = .next (s.writeCmpCmd c v.toNat) :=
  congrArg Host.Outcome.next (State.ifWindow_clocked hb hc rfl 0 _)

theorem exec_selectionStart (hb : s.backed c = true) (hc : s.clocked c = true) (v : Word) :
    exec (.selectionStart c v) s = .next (s.writeSelCmd c v.toNat) :=
  congrArg Host.Outcome.next (State.ifWindow_clocked hb hc rfl 0 _)

theorem State.writeCmpCmd_busy (hbusy : s.get F.SPX_CMP_STAT_BUSY c.toNat = 1) (v : Nat) :
    s.writeCmpCmd c v = s.put F.SPX_CMP_STAT_REJ 1 c.toNat := by
  rw [State.writeCmpCmd]
  exact if_pos (decide_eq_true hbusy)

theorem State.writeSelCmd_busy (hbusy : s.get F.SPX_SEL_STAT_BUSY c.toNat = 1) (v : Nat) :
    s.writeSelCmd c v = s.put F.SPX_SEL_STAT_REJ 1 c.toNat := by
  rw [State.writeSelCmd]
  exact if_pos (decide_eq_true hbusy)

theorem State.writeCmpCmd_starts (hbusy : s.get F.SPX_CMP_STAT_BUSY c.toNat ≠ 1) (v : Word) :
    s.starts (s.writePlain .SPX_CMP_CMD c.toNat 0 v.toNat) (s.writeCmpCmd c v.toNat) c compressorStatus v.msb
      (cmpWordCode v.toNat) (v.toNat / 2 ^ 32 % 32) := by
  rw [State.writeCmpCmd_idle hbusy, Word.testBit_top]
  obtain ⟨-, -, -, -, -, htack, -⟩ := s.get_cmpCmd c v.toNat
  have hcmd := (cmpCmd_stands c).fieldsKept_writePlain s v.toNat
  obtain ⟨hthreads, hsram, -⟩ := (s.regsOnly_writePlain .SPX_CMP_CMD c.toNat 0 v.toNat).kept
  generalize s.writePlain .SPX_CMP_CMD c.toNat 0 v.toNat = w at *
  cases v.msb with
  | false => exact ⟨fun _ _ _ _ _ _ => rfl, hsram, fun _ => rfl, nofun, nofun⟩
  | true =>
    obtain ⟨hcode, hor⟩ | ⟨hcode, hor⟩ := codeOr_cases (cmpWordCode v.toNat)
    · rw [hor]
      refine ⟨(w.fieldsKept_put_core _ 1 c).mono (by simp [EngineStatus.fields, compressorStatus]), hsram, nofun,
        fun _ _ => ⟨?_, hthreads⟩, fun _ h => absurd hcode h⟩
      exact State.get_put_same ..
    · obtain ⟨hends, hkept, _, _, hrest⟩ := w.cmpEnd_spec c (some (cmpWordCode v.toNat))
      rw [htack, Nat.mod_mod_of_dvd _ (by decide)] at hends
      rw [hor]
      refine ⟨hkept, ?_, nofun, fun _ h => absurd h hcode, fun _ _ => ?_⟩
      · dsimp only
        rw [if_pos rfl, hrest]
        exact hsram
      · exact hends.of_kept hcmd (Nat.mod_lt _ (by decide)) (by decide) (by decide)

/-! ### The selection engine's checks (06 Table 6.7) -/

/-- The lowest code of a selection command that Table 6.7 faults, 0 where it faults none; `routed` says that its source
address leads to a memory. -/
def selCode (score idx hdr groups n tpg dst addr : Nat) (topn gather routed : Bool) : Nat :=
  let met (k : Nat) : Prop := dst < k + 1 ∧ k < dst + groups * tpg
  if groups = 0 ∨ 128 < groups ∨ (topn = true ∧ (n = 0 ∨ groups < n)) ∨ tpg = 0 ∨ 16 < tpg then 1
  else if gather = true ∧ 256 < dst + groups * tpg then 3
  else if score = idx ∨ score = hdr ∨ idx = hdr ∨ (gather = true ∧ (met score ∨ met idx ∨ met hdr)) then 5
  else if gather = true ∧ (addr % 256 ≠ 0 ∨ routed = false) then 6 else 0

theorem someMeet_select (score idx hdr dst n : Nat) (gather : Bool) :
    someMeet ([(score, 1), (idx, 1), (hdr, 1)] ++ if gather then [(dst, n)] else []) = true ↔
      score = idx ∨ score = hdr ∨ idx = hdr ∨ (gather = true ∧ ((dst < score + 1 ∧ score < dst + n) ∨
        (dst < idx + 1 ∧ idx < dst + n) ∨ (dst < hdr + 1 ∧ hdr < dst + n))) := by
  cases gather with
  | false =>
    simp [someMeet, rangesMeet]
    omega
  | true =>
    simp [someMeet, rangesMeet]
    omega

theorem State.selError_eq_codeOr (s : State) (c : Lcn) : s.selError c = codeOr (selCode (s.get F.SPX_SEL_CMD_SCORE c.toNat)
    (s.get F.SPX_SEL_CMD_IDX c.toNat) (s.get F.SPX_SEL_CMD_HDR16 c.toNat / 16) (s.get F.SPX_SEL_CMD_GROUPS c.toNat)
    (s.get F.SPX_SEL_CMD_N c.toNat) (s.get F.SPX_GATHER_CFG_TPG c.toNat) (s.get F.SPX_GATHER_CFG_DST c.toNat)
    (s.get F.SPX_GATHER_SRC_ADDR c.toNat) (s.flag F.SPX_SEL_CMD_TOPN c.toNat) (s.flag F.SPX_SEL_CMD_GATHER c.toNat)
    (s.memoryRoute c (s.get F.SPX_GATHER_SRC_ADDR c.toNat)).isSome) := by
  have hlast (k : Nat) : 255 < k - 1 ↔ 256 < k := by omega
  have hroute (o : Option (Lcn × Lcn × Nat)) : o.isNone = true ↔ o.isSome = false := by simp
  unfold State.selError selCode
  simp only [someMeet_select, hlast, hroute]
  split_ifs <;> rfl

theorem selCode_lt (score idx hdr groups n tpg dst addr : Nat) (topn gather routed : Bool) :
    selCode score idx hdr groups n tpg dst addr topn gather routed < 2 ^ 4 := by
  unfold selCode
  dsimp only
  split_ifs <;> decide

/-- Whether an address leads to a memory is a matter of the address alone. -/
theorem State.memoryRoute_isSome_congr (s t : State) (c : Lcn) (a : Nat) :
    (s.memoryRoute c a).isSome = (t.memoryRoute c a).isSome := by
  unfold State.memoryRoute
  split_ifs <;> rfl

/-- The code of a selection command's word. -/
def State.selWordCode (s : State) (c : Lcn) (v : Nat) : Nat :=
  selCode (v % 2 ^ 8) (v / 2 ^ 8 % 2 ^ 8) (v / 2 ^ 40 % 2 ^ 12 / 16) (v / 2 ^ 16 % 2 ^ 8) (v / 2 ^ 24 % 2 ^ 8)
    (s.get F.SPX_GATHER_CFG_TPG c.toNat) (s.get F.SPX_GATHER_CFG_DST c.toNat) (s.get F.SPX_GATHER_SRC_ADDR c.toNat)
    (v.testBit 33) (v.testBit 34) (s.memoryRoute c (s.get F.SPX_GATHER_SRC_ADDR c.toNat)).isSome

/-- The fields of a written selection command. -/
theorem State.get_selCmd (s : State) (c : Lcn) (v : Nat) :
    let w := s.writePlain .SPX_SEL_CMD c.toNat 0 v
    w.get F.SPX_SEL_CMD_SCORE c.toNat = v % 2 ^ 8 ∧ w.get F.SPX_SEL_CMD_IDX c.toNat = v / 2 ^ 8 % 2 ^ 8 ∧
      w.get F.SPX_SEL_CMD_GROUPS c.toNat = v / 2 ^ 16 % 2 ^ 8 ∧ w.get F.SPX_SEL_CMD_N c.toNat = v / 2 ^ 24 % 2 ^ 8 ∧
      w.get F.SPX_SEL_CMD_TOPN c.toNat = v / 2 ^ 33 % 2 ∧ w.get F.SPX_SEL_CMD_GATHER c.toNat = v / 2 ^ 34 % 2 ∧
      w.get F.SPX_SEL_CMD_TACK c.toNat = v / 2 ^ 35 % 2 ^ 5 ∧ w.get F.SPX_SEL_CMD_HDR16 c.toNat = v / 2 ^ 40 % 2 ^ 12 := by
  have hfield {f : Fld} (hacc : f.acc = .rw) (hrep : f.rep = 1)
      (hf : f ∈ Reg.SPX_SEL_CMD.fields := by simp [Reg.fields]) :=
    (selCmd_stands c).get_writePlain_field s v hf hacc hrep
  refine ⟨(hfield rfl rfl).trans ?_, hfield rfl rfl, hfield rfl rfl, hfield rfl rfl, hfield rfl rfl, hfield rfl rfl,
    hfield rfl rfl, hfield rfl rfl⟩
  rw [show F.SPX_SEL_CMD_SCORE.lo = 0 from rfl, pow_zero, Nat.div_one]
  rfl

/-- What the engine latches of its threshold and gather registers. -/
def State.selLatch (s : State) (c : Lcn) : SelLatch :=
  { thr := s.get F.SPX_SEL_THR_THR c.toNat, addr := s.get F.SPX_GATHER_SRC_ADDR c.toNat,
    stride := s.get F.SPX_GATHER_CFG_GSTRIDE c.toNat, tpg := s.get F.SPX_GATHER_CFG_TPG c.toNat,
    dst := s.get F.SPX_GATHER_CFG_DST c.toNat }

theorem State.selLatch_congr (h : s.fieldsKept w Reg.SPX_SEL_CMD.fields) : w.selLatch c = s.selLatch c := by
  have hget (f : Fld) (hf : f.id ∉ Reg.SPX_SEL_CMD.fields.map (·.id)) : w.get f c.toNat = s.get f c.toNat :=
    h f c.toNat 0 hf c.isLt (by decide)
  rw [State.selLatch, hget _ (by decide), hget _ (by decide), hget _ (by decide), hget _ (by decide), hget _ (by decide),
    State.selLatch]

theorem State.selError_writePlain (s : State) (c : Lcn) (v : Nat) :
    (s.writePlain .SPX_SEL_CMD c.toNat 0 v).selError c = codeOr (s.selWordCode c v) := by
  obtain ⟨hscore, hidx, hgroups, hn, htopn, hgather, -, hhdr⟩ := s.get_selCmd c v
  have hget (f : Fld) (hf : f.id ∉ Reg.SPX_SEL_CMD.fields.map (·.id)) :=
    (selCmd_stands c).fieldsKept_writePlain s v f c.toNat 0 hf c.isLt (by decide)
  rw [State.selError_eq_codeOr, hscore, hidx, hgroups, hn, hhdr, flag_of_bit htopn, flag_of_bit hgather,
    hget F.SPX_GATHER_CFG_TPG (by decide), hget F.SPX_GATHER_CFG_DST (by decide), hget F.SPX_GATHER_SRC_ADDR (by decide),
    State.memoryRoute_isSome_congr _ s, State.selWordCode]

theorem State.writeSelCmd_starts (hbusy : s.get F.SPX_SEL_STAT_BUSY c.toNat ≠ 1) (v : Word) :
    s.starts (s.writePlain .SPX_SEL_CMD c.toNat 0 v.toNat) (s.writeSelCmd c v.toNat) c selectionStatus v.msb
        (s.selWordCode c v.toNat) (v.toNat / 2 ^ 35 % 32) ∧
      (v.msb = true → ((s.writeSelCmd c v.toNat).core c).sel =
        if s.selWordCode c v.toNat = 0 then some (s.selLatch c) else none) := by
  have hunfold : s.writeSelCmd c v.toNat =
      let w := s.writePlain .SPX_SEL_CMD c.toNat 0 v.toNat
      if v.toNat.testBit 63 then
        match w.selError c with
        | some e => w.selEnd c (some e)
        | none => (w.put F.SPX_SEL_STAT_BUSY 1 c.toNat).setCore c { w.core c with sel := some (w.selLatch c) }
      else w := by
    rw [State.writeSelCmd]
    dsimp only
    rw [if_neg (by simpa [State.flag] using hbusy)]
    cases v.toNat.testBit 63 <;> rfl
  obtain ⟨-, -, -, -, -, -, htack, -⟩ := s.get_selCmd c v.toNat
  have hcmd := (selCmd_stands c).fieldsKept_writePlain s v.toNat
  obtain ⟨hthreads, hsram, -⟩ := (s.regsOnly_writePlain .SPX_SEL_CMD c.toNat 0 v.toNat).kept
  rw [hunfold, Word.testBit_top]
  dsimp only
  rw [State.selError_writePlain]
  generalize s.writePlain .SPX_SEL_CMD c.toNat 0 v.toNat = w at *
  cases v.msb with
  | false => exact ⟨⟨fun _ _ _ _ _ _ => rfl, hsram, fun _ => rfl, nofun, nofun⟩, nofun⟩
  | true =>
    rw [if_pos rfl]
    obtain ⟨hcode, hor⟩ | ⟨hcode, hor⟩ := codeOr_cases (s.selWordCode c v.toNat)
    · rw [hor]
      refine ⟨⟨?_, hsram, nofun, fun _ _ => ⟨?_, hthreads⟩, fun _ h => absurd hcode h⟩, fun _ => ?_⟩
      · exact (w.fieldsKept_put_core F.SPX_SEL_STAT_BUSY 1 c).mono (by simp [EngineStatus.fields, selectionStatus])
      · exact State.get_put_same w F.SPX_SEL_STAT_BUSY 1 c.toNat 0
      · rw [if_pos hcode]
        dsimp only
        rw [State.core_setCore_same, State.selLatch_congr hcmd]
    · obtain ⟨hends, hkept, hsel, _, _, _, hrest⟩ := w.selEnd_spec c (some (s.selWordCode c v.toNat))
      rw [htack, Nat.mod_mod_of_dvd _ (by decide)] at hends
      rw [hor]
      refine ⟨⟨hkept, ?_, nofun, fun _ h => absurd h hcode, fun _ _ => ?_⟩, fun _ => ?_⟩
      · dsimp only
        rw [hrest]
        exact hsram
      · exact hends.of_kept hcmd (Nat.mod_lt _ (by decide)) (by decide) (by decide)
      · rw [if_neg hcode]
        exact hsel

end

end Sys2Proof.Machine
end

section
/-!
PROOFS. The tiles that the compressor and the selection engine write: index tiles, the 2:4 form, and the order of
magnitudes (O38).
-/

namespace Sys2Proof.Machine

/-! ### Numbers set side by side -/

theorem add_two_pow_mul_lt {a b m n : Nat} (ha : a < 2 ^ m) (hb : b < 2 ^ n) : a + 2 ^ m * b < 2 ^ (m + n) :=
  calc a + 2 ^ m * b < 2 ^ m * (b + 1) := by rw [Nat.mul_add]; omega
    _ ≤ 2 ^ m * 2 ^ n := Nat.mul_le_mul_left _ hb
    _ = 2 ^ (m + n) := (Nat.pow_add ..).symm

theorem add_two_pow_mul_low {a m : Nat} (ha : a < 2 ^ m) (b : Nat) {i w : Nat} (h : i + w ≤ m) :
    (a + 2 ^ m * b) / 2 ^ i % 2 ^ w = a / 2 ^ i % 2 ^ w := by
  obtain ⟨n, rfl⟩ := Nat.exists_eq_add_of_le h
  have hsplit : a + 2 ^ (i + w + n) * b = a + 2 ^ i * (2 ^ w * (2 ^ n * b)) := by ring
  rw [hsplit, Nat.add_mul_div_left _ _ (by positivity), Nat.add_mul_mod_self_left]

theorem add_two_pow_mul_high {a m : Nat} (ha : a < 2 ^ m) (b i : Nat) : (a + 2 ^ m * b) / 2 ^ (m + i) = b / 2 ^ i := by
  rw [Nat.pow_add, ← Nat.div_div_eq_div_mul, Nat.add_mul_div_left _ _ (by positivity), Nat.div_eq_of_lt ha, Nat.zero_add]

/-! ### Index tiles (06 Table 6.2) -/

section
variable {l : List Nat} {n : Nat}

theorem sum_two_pow_testBit (hl : l.Pairwise (· < ·)) (k : Nat) : (l.map fun k => 2 ^ k).sum.testBit k = decide (k ∈ l) := by
  rw [Bool.eq_iff_iff, ← Nat.mem_bitIndices, decide_eq_true_iff, Nat.bitIndices_sum_map_two_pow hl.sortedLT]

theorem sum_two_pow_lt (hl : l.Pairwise (· < ·)) (hlt : ∀ k ∈ l, k < n) : (l.map fun k => 2 ^ k).sum < 2 ^ n :=
  Nat.lt_pow_two_of_testBit _ fun i hi => by
    rw [sum_two_pow_testBit hl, decide_eq_false_iff_not]
    exact fun h => absurd (hlt i h) (by omega)

theorem length_le_of_sorted (hl : l.Pairwise (· < ·)) (hlt : ∀ k ∈ l, k < n) : l.length ≤ n := by
  have hsub := List.subperm_of_subset (hl.imp Nat.ne_of_lt) fun k hk => List.mem_range.2 (hlt k hk)
  simpa using hsub.length_le

theorem indexTile_toNat (hl : l.Pairwise (· < ·)) (hlt : ∀ k ∈ l, k < 128) :
    (indexTile l).toNat = (l.map fun k => 2 ^ k).sum + 2 ^ 128 * packBits 8 l := by
  have hlen := length_le_of_sorted hl hlt
  exact toNat_ofNat_of_lt (add_two_pow_mul_lt (sum_two_pow_lt hl hlt) (packBits_lt 8 l)) (by omega)

theorem indexTile_bit (hl : l.Pairwise (· < ·)) (hlt : ∀ k ∈ l, k < 128) {k : Nat} (hk : k < 128) :
    (indexTile l).getLsbD k = decide (k ∈ l) := by
  rw [BitVec.getLsbD, indexTile_toNat hl hlt, Nat.add_comm, Nat.testBit_two_pow_mul_add _ (sum_two_pow_lt hl hlt), if_pos hk,
    sum_two_pow_testBit hl]

theorem indexTile_entry (hl : l.Pairwise (· < ·)) (hlt : ∀ k ∈ l, k < 128) {i k : Nat} (hi : l[i]? = some k) :
    (indexTile l).toNat / 2 ^ (128 + 8 * i) % 2 ^ 8 = k := by
  have hk := hlt k (List.mem_of_getElem? hi)
  rw [indexTile_toNat hl hlt, add_two_pow_mul_high (sum_two_pow_lt hl hlt), packBits_elem, hi, Option.getD_some]
  exact Nat.mod_eq_of_lt (by omega)

end

/-! ### The order of magnitudes (06 R236) -/

/-- The magnitude of a number, an infinity above every finite one and a NaN above both. -/
def Num.magnitude : Num → ℕ ×ₗ ℚ
  | .fin _ m e => toLex (0, valueOf false m e)
  | .inf _ => toLex (1, 0)
  | _ => toLex (2, 0)

/-- A number without its sign. -/
def Num.abs (x : Num) : Num := if x.sign then x.neg else x

theorem Num.abs_fin (b : Bool) (m : Nat) (e : Int) : (Num.fin b m e).abs = .fin false m e := by cases b <;> rfl

theorem Num.abs_inf (b : Bool) : (Num.inf b).abs = .inf false := by cases b <;> rfl

theorem Num.abs_nan : Num.nan.abs = .nan := rfl

/-- The magnitude of an element. -/
def magnitudeOf (fmt a : Nat) : ℕ ×ₗ ℚ := (decodeElem fmt a).1.magnitude

theorem magnitudeLess_iff (fmt a b : Nat) : magnitudeLess fmt a b = true ↔ magnitudeOf fmt a < magnitudeOf fmt b := by
  have hunfold : magnitudeLess fmt a b = if (decodeElem fmt a).1.abs.isNan then false
      else if (decodeElem fmt b).1.abs.isNan then true else (decodeElem fmt a).1.abs.less (decodeElem fmt b).1.abs := rfl
  have ha := decodeElem_valid fmt a
  have hb := decodeElem_valid fmt b
  rw [hunfold, magnitudeOf, magnitudeOf]
  generalize (decodeElem fmt a).1 = x at *
  generalize (decodeElem fmt b).1 = y at *
  match x, y with
  | .invalid, _ => exact absurd rfl ha
  | _, .invalid => exact absurd rfl hb
  | .nan, .nan => simp [Num.abs_nan, Num.isNan]
  | .nan, .inf _ => simp [Num.abs_nan, Num.isNan, Num.magnitude, Prod.Lex.toLex_lt_toLex]
  | .nan, .fin _ _ _ => simp [Num.abs_nan, Num.isNan, Num.magnitude, Prod.Lex.toLex_lt_toLex]
  | .inf _, .nan => simp [Num.abs_inf, Num.abs_nan, Num.isNan, Num.magnitude, Prod.Lex.toLex_lt_toLex]
  | .fin _ _ _, .nan => simp [Num.abs_fin, Num.abs_nan, Num.isNan, Num.magnitude, Prod.Lex.toLex_lt_toLex]
  | .inf _, .inf _ => simp [Num.abs_inf, Num.isNan, Num.less, Num.magnitude]
  | .inf _, .fin _ _ _ => simp [Num.abs_inf, Num.abs_fin, Num.isNan, Num.less, Num.magnitude, Prod.Lex.toLex_lt_toLex]
  | .fin _ _ _, .inf _ => simp [Num.abs_inf, Num.abs_fin, Num.isNan, Num.less, Num.magnitude, Prod.Lex.toLex_lt_toLex]
  | .fin _ _ _, .fin _ _ _ =>
    simp [Num.abs_fin, Num.isNan, Num.less_fin_iff, Num.magnitude, Prod.Lex.toLex_lt_toLex]

/-! ### The two that a group keeps (06 R236) -/

/-- Of two places, the first goes before the second: it holds the larger magnitude, or as large a one and is the lower. -/
def goesBefore (fmt : Nat) (x : Nat → Nat) (p q : Nat) : Bool :=
  magnitudeLess fmt (x q) (x p) || (!magnitudeLess fmt (x p) (x q) && decide (p < q))

theorem goesBefore_iff (fmt : Nat) (x : Nat → Nat) (p q : Nat) : goesBefore fmt x p q = true ↔
    magnitudeLess fmt (x p) (x q) = false ∧ (magnitudeLess fmt (x q) (x p) = true ∨ p < q) := by
  have hasymm : magnitudeLess fmt (x q) (x p) = true → magnitudeLess fmt (x p) (x q) = false := fun h => by
    rw [magnitudeLess_iff] at h
    rw [← Bool.not_eq_true, magnitudeLess_iff]
    exact h.asymm
  simp only [goesBefore, Bool.or_eq_true, Bool.and_eq_true, Bool.not_eq_true', decide_eq_true_iff]
  tauto

/-- A place's rank: its magnitude, the larger the lower, then the place. -/
def rankOf (fmt : Nat) (x : Nat → Nat) (p : Nat) : (ℕ ×ₗ ℚ)ᵒᵈ ×ₗ ℕ := toLex (OrderDual.toDual (magnitudeOf fmt (x p)), p)

theorem rankOf_injective (fmt : Nat) (x : Nat → Nat) : Function.Injective (rankOf fmt x) := fun _ _ h =>
  congrArg (fun r => (ofLex r).2) h

theorem goesBefore_iff_rank (fmt : Nat) (x : Nat → Nat) (p q : Nat) :
    goesBefore fmt x p q = true ↔ rankOf fmt x p < rankOf fmt x q := by
  rw [goesBefore_iff, ← Bool.not_eq_true, magnitudeLess_iff, magnitudeLess_iff, rankOf, rankOf, Prod.Lex.toLex_lt_toLex,
    OrderDual.toDual_lt_toDual, OrderDual.toDual_inj, not_lt]
  constructor
  · rintro ⟨hle, hlt | hlt⟩
    · exact .inl hlt
    · exact hle.lt_or_eq.imp_right fun h => ⟨h.symm, hlt⟩
  · rintro (hlt | ⟨heq, hlt⟩)
    · exact ⟨hlt.le, .inl hlt⟩
    · exact ⟨heq.ge, .inr hlt⟩

/-- The other places of four that go before one. -/
def ahead (before : Nat → Nat → Bool) (p : Nat) : List Nat := (List.range 4).filter fun q => q != p && before q p

/-- The places of four that fewer than two others go before. -/
def firstTwo (before : Nat → Nat → Bool) : List Nat := (List.range 4).filter fun p => decide ((ahead before p).length < 2)

theorem keepTwo_eq (fmt : Nat) (g : List Nat) : keepTwo fmt g = firstTwo (goesBefore fmt fun p => (g[p]?).getD 0) := rfl

/-- Two places that go before the two others. -/
def Leads (before : Nat → Nat → Bool) (p q : Nat) : Prop :=
  p < q ∧ q < 4 ∧ ∀ r < 4, r ≠ p → r ≠ q → before p r = true ∧ before q r = true

section
variable {before : Nat → Nat → Bool} {p q : Nat}

theorem mem_ahead {r : Nat} : r ∈ ahead before p ↔ r < 4 ∧ r ≠ p ∧ before r p = true := by simp [ahead]

theorem nodup_ahead : (ahead before p).Nodup := List.nodup_range.filter _

theorem filter_pair : ∀ q < 4, ∀ p < q, (List.range 4).filter (fun r => decide (r = p ∨ r = q)) = [p, q] := by decide

/-- The two that go before the others are the two that are kept. -/
theorem firstTwo_of_leads (hanti : ∀ i j, before i j = true → before j i = false) (h : Leads before p q) :
    firstTwo before = [p, q] := by
  obtain ⟨hpq, hq, hlead⟩ := h
  have hone {m o : Nat} (hm : ∀ r < 4, r ≠ m → r ≠ o → before m r = true) : (ahead before m).length < 2 := by
    have hsub : (ahead before m).Subperm [o] := List.subperm_of_subset nodup_ahead fun r hr => by
      obtain ⟨hr4, hrm, hbefore⟩ := mem_ahead.1 hr
      by_contra hro
      rw [List.mem_singleton] at hro
      exact absurd hbefore (by simp [hanti m r (hm r hr4 hrm hro)])
    exact Nat.lt_succ_of_le hsub.length_le
  rw [firstTwo, ← filter_pair q hq p hpq]
  refine List.filter_congr fun r hr => ?_
  rw [List.mem_range] at hr
  rw [decide_eq_decide]
  constructor
  · intro hlt
    by_contra hrest
    rw [not_or] at hrest
    obtain ⟨hp, hq'⟩ := hlead r hr hrest.1 hrest.2
    have hsub : [p, q].Subperm (ahead before r) := List.subperm_of_subset (by simp [hpq.ne]) (by
      simp [mem_ahead, hp, hq', Ne.symm hrest.1, Ne.symm hrest.2]
      omega)
    exact absurd hsub.length_le (by simpa using hlt)
  · rintro (rfl | rfl)
    · exact hone (o := q) fun i hi hip hiq => (hlead i hi hip hiq).1
    · exact hone (o := p) fun i hi hiq hip => (hlead i hi hip hiq).2

/-- Of four places in a total order, two go before the others. -/
theorem exists_leads {α : Type} [LinearOrder α] {rank : Nat → α} (hinj : Function.Injective rank)
    (hbefore : ∀ p q, before p q = true ↔ rank p < rank q) : ∃ p q, Leads before p q := by
  obtain ⟨a, ha, hfirst⟩ := (Finset.range 4).exists_min_image rank ⟨0, by simp⟩
  have hrest : ((Finset.range 4).erase a).Nonempty := by
    rw [← Finset.card_pos, Finset.card_erase_of_mem ha]
    simp
  obtain ⟨b, hb, hsecond⟩ := ((Finset.range 4).erase a).exists_min_image rank hrest
  simp only [Finset.mem_erase, Finset.mem_range] at ha hb hfirst hsecond
  have hlead (r : Nat) (hr : r < 4) (hra : r ≠ a) (hrb : r ≠ b) : before a r = true ∧ before b r = true := by
    rw [hbefore, hbefore]
    exact ⟨(hfirst r hr).lt_of_ne (hinj.ne hra.symm), (hsecond r ⟨hra, hr⟩).lt_of_ne (hinj.ne hrb.symm)⟩
  obtain hab | hab := Nat.lt_or_gt_of_ne hb.1
  · exact ⟨b, a, hab, ha, fun r hr hrb hra => (hlead r hr hra hrb).symm⟩
  · exact ⟨a, b, hab, hb.2, hlead⟩

end

/-! ### The 2:4 form (06 R213, R236) -/

theorem getElem?_flatMap_const {α β : Type} {f : α → List β} {d : Nat} : ∀ {l : List α}, (∀ a ∈ l, (f a).length = d) →
    ∀ {i : Nat}, i < d → ∀ n, (l.flatMap f)[n * d + i]? = (l[n]?).bind fun a => (f a)[i]?
  | [], _, _, _, _ => by simp
  | a :: l, hf, i, hi, n => by
    obtain ⟨ha, hl⟩ := List.forall_mem_cons.1 hf
    rw [List.flatMap_cons]
    cases n with
    | zero => simp [List.getElem?_append_left, ha, hi]
    | succ n =>
      have hle : (f a).length ≤ (n + 1) * d + i := by rw [ha, Nat.succ_mul]; omega
      have hsub : (n + 1) * d + i - (f a).length = n * d + i := by rw [ha, Nat.succ_mul]; omega
      rw [List.getElem?_append_right hle, hsub, getElem?_flatMap_const hl hi]
      rfl

theorem length_flatMap_const {α β : Type} {f : α → List β} {d : Nat} {l : List α} (hf : ∀ a ∈ l, (f a).length = d) :
    (l.flatMap f).length = l.length * d := by
  rw [List.length_flatMap, List.map_congr_left hf]
  simp

/-- A group of four elements of a tile. -/
def groupOf (fmt : Nat) (t : Tile) (g : Nat) : List Nat := ((tileElems fmt t).drop (4 * g)).take 4

/-- An element of a group, by its place. -/
def groupElem (fmt : Nat) (t : Tile) (g p : Nat) : Nat := ((groupOf fmt t g)[p]?).getD 0

section
variable {fmt : Nat} {t : Tile} {g p q : Nat}

theorem groupElem_eq (hg : g < fmtCount fmt / 4) (hp : p < 4) : groupElem fmt t g p = tileElem fmt t (4 * g + p) := by
  have hlt : 4 * g + p < fmtCount fmt := by omega
  simp [groupElem, groupOf, tileElems, hp, hlt]

theorem pruneTile_eq (fmt : Nat) (t : Tile) : pruneTile fmt t =
    (BitVec.ofNat 2048 (packBits (fmtWidth fmt) ((List.range (fmtCount fmt / 4)).flatMap fun g =>
        (keepTwo fmt (groupOf fmt t g)).map (groupElem fmt t g)) +
      2 ^ 1024 * packBits 2 ((List.range (fmtCount fmt / 4)).flatMap fun g => keepTwo fmt (groupOf fmt t g))),
    (List.range (fmtCount fmt / 4)).any fun g => (List.range 4).any fun p =>
      !(keepTwo fmt (groupOf fmt t g)).contains p && !elemIsZero fmt (groupElem fmt t g p)) := by
  simp only [pruneTile, List.map_map, List.flatMap_map, List.any_map]
  rfl

/-- The two places that a group keeps, for the elements of a tile. -/
def LeadsGroup (fmt : Nat) (t : Tile) (g p q : Nat) : Prop :=
  Leads (goesBefore fmt fun i => tileElem fmt t (4 * g + i)) p q

theorem goesBefore_anti (fmt : Nat) (x : Nat → Nat) (i j : Nat) (h : goesBefore fmt x i j = true) :
    goesBefore fmt x j i = false := by
  rw [goesBefore_iff_rank] at h
  rw [← Bool.not_eq_true, goesBefore_iff_rank]
  exact h.asymm

theorem leads_groupElem_iff (hg : g < fmtCount fmt / 4) :
    Leads (goesBefore fmt (groupElem fmt t g)) p q ↔ LeadsGroup fmt t g p q := by
  refine and_congr_right fun hpq => and_congr_right fun hq => forall₄_congr fun r hr hrp hrq => ?_
  simp only [goesBefore, groupElem_eq hg hr, groupElem_eq hg hq, groupElem_eq hg (hpq.trans hq)]

theorem keepTwo_groupOf (hg : g < fmtCount fmt / 4) (h : LeadsGroup fmt t g p q) : keepTwo fmt (groupOf fmt t g) = [p, q] :=
  firstTwo_of_leads (goesBefore_anti fmt _) ((leads_groupElem_iff hg).2 h)

theorem exists_leadsGroup (fmt : Nat) (t : Tile) (g : Nat) : ∃ p q, LeadsGroup fmt t g p q :=
  exists_leads (rankOf_injective fmt _) (goesBefore_iff_rank fmt _)

theorem length_keepTwo (hg : g < fmtCount fmt / 4) : (keepTwo fmt (groupOf fmt t g)).length = 2 := by
  obtain ⟨p, q, h⟩ := exists_leadsGroup fmt t g
  rw [keepTwo_groupOf hg h]
  rfl

/-- Both halves of a tile in the 2:4 form fit. -/
theorem prune_fits : ∀ fmt ≤ 7, fmtWidth fmt * (fmtCount fmt / 4 * 2) ≤ 1024 ∧ 2 * (fmtCount fmt / 4 * 2) ≤ 1024 := by
  decide

/-- The elements that a tile's groups keep, and their places. -/
def keptElems (fmt : Nat) (t : Tile) : List Nat :=
  (List.range (fmtCount fmt / 4)).flatMap fun g => (keepTwo fmt (groupOf fmt t g)).map (groupElem fmt t g)

def keptPlaces (fmt : Nat) (t : Tile) : List Nat :=
  (List.range (fmtCount fmt / 4)).flatMap fun g => keepTwo fmt (groupOf fmt t g)

theorem length_keptElems (fmt : Nat) (t : Tile) : (keptElems fmt t).length = fmtCount fmt / 4 * 2 := by
  rw [keptElems, length_flatMap_const fun g hg => by rw [List.length_map, length_keepTwo (List.mem_range.1 hg)],
    List.length_range]

theorem length_keptPlaces (fmt : Nat) (t : Tile) : (keptPlaces fmt t).length = fmtCount fmt / 4 * 2 := by
  rw [keptPlaces, length_flatMap_const fun g hg => length_keepTwo (List.mem_range.1 hg), List.length_range]

theorem keptElems_getElem? (hg : g < fmtCount fmt / 4) (h : LeadsGroup fmt t g p q) {i : Nat} (hi : i < 2) :
    (keptElems fmt t)[2 * g + i]? = [tileElem fmt t (4 * g + p), tileElem fmt t (4 * g + q)][i]? := by
  have hq : q < 4 := h.2.1
  have hp : p < 4 := h.1.trans hq
  rw [keptElems, Nat.mul_comm, getElem?_flatMap_const
    (fun g hg => by rw [List.length_map, length_keepTwo (List.mem_range.1 hg)]) hi, List.getElem?_range hg, Option.bind_some,
    keepTwo_groupOf hg h, List.map_cons, List.map_cons, List.map_nil, groupElem_eq hg hp, groupElem_eq hg hq]

theorem keptPlaces_getElem? (hg : g < fmtCount fmt / 4) (h : LeadsGroup fmt t g p q) {i : Nat} (hi : i < 2) :
    (keptPlaces fmt t)[2 * g + i]? = [p, q][i]? := by
  rw [keptPlaces, Nat.mul_comm, getElem?_flatMap_const (fun g hg => length_keepTwo (List.mem_range.1 hg)) hi,
    List.getElem?_range hg, Option.bind_some, keepTwo_groupOf hg h]

/-- Element and place `i` of a tile in the 2:4 form. -/
theorem pruneTile_entry (hfmt : fmt ≤ 7) {i : Nat} (hi : i < fmtCount fmt / 4 * 2) :
    (pruneTile fmt t).1.toNat / 2 ^ (fmtWidth fmt * i) % 2 ^ fmtWidth fmt =
        (keptElems fmt t)[i]?.getD 0 % 2 ^ fmtWidth fmt ∧
      (pruneTile fmt t).1.toNat / 2 ^ (1024 + 2 * i) % 2 ^ 2 = (keptPlaces fmt t)[i]?.getD 0 % 2 ^ 2 := by
  obtain ⟨hw, hc⟩ := prune_fits fmt hfmt
  have hpow {m n : Nat} (h : m ≤ n) : 2 ^ m ≤ 2 ^ n := Nat.pow_le_pow_right (by decide) h
  have helems : packBits (fmtWidth fmt) (keptElems fmt t) < 2 ^ 1024 :=
    (packBits_lt _ _).trans_le (hpow (by rwa [length_keptElems]))
  have hplaces : packBits 2 (keptPlaces fmt t) < 2 ^ 1024 :=
    (packBits_lt _ _).trans_le (hpow (by rwa [length_keptPlaces]))
  have hbits : (pruneTile fmt t).1.toNat = packBits (fmtWidth fmt) (keptElems fmt t) +
      2 ^ 1024 * packBits 2 (keptPlaces fmt t) := by
    rw [pruneTile_eq]
    exact toNat_ofNat_of_lt (add_two_pow_mul_lt helems hplaces) (by decide)
  have hfit : fmtWidth fmt * i + fmtWidth fmt ≤ 1024 :=
    (Nat.mul_le_mul_left (fmtWidth fmt) (Nat.succ_le_of_lt hi)).trans hw
  rw [hbits, add_two_pow_mul_low helems _ hfit, add_two_pow_mul_high helems, packBits_elem, packBits_elem]
  exact ⟨rfl, rfl⟩

/-- A group of a tile in the 2:4 form: its two elements and their places. -/
theorem pruneTile_group (hfmt : fmt ≤ 7) (hg : g < fmtCount fmt / 4) (h : LeadsGroup fmt t g p q) :
    let x := (pruneTile fmt t).1.toNat
    let at_ (i : Nat) := x / 2 ^ (fmtWidth fmt * i) % 2 ^ fmtWidth fmt
    let code (i : Nat) := x / 2 ^ (1024 + 2 * i) % 4
    at_ (2 * g) = tileElem fmt t (4 * g + p) ∧ at_ (2 * g + 1) = tileElem fmt t (4 * g + q) ∧
      code (2 * g) = p ∧ code (2 * g + 1) = q := by
  have hq : q < 4 := h.2.1
  have hp : p < 4 := h.1.trans hq
  obtain ⟨helem0, hplace0⟩ := pruneTile_entry (t := t) hfmt (i := 2 * g + 0) (by omega)
  obtain ⟨helem1, hplace1⟩ := pruneTile_entry (t := t) hfmt (i := 2 * g + 1) (by omega)
  rw [keptElems_getElem? hg h (by decide)] at helem0 helem1
  rw [keptPlaces_getElem? hg h (by decide)] at hplace0 hplace1
  exact ⟨helem0.trans (Nat.mod_eq_of_lt (tileElem_lt ..)), helem1.trans (Nat.mod_eq_of_lt (tileElem_lt ..)),
    hplace0.trans (Nat.mod_eq_of_lt hp), hplace1.trans (Nat.mod_eq_of_lt hq)⟩

/-- Beside the two that its group keeps stands an element that is no zero. -/
def dropsElement (fmt : Nat) (t : Tile) : Prop := ∃ g p q r, g < fmtCount fmt / 4 ∧ LeadsGroup fmt t g p q ∧ r < 4 ∧
  r ≠ p ∧ r ≠ q ∧ elemIsZero fmt (tileElem fmt t (4 * g + r)) = false

theorem pruneTile_lost : (pruneTile fmt t).2 = true ↔ dropsElement fmt t := by
  rw [pruneTile_eq]
  simp only [List.any_eq_true, List.mem_range, Bool.and_eq_true, Bool.not_eq_true']
  constructor
  · rintro ⟨g, hg, r, hr, hdropped, hzero⟩
    obtain ⟨p, q, h⟩ := exists_leadsGroup fmt t g
    rw [keepTwo_groupOf hg h] at hdropped
    rw [groupElem_eq hg hr] at hzero
    simp only [List.contains_eq_mem, List.mem_cons, List.not_mem_nil, or_false, decide_eq_false_iff_not, not_or] at hdropped
    exact ⟨g, p, q, r, hg, h, hr, hdropped.1, hdropped.2, hzero⟩
  · rintro ⟨g, p, q, r, hg, h, hr, hrp, hrq, hzero⟩
    refine ⟨g, hg, r, hr, ?_, ?_⟩
    · rw [keepTwo_groupOf hg h]
      simp [hrp, hrq]
    · rw [groupElem_eq hg hr, hzero]

end

end Sys2Proof.Machine
end

section
/-!
PROOFS. The compressor's run (O38): the stripe in the smaller form, its header and its status.
-/

namespace Sys2Proof.Machine

section
variable {s t w : State} {c : Lcn}

/-! ### What a run writes (06 R234 to R236) -/

/-- What the compressor's command names: first source and destination tile, count of source tiles, format, whether tiles
are written in the 2:4 form, and the byte of the header. -/
def State.cmpSrc (s : State) (c : Lcn) : Nat := s.get F.SPX_CMP_CMD_SRC c.toNat

def State.cmpDst (s : State) (c : Lcn) : Nat := s.get F.SPX_CMP_CMD_DST c.toNat

def State.cmpSpan (s : State) (c : Lcn) : Nat := s.get F.SPX_CMP_CMD_SPAN c.toNat

def State.cmpFmt (s : State) (c : Lcn) : Nat := s.get F.SPX_CMP_CMD_FMT c.toNat

def State.cmpPrunes (s : State) (c : Lcn) : Bool := s.flag F.SPX_CMP_CMD_PRUNE24 c.toNat

def State.cmpHeaderAt (s : State) (c : Lcn) : Nat := 16 * s.get F.SPX_CMP_CMD_HDR16 c.toNat

/-- Source tile `k` of the compressor's command. -/
def State.cmpTile (s : State) (c : Lcn) (k : Nat) : Tile := s.readTile c (s.cmpSrc c + k)

/-- The source tiles that are present. -/
def State.cmpPresent (s : State) (c : Lcn) : List Nat :=
  (List.range (s.cmpSpan c)).filter fun k =>
    (tileElems (s.cmpFmt c) (s.cmpTile c k)).any fun x =>
      !elemIsZero (s.cmpFmt c) x

/-- The sparse form is no larger than the dense one. -/
def State.cmpSparse (s : State) (c : Lcn) : Bool :=
  decide (1 + (s.cmpPresent c).length ≤ s.cmpSpan c)

/-- The source tiles that are written. -/
def State.cmpWritten (s : State) (c : Lcn) : List Nat :=
  if s.cmpSparse c then s.cmpPresent c else List.range (s.cmpSpan c)

/-- A source tile as it is written, and whether an element that is no zero was dropped from it. -/
def State.cmpEntry (s : State) (c : Lcn) (k : Nat) : Tile × Bool :=
  if s.cmpPrunes c then pruneTile (s.cmpFmt c) (s.cmpTile c k)
  else (s.cmpTile c k, false)

/-- Some written tile lost an element that is no zero. -/
def State.cmpLost (s : State) (c : Lcn) : Bool := (s.cmpWritten c).any fun k => (s.cmpEntry c k).2

/-- The state with the stripe's tiles written. -/
def State.cmpStored (s : State) (c : Lcn) : State :=
  let dst := s.cmpDst c
  let w := s.writeTiles c (if s.cmpSparse c then dst + 1 else dst) ((s.cmpWritten c).map fun k => (s.cmpEntry c k).1)
  if s.cmpSparse c then w.writeTile c dst (indexTile (s.cmpPresent c)) else w

/-- The stripe's header. -/
def State.cmpHeader (s : State) (c : Lcn) : Nat :=
  headerBits (bit (s.cmpSparse c)) (s.cmpPrunes c) (s.cmpSpan c)
    (if s.cmpSparse c then (s.cmpPresent c).length else 0) (s.cmpDst c)

/-- What a run reports beside its end: whether it dropped elements, the form and the number of present tiles. -/
def State.cmpReport (s : State) (c : Lcn) (lost sparse : Bool) (p : Nat) : State :=
  ((if lost then s.put F.SPX_CMP_STAT_PRUNED 1 c.toNat else s).put F.SPX_CMP_STAT_DENSE (bit !sparse) c.toNat).put
    F.SPX_CMP_STAT_PRESENT p c.toNat

theorem State.cmpHeaderAt_aligned (s : State) (c : Lcn) : s.cmpHeaderAt c % 16 = 0 := Nat.mul_mod_right 16 _

theorem find?_bad_none (h : ∀ k < n, s.tileGood c (m + k) = true) :
    ((List.range n).find? fun k => !s.tileGood c (m + k)) = none := by
  rw [List.find?_eq_none]
  intro k hk
  simp [h k (List.mem_range.1 hk)]

theorem State.compress_good (h : ∀ k < s.cmpSpan c,
      s.tileGood c (s.cmpSrc c + k) = true) :
    s.compress c =
      let r := (s.cmpStored c).writePart c ((s.cmpStored c).cmpHeaderAt c) (s.cmpHeader c) 16
      (r.2.cmpReport c (s.cmpLost c) (s.cmpSparse c) (s.cmpPresent c).length).cmpEnd c
        (if r.1 then none else some 7) := by
  have hpresent : ((List.range (s.cmpSpan c)).map fun k =>
      (k, s.readTile c (s.cmpSrc c + k))).filter
      (fun e => !tileAbsent (s.cmpFmt c) e.2) =
      (s.cmpPresent c).map fun k => (k, s.readTile c (s.cmpSrc c + k)) := by
    rw [List.filter_map]
    refine congrArg _ (List.filter_congr fun k _ => ?_)
    simp [tileAbsent, List.not_all_eq_any_not, State.cmpTile]
  have hpositions : ((s.cmpPresent c).map fun k => (k, s.readTile c (s.cmpSrc c + k))).map (·.1) =
      s.cmpPresent c := by
    rw [List.map_map]
    exact List.map_id _
  have hsparse : decide (1 + (s.cmpPresent c).length ≤ s.cmpSpan c) = s.cmpSparse c := rfl
  have hdata : (if s.cmpSparse c = true then
        (s.cmpPresent c).map fun k => (k, s.readTile c (s.cmpSrc c + k))
      else (List.range (s.cmpSpan c)).map fun k =>
        (k, s.readTile c (s.cmpSrc c + k))).map
      (fun e => if s.cmpPrunes c = true then pruneTile (s.cmpFmt c) e.2
        else (e.2, false)) = (s.cmpWritten c).map (s.cmpEntry c) := by
    rw [← apply_ite (List.map fun k => (k, s.readTile c (s.cmpSrc c + k)))]
    exact List.map_map
  unfold State.compress
  dsimp only
  rw [← State.cmpSrc, ← State.cmpSpan, ← State.cmpFmt, ← State.cmpPrunes, find?_bad_none h]
  dsimp only
  rw [hpresent, List.length_map, hpositions, hsparse, hdata, List.map_map, List.any_map]
  rfl

theorem State.compress_bad (h : ∃ k < s.cmpSpan c,
      s.tileGood c (s.cmpSrc c + k) = false) :
    ∃ tile, s.compress c = (s.tileFailed c tile 3).cmpEnd c (some 7) := by
  obtain ⟨m, hm, hbad⟩ := h
  have hfind : ((List.range (s.cmpSpan c)).find? fun k =>
      !s.tileGood c (s.cmpSrc c + k)).isSome = true :=
    List.find?_isSome.2 ⟨m, List.mem_range.2 hm, by simp [hbad]⟩
  obtain ⟨k, hk⟩ := Option.isSome_iff_exists.1 hfind
  refine ⟨s.cmpSrc c + k, ?_⟩
  unfold State.compress
  dsimp only
  rw [← State.cmpSrc, ← State.cmpSpan, hk]

/-! ### The stripe's tiles -/

theorem State.cmpPresent_sorted (s : State) (c : Lcn) : (s.cmpPresent c).Pairwise (· < ·) :=
  List.pairwise_lt_range.filter _

theorem State.cmpPresent_lt (s : State) (c : Lcn) : ∀ k ∈ s.cmpPresent c, k < s.cmpSpan c :=
  fun _ hk => List.mem_range.1 (List.mem_of_mem_filter hk)

/-- Where a written source tile of the stripe stands: `i`-th of those written, after the index tile of the sparse form. -/
theorem State.cmpStored_spec (hdst : s.cmpDst c + s.cmpSpan c ≤ 256) :
    let dst := s.cmpDst c
    let t := s.cmpStored c
    s.stores t c (fun j => dst * 256 ≤ j ∧ j < (dst + s.cmpSpan c) * 256) ∧
      (∀ i k, (s.cmpWritten c)[i]? = some k →
        t.readTile c ((if s.cmpSparse c then dst + 1 else dst) + i) = (s.cmpEntry c k).1) ∧
      (s.cmpSparse c = true → t.readTile c dst = indexTile (s.cmpPresent c)) := by
  intro dst t
  have hread {l : List Nat} {i k : Nat} (hi : l[i]? = some k) :
      (l.map fun k => (s.cmpEntry c k).1)[i]? = some (s.cmpEntry c k).1 := by
    rw [List.getElem?_map, hi, Option.map_some]
  cases hform : s.cmpSparse c with
  | false =>
    have ht : t = s.writeTiles c dst ((s.cmpWritten c).map fun k => (s.cmpEntry c k).1) := by
      simp only [t, State.cmpStored, hform, Bool.false_eq_true, if_false, dst]
    have hlen : ((s.cmpWritten c).map fun k => (s.cmpEntry c k).1).length = s.cmpSpan c := by
      simp [State.cmpWritten, hform]
    obtain ⟨hstores, hreads⟩ := State.writeTiles_spec c ((s.cmpWritten c).map fun k => (s.cmpEntry c k).1) s dst
      (by rw [hlen]; exact hdst)
    rw [hlen] at hstores
    rw [ht]
    exact ⟨hstores, fun i k hi => hreads i _ (hread hi), nofun⟩
  | true =>
    have ht : t = (s.writeTiles c (dst + 1) ((s.cmpPresent c).map fun k => (s.cmpEntry c k).1)).writeTile c dst
        (indexTile (s.cmpPresent c)) := by
      simp only [t, State.cmpStored, State.cmpWritten, hform, if_true, dst]
    have hsmall : 1 + (s.cmpPresent c).length ≤ s.cmpSpan c := of_decide_eq_true hform
    obtain ⟨hstores, hreads⟩ := State.writeTiles_spec c ((s.cmpPresent c).map fun k => (s.cmpEntry c k).1) s (dst + 1)
      (by rw [List.length_map]; omega)
    rw [List.length_map] at hstores
    generalize s.writeTiles c (dst + 1) ((s.cmpPresent c).map fun k => (s.cmpEntry c k).1) = w at *
    have hindex := w.stores_writeTile c (k := dst) (indexTile (s.cmpPresent c)) (by omega)
    have hdata := hstores.mono (B := fun j => dst * 256 ≤ j ∧ j < (dst + s.cmpSpan c) * 256)
      fun j hj => ⟨by omega, by omega⟩
    rw [ht]
    refine ⟨hdata.trans (hindex.mono fun j hj => ⟨hj.1, by omega⟩), fun i k hi => ?_, fun _ => w.readTile_writeTile c dst _⟩
    have hk : (s.cmpPresent c)[i]? = some k := by simpa [State.cmpWritten, hform] using hi
    have hlt := (List.getElem?_eq_some_iff.1 hk).1
    rw [← hreads i _ (hread hk)]
    exact hindex.readTile (by simp only [if_true]; omega) fun j hlo hhi => by simp only [if_true] at hlo; omega

/-! ### The header (06 Table 6.1) -/

/-- What a write of a header leaves, as its tile passes its check or fails it: the registers of a failure at most, and the
header's bytes at most. -/
structure State.putsHeader (s w : State) (c : Lcn) (off v : Nat) : Prop where
  kept : s.fieldsKept w failureFields
  bytes : ∀ d j, ¬(d = c ∧ off ≤ j ∧ j < off + 16) → j < 2 ^ 16 → w.readSram d j 1 = s.readSram d j 1
  written : s.tileGood c (off / 256) = true → w.readSram c off 16 = v % 256 ^ 16 ∧ w.regs = s.regs
  unwritten : s.tileGood c (off / 256) = false → w.readSram c off 16 = s.readSram c off 16
  rest : ∃ regs watch darnQueue events badTiles cores sram damaged,
    w = { s with regs, watch, darnQueue, events, badTiles, cores, sram, damaged }

theorem State.writePart_header (s : State) (c : Lcn) {off : Nat} (v : Nat) (hoff : off + 16 ≤ 2 ^ 16) :
    (s.writePart c off v 16).1 = s.tileGood c (off / 256) ∧ s.putsHeader (s.writePart c off v 16).2 c off v := by
  cases hgood : s.tileGood c (off / 256) with
  | true =>
    have hstores := s.stores_writeSram c v hoff
    obtain ⟨_, _, _, _, hrest⟩ := hstores.rest
    rw [State.writePart_good v hgood]
    exact ⟨rfl, State.fieldsKept_of_regs hstores.regs _, hstores.kept,
      fun _ => ⟨s.readSram_writeSram c off v 16, hstores.regs⟩, fun h => by simp [hgood] at h, ⟨_, _, _, _, _, _, _, _, hrest⟩⟩
  | false =>
    have hnotes := s.notesFailure_tileFailed c (off / 256) (cause := 4) (by decide)
    obtain ⟨_, _, _, _, _, hrest⟩ := hnotes.rest
    rw [State.writePart_bad v hgood]
    exact ⟨rfl, hnotes.kept, fun d j _ _ => hnotes.readSram d j 1, fun h => by simp [hgood] at h,
      fun _ => hnotes.readSram c off 16, _, _, _, _, _, _, _, _, hrest⟩

/-- A tile beside a header's reads as before. -/
theorem State.putsHeader.readTile {off v k : Nat} (h : s.putsHeader w c off v) (hk : k < 256) (hal : off % 16 = 0)
    (hne : off / 256 ≠ k) : w.readTile c k = s.readTile c k := by
  unfold State.readTile
  rw [State.readSram_congr fun j hlo hhi => h.bytes c j (fun hj => by omega) (by omega)]

/-! ### The report of a run (06 R237) -/

/-- What is reported beside the end of a run. -/
def reportFields : List Fld := [F.SPX_CMP_STAT_PRUNED, F.SPX_CMP_STAT_DENSE, F.SPX_CMP_STAT_PRESENT]

theorem State.cmpReport_regs (s : State) (c : Lcn) (lost sparse : Bool) (p : Nat) :
    ∃ regs, s.cmpReport c lost sparse p = { s with regs } := by
  cases lost <;> exact ⟨_, rfl⟩

theorem State.fieldsKept_cmpReport (s : State) (c : Lcn) (lost sparse : Bool) (p : Nat) :
    s.fieldsKept (s.cmpReport c lost sparse p) reportFields := by
  have hlost : s.fieldsKept (if lost then s.put F.SPX_CMP_STAT_PRUNED 1 c.toNat else s) reportFields := by
    cases lost with
    | false => exact .refl s _
    | true => exact (s.fieldsKept_put_core _ 1 c).mono (by simp [reportFields])
  have hform {t : State} := (t.fieldsKept_put_core F.SPX_CMP_STAT_DENSE (bit !sparse) c).mono (l' := reportFields)
    (by simp [reportFields])
  have hpresent {t : State} := (t.fieldsKept_put_core F.SPX_CMP_STAT_PRESENT p c).mono (l' := reportFields)
    (by simp [reportFields])
  exact (hlost.trans_same hform).trans_same hpresent

theorem State.get_cmpReport (s : State) (c : Lcn) (lost sparse : Bool) (p : Nat) :
    let t := s.cmpReport c lost sparse p
    t.get F.SPX_CMP_STAT_PRESENT c.toNat = p % 2 ^ F.SPX_CMP_STAT_PRESENT.width ∧
      t.get F.SPX_CMP_STAT_DENSE c.toNat = (if sparse then 0 else 1) ∧
      t.get F.SPX_CMP_STAT_PRUNED c.toNat = if lost then 1 else s.get F.SPX_CMP_STAT_PRUNED c.toNat := by
  refine ⟨State.get_put_same .., ?_, ?_⟩
  · refine (State.get_put_core _ p c (by decide)).trans ((State.get_put_same ..).trans ?_)
    cases sparse <;> rfl
  · refine (State.get_put_core _ p c (by decide)).trans ((State.get_put_core _ _ c (by decide)).trans ?_)
    cases lost with
    | false => rfl
    | true => exact State.get_put_same ..

/-! ### A run's outcome -/

/-- What a run leaves of the memory. -/
structure State.cmpWrites (s w : State) (c : Lcn) : Prop where
  bytes : ∀ d j, ¬(d = c ∧ (s.cmpDst c * 256 ≤ j ∧
      j < (s.cmpDst c + s.cmpSpan c) * 256 ∨
      s.cmpHeaderAt c ≤ j ∧ j < s.cmpHeaderAt c + 16)) → j < 2 ^ 16 →
    w.readSram d j 1 = s.readSram d j 1
  tiles : ∀ i k, (s.cmpWritten c)[i]? = some k → w.readTile c ((if s.cmpSparse c then s.cmpDst c + 1
    else s.cmpDst c) + i) = (s.cmpEntry c k).1
  index : s.cmpSparse c = true → w.readTile c (s.cmpDst c) = indexTile (s.cmpPresent c)
  header : s.tileGood c (s.cmpHeaderAt c / 256) = true →
    w.readSram c (s.cmpHeaderAt c) 16 = s.cmpHeader c % 256 ^ 16
  noHeader : s.tileGood c (s.cmpHeaderAt c / 256) = false →
    w.readSram c (s.cmpHeaderAt c) 16 = s.readSram c (s.cmpHeaderAt c) 16

theorem State.cmpWrites.congr (h : s.cmpWrites w c) (hsram : t.sram = w.sram) : s.cmpWrites t c := by
  have hread (d : Lcn) (off n : Nat) : t.readSram d off n = w.readSram d off n := by
    rw [State.readSram, hsram, State.readSram]
  have htile (k : Nat) : t.readTile c k = w.readTile c k := by rw [State.readTile, hread, State.readTile]
  exact
    { bytes := fun d j hj hlt => (hread d j 1).trans (h.bytes d j hj hlt)
      tiles := fun i k hi => (htile _).trans (h.tiles i k hi)
      index := fun hform => (htile _).trans (h.index hform)
      header := fun hgood => (hread ..).trans (h.header hgood)
      noHeader := fun hbad => (hread ..).trans (h.noHeader hbad) }

/-- Where a tile of the stripe lies, within the stripe. -/
theorem State.cmpPlace_lt {i k : Nat} (hi : (s.cmpWritten c)[i]? = some k) :
    (if s.cmpSparse c then s.cmpDst c + 1 else s.cmpDst c) + i <
      s.cmpDst c + s.cmpSpan c := by
  have hlt := (List.getElem?_eq_some_iff.1 hi).1
  cases hform : s.cmpSparse c with
  | false =>
    simp only [State.cmpWritten, hform, Bool.false_eq_true, if_false, List.length_range] at hlt ⊢
    omega
  | true =>
    have hsmall : 1 + (s.cmpPresent c).length ≤ s.cmpSpan c := of_decide_eq_true hform
    simp only [State.cmpWritten, hform, if_true] at hlt ⊢
    omega

theorem State.compress_spec (hgood : ∀ k < s.cmpSpan c,
      s.tileGood c (s.cmpSrc c + k) = true)
    (hdst : s.cmpDst c + s.cmpSpan c ≤ 256)
    (hhdr : s.cmpHeaderAt c < 2 ^ 16)
    (hapart : ¬(s.cmpDst c ≤ s.cmpHeaderAt c / 256 ∧
      s.cmpHeaderAt c / 256 <
        s.cmpDst c + s.cmpSpan c)) :
    ∃ w, s.fieldsKept w failureFields ∧ s.cmpWrites w c ∧ s.compress c =
      (w.cmpReport c (s.cmpLost c) (s.cmpSparse c) (s.cmpPresent c).length).cmpEnd c
        (if s.tileGood c (s.cmpHeaderAt c / 256) then none else some 7) := by
  obtain ⟨hstores, htiles, hindex⟩ := s.cmpStored_spec hdst
  have hget : (s.cmpStored c).cmpHeaderAt c = s.cmpHeaderAt c :=
    congrArg (16 * ·) (State.get_congr hstores.regs F.SPX_CMP_CMD_HDR16 c.toNat 0)
  have heq := State.compress_good hgood
  rw [hget] at heq
  have hal := s.cmpHeaderAt_aligned c
  have hsame := hstores.good (s.cmpHeaderAt c / 256) fun j hj hin => hapart (by omega)
  have hhead := hstores.readSram_outside (off := s.cmpHeaderAt c) (n := 16)
    (fun j hlo hhi hin => hapart (by omega)) (by omega)
  obtain ⟨hok, hputs⟩ := (s.cmpStored c).writePart_header c (off := s.cmpHeaderAt c) (s.cmpHeader c)
    (by omega)
  dsimp only at heq
  rw [hok, hsame] at heq
  refine ⟨_, (State.fieldsKept_of_regs hstores.regs _).trans_same hputs.kept, ?_, heq⟩
  have htile {k : Nat} (hlo : s.cmpDst c ≤ k) (hhi : k < s.cmpDst c + s.cmpSpan c) :=
    hputs.readTile (k := k) (by omega) hal (by omega)
  exact
    { bytes := fun d j hj hlt => (hputs.bytes d j (fun h => hj ⟨h.1, .inr h.2⟩) hlt).trans
        (hstores.kept d j (fun h => hj ⟨h.1, .inl h.2⟩) hlt)
      tiles := fun i k hi => (htile (by split_ifs <;> omega) (State.cmpPlace_lt hi)).trans (htiles i k hi)
      index := fun h => by
        have hsmall : 1 + (s.cmpPresent c).length ≤ s.cmpSpan c := of_decide_eq_true h
        exact (htile le_rfl (by omega)).trans (hindex h)
      header := fun h => (hputs.written (hsame.trans h)).1
      noHeader := fun h => (hputs.unwritten (hsame.trans h)).trans hhead }

/-- What a whole run leaves: its report, its end and the memory. -/
structure State.compressed (s t : State) (c : Lcn) : Prop where
  present : t.get F.SPX_CMP_STAT_PRESENT c.toNat = (s.cmpPresent c).length % 2 ^ F.SPX_CMP_STAT_PRESENT.width
  dense : t.get F.SPX_CMP_STAT_DENSE c.toNat = if s.cmpSparse c then 0 else 1
  pruned : t.get F.SPX_CMP_STAT_PRUNED c.toNat = if s.cmpLost c then 1 else s.get F.SPX_CMP_STAT_PRUNED c.toNat
  ended : s.endsCommand t c compressorStatus (s.get F.SPX_CMP_CMD_TACK c.toNat % 32)
    (if s.tileGood c (s.cmpHeaderAt c / 256) then none else some 7)
  writes : s.cmpWrites t c

theorem State.compressed_of_report {lost sparse : Bool} {p : Nat} {e : Option Nat} (hkept : s.fieldsKept w failureFields) :
    let t := (w.cmpReport c lost sparse p).cmpEnd c e
    t.get F.SPX_CMP_STAT_PRESENT c.toNat = p % 2 ^ F.SPX_CMP_STAT_PRESENT.width ∧
      t.get F.SPX_CMP_STAT_DENSE c.toNat = (if sparse then 0 else 1) ∧
      t.get F.SPX_CMP_STAT_PRUNED c.toNat = (if lost then 1 else s.get F.SPX_CMP_STAT_PRUNED c.toNat) ∧
      s.endsCommand t c compressorStatus (s.get F.SPX_CMP_CMD_TACK c.toNat % 32) e ∧ t.sram = w.sram := by
  intro t
  obtain ⟨hends, hend, _, _, hrest⟩ := (w.cmpReport c lost sparse p).cmpEnd_spec c e
  obtain ⟨_, hregs⟩ := w.cmpReport_regs c lost sparse p
  obtain ⟨hpresent, hdense, hpruned⟩ := w.get_cmpReport c lost sparse p
  have hreport := hkept.trans (w.fieldsKept_cmpReport c lost sparse p)
  have hget (f : Fld) (hf : f.id ∉ (compressorStatus.fields ++ signalFields).map (·.id)) :=
    hend f c.toNat 0 hf c.isLt (by decide)
  have htack := hreport F.SPX_CMP_CMD_TACK c.toNat 0 (by decide) c.isLt (by decide)
  have hlost := hkept F.SPX_CMP_STAT_PRUNED c.toNat 0 (by decide) c.isLt (by decide)
  rw [htack] at hends
  refine ⟨(hget _ (by decide)).trans hpresent, (hget _ (by decide)).trans hdense, ?_,
    hends.of_kept hreport (Nat.mod_lt _ (by decide)) (by decide) (by decide), ?_⟩
  · rw [hget _ (by decide), hpruned, hlost]
  · simp only [t]
    rw [hrest, hregs]

theorem State.compress_compressed (hgood : ∀ k < s.cmpSpan c, s.tileGood c (s.cmpSrc c + k) = true)
    (hdst : s.cmpDst c + s.cmpSpan c ≤ 256) (hhdr : s.cmpHeaderAt c < 2 ^ 16)
    (hapart : ¬(s.cmpDst c ≤ s.cmpHeaderAt c / 256 ∧ s.cmpHeaderAt c / 256 < s.cmpDst c + s.cmpSpan c)) :
    s.compressed (s.compress c) c := by
  obtain ⟨w, hkept, hwrites, heq⟩ := State.compress_spec hgood hdst hhdr hapart
  obtain ⟨hpresent, hdense, hpruned, hends, hsram⟩ := State.compressed_of_report (c := c) (lost := s.cmpLost c)
    (sparse := s.cmpSparse c) (p := (s.cmpPresent c).length)
    (e := if s.tileGood c (s.cmpHeaderAt c / 256) then none else some 7) hkept
  rw [heq]
  exact ⟨hpresent, hdense, hpruned, hends, hwrites.congr hsram⟩

theorem State.compress_stopped (h : ∃ k < s.cmpSpan c, s.tileGood c (s.cmpSrc c + k) = false) :
    s.endsCommand (s.compress c) c compressorStatus (s.get F.SPX_CMP_CMD_TACK c.toNat % 32) (some 7) ∧
      (s.compress c).sram = s.sram := by
  obtain ⟨tile, heq⟩ := State.compress_bad h
  have hnotes := s.notesFailure_tileFailed c tile (cause := 3) (by decide)
  obtain ⟨_, _, _, _, _, hfailed⟩ := hnotes.rest
  obtain ⟨hends, -, _, _, hrest⟩ := (s.tileFailed c tile 3).cmpEnd_spec c (some 7)
  rw [hnotes.kept F.SPX_CMP_CMD_TACK c.toNat 0 (by decide) c.isLt (by decide)] at hends
  rw [heq]
  refine ⟨hends.of_kept hnotes.kept (Nat.mod_lt _ (by decide)) (by decide) (by decide), ?_⟩
  rw [hrest, hfailed]

theorem exec_compressorDone (hbusy : s.get F.SPX_CMP_STAT_BUSY c.toNat = 1) (hclocked : s.clocked c = true) :
    exec (.compressorDone c) s = .next (s.compress c) := by
  have hruns : (s.flag F.SPX_CMP_STAT_BUSY c.toNat && s.clocked c) = true := by simp [State.flag, hbusy, hclocked]
  exact congrArg Host.Outcome.next (if_pos hruns)

/-! ### The run's outcome in the statement's terms -/

theorem State.cmpSparse_iff (s : State) (c : Lcn) : s.cmpSparse c = true ↔ (s.cmpPresent c).length + 1 ≤ s.cmpSpan c := by
  rw [State.cmpSparse, decide_eq_true_iff, Nat.add_comm]

theorem State.mem_cmpWritten {k : Nat} :
    k ∈ s.cmpWritten c ↔ k < s.cmpSpan c ∧ (s.cmpSparse c = true → k ∈ s.cmpPresent c) := by
  cases hform : s.cmpSparse c with
  | false => simp [State.cmpWritten, hform]
  | true =>
    simp only [State.cmpWritten, hform, if_true, forall_const]
    exact ⟨fun h => ⟨s.cmpPresent_lt c k h, h⟩, fun h => h.2⟩

theorem State.cmpLost_iff (s : State) (c : Lcn) : s.cmpLost c = true ↔ s.cmpPrunes c = true ∧
    ∃ k, k < s.cmpSpan c ∧ (s.cmpSparse c = true → k ∈ s.cmpPresent c) ∧ dropsElement (s.cmpFmt c) (s.cmpTile c k) := by
  rw [State.cmpLost, List.any_eq_true]
  cases hprune : s.cmpPrunes c with
  | false => simp [State.cmpEntry, hprune]
  | true => simp only [State.cmpEntry, hprune, if_true, pruneTile_lost, State.mem_cmpWritten, and_assoc, true_and]

theorem State.cmpHeader_eq (hdst : s.cmpDst c + s.cmpSpan c ≤ 256) :
    s.cmpHeader c % 256 ^ 16 = if s.cmpSparse c then
        1 + (if s.cmpPrunes c then 4 else 0) + s.cmpSpan c * 2 ^ 8 + (s.cmpPresent c).length * 2 ^ 16 + s.cmpDst c * 2 ^ 24
      else (if s.cmpPrunes c then 4 else 0) + s.cmpSpan c * 2 ^ 8 + s.cmpDst c * 2 ^ 24 := by
  have hlen : (s.cmpPresent c).length ≤ s.cmpSpan c := length_le_of_sorted (s.cmpPresent_sorted c) (s.cmpPresent_lt c)
  have hmod {n : Nat} (hn : n < 2 ^ 40) : n % 256 ^ 16 = n := Nat.mod_eq_of_lt (hn.trans (by decide))
  have hpieces : s.cmpHeader c < 2 ^ 40 := by
    have hbit (b : Bool) : bit b ≤ 1 := by cases b <;> decide
    have hform := hbit (s.cmpSparse c)
    have hprune := hbit (s.cmpPrunes c)
    unfold State.cmpHeader headerBits
    split_ifs <;> omega
  rw [hmod hpieces]
  cases hform : s.cmpSparse c <;> simp [State.cmpHeader, headerBits, hform, bit]

end

end Sys2Proof.Machine
end

section
/-!
PROOFS. The selection engine's run (O38): the groups chosen, their index tile and header, and the gather.
-/

namespace Sys2Proof.Machine

/-! ### The groups chosen (06 R241) -/

section
variable {n : Nat} {x : Nat → Nat} {value : Nat → Num}

theorem zipIdx_map_range (n : Nat) (x : Nat → Nat) :
    ((List.range n).map x).zipIdx = (List.range n).map fun k => (x k, k) := by
  refine List.ext_getElem? fun i => ?_
  by_cases hi : i < n <;> simp [hi]

/-- A group whose score is below none of the threshold's. -/
def overThreshold (value : Nat → Num) (thr : Num) (k : Nat) : Bool :=
  !(value k).isNan && !thr.isNan && !(value k).less thr

theorem selectByThreshold_eq (f : Fp) (n : Nat) (x : Nat → Nat) (thr : Nat) :
    selectByThreshold f ((List.range n).map x) thr =
      (List.range n).filter (overThreshold (fun k => (f.decode (x k)).1) (f.decode thr).1) := by
  rw [selectByThreshold, zipIdx_map_range, List.filter_map, List.map_map]
  exact List.map_id _

/-- A group comes before another in the order of selection. -/
def outscores (value : Nat → Num) (g k : Nat) : Bool :=
  !(value g).isNan && ((value k).less (value g) || (!(value g).less (value k) && decide (g < k)))

/-- The other groups that come before one. -/
def outscoring (value : Nat → Num) (n k : Nat) : List Nat :=
  (List.range n).filter fun g => g != k && outscores value g k

theorem selectTop_eq (f : Fp) (n : Nat) (x : Nat → Nat) (top : Nat) : selectTop f ((List.range n).map x) top =
    (List.range n).filter fun k => !((f.decode (x k)).1).isNan &&
      decide ((outscoring (fun k => (f.decode (x k)).1) n k).length < top) := by
  have hnumbers : (((List.range n).map fun k => (x k, k)).map fun e => ((f.decode e.1).1, e.2)).filter (fun e => !e.1.isNan) =
      ((List.range n).filter fun k => !((f.decode (x k)).1).isNan).map fun k => ((f.decode (x k)).1, k) := by
    rw [List.map_map, List.filter_map]
    rfl
  have hcount (k : Nat) : ((((List.range n).filter fun k => !((f.decode (x k)).1).isNan).map fun k =>
      ((f.decode (x k)).1, k)).filter fun g => g.2 != k && ((f.decode (x k)).1.less g.1 ||
        (!g.1.less (f.decode (x k)).1 && decide (g.2 < k)))).length =
      (outscoring (fun k => (f.decode (x k)).1) n k).length := by
    rw [List.filter_map, List.length_map, List.filter_filter, outscoring]
    refine congrArg List.length (List.filter_congr fun g _ => ?_)
    simp only [outscores, Function.comp_apply]
    exact (Bool.and_assoc ..).trans (congrArg _ (Bool.and_comm ..))
  rw [selectTop, zipIdx_map_range, hnumbers, List.filter_map, List.map_map, List.filter_filter]
  refine (List.map_id _).trans (List.filter_congr fun k _ => ?_)
  simp only [Function.comp_apply, hcount]
  exact Bool.and_comm _ _

/-- Fewer groups than a count come before one, however one counts them. -/
theorem outscoring_lt_iff (value : Nat → Num) (n k top : Nat) : (outscoring value n k).length < top ↔
    ∀ r : List Nat, r.Nodup → (∀ g ∈ r, g < n ∧ g ≠ k ∧ outscores value g k = true) → r.length < top := by
  have hmem (g : Nat) : g ∈ outscoring value n k ↔ g < n ∧ g ≠ k ∧ outscores value g k = true := by simp [outscoring]
  constructor
  · intro hlt r hr hall
    exact (List.subperm_of_subset hr fun g hg => (hmem g).2 (hall g hg)).length_le.trans_lt hlt
  · intro hall
    exact hall _ (List.nodup_range.filter _) fun g hg => (hmem g).1 hg

theorem outscores_iff (g k : Nat) : outscores value g k = true ↔ (value g).isNan = false ∧
    ((value k).less (value g) = true ∨ ((value g).less (value k) = false ∧ g < k)) := by
  simp [outscores]

end

section
variable {s t w : State} {c : Lcn} {l : SelLatch}

/-- What the selection engine's command names: its score tile, the tile and the byte of the results, the number of groups. -/
def State.selScoreTile (s : State) (c : Lcn) : Nat := s.get F.SPX_SEL_CMD_SCORE c.toNat

def State.selIdx (s : State) (c : Lcn) : Nat := s.get F.SPX_SEL_CMD_IDX c.toNat

def State.selHeaderAt (s : State) (c : Lcn) : Nat := 16 * s.get F.SPX_SEL_CMD_HDR16 c.toNat

def State.selGroups (s : State) (c : Lcn) : Nat := s.get F.SPX_SEL_CMD_GROUPS c.toNat

/-- The format of the scores. -/
def State.selFormat (s : State) (c : Lcn) : Fp :=
  if s.get F.SPX_SEL_CMD_SFMT c.toNat = 1 then ⟨8, 7, 127, .ieee, false⟩ else ⟨5, 10, 15, .ieee, false⟩

/-- The score of a group, as bits and as a number. -/
def State.selScore (s : State) (c : Lcn) (k : Nat) : Nat := tileElem 6 (s.readTile c (s.selScoreTile c)) k

def State.selValue (s : State) (c : Lcn) (k : Nat) : Num := ((s.selFormat c).decode (s.selScore c k)).1

/-- Whether a group is chosen. -/
def State.selects (s : State) (c : Lcn) (l : SelLatch) (k : Nat) : Bool :=
  if s.get F.SPX_SEL_CMD_TOPN c.toNat = 1 then
    !(s.selValue c k).isNan && decide ((outscoring (s.selValue c) (s.selGroups c) k).length < s.get F.SPX_SEL_CMD_N c.toNat)
  else overThreshold (s.selValue c) ((s.selFormat c).decode l.thr).1 k

/-- The groups chosen. -/
def State.selChosen (s : State) (c : Lcn) (l : SelLatch) : List Nat := (List.range (s.selGroups c)).filter (s.selects c l)

theorem State.selChosen_sorted (s : State) (c : Lcn) (l : SelLatch) : (s.selChosen c l).Pairwise (· < ·) :=
  List.pairwise_lt_range.filter _

theorem State.selChosen_lt (s : State) (c : Lcn) (l : SelLatch) : ∀ k ∈ s.selChosen c l, k < s.selGroups c :=
  fun _ hk => List.mem_range.1 (List.mem_of_mem_filter hk)

theorem State.mem_selChosen {k : Nat} : k ∈ s.selChosen c l ↔ k < s.selGroups c ∧ (s.selValue c k).isNan = false ∧
    if s.get F.SPX_SEL_CMD_TOPN c.toNat = 1 then
      ∀ r : List Nat, r.Nodup → (∀ g, g ∈ r → g < s.selGroups c ∧ g ≠ k ∧ ((s.selValue c g).isNan = false ∧
        ((s.selValue c k).less (s.selValue c g) = true ∨ ((s.selValue c g).less (s.selValue c k) = false ∧ g < k)))) →
        r.length < s.get F.SPX_SEL_CMD_N c.toNat
    else ((s.selFormat c).decode l.thr).1.isNan = false ∧
      (s.selValue c k).less ((s.selFormat c).decode l.thr).1 = false := by
  rw [State.selChosen, List.mem_filter, List.mem_range, State.selects]
  refine and_congr_right fun _ => ?_
  by_cases htop : s.get F.SPX_SEL_CMD_TOPN c.toNat = 1
  · rw [if_pos htop, if_pos htop, Bool.and_eq_true, Bool.not_eq_true', decide_eq_true_iff, outscoring_lt_iff]
    simp only [outscores_iff]
  · rw [if_neg htop, if_neg htop]
    simp only [overThreshold, Bool.and_eq_true, Bool.not_eq_true', and_assoc]

/-! ### What a run writes (06 R242) -/

/-- The state with the index tile written. -/
def State.selStored (s : State) (c : Lcn) (l : SelLatch) : State := s.writeTile c (s.selIdx c) (indexTile (s.selChosen c l))

/-- The header of the groups chosen. -/
def State.selHeader (s : State) (c : Lcn) (l : SelLatch) : Nat :=
  headerBits 1 false (s.selGroups c) (s.selChosen c l).length (s.selIdx c)

/-- The end of a run whose results are written: the gather posted, or the command ended. -/
def State.selFinish (s : State) (c : Lcn) (l : SelLatch) (chosen : List Nat) : State :=
  let s := s.put F.SPX_SEL_STAT_SELECTED chosen.length c.toNat
  if s.flag F.SPX_SEL_CMD_GATHER c.toNat then (s.setCore c { s.core c with sel := none }).postGather c l chosen
  else s.selEnd c none

theorem State.selScores_eq (hgroups : s.selGroups c ≤ 128) :
    (tileElems 6 (s.readTile c (s.selScoreTile c))).take (s.selGroups c) =
      (List.range (s.selGroups c)).map (s.selScore c) := by
  have hcount : fmtCount 6 = 128 := rfl
  rw [tileElems, ← List.map_take, List.take_range, hcount, Nat.min_eq_left hgroups]
  rfl

theorem State.select_good (hgood : s.tileGood c (s.selScoreTile c) = true) (hgroups : s.selGroups c ≤ 128) :
    s.select c l =
      let r := (s.selStored c l).writePart c ((s.selStored c l).selHeaderAt c) (s.selHeader c l) 16
      if !r.1 then r.2.selEnd c (some 7) else r.2.selFinish c l (s.selChosen c l) := by
  have hchosen : (if s.flag F.SPX_SEL_CMD_TOPN c.toNat = true then
      selectTop (s.selFormat c) ((List.range (s.selGroups c)).map (s.selScore c)) (s.get F.SPX_SEL_CMD_N c.toNat)
      else selectByThreshold (s.selFormat c) ((List.range (s.selGroups c)).map (s.selScore c)) l.thr) = s.selChosen c l := by
    rw [selectTop_eq, selectByThreshold_eq]
    by_cases htop : s.get F.SPX_SEL_CMD_TOPN c.toNat = 1
    · have hflag : s.flag F.SPX_SEL_CMD_TOPN c.toNat = true := decide_eq_true htop
      rw [if_pos hflag]
      exact List.filter_congr fun k _ => by rw [State.selects, if_pos htop]; rfl
    · have hflag : ¬s.flag F.SPX_SEL_CMD_TOPN c.toNat = true := mt of_decide_eq_true htop
      rw [if_neg hflag]
      exact List.filter_congr fun k _ => by rw [State.selects, if_neg htop]; rfl
  have hformat : (if s.flag F.SPX_SEL_CMD_SFMT c.toNat = true then (⟨8, 7, 127, .ieee, false⟩ : Fp)
      else ⟨5, 10, 15, .ieee, false⟩) = s.selFormat c := by
    simp only [State.flag, State.selFormat, decide_eq_true_iff]
  unfold State.select
  dsimp only
  rw [← State.selScoreTile, hgood, ← State.selGroups, State.selScores_eq hgroups, hformat, hchosen]
  rfl

/-- What a run leaves of the memory. -/
structure State.selWrites (s w : State) (c : Lcn) (l : SelLatch) : Prop where
  bytes : ∀ d j, ¬(d = c ∧ (s.selIdx c * 256 ≤ j ∧ j < s.selIdx c * 256 + 256 ∨
    s.selHeaderAt c ≤ j ∧ j < s.selHeaderAt c + 16)) → j < 2 ^ 16 → w.readSram d j 1 = s.readSram d j 1
  index : w.readTile c (s.selIdx c) = indexTile (s.selChosen c l)
  header : s.tileGood c (s.selHeaderAt c / 256) = true → w.readSram c (s.selHeaderAt c) 16 = s.selHeader c l % 256 ^ 16
  noHeader : s.tileGood c (s.selHeaderAt c / 256) = false →
    w.readSram c (s.selHeaderAt c) 16 = s.readSram c (s.selHeaderAt c) 16

theorem State.selWrites.congr (h : s.selWrites w c l) (hsram : t.sram = w.sram) : s.selWrites t c l := by
  have hread (d : Lcn) (off n : Nat) : t.readSram d off n = w.readSram d off n := by
    rw [State.readSram, hsram, State.readSram]
  exact
    { bytes := fun d j hj hlt => (hread d j 1).trans (h.bytes d j hj hlt)
      index := by rw [State.readTile, hread, ← State.readTile, h.index]
      header := fun hgood => (hread ..).trans (h.header hgood)
      noHeader := fun hbad => (hread ..).trans (h.noHeader hbad) }

/-- A run up to its end: its results in memory, and beside them at most a failed check of the header's tile. -/
theorem State.select_spec (hgood : s.tileGood c (s.selScoreTile c) = true) (hgroups : s.selGroups c ≤ 128)
    (hidx : s.selIdx c < 256) (hhdr : s.selHeaderAt c < 2 ^ 16) (hne : s.selHeaderAt c / 256 ≠ s.selIdx c) :
    ∃ w, s.fieldsKept w failureFields ∧ s.selWrites w c l ∧ w.threads = s.threads ∧ w.spool = s.spool ∧
      s.select c l = if s.tileGood c (s.selHeaderAt c / 256) then w.selFinish c l (s.selChosen c l)
        else w.selEnd c (some 7) := by
  have hstores := s.stores_writeTile c (indexTile (s.selChosen c l)) hidx
  have hindex := s.readTile_writeTile c (s.selIdx c) (indexTile (s.selChosen c l))
  have heq := State.select_good (l := l) hgood hgroups
  rw [← State.selStored] at hstores hindex
  have hal : s.selHeaderAt c % 16 = 0 := Nat.mul_mod_right 16 _
  have hget : (s.selStored c l).selHeaderAt c = s.selHeaderAt c :=
    congrArg (16 * ·) (State.get_congr hstores.regs F.SPX_SEL_CMD_HDR16 c.toNat 0)
  have hsame := hstores.good (s.selHeaderAt c / 256) fun j hj hin => hne (by omega)
  have hhead := hstores.readSram_outside (off := s.selHeaderAt c) (n := 16)
    (fun j hlo hhi hin => hne (by omega)) (by omega)
  obtain ⟨hok, hputs⟩ := (s.selStored c l).writePart_header c (off := s.selHeaderAt c) (s.selHeader c l) (by omega)
  rw [hget] at heq
  dsimp only at heq
  rw [hok, hsame] at heq
  obtain ⟨_, _, _, _, hstored⟩ := hstores.rest
  obtain ⟨_, _, _, _, _, _, _, _, hrest⟩ := hputs.rest
  refine ⟨_, (State.fieldsKept_of_regs hstores.regs _).trans_same hputs.kept, ?_, ?_, ?_, heq.trans ?_⟩
  · exact
      { bytes := fun d j hj hlt => (hputs.bytes d j (fun h => hj ⟨h.1, .inr h.2⟩) hlt).trans
          (hstores.kept d j (fun h => hj ⟨h.1, .inl h.2⟩) hlt)
        index := (hputs.readTile hidx hal hne).trans hindex
        header := fun h => (hputs.written (hsame.trans h)).1
        noHeader := fun h => (hputs.unwritten (hsame.trans h)).trans hhead }
  · rw [hrest, hstored]
  · rw [hrest, hstored]
  · cases s.tileGood c (s.selHeaderAt c / 256) <;> rfl

/-! ### The gather posted (06 R243) -/

/-- The moves of a gather: for each group chosen its tiles, to tiles one after another. -/
def gatherMoves (l : SelLatch) (own : Nat) (groups : List Nat) : List (Nat × Nat) :=
  groups.zipIdx.flatMap fun e => (List.range l.tpg).map fun t =>
    (l.addr + e.1 * l.stride + 256 * t, own + (l.dst + e.2 * l.tpg + t) * 256)

theorem length_gatherMoves (l : SelLatch) (own : Nat) (groups : List Nat) :
    (gatherMoves l own groups).length = groups.length * l.tpg := by
  rw [gatherMoves, length_flatMap_const (d := l.tpg) fun e _ => by simp, List.length_zipIdx]

theorem gatherMoves_getElem? {own : Nat} {groups : List Nat} {i g k : Nat} (hi : groups[i]? = some g) (hk : k < l.tpg) :
    (gatherMoves l own groups)[i * l.tpg + k]? =
      some (l.addr + g * l.stride + 256 * k, own + (l.dst + i * l.tpg + k) * 256) := by
  rw [gatherMoves, getElem?_flatMap_const (d := l.tpg) (fun e _ => by simp) hk, List.getElem?_zipIdx, hi]
  simp [hk]

/-- A gather posted: one request more, and the count that the spool's status shows. -/
theorem State.postGather_spec (s : State) (c : Lcn) (l : SelLatch) (groups : List Nat) :
    let t := s.postGather c l groups
    s.fieldsKept t [F.SPL_STAT_POSTED] ∧ t.threads = s.threads ∧ t.sram = s.sram ∧ t.cores = s.cores ∧
      ∃ r, t.spool = s.spool ++ [r] ∧ r.core = c ∧ r.panel = panelOf c ∧ r.isGather = true ∧ r.taken = false ∧
        r.tack = s.get F.SPX_SEL_CMD_TACK c.toNat ∧ r.gather = gatherMoves l ((s.seenLcn c).toNat * 65536) groups := by
  refine ⟨?_, rfl, rfl, rfl, _, rfl, rfl, rfl, rfl, rfl, rfl, rfl⟩
  exact (State.fieldsKept_of_regs rfl []).trans (State.fieldsKept_put_core _ F.SPL_STAT_POSTED _ c)

/-! ### A run's outcome -/

theorem State.selFinish_ends (hgather : s.get F.SPX_SEL_CMD_GATHER c.toNat ≠ 1) (chosen : List Nat) :
    let t := s.selFinish c l chosen
    s.endsCommand t c selectionStatus (s.get F.SPX_SEL_CMD_TACK c.toNat % 32) none ∧
      t.get F.SPX_SEL_STAT_SELECTED c.toNat = chosen.length % 2 ^ F.SPX_SEL_STAT_SELECTED.width ∧
      (t.core c).sel = none ∧ t.spool = s.spool ∧ t.sram = s.sram := by
  let v := s.put F.SPX_SEL_STAT_SELECTED chosen.length c.toNat
  have hput := s.fieldsKept_put_core F.SPX_SEL_STAT_SELECTED chosen.length c
  have hflag : ¬v.flag F.SPX_SEL_CMD_GATHER c.toNat = true := by
    rw [State.flag, decide_eq_true_iff, hput F.SPX_SEL_CMD_GATHER c.toNat 0 (by decide) c.isLt (by decide)]
    exact hgather
  have heq : s.selFinish c l chosen = v.selEnd c none := if_neg hflag
  obtain ⟨hends, hkept, hsel, _, _, _, hrest⟩ := v.selEnd_spec c none
  rw [hput F.SPX_SEL_CMD_TACK c.toNat 0 (by decide) c.isLt (by decide)] at hends
  rw [heq]
  refine ⟨hends.of_kept hput (Nat.mod_lt _ (by decide)) (by decide) (by decide), ?_, hsel, by rw [hrest]; rfl,
    by rw [hrest]; rfl⟩
  exact (hkept _ _ 0 (by decide) c.isLt (by decide)).trans (State.get_put_same ..)

theorem State.selFinish_gathers (hgather : s.get F.SPX_SEL_CMD_GATHER c.toNat = 1) (chosen : List Nat) :
    let t := s.selFinish c l chosen
    t.get F.SPX_SEL_STAT_BUSY c.toNat = s.get F.SPX_SEL_STAT_BUSY c.toNat ∧
      t.get F.SPX_SEL_STAT_SELECTED c.toNat = chosen.length % 2 ^ F.SPX_SEL_STAT_SELECTED.width ∧
      (t.core c).sel = none ∧ t.threads = s.threads ∧ t.sram = s.sram ∧
      ∃ r, t.spool = s.spool ++ [r] ∧ r.core = c ∧ r.panel = panelOf c ∧ r.isGather = true ∧ r.taken = false ∧
        r.tack = s.get F.SPX_SEL_CMD_TACK c.toNat ∧ r.gather = gatherMoves l ((s.seenLcn c).toNat * 65536) chosen := by
  let v := s.put F.SPX_SEL_STAT_SELECTED chosen.length c.toNat
  let w := v.setCore c { v.core c with sel := none }
  have hput : s.fieldsKept w [F.SPX_SEL_STAT_SELECTED] := s.fieldsKept_put_core F.SPX_SEL_STAT_SELECTED chosen.length c
  have hget (f : Fld) (hf : f.id ∉ [F.SPX_SEL_STAT_SELECTED].map (·.id)) : w.get f c.toNat = s.get f c.toNat :=
    hput f c.toNat 0 hf c.isLt (by decide)
  have hflag : v.flag F.SPX_SEL_CMD_GATHER c.toNat = true := decide_eq_true ((hget _ (by decide)).trans hgather)
  have heq : s.selFinish c l chosen = w.postGather c l chosen := if_pos hflag
  have hseen : w.seenLcn c = s.seenLcn c := by rw [seenLcn_eq, seenLcn_eq, hget _ (by decide)]
  have hsel : (w.core c).sel = none := by rw [State.core_setCore_same]
  obtain ⟨hkept, hthreads, hsram, hcores, r, hspool, hcore, hpanel, hisGather, htaken, htack, hmoves⟩ :=
    w.postGather_spec c l chosen
  rw [heq]
  have hposted (f : Fld) (hf : f.id ∉ [F.SPL_STAT_POSTED].map (·.id)) := hkept f c.toNat 0 hf c.isLt (by decide)
  refine ⟨(hposted _ (by decide)).trans (hget _ (by decide)), (hposted _ (by decide)).trans (State.get_put_same ..), ?_,
    hthreads, hsram, r, hspool, hcore, hpanel, hisGather, htaken, htack.trans (hget _ (by decide)), by rw [hmoves, hseen]⟩
  rw [State.core_congr hcores, hsel]

/-- A whole run on a good score tile whose header's tile fails its check. -/
theorem State.select_noHeader (hgood : s.tileGood c (s.selScoreTile c) = true) (hgroups : s.selGroups c ≤ 128)
    (hidx : s.selIdx c < 256) (hhdr : s.selHeaderAt c < 2 ^ 16) (hne : s.selHeaderAt c / 256 ≠ s.selIdx c)
    (hbad : s.tileGood c (s.selHeaderAt c / 256) = false) :
    s.endsCommand (s.select c l) c selectionStatus (s.get F.SPX_SEL_CMD_TACK c.toNat % 32) (some 7) ∧
      ((s.select c l).core c).sel = none ∧ s.selWrites (s.select c l) c l := by
  obtain ⟨w, hkept, hwrites, -, -, heq⟩ := State.select_spec (l := l) hgood hgroups hidx hhdr hne
  obtain ⟨hends, -, hsel, _, _, _, hrest⟩ := w.selEnd_spec c (some 7)
  rw [hkept F.SPX_SEL_CMD_TACK c.toNat 0 (by decide) c.isLt (by decide)] at hends
  rw [heq, hbad]
  exact ⟨hends.of_kept hkept (Nat.mod_lt _ (by decide)) (by decide) (by decide), hsel, hwrites.congr (by rw [hrest]; rfl)⟩

/-- A run on a score tile that fails its check. -/
theorem State.select_stopped (hbad : s.tileGood c (s.selScoreTile c) = false) :
    s.endsCommand (s.select c l) c selectionStatus (s.get F.SPX_SEL_CMD_TACK c.toNat % 32) (some 7) ∧
      ((s.select c l).core c).sel = none ∧ (s.select c l).sram = s.sram := by
  have heq : s.select c l = (s.tileFailed c (s.selScoreTile c) 3).selEnd c (some 7) := by
    unfold State.select
    dsimp only
    rw [← State.selScoreTile, hbad]
    rfl
  have hnotes := s.notesFailure_tileFailed c (s.selScoreTile c) (cause := 3) (by decide)
  obtain ⟨_, _, _, _, _, hfailed⟩ := hnotes.rest
  obtain ⟨hends, -, hsel, _, _, _, hrest⟩ := (s.tileFailed c (s.selScoreTile c) 3).selEnd_spec c (some 7)
  rw [hnotes.kept F.SPX_SEL_CMD_TACK c.toNat 0 (by decide) c.isLt (by decide)] at hends
  rw [heq]
  refine ⟨hends.of_kept hnotes.kept (Nat.mod_lt _ (by decide)) (by decide) (by decide), hsel, ?_⟩
  rw [hrest, hfailed]

/-- What a whole run leaves whose results are all written. -/
structure State.selected (s t : State) (c : Lcn) (l : SelLatch) : Prop where
  writes : s.selWrites t c l
  count : t.get F.SPX_SEL_STAT_SELECTED c.toNat = (s.selChosen c l).length % 2 ^ F.SPX_SEL_STAT_SELECTED.width
  sel : (t.core c).sel = none
  ends : s.get F.SPX_SEL_CMD_GATHER c.toNat ≠ 1 →
    s.endsCommand t c selectionStatus (s.get F.SPX_SEL_CMD_TACK c.toNat % 32) none ∧ t.spool = s.spool
  gathers : s.get F.SPX_SEL_CMD_GATHER c.toNat = 1 →
    t.get F.SPX_SEL_STAT_BUSY c.toNat = s.get F.SPX_SEL_STAT_BUSY c.toNat ∧ t.threads = s.threads ∧
      ∃ r, t.spool = s.spool ++ [r] ∧ r.core = c ∧ r.panel = panelOf c ∧ r.isGather = true ∧ r.taken = false ∧
        r.tack = s.get F.SPX_SEL_CMD_TACK c.toNat ∧
        r.gather = gatherMoves l ((s.seenLcn c).toNat * 65536) (s.selChosen c l)

theorem State.select_selected (hgood : s.tileGood c (s.selScoreTile c) = true) (hgroups : s.selGroups c ≤ 128)
    (hidx : s.selIdx c < 256) (hhdr : s.selHeaderAt c < 2 ^ 16) (hne : s.selHeaderAt c / 256 ≠ s.selIdx c)
    (hheader : s.tileGood c (s.selHeaderAt c / 256) = true) : s.selected (s.select c l) c l := by
  obtain ⟨w, hkept, hwrites, hthreads, hspool, heq⟩ := State.select_spec (l := l) hgood hgroups hidx hhdr hne
  rw [hheader, if_pos rfl] at heq
  have hget (f : Fld) (hf : f.id ∉ failureFields.map (·.id)) : w.get f c.toNat = s.get f c.toNat :=
    hkept f c.toNat 0 hf c.isLt (by decide)
  have hgatherKept := hget F.SPX_SEL_CMD_GATHER (by decide)
  have htackKept := hget F.SPX_SEL_CMD_TACK (by decide)
  have hseen : w.seenLcn c = s.seenLcn c := by rw [seenLcn_eq, seenLcn_eq, hget _ (by decide)]
  rw [heq]
  by_cases hgather : s.get F.SPX_SEL_CMD_GATHER c.toNat = 1
  · obtain ⟨hbusy, hcount, hsel, hthreads', hsram, r, hposted, hcore, hpanel, hisGather, htaken, htack, hmoves⟩ :=
      State.selFinish_gathers (l := l) (hgatherKept.trans hgather) (s.selChosen c l)
    exact ⟨hwrites.congr hsram, hcount, hsel, fun h => absurd hgather h, fun _ => ⟨hbusy.trans (hget _ (by decide)),
      hthreads'.trans hthreads, r, by rw [hposted, hspool], hcore, hpanel, hisGather, htaken, htack.trans htackKept,
      by rw [hmoves, hseen]⟩⟩
  · obtain ⟨hends, hcount, hsel, hspool', hsram⟩ :=
      State.selFinish_ends (l := l) (by rwa [hgatherKept]) (s.selChosen c l)
    rw [htackKept] at hends
    exact ⟨hwrites.congr hsram, hcount, hsel, fun _ => ⟨hends.of_kept hkept (Nat.mod_lt _ (by decide)) (by decide)
      (by decide), hspool'.trans hspool⟩, fun h => absurd h hgather⟩

theorem exec_selectionDone (hsel : (s.core c).sel = some l) (hheld : s.darnHeld c = false) (hclocked : s.clocked c = true) :
    exec (.selectionDone c) s = .next (s.select c l) := by
  have hruns : ¬(s.darnHeld c || !s.clocked c) = true := by simp [hheld, hclocked]
  have heq : exec (.selectionDone c) s = match (s.core c).sel with
    | some l => .next (if s.darnHeld c || !s.clocked c then s else s.select c l)
    | none => .next s := rfl
  rw [heq, hsel]
  exact congrArg Host.Outcome.next (if_neg hruns)

theorem State.selHeader_eq (hgroups : s.selGroups c ≤ 128) (hidx : s.selIdx c < 256) : s.selHeader c l % 256 ^ 16 =
    1 + s.selGroups c * 2 ^ 8 + (s.selChosen c l).length * 2 ^ 16 + s.selIdx c * 2 ^ 24 := by
  have hlen : (s.selChosen c l).length ≤ s.selGroups c := length_le_of_sorted (s.selChosen_sorted c l) (s.selChosen_lt c l)
  have hlt : s.selHeader c l < 2 ^ 40 := by
    unfold State.selHeader headerBits
    have hbit : bit false = 0 := rfl
    omega
  rw [Nat.mod_eq_of_lt (hlt.trans (by decide))]
  rfl

end

end Sys2Proof.Machine
end

section
/-!
PROOFS. The outcomes of the two engines in the terms of the statement, and the settlement of O38.
-/

namespace Sys2Proof.Machine

section
variable {s w t : State} {c : Lcn} {l : SelLatch} {r : EngineStatus} {k n : Nat}

/-! ### Starts and ends -/

theorem State.starts.get {go : Bool} {code : Nat} (h : s.starts w t c r go code k) (f : Fld)
    (hf : f.id ∉ (r.fields ++ signalFields).map (·.id)) : t.get f c.toNat = w.get f c.toNat :=
  h.fields f c.toNat 0 hf c.isLt (by decide)

/-- A command that ends with an error. -/
theorem State.endsCommand.fault (h : s.endsCommand t c r k (some n)) (hn : n < 2 ^ r.code.width) :
    t.get r.err c.toNat = 1 ∧ t.get r.code c.toNat = n ∧ t.get r.done c.toNat = 1 ∧ t.get r.busy c.toNat = 0 ∧
      t.get F.TACK_STATEn_VALUE c.toNat k = (s.get F.TACK_STATEn_VALUE c.toNat k + 1) % 2 ^ 32 ∧
      t.get F.TACK_STATEn_LKIND c.toNat k = 1 := by
  obtain ⟨herr, hcode⟩ := h.failed n rfl
  exact ⟨herr, hcode.trans (Nat.mod_eq_of_lt hn), h.done, h.busy, h.value, h.kind⟩

/-! ### The stripe's tiles -/

/-- A tile reads as an index tile of sorted positions. -/
theorem readTile_index {d : Nat} {l : List Nat} (h : t.readTile c d = indexTile l) (hl : l.Pairwise (· < ·))
    (hlt : ∀ k ∈ l, k < 128) : (∀ k, k < 128 → (t.readTile c d).getLsbD k = decide (k ∈ l)) ∧
      ∀ i k, l[i]? = some k → (t.readTile c d).toNat / 2 ^ (128 + 8 * i) % 2 ^ 8 = k := by
  rw [h]
  exact ⟨fun k hk => indexTile_bit hl hlt hk, fun i k hi => indexTile_entry hl hlt hi⟩

/-- The two that a group keeps, each compared with each of the others. -/
theorem leadsGroup_iff_keeps {fmt : Nat} {t : Tile} {g p q : Nat} : LeadsGroup fmt t g p q ↔
    p < q ∧ q < 4 ∧ ∀ r, r < 4 → r ≠ p → r ≠ q → ∀ m, m = p ∨ m = q →
      magnitudeLess fmt (tileElem fmt t (4 * g + m)) (tileElem fmt t (4 * g + r)) = false ∧
        (magnitudeLess fmt (tileElem fmt t (4 * g + r)) (tileElem fmt t (4 * g + m)) = true ∨ m < r) := by
  simp only [LeadsGroup, Leads, goesBefore_iff, forall_eq_or_imp, forall_eq]

theorem State.cmpEntry_dense (h : s.get F.SPX_CMP_CMD_PRUNE24 c.toNat ≠ 1) (k : Nat) :
    (s.cmpEntry c k).1 = s.cmpTile c k := by
  rw [State.cmpEntry, if_neg (by simpa [State.cmpPrunes, State.flag] using h)]

theorem State.cmpEntry_pruned (h : s.get F.SPX_CMP_CMD_PRUNE24 c.toNat = 1) (k : Nat) :
    s.cmpEntry c k = pruneTile (s.cmpFmt c) (s.cmpTile c k) := if_pos (decide_eq_true h)

/-- A group of a source tile as it stands in a tile written in the 2:4 form. -/
theorem State.cmpEntry_group {x : Tile} (h : x = (s.cmpEntry c k).1) (hprune : s.get F.SPX_CMP_CMD_PRUNE24 c.toNat = 1)
    (hfmt : s.cmpFmt c ≤ 7) {g p q : Nat} (hg : g < fmtCount (s.cmpFmt c) / 4)
    (hlead : LeadsGroup (s.cmpFmt c) (s.cmpTile c k) g p q) :
    let at_ (i : Nat) := x.toNat / 2 ^ (fmtWidth (s.cmpFmt c) * i) % 2 ^ fmtWidth (s.cmpFmt c)
    let code (i : Nat) := x.toNat / 2 ^ (1024 + 2 * i) % 4
    at_ (2 * g) = tileElem (s.cmpFmt c) (s.cmpTile c k) (4 * g + p) ∧
      at_ (2 * g + 1) = tileElem (s.cmpFmt c) (s.cmpTile c k) (4 * g + q) ∧ code (2 * g) = p ∧ code (2 * g + 1) = q := by
  rw [h, State.cmpEntry_pruned hprune]
  exact pruneTile_group hfmt hg hlead

theorem State.cmpWrites.dense (h : s.cmpWrites t c) (hform : ¬s.cmpSparse c = true) (hk : k < s.cmpSpan c) :
    t.readTile c (s.cmpDst c + k) = (s.cmpEntry c k).1 := by
  have htile := h.tiles k k (by rw [State.cmpWritten, if_neg hform]; exact List.getElem?_range hk)
  rwa [if_neg hform] at htile

theorem State.cmpWrites.sparse (h : s.cmpWrites t c) (hform : s.cmpSparse c = true) {i : Nat}
    (hi : (s.cmpPresent c)[i]? = some k) : t.readTile c (s.cmpDst c + 1 + i) = (s.cmpEntry c k).1 := by
  have htile := h.tiles i k (by rw [State.cmpWritten, if_pos hform]; exact hi)
  rwa [if_pos hform] at htile

end

/-- Settles O38: the starts by the fields of a written command and its checks, the runs by what their stores leave byte by
byte, the kept pairs by the total order of magnitude and place. -/
theorem compressorAndSelection : Obligations.CompressorAndSelection := by
  unfold Obligations.CompressorAndSelection
  intro s c hbacked hclocked u go meet signalled
  refine ⟨fun v => ⟨fun hbusy => ?rejCmp, fun hbusy => ?rejSel, fun hbusy => ?startCmp, fun hbusy => ?startSel⟩, ?doneCmp,
    ?doneSel⟩
  case rejCmp => rw [exec_compressorStart hbacked hclocked, State.writeCmpCmd_busy hbusy]
  case rejSel => rw [exec_selectionStart hbacked hclocked, State.writeSelCmd_busy hbusy]
  case startCmp =>
    intro src dst span fmt hdr code
    have hstarts := State.writeCmpCmd_starts hbusy v
    have hget := hstarts.get
    obtain ⟨hsrc, hdst, hspan, hfmt, hprune, htack, hhdr⟩ := s.get_cmpCmd c v.toNat
    obtain ⟨hthreads, -, -⟩ := (s.regsOnly_writePlain .SPX_CMP_CMD c.toNat 0 v.toNat).kept
    have hkept := (cmpCmd_stands c).fieldsKept_writePlain s v.toNat
    refine ⟨_, exec_compressorStart hbacked hclocked v, (hget _ (by decide)).trans hsrc, (hget _ (by decide)).trans hdst,
      (hget _ (by decide)).trans hspan, (hget _ (by decide)).trans hfmt, (hget _ (by decide)).trans hprune,
      (hget _ (by decide)).trans htack, (hget _ (by decide)).trans hhdr, hstarts.sram, fun hgo => ?_, hstarts.runs,
      fun hgo hfault => (hstarts.faults hgo hfault).fault (cmpCode_lt ..)⟩
    rw [hstarts.held hgo]
    exact ⟨hthreads, hkept _ _ _ (by decide) c.isLt (by decide)⟩
  case startSel =>
    intro score idx groups n gather hdr tpg dst addr met code
    obtain ⟨hstarts, hsel⟩ := State.writeSelCmd_starts hbusy v
    have hcode : s.selWordCode c v.toNat = code := by
      simp only [State.selWordCode, selCode, Option.isSome_eq_false_iff, Option.isNone_iff_eq_none]
      rfl
    have hlt : code < 2 ^ 4 := hcode ▸ selCode_lt ..
    rw [hcode] at hstarts hsel
    have hget := hstarts.get
    obtain ⟨hscore, hidx, hgroups, hn, -, -, -, -⟩ := s.get_selCmd c v.toNat
    obtain ⟨hthreads, -, -⟩ := (s.regsOnly_writePlain .SPX_SEL_CMD c.toNat 0 v.toNat).kept
    have hkept := (selCmd_stands c).fieldsKept_writePlain s v.toNat
    refine ⟨_, exec_selectionStart hbacked hclocked v, hstarts.sram, (hget _ (by decide)).trans hscore,
      (hget _ (by decide)).trans hidx, (hget _ (by decide)).trans hgroups, (hget _ (by decide)).trans hn,
      fun hgo => ?_, fun hgo hzero => ?_, fun hgo hfault => ?_⟩
    · rw [hstarts.held hgo]
      exact ⟨hthreads, hkept _ _ _ (by decide) c.isLt (by decide)⟩
    · obtain ⟨hruns, hrunning⟩ := hstarts.runs hgo hzero
      exact ⟨hruns, hrunning, (hsel hgo).trans (if_pos hzero)⟩
    · obtain ⟨herr, herrcode, hdone, hidle, hsignal⟩ := (hstarts.faults hgo hfault).fault hlt
      exact ⟨herr, herrcode, hdone, hidle, (hsel hgo).trans (if_neg hfault), hsignal⟩
  case doneCmp =>
    intro hbusy src dst span fmt prune hdr present l sparse elem groups keeps drops holds s24 stopped hspan hsrc hdst hfmt
      hprunable hhdr hapart
    rw [exec_compressorDone hbusy hclocked]
    have hsparse : s.cmpSparse c = true ↔ sparse := s.cmpSparse_iff c
    have hprunes : s.cmpPrunes c = true ↔ prune := decide_eq_true_iff
    refine ⟨fun hbad => ?_, fun hgood => ?_⟩
    · obtain ⟨hends, hsram⟩ := State.compress_stopped hbad
      exact ⟨_, rfl, hends.fault (by decide), hsram⟩
    obtain ⟨hpresent, hdense, hpruned, hended, hwrites⟩ := State.compress_compressed hgood hdst hhdr hapart
    generalize s.compress c = t at *
    change s.endsCommand t c compressorStatus _ (if s.tileGood c (hdr / 256) then none else some 7) at hended
    have hheader := s.cmpHeader_eq hdst
    rw [show (if s.cmpPrunes c then 4 else 0) = s24 from if_congr hprunes rfl rfl] at hheader
    have hlost : s.cmpLost c = true ↔ prune ∧ ∃ k, k < span ∧ (sparse → k ∈ l) ∧ drops k := by
      simp only [s.cmpLost_iff c, hsparse, hprunes, dropsElement, leadsGroup_iff_keeps]
      rfl
    have hholds {d k : Nat} (h : t.readTile c d = (s.cmpEntry c k).1) : holds t d k :=
      ⟨fun hno => h.trans (State.cmpEntry_dense hno k), fun hyes g p q hg hkeeps =>
        State.cmpEntry_group h hyes (hprunable hyes) hg (leadsGroup_iff_keeps.2 hkeeps)⟩
    refine ⟨_, rfl, hpresent, hdense.trans (if_congr hsparse rfl rfl),
      fun hyes hdrop => hpruned.trans (if_pos (hlost.2 ⟨hyes, hdrop⟩)), fun hnone => hpruned.trans (if_neg fun h => ?_),
      fun hbad => ?_, fun hheaderGood => ?_, fun hform k hk => hholds (hwrites.dense (mt hsparse.1 hform) hk),
      fun hform => ⟨fun i k hi => hholds (hwrites.sparse (hsparse.2 hform) hi), ?_⟩, hwrites.bytes⟩
    · obtain ⟨hyes, k, hk, hl, hdrop⟩ := hlost.1 h
      exact hnone.elim (fun hno => hno hyes) fun hkept => hkept k hk hl hdrop
    · rw [if_neg (Bool.eq_false_iff.1 hbad)] at hended
      exact ⟨hended.fault (by decide), hwrites.noHeader hbad⟩
    · have hvalue := hwrites.header hheaderGood
      rw [if_pos hheaderGood] at hended
      exact ⟨hended.done, hended.busy, hended.passed rfl, ⟨hended.value, hended.kind⟩,
        fun hform => hvalue.trans (hheader.trans (if_neg (mt hsparse.1 hform))),
        fun hform => hvalue.trans (hheader.trans (if_pos (hsparse.2 hform)))⟩
    · exact readTile_index (hwrites.index (hsparse.2 hform)) (s.cmpPresent_sorted c)
        fun k hk => (s.cmpPresent_lt c k hk).trans_le hspan
  case doneSel =>
    intro latch hsel hheld score groups idx hdr gather own f value beats chosen ended hscore hidx hgroups hhdr hne
    rw [exec_selectionDone hsel hheld hclocked]
    have hfails {t : State} (h : s.endsCommand t c selectionStatus (s.get F.SPX_SEL_CMD_TACK c.toNat % 32) (some 7))
        (hnone : (t.core c).sel = none) : ended t true := by
      obtain ⟨herr, hcode, hdone, hidle, hsignal⟩ := h.fault (by decide)
      exact ⟨hdone, hidle, hnone, hsignal, fun _ => ⟨herr, hcode⟩, nofun⟩
    refine ⟨fun hbad => ?_, fun hgood => ?_⟩
    · obtain ⟨hends, hnone, hsram⟩ := State.select_stopped (l := latch) hbad
      exact ⟨_, rfl, hfails hends hnone, hsram⟩
    have hchosen : chosen (s.selChosen c latch) := ⟨s.selChosen_sorted c latch, fun k => State.mem_selChosen⟩
    have hindex {t : State} (hwrites : s.selWrites t c latch) := readTile_index hwrites.index (s.selChosen_sorted c latch)
      fun k hk => (s.selChosen_lt c latch k hk).trans_le hgroups
    cases hheader : s.tileGood c (hdr / 256) with
    | false =>
      obtain ⟨hends, hnone, hwrites⟩ := State.select_noHeader (l := latch) hgood hgroups hidx hhdr hne hheader
      exact ⟨_, _, rfl, hchosen, (hindex hwrites).1, (hindex hwrites).2,
        fun _ => ⟨hfails hends hnone, hwrites.noHeader hheader⟩, nofun, hwrites.bytes⟩
    | true =>
      obtain ⟨hwrites, hcount, hnone, hends, hgathers⟩ :=
        State.select_selected (l := latch) hgood hgroups hidx hhdr hne hheader
      refine ⟨_, _, rfl, hchosen, (hindex hwrites).1, (hindex hwrites).2, nofun, fun _ =>
        ⟨(hwrites.header hheader).trans (State.selHeader_eq hgroups hidx), hcount, fun hno => ?_, fun hyes => ?_⟩, hwrites.bytes⟩
      · obtain ⟨hend, hspool⟩ := hends hno
        exact ⟨⟨hend.done, hend.busy, hnone, ⟨hend.value, hend.kind⟩, nofun, fun _ => hend.passed rfl⟩, hspool⟩
      · obtain ⟨hbusy, hthreads, r, hspool, hcore, hpanel, hisGather, htaken, htack, hmoves⟩ := hgathers hyes
        rw [seenLcn_eq] at hmoves
        exact ⟨hbusy, hnone, hthreads, r, hspool, hcore, hpanel, hisGather, htaken, htack,
          by rw [hmoves, length_gatherMoves], fun i g k hi hk => by rw [hmoves]; exact gatherMoves_getElem? hi hk⟩

end Sys2Proof.Machine
end
